-- ==== Sys2Proof/Word.lean ====
section
/-! DEFINITION. The words of the block: bytes, register words and the wider words it names. -/

namespace Sys2Proof

/-- A byte (R8). -/
abbrev Byte := BitVec 8

/-- A register is 32 bits wide (R11). -/
abbrev Word := BitVec 32

/-- A 64-bit value: device time (R6), addresses, step counters. -/
abbrev Dword := BitVec 64

end Sys2Proof
end

