-- ==== Sys2Proof/Syntax.lean ====
section
/-! DEFINITION. The commands of the block: one constructor of `Instr` for each row of spec/opcode_table.json, with the
operands that only the outside knows (log entry 10). -/

namespace Sys2Proof

/-- The two compute dies (R18). -/
inductive Weft where
  | a
  | b
deriving DecidableEq, Repr

/-- The three dies, in the order of Hasp's source numbers (R456). -/
inductive Die where
  | selvedge
  | weftA
  | weftB
deriving DecidableEq, Repr

/-- The two host ports (R326). -/
inductive HostPort where
  | hostA
  | hostB
deriving DecidableEq, Repr

/-- The three PCIe ports (R326). -/
inductive Port where
  | hostA
  | hostB
  | sup
deriving DecidableEq, Repr

/-- A host function: number 0 is the PF and n is VFn (R327). -/
structure FnId where
  port : HostPort
  num : Nat
deriving DecidableEq, Repr

/-- A function that owns MSI-X vectors: a host function (R337) or the supervisor function (R338). -/
inductive IrqFn where
  | fn (f : FnId)
  | sup
deriving DecidableEq, Repr

/-- The PLLs that Keeper monitors (R377, R380). -/
inductive Pll where
  | creel
  | selvFabric
  | loom (d : Weft)
  | shuttle (d : Weft)
  | weftFabric (d : Weft)
deriving DecidableEq, Repr

/-- The Weft groups that have a power state of their own (R381, KPR_PWR_STATE). -/
inductive Grp where
  | loom
  | shuttle
  | reedFinish
  | beam
deriving DecidableEq, Repr

/-- The memory levels of R244, with the intake SRAM of R461. -/
inductive Level where
  | beam
  | gddr
  | host
  | intake
deriving DecidableEq, Repr

/-- The units of a die that run queued operations, one issue queue each (R119). -/
inductive OpUnit where
  | array
  | reed
  | finish
  | stage
deriving DecidableEq, Repr

/-- A unit that Keeper can reset, with the unit codes of R461. -/
inductive UnitId where
  | engine (n : Nat)
  | pair (n : Nat)
  | reed (d : Weft)
  | finish (d : Weft)
  | link (n : Nat)
  | creel
  | heddle
deriving DecidableEq, Repr

/-- The kinds of progress monitor (R467). -/
inductive MonKind where
  | engine
  | reed
  | finish
  | context
  | link
  | slot
  | ring
deriving DecidableEq, Repr

/-- Where data lies that a checker reads (R115, R244, R265): an offset of a die's Beam SRAM or GDDR6, an address of the memory of a context's
host, or an offset of a pair's data memory. -/
inductive DataAt where
  | beam (d : Weft) (off : Nat)
  | gddr (d : Weft) (off : Nat)
  | host (ctx addr : Nat)
  | pair (n off : Nat)
deriving DecidableEq, Repr

/-- An uncorrectable error, as the checker that found it names it (R265, R460): where it lies, and the master whose access met it. -/
structure EccHit where
  place : DataAt
  master : Byte
deriving DecidableEq, Repr

/-- What the checks on a command's reads of Beam SRAM, GDDR6 and host memory find (R248, R251, R265): the places of the errors that were
corrected, and an uncorrectable error, if any. -/
structure ReadChecks where
  fixed : List DataAt
  hit : Option EccHit
deriving DecidableEq, Repr

/-- What the SECDED checks of the intake SRAM find (R245, R247, R248): the addresses of the single-bit errors that were corrected, and of an
uncorrectable error, if any; and whether the checks of the recipe slots and tone tables find an uncorrectable one (R430, R449). -/
structure IntakeCheck where
  fixed : List Nat
  hit : Option Nat
  recipe : Bool := false
deriving DecidableEq, Repr

/-- What the checks find while Creel works on one line or packet of a container: whether the two lanes agree (R430), and the intake SRAM's
checks. -/
structure RowCheck where
  lanesAgree : Bool
  ecc : IntakeCheck
deriving DecidableEq, Repr

/-- What befalls a starting array or Reed operation: nothing; a hardware error that changes the 8-product sum of a cube (at reduction
position `pos`), a lane's sum (of segment `seg`) or, under a K-split, the combined sum of a tap group in the receiving drain by `delta` for an
output row of the operation and an output channel, which the residue check judges (R105 to R107); a mismatch of the duplicated coders (R429); a mismatch of the Reed's own checker (R132). -/
inductive OpCheck where
  | ok
  | product (row chan pos : Nat) (delta : Int)
  | lane (row chan seg : Nat) (delta : Int)
  | combined (row chan group : Nat) (delta : Int)
  | coder (engine row : Nat)
  | reedIntegrity
deriving DecidableEq, Repr

/-- The Loom clocks of an array operation in which the die's array was frozen, by cause (R86): each clock counts for one cause.  `other`:
those in which it needed something of the other die, whose array was frozen (R88). -/
structure Freezes where
  feed : Nat
  weight : Nat
  drain : Nat
  exchange : Nat
  barrier : Nat
  other : Nat := 0
deriving DecidableEq, Repr

/-- What the scrubber finds in the lines that it reads, one line of each of the 512 banks (R249): the banks whose lines have single-bit
errors, and those whose lines have an uncorrectable one.  Bank n is bank n mod 64 of bank group n / 64 (R246). -/
structure ScrubFinding where
  fixed : List Nat
  bad : List Nat
deriving DecidableEq, Repr

/-- The control and status registers of the vector extension (R110). -/
structure VecCsr where
  vl : Dword
  vtype : Dword
  vstart : Dword
  vxrm : BitVec 2
  vxsat : Bool
deriving DecidableEq, Repr

/-- What the pair compares of a retired instruction (R109): the program counter, the destination register value, the store address, the store
data, and the operands of a Loom control instruction. -/
inductive StrikeAt where
  | pc
  | dest
  | storeAddr
  | storeData
  | loomOperands
deriving DecidableEq, Repr

/-- A hardware error in one of the two cores (R109): what it changes of the instruction that retires, and in which bits. -/
structure CoreStrike where
  place : StrikeAt
  mask : Dword
deriving DecidableEq, Repr

/-- What lm.dec and lm.enc move: a tensor, its first row, a row count and a channel count (R118, R123).  R118 puts the first two into
rs1 without a layout and names no place for the counts, so a command carries all four (log entry 33). -/
structure Move where
  tensor : Nat
  row : Nat
  count : Nat
  channels : Nat
deriving DecidableEq, Repr

/-- The operand of the words that move nothing. -/
def Move.none : Move := { tensor := 0, row := 0, count := 0, channels := 0 }

/-- A JTAG operation on the debug header (R372, R499).  `inspectPair` reads 32-bit part `part` of register `reg` of the main core: x0 to
x31, then f0 to f31, v0 to v31, pc (96) and fcsr (97). -/
inductive JtagOp where
  | idcode
  | boundaryScan
  | scan
  | readReg (off : Nat)
  | writeReg (off : Nat) (v : Word)
  | readMem (d : Weft) (level : Level) (off : Nat)
  | writeMem (d : Weft) (level : Level) (off : Nat) (v : Word)
  | readPair (pair : Nat) (addr : Nat)
  | writePair (pair : Nat) (addr : Nat) (v : Word)
  | haltPair (pair : Nat)
  | resumePair (pair : Nat)
  | stepPair (pair : Nat)
  | inspectPair (pair reg part : Nat)
deriving DecidableEq, Repr

/-- What a register access addresses, and who makes it (R330, R332, R554, R558): the supervisor view through the supervisor port's BAR0 or
from the Keeper core, the MSI-X window (BAR2) and the recovery staging window (BAR4) of the supervisor function, and the BAR0 of a host
function. -/
inductive View where
  | sup
  | keeper
  | supMsix
  | supStaging
  | fn (f : FnId)
deriving DecidableEq, Repr

/-- A register access that R12 or R555 turns away. -/
inductive BadAccess where
  | read
  | write
deriving DecidableEq, Repr

/-- The verdict of the proof input of one die (R436). -/
inductive ProofVerdict where
  | passed
  | finishDiffers
  | crcDiffers
  | none
deriving DecidableEq, Repr

/-- The scope of a start-up error injection run (R442). -/
inductive InjectScope where
  | module
  | die (d : Weft)
  | unit (u : UnitId)
deriving DecidableEq, Repr

/-- Where a failed checker of a module-scope run sits (R444): on Selvedge, or on a Weft die. -/
structure InjectFailure where
  checker : Nat
  inst : Nat
  die : Die
deriving DecidableEq, Repr

/-- What the recovery ladder waits for (R475): a unit's reset or isolation, a die reset, or the module reset. -/
inductive RungId where
  | unit (u : UnitId)
  | die (d : Weft)
  | module
deriving DecidableEq, Repr

/-- The commands: one constructor for each row of spec/opcode_table.json, in its order. -/
inductive Instr where
  /-- PRSNT1_LOW (R360). -/
  | prsnt1Low
  /-- PRSNT1_DEBOUNCE_EXPIRY (R360). -/
  | prsnt1DebounceExpiry
  /-- STANDBY_RAIL_UP (R360). -/
  | standbyRailUp
  /-- PWR_EN_RISE (R361); `lowTenMs`: PWR_EN had been low for at least 10 ms (R393); the three KPR_TEMP readings then. -/
  | pwrEnRise (lowTenMs : Bool) (ts ta tb : Byte)
  /-- RAIL_IN_REGULATION (R394). -/
  | railInRegulation
  /-- POWER_GOOD (R394). -/
  | powerGood
  /-- BOOT_VERIFIED (R545). -/
  | bootVerified
  /-- WAKE_N_TIMEOUT (R371). -/
  | wakeNTimeout
  /-- PWR_EN_FALL (R393). -/
  | pwrEnFall
  /-- PWR_EN_LOW_TIMEOUT (R395). -/
  | pwrEnLowTimeout
  /-- POWER_DOWN_STEP (R395). -/
  | powerDownStep
  /-- OFF_REACHED (R395). -/
  | offReached
  /-- INPUT_UNDERVOLTAGE (R359). -/
  | inputUndervoltage
  /-- INPUT_OVERVOLTAGE (R359). -/
  | inputOvervoltage
  /-- PRSNT1_HIGH (R362). -/
  | prsnt1High
  /-- REMOVAL_DECLARED (R362). -/
  | removalDeclared
  /-- THERMAL_WARNING (R375): the die and its KPR_TEMP reading. -/
  | thermalWarning (d : Die) (reading : Byte)
  /-- THERMAL_TRIP (R375): the die and its KPR_TEMP reading. -/
  | thermalTrip (d : Die) (reading : Byte)
  /-- RAIL_FAULT (R396). -/
  | railFault
  /-- REFERENCE_LOST (R379). -/
  | referenceLost
  /-- PLL_LOCK_LOSS (R380). -/
  | pllLockLoss (p : Pll)
  /-- PLL_RELOCK (R380). -/
  | pllRelock (p : Pll)
  /-- HEARTBEAT_MISSING (R354). -/
  | heartbeatMissing
  /-- ALIVE_TOGGLE (R355). -/
  | aliveToggle
  /-- PERST_ASSERT (R344). -/
  | perstAssert (p : Port)
  /-- PERST_DEASSERT (R361). -/
  | perstDeassert (p : Port)
  /-- HOST_LINK_LOSS (R344). -/
  | hostLinkLoss (p : HostPort)
  /-- HOST_LINK_UP (R346): lanes, speed code, PF Max Payload Size, and whether the host enables MSI-X. -/
  | hostLinkUp (p : HostPort) (width speed mps : Nat) (msix : Bool)
  /-- HOST_LINK_DEGRADED (R342). -/
  | hostLinkDegraded (p : HostPort) (width speed mps : Nat)
  /-- HOST_LINK_RESTORED (R342). -/
  | hostLinkRestored (p : HostPort) (mps : Nat)
  /-- HOST_LINK_RECOVERY (R343). -/
  | hostLinkRecovery (p : HostPort)
  /-- SUPERVISOR_LINK_LOSS (R348). -/
  | supervisorLinkLoss
  /-- SUPERVISOR_LINK_UP (R348): whether the supervisor enables MSI-X. -/
  | supervisorLinkUp (msix : Bool)
  /-- FLR (R328). -/
  | flr (f : FnId)
  /-- VF_ENABLE_CLEAR (R327). -/
  | vfEnableClear (p : HostPort)
  /-- MSIX_VECTOR_UNMASK (R336). -/
  | msixVectorUnmask (f : IrqFn) (vector : Nat)
  /-- SYNC_IN_EDGE (R370): the edge, and in which 40 ns quarter of the Tick clock it lies. -/
  | syncInEdge (rising : Bool) (quarter : Nat)
  /-- SYNC_OUT_RISE (R369). -/
  | syncOutRise
  /-- SYNC_OUT_FALL (R369). -/
  | syncOutFall
  /-- SMBUS_EEPROM_READ (R353): the 7-bit address, whether it is a read, the byte offset and the count. -/
  | smbusEepromRead (addr : BitVec 7) (isRead : Bool) (offset count : Nat)
  /-- JTAG_ACCESS (R499), with what the checks on a read of memory find (R248, R251). -/
  | jtagAccess (op : JtagOp) (chk : ReadChecks)
  /-- PTM_DIALOGUE (R339): the port and the measured device time minus source time, in ns (none: the dialogue failed). -/
  | ptmDialogue (p : HostPort) (offset : Option Int)
  /-- GPTP_FRAME (R213): the Ethernet port and the offset that the frame's exchange measures. -/
  | gptpFrame (eth : Nat) (offset : Option Int)
  /-- TIME_SOURCE_FAIL (R341). -/
  | timeSourceFail
  /-- CSI2_FRAME_START (R223); `fixed`: a single-bit error of the packet header was corrected (R211). -/
  | csi2FrameStart (port vc : Nat) (fixed : Bool)
  /-- CSI2_LONG_PACKET (R223): the payload, whether its CRC holds, whether the lanes of R430 agree, whether the line
  buffers overflow (R243), what the intake SRAM's checks find while Creel works on the line (R245), a corrected header error, and whether the
  line waits in the slot's input queue, Creel not working on it yet (R217). -/
  | csi2LongPacket (port vc dataType : Nat) (payload : List Byte) (crcOk lanesAgree overflow : Bool) (ecc : IntakeCheck) (fixed waits : Bool)
  /-- CSI2_FRAME_END (R223), with a corrected header error (R211). -/
  | csi2FrameEnd (port vc : Nat) (fixed : Bool)
  /-- CSI2_PACKET_DISCARD (R211): a multi-bit header error, or a data type that R211 does not accept; `fixed`: a corrected header error. -/
  | csi2PacketDiscard (port vc dataType : Nat) (headerError fixed : Bool)
  /-- PHY_LINK_LOSS (R212). -/
  | phyLinkLoss (port : Nat)
  /-- ETHERNET_FRAME (R213): the frame from the destination address through the frame check sequence, whether the lanes
  of R430 agree, what the intake SRAM's checks find while Creel works on the packet (R245), and whether the packet waits in the slot's input
  queue, Creel not working on it yet (R217). -/
  | ethernetFrame (port : Nat) (frame : List Byte) (lanesAgree : Bool) (ecc : IntakeCheck) (waits : Bool)
  /-- HOLD_COPY_DONE (R240), with what the checks on the copy's reads find (R248). -/
  | holdCopyDone (slot : Nat) (chk : ReadChecks)
  /-- BATCH_CLOSE_TIMEOUT (R239): the batch index and the instance's batch counter. -/
  | batchCloseTimeout (batch counter : Nat)
  /-- SUBSTITUTE_COPY_DONE (R239), with what the checks on the copy's reads find (R248). -/
  | substituteCopyDone (batch counter position : Nat) (chk : ReadChecks)
  /-- BATCH_READY (R21). -/
  | batchReady (batch counter : Nat)
  /-- DOORBELL_TAIL (R310): the writing function, the page (context), the written word, and the 64-byte descriptors that
  Heddle's reads of the covered ring slots return. -/
  | doorbellTail (f : FnId) (page : Nat) (value : Word) (descs : List (List Byte))
  /-- DOORBELL_HEAD (R307). -/
  | doorbellHead (f : FnId) (page : Nat) (value : Word)
  /-- NOP (R316): the context whose next read descriptor it is. -/
  | nop (ctx : Nat)
  /-- NOP_FENCE_RELEASE (R315). -/
  | nopFenceRelease (ctx : Nat)
  /-- STEP (R312), with the step record that record_addr holds (R410; ignored when replay is 0);
  `failed`: the read of it failed (R335). -/
  | step (ctx : Nat) (record : List Byte) (failed : Bool)
  /-- STEP_ADMISSION (R282); `heddleOverAdmits`: a fault makes Heddle take whatever the test says (R431). -/
  | stepAdmission (ctx : Nat) (heddleOverAdmits : Bool)
  /-- BATCH_WAIT_TIMEOUT (R283). -/
  | batchWaitTimeout (ctx : Nat)
  /-- DRAFT_LOAD (R167). -/
  | draftLoad (ctx : Nat)
  /-- DRAFT_LOAD_DONE (R167): the image bytes read, and whether a read failed (R335). -/
  | draftLoadDone (ctx : Nat) (image : List Byte) (failed : Bool)
  /-- DRAFT_UNLOAD (R170). -/
  | draftUnload (ctx : Nat)
  /-- DRAFT_UNLOAD_DONE (R170). -/
  | draftUnloadDone (ctx : Nat)
  /-- RECIPE_LOAD (R220): the image bytes read, and whether a read failed (R335). -/
  | recipeLoad (ctx : Nat) (image : List Byte) (failed : Bool)
  /-- RECIPE_UNLOAD (R221). -/
  | recipeUnload (ctx : Nat)
  /-- INJECT (R233): the 64-byte container header read, and whether the read failed (R335). -/
  | inject (ctx : Nat) (header : List Byte) (failed : Bool)
  /-- INJECT_READ_DONE (R316): the container's payload, whether a read of it failed (R335), what the checks find at each of its lines or
  packets, in order (nothing where the list ends), and whether the payload waits in the slot's input queue (R217). -/
  | injectReadDone (ctx : Nat) (payload : List Byte) (failed : Bool) (checks : List RowCheck) (waits : Bool)
  /-- TRANSFER (R316). -/
  | transfer (ctx : Nat)
  /-- RECEIVE (R322). -/
  | receive (ctx : Nat)
  /-- WAKE_REQUEST (R385). -/
  | wakeRequest (d : Weft) (g : Grp)
  /-- WAKE_COMPLETE (R383). -/
  | wakeComplete (d : Weft) (g : Grp)
  /-- IDLE_TIMEOUT (R389). -/
  | idleTimeout (d : Weft) (g : Grp)
  /-- REST_TIMEOUT (R389). -/
  | restTimeout (d : Weft) (g : Grp)
  /-- STATE_ENTRY_DONE (R385). -/
  | stateEntryDone (d : Weft) (g : Grp)
  /-- RV64_INSTRUCTION (R109, R110, R116): the instruction at the pc retires; an error that strikes one of the two cores, whether a SECDED
check of pair memory fails, the shuttle clocks that the instruction takes, and what the checks on its reads through shuttle windows find
(R248, R251). -/
  | rv64Instruction (pair : Nat) (strike : Option CoreStrike) (ecc : Bool) (clocks : Nat) (chk : ReadChecks)
  /-- RDTIME (R118). -/
  | rdtime (pair rd : Nat)
  /-- ECALL (R114). -/
  | ecall (pair : Nat)
  /-- EBREAK (R115). -/
  | ebreak (pair : Nat)
  /-- LM_OP (R118). -/
  | lmOp (pair rd rs1 : Nat)
  /-- LM_REED (R118). -/
  | lmReed (pair rd rs1 : Nat)
  /-- LM_FIN (R118). -/
  | lmFin (pair rd rs1 : Nat)
  /-- LM_STAGE (R257). -/
  | lmStage (pair rd rs1 rs2 : Nat)
  /-- LM_EVICT (R257). -/
  | lmEvict (pair rd rs1 rs2 : Nat)
  /-- LM_SPAWN (R118). -/
  | lmSpawn (pair rd rs1 rs2 : Nat)
  /-- LM_WAIT (R118). -/
  | lmWait (pair rs1 : Nat)
  /-- LM_SYNC (R118). -/
  | lmSync (pair : Nat)
  /-- LM_HINGE (R121). -/
  | lmHinge (pair rs1 : Nat)
  /-- LM_DEC (R123). -/
  | lmDec (pair rd rs1 rs2 : Nat) (mv : Move)
  /-- LM_ENC (R123). -/
  | lmEnc (pair rd rs1 rs2 : Nat) (mv : Move)
  /-- LM_LACQ (R122). -/
  | lmLacq (pair rd rs1 : Nat)
  /-- LM_LREL (R122). -/
  | lmLrel (pair rs1 : Nat)
  /-- LM_RD (R118): the rs2 field selects the attribute. -/
  | lmRd (pair rd sel : Nat)
  /-- QUEUED_OP_START (R120), with what the operation's checkers report (R106, R429). -/
  | queuedOpStart (d : Weft) (u : OpUnit) (chk : OpCheck)
  /-- GATHER_HOLD_EXPIRY (R101): the draft table entry and layer of the window. -/
  | gatherHoldExpiry (entry layer : Nat)
  /-- WHOLE_BARRIER (R94). -/
  | wholeBarrier
  /-- ARRAY_OP_RETIRE (R99): the Loom clocks by which the operation lengthened the time that its step holds the array (R297), its frozen
clocks (R86), and what the checks on its reads find (R248). -/
  | arrayOpRetire (d : Weft) (clocks : Nat) (frozen : Freezes) (chk : ReadChecks)
  /-- REED_OP_RETIRE (R126), with Loom clocks and checks as ARRAY_OP_RETIRE has them. -/
  | reedOpRetire (d : Weft) (clocks : Nat) (chk : ReadChecks)
  /-- FINISH_OP_RETIRE (R137), with Loom clocks and checks as ARRAY_OP_RETIRE has them. -/
  | finishOpRetire (d : Weft) (clocks : Nat) (chk : ReadChecks)
  /-- STAGE_COPY_DONE (R257), with what the checks on its reads find (R248, R251, R335). -/
  | stageCopyDone (d : Weft) (chk : ReadChecks)
  /-- SHUTTLE_BUDGET_EXPIRY (R116). -/
  | shuttleBudgetExpiry (pair : Nat)
  /-- HINGE_SAVE_DONE (R289), with what the checks on its reads find (R248). -/
  | hingeSaveDone (chk : ReadChecks)
  /-- HINGE_RESTORE_DONE (R289), with what the checks on its reads find (R251). -/
  | hingeRestoreDone (chk : ReadChecks)
  /-- STEP_FINISH (R423). -/
  | stepFinish (d : Weft)
  /-- WARD_VERDICT (R424); `comparatorsAgree`: the two comparators give one verdict (R427). -/
  | wardVerdict (comparatorsAgree : Bool)
  /-- RESULT_WRITES_DONE (R29): the context whose step is delivered, and what the checks on the reads of its result set find (R248). -/
  | resultWritesDone (ctx : Nat) (chk : ReadChecks)
  /-- DEADLINE_MONITOR_EXPIRY (R294): the context and step counter. -/
  | deadlineMonitorExpiry (ctx : Nat) (counter : Nat)
  /-- AGE_MONITOR_EXPIRY (R295). -/
  | ageMonitorExpiry (ctx : Nat) (counter : Nat)
  /-- SCRUB_LINE (R249). -/
  | scrubLine (d : Weft) (finding : ScrubFinding)
  /-- GDDR6_REFRESH (R253). -/
  | gddr6Refresh (d : Weft) (chan : Nat)
  /-- GDDR6_EDC_FAIL (R252): the failure of a burst, 1 to 4 (the first and three retries), its GDDR6 offset and its master. -/
  | gddr6EdcFail (d : Weft) (off failure : Nat) (master : Byte)
  /-- TRANSACTION_TIMEOUT (R262): the pool (0 LC, 1 BE, 2 control), and the access to GDDR6 or host memory. -/
  | transactionTimeout (d : Weft) (pool : Nat) (hit : EccHit)
  /-- WARP_FLIT_CRC_FAIL (R264). -/
  | warpFlitCrcFail (link : Nat)
  /-- WARP_E2E_MISMATCH (R266). -/
  | warpE2eMismatch (link : Nat) (hit : EccHit)
  /-- WARP_LINK_DOWN (R271). -/
  | warpLinkDown (link : Nat)
  /-- WARP_LINK_RETRAIN_DONE (R271). -/
  | warpLinkRetrainDone (link : Nat)
  /-- WARP_RETRAIN_TIMEOUT (R271). -/
  | warpRetrainTimeout (link : Nat)
  /-- GDDR6_TRAINING_DONE (R254): bit n set means that channel n failed. -/
  | gddr6TrainingDone (d : Weft) (failed : BitVec 12)
  /-- GDDR6_ZEROING_DONE (R254). -/
  | gddr6ZeroingDone (d : Weft)
  /-- MODULE_FRAME_START (R418). -/
  | moduleFrameStart
  /-- PROOF_DUE (R435). -/
  | proofDue (d : Weft)
  /-- PROOF_RELEASE (R434). -/
  | proofRelease (d : Weft)
  /-- PROOF_VERDICT (R436). -/
  | proofVerdict (d : Weft) (v : ProofVerdict)
  /-- SELFTEST_SLICE_START (R438). -/
  | selftestSliceStart (d : Weft)
  /-- SLICE_FALLBACK_TIMER (R438). -/
  | sliceFallbackTimer (d : Weft)
  /-- SELFTEST_SLICE_END (R440). -/
  | selftestSliceEnd (d : Weft) (passed : Bool)
  /-- PAIR_TEST_START (R439). -/
  | pairTestStart (pair : Nat)
  /-- PAIR_TEST_DONE (R439). -/
  | pairTestDone (pair : Nat) (passed : Bool)
  /-- INJECTION_DONE (R444): the scope and the failures in the order of R443 (none: the run passes). -/
  | injectionDone (scope : InjectScope) (failures : List InjectFailure)
  /-- BOOT_PROOF_VERDICT (R549). -/
  | bootProofVerdict (d : Weft) (v : ProofVerdict)
  /-- READY (R547), with the descriptors that each held doorbell covers, in arrival order (R548). -/
  | ready (held : List (List (List Byte)))
  /-- GRACE_TIMER_EXPIRY (R463). -/
  | graceTimerExpiry (source : Nat)
  /-- PROGRESS_MONITOR_TRIP (R470): the kind, the instance, the counter value at the trip (R461), and for a link the contexts that have
  a transfer queued on it. -/
  | progressMonitorTrip (kind : MonKind) (inst ring : Nat) (counter : Dword) (ctxs : List Nat)
  /-- KILL_COMPLETE (R473): the context, and the units that the kill left in their state. -/
  | killComplete (ctx : Nat) (stuck : List UnitId)
  /-- UNIT_RESET_DONE (R474). -/
  | unitResetDone (u : UnitId)
  /-- RUNG_DEADLINE_EXPIRY (R475). -/
  | rungDeadlineExpiry (r : RungId)
  /-- ISOLATION_CONFIRMED (R475). -/
  | isolationConfirmed (u : UnitId)
  /-- DIE_IN_SERVICE (R478). -/
  | dieInService (d : Weft)
  /-- HDL_FN_CTX_OPEN_GO (R300): the word written to HDL_FN_CTX_OPEN. -/
  | hdlFnCtxOpenGo (f : FnId) (value : Word)
  /-- HDL_FN_CTX_CLOSE_GO (R302): the word written to HDL_FN_CTX_CLOSE. -/
  | hdlFnCtxCloseGo (f : FnId) (value : Word)
  /-- CONTEXT_CLOSE_DONE (R302). -/
  | contextCloseDone (ctx : Nat)
  /-- RING_CREATE (R305). -/
  | ringCreate (f : FnId)
  /-- RING_DESTROY (R324). -/
  | ringDestroy (f : FnId)
  /-- LATCH_TAKE (R292): the latch number written with op 1. -/
  | latchTake (f : FnId) (latch : Nat)
  /-- LATCH_RELEASE (R292). -/
  | latchRelease (f : FnId) (latch : Nat)
  /-- FAULT_STATUS_ACK (R464). -/
  | faultStatusAck (f : FnId)
  /-- HSP_RAISED_ACK (R464): the register index and the word written. -/
  | hspRaisedAck (index : Nat) (value : Word)
  /-- HSP_FIRST_CLEAR (R459). -/
  | hspFirstClear
  /-- HSP_ACTION_KILL (R475). -/
  | hspActionKill (ctx : Nat)
  /-- HSP_ACTION_UNIT_RESET (R474). -/
  | hspActionUnitReset (u : UnitId)
  /-- HSP_ACTION_DIE_RESET (R478). -/
  | hspActionDieReset (d : Weft)
  /-- HSP_ACTION_MODULE_RESET (R480). -/
  | hspActionModuleReset
  /-- TMB_NONCE (R500). -/
  | tmbNonce
  /-- TMB_TOKEN (R501). -/
  | tmbToken
  /-- TMB_ATTEST (R509). -/
  | tmbAttest
  /-- TMB_LOAD_DRAFT_KEY (R496). -/
  | tmbLoadDraftKey
  /-- TMB_ERASE_DRAFT_KEY (R496). -/
  | tmbEraseDraftKey (keyId : Nat)
  /-- TMB_ENROL (R494). -/
  | tmbEnrol
  /-- KPR_BOOT_INSTALL (R488): whether programming and read-back succeed. -/
  | kprBootInstall (programmed : Bool)
  /-- KPR_ROLLBACK_COMMIT (R486). -/
  | kprRollbackCommit
  /-- KPR_DEBUG_WRITE (R502). -/
  | kprDebugWrite (value : Word)
  /-- KPR_DBG_DATA_READ (R505), with what the checks on the read find (R248, R251). -/
  | kprDbgDataRead (chk : ReadChecks)
  /-- KPR_DBG_DATA_WRITE (R505). -/
  | kprDbgDataWrite (value : Word)
  /-- KPR_SAFETY_WRITE (R416). -/
  | kprSafetyWrite (value : Word)
  /-- HDL_DETERMINISM_WRITE (R401). -/
  | hdlDeterminismWrite (value : Word)
  /-- KPR_FRAME_WRITE (R419). -/
  | kprFrameWrite (value : Word)
  /-- KPR_FRAME_PHASE_WRITE (R419). -/
  | kprFramePhaseWrite (value : Word)
  /-- KPR_PROOF_WRITE (R419). -/
  | kprProofWrite (value : Word)
  /-- KPR_STEST_WRITE (R441). -/
  | kprStestWrite (value : Word)
  /-- HSP_PROG_WIN_WRITE (R468). -/
  | hspProgWinWrite (k : Nat) (value : Word)
  /-- HDL_PART_LOOM_WRITE (R390). -/
  | hdlPartLoomWrite (p : Nat) (value : Word)
  /-- HDL_PART_MEM_WRITE (R245). -/
  | hdlPartMemWrite (p : Nat) (value : Word)
  /-- HDL_PART_QUOTA_WRITE (R274). -/
  | hdlPartQuotaWrite (p : Nat) (value : Word)
  /-- HDL_PART_LATCH_WRITE (R292). -/
  | hdlPartLatchWrite (p : Nat) (value : Word)
  /-- HDL_SCHED_GAP_WRITE (R280). -/
  | hdlSchedGapWrite (value : Word)
  /-- HDL_SCHED_SAVE_WRITE (R280). -/
  | hdlSchedSaveWrite (value : Word)
  /-- HDL_MIRROR_WRITE (R321). -/
  | hdlMirrorWrite (n : Nat) (value : Word)
  /-- HDL_GATHER_CTL_WRITE (R540). -/
  | hdlGatherCtlWrite (value : Word)
  /-- HDL_GATHER_GRP_WRITE (R564). -/
  | hdlGatherGrpWrite (g : Nat) (value : Word)
  /-- WRP_WHEEL_WRITE (R567). -/
  | wrpWheelWrite (link dir half : Nat) (value : Word)
  /-- CRL_SLOT_ENABLE (R216). -/
  | crlSlotEnable (k : Nat) (value : Word)
  /-- CRL_SLOT_DISABLE (R243). -/
  | crlSlotDisable (k : Nat) (value : Word)
  /-- CRL_BATCH_ENABLE (R236). -/
  | crlBatchEnable (b : Nat) (value : Word)
  /-- CRL_BATCH_DISABLE (R283). -/
  | crlBatchDisable (b : Nat) (value : Word)
  /-- CTR_SEL_WRITE (R517). -/
  | ctrSelWrite (d : Die) (n : Nat) (value : Word)
  /-- CTR_WATCH_CFG_WRITE (R526). -/
  | ctrWatchCfgWrite (w : Nat) (value : Word)
  /-- REGISTER_LOW_WORD_READ (R11). -/
  | registerLowWordRead (v : View) (off : Nat)
  /-- BAD_REGISTER_ACCESS (R12): the offset and the width in bytes of the access. -/
  | badRegisterAccess (v : View) (kind : BadAccess) (off width : Nat)
  /-- REGISTER_WRITE (R556). -/
  | registerWrite (v : View) (off : Nat) (value : Word)
  /-- INPUT_TURN_ON (R358). -/
  | inputTurnOn
  /-- ELECTRONIC_BREAKER_TRIP (R358). -/
  | electronicBreakerTrip
  /-- VF_ENABLE_SET (R327): NumVFs, and whether the host enables MSI-X in the VFs (R336). -/
  | vfEnableSet (p : HostPort) (numVfs : Nat) (msix : Bool)
  /-- POISONED_BAR_WRITE (R335): the function and the BAR offset; a write whose ECRC does not agree is taken as poisoned (log entry 177). -/
  | poisonedBarWrite (f : FnId) (off : Nat)
  /-- FLR_COMPLETE (R328), and whether the host enables MSI-X again (R336). -/
  | flrComplete (f : FnId) (msix : Bool)
  /-- TRANSFER_DONE (R316), with what the checks on the copy's reads find. -/
  | transferDone (ctx : Nat) (chk : ReadChecks)
  /-- INPUT_POWER_UPDATE (R519): the measured input voltage and power, and the reading of the board's temperature sensor (R375). -/
  | inputPowerUpdate (vin : Byte) (pin : BitVec 16) (board : Byte)
deriving DecidableEq, Repr

end Sys2Proof
end

