-- ==== Sys2Proof/Decode.lean ====
section
/-! DEFINITION. The command a word spells by the table's bits: no row of spec/opcode_table.json gives bits, so none does; and the words of
shuttle instructions that have rows of their own (R118). -/

namespace Sys2Proof

/-- The command that a word spells by the table's bits.  Every row's "fields" is empty. -/
def decodeTableWord (_nbits _w : Nat) : Option Instr := none

/-! ### Loom control instructions (R118) -/

/-- An instruction word is in the space of the Loom control instructions: opcode custom-0 and funct3 = 0 (R118). -/
def isLoomWord (w : BitVec 32) : Bool := w.extractLsb' 0 7 == 0b0001011#7 && w.extractLsb' 12 3 == 0#3

/-- The instruction that a word of this space spells on a pair, by funct7 and the R-type fields (R118); none raises an illegal-instruction
fault.  `mv`: how much an lm.dec or lm.enc moves, as those commands carry it (log entry 33). -/
def decodeLoom (pair : Nat) (mv : Move) (w : BitVec 32) : Option Instr :=
  let rd := (w.extractLsb' 7 5).toNat
  let rs1 := (w.extractLsb' 15 5).toNat
  let rs2 := (w.extractLsb' 20 5).toNat
  match (w.extractLsb' 25 7).toNat with
  | 0x00 => some (.lmOp pair rd rs1)
  | 0x01 => some (.lmReed pair rd rs1)
  | 0x02 => some (.lmFin pair rd rs1)
  | 0x03 => some (.lmStage pair rd rs1 rs2)
  | 0x04 => some (.lmEvict pair rd rs1 rs2)
  | 0x05 => some (.lmSpawn pair rd rs1 rs2)
  | 0x06 => some (.lmWait pair rs1)
  | 0x07 => some (.lmSync pair)
  | 0x08 => some (.lmHinge pair rs1)
  | 0x09 => some (.lmDec pair rd rs1 rs2 mv)
  | 0x0A => some (.lmEnc pair rd rs1 rs2 mv)
  | 0x0B => some (.lmLacq pair rd rs1)
  | 0x0C => some (.lmLrel pair rs1)
  | 0x0D => some (.lmRd pair rd rs2)
  | _ => none

/-- The command of a row of its own that a word of the shuttle instruction set spells on a pair: ecall, ebreak, rdtime (csrrs rd, time, x0; R118), or a
Loom control instruction.  Every other word retires with RV64_INSTRUCTION. -/
def rowOf (pair : Nat) (mv : Move) (w : BitVec 32) : Option Instr :=
  if w = 0x73#32 then some (.ecall pair)
  else if w = 0x100073#32 then some (.ebreak pair)
  else if w.extractLsb' 0 7 = 0x73#7 ∧ w.extractLsb' 12 20 = 0xC0102#20 then some (.rdtime pair (w.extractLsb' 7 5).toNat)
  else if isLoomWord w then decodeLoom pair mv w
  else none

end Sys2Proof
end

