-- ==== Sys2Proof/Config.lean ====
section
/-! DEFINITION. What one part fixes and the manual does not state: opaque constants.  No proof can see a value of them. -/

namespace Sys2Proof

namespace Config

/-- Zarpeund's PCI-SIG vendor ID (R326, KPR_ID_VENDOR): the manual gives no number. -/
opaque vendorId : BitVec 16

/-- The values the manual leaves open, one byte for each draw (log entry 9). -/
opaque freeByte : Nat → Byte

/-- A free 64-bit value for each draw: what an undefined register or address holds (log entry 9). -/
opaque freeDword : Nat → Dword

/-- The radial table at an index below 0, which R226 does not define: a binary32 word (log entry 26). -/
opaque radialBelow : Int → Nat

/-- The plane coordinate that R226 rounds from a NaN, which it does not define (log entry 26). -/
opaque nanCoord : Nat → Nat → Int

/-- The IDCODE the debug header returns (R499): the manual names it and gives no value. -/
opaque idcode : Word

/-- The Tick clocks on which Keeper may slew device time (R378: "selected Tick clocks"; log entry 2). -/
opaque slewTick : Nat → Bool

/-- How vset chooses vl for a length between VLMAX and twice that, which the vector standard leaves to the part (log entry 179). -/
opaque vsetLength : (avl vlmax : Nat) → Nat

/-- The weight blocks that the proof input of a module frame puts into the cubes of an engine, active or shadow (R433): the built-in test's
patterns, which the manual does not print (log entry 161). -/
opaque proofBlocks : (frame engine : Nat) → (formats : List Nat) → (shadow : Bool) → List (Nat × List Nat)

/-- What the proof input of a module frame leaves in the reserved Beam region of a die (R433, R434; log entry 161). -/
opaque proofImage : (frame : Nat) → (formats : List Nat) → List Byte

end Config

end Sys2Proof
end

