-- ==== Sys2Proof/Machine/Bits.lean ====
section
/-! DEFINITION. Bits, bytes and lists: little-endian fields (R9), CRC-32C (R3), and small helpers. -/

namespace Sys2Proof

namespace Machine

/-- Bits [hi:lo] of a number (R8). -/
def bitsN (v hi lo : Nat) : Nat := v / 2 ^ lo % 2 ^ (hi + 1 - lo)

/-- Bit n of a number (R8). -/
def bitN (v n : Nat) : Bool := v / 2 ^ n % 2 == 1

/-- Bits [hi:lo] of a register word. -/
def fld (w : Word) (hi lo : Nat) : Nat := bitsN w.toNat hi lo

/-- Bit n of a register word. -/
def bitW (w : Word) (n : Nat) : Bool := w.getLsbD n

/-- 1 for true. -/
def b2n (b : Bool) : Nat := if b then 1 else 0

/-- Replace bits [hi:lo] of a register word. -/
def setFld (w : Word) (hi lo v : Nat) : Word :=
  let m : Nat := (2 ^ (hi + 1 - lo) - 1) * 2 ^ lo
  (w &&& ~~~(BitVec.ofNat 32 m)) ||| (BitVec.ofNat 32 (v * 2 ^ lo) &&& BitVec.ofNat 32 m)

/-- A number as n little-endian bytes (R9). -/
def leBytes : Nat → Nat → List Byte
  | 0, _ => []
  | n + 1, v => BitVec.ofNat 8 v :: leBytes n (v / 256)

/-- The number of little-endian bytes (R9). -/
def leNat : List Byte → Nat
  | [] => 0
  | b :: bs => b.toNat + 256 * leNat bs

/-- The n bytes at an offset; bytes beyond the end read as 0. -/
def sliceB (bs : List Byte) (off n : Nat) : List Byte :=
  let t := (bs.drop off).take n
  t ++ List.replicate (n - t.length) 0

/-- The little-endian number of the n bytes at an offset. -/
def leAt (bs : List Byte) (off n : Nat) : Nat := leNat (sliceB bs off n)

/-- A number read as two's complement of a width. -/
def signedOf (w v : Nat) : Int := if v < 2 ^ (w - 1) then (v : Int) else (v : Int) - 2 ^ w

/-- The signed little-endian number of the n bytes at an offset. -/
def sleAt (bs : List Byte) (off n : Nat) : Int := signedOf (8 * n) (leAt bs off n)

/-- The least multiple of m that is at least n. -/
def alignUp (n m : Nat) : Nat := (n + m - 1) / m * m

/-- Division rounded up. -/
def ceilDiv (n d : Nat) : Nat := (n + d - 1) / d

/-- Set member i of a list (no change outside it). -/
def setAt {α : Type} (l : List α) (i : Nat) (a : α) : List α := l.set i a

/-- Change member i of a list (no change outside it). -/
def modAt {α : Type} (l : List α) (i : Nat) (f : α → α) : List α :=
  match l[i]? with
  | none => l
  | some a => l.set i (f a)

/-- The value of a key in an association list. -/
def lookupN {β : Type} (l : List (Nat × β)) (k : Nat) : Option β :=
  match l with
  | [] => none
  | (a, b) :: t => if a = k then some b else lookupN t k

/-- Set the value of a key, keeping the keys strictly rising. -/
def insertN {β : Type} (l : List (Nat × β)) (k : Nat) (v : β) : List (Nat × β) :=
  match l with
  | [] => [(k, v)]
  | (a, b) :: t => if k < a then (k, v) :: (a, b) :: t else if k = a then (k, v) :: t else (a, b) :: insertN t k v

/-- Remove a key. -/
def eraseN {β : Type} (l : List (Nat × β)) (k : Nat) : List (Nat × β) := l.filter (fun p => p.1 != k)

/-- Add a member to a list without repeats. -/
def addSet {α : Type} [DecidableEq α] (l : List α) (a : α) : List α := if a ∈ l then l else l ++ [a]

/-- Remove a member from a list without repeats. -/
def delSet {α : Type} [DecidableEq α] (l : List α) (a : α) : List α := l.filter (fun b => decide (b ≠ a))

/-- The whole numbers lo, lo + 1, …, lo + n − 1. -/
def fromTo (lo n : Nat) : List Nat := (List.range n).map (fun i => lo + i)

/-- One bit step of the reflected CRC-32C (polynomial 0x1EDC_6F41, R3). -/
def crcBit (c : Word) : Word := if c.getLsbD 0 then (c >>> 1) ^^^ 0x82F63B78#32 else c >>> 1

/-- One byte of the reflected CRC-32C. -/
def crcByte (c : Word) (b : Byte) : Word :=
  crcBit (crcBit (crcBit (crcBit (crcBit (crcBit (crcBit (crcBit (c ^^^ b.setWidth 32))))))))

/-- CRC-32C, reflected, initial value and final XOR 0xFFFF_FFFF (R135). -/
def crc32c (bs : List Byte) : Word := bs.foldl crcByte 0xFFFFFFFF#32 ^^^ 0xFFFFFFFF#32

/-- Counters that stop at 2^w − 1. -/
def satAdd (w : Nat) (a b : Nat) : Nat := min (a + b) (2 ^ w - 1)

/-- floor(log2 n), 0 at 0. -/
def log2N (n : Nat) : Nat := Nat.log2 n

/-- n is a power of two. -/
def isPow2 (n : Nat) : Bool := n != 0 && 2 ^ Nat.log2 n == n

end Machine

end Sys2Proof
end

