-- ==== Sys2Proof/Machine/State.lean ====
section
/-! DEFINITION. The state of the block as plain data, its reasons to stop, and its state after cold reset. -/

namespace Sys2Proof

namespace Machine

/-- Bytes at offsets, in the canonical form of `Memory.wf` (Machine/Mem.lean): offsets strictly rising, no zero byte. -/
abbrev Memory := List Host.Cell

/-! ### Pins, supply, power and time (12_module_hardware.md, 13_clocks_power_retention.md) -/

/-- The sideband pins of R352 (a pin named `…N` is true when asserted). -/
structure Pins where
  prsnt1Low : Bool
  pwrEn : Bool
  perstA : Bool
  perstB : Bool
  perstS : Bool
  wakeN : Bool
  faultN : Bool
  alive : Bool
  aliveRun : Bool
  syncOut : Bool
deriving DecidableEq, Repr

/-- Why the 48 V input is cut (R358, R359). -/
inductive InputCut where
  | none
  | under
  | over
  | breaker
deriving DecidableEq, Repr

/-- The hot-swap controller and the sensors of KPR_MOD_STATUS and KPR_TEMP (R358 to R362, R375). -/
structure Supply where
  debounce : Bool
  ramped : Bool
  standby : Bool
  filter : Bool
  removed : Bool
  cut : InputCut
  vin : Byte
  pin : BitVec 16
  tempS : Byte
  tempA : Byte
  tempB : Byte
  tempBoard : Byte
deriving DecidableEq, Repr

/-- The module's power phase: no standby rail, Off, the rail sequence of R394, mission rails up, or the sequence of R395. -/
inductive Phase where
  | unpowered
  | off
  | powerUp
  | mission
  | powerDown
deriving DecidableEq, Repr

/-- Why leaving Off needs PWR_EN low for 10 ms first (R375, R393, R475). -/
inductive Lockout where
  | none
  | thermal
  | rail
  | ladder
deriving DecidableEq, Repr

/-- Power sequencing and boot (R393 to R396, R485, R487, R545, R547); `startFailed`: the dies whose start-up error injection failed at the
module start and has not passed since (R444, R503). -/
structure Power where
  phase : Phase
  rails : Nat
  downStage : Nat
  lockout : Lockout
  lowQual : Bool
  thermalTrip : Bool
  refLost : Bool
  heartbeat : Bool
  firmware : Bool
  recovery : Bool
  bootCause : Nat
  stage : Nat
  ready : Bool
  readyMs : BitVec 16
  bootT0 : Dword
  moduleInjectFailed : Bool
  injected : Bool
  startFailed : List Weft := []
deriving DecidableEq, Repr

/-- Device time and its synchronisation (R6, R339 to R341, R378); `failed`: the selected source has failed and no dialogue has succeeded since. -/
structure Time where
  now : Dword
  lock : BitVec 2
  good : Nat
  everLocked : Bool
  offset : Word
  refOffset : Int
  slew : Int
  ticks : Nat
  lastSlew : Nat
  failed : Bool := false
deriving DecidableEq, Repr

/-- PLL locks (KPR_CLK_STATUS): Selvedge's two, and the Loom, shuttle and Warp fabric PLLs of each Weft die. -/
structure Clocks where
  creel : Bool
  fabric : Bool
  weftA : BitVec 3
  weftB : BitVec 3
  losses : Byte
deriving DecidableEq, Repr

/-- The power states of a group (R383). -/
inductive PState where
  | run
  | warm
  | cool
  | rest
deriving DecidableEq, Repr

/-- What KPR_PWR_STATE reports of a group: a state, a wake, or an entry on its way. -/
inductive GState where
  | at (p : PState)
  | waking (src : PState)
  | entering (src dst : PState)
deriving DecidableEq, Repr

/-! ### Security (18_security_identity_debug.md) -/

/-- The running image's manifest fields that behaviour and reports use (R484). -/
structure Manifest where
  fwVersion : Word
  rollback : Nat
  rootIndex : Nat
  issuers : List (BitVec 256)
  measure : BitVec 256
  rootPk : BitVec 256 := 0
deriving DecidableEq, Repr

/-- The owner record in force (R492, R493). -/
structure OwnerRec where
  sequence : Nat
  sigRequired : Bool
  fieldOpen : Bool
  ownerPk : BitVec 256
  ownerDraftPk : BitVec 256
  issuers : List (BitVec 256)
deriving DecidableEq, Repr

/-- Fuses, ROM digests, flash, EEPROM, keys and Tumbler's mailbox (R482 to R512).  `romRoot`, `romVendor`: the digests in ROM of root keys
0 to 3 and of the vendor debug key (R482); `installing`: the image an install programs, and whether the programming will read back right
(R488); `enrolling`: the owner record whose second flash copy is still to be written (R494, R512); `tmbWaiting`: the command that waits for
Heddle's draft load, as TMB_CMD was written (R483). -/
structure Security where
  dieIdS : Dword
  dieIdA : Dword
  dieIdB : Dword
  ownedFuse : Bool
  toggles : BitVec 5
  returnedFuse : Bool
  rollbackFused : Nat
  revoked : BitVec 4
  idSeed : BitVec 384
  transportKey : BitVec 256
  flashImage : List Byte
  owner0 : List Byte
  owner1 : List Byte
  eeprom : List Byte
  idPk : BitVec 256
  serial : BitVec 128
  ordering : BitVec 128
  orderValid : Bool
  manifest : Manifest
  owner : Option OwnerRec
  owk : Option (BitVec 256)
  draftKeys : List (Nat × BitVec 256)
  nonce : Option (BitVec 128)
  tmbResult : Byte
  mailbox : Memory
  smbData : List Byte
  smbAck : Bool
  romRoot : List (BitVec 256) := []
  romVendor : BitVec 256 := 0
  installing : Option (List Byte × Bool) := none
  enrolling : Option (List Byte) := none
  tmbWaiting : Option Word := none
deriving DecidableEq, Repr

/-! ### Hasp and recovery (17_faults_hangs_resets.md) -/

/-- A first-error capture (R460). -/
structure Capture where
  ctx : Option Nat
  master : Byte
  access : Nat
  address : Dword
  time : Dword
  detail : Word
  count : Word
deriving DecidableEq, Repr

/-- Hasp: raised sources, captures, grace timers (Tick clocks left), second sets fired, the trap log, held vectors; `firstTime`: when the
source in HSP_FIRST was raised (R459, R481). -/
structure Hasp where
  raised : List Nat
  caps : List (Nat × Capture)
  grace : List (Nat × Nat)
  secondFired : List Nat
  log : List (Nat × (Nat × Capture))
  supPending : List Nat
  firstTime : Option Dword := none
deriving DecidableEq, Repr

/-- The rung a unit's recovery is on (R474, R475): reset, injection, isolation. -/
inductive UnitPhase where
  | resetting
  | injecting
  | isolating
deriving DecidableEq, Repr

/-- Where a die reset stands (R478); `failed`: training or injection failed, the die is out of reset and not in service (R254, R444). -/
inductive DiePhase where
  | training
  | zeroing
  | injecting
  | linking
  | failed
deriving DecidableEq, Repr

/-- The last operation written to HSP_ACTION (R475). -/
inductive LastAction where
  | none
  | kill (ctx : Nat)
  | unit (u : UnitId)
  | die (d : Weft)
  | module
deriving DecidableEq, Repr

/-- The recovery ladder (R475): kills in progress with their status code, unit resets and isolations, die resets, a module reset
not yet at power good, and the last HSP_ACTION.  `flush`: the units a kill in progress has told to flush, with the context; `stuck`: units
that a kill left in their state (R473). -/
structure Ladder where
  kills : List (Nat × Nat)
  units : List (UnitId × UnitPhase)
  dieA : Option DiePhase
  dieB : Option DiePhase
  module : Bool
  action : LastAction
  flush : List (Nat × UnitId) := []
  stuck : List UnitId := []
deriving DecidableEq, Repr

/-- The disabled-unit map (R388, HSP_DISABLED), and the dies whose injection or training failed (R254, R444). -/
structure Disabled where
  engines : BitVec 8
  pairs : BitVec 8
  links : BitVec 8
  vector : BitVec 4
deriving DecidableEq, Repr

/-! ### Host ports (11_host_ports.md) -/

/-- One PCIe port as HDL_PORT_STATUS reports it, with its SR-IOV settings (R327, R342 to R348). -/
structure PortSt where
  up : Bool
  width : Nat
  speed : Nat
  degraded : Bool
  downCount : Byte
  recoveryCount : Byte
  mps : Nat
  numVfs : Nat
  closing : Bool
deriving DecidableEq, Repr

/-- What an MSI-X message carries here: the function and the vector (R336). -/
structure Msix where
  fn : IrqFn
  vector : Nat
deriving DecidableEq, Repr

/-- MSI-X: functions with MSI-X enabled, unmasked vectors, pending bits, the messages sent (oldest first), and the address and data
words of the tables that are not 0. -/
structure MsixSt where
  enabled : List IrqFn
  unmasked : List Msix
  pending : List Msix
  sent : List Msix
  table : List (Nat × Word)
deriving DecidableEq, Repr

/-! ### Contexts, rings and descriptors (10_rings_contexts.md) -/

/-- A context's role (R299). -/
inductive Role where
  | work
  | mirrorTarget
deriving DecidableEq, Repr

/-- An open context (R298 to R302): where its hinge save area starts in each die's GDDR6 (R260), and the batch instances its steps have
bound to (R313). -/
structure Ctx where
  id : Nat
  fn : FnId
  lc : Bool
  role : Role
  version : Nat
  counterGrant : Bool
  save64k : Nat
  saveA : Nat
  saveB : Nat
  latchBase : Nat
  latchCount : Nat
  spillAddr : Nat
  spillLen : Nat
  stepCounter : Dword
  closing : Bool
  bound : List (Nat × Nat)
deriving DecidableEq, Repr

/-- A completion record before it is laid out (R317); `event` records carry their device time in `step`.  `owner`: the step that ran, whose
status and age are those of the moment its record is written (R30, R307). -/
structure Completion where
  status : Nat
  substituted : Bool
  unqualified : Bool
  singleChannel : Bool
  mirrorCopy : Bool
  mirrorShort : Bool
  ageFault : Bool
  event : Bool
  detail : Nat
  tag : Nat
  ring : Nat
  slot : Nat
  entry : Nat
  measured : Nat
  step : Dword
  slowDown : Nat
  ageUs : Nat
  irq : Bool
  owner : Option Nat := none
deriving DecidableEq, Repr

/-- A ring (R303 to R307).  On a submission ring `head` is Heddle's, `tail` the host's, `read` how far Heddle has read and
`done` the slots completed out of order; on a completion ring `tail` is Heddle's, `head` the host's, `phase` the next phase bit
and `held` the records waiting for room. -/
structure Ring where
  ctx : Nat
  index : Nat
  completion : Bool
  base : Nat
  log2 : Nat
  cq : Nat
  vector : Nat
  head : Nat
  tail : Nat
  read : Nat
  done : List Nat
  phase : Bool
  held : List Completion
deriving DecidableEq, Repr

/-- A descriptor Heddle has read: its place in the order of submission, where from, its 64 bytes, and its doorbell time (R310). -/
structure ReadDesc where
  seq : Nat
  ctx : Nat
  ring : Nat
  slot : Nat
  time : Dword
  bytes : List Byte
deriving DecidableEq, Repr

/-- A doorbell recorded before ready (R548). -/
structure HeldBell where
  ctx : Nat
  ring : Nat
  index : Nat
deriving DecidableEq, Repr

/-- Who holds a latch (R122, R292): a context's program, or a host function. -/
inductive LatchHolder where
  | program (ctx : Nat)
  | host (f : FnId)
deriving DecidableEq, Repr

/-! ### Drafts (02, 05, 06) -/

/-- A codebook record (R40): format, used codes, sixteen level words. -/
structure Codebook where
  format : Nat
  used : Nat
  levels : List Nat
deriving DecidableEq, Repr

/-- A curve record (R127): B16 words, with the signed log2 of the segment width. -/
structure Curve where
  xMin : Nat
  log2w : Int
  y : List Nat
deriving DecidableEq, Repr

/-- A layer record (R145). -/
structure Layer where
  op : Nat
  rectify : Bool
  gatherable : Bool
  bias : Bool
  padNamed : Bool
  index : Nat
  in0 : Nat
  in1 : Nat
  out : Nat
  in2 : Nat
  m : Nat
  k : Nat
  n : Nat
  log2ms : Nat
  log2ns : Nat
  log2ks : Nat
  chunk : Nat
  gatherRows : Nat
  curve : Nat
  padCode : Nat
  biasBlob : Nat
  taps : Nat
  bound : Nat
  params : List Byte
deriving DecidableEq, Repr

/-- A tensor record (R147). -/
structure Tensor where
  type : Nat
  format : Nat
  codebook : Nat
  kappa : Nat
  firstPass : Bool
  centred : Bool
  dithered : Bool
  driftEnable : Bool
  adaptEnable : Bool
  result : Bool
  batchInput : Bool
  weight : Bool
  resultNo : Nat
  rows : Nat
  rowLen : Nat
  rowPitch : Nat
  driftThreshold : Nat
  blob : Nat
  placement : Nat
  adaptCurve : List Int
deriving DecidableEq, Repr

/-- A placement record (R256). -/
structure Placement where
  home : Nat
  dies : Nat
  parts : Nat
  sramA : Nat
  sramB : Nat
  splitRow : Nat
  homeOff : Nat
  partBytes : Nat
  window : Nat
  stages : Nat
  evicts : Nat
deriving DecidableEq, Repr

/-- A blob directory entry (R150) with its plaintext once decrypted (R152). -/
structure Blob where
  offset : Nat
  length : Nat
  iv : Nat
  tag : Nat
  tensor : Nat
  crc : Nat
  plain : List Byte
deriving DecidableEq, Repr

/-- A program record (R154) with its text and initial data image. -/
structure Program where
  textOff : Nat
  textBytes : Nat
  dataOff : Nat
  dataBytes : Nat
  budget : Nat
  latchUse : Bool
  wins : List (Nat × Bool)
  entry : Nat
  text : List Byte
  data : List Byte
deriving DecidableEq, Repr

/-- A hinge record (R155). -/
structure Hinge where
  index : Nat
  afterLayer : Nat
  program : Nat
  lrCount : Nat
  lrFirst : Nat
  resume : Nat
deriving DecidableEq, Repr

/-- A live-range record (R156). -/
structure LiveRange where
  tensor : Nat
  dies : Nat
  start : Nat
  length : Nat
deriving DecidableEq, Repr

/-- The bounds record (R160). -/
structure Bounds where
  isolated : Nat
  hingeGap : Nat
  beamA : Nat
  beamB : Nat
  gddrA : Nat
  gddrB : Nat
  hostSpill : Nat
  resultBytes : Nat
  saveBytes : Nat
deriving DecidableEq, Repr

/-- A draft image as Heddle reads it (R143 to R165). -/
structure Draft where
  version : Nat
  imageBytes : Nat
  whole : Bool
  encrypted : Bool
  seqA : Nat
  seqB : Nat
  results : Nat
  keyId : Nat
  buildId : Dword
  digest : BitVec 256
  layers : List Layer
  tensors : List Tensor
  codebooks : List (Nat × Codebook)
  curves : List (Nat × Curve)
  programs : List Program
  hinges : List Hinge
  liveRanges : List LiveRange
  placements : List Placement
  blobs : List Blob
  bounds : Bounds
deriving DecidableEq, Repr

/-- The state of a draft table entry (R168, R170, R265). -/
inductive EntryState where
  | loading
  | loaded
  | unloading
  | failed
deriving DecidableEq, Repr

/-- A draft table entry (R168) with the bases of its GDDR6 regions (R258); `lost`: its weights are lost while it unloads (R265).  `gone`: of
a copy that a surviving die keeps (R479), the dies whose regions a die reset took. -/
structure Entry where
  index : Nat
  partition : Nat
  state : EntryState
  draft : Draft
  baseA : Nat
  baseB : Nat
  lost : Bool := false
  gone : List Weft := []
deriving DecidableEq, Repr

/-! ### Recipes and intake (07_creel_intake.md) -/

/-- A recipe (R218, R219). -/
structure Recipe where
  points : Bool
  lensOn : Bool
  meshOn : Bool
  regroupOn : Bool
  defectOn : Bool
  lastGood : Bool
  dataType : Nat
  cfa : Nat
  f : Nat
  codebook : Nat
  format : Nat
  kappa : Nat
  wIn : Nat
  hIn : Nat
  cropX : Nat
  cropY : Nat
  wOut : Nat
  hOut : Nat
  lineWindow : Nat
  nDefects : Nat
  black : List Nat
  lens : List Nat
  meshNx : Nat
  meshNy : Nat
  log2sx : Nat
  log2sy : Nat
  rowPitch : Nat
  closeUs : Nat
  maxAgeUs : Nat
  x0 : Int
  y0 : Int
  cell : Nat
  nx : Nat
  ny : Nat
  pmax : Nat
  nFeat : Nat
  zMin : Int
  zMax : Int
  maxPoints : Nat
  gains : List Nat
  tone0 : List Nat
  tone1 : List Nat
  radial : List Nat
  defects : List (Nat × Nat)
  mesh : List (Nat × Nat)
deriving DecidableEq, Repr

/-- A loaded recipe slot (R220, R316): its owner, its image digest (R509) and its image bytes (R220 check 0x0026). -/
structure RecipeSlot where
  slot : Nat
  partition : Nat
  recipe : Recipe
  digest : BitVec 256
  bytes : Nat
deriving DecidableEq, Repr

/-- A sample being received (R215, R223): its instance and position, the lines received with their planes after stage 4, its
saturation count, and a sweep's number, next packet, kept points and points kept in each pillar. -/
structure Sample where
  time : Dword
  counter : Nat
  position : Nat
  lines : List (List Nat × List Nat)
  sat : Nat
  sweep : Nat
  nextSeq : Nat
  kept : Nat
  pillars : List (Nat × Nat)
deriving DecidableEq, Repr

/-- A hold sample (R240): its timestamp, saturation count, and whether Weft B's copy is complemented; its planes lie in Beam
SRAM. -/
structure Hold where
  time : Dword
  sat : Nat
  comp : Bool
deriving DecidableEq, Repr

/-- What a stream slot is doing: no sample, receiving, dropping a sample whole (R238), or receiving lines of a sample already
substituted (R31). -/
inductive SlotPhase where
  | idle
  | open (s : Sample)
  | dropping
  | late
deriving DecidableEq, Repr

/-- What reaches a stream slot from a sensor port (R211, R213, R223), a loss of its link in its place among the packets (R212), and the
payload of a container that Creel has read for an INJECT (R233; `desc`: the posted descriptor); with what Creel's checks find while it works
on it (R245, R430). -/
inductive Packet where
  | frameStart
  | line (dataType : Nat) (payload : List Byte) (crcOk lanesAgree overflow : Bool) (ecc : IntakeCheck)
  | frameEnd
  | discard (dataType : Nat) (headerError : Bool)
  | point (bs : List Byte) (lanesAgree : Bool) (ecc : IntakeCheck)
  | linkLoss
  | inject (desc payload : List Byte) (checks : List RowCheck)
deriving DecidableEq, Repr

/-- A stream slot's runtime state (R216, R240, R573): its input queue, each packet with the device time at which it was received (R20,
R217), the count of corrected packet header errors (R211), and the sensor time and sequence number last recorded (R214, R233). -/
structure Slot where
  input : List (Dword × Packet)
  headerFixed : Word
  sensorTime : Dword
  sequence : Word
  phase : SlotPhase
  good : Word
  substituted : Word
  corrupt : Word
  late : Word
  dropped : Word
  holdBase : Nat
  holdBytes : Nat
  half : Bool
  hold : Option Hold
  copying : Option Hold
deriving DecidableEq, Repr

/-- The state of one position of a batch instance (R239, R242, R243). -/
inductive PosState where
  | empty
  | received
  | zeroSub
  | lastGood
  | copying
  | padded
deriving DecidableEq, Repr

/-- One position of an instance: manifest entry fields (R242). -/
structure Pos where
  state : PosState
  stream : Nat
  cause : Nat
  sat : Nat
  time : Dword
  corrupt : Bool
deriving DecidableEq, Repr

/-- A batch instance (R238, R241): its buffer, where that starts on each die, the bytes of its tensor up to the manifest (R237), form on
Weft B, positions, whether a step ever started on it, whether a reset
discarded it (R243), and whether its buffer is no longer in use (R241). -/
structure Instance where
  counter : Nat
  buffer : Nat
  baseA : Nat
  baseB : Nat
  tensorBytes : Nat
  openTime : Dword
  readyTime : Dword
  ready : Bool
  mode : Nat
  complemented : Bool
  pos : List Pos
  started : Bool
  eccFail : Bool
  discarded : Bool
  released : Bool
deriving DecidableEq, Repr

/-- A batch index (R236 to R241). -/
structure Batch where
  counter : Nat
  instances : List Instance
deriving DecidableEq, Repr

/-! ### Steps, operations and the Weft dies (03, 04, 09) -/

/-- Where a step is on its way (R273, R277, R282, R289); `due`: it has ended with a status, and a record of it is not yet written (R302,
R307). -/
inductive Stage where
  | waiting
  | admitted
  | running
  | saving
  | preempted
  | restoring
  | packed
  | delivering
  | due (status : Nat)
deriving DecidableEq, Repr

/-- What one die has produced of a step: layers done, layer digests, saturation counts of tensors, records written by top-k
layers, and the packed result set (R135, R66, R134, R137, R408).  `codedRows`: the rows of each first-pass tensor that its consumers on the
die have coded since they were written (R62). -/
structure DieWork where
  layersDone : List Nat
  digests : List (Nat × Nat)
  sats : List (Nat × Nat)
  written : List (Nat × Nat)
  codedRows : List (Nat × List Nat)
  set : Option (List Byte)
  summarised : Bool
deriving DecidableEq, Repr

/-- A step read and not yet completed (R312, R281, R297).  `saved`: the bytes written to the save area of each die; `resumeA`, `resumeB`:
the clocks of the program to resume on each die (R116, R289).  `kept`: the draft a surviving die keeps for a step (R479).  `holdUs`:
the hold limit its admission charged (R540).  Use counts of placement p are kept under 2p on Weft A and 2p + 1 on Weft B. -/
structure Step where
  id : Nat
  ctx : Nat
  fn : FnId
  ring : Nat
  slot : Nat
  tag : Nat
  lc : Bool
  entry : Nat
  mirror : Bool
  replay : Bool
  record : Bool
  batch : Bool
  irq : Bool
  batchIndex : Nat
  inst : Nat
  deadlineUs : Nat
  ageUs : Nat
  resultAddr : Nat
  resultLen : Nat
  recordAddr : Nat
  seed : Dword
  bellTime : Dword
  stage : Stage
  counter : Dword
  admitTime : Dword
  deadline : Option Nat
  ageAt : Option Nat
  cost : Nat
  holdUs : Nat
  measured : Nat
  started : Bool
  onA : Bool
  onB : Bool
  kappas : List (Nat × Nat)
  stagesUsed : List (Nat × Nat)
  evictsUsed : List (Nat × Nat)
  hinge : Option Nat
  saved : Option (Nat × Nat)
  resumeA : Option Nat
  resumeB : Option Nat
  workA : DieWork
  workB : DieWork
  unqualified : Bool
  singleChannel : Bool
  ageFault : Bool
  deadlineFault : Bool
  kept : Option Entry
  keptCbs : List (Nat × Codebook)
  keptCurves : List (Nat × Curve)
  releasedAt : Option Dword
deriving DecidableEq, Repr

/-- What a queued operation does: a layer, a staging copy, or lm.dec / lm.enc (R118, R123, R257). -/
inductive OpKind where
  | layer (l : Nat)
  | stage (placement part : Nat)
  | evict (placement part : Nat)
  | dec (tensor row count channels off : Nat)
  | enc (tensor row count channels off : Nat)
deriving DecidableEq, Repr

/-- A member of a (gathered) operation (R100): the step, the pair that waits on its ticket, its rows, and the operation's row at which
they start (R102). -/
structure OpMember where
  step : Nat
  pair : Nat
  ticket : Nat
  rows : Nat
  base : Nat := 0
deriving DecidableEq, Repr

/-- An error that the residue check did not detect (R107): it changes the exact sum of a tap group of an element of a step's tensor by
a multiple of 7. -/
structure Upset where
  step : Nat
  row : Nat
  chan : Nat
  group : Nat
  delta : Int
deriving DecidableEq, Repr

/-- An operation in an issue queue (R119): its draft table entry, what it does, whom it serves, the batch index of a batched
layer's next array operation (R191), its rows with those of absent members of a fixed composition (R102), and its undetected errors. -/
structure Op where
  entry : Nat
  kind : OpKind
  members : List OpMember
  pass : Nat
  rows : Nat := 0
  upsets : List Upset := []
deriving DecidableEq, Repr

/-- A Loom engine (R74, R77, R83, R91): the operation it runs, the tiles it runs in order (R90, R96, R420), the pass tag its cubes last
took (the number of the pass among those of its tiles), the active and the shadow weight block of each cube that holds one (by 16 × cube
row + cube column), the sum lanes and residue lanes of its columns, and the two halves of its drain bank. -/
structure Engine where
  op : Option Op
  tiles : List Nat
  tag : Nat
  active : List (Nat × List Nat)
  shadow : List (Nat × List Nat)
  lanes : List Int
  residues : List Nat
  drain0 : List Rat
  drain1 : List Rat
deriving DecidableEq, Repr

/-- What a stalled pair waits for (R118, R119, R121): a ticket, all its tickets, or the outcome of a hinge. -/
inductive Stall where
  | ticket (t : Nat)
  | all
  | hinge (h : Nat)
deriving DecidableEq, Repr

/-- A program on a pair (R114, R116): its step, index, the tickets it issued, its watchdog, the ticket of the lm.spawn that started
it, its argument (a0), the program counter it starts at, and the pair whose lm.spawn it answers. -/
structure Running where
  step : Nat
  program : Nat
  tickets : List Nat
  clocks : Nat
  instrs : Nat
  ticket : Option Nat
  arg : Dword
  start : Nat
  parent : Nat := 8
deriving DecidableEq, Repr

/-- A shuttle pair (R109 to R116, R439).  `resv`: the address and the bytes that a load-reserved of its program holds (R110). -/
structure Pair where
  x : List Dword
  f : List Dword
  v : List (BitVec 256)
  pc : Dword
  frm : BitVec 3
  fflags : BitVec 5
  vcsr : VecCsr
  imem : Memory
  dmem : Memory
  run : Option Running
  queued : List Running
  stall : Option Stall
  halted : Bool
  debugHalt : Bool
  debugStep : Bool
  testing : Bool
  resv : Option (Nat × Nat) := none
deriving DecidableEq, Repr

/-- One GDDR6 channel (R252 to R254, GDR_CHAN_STATUS). -/
structure Chan where
  train : BitVec 2
  edc : Byte
  corrected : BitVec 16
deriving DecidableEq, Repr

/-- Where the proof input of a die stands in the frame (R434 to R436, R481). -/
inductive ProofPhase where
  | idle
  | due
  | running
  | released
  | abandoned
  | done
deriving DecidableEq, Repr

/-- The proof and self-test state of a die (KPR_PROOF_STATUS, KPR_STEST_STATUS).  `fromRest`: the die wakes from Rest after the mode left
Bench, `awakeAt`: when all its groups had reached Run (R398); `owed`: the die owes this frame a proof (R433, R436); `starve`: per target, the frames counted
toward its next starvation fault (R441), while `ages` counts the frames since it passed. -/
structure Checks where
  phase : ProofPhase
  result : BitVec 2
  startOffset : BitVec 16
  misses : Byte
  failed : Byte
  ages : List Nat
  lastTarget : Nat
  slice : Option Nat
  sliceDone : Bool
  fallback : Bool
  firstProof : Bool
  passed : List Nat
  fromRest : Bool := false
  awakeAt : Option Nat := none
  owed : Bool := false
  starve : List Nat := [0, 0, 0, 0, 0, 0, 0, 0]
deriving DecidableEq, Repr

/-- One Weft die.  `benchIdle`: the groups that have been idle since before the mode changed to Bench (R398). -/
structure WeftDie where
  loom : GState
  shuttle : GState
  reedFinish : GState
  beamGrp : GState
  inService : Bool
  trainFailed : Bool
  injectFailed : Bool
  zeroed : Bool
  beam : Memory
  gddr : Memory
  codebooks : List (Nat × Codebook)
  curves : List (Nat × Curve)
  arrayQ : List Op
  reedQ : List Op
  finishQ : List Op
  stageQ : List Op
  arrayRun : Option Op
  reedRun : Option Op
  finishRun : Option Op
  stageRun : Option Op
  engines : List Engine
  barrier : Option Nat
  tickets : List Nat
  pairs : List Pair
  chans : List Chan
  scrubLine : BitVec 11
  scrubPasses : BitVec 16
  checks : Checks
  benchIdle : List Grp := []
deriving DecidableEq, Repr

/-- A Warp link (R263 to R271), with the times of its retries in the last two milliseconds (R264). -/
structure Link where
  state : BitVec 2
  degraded : Bool
  modulesUp : BitVec 2
  recent : List Dword
deriving DecidableEq, Repr

/-- A gather window (R101): its composition, one member per step in order of arrival, which both dies run (R535), the requests with the die
each came from, whether it is closed, the dies whose queue has its operation, and the rows of a closed fixed composition (R102). -/
structure Window where
  entry : Nat
  layer : Nat
  lc : Bool
  group : Option Nat
  openTime : Dword
  limitUs : Nat
  members : List OpMember
  asked : List (Weft × OpMember)
  closed : Bool := false
  sent : List Weft := []
  span : Nat := 0
deriving DecidableEq, Repr

/-- Heddle's scheduler (R277, R279, R390); `retest`: a link went down and the admitted steps are to be tested again (R288); `picked`: the
step selected at the hinge whose save is under way (R289). -/
structure Sched where
  running : Option Nat
  lastPart : Nat
  nextId : Nat
  windows : List Window
  effLoom : List Word
  nextStart : Option Nat
  retest : Bool
  picked : Option Nat := none
deriving DecidableEq, Repr

/-- A summary a die's Finish sends to Ward (R423). -/
structure Summary where
  die : Weft
  step : Nat
  layersDone : Nat
  stepDigest : Nat
  setCrc : Nat
  totalBytes : Nat
  digestCrc : Nat
  satCrc : Nat
  time : Dword
deriving DecidableEq, Repr

/-- Ward (R423 to R427, WRD_COUNT). -/
structure Ward where
  summaries : List Summary
  agree : BitVec 16
  disagree : BitVec 16
deriving DecidableEq, Repr

/-- The module frame (R418, R470). -/
structure Frame where
  number : Nat
  start : Dword
  running : Bool
  trips : List Nat
deriving DecidableEq, Repr

/-- One watch slot's published results (R524). -/
structure Watch where
  seq : Word
  minCode : Nat
  maxCode : Nat
  step : Dword
  digest : Nat
  satCount : Nat
  zeroCount : Nat
  zeroRows : Nat
  hist : List Nat
deriving DecidableEq, Repr

/-- Counter values (R513, R519, R520): programmable and always-on counters by 32 or 16 × die + index, partition counters by
8 × partition + k. -/
structure Counters where
  prog : List (Nat × BitVec 48)
  aon : List (Nat × BitVec 48)
  part : List (Nat × BitVec 48)
  watch : List (Nat × Watch)
deriving DecidableEq, Repr

/-- Latched high words (R11), the word the last read returned (R12), and writes held for a sleeping die (R557). -/
structure RegBus where
  hiLatch : List (Nat × Word)
  data : Word
  heldWrites : List (Nat × Word)
deriving DecidableEq, Repr

/-- The state of the block.  `mon`: the progress counters of R467 by `monKey` (Machine/Regs.lean). -/
structure State where
  pending : List Instr
  pins : Pins
  supply : Supply
  pwr : Power
  time : Time
  clk : Clocks
  regs : List (Nat × Word)
  fnRegs : List (Nat × Word)
  bus : RegBus
  sec : Security
  hasp : Hasp
  ladder : Ladder
  disabled : Disabled
  portA : PortSt
  portB : PortSt
  portS : PortSt
  flrBusy : List FnId
  msix : MsixSt
  hostMemA : Memory
  hostMemB : Memory
  ctxs : List Ctx
  rings : List Ring
  readQ : List ReadDesc
  posted : List ReadDesc
  heldBells : List HeldBell
  latches : List (Nat × LatchHolder)
  eventLost : List FnId
  loadBusy : Option ReadDesc
  drafts : List Entry
  kappas : List ((Nat × Nat × Nat) × Nat)
  recipes : List RecipeSlot
  steps : List Step
  sched : Sched
  ward : Ward
  wa : WeftDie
  wb : WeftDie
  links : List Link
  slots : List Slot
  batches : List Batch
  frame : Frame
  ctr : Counters
  freshCtr : Nat
  mon : List (Nat × Nat) := []
deriving DecidableEq, Repr

/-- Why the block stops. -/
inductive Fault where
  /-- A debug access (KPR_DBG_DATA, JTAG at Open) names an offset outside the levels of R244: no such byte exists.  Safe. -/
  | debugOutsideLevel
deriving DecidableEq, Repr

/-- Why a command has no meaning. -/
inductive Refusal where
  /-- The command has no meaning in the model yet.  Safe: the machine stops. -/
  | notModelled (mnemonic : String)
deriving DecidableEq, Repr

/-! ### Reset -/

/-- Vector control and status registers that are zero. -/
def VecCsr.zero : VecCsr := { vl := 0, vtype := 0, vstart := 0, vxrm := 0, vxsat := false }

/-- A pair whose registers and memories are zero (R397, row Pair memories and registers: Z). -/
def Pair.reset : Pair :=
  { x := List.replicate 32 0, f := List.replicate 32 0, v := List.replicate 32 0, pc := 0, frm := 0, fflags := 0, vcsr := VecCsr.zero, imem := [], dmem := [], run := none, queued := [], stall := none,
    halted := false, debugHalt := false, debugStep := false, testing := false }

/-- An engine that holds nothing: after a reset, and after a kill of its operation (R98, R108). -/
def Engine.reset : Engine :=
  { op := none, tiles := [], tag := 0, active := [], shadow := [], lanes := [], residues := [], drain0 := [], drain1 := [] }

/-- A channel after a die reset (GDR_CHAN_STATUS: 0). -/
def Chan.reset : Chan := { train := 0, edc := 0, corrected := 0 }

/-- Proof and self-test state after a die reset. -/
def Checks.reset : Checks :=
  { phase := .idle, result := 0, startOffset := 0, misses := 0, failed := 0, ages := [0, 0, 0, 0, 0, 0, 0, 0],
    lastTarget := 0, slice := none, sliceDone := false, fallback := false, firstProof := false, passed := [] }

/-- A Weft die after cold reset: groups in Rest, memories zero, slots 4 to 63 empty (R397). -/
def WeftDie.reset : WeftDie :=
  { loom := .at .rest, shuttle := .at .rest, reedFinish := .at .rest, beamGrp := .at .rest, inService := false,
    trainFailed := false, injectFailed := false, zeroed := false, beam := [], gddr := [], codebooks := [], curves := [], arrayQ := [], reedQ := [],
    finishQ := [], stageQ := [], arrayRun := none, reedRun := none, finishRun := none, stageRun := none,
    engines := List.replicate 4 Engine.reset, barrier := none, tickets := [],
    pairs := [Pair.reset, Pair.reset, Pair.reset, Pair.reset], chans := List.replicate 12 Chan.reset,
    scrubLine := 0, scrubPasses := 0, checks := Checks.reset }

/-- A Warp link after reset (WRP_LINK_STATUS: 0). -/
def Link.reset : Link := { state := 0, degraded := false, modulesUp := 0, recent := [] }

/-- A PCIe port after cold reset (HDL_PORT_STATUS: 0).  PRESUMED (log entry 7): PF Max Payload Size 128 bytes. -/
def PortSt.reset : PortSt :=
  { up := false, width := 0, speed := 0, degraded := false, downCount := 0, recoveryCount := 0, mps := 128, numVfs := 0,
    closing := false }

/-- A stream slot that is not bound (CRL_SLOT_CNT: 0). -/
def Slot.reset : Slot :=
  { input := [], headerFixed := 0, sensorTime := 0, sequence := 0, phase := .idle, good := 0, substituted := 0, corrupt := 0, late := 0, dropped := 0, holdBase := 0, holdBytes := 0,
    half := false, hold := none, copying := none }

/-- A batch index with no instance. -/
def Batch.reset : Batch := { counter := 0, instances := [] }

/-- Fuses, flash and keys: the manual states no contents (DESIGN CHOICE, log entry 5: all zero and empty). -/
def Security.reset : Security :=
  { dieIdS := 0, dieIdA := 0, dieIdB := 0, ownedFuse := false, toggles := 0, returnedFuse := false, rollbackFused := 0,
    revoked := 0, idSeed := 0, transportKey := 0, flashImage := [], owner0 := [], owner1 := [], eeprom := [], idPk := 0,
    serial := 0, ordering := 0, orderValid := false,
    manifest := { fwVersion := 0, rollback := 0, rootIndex := 0, issuers := [], measure := 0 }, owner := none, owk := none,
    draftKeys := [], nonce := none, tmbResult := 0, mailbox := [], smbData := [], smbAck := false }

/-- The block right after cold reset (R360, last row; R397, Cold column): seated, standby rail up, in Off.  The values the
manual states no reset for are named in log entries 1, 3, 5 and 7. -/
def State.reset : State :=
  { pending := []
    pins := { prsnt1Low := true, pwrEn := false, perstA := true, perstB := true, perstS := true, wakeN := true, faultN := false,
              alive := false, aliveRun := false, syncOut := false }
    supply := { debounce := false, ramped := true, standby := true, filter := false, removed := false, cut := .none, vin := 0,
                pin := 0, tempS := 0, tempA := 0, tempB := 0, tempBoard := 0 }
    pwr := { phase := .off, rails := 0, downStage := 0, lockout := .none, lowQual := false, thermalTrip := false,
             refLost := false, heartbeat := false, firmware := false, recovery := false, bootCause := 0, stage := 0,
             ready := false, readyMs := 0, bootT0 := 0, moduleInjectFailed := false, injected := false }
    time := { now := 0, lock := 0, good := 0, everLocked := false, offset := 0, refOffset := 0, slew := 0, ticks := 0, lastSlew := 0 }
    clk := { creel := false, fabric := false, weftA := 0, weftB := 0, losses := 0 }
    regs := []
    fnRegs := []
    bus := { hiLatch := [], data := 0, heldWrites := [] }
    sec := Security.reset
    hasp := { raised := [], caps := [], grace := [], secondFired := [], log := [], supPending := [] }
    ladder := { kills := [], units := [], dieA := none, dieB := none, module := false, action := .none }
    disabled := { engines := 0, pairs := 0, links := 0, vector := 0 }
    portA := PortSt.reset
    portB := PortSt.reset
    portS := PortSt.reset
    flrBusy := []
    msix := { enabled := [], unmasked := [], pending := [], sent := [], table := [] }
    hostMemA := []
    hostMemB := []
    ctxs := []
    rings := []
    readQ := []
    posted := []
    heldBells := []
    latches := []
    eventLost := []
    loadBusy := none
    drafts := []
    kappas := []
    recipes := []
    steps := []
    sched := { running := none, lastPart := 1, nextId := 0, windows := [], effLoom := [0x3E8, 0], nextStart := none, retest := false }
    ward := { summaries := [], agree := 0, disagree := 0 }
    wa := WeftDie.reset
    wb := WeftDie.reset
    links := List.replicate 8 Link.reset
    slots := List.replicate 32 Slot.reset
    batches := List.replicate 32 Batch.reset
    frame := { number := 0, start := 0, running := false, trips := [] }
    ctr := { prog := [], aon := [], part := [], watch := [] }
    freshCtr := 0 }

end Machine

end Sys2Proof
end

