-- ==== Sys2Proof/Machine/Mem.lean ====
section
/-! DEFINITION. Byte memories as sorted lists of non-zero bytes. -/

namespace Sys2Proof

namespace Machine

/-- The canonical form: offsets strictly rising, no byte equal to what an unlisted offset reads as (0: R254, R387, and log
entry 8 for host memory). -/
def Memory.wf : Memory → Bool
  | [] => true
  | [c] => c.2 != 0
  | c :: d :: t => c.2 != 0 && decide (c.1 < d.1) && Memory.wf (d :: t)

/-- One byte; an unlisted offset reads as 0. -/
def Memory.read (m : Memory) (a : Nat) : Byte :=
  match m with
  | [] => 0
  | c :: t => if c.1 = a then c.2 else Memory.read t a

/-- Write one byte, keeping the canonical form. -/
def Memory.write (m : Memory) (a : Nat) (b : Byte) : Memory :=
  match m with
  | [] => if b = 0 then [] else [(a, b)]
  | c :: t =>
    if a < c.1 then (if b = 0 then c :: t else (a, b) :: c :: t)
    else if a = c.1 then (if b = 0 then t else (a, b) :: t)
    else c :: Memory.write t a b

/-- Write bytes at rising offsets, the first at `a`. -/
def Memory.writeBytes (m : Memory) (a : Nat) (bs : List Byte) : Memory :=
  match bs with
  | [] => m
  | b :: t => Memory.writeBytes (Memory.write m a b) (a + 1) t

/-- The n bytes from offset `a` on. -/
def Memory.readBytes (m : Memory) (a n : Nat) : List Byte := (fromTo a n).map (Memory.read m)

/-- The little-endian number of n bytes (R9). -/
def Memory.readLe (m : Memory) (a n : Nat) : Nat := leNat (Memory.readBytes m a n)

/-- Set n bytes from offset `a` on to 0. -/
def Memory.zero (m : Memory) (a n : Nat) : Memory := m.filter (fun c => !(decide (a ≤ c.1) && decide (c.1 < a + n)))

end Machine

end Sys2Proof
end

