-- ==== Sys2Proof/Machine/Regs.lean ====
section
/-! DEFINITION. The settings registers: which offsets hold one, what resets it and to what (R13, R14, R559, R560). -/

namespace Sys2Proof

namespace Machine

/-- What restores a register to its Reset column (R14): the widest named reset of its fields. -/
inductive Scope where
  | cold
  | module
  | die (d : Weft)
  | link (l : Nat)
deriving DecidableEq, Repr

/-- The index of an offset in a row of n registers, `stride` bytes apart. -/
def idxIn (off base stride n : Nat) : Option Nat :=
  if base ≤ off then
    (if (off - base) % stride = 0 then (if (off - base) / stride < n then some ((off - base) / stride) else none) else none)
  else none

/-- A Hasp source is dangerous (the last column of R457). -/
def srcDangerous (n : Nat) : Bool :=
  let die := n / 256
  let i := n % 256
  let lnk := decide (0x30 ≤ i) && decide (i < 0x40) && i % 4 != 1
  if die = 0 then
    [0x02, 0x03, 0x05, 0x08, 0x0A, 0x0C, 0x0D, 0x0E, 0x11, 0x12, 0x13, 0x14, 0x1E, 0x1F, 0x22].contains i || lnk
      || (decide (0x40 ≤ i) && decide (i < 0x60))
  else
    decide (i ≤ 0x13) || [0x1C, 0x1D, 0x20, 0x22, 0x24, 0x26, 0x27, 0x29].contains i || (die == 1 && lnk)

/-- The default reactions select a unit reset (R465, first row). -/
def srcUnitResetDefault (n : Nat) : Bool :=
  let i := n % 256
  n / 256 != 0 && (decide (i ≤ 0x07) || i == 0x0C || i == 0x0D || (decide (0x10 ≤ i) && decide (i ≤ 0x13)))

/-- The reset value of HSP_SRC_CFG_n (R465). -/
def srcCfgReset (n : Nat) : Word :=
  if srcUnitResetDefault n then 0x0000200B#32
  else if srcDangerous n then 0x00002003#32
  else 0x00000002#32

/-- The reset value and reset of a supervisor register that the model keeps as a word; none where an offset keeps none. -/
def regInfo (off : Nat) : Option (Word × Scope) :=
  if off < 0x40000 then
    (match off with
    | 0x200 => some (0, .cold)
    | 0x220 => some (0, .module)
    | 0x224 => some (0x06408235#32, .module)
    | 0x228 => some (0, .module)
    | 0x22C => some (0, .module)
    | 0x230 => some (0, .module)
    | 0x234 => some (0, .module)
    | 0x300 => some (0x1F4#32, .module)
    | 0x400 => some (0, .module)
    | 0x404 => some (0x8235#32, .module)
    | 0x408 => some (0, .module)
    | 0x40C => some (0x005DC1F4#32, .module)
    | 0x410 => some (8, .module)
    | 0x424 => some (0, .cold)
    | 0x500 => some (0, .cold)
    | 0x50C => some (0, .module)
    | 0x510 => some (0, .module)
    | 0x514 => some (0, .module)
    | _ => none)
  else if off < 0x40C00 then (if off % 4 = 0 then some (srcCfgReset ((off - 0x40000) / 4), .module) else none)
  else if off = 0x40D00 then some (0, .cold)
  else if (idxIn off 0x40D10 4 5).isSome then some (0x3E8#32, .module)
  else if off = 0x40D44 then some (0, .module)
  else if off = 0x80000 then some (0x7D0#32, .module)
  else if off = 0x100400 then some (0xC8#32, .module)
  else if off = 0x100410 then some (0, .module)
  else if off = 0x100600 then some (0x3E8#32, .module)
  else if off = 0x100604 then some (0x2D3F#32, .module)
  else if off = 0x100608 then some (0x01001000#32, .module)
  else if off = 0x10060C then some (0x01000000#32, .module)
  else if off = 0x100620 then some (0, .module)
  else if off = 0x100624 then some (0, .module)
  else if off = 0x100628 then some (0, .module)
  else if off = 0x10062C then some (0, .module)
  else if off = 0x100640 then some (0x04000800#32, .module)
  else if off = 0x100644 then some (0x100#32, .module)
  else if (idxIn off 0x100700 4 64).isSome then some (0, .module)
  else if 0x100900 ≤ off && off < 0x101100 then
    (if off % 4 = 0 && ((off - 0x100900) % 0x80 = 0 || (0x10 ≤ (off - 0x100900) % 0x80 && (off - 0x100900) % 0x80 < 0x50))
      then some (0, .module) else none)
  else if (idxIn off 0x200000 4 28).isSome then some (0, .module)
  else if (idxIn off 0x200100 0x20 32).isSome || (idxIn off 0x200104 0x20 32).isSome then some (0, .module)
  else if (idxIn off 0x200500 0x10 32).isSome || (idxIn off 0x200504 0x10 32).isSome || (idxIn off 0x200508 0x10 32).isSome then
    some (0, .module)
  else if 0x500000 ≤ off && off < 0x50C000 then
    let d := (off - 0x500000) / 0x4000
    let o := (off - 0x500000) % 0x4000
    let sc : Scope := if d = 0 then .module else if d = 1 then .die .a else .die .b
    if o < 0x400 then (if o % 4 = 0 && o % 0x20 < 0x18 then some (0, sc) else none)
    else if o = 0xA00 || o = 0xA04 then some (0, sc)
    else none
  else if (idxIn off 0x50D000 0x10 16).isSome || (idxIn off 0x50D004 0x10 16).isSome then some (0, .module)
  else if 0x600400 ≤ off && off < 0x600480 then
    (if off % 4 = 0 then
      (if off < 0x600440 then some (0x20401040#32, .link ((off - 0x600400) / 0x10))
       else some (0x23133033#32, .link ((off - 0x600400) / 0x10)))
     else none)
  else if off = 0x600480 then some (0, .module)
  else none

/-- The reset value of a kept register. -/
def regReset (off : Nat) : Word :=
  match regInfo off with
  | some p => p.1
  | none => 0

/-- What resets a kept register. -/
def regScope (off : Nat) : Scope :=
  match regInfo off with
  | some p => p.2
  | none => .cold

/-- The die, 0 to 2, whose counters an offset of the CTR block belongs to (R557). -/
def ctrDie (off : Nat) : Nat := (off - 0x500000) / 0x4000

/-- A key of a latched high word (`viewKey`, Machine/RegAccess.lean) names a counter of a die: in the CTR block of the supervisor view, or in the
counter read window of a function (R521, R522). -/
def ctrLatch (die key : Nat) : Bool :=
  let o := if key < 2 ^ 28 then key % 2 ^ 27 else (key - 2 ^ 30) % 2 ^ 25
  if key < 2 ^ 28 then decide (0x500000 ≤ o) && decide (o < 0x50C000) && ctrDie o == die
  else decide (2 ^ 30 ≤ key) && decide (0x1001000 ≤ o) && decide (o < 0x1001300) && (o - 0x1001000) / 256 == die

/-- A register's value in a list of the registers that differ from reset. -/
def regRead (l : List (Nat × Word)) (off : Nat) : Word :=
  match lookupN l off with
  | some w => w
  | none => regReset off

/-- Set a register, keeping only registers that differ from reset. -/
def regWrite (l : List (Nat × Word)) (off : Nat) (w : Word) : List (Nat × Word) :=
  if w = regReset off then eraseN l off else insertN l off w

/-- A supervisor register the model keeps as a word. -/
def State.reg (s : State) (off : Nat) : Word := regRead s.regs off

/-- Set a supervisor register. -/
def State.setReg (s : State) (off : Nat) (w : Word) : State := { s with regs := regWrite s.regs off w }

/-- Return to reset every register whose scope a test selects. -/
def State.resetRegs (s : State) (p : Scope → Bool) : State :=
  { s with regs := s.regs.filter (fun r => !(p (regScope r.1))) }

/-! ### Function windows (R560) -/

/-- The number of a host function: 0 to 31 for Host A, 32 to 63 for Host B. -/
def fnIdx (f : FnId) : Nat := (match f.port with | .hostA => 0 | .hostB => 32) + f.num

/-- The number of a function with MSI-X vectors: the supervisor function is 64. -/
def irqIdx (f : IrqFn) : Nat :=
  match f with
  | .fn g => fnIdx g
  | .sup => 64

/-- The key of a word of a function's MSI-X table. -/
def msixKey (f : IrqFn) (word : Nat) : Nat := irqIdx f * 0x2000 + word

/-- The master ID of a host function (R16). -/
def fnMaster (f : FnId) : Byte := BitVec.ofNat 8 (0x20 + fnIdx f)

/-- The key of a function register. -/
def fnKey (f : FnId) (off : Nat) : Nat := fnIdx f * 0x1000 + off

/-- A register of a function window; each returns to 0 at FLR. -/
def State.fnReg (s : State) (f : FnId) (off : Nat) : Word :=
  match lookupN s.fnRegs (fnKey f off) with
  | some w => w
  | none => 0

/-- Set a register of a function window. -/
def State.setFnReg (s : State) (f : FnId) (off : Nat) (w : Word) : State :=
  { s with fnRegs := if w = 0 then eraseN s.fnRegs (fnKey f off) else insertN s.fnRegs (fnKey f off) w }

/-- FLR: every register of the function's window returns to 0 (R14, R328). -/
def State.resetFnRegs (s : State) (f : FnId) : State :=
  { s with fnRegs := s.fnRegs.filter (fun r => r.1 / 0x1000 != fnIdx f) }

/-- The kept registers of a function window that hold written or reported values (R560). -/
def fnKept (off : Nat) : Bool :=
  [0x00, 0x04, 0x08, 0x0C, 0x10, 0x14, 0x18, 0x40, 0x44, 0x48, 0x4C, 0x50, 0x60, 0x70, 0x74, 0x78, 0x80].contains off

/-! ### Names of the offsets the meanings use -/

/-- KPR_TIME_CTL (R339). -/
abbrev oTimeCtl : Nat := 0x200
/-- KPR_SYNC_CTL. -/
abbrev oSyncCtl : Nat := 0x220
/-- KPR_SYNC_PERIOD. -/
abbrev oSyncPeriod : Nat := 0x224
/-- KPR_SYNC_PHASE. -/
abbrev oSyncPhase : Nat := 0x228
/-- KPR_SYNC_STATUS. -/
abbrev oSyncStatus : Nat := 0x22C
/-- KPR_PWR_IDLE. -/
abbrev oPwrIdle : Nat := 0x300
/-- KPR_SAFETY. -/
abbrev oSafety : Nat := 0x400
/-- KPR_FRAME. -/
abbrev oFrame : Nat := 0x404
/-- KPR_FRAME_PHASE. -/
abbrev oFramePhase : Nat := 0x408
/-- KPR_PROOF. -/
abbrev oProof : Nat := 0x40C
/-- KPR_STEST. -/
abbrev oStest : Nat := 0x410
/-- KPR_INJECT_STATUS. -/
abbrev oInject : Nat := 0x424
/-- KPR_BOOT: recovery_req and install_result. -/
abbrev oBoot : Nat := 0x500
/-- KPR_DEBUG. -/
abbrev oDebug : Nat := 0x50C
/-- KPR_DBG_ADDR_LO. -/
abbrev oDbgLo : Nat := 0x510
/-- KPR_DBG_ADDR_HI. -/
abbrev oDbgHi : Nat := 0x514
/-- HSP_SRC_CFG_n. -/
abbrev oSrcCfg (n : Nat) : Nat := 0x40000 + 4 * n
/-- HSP_FIRST. -/
abbrev oFirst : Nat := 0x40D00
/-- HSP_PROG_WIN_k. -/
abbrev oProgWin (k : Nat) : Nat := 0x40D10 + 4 * k
/-- HSP_LOG_HEAD. -/
abbrev oLogHead : Nat := 0x40D44
/-- WRD_CTL. -/
abbrev oWrdCtl : Nat := 0x80000
/-- HDL_GATHER_CTL. -/
abbrev oGatherCtl : Nat := 0x100400
/-- HDL_DETERMINISM. -/
abbrev oDeterminism : Nat := 0x100410
/-- HDL_PART_LOOM_p. -/
abbrev oPartLoom (p : Nat) : Nat := 0x100600 + 0x20 * p
/-- HDL_PART_MEM_p. -/
abbrev oPartMem (p : Nat) : Nat := 0x100604 + 0x20 * p
/-- HDL_PART_QUOTA_p. -/
abbrev oPartQuota (p : Nat) : Nat := 0x100608 + 0x20 * p
/-- HDL_PART_LATCH_p. -/
abbrev oPartLatch (p : Nat) : Nat := 0x10060C + 0x20 * p
/-- HDL_SCHED_GAP. -/
abbrev oSchedGap : Nat := 0x100640
/-- HDL_SCHED_SAVE. -/
abbrev oSchedSave : Nat := 0x100644
/-- HDL_MIRROR_i. -/
abbrev oMirror (i : Nat) : Nat := 0x100700 + 4 * i
/-- HDL_GATHER_GRP_g. -/
abbrev oGrp (g : Nat) : Nat := 0x100900 + 0x80 * g
/-- HDL_GATHER_MEM_g_m. -/
abbrev oGrpMem (g m : Nat) : Nat := 0x100910 + 0x80 * g + 4 * m
/-- CRL_PORT_CTL_p. -/
abbrev oPortCtl (p : Nat) : Nat := 0x200000 + 4 * p
/-- CRL_SLOT_BIND_s. -/
abbrev oSlotBind (s : Nat) : Nat := 0x200100 + 0x20 * s
/-- CRL_SLOT_SEL_s. -/
abbrev oSlotSel (s : Nat) : Nat := 0x200104 + 0x20 * s
/-- CRL_BATCH_CTL_b. -/
abbrev oBatchCtl (b : Nat) : Nat := 0x200500 + 0x10 * b
/-- CRL_BATCH_BASE_A_b. -/
abbrev oBatchBaseA (b : Nat) : Nat := 0x200504 + 0x10 * b
/-- CRL_BATCH_BASE_B_b. -/
abbrev oBatchBaseB (b : Nat) : Nat := 0x200508 + 0x10 * b
/-- CTR_SEL_d_i. -/
abbrev oCtrSel (d i : Nat) : Nat := 0x500000 + 0x4000 * d + 0x20 * i
/-- CTR_MASTER_d_i. -/
abbrev oCtrMaster (d i : Nat) : Nat := 0x500004 + 0x4000 * d + 0x20 * i
/-- CTR_BASE_LO_d_i, with BASE_HI, LIMIT_LO and LIMIT_HI after it. -/
abbrev oCtrBase (d i : Nat) : Nat := 0x500008 + 0x4000 * d + 0x20 * i
/-- CTR_OVF_d. -/
abbrev oCtrOvf (d : Nat) : Nat := 0x500A00 + 0x4000 * d
/-- CTR_OVF_AON_d. -/
abbrev oCtrOvfAon (d : Nat) : Nat := 0x500A04 + 0x4000 * d
/-- CTR_WATCH_CFG_w. -/
abbrev oWatchCfg (w : Nat) : Nat := 0x50D000 + 0x10 * w
/-- CTR_WATCH_TENSOR_w. -/
abbrev oWatchTensor (w : Nat) : Nat := 0x50D004 + 0x10 * w
/-- WRP_WHEEL_l_dir_h. -/
abbrev oWheel (l dir h : Nat) : Nat := 0x600400 + 0x10 * l + 8 * dir + 4 * h
/-- WRP_WHEEL_STATUS. -/
abbrev oWheelStatus : Nat := 0x600480

/-! ### Fields read in many places -/

/-- The safety mode (R415): 0 Paired, 1 Whole, 2 Bench. -/
def State.mode (s : State) : Nat := fld (s.reg oSafety) 1 0

/-- R428's single_ok. -/
def State.singleOk (s : State) : Bool := bitW (s.reg oSafety) 2

/-- The determinism bit (R399). -/
def State.det (s : State) : Bool := bitW (s.reg oDeterminism) 0

/-- The debug level (R498): 0 Sealed, 1 Observe, 2 Open. -/
def State.debugLevel (s : State) : Nat := fld (s.reg oDebug) 1 0

/-- The module frame length in µs (R418). -/
def State.frameUs (s : State) : Nat := fld (s.reg oFrame) 16 0

/-- A Weft die. -/
def State.weft (s : State) (d : Weft) : WeftDie := match d with | .a => s.wa | .b => s.wb

/-- Change a Weft die. -/
def State.modWeft (s : State) (d : Weft) (f : WeftDie → WeftDie) : State :=
  match d with
  | .a => { s with wa := f s.wa }
  | .b => { s with wb := f s.wb }

/-- A host port. -/
def State.hport (s : State) (p : HostPort) : PortSt := match p with | .hostA => s.portA | .hostB => s.portB

/-- Change a host port. -/
def State.modHport (s : State) (p : HostPort) (f : PortSt → PortSt) : State :=
  match p with
  | .hostA => { s with portA := f s.portA }
  | .hostB => { s with portB := f s.portB }

/-- The die's number in source and register indices (R456, R561). -/
def dieNo (d : Weft) : Nat := match d with | .a => 1 | .b => 2

/-- The number of a die among the Weft dies: engines 4n to 4n + 3 lie on it. -/
def weftNo (d : Weft) : Nat := match d with | .a => 0 | .b => 1

/-- The other Weft die. -/
def otherDie (d : Weft) : Weft := match d with | .a => .b | .b => .a

/-- The partition of a host port: 0 for Host A, 1 for Host B (R273). -/
def portPart (p : HostPort) : Nat := match p with | .hostA => 0 | .hostB => 1

/-- The host port of a partition. -/
def partPort (p : Nat) : HostPort := if p = 0 then .hostA else .hostB

/-- The life-cycle state (R497): 0 Manufacture, 1 Owned, 2 Field, 3 Returned. -/
def State.lifecycle (s : State) : Nat :=
  if s.sec.returnedFuse then 3 else if !s.sec.ownedFuse then 0 else if s.sec.toggles.toNat % 2 = 1 then 2 else 1

/-! ### Progress counters (R467) -/

/-- The key of a monitored instance's progress counter. -/
def monKey (k : MonKind) (inst ring : Nat) : Nat :=
  match k with
  | .engine => inst
  | .reed => 8 + inst
  | .finish => 10 + inst
  | .link => 16 + inst
  | .slot => 32 + inst
  | .context => 0x1000 + inst
  | .ring => 0x10000 + 256 * inst + ring

/-- The key of the instructions that the programs of a context's step have retired (R467). -/
def instrKey (ctx : Nat) : Nat := 0x2000 + ctx

/-- A progress counter. -/
def State.progressOf (s : State) (k : Nat) : Nat := (lookupN s.mon k).getD 0

/-- A progress counter advances (R467). -/
def State.progress (s : State) (k : Nat) : State := { s with mon := insertN s.mon k (s.progressOf k + 1) }

/-- An instruction of a program of a context's step retires: its progress counter advances at each 65,536 (R467). -/
def State.instrDone (s : State) (ctx : Nat) : State :=
  let u := s.progress (instrKey ctx)
  if u.progressOf (instrKey ctx) % 65536 = 0 then u.progress (monKey .context ctx 0) else u

/-! ### Groups of a Weft die (R381, R383, R386, R389) -/

/-- The state of a group. -/
def WeftDie.grp (w : WeftDie) (g : Grp) : GState :=
  match g with
  | .loom => w.loom
  | .shuttle => w.shuttle
  | .reedFinish => w.reedFinish
  | .beam => w.beamGrp

/-- Set the state of a group. -/
def WeftDie.setGrp (w : WeftDie) (g : Grp) (x : GState) : WeftDie :=
  match g with
  | .loom => { w with loom := x }
  | .shuttle => { w with shuttle := x }
  | .reedFinish => { w with reedFinish := x }
  | .beam => { w with beamGrp := x }

/-- The four groups. -/
def allGrps : List Grp := [.loom, .shuttle, .reedFinish, .beam]

/-- A wake request (R27, R398): absorbed in Run and while waking; an entry stops. -/
def GState.wake (x : GState) : GState :=
  match x with
  | .at .run => .at .run
  | .at p => .waking p
  | .waking p => .waking p
  | .entering _ p => .waking p

/-- Heddle or Keeper requests Run for a group.  The request ends the group's idle period (R389, R398).  In Recovery only the Beam group of
Weft A leaves Rest (R487). -/
def State.wake (s : State) (d : Weft) (g : Grp) : State :=
  if s.pwr.recovery && !(decide (d = .a) && decide (g = .beam)) then s
  else s.modWeft d (fun w => { w.setGrp g (w.grp g).wake with benchIdle := w.benchIdle.filter (fun x => x != g) })

/-- A group in Cool or Rest, or on its way there. -/
def GState.deep (x : GState) : Bool :=
  match x with
  | .at p => decide (p = .cool) || decide (p = .rest)
  | .waking _ => false
  | .entering _ p => decide (p = .cool) || decide (p = .rest)

/-- The Beam group of a die opens its clock for an access (R386): it is in Run or Warm, or on its way between them. -/
def State.beamOpen (s : State) (d : Weft) : Bool :=
  match (s.weft d).beamGrp with
  | .at p => decide (p = .run) || decide (p = .warm)
  | .waking p => decide (p = .run) || decide (p = .warm)
  | .entering _ p => decide (p = .warm)

/-- Both dies' Beam groups open for accesses; a die out of service takes none. -/
def State.beamsOpen (s : State) : Bool := [Weft.a, Weft.b].all (fun d => !(s.weft d).inService || s.beamOpen d)

/-- New work of Heddle's or Creel's on the Beam groups: one in Cool or Rest, or on its way there, is told to wake; one in Warm opens for each
access.  The groups' idle periods end (R26, R386, R389). -/
def State.wakeBeams (s : State) : State :=
  [Weft.a, Weft.b].foldl (fun t d =>
    let u := t.modWeft d (fun w => { w with benchIdle := w.benchIdle.filter (fun x => x != .beam) })
    if (t.weft d).inService && (t.weft d).beamGrp.deep then u.wake d .beam else u) s

end Machine

end Sys2Proof
end

