-- ==== Sys2Proof/Machine/Counters.lean ====
section
/-! DEFINITION. Counters and their filters (R513 to R520). -/

namespace Sys2Proof

namespace Machine

/-- An event with its attributes (R515); an absent attribute is none.  Class: 0 LC, 1 BE, 2 control. -/
structure Ev where
  die : Nat
  code : Nat
  inst : Option Nat
  amount : Nat
  master : Option Nat
  ctx : Option Nat
  cls : Option Nat
  priv : Option Nat
  addr : Option (Nat × Nat)
deriving DecidableEq, Repr

/-- An event without attributes. -/
def Ev.plain (die code : Nat) (inst : Option Nat) (amount : Nat) : Ev :=
  { die := die, code := code, inst := inst, amount := amount, master := none, ctx := none, cls := none, priv := none, addr := none }

/-- The attributes that the event list gives to an event (R518): master, context, class, privilege, address. -/
def evAttrs (code : Nat) : Bool × Bool × Bool × Bool × Bool :=
  if [0x001, 0x007].contains code then (false, true, true, true, false)
  else if (0x002 ≤ code && code ≤ 0x006) || [0x008, 0x020, 0x022, 0x046, 0x082, 0x083, 0x087].contains code then (false, true, true, false, false)
  else if [0x009, 0x00A, 0x00B, 0x021, 0x024, 0x025].contains code then (false, true, false, false, false)
  else if code = 0x023 then (false, true, false, true, false)
  else if [0x040, 0x041, 0x044, 0x045].contains code then (true, true, true, true, true)
  else if [0x042, 0x080, 0x081].contains code then (true, true, false, false, false)
  else if [0x043, 0x047, 0x0A5].contains code then (false, false, false, false, true)
  else if [0x049, 0x060, 0x061].contains code then (true, true, true, false, false)
  else if code = 0x064 then (false, false, true, false, false)
  else if [0x084, 0x085].contains code then (true, true, true, false, true)
  else if code = 0x086 || (0x0A0 ≤ code && code ≤ 0x0A3) then (true, false, false, false, false)
  else if code = 0x0A4 then (true, false, false, false, true)
  else if code = 0x0C2 then (false, false, false, true, false)
  else (false, false, false, false, false)

/-- The event with the attributes that the list gives it; the others are absent (R515, R518). -/
def Ev.listed (e : Ev) : Ev :=
  let a := evAttrs e.code
  { e with
    master := if a.1 then e.master else none
    ctx := if a.2.1 then e.ctx else none
    cls := if a.2.2.1 then e.cls else none
    priv := if a.2.2.2.1 then e.priv else none
    addr := if a.2.2.2.2 then e.addr else none }

/-- A one-bit-per-value mask filter: 0 is off; an absent attribute never matches (R516). -/
def maskOk (mask : Nat) (a : Option Nat) : Bool :=
  mask == 0 || (match a with
    | none => false
    | some v => bitN mask v)

/-- Counter i of die d counts the event (R516). -/
def ctrMatches (s : State) (i : Nat) (e : Ev) : Bool :=
  let sel := s.reg (oCtrSel e.die i)
  let m := s.reg (oCtrMaster e.die i)
  let lo := s.reg (oCtrBase e.die i)
  let base := lo.toNat + 2 ^ 32 * (s.reg (oCtrBase e.die i + 4)).toNat
  let limit := (s.reg (oCtrBase e.die i + 8)).toNat + 2 ^ 32 * (s.reg (oCtrBase e.die i + 12)).toNat
  let inst := fld sel 23 16
  bitW sel 31 && fld sel 9 0 == e.code
    && (inst == 255 || (match e.inst with
      | none => false
      | some n => n == inst))
    && maskOk (fld sel 27 24) e.priv && maskOk (fld sel 30 28) e.cls
    && (fld m 15 8 == 0 || (match e.master with
      | none => false
      | some v => v &&& fld m 15 8 == fld m 7 0 &&& fld m 15 8))
    && (!bitW m 28 || e.ctx == some (fld m 27 16))
    && (!bitW m 31 || (match e.addr with
      | none => false
      | some p => p.1 == fld m 30 29 && decide (base ≤ p.2) && decide (p.2 ≤ limit)))

/-- Counter values. -/
def ctrGet (l : List (Nat × BitVec 48)) (k : Nat) : BitVec 48 := (lookupN l k).getD 0

/-- Set a counter value; a counter at 0 is not listed. -/
def ctrPut (l : List (Nat × BitVec 48)) (k : Nat) (v : BitVec 48) : List (Nat × BitVec 48) :=
  if v = 0 then eraseN l k else insertN l k v

/-- Add to programmable counter i of die d; a wrap sets its sticky bit (R514). -/
def bumpProg (s : State) (d i n : Nat) : State :=
  let v := (ctrGet s.ctr.prog (32 * d + i)).toNat + n
  let s1 := { s with ctr := { s.ctr with prog := ctrPut s.ctr.prog (32 * d + i) (BitVec.ofNat 48 v) } }
  if v < 2 ^ 48 then s1 else s1.setReg (oCtrOvf d) (s1.reg (oCtrOvf d) ||| BitVec.ofNat 32 (2 ^ i))

/-- Add to always-on counter j of die d (R514, R519). -/
def bumpAon (s : State) (d j n : Nat) : State :=
  let v := (ctrGet s.ctr.aon (16 * d + j)).toNat + n
  let s1 := { s with ctr := { s.ctr with aon := ctrPut s.ctr.aon (16 * d + j) (BitVec.ofNat 48 v) } }
  if v < 2 ^ 48 then s1 else s1.setReg (oCtrOvfAon d) (s1.reg (oCtrOvfAon d) ||| BitVec.ofNat 32 (2 ^ j))

/-- Add 1 to counter k of a partition (R520). -/
def bumpPart (s : State) (p k : Nat) : State :=
  { s with ctr := { s.ctr with part := ctrPut s.ctr.part (8 * p + k) (ctrGet s.ctr.part (8 * p + k) + 1) } }

/-- Count an event on every matching programmable counter of its die (R516). -/
def countEv (s : State) (e : Ev) : State :=
  (List.range 32).foldl (fun t i => if ctrMatches s i e.listed then bumpProg t e.die i e.amount else t) s

/-- A programmable counter of a die is enabled for an event. -/
def State.countsCode (s : State) (die code : Nat) : Bool :=
  (List.range 32).any (fun i => bitW (s.reg (oCtrSel die i)) 31 && fld (s.reg (oCtrSel die i)) 9 0 == code)

/-- One more command that Tumbler carries out: event 0x0C2, with the privilege of who sent it (R515, R518; log entry 143). -/
def State.tmbCount (s : State) (priv : Nat) : State := countEv s { Ev.plain 0 0x0C2 none 1 with priv := some priv }

/-- The instances of an event on a die (R518): none where the die does not list the event, else how the instance field may
be set besides 0xFF. -/
def evInstances (die code : Nat) : Option (List Nat) :=
  let link := if die = 0 then [0, 1, 2, 3] else if die = 1 then [0, 1, 4, 5, 6, 7] else [2, 3, 4, 5, 6, 7]
  if [0x060, 0x061, 0x062, 0x063, 0x064].contains code then some link
  else if die = 0 then
    (if [0x080, 0x081, 0x082, 0x083, 0x087, 0x0A5, 0x0C0, 0x0C2].contains code then some []
     else if code = 0x084 || code = 0x085 then some [0, 1]
     else if code = 0x086 || code = 0x0C1 then some [0, 1, 2]
     else if 0x0A0 ≤ code && code ≤ 0x0A4 then some (List.range 32)
     else none)
  else
    (if code ≤ 0x006 then some []
     else if code ≤ 0x00A then some [0, 1, 2, 3]
     else if code = 0x00B then some [0, 1, 2, 3, 8]
     else if 0x020 ≤ code && code ≤ 0x022 then some []
     else if 0x023 ≤ code && code ≤ 0x025 then some [0, 1, 2, 3]
     else if 0x040 ≤ code && code ≤ 0x042 then some []
     else if code = 0x043 then some (List.range 8)
     else if 0x044 ≤ code && code ≤ 0x048 then some (List.range 12)
     else if code = 0x049 then some []
     else if code = 0x04A then some [0, 1, 2]
     else none)

/-- A write that sets enable is refused (R517). -/
def ctrSelRefused (die : Nat) (w : Word) : Bool :=
  match evInstances die (fld w 9 0) with
  | none => true
  | some l => !(fld w 23 16 == 255 || l.contains (fld w 23 16))

/-! ### Writes to the counters of a die (R514, R517) -/

/-- Programmable counter i of die d is enabled. -/
def State.ctrOn (s : State) (d i : Nat) : Bool := bitW (s.reg (oCtrSel d i)) 31

/-- A write to CTR_SEL_d_i (R517): on an enabled counter only a clear of enable acts; a refused enable sets the refused bit alone (R556). -/
def State.ctrSelTo (s : State) (d i : Nat) (v : Word) : State :=
  let old := s.reg (oCtrSel d i)
  if bitW old 31 then (if bitW v 31 then s else s.setReg (oCtrSel d i) (setFld old 31 31 0))
  else if !bitW v 31 then s.setReg (oCtrSel d i) ((v &&& 0x7FFF03FF#32) ||| (old &&& 0x8000#32))
  else if ctrSelRefused d v then s.setReg (oCtrSel d i) (setFld old 15 15 1)
  else s.setReg (oCtrSel d i) (v &&& 0xFFFF03FF#32)

/-- The value of programmable counter i of die d. -/
def State.ctrVal (s : State) (d i : Nat) : Nat := (ctrGet s.ctr.prog (32 * d + i)).toNat

/-- Set the value of programmable counter i of die d. -/
def State.setCtrVal (s : State) (d i v : Nat) : State :=
  { s with ctr := { s.ctr with prog := ctrPut s.ctr.prog (32 * d + i) (BitVec.ofNat 48 v) } }

/-- A write to offset o of the counter block of die d (CTR registers): ignored for filters and values while the counter is enabled, and
for registers that only read. -/
def State.ctrWrite (s : State) (d o : Nat) (v : Word) : State :=
  if o < 0x400 then
    let i := o / 0x20
    let r := o % 0x20
    if r = 0 then s.ctrSelTo d i v
    else if s.ctrOn d i then s
    else if r = 0x18 then s.setCtrVal d i (s.ctrVal d i / 2 ^ 32 * 2 ^ 32 + v.toNat)
    else if r = 0x1C then s.setCtrVal d i (fld v 15 0 * 2 ^ 32 + s.ctrVal d i % 2 ^ 32)
    else s.setReg (0x500000 + 0x4000 * d + o) v
  else if o = 0xA00 then s.setReg (oCtrOvf d) (s.reg (oCtrOvf d) &&& ~~~v)
  else if o = 0xA04 then s.setReg (oCtrOvfAon d) (s.reg (oCtrOvfAon d) &&& ~~~v)
  else s

end Machine

end Sys2Proof
end

