-- ==== Sys2Proof/Machine/Warp.lean ====
section
/-! DEFINITION. Warp links and the traffic on them (R262, R263, R266, R269, R270, R518), and bytes of GDDR6 and Beam SRAM that are moved (R250, R518). -/

namespace Sys2Proof

namespace Machine

/-- Count an event whose amount the manual does not fix by arithmetic: a free amount (log entry 9). -/
def State.countFree (s : State) (e : Ev) : State :=
  countEv { s with freshCtr := s.freshCtr + 1 } { e with amount := (Config.freeDword s.freshCtr).toNat }

/-- A link. -/
def State.link? (s : State) (l : Nat) : Option Link := s.links[l]?

/-- A link is up. -/
def State.linkUp (s : State) (l : Nat) : Bool := ((s.link? l).map (fun x => decide (x.state = 2))).getD false

/-- The dies on which a link has an endpoint, by number (R263, R518). -/
def linkEnds (l : Nat) : List Nat := if l < 2 then [0, 1] else if l < 4 then [0, 2] else [1, 2]

/-- The links between two dies, by number (R263): the group that carries what these dies send each other (R270). -/
def linksOf (a b : Nat) : List Nat := (List.range 8).filter (fun l => linkEnds l == [min a b, max a b])

/-- One transfer of n bytes between two dies, over any link of the group that is up (R270; log entry 130): its payload bytes on both dies,
and its flits, a free amount for the empty wheel slots among them, and the clocks it waited for a credit, another (R269, R518). -/
def State.transfer (src dst : Nat) (e : Ev) (s : State) (n : Nat) : State :=
  let up := (linksOf src dst).filter s.linkUp
  match up[(Config.freeDword s.freshCtr).toNat % max 1 up.length]? with
  | none => s
  | some l =>
    let s1 := countEv { s with freshCtr := s.freshCtr + 1 } { e with die := src, code := 0x060, inst := some l, amount := n }
    let s2 := countEv s1 { e with die := dst, code := 0x061, inst := some l, amount := n }
    (s2.countFree (Ev.plain src 0x062 (some l) 0)).countFree { Ev.plain src 0x064 (some l) 0 with cls := e.cls }

/-- The sizes of the transfers that carry n bytes: up to 4 KiB each (R266). -/
def xferSizes (n : Nat) : List Nat := (List.range (ceilDiv n 4096)).map (fun i => min 4096 (n - 4096 * i))

/-- n bytes go from one die to another, transfer by transfer (R266, R270). -/
def State.linkBytes (s : State) (src dst : Nat) (e : Ev) (n : Nat) : State := (xferSizes n).foldl (State.transfer src dst e) s

/-- Four bytes to or from a Weft die over its links to Selvedge (R270). -/
def State.wordTo (s : State) (d : Weft) (write : Bool) (e : Ev) : State :=
  if write then s.linkBytes 0 (dieNo d) e 4 else s.linkBytes (dieNo d) 0 e 4

/-- Four bytes of register traffic of a master to or from a Weft die: control class (R262, R270). -/
def State.controlWord (s : State) (d : Weft) (write : Bool) (master : Nat) : State :=
  s.wordTo d write { Ev.plain 0 0 none 4 with master := some master, cls := some 2 }

/-- The pool of an event's class (R262). -/
def Ev.pool (e : Ev) : Nat := e.cls.getD 2

/-- Accesses of a die to GDDR6 or to host memory hold tracker entries: how many at each clock is timing, a free amount (R262, R518). -/
def State.tracked (s : State) (die : Nat) (e : Ev) : State := s.countFree (Ev.plain die 0x04A (some e.pool) 0)

/-- The GDDR6 channel of a byte offset of a die (R250). -/
def gddrChan (off : Nat) : Nat := off / 256 % 12

/-- GDDR6 bytes moved at an offset, counted in the pieces that each lie in one channel: events 0x044 (read) and 0x045 (written) by
channel, always-on counter 14, and the tracker entries that the accesses hold (R250, R262, R518, R519). -/
def State.gddrBytes (s : State) (d : Weft) (write : Bool) (off n : Nat) (e : Ev) : State :=
  let first := off / 256
  let pieces := (List.range ((off + n + 255) / 256 - first)).map (fun i =>
    let lo := max off (256 * (first + i))
    (lo, min (off + n) (256 * (first + i + 1)) - lo))
  bumpAon ((pieces.foldl (fun u x => countEv u { e with
    die := dieNo d, code := if write then 0x045 else 0x044, inst := some (gddrChan x.1), amount := x.2, addr := some (1, x.1) }) s).tracked (dieNo d) e) (dieNo d) 14 n

/-- Beam SRAM bytes moved at an offset: events 0x040 (read) and 0x041 (written) (R518). -/
def State.beamBytes (s : State) (d : Weft) (write : Bool) (off n : Nat) (e : Ev) : State :=
  countEv s { e with die := dieNo d, code := if write then 0x041 else 0x040, inst := none, amount := n, addr := some (0, off) }

end Machine

end Sys2Proof
end

