-- ==== Sys2Proof/Machine/Delivery.lean ====
section
/-! DEFINITION. What leaves for the hosts: MSI-X, writes to host memory, completion and event records (R304 to R307, R317 to
R323, R334, R336). -/

namespace Sys2Proof

namespace Machine

/-- A message on the wire (R336), counted as event 0x086. -/
def emitMsix (s : State) (m : Msix) : State :=
  let port := match m.fn with
    | .sup => 2
    | .fn f => portPart f.port
  let master := match m.fn with
    | .sup => 1
    | .fn f => (fnMaster f).toNat
  countEv { s with msix := { s.msix with sent := s.msix.sent ++ [m] } }
    { Ev.plain 0 0x086 (some port) 1 with master := some master }

/-- Raise a vector (R336): sent when MSI-X is enabled and the vector unmasked, else pending when masked. -/
def sendMsix (s : State) (fn : IrqFn) (vector : Nat) : State :=
  let m : Msix := { fn := fn, vector := vector }
  if !(s.msix.enabled.contains fn) then s
  else if s.msix.unmasked.contains m then emitMsix s m
  else { s with msix := { s.msix with pending := addSet s.msix.pending m } }

/-- A supervisor vector: held pending while the supervisor link is down (R338, R348; for vectors 1 and 2 log entry 22). -/
def supVector (s : State) (v : Nat) : State :=
  if s.portS.up then sendMsix s .sup v
  else { s with hasp := { s.hasp with supPending := addSet s.hasp.supPending v } }

/-- A host port carries what Heddle writes: its link is up, and no closing after a loss goes on (R344, R346). -/
def PortSt.carries (p : PortSt) : Bool := p.up && !p.closing

/-- Heddle writes bytes to host memory on a port; a port that is down takes none (R344).  Counts 0x084 and the always-on bytes
(R518, R519). -/
def hostWrite (s : State) (p : HostPort) (master : Byte) (ctx : Nat) (lc : Bool) (addr : Nat) (bs : List Byte) : State :=
  if !(s.hport p).carries || bs.isEmpty then s
  else
    let s1 := match p with
      | .hostA => { s with hostMemA := s.hostMemA.writeBytes addr bs }
      | .hostB => { s with hostMemB := s.hostMemB.writeBytes addr bs }
    let s2 := bumpAon s1 0 (6 + portPart p) bs.length
    countEv s2 { Ev.plain 0 0x084 (some (portPart p)) bs.length with
      master := some master.toNat, ctx := some ctx, cls := some (b2n (!lc)), addr := some (2, addr) }

/-- Heddle reads bytes of host memory: only the count of event 0x085 stays (R518). -/
def hostRead (s : State) (p : HostPort) (master : Byte) (ctx : Nat) (lc : Bool) (addr n : Nat) : State :=
  if n = 0 then s
  else countEv s { Ev.plain 0 0x085 (some (portPart p)) n with
      master := some master.toNat, ctx := some ctx, cls := some (b2n (!lc)), addr := some (2, addr) }

/-- An open context by its ID (R298). -/
def State.ctx? (s : State) (id : Nat) : Option Ctx := s.ctxs.find? (fun c => c.id == id)

/-- Change the context with an ID. -/
def State.modCtx (s : State) (id : Nat) (f : Ctx → Ctx) : State :=
  { s with ctxs := s.ctxs.map (fun c => if c.id = id then f c else c) }

/-- A context is open, and no close of it goes on: Heddle works on what it submitted (R302). -/
def State.ctxOpen (s : State) (id : Nat) : Bool := ((s.ctx? id).map (fun c => !c.closing)).getD false

/-- The partition a context belongs to (R273). -/
def Ctx.part (c : Ctx) : Nat := portPart c.fn.port

/-- A ring of a context by its index (R303). -/
def State.ring? (s : State) (ctx idx : Nat) : Option Ring := s.rings.find? (fun r => r.ctx == ctx && r.index == idx)

/-- Change one ring. -/
def State.modRing (s : State) (ctx idx : Nat) (f : Ring → Ring) : State :=
  { s with rings := s.rings.map (fun r => if r.ctx = ctx ∧ r.index = idx then f r else r) }

/-- Entries of a ring (R303). -/
def Ring.size (r : Ring) : Nat := 2 ^ r.log2

/-- Entries in use between head and tail (R304). -/
def Ring.used (r : Ring) : Nat := (r.tail + r.size - r.head) % r.size

/-- A ring holds at most size − 1 entries (R304). -/
def Ring.full (r : Ring) : Bool := r.used + 1 == r.size

/-- Pass the head over completed slots, at most `fuel` of them (R304). -/
def passHead (size : Nat) : Nat → Nat → List Nat → Nat × List Nat
  | 0, h, d => (h, d)
  | f + 1, h, d => if d.contains h then passHead size f ((h + 1) % size) (d.filter (fun x => x != h)) else (h, d)

/-- A submission ring after the record of one of its slots is written (R304). -/
def Ring.complete (r : Ring) (slot : Nat) : Ring :=
  let d := addSet r.done slot
  let p := passHead r.size d.length r.head d
  { r with head := p.1, done := p.2 }

/-- The 32 bytes of a completion record (R317). -/
def recordBytes (c : Completion) (phase : Bool) (sqHead : Nat) : List Byte :=
  let flags := b2n c.substituted + 2 * b2n c.unqualified + 4 * b2n c.singleChannel + 8 * b2n c.mirrorCopy
    + 16 * b2n c.mirrorShort + 32 * b2n c.ageFault + 64 * b2n c.event + 128 * b2n phase
  leBytes 1 c.status ++ leBytes 1 flags ++ leBytes 2 c.detail ++ leBytes 4 c.tag ++ leBytes 1 c.ring ++ leBytes 1 c.entry
    ++ leBytes 2 sqHead ++ leBytes 4 (min c.measured 0xFFFFFFFF) ++ leBytes 8 c.step.toNat ++ leBytes 2 c.slowDown ++ leBytes 2 0
    ++ leBytes 4 (min c.ageUs 0xFFFFFFFF)

/-- A record with every field 0. -/
def Completion.zero : Completion :=
  { status := 0, substituted := false, unqualified := false, singleChannel := false, mirrorCopy := false, mirrorShort := false,
    ageFault := false, event := false, detail := 0, tag := 0, ring := 0, slot := 0, entry := 0, measured := 0, step := 0,
    slowDown := 0, ageUs := 0, irq := false }

/-- Write one record to a completion ring that has room: head of the submission ring, record, vector (R304, R306, R336). -/
def writeRecord (s : State) (cx : Ctx) (cr : Ring) (c : Completion) : State :=
  let s1 := if c.event then s else s.modRing cx.id c.ring (fun r => r.complete c.slot)
  let sqHead := if c.event then 0 else match s1.ring? cx.id c.ring with
    | some r => r.head
    | none => 0
  let s2 := hostWrite s1 cx.fn.port (fnMaster cx.fn) cx.id cx.lc (cr.base + 32 * cr.tail) (recordBytes c cr.phase sqHead)
  let s3 := s2.modRing cx.id cr.index (fun r =>
    { r with tail := (r.tail + 1) % r.size, phase := if r.tail + 1 = r.size then !r.phase else r.phase })
  if c.irq then sendMsix s3 (.fn cx.fn) cr.vector else s3

/-- A record falls due on a completion ring: written, or held while the ring is full (R307). -/
def dueRecord (s : State) (cx : Ctx) (cr : Ring) (c : Completion) : State :=
  if cr.full || !cr.held.isEmpty then s.modRing cx.id cr.index (fun r => { r with held := r.held ++ [c] })
  else writeRecord s cx cr c

/-- Complete a descriptor of a context: its record goes to the completion ring its submission ring names (R303).  A host whose
link is down gets none (R344); an INVALID record counts in the partition (R520). -/
def completeDesc (s : State) (ctx : Nat) (c : Completion) : State :=
  match s.ctx? ctx with
  | none => s
  | some cx =>
    let s0 := if c.status = 0x13 then bumpPart s cx.part 7 else s
    if !(s0.hport cx.fn.port).carries then s0
    else
      match s0.ring? ctx c.ring with
      | none => s0
      | some r =>
        match s0.ring? ctx r.cq with
        | none => s0
        | some cr => dueRecord s0 cx cr c

/-- An event record for a function (R323): dropped when its event ring is full, and the next one then carries bit 15. -/
def eventRecord (s : State) (f : FnId) (status detail : Nat) : State :=
  let w := s.fnReg f 0x60
  if !bitW w 31 then s
  else
    match s.ctx? (fld w 11 0), s.ring? (fld w 11 0) (fld w 19 12) with
    | some cx, some cr =>
      if decide (cx.fn ≠ f) || !cr.completion || !(s.hport f.port).carries
          || s.rings.any (fun r => !r.completion && r.ctx == cr.ctx && r.cq == cr.index) then s
      else if cr.full then { s with eventLost := addSet s.eventLost f }
      else
        let d := if s.eventLost.contains f then detail + 0x8000 else detail
        writeRecord { s with eventLost := delSet s.eventLost f } cx cr
          { Completion.zero with status := status, event := true, detail := d, step := s.time.now, irq := true }
    | _, _ => s

/-- Every host function (R326, R327). -/
def allFns : List FnId :=
  (List.range 32).map (fun n => { port := .hostA, num := n }) ++ (List.range 32).map (fun n => { port := .hostB, num := n })

/-- An event record for every function with an event ring (R323). -/
def eventAll (s : State) (status detail : Nat) : State := allFns.foldl (fun t f => eventRecord t f status detail) s

/-- A descriptor's own fields in its completion record: the entry that a STEP, DRAFT_UNLOAD or TRANSFER names, and a STEP's irq flag (R312,
R317). -/
def ReadDesc.completion (d : ReadDesc) (status detail : Nat) : Completion :=
  let t := leAt d.bytes 0 1
  { Completion.zero with
    status := status, detail := detail, tag := leAt d.bytes 4 4, ring := d.ring, slot := d.slot
    entry := if t = 1 ∨ t = 3 ∨ t = 7 then leAt d.bytes 2 1 else 0
    irq := t == 1 && bitN (leAt d.bytes 1 1) 4 }

/-- Complete a descriptor; `entry`: the one a DRAFT_LOAD took.  A record on a mirror target has entry 0 (R317). -/
def completeRead (s : State) (d : ReadDesc) (status detail entry : Nat) : State :=
  let c := d.completion status detail
  let target := ((s.ctx? d.ctx).map (fun x => decide (x.role = .mirrorTarget))).getD false
  completeDesc s d.ctx { c with entry := if target then 0 else if leAt d.bytes 0 1 = 2 then entry else c.entry }

end Machine

end Sys2Proof
end

