-- ==== Sys2Proof/Machine/Num.lean ====
section
/-! DEFINITION. Exact numbers, and the formats the units round to: S8 (R51), B16 (R53), binary32 and binary16. -/

namespace Sys2Proof

namespace Machine

/-- 2^e. -/
def pow2 (e : Int) : Rat := if 0 ≤ e then mkRat (2 ^ e.toNat : Nat) 1 else mkRat 1 (2 ^ (-e).toNat)

/-- |q|. -/
def ratAbs (q : Rat) : Rat := if q < 0 then -q else q

/-- The larger of two. -/
def ratMax (a b : Rat) : Rat := if a < b then b else a

/-- The smaller of two. -/
def ratMin (a b : Rat) : Rat := if b < a then b else a

/-- A whole number as a rational. -/
def ratN (n : Nat) : Rat := mkRat n 1

/-- An integer as a rational. -/
def ratZ (n : Int) : Rat := mkRat n 1

/-- The sum of a list, exact. -/
def ratSum (l : List Rat) : Rat := l.foldl (fun a b => a + b) 0

/-- floor(q). -/
def ratFloor (q : Rat) : Int := q.num / (q.den : Int)

/-- floor(log2 q) of a positive q. -/
def floorLog2 (q : Rat) : Int :=
  let e : Int := (Nat.log2 q.num.natAbs : Int) - (Nat.log2 q.den : Int)
  if pow2 e ≤ q then e else e - 1

/-- A non-negative q to the nearest whole number, a tie to the even one. -/
def rneNat (q : Rat) : Nat :=
  let n := (ratFloor q).toNat
  let r := (q - ratN n) * 2
  if r < 1 then n else if 1 < r then n + 1 else if n % 2 = 0 then n else n + 1

/-- q to the nearest whole number, a tie to the even one. -/
def rneInt (q : Rat) : Int := if q < 0 then -(rneNat (-q) : Int) else rneNat q

/-! ### S8 (R51, R52) -/

/-- The value of an S8 encoding; 0x00, the zero row, has the value 0 here (R51, R58). -/
def s8Val (s : Nat) : Rat := if s = 0 then 0 else ratN (8 + s % 8) * pow2 ((s / 8 : Nat) - 18)

/-- Round a positive target up to S8 by counting encodings below it; none where it exceeds 122,880 (R52). -/
def s8Search (x : Rat) : Nat → Nat → Option Nat
  | 0, _ => none
  | n + 1, s => if x ≤ s8Val s then some s else s8Search x n (s + 1)

/-- The encoding of a positive target rounded up, and whether that is a scale saturation (R52). -/
def s8Up (x : Rat) : Nat × Bool :=
  match s8Search x 255 1 with
  | some s => (s, false)
  | none => (255, true)

/-! ### B16 (R53, R54) -/

/-- The largest B16 magnitude, the value of 0x7F7F. -/
def b16Max : Rat := ratN 255 * pow2 120

/-- The value of a B16 word (R53). -/
def b16Val (w : Nat) : Rat :=
  let x := bitsN w 14 7
  let f := bitsN w 6 0
  let m : Rat := if x = 0 then 0 else if x = 255 then b16Max else ratN (128 + f) * pow2 ((x : Int) - 134)
  if bitN w 15 then -m else m

/-- Reading a B16 word counts one saturation when its exponent is 255 (R53). -/
def b16ReadSat (w : Nat) : Bool := bitsN w 14 7 == 255

/-- The B16 word of a value, and whether it saturates (R54): nearest, a tie to the smaller magnitude. -/
def b16Round (q : Rat) : Nat × Bool :=
  let a := ratAbs q
  let s := if q < 0 then 32768 else 0
  if a = 0 then (0, false)
  else if b16Max < a then (s + 32639, true)
  else if a < pow2 (-126) then (if a ≤ pow2 (-127) then (0, false) else (s + 128, false))
  else
    let e := floorLog2 a
    let t := a * pow2 (7 - e)
    let n := (ratFloor t).toNat
    let r := (t - ratN n) * 2
    let k := if 1 < r then n + 1 else n
    if k = 256 then (s + (e + 128).toNat * 128, false) else (s + (e + 127).toNat * 128 + (k - 128), false)

/-! ### binary32 results (R126, R570) -/

/-- The largest finite binary32 magnitude, (2 − 2^−23) × 2^127. -/
def f32Max : Rat := ratN 16777215 * pow2 104

/-- A binary32 result with the mark of R570: whether some result on the way was clamped. -/
abbrev F32 := Rat × Bool

/-- Round to binary32, nearest even, clamping an infinite result (R570). -/
def rne32 (q : Rat) : F32 :=
  let a := ratAbs q
  if a = 0 then (0, false)
  else
    let e := max (floorLog2 a) (-126)
    let v := ratN (rneNat (a * pow2 (23 - e))) * pow2 (e - 23)
    let c := decide (f32Max < v)
    let m := if c then f32Max else v
    (if q < 0 then -m else m, c)

/-- Round, keeping earlier marks. -/
def f32Of (q : Rat) (c : Bool) : F32 :=
  let r := rne32 q
  (r.1, r.2 || c)

/-- Sum rounded once. -/
def f32Add (a b : F32) : F32 := f32Of (a.1 + b.1) (a.2 || b.2)

/-- Difference rounded once. -/
def f32Sub (a b : F32) : F32 := f32Of (a.1 - b.1) (a.2 || b.2)

/-- Product rounded once. -/
def f32Mul (a b : F32) : F32 := f32Of (a.1 * b.1) (a.2 || b.2)

/-- Quotient rounded once. -/
def f32Div (a b : F32) : F32 := f32Of (a.1 / b.1) (a.2 || b.2)

/-- a × b + c with one rounding. -/
def f32Fma (a b c : F32) : F32 := f32Of (a.1 * b.1 + c.1) (a.2 || b.2 || c.2)

/-- Sum in ascending order with one rounding for each addition. -/
def f32Sum (l : List F32) : F32 :=
  match l with
  | [] => (0, false)
  | a :: t => t.foldl f32Add a

/-- The correctly rounded binary32 value of 1 ÷ √q for a positive q: the integer root of 2^(2k) ÷ q, with sticky rounding. -/
def f32RecipSqrt (a : F32) : F32 :=
  let q := a.1
  if q ≤ 0 then (f32Max, true)
  else
    let e := floorLog2 q
    let k : Int := 40 + e / 2 + 1
    let sq := pow2 (2 * k) / q
    let n := (ratFloor sq).toNat
    let r := Nat.sqrt n
    let exact := decide (ratN (r * r) = sq)
    let m := if exact then ratN r else ratN r + mkRat 1 2
    f32Of (m * pow2 (-k)) a.2

/-- The bits of a binary32 value that binary32 holds exactly. -/
def f32Bits (q : Rat) : Nat :=
  let a := ratAbs q
  let s := if q < 0 then 2147483648 else 0
  if a = 0 then 0
  else if a < pow2 (-126) then s + (ratFloor (a * pow2 149)).toNat
  else
    let e := floorLog2 a
    s + (e + 127).toNat * 8388608 + ((ratFloor (a * pow2 (23 - e))).toNat - 8388608)

/-! ### Bit patterns at the shuttle windows (R112, R570) -/

/-- The magnitude of a finite binary32 pattern, with its sign. -/
def f32Val (w : Nat) : Rat :=
  let x := bitsN w 30 23
  let f := bitsN w 22 0
  let m : Rat := if x = 0 then ratN f * pow2 (-149) else ratN (8388608 + f) * pow2 ((x : Int) - 150)
  if bitN w 31 then -m else m

/-- A binary32 pattern is a NaN. -/
def f32IsNan (w : Nat) : Bool := bitsN w 30 23 == 255 && bitsN w 22 0 != 0

/-- A binary32 pattern is an infinity. -/
def f32IsInf (w : Nat) : Bool := bitsN w 30 23 == 255 && bitsN w 22 0 == 0

/-- A binary32 pattern taken as R570 takes it: an infinity is the largest finite magnitude and counts one saturation. -/
def f32Taken (w : Nat) : Rat × Bool :=
  if f32IsInf w then (if bitN w 31 then -f32Max else f32Max, true) else (f32Val w, false)

/-- Widen a binary16 pattern to binary32, exactly (R112). -/
def f16ToF32 (h : Nat) : Nat :=
  let s := if bitN h 15 then 2147483648 else 0
  let x := bitsN h 14 10
  let f := bitsN h 9 0
  if x = 31 then s + 2139095040 + f * 8192
  else if x = 0 then (if f = 0 then s else s + f32Bits (ratN f * pow2 (-24)))
  else s + (x + 112) * 8388608 + f * 8192

/-- Narrow a binary32 pattern to binary16, nearest even (R112).  A NaN becomes the canonical NaN (R113; log entry 13). -/
def f32ToF16 (w : Nat) : Nat :=
  let s := if bitN w 31 then 32768 else 0
  if f32IsNan w then 32256
  else if f32IsInf w then s + 31744
  else
    let a := ratAbs (f32Val w)
    if a = 0 then s
    else
      let e := max (floorLog2 a) (-14)
      let n := rneNat (a * pow2 (10 - e))
      if n < 1024 then s + n
      else
        let r := s + (e + 14).toNat * 1024 + n
        if s + 31744 ≤ r then s + 31744 else r

/-- Widen a B16 word to binary32, exactly, after R53 (a zero keeps its sign: DEDUCED, log entry 13). -/
def b16ToF32 (w : Nat) : Nat :=
  if bitsN w 14 7 = 0 then bitsN w 15 15 * 2147483648
  else if bitsN w 14 7 = 255 then bitsN w 15 15 * 2147483648 + 32639 * 65536
  else w * 65536

end Machine

end Sys2Proof
end

