-- ==== Sys2Proof/Machine/Code.lean ====
section
/-! DEFINITION. Level words, codebooks, rows of codes and scales, requantisation and digests (02_codes_and_scales.md). -/

namespace Sys2Proof

namespace Machine

/-- The value of a level word in level units (R37). -/
def levelVal (w : Nat) : Int :=
  let e := bitsN w 8 6
  let d := bitsN w 3 1
  let mode := bitsN w 5 4
  let mag : Int :=
    if mode = 0 then 2 ^ e else if mode = 1 then 2 ^ e + 2 ^ (e - d) else if mode = 2 then 2 ^ e - 2 ^ (e - d) else 0
  if bitN w 9 then -mag else mag

/-- A valid level word (R38). -/
def levelValid (w : Nat) : Bool :=
  let e := bitsN w 8 6
  let d := bitsN w 3 1
  let mode := bitsN w 5 4
  w % 2 == 0 && (if mode = 0 then d == 0 else if mode = 3 then w == 48 else decide (1 ≤ d) && decide (d ≤ e))

/-- The product of two levels in units of 2^−14 (R39). -/
def levelProduct (a b : Nat) : Int := levelVal a * levelVal b

/-- The width of a code in bits, by the format number of R40. -/
def codeWidth (format : Nat) : Nat := format + 1

/-- Strictly ascending. -/
def ascending : List Int → Bool
  | [] => true
  | [_] => true
  | a :: b :: t => decide (a < b) && ascending (b :: t)

/-- The checks of R40 and R41 on a codebook record. -/
def codebookValid (c : Codebook) : Bool :=
  let n := 2 ^ codeWidth c.format
  decide (c.format ≤ 3) && decide (2 ≤ c.used) && decide (c.used ≤ n)
    && (c.levels.take c.used).all levelValid
    && ascending ((c.levels.take c.used).map levelVal)
    && ((c.levels.take n).drop c.used).all (fun w => w == 48)
    && (c.levels.drop n).all (fun w => w == 0)

/-- A codebook from its 36-byte record (R40); reserved bits are ignored (R41). -/
def parseCodebook (bs : List Byte) : Codebook :=
  { format := leAt bs 0 1, used := leAt bs 1 1, levels := (List.range 16).map (fun c => leAt bs (4 + 2 * c) 2 % 1024) }

/-- bell-16, bell-8, ternary and sign (R44). -/
def builtinCodebook (slot : Nat) : Codebook :=
  if slot = 0 then
    { format := 3, used := 16, levels := [0x3D2, 0x3E6, 0x394, 0x3A8, 0x354, 0x312, 0x2D2, 0x030, 0x0D2, 0x112, 0x154, 0x1A8,
        0x194, 0x1E6, 0x1D6, 0x1D2] }
  else if slot = 1 then
    { format := 2, used := 8, levels := [0x3D2, 0x392, 0x340, 0x030, 0x112, 0x180, 0x1E6, 0x1D2] ++ List.replicate 8 0 }
  else if slot = 2 then { format := 1, used := 3, levels := [0x3C0, 0x030, 0x1C0, 0x030] ++ List.replicate 12 0 }
  else { format := 0, used := 2, levels := [0x3C0, 0x1C0] ++ List.replicate 14 0 }

/-- The codebook a slot holds: built in for 0 to 3, else as loaded (R43, R46). -/
def codebookAt (loaded : List (Nat × Codebook)) (slot : Nat) : Option Codebook :=
  if slot < 4 then some (builtinCodebook slot) else lookupN loaded slot

/-- The level of a code in level units; an unused code reads as the zero level (R42). -/
def cbLevel (c : Codebook) (code : Nat) : Int := if code < c.used then levelVal (c.levels.getD code 48) else 0

/-- The levels of the used codes. -/
def cbLevels (c : Codebook) : List Int := (List.range c.used).map (cbLevel c)

/-- The residue of a slot's code, mod 7 (R104). -/
def cbResidue (c : Codebook) (code : Nat) : Nat := (cbLevel c code % 7).toNat

/-- The largest level magnitude, in level units (R43). -/
def cbLmax (c : Codebook) : Nat := (cbLevels c).foldl (fun m l => max m l.natAbs) 0

/-- The zero code: the used code whose level is zero, else code 0 (R45). -/
def cbZero (c : Codebook) : Nat :=
  match (List.range c.used).find? (fun i => cbLevel c i == 0) with
  | some i => i
  | none => 0

/-- Level a is a better code for target t than level b: nearer, else smaller, else non-negative (R63). -/
def nearer (t : Rat) (a b : Int) : Bool :=
  let da := ratAbs (t - ratZ a)
  let db := ratAbs (t - ratZ b)
  decide (da < db) || (da == db && (decide (a.natAbs < b.natAbs) || (a.natAbs == b.natAbs && decide (b < a))))

/-- Nearest rounding (R63): the best code among those given, starting from one. -/
def nearestFrom (c : Codebook) (t : Rat) (best : Nat) (l : List Nat) : Nat :=
  l.foldl (fun m i => if nearer t (cbLevel c i) (cbLevel c m) then i else m) best

/-- Nearest rounding over the used codes (R63). -/
def nearestCode (c : Codebook) (t : Rat) : Nat := nearestFrom c t 0 (List.range c.used)

/-- One round of the dither generator (R65). -/
def ditherMix (z : Dword) : Dword :=
  let a := (z ^^^ (z >>> 30)) * 0xBF58476D1CE4E5B9#64
  let b := (a ^^^ (a >>> 27)) * 0x94D049BB133111EB#64
  b ^^^ (b >>> 31)

/-- The dither value of an element, 0 to 65,535 (R65). -/
def ditherU (seed step : Dword) (layer elem row : Nat) : Nat :=
  let key : Dword := BitVec.ofNat 64 (layer * 2 ^ 48) ||| BitVec.ofNat 64 (elem * 2 ^ 32) ||| BitVec.ofNat 64 row
  (ditherMix (ditherMix (seed ^^^ step) ^^^ key)).toNat / 2 ^ 48

/-- Dithered rounding (R65). -/
def ditherCode (c : Codebook) (t : Rat) (u : Nat) : Nat :=
  let hi := ratZ (cbLevel c (c.used - 1))
  let lo := ratZ (cbLevel c 0)
  if t < lo || hi < t then nearestCode c t
  else
    match (List.range c.used).find? (fun i => decide (ratZ (cbLevel c i) ≥ t)) with
    | none => nearestCode c t
    | some i =>
      let lhi := ratZ (cbLevel c i)
      if lhi == t || i == 0 then i
      else
        let llo := ratZ (cbLevel c (i - 1))
        if ratN u * (lhi - llo) < (t - llo) * 65536 then i else i - 1

/-- The key of dithered rounding, but for row and element (R65). -/
abbrev DitherKey := Dword × Dword × Nat

/-- A coded row: its scale, its codes in true form, and the saturations it counts (R52, R64). -/
abbrev CodedRow := Nat × List Nat × Nat

/-- The scale of a row (R60), and whether it is a scale saturation. -/
def rowScale (c : Codebook) (kappa : Nat) (rowmax : Rat) : Nat × Bool :=
  if rowmax = 0 then (0, false) else s8Up (s8Val kappa * rowmax * 128 / ratN (cbLmax c))

/-- Code a row (R59 to R65).  `kappa` 0x00 acts as 1.0 (R62). -/
def codeRow (c : Codebook) (kappa : Nat) (dither : Option DitherKey) (row : Nat) (vs : List Rat) : CodedRow :=
  let rowmax := vs.foldl (fun m v => ratMax m (ratAbs v)) 0
  let sc := rowScale c (if kappa = 0 then 120 else kappa) rowmax
  if sc.1 = 0 then (0, vs.map (fun _ => cbZero c), 0)
  else
    let s := s8Val sc.1
    let hi := ratZ (cbLevel c (c.used - 1))
    let lo := ratZ (cbLevel c 0)
    let ts := vs.map (fun v => v * 128 / s)
    let codes := ts.zipIdx.map (fun p => match dither with
      | none => nearestCode c p.1
      | some k => ditherCode c p.1 (ditherU k.1 k.2.1 k.2.2 p.2 row))
    let sat := (ts.filter (fun t => decide (hi < t) || decide (t < lo))).length
    (sc.1, codes, b2n sc.2 + sat)

/-- Round a row to B16 (R54): the words and the saturations. -/
def b16Row (vs : List Rat) : List Nat × Nat :=
  let r := vs.map b16Round
  (r.map (fun p => p.1), (r.filter (fun p => p.2)).length)

/-- The real value of an element (R55). -/
def elemVal (c : Codebook) (scale code : Nat) : Rat := ratZ (cbLevel c code) * pow2 (-7) * s8Val scale

/-! ### Packing (R34 to R36) -/

/-- A list cut into pieces of n, for at most `fuel` pieces. -/
def chunks {α : Type} (n : Nat) : Nat → List α → List (List α)
  | 0, _ => []
  | f + 1, l => if l.isEmpty then [] else l.take n :: chunks n f (l.drop n)

/-- Codes of one byte or word, lowest first. -/
def packWord (w : Nat) (cs : List Nat) : Nat := cs.foldr (fun c a => c % 2 ^ w + 2 ^ w * a) 0

/-- Pack the codes of a row from channel 0; unused positions of the last byte or word hold the filler code (R34, R35). -/
def packCodes (format filler : Nat) (cs : List Nat) : List Byte :=
  let w := codeWidth format
  let per := if format = 2 then 10 else 8 / w
  let nb := if format = 2 then 4 else 1
  (chunks per cs.length cs).flatMap (fun g => leBytes nb (packWord w (g ++ List.replicate (per - g.length) filler)))

/-- Bytes that n codes take (R34, R35). -/
def codeBytes (format n : Nat) : Nat := if format = 2 then 4 * ceilDiv n 10 else ceilDiv (n * codeWidth format) 8

/-- Code i of packed bytes (R34, R35). -/
def unpackCode (format : Nat) (bs : List Byte) (i : Nat) : Nat :=
  if format = 2 then leAt bs (4 * (i / 10)) 4 / 2 ^ (3 * (i % 10)) % 8
  else
    let w := codeWidth format
    let per := 8 / w
    leAt bs (i / per) 1 / 2 ^ (w * (i % per)) % 2 ^ w

/-- The first n codes of packed bytes. -/
def unpackCodes (format n : Nat) (bs : List Byte) : List Nat := (List.range n).map (unpackCode format bs)

/-- The bitwise NOT of a code within its width (R47). -/
def complementCode (format c : Nat) : Nat := 2 ^ codeWidth format - 1 - c % 2 ^ codeWidth format

/-- Codes as Weft B stores them, complemented, or as they are (R47). -/
def storeForm (comp : Bool) (format : Nat) (cs : List Nat) : List Nat := if comp then cs.map (complementCode format) else cs

/-! ### Digests (R135) -/

/-- The row CRC of a coded row in true form. -/
def rowCrcCoded (c : Codebook) (row : Nat) (r : CodedRow) : Nat :=
  (crc32c (packCodes c.format (cbZero c) r.2.1 ++ leBytes 4 row ++ leBytes 1 r.1)).toNat

/-- The row CRC of a row of B16 words. -/
def rowCrcB16 (row : Nat) (ws : List Nat) : Nat := (crc32c (ws.flatMap (leBytes 2) ++ leBytes 4 row)).toNat

/-- The sum of row CRCs mod 2^32. -/
def digestSum (l : List Nat) : Nat := l.foldl (fun a b => a + b) 0 % 2 ^ 32

/-! ### Adaptation (R68) -/

/-- The adaptation bucket of a saturation count. -/
def adaptBucket (count : Nat) : Nat := if count = 0 then 0 else min 15 (1 + Nat.log2 count)

/-- The next κ: the encoding plus the curve's delta, clamped to 0x01 to 0xFF. -/
def adaptKappa (curve : List Int) (kappa count : Nat) : Nat :=
  let n : Int := (kappa : Int) + curve.getD (adaptBucket count) 0
  if n < 1 then 1 else if 255 < n then 255 else n.toNat

end Machine

end Sys2Proof
end

