-- ==== Sys2Proof/Machine/DraftImage.lean ====
section
/-! DEFINITION. The bytes of a draft image as records (R143 to R160, R256). -/

namespace Sys2Proof

namespace Machine

/-- A record's bytes: record i of `n` bytes each, from offset `off` on. -/
def recAt (bs : List Byte) (off n i : Nat) : List Byte := sliceB bs (off + n * i) n

/-- The records of a section. -/
def recsAt {α : Type} (bs : List Byte) (off n count : Nat) (f : List Byte → α) : List α :=
  (List.range count).map (fun i => f (recAt bs off n i))

/-- A curve record (R127). -/
def parseCurve (r : List Byte) : Curve :=
  { xMin := leAt r 0 2, log2w := sleAt r 2 1, y := (List.range 65).map (fun i => leAt r (4 + 2 * i) 2) }

/-- A layer record (R145). -/
def parseLayer (r : List Byte) : Layer :=
  let fl := leAt r 1 1
  let t := leAt r 24 4
  { op := leAt r 0 1, rectify := bitN fl 0, gatherable := bitN fl 1, bias := bitN fl 2, padNamed := bitN fl 3,
    index := leAt r 2 2 % 2 ^ 14, in0 := leAt r 4 2, in1 := leAt r 6 2, out := leAt r 8 2, in2 := leAt r 10 2,
    m := leAt r 12 4, k := leAt r 16 4, n := leAt r 20 4, log2ms := bitsN t 1 0, log2ns := bitsN t 3 2, log2ks := bitsN t 5 4,
    chunk := bitsN t 18 6, gatherRows := leAt r 28 2, curve := leAt r 30 1, padCode := leAt r 31 1, biasBlob := leAt r 32 2,
    taps := leAt r 34 2, bound := leAt r 36 4, params := sliceB r 40 24 }

/-- A tensor record (R147). -/
def parseTensor (r : List Byte) : Tensor :=
  let fl := leAt r 4 1
  { type := leAt r 0 1, format := leAt r 1 1, codebook := leAt r 2 1 % 64, kappa := leAt r 3 1, firstPass := bitN fl 0,
    centred := bitN fl 1, dithered := bitN fl 2, driftEnable := bitN fl 3, adaptEnable := bitN fl 4, result := bitN fl 5,
    batchInput := bitN fl 6, weight := bitN fl 7, resultNo := leAt r 7 1, rows := leAt r 8 4, rowLen := leAt r 12 4,
    rowPitch := leAt r 16 4, driftThreshold := leAt r 20 4, blob := leAt r 24 2, placement := leAt r 26 2,
    adaptCurve := (List.range 16).map (fun i => sleAt r (32 + i) 1) }

/-- A placement record (R256). -/
def parsePlacement (r : List Byte) : Placement :=
  { home := leAt r 0 1, dies := leAt r 1 1 % 4, parts := leAt r 2 2, sramA := leAt r 4 4, sramB := leAt r 8 4,
    splitRow := leAt r 12 4, homeOff := leAt r 16 8, partBytes := leAt r 24 4, window := leAt r 28 2, stages := leAt r 32 4,
    evicts := leAt r 36 4 }

/-- A blob directory entry (R150) with a plaintext. -/
def parseBlob (r plain : List Byte) : Blob :=
  { offset := leAt r 0 4, length := leAt r 4 4, iv := leAt r 8 12, tag := leAt r 20 16, tensor := leAt r 36 2,
    crc := leAt r 40 4, plain := plain }

/-- A program record (R154) with its text and data images. -/
def parseProgram (img r : List Byte) : Program :=
  let t := leAt r 0 4
  let tn := leAt r 4 4
  let d := leAt r 8 4
  let dn := leAt r 12 4
  { textOff := t, textBytes := tn, dataOff := d, dataBytes := dn, budget := leAt r 16 4, latchUse := bitN (leAt r 20 1) 0,
    wins := (List.range 16).map (fun w => (leAt r (24 + 4 * w) 2, bitN (leAt r (26 + 4 * w) 1) 0)), entry := leAt r 88 4,
    text := sliceB img t (min tn 131072), data := sliceB img d (min dn 131072) }

/-- A hinge record (R155). -/
def parseHinge (r : List Byte) : Hinge :=
  { index := leAt r 0 2 % 2 ^ 14, afterLayer := leAt r 2 2 % 2 ^ 14, program := leAt r 4 1, lrCount := leAt r 6 2,
    lrFirst := leAt r 8 4, resume := leAt r 12 4 }

/-- A live-range record (R156). -/
def parseLiveRange (r : List Byte) : LiveRange :=
  { tensor := leAt r 0 2, dies := leAt r 2 1 % 4, start := leAt r 4 4, length := leAt r 8 4 }

/-- The bounds record (R160). -/
def parseBounds (r : List Byte) : Bounds :=
  { isolated := leAt r 0 8, hingeGap := leAt r 8 8, beamA := leAt r 16 4, beamB := leAt r 20 4, gddrA := leAt r 24 8,
    gddrB := leAt r 32 8, hostSpill := leAt r 40 8, resultBytes := leAt r 48 4, saveBytes := leAt r 52 4 }

/-- The draft an image states, with each blob's plaintext (R143). -/
def parseDraft (img : List Byte) (plains : List (List Byte)) : Draft :=
  { version := leAt img 4 2, imageBytes := leAt img 8 4, whole := leAt img 12 1 == 1, encrypted := bitN (leAt img 13 1) 0,
    seqA := leAt img 21 1, seqB := leAt img 22 1, results := leAt img 23 1, keyId := leAt img 34 2,
    buildId := BitVec.ofNat 64 (leAt img 80 8), digest := BitVec.ofNat 256 (leAt img (leAt img 76 4 + 8) 32),
    layers := recsAt img (leAt img 36 4) 64 (leAt img 14 2) parseLayer,
    tensors := recsAt img (leAt img 40 4) 48 (leAt img 16 2) parseTensor,
    codebooks := recsAt img (leAt img 44 4) 40 (leAt img 18 1) (fun r => (leAt r 0 1, parseCodebook (r.drop 4))),
    curves := recsAt img (leAt img 48 4) 140 (leAt img 19 1) (fun r => (leAt r 0 1, parseCurve (r.drop 4))),
    programs := recsAt img (leAt img 52 4) 96 (leAt img 20 1) (parseProgram img),
    hinges := recsAt img (leAt img 56 4) 16 (leAt img 24 2) parseHinge,
    liveRanges := recsAt img (leAt img 60 4) 16 (leAt img 28 4) parseLiveRange,
    placements := recsAt img (leAt img 68 4) 48 (leAt img 32 2) parsePlacement,
    blobs := (List.range (leAt img 26 2)).map (fun i => parseBlob (recAt img (leAt img 64 4) 48 i) (plains.getD i [])),
    bounds := parseBounds (sliceB img (leAt img 72 4) 64) }

/-! ### Records of other kinds when one is absent -/

/-- A layer record of zeros. -/
def Layer.zero : Layer := parseLayer []

/-- A tensor record of zeros. -/
def Tensor.zero : Tensor := parseTensor []

/-- A placement record of zeros. -/
def Placement.zero : Placement := parsePlacement []

/-- Layer i of a draft. -/
def Draft.layer (d : Draft) (i : Nat) : Layer := d.layers.getD i Layer.zero

/-- Tensor j of a draft. -/
def Draft.tensor (d : Draft) (j : Nat) : Tensor := d.tensors.getD j Tensor.zero

/-- The placement of tensor j. -/
def Draft.place (d : Draft) (j : Nat) : Placement := d.placements.getD (d.tensor j).placement Placement.zero

/-! ### Sizes (R147, R148) -/

/-- The tensor is coded and takes the first pass (R62). -/
def Tensor.takesFirstPass (t : Tensor) : Bool := t.type == 0 && !t.weight && !t.batchInput && (t.firstPass || t.kappa == 0)

/-- The tensor is held as B16 values (R62). -/
def Tensor.heldB16 (t : Tensor) : Bool := t.type == 1 || t.takesFirstPass

/-- Bytes of one element of an FP32, FP16 or raw tensor (R112: an FP16 element is 2 bytes). -/
def Tensor.elemBytes (t : Tensor) : Nat := if t.type = 2 then 4 else if t.type = 3 then 2 else 1

/-- The packed row length in bytes, before rounding (R34, R35, R148). -/
def Tensor.packedRow (t : Tensor) : Nat :=
  if t.heldB16 then 2 * t.rowLen else if t.type = 0 then codeBytes t.format t.rowLen else t.elemBytes * t.rowLen

/-- The row pitch in force (R147). -/
def Tensor.pitch (t : Tensor) : Nat := if t.rowPitch = 0 then alignUp t.packedRow 4 else t.rowPitch

/-- The 32-bit indices that a row of a raw tensor holds: row_len bytes in fours, at least one (R202; log entry 118). -/
def Tensor.indices (t : Tensor) : Nat := max 1 (t.rowLen / 4)

/-- Where the scale plane of a coded tensor starts (R148). -/
def Tensor.scaleOff (t : Tensor) : Nat := alignUp (t.rows * t.pitch) 64

/-- Bytes of the tensor (R148). -/
def Tensor.bytes (t : Tensor) : Nat := if t.type = 0 && !t.heldB16 then t.scaleOff + t.rows else t.rows * t.pitch

/-- κ in force: 0x00 acts as 1.0 (R62). -/
def Tensor.kappaInit (t : Tensor) : Nat := if t.kappa = 0 then 120 else t.kappa

/-! ### Weight blobs (R151) -/

/-- Where the weight scales of a weight blob start. -/
def blobScales (t : Tensor) : Nat := alignUp (t.rows * t.pitch) 64

/-- Where its centres start. -/
def blobCentres (t : Tensor) : Nat := alignUp (blobScales t + t.rows) 64

/-- Where its constant bitmap starts. -/
def blobConst (t : Tensor) : Nat := alignUp (blobCentres t + 2 * t.rows) 64

/-- The payload length a weight blob must have. -/
def blobLength (t : Tensor) : Nat := if t.centred then blobConst t + ceilDiv t.rows 8 else blobScales t + t.rows

/-- The centre word of row n (R57). -/
def Draft.centre (d : Draft) (t : Tensor) (n : Nat) : Nat :=
  match d.blobs[t.blob]? with
  | some b => leAt b.plain (blobCentres t + 2 * n) 2
  | none => 0

/-- Row n is flagged constant (R57). -/
def Draft.isConst (d : Draft) (t : Tensor) (n : Nat) : Bool :=
  match d.blobs[t.blob]? with
  | some b => bitN (leAt b.plain (blobConst t + n / 8) 1) (n % 8)
  | none => false

/-- B16 word n of a bias or gamma blob (R151). -/
def Draft.blobWord (d : Draft) (b n : Nat) : Nat :=
  match d.blobs[b]? with
  | some b => leAt b.plain (2 * n) 2
  | none => 0

/-! ### Operator classes (R146) -/

/-- The layer runs on the array. -/
def Layer.onArray (l : Layer) : Bool := [0x01, 0x03, 0x08, 0x09, 0x0A, 0x0C].contains l.op

/-- The layer runs on Finish. -/
def Layer.onFinish (l : Layer) : Bool := [0x14, 0x15, 0x16].contains l.op

/-- The layer runs on the Reed. -/
def Layer.onReed (l : Layer) : Bool := decide (1 ≤ l.op) && decide (l.op ≤ 0x16) && !l.onArray && !l.onFinish

/-- The unit of a layer (R146). -/
def Layer.unit (l : Layer) : OpUnit := if l.onArray then .array else if l.onFinish then .finish else .reed

/-- The engines of a draft's tiling: 4 per die or 8 (R143). -/
def Draft.engines (d : Draft) : Nat := if d.whole then 8 else 4

end Machine

end Sys2Proof
end

