-- ==== Sys2Proof/Machine/Timing.lean ====
section
/-! DEFINITION. Bounds in Loom clocks: of operations (R99, R126, R208), of drafts (R139, R161 to R163, R261). -/

namespace Sys2Proof

namespace Machine

/-- Parameter bytes of a layer record: offset 40 of the record is offset 0 here (R145). -/
def Layer.par (l : Layer) (off n : Nat) : Nat := leAt l.params off n

/-- The batch count of 0x09, 0x0A and 0x0C; 1 elsewhere (R191). -/
def Layer.batches (l : Layer) : Nat := if [0x09, 0x0A, 0x0C].contains l.op then l.par 0 2 else 1

/-- Output rows of one array operation of the layer (R191). -/
def Layer.mb (l : Layer) : Nat := l.m / max 1 l.batches

/-- Reduction positions of a segment, by the operand formats (R75). -/
def kPerSegment (fa fw : Nat) : Nat := if 2 ≤ fa || 2 ≤ fw then 64 else if fa = 0 && fw = 0 then 256 else 128

/-- Passes of the layer (R79, R90). -/
def Draft.passes (d : Draft) (l : Layer) : Nat :=
  let ks := kPerSegment (d.tensor l.in0).format (d.tensor l.in1).format
  ceilDiv (l.taps * ceilDiv (l.k / max 1 l.taps) ks) 4

/-- Ms, Ns and Ks (R89). -/
def Layer.ms (l : Layer) : Nat := 2 ^ l.log2ms
/-- The number of N-block ranges (R89). -/
def Layer.ns (l : Layer) : Nat := 2 ^ l.log2ns
/-- The number of pass ranges (R89). -/
def Layer.ks (l : Layer) : Nat := 2 ^ l.log2ks

/-- Channels of one engine's span (R90). -/
def Layer.nspan (l : Layer) : Nat := ceilDiv (ceilDiv l.n 128) l.ns * 128

/-- Positions of one engine's M range (R90). -/
def Layer.me (l : Layer) (m : Nat) : Nat := ceilDiv m l.ms

/-- T_op of an operation over m positions (R99), with R92's latency and R93's exchange rate. -/
def Draft.tOp (d : Draft) (l : Layer) (m : Nat) : Nat :=
  let mc := max 1 l.chunk
  let n := ceilDiv (l.me m) mc
  let kp := ceilDiv (d.passes l) l.ks
  let span := l.nspan
  let c := span / 128 * kp * max (mc / 8) 8
  let far := d.whole && l.ns * l.ks == 8
  let x := if l.ks = 1 then 0 else ceilDiv (mc * span) (if d.whole && l.ks == 8 then 48 else 1024)
  let q := if (d.tensor l.out).heldB16 then ceilDiv (mc * span) 512 + 8
    else (if far then 160 else 16) + ceilDiv (mc * span) 1024 + 8
  48 + (n - 1) * max c (x + q) + c + x + q + (if d.whole then 96 else 0)

/-- Elements of a tensor. -/
def Tensor.elems (t : Tensor) : Nat := t.rows * t.rowLen

/-- The extra read a first-pass input charges to its consumer, for a number of elements (R62, R208). -/
def Draft.extraRead (d : Draft) (j elems : Nat) : Nat := if (d.tensor j).takesFirstPass then ceilDiv elems 512 else 0

/-- The result outputs in section order: tensor numbers by ascending result_no (R207). -/
def Draft.resultTensors (d : Draft) : List Nat :=
  (List.range d.results).filterMap (fun r =>
    (List.range d.tensors.length).find? (fun j => (d.tensor j).result && (d.tensor j).resultNo == r))

/-- Bytes of a result section at its largest (R207). -/
def Tensor.sectionBytes (t : Tensor) : Nat :=
  if t.type = 0 && t.takesFirstPass then alignUp (t.rows * alignUp (codeBytes t.format t.rowLen) 4) 64 + t.rows else t.bytes

/-- Offset after sections of the given lengths, each starting at a 64-byte boundary (R137). -/
def packEnd : Nat → List Nat → Nat
  | at', [] => at'
  | at', n :: t => packEnd (alignUp at' 64 + n) t

/-- The largest result set of the draft (R137). -/
def Draft.maxResult (d : Draft) : Nat :=
  let ts := d.resultTensors
  packEnd (32 + 16 * ts.length) (ts.map (fun j => (d.tensor j).sectionBytes))

/-- The bound of a Reed or Finish layer without extra reads (R126, R139, R208). -/
def Draft.vecBound (d : Draft) (l : Layer) : Nat :=
  let e := l.m * l.n
  match l.op with
  | 0x02 => ceilDiv (l.m * (l.n * ((d.tensor l.in0).rowLen / max 1 (l.par 18 2))) * l.par 8 1 * l.par 9 1) 4096 + 64
  | 0x04 => ceilDiv (e * l.par 8 1 * l.par 9 1) 4096 + 64
  | 0x05 => ceilDiv (e * l.par 8 1 * l.par 9 1) 4096 + 64
  | 0x06 => ceilDiv e 512 + 32
  | 0x07 => ceilDiv e 512 + 32
  | 0x0B => 3 * ceilDiv e 256 + 96
  | 0x0D => 2 * ceilDiv e 256 + 96
  | 0x0E => ceilDiv e 512 + 32
  | 0x0F => ceilDiv e 512 + 32
  | 0x10 => ceilDiv e 128 + 64
  | 0x11 => ceilDiv e 128 + 64
  | 0x12 => l.par 0 4 * ceilDiv l.n 256 + 64
  | 0x13 => l.par 0 4 * ceilDiv l.n 256 + 64
  | 0x14 => ceilDiv (l.m * l.k) 1024 + 32
  | 0x15 => ceilDiv (l.m * l.k) 256 + 4 * l.par 0 2 + 64
  | 0x16 => d.resultTensors.foldl (fun a j => a + (ceilDiv (d.tensor j).sectionBytes 64 + 32)) 0
  | _ => 0

/-- Extra reads of all first-pass inputs of a layer (R208). -/
def Draft.extraReads (d : Draft) (l : Layer) : Nat :=
  if l.op = 0x16 then d.resultTensors.foldl (fun a j => a + d.extraRead j (d.tensor j).elems) 0
  else d.extraRead l.in0 (d.tensor l.in0).elems
    + (if l.in1 = 0xFFFF then 0 else d.extraRead l.in1 (d.tensor l.in1).elems)

/-- The recomputed bound of a layer (R161, R208). -/
def Draft.layerBound (d : Draft) (l : Layer) : Nat :=
  (if l.onArray then l.batches * d.tOp l l.mb else d.vecBound l) + d.extraReads l

/-- The bound of one array operation of a layer for R97. -/
def Draft.opBound (d : Draft) (l : Layer) : Nat :=
  let b := max 1 l.batches
  d.tOp l l.mb + d.extraRead l.in0 ((d.tensor l.in0).elems / b) + d.extraRead l.in1 ((d.tensor l.in1).elems / b)

/-- Operations counted from the records (R162). -/
def Draft.opCount (d : Draft) : Nat := d.layers.length + d.placements.foldl (fun a p => a + p.stages + p.evicts) 0

/-- T_sh (R139, R162). -/
def Draft.tSh (d : Draft) : Nat := d.programs.foldl (fun a p => a + ceilDiv p.budget 2) 0 + 24 * d.opCount

/-- Bytes of the codes or B16 values of n channels of a row. -/
def Tensor.pieceBytes (t : Tensor) (n : Nat) : Nat :=
  if n = 0 then 0 else if t.heldB16 then 2 * n else codeBytes t.format n

/-- The die of the lowest engine of tile (ms, ns): 0 Weft A, 1 Weft B (R90; log entry 14 for Ks = 8). -/
def Layer.tileDie (l : Layer) (ms ns : Nat) : Nat := (ms * l.ns * l.ks + ns * l.ks) / 4

/-- Channels of a row of M range ms that a die produces. -/
def Layer.dieChannels (l : Layer) (ms die : Nat) : Nat :=
  (List.range l.ns).foldl (fun a ns =>
    if l.tileDie ms ns = die then a + (min l.n ((ns + 1) * l.nspan) - min l.n (ns * l.nspan)) else a) 0

/-- Members of [lo, hi) below and from `split` on. -/
def splitCount (lo hi split : Nat) : Nat × Nat := (min hi split - min lo split, max hi split - max lo split)

/-- Bytes of one row sent toward a die that receives it (R261, B_x). -/
def Draft.rowSent (d : Draft) (l : Layer) (ms dst : Nat) : Nat :=
  let t := d.tensor l.out
  let mine := l.dieChannels ms (1 - dst)
  t.pieceBytes mine + (if l.dieChannels ms dst = 0 && !t.heldB16 && t.type == 0 then 1 else 0)

/-- B_x of a Whole-tiling layer: the larger of the two directions (R261). -/
def Draft.crossBytes (d : Draft) (l : Layer) : Nat :=
  let p := d.place l.out
  let me := l.me l.mb
  let dir := fun (dst : Nat) => (List.range (max 1 l.batches)).foldl (fun acc b =>
    (List.range l.ms).foldl (fun acc2 ms =>
      let lo := b * l.mb + min l.mb (ms * me)
      let hi := b * l.mb + min l.mb ((ms + 1) * me)
      let rows := if p.dies = 0 then hi - lo else if p.dies = 1 then
        (if dst = 0 then (splitCount lo hi p.splitRow).1 else (splitCount lo hi p.splitRow).2) else 0
      acc2 + rows * d.rowSent l ms dst) acc) 0
  max (dir 0) (dir 1)

/-- The stage and evict terms (R261). -/
def Draft.tSe (d : Draft) : Nat :=
  let pl := d.placements.foldl (fun a p =>
    if p.home = 1 then a + (p.stages + p.evicts) * (ceilDiv p.partBytes 640 + 256)
    else if p.home = 2 then a + (p.stages + p.evicts) * (ceilDiv p.partBytes 40 + 3000) else a) 0
  let cross := if d.whole then d.layers.foldl (fun a l =>
    if l.onArray then (let b := d.crossBytes l; if b = 0 then a else a + (ceilDiv b 384 + 160)) else a) 0 else 0
  pl + cross

/-- The recomputed isolated bound (R162). -/
def Draft.isolatedBound (d : Draft) : Nat := d.layers.foldl (fun a l => a + l.bound) 0 + d.tSh + d.tSe

/-- Sums of the stated bounds over the hinge intervals (R158), the layers given with their index. -/
def intervalSums (ends : List Nat) : Nat → Nat → List Layer → List Nat
  | _, acc, [] => [acc]
  | i, acc, l :: t =>
    if ends.contains i then (acc + l.bound) :: intervalSums ends (i + 1) 0 t else intervalSums ends (i + 1) (acc + l.bound) t

/-- The recomputed hinge gap (R163). -/
def Draft.hingeGap (d : Draft) : Nat :=
  (intervalSums (d.hinges.map (fun h => h.afterLayer)) 0 0 d.layers).foldl max 0 + d.tSh + d.tSe

/-- Live ranges of a hinge. -/
def Draft.ranges (d : Draft) (h : Hinge) : List LiveRange := (d.liveRanges.drop h.lrFirst).take h.lrCount

/-- The save bytes of a hinge (R157). -/
def Draft.saveOf (d : Draft) (h : Hinge) : Nat :=
  (d.ranges h).foldl (fun a r => a + r.length * (b2n (bitN r.dies 0) + b2n (bitN r.dies 1))) 0

/-- The largest save bytes of any hinge. -/
def Draft.maxSave (d : Draft) : Nat := (d.hinges.map d.saveOf).foldl max 0

end Machine

end Sys2Proof
end

