-- ==== Sys2Proof/Machine/Rows.lean ====
section
/-! DEFINITION. Rows of tensors in Beam SRAM, as an operation of a step on one die reads and writes them (R47, R55 to R58, R62,
R85, R148, R256, R257). -/

namespace Sys2Proof

namespace Machine

/-- What an operation of a step works on: its die, the draft, both dies' Beam SRAM, the loaded slots, the bound batch buffer
(R237), the step's κ values, its dither keys, and the undetected errors of its sums (R107). -/
structure Env where
  die : Weft
  draft : Draft
  ma : Memory
  mb : Memory
  cbs : List (Nat × Codebook)
  curves : List (Nat × Curve)
  baseA : Nat
  baseB : Nat
  compBatch : Bool
  kappas : List (Nat × Nat)
  seed : Dword
  counter : Dword
  upsets : List Upset
deriving DecidableEq, Repr

/-- Beam SRAM of a die. -/
def Env.mem (e : Env) (d : Weft) : Memory := match d with | .a => e.ma | .b => e.mb

/-- The die stores the tensor's codes complemented: Weft B, for Paired tiling and for batches opened in Paired mode (R47, R153,
R236). -/
def Env.comp (e : Env) (d : Weft) (j : Nat) : Bool :=
  d == .b && (if (e.draft.tensor j).batchInput then e.compBatch else !e.draft.whole)

/-- The Beam SRAM offset of byte `off` of a placed tensor (R257); with parts = 0 the whole tensor is resident (R256). -/
def Placement.sramAt (p : Placement) (d : Weft) (off : Nat) : Nat :=
  let base := match d with | .a => p.sramA | .b => p.sramB
  if p.parts = 0 || p.partBytes = 0 then base + off
  else base + (off / p.partBytes % max 1 p.window) * p.partBytes + off % p.partBytes

/-- The Beam SRAM offset of byte `off` of tensor j: in the batch buffer for a batch input (R237). -/
def Env.addr (e : Env) (d : Weft) (j off : Nat) : Nat :=
  if (e.draft.tensor j).batchInput then (match d with | .a => e.baseA | .b => e.baseB) + off
  else (e.draft.place j).sramAt d off

/-- The die whose copy of row r an operation on this die reads (R256): its own, the die that holds the row of a row split, or the
one die named. -/
def Env.rowDie (e : Env) (j r : Nat) : Weft :=
  let p := e.draft.place j
  if (e.draft.tensor j).batchInput then e.die
  else if p.dies = 0 then e.die
  else if p.dies = 1 then (if r < p.splitRow then .a else .b)
  else if p.dies = 2 then .a else .b

/-- n bytes of tensor j from byte `off` on. -/
def Env.bytes (e : Env) (d : Weft) (j off n : Nat) : List Byte :=
  (fromTo off n).map (fun o => (e.mem d).read (e.addr d j o))

/-- The codebook of a coded tensor. -/
def Env.cb (e : Env) (j : Nat) : Codebook := (codebookAt e.cbs (e.draft.tensor j).codebook).getD (builtinCodebook 0)

/-- κ of a tensor for this step (R69, R62). -/
def Env.kappa (e : Env) (j : Nat) : Nat := (lookupN e.kappas j).getD (e.draft.tensor j).kappaInit

/-- The index of the layer that writes tensor j: the last of several scatters, 0 where no layer writes it (DESIGN CHOICE, log entry
114: R65 and R537 key the coding of a first-pass tensor, and of lm.enc, by "the layer that writes" it). -/
def Draft.writer (d : Draft) (j : Nat) : Nat :=
  match (d.layers.filter (fun l => l.out == j)).getLast? with
  | some l => l.index
  | none => 0

/-- The dither key of rows of tensor j that layer `layer` codes (R65). -/
def Env.ditherFor (e : Env) (j layer : Nat) : Option DitherKey :=
  if (e.draft.tensor j).dithered then some (e.seed, e.counter, layer) else none

/-- The dither key of rows of tensor j that a consumer or lm.enc codes: the layer that writes the tensor (R537, R123; log entry 114). -/
def Env.dither (e : Env) (j : Nat) : Option DitherKey := e.ditherFor j (e.draft.writer j)

/-- The B16 words of row r. -/
def Env.words (e : Env) (j r : Nat) : List Nat :=
  let t := e.draft.tensor j
  let bs := e.bytes (e.rowDie j r) j (r * t.pitch) (2 * t.rowLen)
  (List.range t.rowLen).map (fun i => leAt bs (2 * i) 2)

/-- A row held as codes: scale and codes in true form (R47, R55). -/
def Env.held (e : Env) (j r : Nat) : Nat × List Nat :=
  let t := e.draft.tensor j
  let d := e.rowDie j r
  let codes := unpackCodes t.format t.rowLen (e.bytes d j (r * t.pitch) (codeBytes t.format t.rowLen))
  (((e.mem d).read (e.addr d j (t.scaleOff + r))).toNat, storeForm (e.comp d j) t.format codes)

/-- A first-pass row as its consumer codes it (R62). -/
def Env.firstPass (e : Env) (j r : Nat) : CodedRow :=
  codeRow (e.cb j) (e.kappa j) (e.dither j) r ((e.words j r).map b16Val)

/-- The scale and codes of a coded row, in true form. -/
def Env.coded (e : Env) (j r : Nat) : Nat × List Nat :=
  if (e.draft.tensor j).takesFirstPass then ((e.firstPass j r).1, (e.firstPass j r).2.1) else e.held j r

/-- The words with exponent 255 in rows of a first-pass tensor that a consumer reads (R53, R62). -/
def Env.firstPassReads (e : Env) (j : Nat) (rows : List Nat) : Nat :=
  if (e.draft.tensor j).takesFirstPass then rows.foldl (fun a r => a + ((e.words j r).filter b16ReadSat).length) 0 else 0

/-- The saturations that a consumer's coding of rows of a first-pass tensor counts (R62, R64). -/
def Env.firstPassSats (e : Env) (j : Nat) (rows : List Nat) : Nat :=
  if (e.draft.tensor j).takesFirstPass then rows.foldl (fun a r => a + (e.firstPass j r).2.2) 0 else 0

/-- The scale and levels of a coded row. -/
def Env.levels (e : Env) (j r : Nat) : Nat × List Int :=
  let p := e.coded j r
  (p.1, p.2.map (cbLevel (e.cb j)))

/-- The exact values of a row, and the saturations that reading it counts (R53, R55, R57); those of a first-pass row are counted per
layer (`Env.firstPassReads`). -/
def Env.vals (e : Env) (j r : Nat) : List Rat × Nat :=
  let t := e.draft.tensor j
  if t.type = 0 then
    let p := e.levels j r
    let s := s8Val p.1
    let base := p.2.map (fun l => ratZ l * pow2 (-7) * s)
    if t.weight && t.centred then
      let cw := e.draft.centre t r
      (base.map (fun v => b16Val cw + (if e.draft.isConst t r then 0 else v)), b2n (b16ReadSat cw))
    else (base, 0)
  else
    let ws := e.words j r
    (ws.map b16Val, (ws.filter b16ReadSat).length)

/-! ### Writing rows -/

/-- Codes that a row's pitch has places for (R36). -/
def Tensor.capacity (t : Tensor) : Nat := if t.format = 2 then t.pitch / 4 * 10 else t.pitch * 8 / codeWidth t.format

/-- The bytes of a coded row in stored form: codes, then padding with the zero code (R36, R47).  An lm.enc of fewer channels than the row has
fills the other places with the zero code as well (R123; DESIGN CHOICE, log entry 153). -/
def codedRowBytes (t : Tensor) (cb : Codebook) (comp : Bool) (codes : List Nat) : List Byte :=
  let z := cbZero cb
  let all := codes ++ List.replicate (t.capacity - codes.length) z
  packCodes t.format (if comp then complementCode t.format z else z) (storeForm comp t.format all)

/-- Scatter bytes of a tensor over its (windowed) Beam SRAM places, one by one. -/
def putBytes (addr : Nat → Nat) : Memory → Nat → List Byte → Memory
  | m, _, [] => m
  | m, off, b :: t => putBytes addr (m.write (addr off) b) (off + 1) t

/-- Write bytes of tensor j on one die. -/
def Env.put (e : Env) (d : Weft) (j off : Nat) (bs : List Byte) : Env :=
  match d with
  | .a => { e with ma := putBytes (e.addr .a j) e.ma off bs }
  | .b => { e with mb := putBytes (e.addr .b j) e.mb off bs }

/-- Write a coded row on one die: codes, padding and scale. -/
def Env.putCoded (e : Env) (d : Weft) (j r : Nat) (scale : Nat) (codes : List Nat) : Env :=
  let t := e.draft.tensor j
  (e.put d j (r * t.pitch) (codedRowBytes t (e.cb j) (e.comp d j) codes)).put d j (t.scaleOff + r) (leBytes 1 scale)

/-- Write a row of B16 words on one die. -/
def Env.putWords (e : Env) (d : Weft) (j r : Nat) (ws : List Nat) : Env :=
  e.put d j (r * (e.draft.tensor j).pitch) (ws.flatMap (leBytes 2))

/-- The dies that a unit of this die writes row r to: both for an array row of a Whole draft with dies = 0; the holder of a split
row; for the Reed and Finish only their own die (R125, R256, R261). -/
def Env.holders (e : Env) (array : Bool) (j r : Nat) : List Weft :=
  let p := e.draft.place j
  let held : List Weft := if p.dies = 0 then [.a, .b] else if p.dies = 1 then (if r < p.splitRow then [.a] else [.b])
    else if p.dies = 2 then [.a] else [.b]
  if !e.draft.whole then [e.die] else if array then held else held.filter (fun d => d == e.die)

end Machine

end Sys2Proof
end

