-- ==== Sys2Proof/Machine/Operators.lean ====
section
/-! DEFINITION. What the operators compute, row by row (06_operators.md; R48 to R58, R80, R126 to R131, R133, R134). -/

namespace Sys2Proof

namespace Machine

/-- One output row before bias and coding: its values, or a row the operator writes as a zero row, with the saturations already
counted for it (R571). -/
structure RowRes where
  row : Nat
  vals : List Rat
  zero : Bool
  sat : Nat
deriving DecidableEq, Repr

/-- The rows an operation computes, and its Reed index events (R131). -/
structure OpRes where
  rows : List RowRes
  idx : Nat
deriving DecidableEq, Repr

/-! ### Exact sums -/

/-- Σ of products of two lists of levels (R39, R48). -/
def dotZ : List Int → List Int → Int
  | a :: s, b :: t => a * b + dotZ s t
  | _, _ => 0

/-- The sum of levels. -/
def sumZ (l : List Int) : Int := l.foldl (fun a b => a + b) 0

/-- A32 (R50): the saturated sum, and whether it saturated. -/
def satA32 (x : Int) : Int × Bool :=
  if x < -(2 ^ 31) then (-(2 ^ 31), true) else if 2 ^ 31 - 1 < x then (2 ^ 31 - 1, true) else (x, false)

/-- The real range of R50, for results that are not tap sums (R572). -/
def clampReal (v : Rat) : Rat × Nat :=
  if v < -131072 then (-131072, 1) else if ratN (2 ^ 31 - 1) * pow2 (-14) < v then (ratN (2 ^ 31 - 1) * pow2 (-14), 1) else (v, 0)

/-- A row whose values saturate under R572. -/
def clampRow (row : Nat) (vs : List Rat) (sat : Nat) : RowRes :=
  let cs := vs.map clampReal
  { row := row, vals := cs.map (fun p => p.1), zero := false, sat := sat + (cs.map (fun p => p.2)).foldl (fun a b => a + b) 0 }

/-- A row of binary32 results; each element whose computation clamped counts once (R570). -/
def f32Row (row : Nat) (vs : List F32) (sat : Nat) : RowRes :=
  { row := row, vals := vs.map (fun p => p.1), zero := false, sat := sat + (vs.filter (fun p => p.2)).length }

/-- A zero row. -/
def zeroRow (row n sat : Nat) : RowRes := { row := row, vals := List.replicate n 0, zero := true, sat := sat }

/-! ### Spatial parameters (R176) -/

/-- A field of the spatial block by its offset from record offset 40. -/
def Layer.hIn (l : Layer) : Nat := l.par 0 2
/-- Input map columns. -/
def Layer.wIn (l : Layer) : Nat := l.par 2 2
/-- Output map rows. -/
def Layer.hOut (l : Layer) : Nat := l.par 4 2
/-- Output map columns. -/
def Layer.wOut (l : Layer) : Nat := l.par 6 2
/-- Kernel rows. -/
def Layer.kh (l : Layer) : Nat := l.par 8 1
/-- Kernel columns. -/
def Layer.kw (l : Layer) : Nat := l.par 9 1
/-- Row stride. -/
def Layer.sh (l : Layer) : Nat := l.par 10 1 % 16
/-- Column stride. -/
def Layer.sw (l : Layer) : Nat := l.par 10 1 / 16
/-- Row dilation. -/
def Layer.dh (l : Layer) : Nat := l.par 11 1
/-- Column dilation. -/
def Layer.dw (l : Layer) : Nat := l.par 12 1
/-- Padding on the top side. -/
def Layer.padTop (l : Layer) : Nat := l.par 13 1
/-- Padding on the left side. -/
def Layer.padLeft (l : Layer) : Nat := l.par 14 1
/-- Padding on the bottom side. -/
def Layer.padBottom (l : Layer) : Nat := l.par 15 1
/-- Padding on the right side. -/
def Layer.padRight (l : Layer) : Nat := l.par 16 1
/-- Average pooling: the divisor counts padding taps. -/
def Layer.countPad (l : Layer) : Bool := bitN (l.par 17 1) 0
/-- The coordinate rule of resize and grid sample. -/
def Layer.alignCorners (l : Layer) : Bool := bitN (l.par 17 1) 1
/-- Clamp to the border. -/
def Layer.border (l : Layer) : Bool := bitN (l.par 17 1) 2
/-- Groups. -/
def Layer.groups (l : Layer) : Nat := l.par 18 2
/-- Samples. -/
def Layer.samples (l : Layer) : Nat := l.par 20 2
/-- Transposed conv output padding rows. -/
def Layer.oph (l : Layer) : Nat := l.par 22 1 % 16
/-- Transposed conv output padding columns. -/
def Layer.opw (l : Layer) : Nat := l.par 22 1 / 16

/-- Sample, row and column of an output position (R175). -/
def Layer.outPos (l : Layer) (p : Nat) : Nat × Nat × Nat :=
  (p / max 1 (l.hOut * l.wOut), p / max 1 l.wOut % max 1 l.hOut, p % max 1 l.wOut)

/-- The input row of tap (i, j) of output position p, none for a padding tap (R179). -/
def Layer.tapRow (l : Layer) (p i j : Nat) : Option Nat :=
  let q := l.outPos p
  let num : Int × Int :=
    if l.op = 0x03 then ((q.2.1 : Int) + l.padTop - i * l.dh, (q.2.2 : Int) + l.padLeft - j * l.dw)
    else ((q.2.1 : Int) * l.sh - l.padTop + i * l.dh, (q.2.2 : Int) * l.sw - l.padLeft + j * l.dw)
  let yx : Option (Int × Int) :=
    if l.op = 0x03 then
      (if num.1 % (max 1 l.sh : Nat) = 0 ∧ num.2 % (max 1 l.sw : Nat) = 0 then
        some (num.1 / (max 1 l.sh : Nat), num.2 / (max 1 l.sw : Nat)) else none)
    else some num
  match yx with
  | none => none
  | some (y, x) =>
    if 0 ≤ y ∧ y < l.hIn ∧ 0 ≤ x ∧ x < l.wIn then some ((q.1 * l.hIn + y.toNat) * l.wIn + x.toNat) else none

/-- The kernel taps in order (R181). -/
def Layer.tapList (l : Layer) : List (Nat × Nat) := (List.range l.kh).flatMap (fun i => (List.range l.kw).map (fun j => (i, j)))

/-! ### Tap sums: the array, and depthwise and grouped convolution (R58, R80, R180) -/

/-- One tap of one output row: the input row's scale value and its levels, or the values of a B16 row (R172). -/
inductive Tap where
  | codes (scale : Rat) (levels : List Int)
  | reals (vs : List Rat)
deriving DecidableEq, Repr

/-- A weight row: its scale, its levels over the whole reduction, its centre (with a constant flag) when the tensor is centred. -/
structure WRow where
  scale : Rat
  levels : List Int
  centre : Option Rat
  const : Bool
deriving DecidableEq, Repr

/-- Row n of the second operand (R56, R57). -/
def Env.wrow (e : Env) (j n : Nat) : WRow :=
  let t := e.draft.tensor j
  let p := e.levels j n
  { scale := s8Val p.1, levels := p.2,
    centre := if t.weight && t.centred then some (b16Val (e.draft.centre t n)) else none,
    const := t.weight && t.centred && e.draft.isConst t n }

/-- The level term of one tap group, and its saturation.  A zero weight scale contributes nothing and counts nothing; a constant
row's level term is skipped, but its A32 saturates as any other (R50, R56, R57).  `err`: what an undetected error adds to the exact
sum (R107).  A B16 group saturates on its real sum (log entry 115). -/
def groupTerm (w : WRow) (ws : List Int) (err : Int) : Tap → Rat × Nat
  | .codes sa ls =>
    if sa = 0 || w.scale == 0 then (0, 0)
    else
      let a := satA32 (dotZ ls ws + err)
      (if w.const then 0 else ratZ a.1 * pow2 (-14) * sa * w.scale, b2n a.2)
  | .reals vs =>
    if w.scale == 0 then (0, 0)
    else
      let a := clampReal (ratSum ((vs.zip ws).map (fun x => x.1 * ratZ x.2 * pow2 (-7))))
      (if w.const then 0 else a.1 * w.scale, a.2)

/-- The sum of a tap group's values, which a centre multiplies (R57, R58, R80). -/
def Tap.total : Tap → Rat
  | .codes sa ls => sa * ratZ (sumZ ls) * pow2 (-7)
  | .reals vs => ratSum vs

/-- The terms of the tap groups of one element: the value, and the saturations (R58, R80, R82).  `taps`: per group, none for padding;
`err`: an undetected error, by tap group. -/
def tapSum (w : WRow) (cg : Nat) (err : Option (Nat × Int)) : List (Option Tap) → Nat → Rat × Nat
  | [], _ => (0, 0)
  | g :: rest, i =>
    let r := tapSum w cg err rest (i + 1)
    match g with
    | none => r
    | some t =>
      let d : Int := match err with
        | some (k, x) => if k = i then x else 0
        | none => 0
      let prod := groupTerm w ((w.levels.drop (i * cg)).take cg) d t
      let cen : Rat := match w.centre with
        | none => 0
        | some c => c * t.total
      (r.1 + prod.1 + cen, r.2 + prod.2)

/-- The value of a padding tap (R180): 0 where no pad is named, and for a B16 input, which has no codebook to give pad_code a level (DESIGN
CHOICE, log entry 146). -/
def Env.padLevel (e : Env) (l : Layer) : Int :=
  if l.padNamed && (e.draft.tensor l.in0).type == 0 then cbLevel (e.cb l.in0) l.padCode else 0

/-- A tap from an input row, restricted to the channels of a group.  A named pad of a B16 input is 0 in every channel (DESIGN CHOICE, log entry
146). -/
def Env.tap (e : Env) (l : Layer) (group cg : Nat) (r : Option Nat) : Option Tap :=
  let coded := decide ((e.draft.tensor l.in0).type = 0)
  match r with
  | some r =>
    if coded then
      let p := e.levels l.in0 r
      some (.codes (s8Val p.1) ((p.2.drop (group * cg)).take cg))
    else some (.reals (((e.vals l.in0 r).1.drop (group * cg)).take cg))
  | none =>
    if !l.padNamed then none
    else if coded then some (.codes 1 (List.replicate cg (e.padLevel l)))
    else some (.reals (List.replicate cg 0))

/-- The input rows that an array row's tap groups draw on (R79, R179, R190, R191). -/
def Layer.arrayTaps (l : Layer) (p : Nat) : List (Option Nat) :=
  if l.op = 0x01 ∨ l.op = 0x03 then l.tapList.map (fun t => l.tapRow p t.1 t.2) else [some p]

/-- Groups of a convolution, 1 for the other array operators. -/
def Layer.groupsOf (l : Layer) : Nat := if l.op = 0x01 ∨ l.op = 0x02 then max 1 l.groups else 1

/-- The input rows of an output row's tap groups. -/
def Layer.rowTaps (l : Layer) (p : Nat) : List (Option Nat) :=
  if l.op = 0x02 then l.tapList.map (fun t => l.tapRow p t.1 t.2) else l.arrayTaps p

/-- Channels of a tap group. -/
def Env.tapChannels (e : Env) (l : Layer) : Nat :=
  if l.op = 0x02 then (e.draft.tensor l.in0).rowLen / l.groupsOf else l.k / max 1 l.taps

/-- The second operand's first row for output row p: its batch's (R191). -/
def Layer.wbase (l : Layer) (p : Nat) : Nat := p / max 1 l.mb * (if 1 < l.batches then l.n else 0)

/-- Element n of output row p, with its A32 saturations. -/
def Env.tapElem (e : Env) (l : Layer) (p n : Nat) : Rat × Nat :=
  let per := max 1 (l.n / l.groupsOf)
  let cg := e.tapChannels l
  let taps := (l.rowTaps p).map (e.tap l (if l.groupsOf = 1 then 0 else n / per) cg)
  let err := (e.upsets.find? (fun u => u.row == p && u.chan == n)).map (fun u => (u.group, u.delta))
  tapSum (e.wrow l.in1 (l.wbase p + n)) cg err taps 0

/-- The words with exponent 255 in the rows of a B16 first operand that the taps of an output row read, once for each tap (R53, R172;
log entry 116). -/
def Env.tapReads (e : Env) (l : Layer) (p : Nat) : Nat :=
  if (e.draft.tensor l.in0).type = 0 then 0
  else ((l.rowTaps p).filterMap id).foldl (fun a r => a + (e.vals l.in0 r).2) 0

/-- A row of tap sums: conv2d, transposed conv, the matmuls, QKᵀ, ×V, depthwise and grouped conv.  A centre with exponent 255 counts
once for each output row and channel (log entry 116). -/
def Env.tapsRow (e : Env) (l : Layer) (p : Nat) : RowRes :=
  let es := (List.range l.n).map (e.tapElem l p)
  let w := e.draft.tensor l.in1
  let cs := (List.range l.n).filter (fun n => w.centred && b16ReadSat (e.draft.centre w (l.wbase p + n)))
  { row := p, vals := es.map (fun x => x.1), zero := false,
    sat := (es.map (fun x => x.2)).foldl (fun a b => a + b) 0 + cs.length + e.tapReads l p }

/-! ### Pooling, space-to-depth and depth-to-space -/

/-- Pooling over the taps of a row (R186, R187, R180).  A named pad of a B16 input is 0 (DESIGN CHOICE, log entry 146). -/
def Env.poolRow (e : Env) (l : Layer) (p : Nat) : RowRes :=
  let rows := l.tapList.map (fun t => l.tapRow p t.1 t.2)
  let got := (rows.filterMap id).map (e.vals l.in0)
  let sat := (got.map (fun x => x.2)).foldl (fun a b => a + b) 0
  let ch := fun (c : Nat) => got.map (fun x => x.1.getD c 0)
  if l.op = 0x04 then
    match got with
    | [] => zeroRow p l.n 0
    | _ => clampRow p ((List.range l.n).map (fun c => match ch c with
        | [] => 0
        | v :: t => t.foldl ratMax v)) sat
  else
    let pads := rows.length - got.length
    let padV : Rat := ratZ (e.padLevel l) * pow2 (-7)
    let d := if l.countPad then l.kh * l.kw else got.length
    if d = 0 then zeroRow p l.n sat
    else
      let inv := rne32 (mkRat 1 d)
      f32Row p ((List.range l.n).map (fun c => f32Mul (rne32 (ratSum (ch c) + ratN pads * padV)) inv)) sat

/-- Space-to-depth and depth-to-space (R188, R189). -/
def Env.reshapeRow (e : Env) (l : Layer) (p : Nat) : RowRes :=
  let q := l.outPos p
  let f := max 1 l.kh
  if l.op = 0x06 then
    let src := (List.range f).flatMap (fun dy => (List.range f).map (fun dx =>
      e.vals l.in0 ((q.1 * l.hIn + (q.2.1 * f + dy)) * l.wIn + (q.2.2 * f + dx))))
    clampRow p (src.flatMap (fun x => x.1)) ((src.map (fun x => x.2)).foldl (fun a b => a + b) 0)
  else
    let src := e.vals l.in0 ((q.1 * l.hIn + q.2.1 / f) * l.wIn + q.2.2 / f)
    clampRow p ((src.1.drop ((q.2.1 % f * f + q.2.2 % f) * l.n)).take l.n) src.2

/-! ### Softmax, row norm, elementwise, curve (R127 to R129, R197 to R199) -/

/-- The curve of a layer. -/
def Env.curve (e : Env) (slot : Nat) : Curve := (lookupN e.curves slot).getD { xMin := 0, log2w := 0, y := List.replicate 65 0 }

/-- A curve at a binary32 value (R127). -/
def curveAt (c : Curve) (x : F32) : F32 :=
  let d := f32Sub x (b16Val c.xMin, false)
  let y := fun (i : Nat) => (b16Val (c.y.getD i 0) : Rat)
  if d.1 < 0 then (y 0, d.2)
  else
    let t := d.1 * pow2 (-c.log2w)
    let i := (ratFloor t).toNat
    if 64 ≤ i then (y 64, d.2) else f32Fma (t - ratN i, d.2) (f32Of (y (i + 1) - y i) false) (y i, false)

/-- Softmax over a row (R128).  A clamp in one element's exponent or in the shared sum marks every element of the row (log entry
117). -/
def Env.softmaxRow (e : Env) (l : Layer) (p : Nat) : RowRes :=
  let v := e.vals l.in0 p
  let xs := v.1.map rne32
  let m : F32 := match xs with
    | [] => (0, false)
    | x :: t => t.foldl (fun a b => if a.1 < b.1 then b else a) x
  let es := xs.map (fun x => curveAt (e.curve l.curve) (f32Sub x m))
  let s := f32Sum es
  if s.1 ≤ 0 then zeroRow p l.n (v.2 + 1 + if s.2 then es.length else 0) else f32Row p (es.map (fun x => f32Div x s)) v.2

/-- Row norm (R129, R197): sums ascending, each result rounded once. -/
def Env.normRow (e : Env) (l : Layer) (p : Nat) : RowRes :=
  let v := e.vals l.in0 p
  let xs := v.1.map rne32
  let c : F32 := (ratN (max 1 l.n), false)
  let mean := f32Div (f32Sum xs) c
  let ds := xs.map (fun x => f32Sub x mean)
  let var := f32Div (f32Sum (ds.map (fun d => f32Mul d d))) c
  let eps := l.par 0 2
  let r := f32RecipSqrt (var.1 + b16Val eps, var.2)
  let gb := l.par 2 2
  let gw := fun (n : Nat) => if gb = 0xFFFF then 0x3F80 else e.draft.blobWord gb n
  let bw := fun (n : Nat) => if l.bias then e.draft.blobWord l.biasBlob n else 0
  let outs := ds.zipIdx.map (fun d =>
    f32Add (f32Mul (f32Mul d.1 r) (b16Val (gw d.2), false)) (b16Val (bw d.2), false))
  let reads := ((List.range l.n).filter (fun n => b16ReadSat (gw n))).length
    + ((List.range l.n).filter (fun n => b16ReadSat (bw n))).length + b2n (b16ReadSat eps)
  f32Row p outs (v.2 + reads)

/-- Elementwise (R198). -/
def Env.elemRow (e : Env) (l : Layer) (p : Nat) : RowRes :=
  let a := e.vals l.in0 p
  let bc := l.par 1 1
  let b := e.vals l.in1 (if bc = 1 then 0 else p)
  let f := fun (x y : Rat) => match l.par 0 1 with
    | 0 => x + y
    | 1 => x - y
    | 2 => x * y
    | 3 => ratMax x y
    | _ => ratMin x y
  clampRow p (a.1.zipIdx.map (fun x => f x.1 (b.1.getD (if bc = 2 then 0 else x.2) 0))) (a.2 + b.2)

/-- Curve (R199). -/
def Env.curveRow (e : Env) (l : Layer) (p : Nat) : RowRes :=
  let v := e.vals l.in0 p
  f32Row p (v.1.map (fun x => curveAt (e.curve l.curve) (rne32 x))) v.2

/-! ### Resize and grid sample (R130, R200, R201) -/

/-- The input row at a place of the input map, clamped to the border where the layer says so; none outside the map (R130). -/
def Layer.mapRow (l : Layer) (sample : Nat) (r c : Int) : Option Nat :=
  let clip := fun (v : Int) (n : Nat) => if v < 0 then (0 : Int) else if (n : Int) ≤ v then (n : Int) - 1 else v
  let r2 := if l.border then clip r l.hIn else r
  let c2 := if l.border then clip c l.wIn else c
  if 0 ≤ r2 ∧ r2 < l.hIn ∧ 0 ≤ c2 ∧ c2 < l.wIn then some ((sample * l.hIn + r2.toNat) * l.wIn + c2.toNat) else none

/-- The input rows of the four taps at a source coordinate (R130). -/
def Layer.cornerRows (l : Layer) (sample : Nat) (y x : F32) : List Nat :=
  let iy := ratFloor y.1
  let ix := ratFloor x.1
  [l.mapRow sample iy ix, l.mapRow sample iy (ix + 1), l.mapRow sample (iy + 1) ix, l.mapRow sample (iy + 1) (ix + 1)].filterMap id

/-- The four taps at a source coordinate, combined (R130). -/
def Env.bilinear (e : Env) (l : Layer) (p sample : Nat) (y x : F32) : RowRes :=
  let iy := ratFloor y.1
  let ix := ratFloor x.1
  let fy : F32 := (y.1 - ratZ iy, y.2)
  let fx : F32 := (x.1 - ratZ ix, x.2)
  let gy := f32Sub (1, false) fy
  let gx := f32Sub (1, false) fx
  let at' := fun (r c : Int) => match l.mapRow sample r c with
    | some k => e.vals l.in0 k
    | none => (List.replicate l.n 0, 0)
  let taps := [(f32Mul gy gx, at' iy ix), (f32Mul gy fx, at' iy (ix + 1)), (f32Mul fy gx, at' (iy + 1) ix),
    (f32Mul fy fx, at' (iy + 1) (ix + 1))]
  let outs := (List.range l.n).map (fun c =>
    taps.foldl (fun acc t => f32Fma t.1 (rne32 (t.2.1.getD c 0)) acc) ((0, false) : F32))
  f32Row p outs ((taps.map (fun t => t.2.2)).foldl (fun a b => a + b) 0)

/-- A source coordinate of bilinear resize (R200). -/
def resizeCoord (align : Bool) (nIn nOut o : Nat) : F32 :=
  if align then
    (if nOut = 1 then (0, false) else f32Mul (ratN o, false) (rne32 (mkRat ((nIn : Int) - 1) (nOut - 1))))
  else f32Sub (f32Mul (ratN o + mkRat 1 2, false) (rne32 (mkRat nIn nOut))) (mkRat 1 2, false)

/-- Bilinear resize (R200). -/
def Env.resizeRow (e : Env) (l : Layer) (p : Nat) : RowRes :=
  let q := l.outPos p
  e.bilinear l p q.1 (resizeCoord l.alignCorners l.hIn l.hOut q.2.1) (resizeCoord l.alignCorners l.wIn l.wOut q.2.2)

/-- A source coordinate of grid sample (R201). -/
def gridCoord (align : Bool) (n : Nat) (g : Rat) : F32 :=
  if align then f32Mul (rne32 ((g + 1) * (ratN n - 1))) (mkRat 1 2, false)
  else
    let a := rne32 ((g + 1) * ratN n)
    f32Of ((a.1 - 1) * mkRat 1 2) a.2

/-- Where a grid row points: the input sample and the source coordinate; none for a sample that does not exist (R201). -/
def Env.gridAt (e : Env) (l : Layer) (p : Nat) : Option (Nat × F32 × F32) :=
  let ws := e.words l.in2 p
  let z := b16Val (ws.getD 2 0)
  let three := (e.draft.tensor l.in2).rowLen == 3
  let sInt : Int := if three then (if z < 0 then -(ratFloor (-z)) else ratFloor z) else (l.outPos p).1
  if 0 ≤ sInt ∧ sInt < l.samples then
    some (sInt.toNat, gridCoord l.alignCorners l.hIn (b16Val (ws.getD 1 0)), gridCoord l.alignCorners l.wIn (b16Val (ws.getD 0 0)))
  else none

/-- Grid sample (R201), with its index event. -/
def Env.gridRow (e : Env) (l : Layer) (p : Nat) : RowRes × Nat :=
  let reads := ((e.words l.in2 p).filter b16ReadSat).length
  match e.gridAt l p with
  | some (sample, y, x) =>
    let r := e.bilinear l p sample y x
    ({ r with sat := r.sat + reads }, 0)
  | none => (zeroRow p l.n reads, 1)

/-! ### BEV gather and scatter (R131, R202 to R204) -/

/-- Index i of the third input: 32 bits, little-endian, in the row that holds it (R202). -/
def Env.index (e : Env) (l : Layer) (i : Nat) : Nat :=
  let t := e.draft.tensor l.in2
  leNat (e.bytes (e.rowDie l.in2 (i / t.indices)) l.in2 (i / t.indices * t.pitch + 4 * (i % t.indices)) 4)

/-- Gather: one row. -/
def Env.gatherRow (e : Env) (l : Layer) (p : Nat) : RowRes × Nat :=
  let i := e.index l p
  if i < (e.draft.tensor l.in0).rows then
    let v := e.vals l.in0 i
    (clampRow p v.1 v.2, 0)
  else (zeroRow p l.n 0, 1)

/-- Scatter: the combined value of the sources of a destination row (R131). -/
def Env.scatterRow (e : Env) (l : Layer) (srcs : List Nat) (p : Nat) : RowRes :=
  let vs := srcs.map (e.vals l.in0)
  let sat := (vs.map (fun v => v.2)).foldl (fun a b => a + b) 0
  let combine := l.par 4 1 % 4
  let zip := fun (f : Rat → Rat → Rat) (a b : List Rat) => a.zipIdx.map (fun x => f x.1 (b.getD x.2 0))
  match vs with
  | [] => zeroRow p l.n 0
  | v :: t =>
    let r := if combine = 0 then (t.getLast?.getD v).1
      else t.foldl (fun a b => zip (if combine = 1 then ratMax else fun x y => x + y) a b.1) v.1
    clampRow p r sat

/-- Scatter: every row it writes (R131, R203). -/
def Env.scatter (e : Env) (l : Layer) : OpRes :=
  let n := l.par 0 4
  let idx := (List.range n).map (e.index l)
  let rows := (e.draft.tensor l.out).rows
  let clear := bitN (l.par 4 1) 2
  let dst := (List.range rows).filterMap (fun p =>
    let srcs := (idx.zipIdx.filter (fun x => x.1 == p)).map (fun x => x.2)
    if srcs.isEmpty then (if clear then some (zeroRow p l.n 0) else none) else some (e.scatterRow l srcs p))
  { rows := dst, idx := (idx.filter (fun i => decide (rows ≤ i))).length }

/-! ### A layer's rows on one die -/

/-- The output rows this die computes: of an array layer in a Whole draft, the rows of its M ranges (R90); of a Reed layer, the
rows its own copy holds (R125). -/
def Env.myRows (e : Env) (l : Layer) (n : Nat) : List Nat :=
  if !e.draft.whole then List.range n
  else if l.onArray then
    let mine := match e.die with | .a => 0 | .b => 1
    (List.range n).filter (fun p => l.tileDie (p % max 1 l.mb / max 1 (l.me l.mb)) 0 == mine)
  else (List.range n).filter (fun p => (e.holders false l.out p).contains e.die)

/-- The rows of the first operand that an output row draws on (R79, R179, R186 to R189, R200 to R202). -/
def Env.rowsFor (e : Env) (l : Layer) (p : Nat) : List Nat :=
  let q := l.outPos p
  let f := max 1 l.kh
  match l.op with
  | 0x04 => l.tapList.filterMap (fun t => l.tapRow p t.1 t.2)
  | 0x05 => l.tapList.filterMap (fun t => l.tapRow p t.1 t.2)
  | 0x06 => (List.range f).flatMap (fun dy => (List.range f).map (fun dx => (q.1 * l.hIn + (q.2.1 * f + dy)) * l.wIn + (q.2.2 * f + dx)))
  | 0x07 => [(q.1 * l.hIn + q.2.1 / f) * l.wIn + q.2.2 / f]
  | 0x0B => [p]
  | 0x0D => [p]
  | 0x0E => [p]
  | 0x0F => [p]
  | 0x10 => l.cornerRows q.1 (resizeCoord l.alignCorners l.hIn l.hOut q.2.1) (resizeCoord l.alignCorners l.wIn l.wOut q.2.2)
  | 0x11 => ((e.gridAt l p).map (fun x => l.cornerRows x.1 x.2.1 x.2.2)).getD []
  | 0x13 => [e.index l p]
  | _ => (l.rowTaps p).filterMap id

/-- The rows of the second operand that an output row draws on (R191, R198). -/
def Layer.rowsFor1 (l : Layer) (p : Nat) : List Nat :=
  if l.op = 0x0E then (if l.par 1 1 = 1 then [0] else [p]) else (List.range l.n).map (fun n => l.wbase p + n)

/-- The rows of tensor j that a layer reads on this die, each once: those its output rows draw on, the sources that scatter reaches, every row
for Finish (R62, R131, R133, R134, R207). -/
def Env.readRows (e : Env) (l : Layer) (j : Nat) : List Nat :=
  let t := e.draft.tensor j
  let a := if l.in0 ≠ j then [] else if l.op = 0x12 then
      (List.range (l.par 0 4)).filter (fun i => decide (e.index l i < (e.draft.tensor l.out).rows))
    else (e.myRows l l.m).flatMap (e.rowsFor l)
  let b := if l.in1 ≠ j then [] else (e.myRows l l.m).flatMap l.rowsFor1
  if l.onFinish then List.range t.rows else ((a ++ b).filter (fun r => decide (r < t.rows))).foldl addSet []

/-- One row with its index event. -/
def Env.rowOf (e : Env) (l : Layer) (p : Nat) : RowRes × Nat :=
  match l.op with
  | 0x04 => (e.poolRow l p, 0)
  | 0x05 => (e.poolRow l p, 0)
  | 0x06 => (e.reshapeRow l p, 0)
  | 0x07 => (e.reshapeRow l p, 0)
  | 0x0B => (e.softmaxRow l p, 0)
  | 0x0D => (e.normRow l p, 0)
  | 0x0E => (e.elemRow l p, 0)
  | 0x0F => (e.curveRow l p, 0)
  | 0x10 => (e.resizeRow l p, 0)
  | 0x11 => e.gridRow l p
  | 0x13 => e.gatherRow l p
  | _ => (e.tapsRow l p, 0)

/-- The rows of an array or Reed layer that this die computes. -/
def Env.layerRows (e : Env) (l : Layer) : OpRes :=
  if l.op = 0x12 then
    let r := e.scatter l
    if e.draft.whole then { r with rows := r.rows.filter (fun x => (e.holders false l.out x.row).contains e.die) } else r
  else
    let rs := (e.myRows l l.m).map (e.rowOf l)
    { rows := rs.map (fun x => x.1), idx := (rs.map (fun x => x.2)).foldl (fun a b => a + b) 0 }

/-- How many rows an array or Reed layer writes at most. -/
def Draft.rowsOf (d : Draft) (l : Layer) : Nat := max l.m (d.tensor l.out).rows

/-- Bias and rectification (R571); row norm's bias is already in.  A bias word with exponent 255 counts once for each output row and
channel (log entry 116). -/
def Env.finishRow (e : Env) (l : Layer) (r : RowRes) : RowRes :=
  if r.zero then r
  else
    let useBias := l.bias && l.op != 0x0D
    let bw := fun (n : Nat) => e.draft.blobWord l.biasBlob n
    let v1 := if useBias then r.vals.zipIdx.map (fun x => x.1 + b16Val (bw x.2)) else r.vals
    let reads := if useBias then ((List.range r.vals.length).filter (fun n => b16ReadSat (bw n))).length else 0
    { r with vals := if l.rectify then v1.map (fun v => ratMax v 0) else v1, sat := r.sat + reads }

/-- What writing a layer's rows gives: the memories, the sum of row CRCs, and the saturation count (R66, R135). -/
abbrev Written := Env × Nat × Nat

/-- Code or round one row, and write it to its holders (R59 to R65, R54, R135). -/
def Env.writeRow (array : Bool) (l : Layer) (w : Written) (r0 : RowRes) : Written :=
  let e := w.1
  let r := e.finishRow l r0
  let t := e.draft.tensor l.out
  let hs := e.holders array l.out r.row
  if t.heldB16 then
    let b := if r.zero then (r.vals.map (fun _ => 0), 0) else b16Row r.vals
    (hs.foldl (fun x d => x.putWords d l.out r.row b.1) e, w.2.1 + rowCrcB16 r.row b.1, w.2.2 + r.sat + b.2)
  else
    let cb := e.cb l.out
    let c : CodedRow := if r.zero then (0, r.vals.map (fun _ => cbZero cb), 0)
      else codeRow cb (e.kappa l.out) (e.ditherFor l.out l.index) r.row r.vals
    (hs.foldl (fun x d => x.putCoded d l.out r.row c.1 c.2.1) e, w.2.1 + rowCrcCoded cb r.row c, w.2.2 + r.sat + c.2.2)

/-- Run an array or Reed layer on this die: the memories after it, its share of the layer digest, its saturation count, and the
Reed index events. -/
def Env.runLayer (e : Env) (l : Layer) : Written × Nat :=
  let res := e.layerRows l
  let w := res.rows.foldl (Env.writeRow l.onArray l) (e, 0, 0)
  ((w.1, w.2.1 % 2 ^ 32, w.2.2), res.idx)

/-! ### Finish (R133, R134, R205, R206) -/

/-- The winning channel of a list of comparable values: the lowest among the largest. -/
def argmaxAt : List Rat → Nat → Nat × Rat → Nat × Rat
  | [], _, best => best
  | v :: t, i, best => argmaxAt t (i + 1) (if best.2 < v then (i, v) else best)

/-- The entry for channels [lo, lo + len) of input row p (R133). -/
def Env.argmaxEntry (e : Env) (l : Layer) (p lo len : Nat) : List Byte :=
  let t := e.draft.tensor l.in0
  if t.type = 0 then
    let c := e.coded l.in0 p
    let part := (c.2.drop lo).take len
    if c.1 = 0 then leBytes 2 0 ++ leBytes 1 (cbZero (e.cb l.in0)) ++ leBytes 1 0
    else
      let ls := part.map (fun x => ratZ (cbLevel (e.cb l.in0) x))
      let w := argmaxAt (ls.drop 1) 1 (0, ls.getD 0 0)
      leBytes 2 w.1 ++ leBytes 1 (part.getD w.1 0) ++ leBytes 1 c.1
  else
    let vs := (((e.words l.in0 p).drop lo).take len).map b16Val
    let w := argmaxAt (vs.drop 1) 1 (0, vs.getD 0 0)
    leBytes 2 w.1 ++ leBytes 1 255 ++ leBytes 1 0

/-- The side of an argmax group square: √groups. -/
def sideOf (g : Nat) : Nat := if g = 16 then 4 else if g = 4 then 2 else 1

/-- All argmax entries with their output rows, in output row order (R205). -/
def Env.argmax (e : Env) (l : Layer) : List (Nat × List Byte) :=
  let g := max 1 (l.par 0 1)
  let f := sideOf g
  let h := l.par 2 2
  let w := l.par 4 2
  let len := l.k / g
  if g = 1 then (List.range l.m).map (fun p => (p, e.argmaxEntry l p 0 l.k))
  else (List.range (l.m * g)).map (fun o =>
    let s := o / max 1 (h * f * (w * f))
    let yo := o / max 1 (w * f) % max 1 (h * f)
    let xo := o % max 1 (w * f)
    (o, e.argmaxEntry l ((s * h + yo / f) * w + xo / f) ((yo % f * f + xo % f) * len) len))

/-- A candidate of top-k: value, row, channel, code and scale. -/
abbrev Cand := Rat × Nat × Nat × Nat × Nat

/-- The candidates of a row, in channel order. -/
def Env.cands (e : Env) (l : Layer) (p : Nat) : List Cand :=
  let t := e.draft.tensor l.in0
  if t.type = 0 then
    let c := e.coded l.in0 p
    let vs := (e.vals l.in0 p).1
    c.2.zipIdx.map (fun x => (vs.getD x.2 0, p, x.2, x.1, c.1))
  else (e.words l.in0 p).zipIdx.map (fun x => (b16Val x.1, p, x.2, 255, 0))

/-- The index of the first largest candidate. -/
def bestCand : List Cand → Nat → Nat × Rat → Nat
  | [], _, b => b.1
  | c :: t, i, b => bestCand t (i + 1) (if b.2 < c.1 then (i, c.1) else b)

/-- The k largest, by descending value, then row, then channel (R134). -/
def topK : Nat → List Cand → List Cand
  | 0, _ => []
  | k + 1, l =>
    match l with
    | [] => []
    | c :: t =>
      let i := bestCand t 1 (0, c.1)
      (l.getD i c) :: topK k (l.eraseIdx i)

/-- A record of R134. -/
def topRecord (c : Cand) : List Byte :=
  leBytes 4 c.2.1 ++ leBytes 2 c.2.2.1 ++ leBytes 1 c.2.2.2.1 ++ leBytes 1 c.2.2.2.2 ++ leBytes 2 (b16Round c.1).1 ++ leBytes 2 0

/-- The records of top-k with their output rows (R206). -/
def Env.topk (e : Env) (l : Layer) : List (Nat × List Byte) :=
  let count := l.par 0 2
  let perRow := bitN (l.par 2 1) 0
  let thrOn := bitN (l.par 2 1) 1
  let thr := b16Val (l.par 4 2)
  let ok := fun (cs : List Cand) => if thrOn then cs.filter (fun c => decide (thr < c.1)) else cs
  if perRow then (List.range l.m).flatMap (fun p =>
    let sel := (topK count (ok (e.cands l p))).map topRecord
    (sel ++ List.replicate (count - sel.length) (List.replicate 12 (0 : Byte))).zipIdx.map (fun (x : List Byte × Nat) => (p * count + x.2, x.1)))
  else (((topK count (ok ((List.range l.m).flatMap (e.cands l)))).map topRecord).zipIdx).map (fun x => (x.2, x.1))

/-- Write entries or records of a raw output tensor on this die's holders. -/
def Env.putRecords (e : Env) (l : Layer) (rs : List (Nat × List Byte)) : Env :=
  let t := e.draft.tensor l.out
  rs.foldl (fun x r => (x.holders false l.out r.1).foldl (fun y d => y.put d l.out (r.1 * t.pitch) r.2) x) e

/-- The bytes of a result section and its item count (R137, R138, R207).  `written`: records of a top-k layer. -/
def Env.section (e : Env) (j : Nat) (written : Nat) : Nat × List Byte × Nat :=
  let t := e.draft.tensor j
  let wl := e.draft.layer (e.draft.writer j)
  let byLayer := e.draft.layers.any (fun l => l.out == j)
  if t.type = 0 then
    let pitch := if t.takesFirstPass then alignUp (codeBytes t.format t.rowLen) 4 else t.pitch
    let tp : Tensor := { t with rowPitch := pitch, firstPass := false, kappa := 120 }
    let rows := (List.range t.rows).map (e.coded j)
    let codes := rows.flatMap (fun r => codedRowBytes tp (e.cb j) false r.2)
    let scaleOff := alignUp (t.rows * pitch) 64
    (0, codes ++ List.replicate (scaleOff - codes.length) 0 ++ rows.flatMap (fun r => leBytes 1 r.1), t.rows)
  else
    let all := (List.range t.rows).flatMap (fun r => e.bytes (e.rowDie j r) j (r * t.pitch) t.pitch)
    if t.type = 1 then (4, all, t.rows)
    else if byLayer && wl.op == 0x14 then (1, all, t.rows)
    else if byLayer && wl.op == 0x15 then
      (if bitN (wl.par 2 1) 0 then (2, all, t.rows) else (2, (all.take (written * t.pitch)), written))
    else (3, all, t.rows)

/-- Pack sections after the table (R137): entries and payload from an offset on. -/
def packSections : Nat → Nat → List (Nat × List Byte × Nat) → List Byte × List Byte
  | _, _, [] => ([], [])
  | i, off, s :: t =>
    let start := alignUp off 64
    let n := s.2.1.length
    let rest := packSections (i + 1) (start + n) t
    (leBytes 1 s.1 ++ leBytes 1 0 ++ leBytes 2 i ++ leBytes 4 start ++ leBytes 4 n ++ leBytes 4 (if n = 0 then 0 else s.2.2) ++ rest.1,
     List.replicate (start - off) 0 ++ s.2.1 ++ rest.2)

/-- A step's result set, its qualifier bits still 0 (R137). -/
def Env.resultSet (e : Env) (written : List (Nat × Nat)) (batchTime : Dword) (stepDigest : Nat) : List Byte :=
  let secs := e.draft.resultTensors.map (fun j => e.section j ((lookupN written (e.draft.writer j)).getD 0))
  let p := packSections 0 (32 + 16 * secs.length) secs
  let total := 32 + p.1.length + p.2.length
  leBytes 2 1 ++ leBytes 2 secs.length ++ leBytes 4 total ++ leBytes 8 e.counter.toNat ++ leBytes 8 batchTime.toNat
    ++ leBytes 4 stepDigest ++ leBytes 4 0 ++ p.1 ++ p.2

end Machine

end Sys2Proof
end

