-- ==== Sys2Proof/Machine/Crypto.lean ====
section
/-! DEFINITION. SHA-256 (FIPS 180-4) and AES-256-GCM (FIPS 197, NIST SP 800-38D), which R3 names and the other files use. -/

namespace Sys2Proof

namespace Machine

/-! ### SHA-256 -/

/-- The 64 round constants, constant t at bit 32 t. -/
def shaConstants : Nat :=
  0xc67178f2bef9a3f7a4506ceb90befffa8cc7020884c8781478a5636f748f82ee682e6ff35b9cca4f4ed8aa4a391c0cb334b0bcb52748774c1e376c0819a4c116106aa070f40e3585d6990624d192e819c76c51a3c24b8b70a81a664ba2bfe8a192722c8581c2c92e766a0abb650a735453380d134d2c6dfc2e1b213827b70a851429296706ca6351d5a79147c6e00bf3bf597fc7b00327c8a831c66d983e515276f988da5cb0a9dc4a7484aa2de92c6f240ca1cc0fc19dc6efbe4786e49b69c1c19bf1749bdc06a780deb1fe72be5d74550c7dc3243185be12835b01d807aa98ab1c5ed5923f82a459f111f13956c25be9b5dba5b5c0fbcf71374491428a2f98

/-- The eight working words. -/
structure Sha where
  a : Word
  b : Word
  c : Word
  d : Word
  e : Word
  f : Word
  g : Word
  h : Word
deriving DecidableEq, Repr

/-- The initial hash value. -/
def Sha.start : Sha :=
  { a := 0x6a09e667#32, b := 0xbb67ae85#32, c := 0x3c6ef372#32, d := 0xa54ff53a#32, e := 0x510e527f#32, f := 0x9b05688c#32
    g := 0x1f83d9ab#32, h := 0x5be0cd19#32 }

/-- Three rotations combined. -/
def rot3 (x : Word) (i j k : Nat) : Word := x.rotateRight i ^^^ x.rotateRight j ^^^ x.rotateRight k

/-- Two rotations and a shift combined. -/
def rotShift (x : Word) (i j k : Nat) : Word := x.rotateRight i ^^^ x.rotateRight j ^^^ (x >>> k)

/-- One round with its constant and its word of the message schedule. -/
def Sha.round (s : Sha) (k w : Word) : Sha :=
  let t1 := s.h + rot3 s.e 6 11 25 + ((s.e &&& s.f) ^^^ (~~~s.e &&& s.g)) + k + w
  let t2 := rot3 s.a 2 13 22 + ((s.a &&& s.b) ^^^ (s.a &&& s.c) ^^^ (s.b &&& s.c))
  { a := t1 + t2, b := s.a, c := s.b, d := s.c, e := s.d + t1, f := s.e, g := s.f, h := s.g }

/-- The word of the schedule sixteen places after the first of a window of sixteen. -/
def shaNext (w : List Word) : Word := rotShift (w.getD 14 0) 17 19 10 + w.getD 9 0 + rotShift (w.getD 1 0) 7 18 3 + w.getD 0 0

/-- n rounds from round t on, over a window of the message schedule. -/
def Sha.rounds : Nat → Nat → List Word → Sha → Sha
  | 0, _, _, s => s
  | n + 1, t, w, s => Sha.rounds n (t + 1) (w.tail ++ [shaNext w]) (s.round (BitVec.ofNat 32 (shaConstants >>> (32 * t))) (w.getD 0 0))

/-- Bytes as one big-endian number. -/
def beNat (bs : List Byte) : Nat := bs.foldl (fun n b => n * 256 + b.toNat) 0

/-- A number as n big-endian bytes. -/
def beBytes (n v : Nat) : List Byte := (leBytes n v).reverse

/-- One block of 64 bytes. -/
def Sha.block (s : Sha) (bs : List Byte) : Sha :=
  let r := Sha.rounds 64 0 ((List.range 16).map (fun i => BitVec.ofNat 32 (beNat ((bs.drop (4 * i)).take 4)))) s
  { a := s.a + r.a, b := s.b + r.b, c := s.c + r.c, d := s.d + r.d, e := s.e + r.e, f := s.f + r.f, g := s.g + r.g, h := s.h + r.h }

/-- n blocks in order. -/
def Sha.blocks : Nat → List Byte → Sha → Sha
  | 0, _, s => s
  | n + 1, bs, s => Sha.blocks n (bs.drop 64) (s.block (bs.take 64))

/-- The digest as its 32 bytes, first word first, most significant byte first. -/
def Sha.bytes (s : Sha) : List Byte := [s.a, s.b, s.c, s.d, s.e, s.f, s.g, s.h].flatMap (fun w => beBytes 4 w.toNat)

/-- SHA-256 of bytes, as the 32 bytes of its digest. -/
def shaBytes (bs : List Byte) : List Byte :=
  let n := bs.length
  let pad := 0x80#8 :: List.replicate ((119 - n % 64) % 64) 0#8 ++ beBytes 8 (8 * n)
  (Sha.blocks ((n + 72) / 64) (bs ++ pad) Sha.start).bytes

/-- SHA-256 of bytes; byte 0 of the digest is the least significant of the result, as records hold it. -/
def sha256 (bs : List Byte) : BitVec 256 := BitVec.ofNat 256 (leNat (shaBytes bs))

/-! ### AES-256 -/

/-- The S-box, its value at x at bit 8 x. -/
def sBoxes : Nat :=
  0x16bb54b00f2d99416842e6bf0d89a18cdf2855cee9871e9b948ed9691198f8e19e1dc186b95735610ef6034866b53e708a8bbd4b1f74dde8c6b4a61c2e2578ba08ae7a65eaf4566ca94ed58d6d37c8e779e4959162acd3c25c2406490a3a32e0db0b5ede14b8ee4688902a22dc4f816073195d643d7ea7c41744975fec130ccdd2f3ff1021dab6bcf5389d928f40a351a89f3c507f02f94585334d43fbaaefd0cf584c4a39becb6a5bb1fc20ed00d153842fe329b3d63b52a05a6e1b1a2c830975b227ebe28012079a059618c323c7041531d871f1e5a534ccf73f362693fdb7c072a49cafa2d4adf04759fa7dc982ca76abd7fe2b670130c56f6bf27b777c63

/-- The S-box. -/
def sBox (x : Byte) : Byte := BitVec.ofNat 8 (sBoxes >>> (8 * x.toNat))

/-- Multiplication by x in the field of AES. -/
def xTime (b : Byte) : Byte := (b <<< 1) ^^^ (if b.getLsbD 7 then 0x1B#8 else 0#8)

/-- Bytes added in the field, place by place. -/
def xorBytes (a b : List Byte) : List Byte := (a.zip b).map (fun p => p.1 ^^^ p.2)

/-- The key schedule: words i on, each of four bytes, the last one first in the list; n more of them. -/
def keyWords : Nat → Nat → Byte → List (List Byte) → List (List Byte)
  | 0, _, _, ws => ws
  | n + 1, i, rcon, ws =>
    let last := ws.getD 0 []
    let t := if i % 8 = 0 then xorBytes ((last.drop 1 ++ last.take 1).map sBox) [rcon, 0, 0, 0]
      else if i % 8 = 4 then last.map sBox else last
    keyWords n (i + 1) (if i % 8 = 0 then xTime rcon else rcon) (xorBytes (ws.getD 7 []) t :: ws)

/-- The fifteen round keys of a 32-byte key. -/
def roundKeys (key : List Byte) : List (List Byte) :=
  let ws := (keyWords 52 8 1#8 ((List.range 8).map (fun i => (key.drop (4 * i)).take 4)).reverse).reverse
  (List.range 15).map (fun r => ((ws.drop (4 * r)).take 4).flatten)

/-- The rows of the state are shifted. -/
def shiftRows (s : List Byte) : List Byte := (List.range 16).map (fun i => s.getD ((i + 4 * (i % 4)) % 16) 0)

/-- One byte of a mixed column. -/
def mixByte (c : List Byte) (r : Nat) : Byte :=
  let x := fun (k : Nat) => c.getD ((r + k) % 4) 0
  xTime (x 0) ^^^ (xTime (x 1) ^^^ x 1) ^^^ x 2 ^^^ x 3

/-- The columns of the state are mixed. -/
def mixColumns (s : List Byte) : List Byte :=
  (List.range 4).flatMap (fun c => (List.range 4).map (fun r => mixByte ((s.drop (4 * c)).take 4) r))

/-- The rounds of a block: the last one mixes no columns. -/
def aesRounds : List (List Byte) → List Byte → List Byte
  | [], s => s
  | [k], s => xorBytes (shiftRows (s.map sBox)) k
  | k :: ks, s => aesRounds ks (xorBytes (mixColumns (shiftRows (s.map sBox))) k)

/-- A block of 16 bytes encrypted under round keys. -/
def aesBlock (ks : List (List Byte)) (block : List Byte) : List Byte := aesRounds ks.tail (xorBytes block (ks.headD []))

/-! ### GCM -/

/-- The product of two elements of the field of GHASH: n more bits of the first, from the most significant on. -/
def ghashMul : Nat → Nat → Nat → Nat → Nat
  | 0, _, _, z => z
  | n + 1, x, v, z =>
    ghashMul n x (if v % 2 = 1 then (v / 2) ^^^ (0xE1 <<< 120) else v / 2) (if x.testBit n then z ^^^ v else z)

/-- GHASH over whole blocks of 16 bytes, n of them. -/
def ghash (h : Nat) : Nat → List Byte → Nat → Nat
  | 0, _, y => y
  | n + 1, bs, y => ghash h n (bs.drop 16) (ghashMul 128 (y ^^^ beNat (bs.take 16)) h 0)

/-- Zeros up to a whole block. -/
def padBlock (bs : List Byte) : List Byte := bs ++ List.replicate ((16 - bs.length % 16) % 16) 0

/-- The key stream: n blocks from a counter value on. -/
def keyStream (ks : List (List Byte)) (iv : List Byte) (n : Nat) : List Byte :=
  (List.range n).flatMap (fun i => aesBlock ks (iv ++ beBytes 4 (i + 2)))

/-- AES-256-GCM with a 12-byte nonce: the plaintext, where the tag verifies. -/
def gcmOpen (key iv aad cipher tag : List Byte) : Option (List Byte) :=
  let ks := roundKeys key
  let h := beNat (aesBlock ks (List.replicate 16 0))
  let text := padBlock aad ++ padBlock cipher ++ beBytes 8 (8 * aad.length) ++ beBytes 8 (8 * cipher.length)
  let mac := xorBytes (beBytes 16 (ghash h (text.length / 16) text 0)) (aesBlock ks (iv ++ beBytes 4 1))
  if mac = tag then some (xorBytes cipher (keyStream ks iv ((cipher.length + 15) / 16))) else none

end Machine

end Sys2Proof
end

