-- ==== Sys2Proof/Machine/Slh.lean ====
section
/-! DEFINITION. SLH-DSA-SHA2-128s and SLH-DSA-SHA2-128f (FIPS 205, which R3 names): keys, signatures and their verification (log entry 11). -/

namespace Sys2Proof

namespace Machine

/-- A parameter set with a security level of 16 bytes: the layers of the hypertree, the height of one layer, and the height and number of the
FORS trees. -/
structure SlhSet where
  layers : Nat
  height : Nat
  forsHeight : Nat
  forsTrees : Nat
deriving DecidableEq, Repr

/-- SLH-DSA-SHA2-128s: signatures of 7,856 bytes. -/
def slh128s : SlhSet := { layers := 7, height := 9, forsHeight := 12, forsTrees := 14 }

/-- SLH-DSA-SHA2-128f: signatures of 17,088 bytes. -/
def slh128f : SlhSet := { layers := 22, height := 3, forsHeight := 6, forsTrees := 33 }

/-- The chains of a WOTS+ key. -/
def wotsLen : Nat := 35

/-- Bytes of the FORS part of a signature. -/
def SlhSet.forsBytes (p : SlhSet) : Nat := 16 * p.forsTrees * (p.forsHeight + 1)

/-- Bytes of the signature of one layer. -/
def SlhSet.layerBytes (p : SlhSet) : Nat := 16 * (wotsLen + p.height)

/-- Bytes of a signature. -/
def SlhSet.sigBytes (p : SlhSet) : Nat := 16 + p.forsBytes + p.layers * p.layerBytes

/-- A compressed address: layer, tree, type and three words. -/
def slhAddr (layer tree type a b c : Nat) : List Byte :=
  beBytes 1 layer ++ beBytes 8 tree ++ beBytes 1 type ++ beBytes 4 a ++ beBytes 4 b ++ beBytes 4 c

/-- The keyed hash of an address and a message, cut to 16 bytes: F, H, T_l and PRF of FIPS 205, 11.2.1. -/
def slhHash (pkSeed addr msg : List Byte) : List Byte := (shaBytes (pkSeed ++ List.replicate 48 0 ++ addr ++ msg)).take 16

/-- HMAC-SHA-256 with a key no longer than a block. -/
def hmac (key msg : List Byte) : List Byte :=
  let k := key ++ List.replicate (64 - key.length) 0
  shaBytes (k.map (fun b => b ^^^ 0x5C#8) ++ shaBytes (k.map (fun b => b ^^^ 0x36#8) ++ msg))

/-- The message digest H_msg, in whole blocks of MGF1. -/
def slhDigest (r pk msg : List Byte) : List Byte :=
  let seed := r ++ pk.take 16 ++ shaBytes (r ++ pk ++ msg)
  shaBytes (seed ++ beBytes 4 0) ++ shaBytes (seed ++ beBytes 4 1)

/-- n digits of b bits each, the most significant first. -/
def digits (bs : List Byte) (b n : Nat) : List Nat := (List.range n).map (fun i => beNat bs >>> (8 * bs.length - b * (i + 1)) % 2 ^ b)

/-- The i-th value of 16 bytes. -/
def slhNode (bs : List Byte) (i : Nat) : List Byte := (bs.drop (16 * i)).take 16

/-! ### Merkle trees -/

/-- The node at a height of a tree, from its leaves; `join` takes the height and place of the node above and the two nodes below. -/
def merkle (leaf : Nat → List Byte) (join : Nat → Nat → List Byte → List Byte → List Byte) : Nat → Nat → List Byte
  | 0, i => leaf i
  | z + 1, i => join (z + 1) i (merkle leaf join z (2 * i)) (merkle leaf join z (2 * i + 1))

/-- The authentication path of a leaf, concatenated. -/
def authPath (leaf : Nat → List Byte) (join : Nat → Nat → List Byte → List Byte → List Byte) (height i : Nat) : List Byte :=
  (List.range height).flatMap (fun j => merkle leaf join j ((i >>> j) ^^^ 1))

/-- The root that a leaf and its authentication path give: n more levels from height z on. -/
def climb (join : Nat → Nat → List Byte → List Byte → List Byte) (path : List Byte) : Nat → Nat → Nat → List Byte → List Byte
  | 0, _, _, node => node
  | n + 1, z, i, node =>
    climb join path n (z + 1) (i / 2)
      (if i % 2 = 0 then join (z + 1) (i / 2) node (slhNode path z) else join (z + 1) (i / 2) (slhNode path z) node)

/-! ### WOTS+ -/

/-- n steps of a chain from step i on. -/
def wotsChain (f : Nat → List Byte → List Byte) : Nat → Nat → List Byte → List Byte
  | 0, _, x => x
  | n + 1, i, x => wotsChain f n (i + 1) (f i x)

/-- The digits that a WOTS+ key signs: the message's and its checksum's. -/
def wotsDigits (msg : List Byte) : List Nat :=
  let m := digits msg 4 32
  m ++ digits (beBytes 2 ((m.foldl (fun n x => n + (15 - x)) 0) * 16)) 4 3

/-- The place of a WOTS+ key: layer, tree and leaf. -/
structure WotsKey where
  layer : Nat
  tree : Nat
  leaf : Nat
deriving DecidableEq, Repr

/-- A step of a chain of a key. -/
def WotsKey.step (k : WotsKey) (pkSeed : List Byte) (chain i : Nat) (x : List Byte) : List Byte :=
  slhHash pkSeed (slhAddr k.layer k.tree 0 k.leaf chain i) x

/-- The secret start of a chain of a key. -/
def WotsKey.secret (k : WotsKey) (skSeed pkSeed : List Byte) (chain : Nat) : List Byte :=
  slhHash pkSeed (slhAddr k.layer k.tree 5 k.leaf chain 0) skSeed

/-- The public key of the ends of its chains. -/
def WotsKey.compress (k : WotsKey) (pkSeed ends : List Byte) : List Byte := slhHash pkSeed (slhAddr k.layer k.tree 1 k.leaf 0 0) ends

/-- The public key. -/
def WotsKey.public (k : WotsKey) (skSeed pkSeed : List Byte) : List Byte :=
  k.compress pkSeed ((List.range wotsLen).flatMap (fun c => wotsChain (k.step pkSeed c) 15 0 (k.secret skSeed pkSeed c)))

/-- The signature of a message of 16 bytes. -/
def WotsKey.sign (k : WotsKey) (skSeed pkSeed msg : List Byte) : List Byte :=
  (wotsDigits msg).zipIdx.flatMap (fun x => wotsChain (k.step pkSeed x.2) x.1 0 (k.secret skSeed pkSeed x.2))

/-- The public key that a signature of a message gives. -/
def WotsKey.recover (k : WotsKey) (pkSeed msg sig : List Byte) : List Byte :=
  k.compress pkSeed ((wotsDigits msg).zipIdx.flatMap (fun x => wotsChain (k.step pkSeed x.2) (15 - x.1) x.1 (slhNode sig x.2)))

/-! ### The hypertree -/

/-- An inner node of a tree of a layer. -/
def treeJoin (pkSeed : List Byte) (layer tree z i : Nat) (l r : List Byte) : List Byte := slhHash pkSeed (slhAddr layer tree 2 0 z i) (l ++ r)

/-- A leaf of a tree of a layer. -/
def treeLeaf (skSeed pkSeed : List Byte) (layer tree i : Nat) : List Byte := ({ layer := layer, tree := tree, leaf := i } : WotsKey).public skSeed pkSeed

/-- The root that one layer's signature of a message gives. -/
def layerRoot (p : SlhSet) (pkSeed : List Byte) (k : WotsKey) (msg sig : List Byte) : List Byte :=
  climb (treeJoin pkSeed k.layer k.tree) (sig.drop (16 * wotsLen)) p.height 0 k.leaf (k.recover pkSeed msg sig)

/-- The place in the next layer up. -/
def WotsKey.up (p : SlhSet) (k : WotsKey) : WotsKey := { layer := k.layer + 1, tree := k.tree / 2 ^ p.height, leaf := k.tree % 2 ^ p.height }

/-- The root of the hypertree that a signature gives: n more layers. -/
def hyperRoot (p : SlhSet) (pkSeed : List Byte) : Nat → WotsKey → List Byte → List Byte → List Byte
  | 0, _, msg, _ => msg
  | n + 1, k, msg, sig => hyperRoot p pkSeed n (k.up p) (layerRoot p pkSeed k msg sig) (sig.drop p.layerBytes)

/-- The hypertree's signature of a message: n more layers. -/
def hyperSign (p : SlhSet) (skSeed pkSeed : List Byte) : Nat → WotsKey → List Byte → List Byte
  | 0, _, _ => []
  | n + 1, k, msg =>
    let sig := k.sign skSeed pkSeed msg
      ++ authPath (treeLeaf skSeed pkSeed k.layer k.tree) (treeJoin pkSeed k.layer k.tree) p.height k.leaf
    sig ++ hyperSign p skSeed pkSeed n (k.up p) (layerRoot p pkSeed k msg sig)

/-! ### FORS -/

/-- An inner node of the FORS trees of a key. -/
def forsJoin (pkSeed : List Byte) (k : WotsKey) (z i : Nat) (l r : List Byte) : List Byte := slhHash pkSeed (slhAddr 0 k.tree 3 k.leaf z i) (l ++ r)

/-- The secret value of a FORS leaf. -/
def forsSecret (skSeed pkSeed : List Byte) (k : WotsKey) (i : Nat) : List Byte := slhHash pkSeed (slhAddr 0 k.tree 6 k.leaf 0 i) skSeed

/-- A FORS leaf of its secret value. -/
def forsLeaf (pkSeed : List Byte) (k : WotsKey) (i : Nat) (x : List Byte) : List Byte := slhHash pkSeed (slhAddr 0 k.tree 3 k.leaf 0 i) x

/-- The leaves that a digest selects, one in each tree, numbered through all trees. -/
def forsLeaves (p : SlhSet) (md : List Byte) : List Nat := (digits md p.forsHeight p.forsTrees).zipIdx.map (fun x => x.2 * 2 ^ p.forsHeight + x.1)

/-- The FORS public key that a signature of a digest gives. -/
def forsRoot (p : SlhSet) (pkSeed : List Byte) (k : WotsKey) (md sig : List Byte) : List Byte :=
  slhHash pkSeed (slhAddr 0 k.tree 4 k.leaf 0 0) ((forsLeaves p md).zipIdx.flatMap (fun x =>
    let part := sig.drop (16 * (p.forsHeight + 1) * x.2)
    climb (forsJoin pkSeed k) (part.drop 16) p.forsHeight 0 x.1 (forsLeaf pkSeed k x.1 (part.take 16))))

/-- The FORS signature of a digest.  Leaves are numbered through all trees, so a path's neighbours stay in the leaf's own tree. -/
def forsSign (p : SlhSet) (skSeed pkSeed : List Byte) (k : WotsKey) (md : List Byte) : List Byte :=
  (forsLeaves p md).flatMap (fun i => forsSecret skSeed pkSeed k i
    ++ authPath (fun j => forsLeaf pkSeed k j (forsSecret skSeed pkSeed k j)) (forsJoin pkSeed k) p.forsHeight i)

/-! ### Keys, signing and verifying -/

/-- The part of the digest that FORS signs. -/
def SlhSet.mdBytes (p : SlhSet) : Nat := (p.forsHeight * p.forsTrees + 7) / 8

/-- The leaf of the hypertree that a digest selects. -/
def slhLeaf (p : SlhSet) (digest : List Byte) : WotsKey :=
  let up := p.height * (p.layers - 1)
  let rest := digest.drop p.mdBytes
  { layer := 0
    tree := beNat (rest.take ((up + 7) / 8)) % 2 ^ up
    leaf := beNat ((rest.drop ((up + 7) / 8)).take ((p.height + 7) / 8)) % 2 ^ p.height }

/-- The message of pure mode with an empty context string. -/
def slhPure (msg : List Byte) : List Byte := [0#8, 0#8] ++ msg

/-- A signature of a message verifies under a public key of 32 bytes. -/
def slhVerify (p : SlhSet) (pk msg sig : List Byte) : Bool :=
  let pkSeed := pk.take 16
  let digest := slhDigest (sig.take 16) pk (slhPure msg)
  let k := slhLeaf p digest
  let fors := (sig.drop 16).take p.forsBytes
  sig.length == p.sigBytes
    && decide (hyperRoot p pkSeed p.layers k (forsRoot p pkSeed k (digest.take p.mdBytes) fors) (sig.drop (16 + p.forsBytes)) = pk.drop 16)

/-- The public key of a seed of 48 bytes: SK.seed, SK.prf and PK.seed. -/
def slhPublic (p : SlhSet) (seed : List Byte) : List Byte :=
  let skSeed := seed.take 16
  let pkSeed := seed.drop 32
  pkSeed ++ merkle (treeLeaf skSeed pkSeed (p.layers - 1) 0) (treeJoin pkSeed (p.layers - 1) 0) p.height 0

/-- The signature of a message by the key of a seed, with 16 bytes of randomness. -/
def slhSign (p : SlhSet) (seed rand msg : List Byte) : List Byte :=
  let skSeed := seed.take 16
  let pkSeed := seed.drop 32
  let r := (hmac ((seed.drop 16).take 16) (rand ++ slhPure msg)).take 16
  let digest := slhDigest r (slhPublic p seed) (slhPure msg)
  let k := slhLeaf p digest
  let fors := forsSign p skSeed pkSeed k (digest.take p.mdBytes)
  r ++ fors ++ hyperSign p skSeed pkSeed p.layers k (forsRoot p pkSeed k (digest.take p.mdBytes) fors)

end Machine

end Sys2Proof
end

