-- ==== Sys2Proof/Machine/DraftCheck.lean ====
section
/-! DEFINITION. Draft validation at load, check by check in the order of R167. -/

namespace Sys2Proof

namespace Machine

/-- Every one of the conditions holds. -/
def allB (l : List Bool) : Bool := l.all id

/-- lo ≤ v ≤ hi. -/
def within (lo v hi : Nat) : Bool := decide (lo ≤ v) && decide (v ≤ hi)

/-- No value occurs twice. -/
def noDup : List Nat → Bool
  | [] => true
  | a :: t => !t.contains a && noDup t

/-! ### Check 0x0001, 0x0002, 0x0005 -/

/-- magic, header_bytes and image_bytes (R143). -/
def check0001 (img : List Byte) (len : Nat) : Bool :=
  leAt img 0 4 == 0x54465244 && leAt img 6 2 == 128 && leAt img 8 4 == len && len != 0 && img.length == len && decide (128 ≤ len)

/-- The place and form of the signature block (R165). -/
def sigForm (img : List Byte) : Bool :=
  let so := leAt img 76 4
  let count := leAt img (so + 4) 2
  so % 64 == 0 && decide (128 ≤ so) && decide (so + 7928 ≤ img.length) && leAt img so 4 == 0x42474953
    && ((count == 1 && img.length == so + 7928) || (count == 2 && leAt img 4 2 == 7 && img.length == so + 15816))

/-- Keeper's draft key list (R495). -/
def State.issuers (s : State) : List (BitVec 256) :=
  s.sec.manifest.issuers ++ (match s.sec.owner with
    | some o => o.issuers
    | none => [])

/-- A key that records hold as a number, as its 32 bytes. -/
def keyBytes (k : BitVec 256) : List Byte := leBytes 32 k.toNat

/-- The issuer's signature verifies (R165, R166). -/
def issuerSigOk (img : List Byte) : Bool :=
  let so := leAt img 76 4
  slhVerify slh128s (sliceB img (so + 40) 32) (sliceB img (so + 8) 32) (sliceB img (so + 72) 7856)

/-- The owner's signature verifies (R165, R166). -/
def ownerSigOk (img : List Byte) : Bool :=
  let so := leAt img 76 4
  slhVerify slh128s (sliceB img (so + 7928) 32) (sliceB img (so + 8) 64) (sliceB img (so + 7960) 7856)

/-- Digest, key lists and signatures (R165, R166, R493, R495). -/
def check0005 (s : State) (img : List Byte) : Bool :=
  let so := leAt img 76 4
  let count := leAt img (so + 4) 2
  let pk := BitVec.ofNat 256 (leAt img (so + 40) 32)
  let opk := BitVec.ofNat 256 (leAt img (so + 7928) 32)
  let lc := s.lifecycle
  sigForm img && decide ((sha256 (img.take so)).toNat = leAt img (so + 8) 32) && s.issuers.contains pk && issuerSigOk img
    && (match s.sec.owner with
      | some o => (count == 2 && opk == o.ownerDraftPk && ownerSigOk img) || (count == 1 && !o.sigRequired)
      | none => count == 1 && (lc == 0 || lc == 3))

/-! ### Check 0x0003, 0x0004 -/

/-- Fields that the stated version lacks are zero (R140). -/
def check0003 (d : Draft) : Bool :=
  (decide (6 ≤ d.version) || d.tensors.all (fun t => !t.centred && !t.dithered))
    && (decide (7 ≤ d.version) || (d.tensors.all (fun t => !t.adaptEnable && t.adaptCurve.all (fun x => x == 0))
      && d.layers.all (fun l => l.gatherRows == 0)))

/-- A part of the image: offset and length (R142). -/
abbrev Part := Nat × Nat

/-- Insert a part by offset. -/
def insertPart (p : Part) : List Part → List Part
  | [] => [p]
  | q :: t => if p.1 < q.1 ∨ (p.1 = q.1 ∧ p.2 ≤ q.2) then p :: q :: t else q :: insertPart p t

/-- Parts follow one another with at most the padding of R142, and end at the end of the image. -/
def partsFit (total : Nat) : Nat → List Part → Bool
  | e, [] => e == total
  | e, p :: t => (p.1 == e || p.1 == alignUp e 64) && partsFit total (p.1 + p.2) t

/-- A section's part, when its count is not 0. -/
def secPart (img : List Byte) (offAt size count : Nat) : List Part := if count = 0 then [] else [(leAt img offAt 4, size * count)]

/-- Payloads of the directories, each once: records can name one payload together (DESIGN CHOICE, log entry 125). -/
def payloadParts (d : Draft) : List Part :=
  ((d.blobs.map (fun b => (b.offset, b.length)))
    ++ (d.programs.flatMap (fun p => (p.textOff, p.textBytes) :: (if p.dataBytes = 0 then [] else [(p.dataOff, p.dataBytes)])))).foldl
      (fun l p => if l.contains p then l else l ++ [p]) []

/-- The parts of an image (R142): the header, every section, the payloads and the signature block. -/
def imageParts (img : List Byte) (d : Draft) : List Part :=
  [(0, 128)] ++ secPart img 36 64 (leAt img 14 2) ++ secPart img 40 48 (leAt img 16 2) ++ secPart img 44 40 (leAt img 18 1)
    ++ secPart img 48 140 (leAt img 19 1) ++ secPart img 52 96 (leAt img 20 1) ++ secPart img 56 16 (leAt img 24 2)
    ++ secPart img 60 16 (leAt img 28 4) ++ secPart img 64 48 (leAt img 26 2) ++ secPart img 68 48 (leAt img 32 2)
    ++ [(leAt img 72 4, 64)] ++ payloadParts d ++ [(leAt img 76 4, img.length - leAt img 76 4)]

/-- Section offsets (R142): a multiple of 64, and 0 when the count is 0. -/
def secOffsets (img : List Byte) : Bool :=
  [(36, leAt img 14 2), (40, leAt img 16 2), (44, leAt img 18 1), (48, leAt img 19 1), (52, leAt img 20 1), (56, leAt img 24 2),
   (60, leAt img 28 4), (64, leAt img 26 2), (68, leAt img 32 2), (72, 1)].all
    (fun p => if p.2 = 0 then leAt img p.1 4 == 0 else leAt img p.1 4 % 64 == 0)

/-- Counts, tiling mode, key_id, extents and padding (R142, R143). -/
def check0004 (img : List Byte) (d : Draft) : Bool :=
  let enc := bitN (leAt img 13 1) 0
  let key := leAt img 34 2
  allB [within 0 (leAt img 12 1) 1, within 1 (leAt img 14 2) 16384, within 1 (leAt img 16 2) 16384, within 0 (leAt img 18 1) 60,
    within 0 (leAt img 19 1) 16, within 1 (leAt img 20 1) 255, within 1 (leAt img 23 1) 64, within 0 (leAt img 24 2) 4096,
    within 0 (leAt img 26 2) 16384, within 0 (leAt img 28 4) 65535, within 1 (leAt img 32 2) 16384,
    (if enc then within 1 key 64 else key == 0), secOffsets img,
    partsFit img.length 0 ((imageParts img d).foldl (fun l p => insertPart p l) [])]

/-! ### Check 0x0006 to 0x0008 -/

/-- Codebook entries (R41, R144). -/
def check0006 (d : Draft) : Bool :=
  noDup (d.codebooks.map (fun c => c.1)) && d.codebooks.all (fun c => within 4 c.1 63 && codebookValid c.2)

/-- A B16 word whose exponent is not 255 (R53). -/
def b16Finite (w : Nat) : Bool := !b16ReadSat w

/-- Curve entries (R127, R144). -/
def check0007 (d : Draft) : Bool :=
  noDup (d.curves.map (fun c => c.1)) && d.curves.all (fun c => within 0 c.1 15 && decide (-16 ≤ c.2.log2w) && decide (c.2.log2w ≤ 8)
    && b16Finite c.2.xMin && c.2.y.all b16Finite)

/-- The draft references a codebook slot. -/
def Draft.usesCodebook (d : Draft) (slot : Nat) : Bool :=
  d.codebooks.any (fun c => c.1 == slot) || d.tensors.any (fun t => t.type == 0 && t.codebook == slot)

/-- The draft references a curve slot. -/
def Draft.usesCurve (d : Draft) (slot : Nat) : Bool :=
  d.curves.any (fun c => c.1 == slot) || d.layers.any (fun l => l.curve == slot)

/-- Slot conflicts with loaded drafts and, for codebooks, loaded recipes (R46, R127, R221). -/
def check0008 (s : State) (d : Draft) : Bool :=
  d.codebooks.all (fun c => match lookupN s.wa.codebooks c.1 with
    | none => true
    | some r => decide (r = c.2) || !(s.drafts.any (fun e => e.draft.usesCodebook c.1) || s.recipes.any (fun x => x.recipe.codebook == c.1)))
  && d.curves.all (fun c => match lookupN s.wa.curves c.1 with
    | none => true
    | some r => decide (r = c.2) || !(s.drafts.any (fun e => e.draft.usesCurve c.1)))

/-! ### Check 0x0009 -/

/-- The codebook a slot will hold after this load: of this draft, or loaded (R46). -/
def Draft.cbAfter (d : Draft) (s : State) (slot : Nat) : Option Codebook :=
  match lookupN d.codebooks slot with
  | some c => some c
  | none => codebookAt s.wa.codebooks slot

/-- Per-tensor modes (R61, R71, R536). -/
def Tensor.modesOk (t : Tensor) : Bool :=
  let plain := !t.firstPass && !t.dithered && !t.adaptEnable && !t.driftEnable
  if t.type ≠ 0 then plain && !t.centred && !t.weight && t.driftThreshold == 0
  else if t.weight then plain && !t.batchInput
  else if t.batchInput then plain && !t.centred
  else !t.centred && (t.kappa != 0 || !t.adaptEnable)
    && (t.rowLen ≤ 4096 || t.takesFirstPass)

/-- One tensor record (R147, R148). -/
def Draft.tensorOk (d : Draft) (s : State) (t : Tensor) : Bool :=
  allB [within 0 t.type 4, t.type != 0 || (within 0 t.format 3 && (match d.cbAfter s t.codebook with
      | some c => c.format == t.format
      | none => false)),
    within 1 t.rows (2 ^ 32 - 1), within 1 t.rowLen 65536, t.rowPitch % 4 == 0,
    t.rowPitch == 0 || decide (t.packedRow ≤ t.rowPitch), decide (t.placement < d.placements.length),
    !t.weight || decide (t.blob < d.blobs.length),
    !t.result || decide (t.resultNo < d.results), t.modesOk]

/-- Tensor records; each result_no is used exactly once. -/
def check0009 (s : State) (d : Draft) : Bool :=
  d.tensors.all (d.tensorOk s)
    && (List.range d.results).all (fun r => (d.tensors.filter (fun t => t.result && t.resultNo == r)).length == 1)

/-! ### Check 0x000A -/

/-- The plaintext of blob i of an image: its payload, or what AES-256-GCM makes of it under the draft key that key_id names, with bytes 0 to 7
and 36 to 47 of the directory entry as additional authenticated data (R152); none where no such key is loaded or the tag fails. -/
def blobPlain (keys : List (Nat × BitVec 256)) (img : List Byte) (d : Draft) (i : Nat) (b : Blob) : Option (List Byte) :=
  let bs := sliceB img b.offset (min b.length img.length)
  let rec' := leAt img 64 4 + 48 * i
  if d.encrypted then
    (lookupN keys d.keyId).bind (fun k =>
      gcmOpen (leBytes 32 k.toNat) (leBytes 12 b.iv) (sliceB img rec' 8 ++ sliceB img (rec' + 36) 12) bs (leBytes 16 b.tag))
  else some bs

/-- The bias or gamma blob a layer names, with the number of values it must hold. -/
def Layer.vecBlobs (l : Layer) : List (Nat × Nat) :=
  (if l.bias then [(l.biasBlob, l.n)] else []) ++ (if l.op = 0x0D ∧ l.par 2 2 ≠ 0xFFFF then [(l.par 2 2, l.n)] else [])

/-- One blob (R150 to R152). -/
def Draft.blobOk (d : Draft) (i : Nat) (b : Blob) (open' : Bool) : Bool :=
  let ws := (List.range d.tensors.length).filter (fun j => (d.tensor j).weight && (d.tensor j).blob == i)
  let ls := (d.layers.zipIdx.flatMap (fun l => (l.1.vecBlobs.filter (fun v => v.1 == i)).map (fun v => (l.2, v.2))))
  allB [b.length != 0, b.offset % 64 == 0, d.encrypted || (b.iv == 0 && b.tag == 0), open', b.plain.length == b.length,
    (crc32c b.plain).toNat == b.crc,
    (match ws, ls with
      | [j], [] => b.tensor == j && b.length == blobLength (d.tensor j)
      | [], l :: _ => b.tensor == l.1 && ls.all (fun x => b.length == 2 * x.2)
      | _, _ => false)]

/-- Blobs (R150 to R152, R496). -/
def check000A (s : State) (img : List Byte) (d : Draft) : Bool :=
  d.blobs.zipIdx.all (fun b => d.blobOk b.2 b.1 (blobPlain s.sec.draftKeys img d b.2 b.1).isSome)
    && (!d.encrypted || (noDup (d.blobs.map (fun b => b.iv)) && s.sec.draftKeys.any (fun k => k.1 == d.keyId)))

/-! ### Check 0x000B -/

/-- Spatial fields in range and zero where unused (R176, R177). -/
def Layer.spatialOk (l : Layer) : Bool :=
  let k1 := within 1 l.kh 255 && within 1 l.kw 255
  let st := within 1 l.sh 15 && within 1 l.sw 15
  let dl := within 1 l.dh 255 && within 1 l.dw 255
  let pad0 := l.padTop == 0 && l.padLeft == 0 && l.padBottom == 0 && l.padRight == 0
  let flags := fun (m : Nat) => l.par 17 1 % 8 == (l.par 17 1 % 8) &&& m
  let op0 := l.oph == 0 && l.opw == 0
  allB [within 1 l.hIn 65535, within 1 l.wIn 65535, within 1 l.hOut 65535, within 1 l.wOut 65535, within 1 l.samples 65535,
    within 1 l.groups 65535]
  && (match l.op with
    | 0x01 => k1 && st && dl && flags 0 && op0
    | 0x02 => k1 && st && dl && flags 0 && op0
    | 0x03 => k1 && st && dl && flags 0 && l.groups == 1 && decide (l.oph < l.sh) && decide (l.opw < l.sw)
    | 0x04 => k1 && st && dl && flags 0 && op0 && l.groups == 1
    | 0x05 => k1 && st && dl && flags 1 && op0 && l.groups == 1
    | 0x06 => (l.kh == 2 || l.kh == 4) && l.kw == l.kh && l.sh == l.kh && l.sw == l.kh && l.dh == 1 && l.dw == 1 && pad0 && flags 0
        && op0 && l.groups == 1
    | 0x07 => (l.kh == 2 || l.kh == 4) && l.kw == l.kh && l.sh == 1 && l.sw == 1 && l.dh == 1 && l.dw == 1 && pad0 && flags 0
        && op0 && l.groups == 1
    | _ => l.kh == 0 && l.kw == 0 && l.sh == 0 && l.sw == 0 && l.dh == 0 && l.dw == 0 && pad0 && flags 6 && op0 && l.groups == 1)

/-- One output dimension (R178); none where the layer is rejected. -/
def outDim (op nIn padLo padHi k stride dil opad : Nat) : Option Nat :=
  if op = 0x03 then
    let v : Int := ((nIn : Int) - 1) * stride - padLo - padHi + dil * (k - 1) + 1 + opad
    if 1 ≤ v then some v.toNat else none
  else if op = 0x06 then (if nIn % k = 0 then some (nIn / k) else none)
  else if op = 0x07 then some (nIn * k)
  else
    let v : Int := (nIn : Int) + padLo + padHi - dil * (k - 1) - 1
    if 0 ≤ v ∧ stride ≠ 0 then some (v.toNat / stride + 1) else none

/-- Shapes of a spatial layer (R177, R178, R182, R183). -/
def Draft.spatialShape (d : Draft) (l : Layer) : Bool :=
  let i := d.tensor l.in0
  let o := d.tensor l.out
  let w := d.tensor l.in1
  let c := i.rowLen
  let cg := c / max 1 l.groups
  let dims := l.op == 0x10 || l.op == 0x11 ||
    (outDim l.op l.hIn l.padTop l.padBottom l.kh l.sh l.dh l.oph == some l.hOut
      && outDim l.op l.wIn l.padLeft l.padRight l.kw l.sw l.dw l.opw == some l.wOut)
  allB [l.spatialOk, dims, i.rows == l.samples * l.hIn * l.wIn, o.rows == l.m, o.rowLen == l.n,
    l.m == l.samples * l.hOut * l.wOut, c % l.groups == 0]
  && (match l.op with
    | 0x01 => l.k == l.kh * l.kw * cg && l.taps == l.kh * l.kw && w.rows == l.n && w.rowLen == l.k
        && (l.groups == 1 || (l.n % l.groups == 0 && l.n / l.groups % 128 == 0))
    | 0x02 => l.k == c && l.taps == 1 && decide (cg ≤ 16) && l.n % l.groups == 0 && w.rows == l.n && w.rowLen == l.kh * l.kw * cg
    | 0x03 => l.k == l.kh * l.kw * c && l.taps == l.kh * l.kw && w.rows == l.n && w.rowLen == l.k
    | 0x06 => l.k == c && l.n == l.kh * l.kh * c && l.taps == 1
    | 0x07 => l.k == c && l.n * (l.kh * l.kh) == c && l.taps == 1
    | _ => l.k == c && l.n == c && l.taps == 1)

/-- Shapes of the other layers (R190 to R194, R197 to R199, R202 to R207). -/
def Draft.otherShape (d : Draft) (l : Layer) : Bool :=
  let i := d.tensor l.in0
  let o := d.tensor l.out
  let w := d.tensor l.in1
  let x := d.tensor l.in2
  let out := o.rows == l.m && o.rowLen == l.n
  match l.op with
  | 0x08 => out && i.rows == l.m && i.rowLen == l.k && w.rows == l.n && w.rowLen == l.k && l.taps == 1 && l.params.all (fun b => b == 0)
  | 0x0B => out && i.rows == l.m && i.rowLen == l.n && l.k == l.n && decide (l.n ≤ 16384)
  | 0x0D => out && i.rows == l.m && i.rowLen == l.n && l.k == l.n && !bitN (l.par 0 2) 15 && bitsN (l.par 0 2) 14 7 != 0
  | 0x0E => out && i.rows == l.m && i.rowLen == l.n && l.k == l.n && within 0 (l.par 0 1) 4 && within 0 (l.par 1 1) 2
      && w.rows == (if l.par 1 1 = 1 then 1 else l.m) && w.rowLen == (if l.par 1 1 = 2 then 1 else l.n)
  | 0x0F => out && i.rows == l.m && i.rowLen == l.n && l.k == l.n
  | 0x12 => l.par 0 4 != 0 && l.par 0 4 == i.rows && i.rowLen == l.n && l.k == l.n && o.rowLen == l.n && l.par 4 1 % 4 != 3
      && decide (l.par 0 4 ≤ x.rows * x.indices)
  | 0x13 => out && l.par 0 4 != 0 && l.par 0 4 == l.m && i.rowLen == l.n && l.k == l.n && decide (l.par 0 4 ≤ x.rows * x.indices)
  | 0x14 =>
    let g := l.par 0 1
    (g == 1 || g == 4 || g == 16) && l.k == i.rowLen && l.k % g == 0 && l.m == i.rows && o.rows == l.m * g && o.pitch == 4
      && (if g = 1 then l.par 2 2 == 0 && l.par 4 2 == 0 && l.par 6 2 == 0 else l.m == l.par 6 2 * l.par 2 2 * l.par 4 2)
  | 0x15 => within 1 (l.par 0 2) 256 && l.k == i.rowLen && l.m == i.rows && o.pitch == 12
      && o.rows == (if bitN (l.par 2 1) 0 then l.m * l.par 0 2 else l.par 0 2)
  | 0x16 => decide (d.bounds.resultBytes ≤ o.rows * o.pitch)
  | _ => out && 1 ≤ l.batches && l.m % l.batches == 0 && i.rows == l.m && i.rowLen == l.k && w.rows == l.batches * l.n
      && w.rowLen == l.k && l.taps == 1

/-- A tensor is written before layer i: by an earlier layer, or by the step's batch (R172). -/
def Draft.runTime (d : Draft) (i j : Nat) : Bool := (d.tensor j).batchInput || (d.layers.take i).any (fun l => l.out == j)

/-- Operands and output of a layer (R172 to R174). -/
def Draft.operandsOk (d : Draft) (i : Nat) (l : Layer) : Bool :=
  let n := d.tensors.length
  let w1 := (d.tensor l.in1).weight
  let has1 := decide (l.in1 < n)
  let in1ok := if [0x01, 0x02, 0x03].contains l.op then has1 && w1
    else if [0x08, 0x09, 0x0E].contains l.op then has1 && (w1 || d.runTime i l.in1)
    else if [0x0A, 0x0C].contains l.op then has1 && !w1 && d.runTime i l.in1
    else l.in1 == 0xFFFF
  let in2ok := if l.op = 0x11 then decide (l.in2 < n) && (d.tensor l.in2).type == 1 && (d.tensor l.in2).rows == l.m
        && within 2 (d.tensor l.in2).rowLen 3
    else if l.op = 0x12 ∨ l.op = 0x13 then decide (l.in2 < n) && (d.tensor l.in2).type == 4
    else l.in2 == 0xFFFF
  let o := d.tensor l.out
  let t0 := (d.tensor l.in0).type
  let others := d.layers.filter (fun x => x.out == l.out && x.index != l.index)
  let noClear := fun (x : Layer) => x.op == 0x12 && !bitN (x.par 4 1) 2
  allB [decide (l.in0 < n), decide (l.out < n), in1ok, in2ok, l.out != l.in0, l.out != l.in1, l.out != l.in2, !o.weight, !o.batchInput,
    (if l.onFinish then o.type == 4 else within 0 o.type 1),
    l.op == 0x16 || (if l.onArray then t0 == 0 else within 0 t0 1),
    !l.onArray || (d.tensor l.in1).type == 0,
    l.op != 0x02 || (d.tensor l.in1).type == 0,
    l.op != 0x0E || within 0 (d.tensor l.in1).type 1,
    (if noClear l then (d.layers.take i).any (fun x => x.out == l.out) else others.all noClear)]

/-- One layer record (R145, R146, R172, R180, R571).  Rejected too, though the spec states no such check: pad_named = 1 on an operator that no
row of R180 names, and a curve other than 0xFF on an operator that uses none (R145, R197; DESIGN CHOICE, log entries 156 and 157). -/
def Draft.layerOk (d : Draft) (s : State) (i : Nat) (l : Layer) : Bool :=
  let spatial := within 1 l.op 7 || l.op == 0x10 || l.op == 0x11
  let useCurve := l.op == 0x0B || l.op == 0x0F
  let padded := l.op == 0x02 || l.op == 0x05
  allB [l.index == i, within 1 l.op 0x16, l.m != 0, l.k != 0, within 1 l.n 65536, l.bound != 0, !l.onArray || decide (l.k ≤ 2097152),
    l.taps != 0, l.onArray || (l.log2ms == 0 && l.log2ns == 0 && l.log2ks == 0 && l.chunk == 0 && l.gatherRows == 0 && l.taps == 1),
    d.operandsOk i l, (if spatial then d.spatialShape l else d.otherShape l),
    !l.padNamed || padded, !(l.onFinish && (l.rectify || l.bias)), !l.onReed || decide (l.n ≤ 16384),
    l.vecBlobs.all (fun x => decide (x.1 < d.blobs.length)), !l.gatherable || l.op == 0x01 || (l.op == 0x08 && (d.tensor l.in1).weight),
    (if useCurve then (lookupN d.curves l.curve).isSome || (lookupN s.wa.curves l.curve).isSome else l.curve == 0xFF)]

/-- Layer records; exactly one result-packing layer, the last (R207). -/
def check000B (s : State) (d : Draft) : Bool :=
  d.layers.zipIdx.all (fun p => d.layerOk s p.2 p.1)
    && (d.layers.filter (fun l => l.op == 0x16)).length == 1 && (d.layers.getLast?.map (fun l => l.op)) == some 0x16

/-! ### Check 0x000C to 0x0010 -/

/-- Tiling of an array layer (R91). -/
def Draft.tilingOk (d : Draft) (l : Layer) : Bool :=
  let b16 := (d.tensor l.out).heldB16
  allB [l.ms * l.ns * l.ks == d.engines, within 8 l.chunk 4096, l.chunk % 8 == 0,
    (if b16 then decide (l.chunk ≤ 256) else decide (l.chunk * l.nspan ≤ 32768) && decide (l.nspan ≤ 4096)),
    d.whole || l.ns * l.ks != 8]

/-- Tiling (R91). -/
def check000C (d : Draft) : Bool := d.layers.all (fun l => !l.onArray || d.tilingOk l)

/-- One program (R112, R154, R159). -/
def Draft.programOk (d : Draft) (p : Program) : Bool :=
  allB [p.textOff % 64 == 0, within 4 p.textBytes 131072, p.textBytes % 4 == 0, within 0 p.dataBytes 131072, p.budget != 0,
    p.entry % 4 == 0, decide (p.entry < p.textBytes),
    p.wins.all (fun w => w.1 == 0xFFFF || (decide (w.1 < d.tensors.length) && within 1 (d.tensor w.1).type 4))]

/-- Programs (R154). -/
def check000D (d : Draft) : Bool :=
  d.programs.all d.programOk && decide (d.seqA < d.programs.length) && decide (d.seqB < d.programs.length)

/-- Strictly ascending. -/
def risingN : List Nat → Bool
  | [] => true
  | [_] => true
  | a :: b :: t => decide (a < b) && risingN (b :: t)

/-- A live range lies inside its tensor or data memory (R156). -/
def Draft.rangeOk (d : Draft) (r : LiveRange) : Bool :=
  allB [r.dies != 0, r.length != 0, (if r.tensor = 0xFFFE then decide (r.start + r.length ≤ 131072)
    else decide (r.tensor < d.tensors.length) && decide (r.start + r.length ≤ (d.tensor r.tensor).bytes))]

/-- Hinges and live ranges (R155, R156, R159).  An lr_first beyond the live ranges fails with lr_count 0 too, and a resume address at or past
the text's end fails (DESIGN CHOICE, log entry 126). -/
def check000E (d : Draft) : Bool :=
  let progOf := fun (h : Hinge) => d.programs[h.program]?
  allB [d.hinges.zipIdx.all (fun h => h.1.index == h.2 && decide (h.1.afterLayer < d.layers.length)
      && decide (h.1.lrFirst + h.1.lrCount ≤ d.liveRanges.length)
      && (match progOf h.1 with
        | some p => !p.latchUse && decide (h.1.resume < p.textBytes)
        | none => false)),
    risingN (d.hinges.map (fun h => h.afterLayer)), d.liveRanges.all d.rangeOk,
    !((d.programs[d.seqA]?.map (fun p => p.latchUse)).getD false), !((d.programs[d.seqB]?.map (fun p => p.latchUse)).getD false)]

/-- A progress window in Loom clocks (R468): 600 a microsecond. -/
def winClocks (us : Nat) : Nat := us * 600

/-- Operation and layer bounds against progress windows of the engine and the context, in µs; a window of 0 sets no limit (R97,
R469).  The bound of a Reed or Finish operation is the layer's stated bound (R469 names none; DESIGN CHOICE, log entry 158). -/
def Draft.windowsOk (d : Draft) (eng ctx : Nat) : Bool :=
  d.layers.all (fun l =>
    (eng == 0 || decide (2 * (if l.onArray then d.opBound l else l.bound) ≤ winClocks eng))
      && (ctx == 0 || decide (2 * l.bound ≤ winClocks ctx)))

/-- Bounds (R160 to R163). -/
def check0010 (d : Draft) : Bool :=
  let b := d.bounds
  allB [b.isolated != 0, b.hingeGap != 0, b.resultBytes != 0, d.layers.all (fun l => decide (d.layerBound l ≤ l.bound)),
    decide (d.isolatedBound ≤ b.isolated), decide (d.hingeGap ≤ b.hingeGap), decide (d.maxResult ≤ b.resultBytes),
    b.saveBytes == d.maxSave, decide (b.beamA ≤ 67108864), decide (b.beamB ≤ 67108864)]

/-! ### Check 0x0011 (R245, R258, R260) -/

/-- A partition's Beam SRAM share on each die: first offset and end. -/
def State.beamShare (s : State) (p : Nat) : Nat × Nat :=
  let a := fld (s.reg (oPartMem 0)) 5 0 * 2 ^ 20
  if p = 0 then (0, a) else (a, a + fld (s.reg (oPartMem 1)) 5 0 * 2 ^ 20)

/-- A partition's GDDR6 share on each die: first offset and end. -/
def State.gddrShare (s : State) (p : Nat) : Nat × Nat :=
  let a := fld (s.reg (oPartMem 0)) 13 8 * 2 ^ 28
  if p = 0 then (0, a) else (a, a + fld (s.reg (oPartMem 1)) 13 8 * 2 ^ 28)

/-- Where an entry's GDDR6 region starts on a die (R258). -/
def Entry.base (e : Entry) (d : Weft) : Nat := match d with | .a => e.baseA | .b => e.baseB

/-- Bytes of an entry's GDDR6 region on a die; none on a die whose reset took it. -/
def Entry.region (e : Entry) (d : Weft) : Nat :=
  if e.gone.contains d then 0 else match d with | .a => e.draft.bounds.gddrA | .b => e.draft.bounds.gddrB

/-- The drafts that steps keep on a surviving die, each once (R479). -/
def State.keptEntries (s : State) : List Entry := (s.steps.filterMap (fun t => t.kept)).eraseDups

/-- The drafts whose weights take memory: the table's, and those that steps keep (R153, R168, R479). -/
def State.placed (s : State) : List Entry := s.drafts ++ s.keptEntries

/-- Where a context's save area starts on a die (R260). -/
def Ctx.saveAt (c : Ctx) (d : Weft) : Nat := match d with | .a => c.saveA | .b => c.saveB

/-- Save areas reserved by a partition's contexts, per die (R260). -/
def State.saveBytes (s : State) (p : Nat) : Nat :=
  (s.ctxs.filter (fun c => c.part == p)).foldl (fun a c => a + c.save64k * 65536) 0

/-- GDDR6 regions of a partition's drafts on a die (R258). -/
def State.regionBytes (s : State) (p : Nat) (d : Weft) : Nat :=
  (s.placed.filter (fun e => e.partition == p)).foldl (fun a e =>
    a + e.region d) 0

/-- GDDR6 ranges in use on a die: the regions of both partitions' drafts, and the save areas of their contexts (R258, R260). -/
def State.regions (s : State) (d : Weft) : List (Nat × Nat) :=
  (s.placed.filter (fun e => !e.gone.contains d)).map (fun e => (e.base d, e.region d))
    ++ (s.ctxs.filter (fun c => c.save64k != 0)).map (fun c => (c.saveAt d, c.save64k * 65536))

/-- Where Heddle may put a region of n bytes: the start of the partition's share, or after a region, free of others (log entry 30). -/
def State.regionPlaces (s : State) (p : Nat) (d : Weft) (n : Nat) : List Nat :=
  let sh := s.gddrShare p
  let rs := s.regions d
  (sh.1 :: rs.map (fun r => alignUp (r.1 + r.2) 64)).filter (fun b =>
    decide (sh.1 ≤ b) && decide (b + n ≤ sh.2) && rs.all (fun r => decide (r.1 + r.2 ≤ b) || decide (b + n ≤ r.1)))

/-- The place Heddle chooses: any of the free ones (R258: "at a place that Heddle chooses"). -/
def State.regionBase (s : State) (p : Nat) (d : Weft) (n k : Nat) : Nat :=
  let ps := s.regionPlaces p d n
  ps.getD ((Config.freeDword k).toNat % max 1 ps.length) 0

/-- A region of n bytes fits into a partition's share of a die: the sum of what is there and it does (R258, R260), and there is one place
for it (DEDUCED, log entry 128: nothing in the manual moves a region that is placed). -/
def State.regionFits (s : State) (p : Nat) (d : Weft) (n : Nat) : Bool := !(s.regionPlaces p d n).isEmpty

/-- Beam SRAM bytes a tensor takes under its placement: its window, which a short last part does not fill where it holds every part (R257). -/
def Draft.sramBytes (d : Draft) (j : Nat) : Nat :=
  let p := d.place j
  if p.parts = 0 then (d.tensor j).bytes else min (d.tensor j).bytes (p.window * p.partBytes)

/-- One placement record in range (R256). -/
def placementOk (d : Draft) (p : Placement) : Bool :=
  allB [within 0 p.home 2, (if p.parts = 0 then p.home == 0 && p.partBytes == 0 && p.window == 0 && p.homeOff == 0
      else within 1 p.home 2 && p.partBytes != 0 && p.partBytes % 64 == 0 && within 1 p.window p.parts),
    p.sramA % 64 == 0, p.sramB % 64 == 0, p.homeOff % 64 == 0, p.dies == 1 || p.splitRow == 0,
    d.whole || p.dies == 0, p.home != 2 || d.bounds.hostSpill != 0]

/-- A tensor lies inside the partition's shares, and so does the range that a batch input's record places, which no step uses (R258). -/
def Draft.placedOk (d : Draft) (s : State) (part j : Nat) : Bool :=
  let t := d.tensor j
  let p := d.place j
  let sh := s.beamShare part
  let n := d.sramBytes j
  let onA := p.dies != 3
  let onB := p.dies != 2
  allB [!onA || (decide (sh.1 ≤ p.sramA) && decide (p.sramA + n ≤ sh.2)), !onB || (decide (sh.1 ≤ p.sramB) && decide (p.sramB + n ≤ sh.2)),
    p.home != 1 || ((!onA || decide (p.homeOff + t.bytes ≤ d.bounds.gddrA)) && (!onB || decide (p.homeOff + t.bytes ≤ d.bounds.gddrB))),
    p.home == 0 || (decide (t.bytes ≤ p.parts * p.partBytes) && decide ((p.parts - 1) * p.partBytes < t.bytes)),
    p.dies != 1 || within 1 p.splitRow (t.rows - 1), !t.weight || p.home != 2]

/-- A die holds row r of a tensor with a placement (R256). -/
def Placement.holdsRow (p : Placement) (d : Weft) (r : Nat) : Bool :=
  if p.dies = 0 then true
  else if p.dies = 1 then decide (r < p.splitRow) == decide (d = .a)
  else decide (p.dies = 2) == decide (d = .a)

/-- K-range k of a layer streams a segment of tap group g (R79, R90). -/
def Draft.readsTap (d : Draft) (l : Layer) (k g : Nat) : Bool :=
  let cg := if l.op = 0x02 then (d.tensor l.in0).rowLen / l.groupsOf else l.k / max 1 l.taps
  let segs := max 1 (ceilDiv cg (kPerSegment (d.tensor l.in0).format (d.tensor l.in1).format))
  let kp := ceilDiv (d.passes l) l.ks
  decide (g * segs / 4 < (k + 1) * kp) && decide (k * kp ≤ ((g + 1) * segs - 1) / 4)

/-- Every row of in0 and in1 that an engine's feeders read lies on that engine's die (R258), tile by tile (R90). -/
def Draft.feedersOk (d : Draft) (l : Layer) : Bool :=
  let p := d.place l.in0
  let q := d.place l.in1
  !d.whole || !l.onArray || (p.dies == 0 && q.dies == 0) ||
    (List.range l.m).all (fun r =>
      let ms := r % max 1 l.mb / max 1 (l.me l.mb)
      (List.range l.ns).all (fun ns => (List.range l.ks).all (fun k =>
        let die : Weft := if (ms * l.ns * l.ks + ns * l.ks + k) / 4 = 0 then .a else .b
        (l.rowTaps r).zipIdx.all (fun x => match x.1 with
          | none => true
          | some i => !d.readsTap l k x.2 || p.holdsRow die i)
        && (List.range (min l.n ((ns + 1) * l.nspan) - ns * l.nspan)).all (fun c => q.holdsRow die (l.wbase r + ns * l.nspan + c)))))

/-- The lowest free draft table entry within the quota (R168, R316). -/
def State.freeEntry (s : State) (part : Nat) : Option Nat :=
  if (s.drafts.filter (fun e => e.partition == part)).length < fld (s.reg (oPartQuota part)) 24 16 then
    (List.range 256).find? (fun i => !(s.drafts.any (fun e => e.index == i)))
  else none

/-- Bytes already used of a partition's GDDR6 share on a die: draft regions and save areas (R258, R260). -/
def State.gddrUsed (s : State) (p : Nat) (d : Weft) : Nat := s.regionBytes p d + s.saveBytes p

/-- The length of a partition's GDDR6 share. -/
def State.gddrLen (s : State) (p : Nat) : Nat := (s.gddrShare p).2 - (s.gddrShare p).1

/-- Resources (R245, R258). -/
def check0011 (s : State) (part : Nat) (d : Draft) : Bool :=
  let sh := s.beamShare part
  let len := sh.2 - sh.1
  allB [(s.freeEntry part).isSome, decide (d.bounds.saveBytes ≤ fld (s.reg oSchedSave) 15 0 * 65536), d.placements.all (placementOk d),
    (List.range d.tensors.length).all (d.placedOk s part), d.layers.all d.feedersOk, decide (d.bounds.beamA ≤ len),
    decide (d.bounds.beamB ≤ len), decide (s.gddrUsed part .a + d.bounds.gddrA ≤ s.gddrLen part),
    decide (s.gddrUsed part .b + d.bounds.gddrB ≤ s.gddrLen part), s.regionFits part .a d.bounds.gddrA, s.regionFits part .b d.bounds.gddrB]

/-! ### All checks -/

/-- The first code whose check fails. -/
def firstFail : List (Nat × Bool) → Option Nat
  | [] => none
  | c :: t => if c.2 then firstFail t else some c.1

/-- The draft an image states, its blobs decrypted under the loaded draft keys, or read in place (R152). -/
def imageDraft (keys : List (Nat × BitVec 256)) (img : List Byte) : Draft :=
  let d0 := parseDraft img []
  parseDraft img (d0.blobs.zipIdx.map (fun b => (blobPlain keys img d0 b.2 b.1).getD []))

/-- The result of a draft load (R167): none when every check passes. -/
def draftResult (s : State) (part : Nat) (img : List Byte) (len : Nat) : Option Nat :=
  if !check0001 img len then some 0x0001
  else if !within 5 (leAt img 4 2) 7 then some 0x0002
  else if !check0005 s img then some 0x0005
  else
    let d := imageDraft s.sec.draftKeys img
    firstFail [(0x0003, check0003 d), (0x0004, check0004 img d), (0x0006, check0006 d), (0x0007, check0007 d), (0x0008, check0008 s d),
      (0x0009, check0009 s d), (0x000A, check000A s img d), (0x000B, check000B s d), (0x000C, check000C d), (0x000D, check000D d),
      (0x000E, check000E d), (0x000F, d.windowsOk (fld (s.reg (oProgWin 0)) 15 0) (fld (s.reg (oProgWin 1)) 15 0)),
      (0x0010, check0010 d), (0x0011, check0011 s part d)]

end Machine

end Sys2Proof
end

