-- ==== Sys2Proof/Machine/Placing.lean ====
section
/-! DEFINITION. A draft's weights on a die: where they lie, how they are written, and how they are wiped (R47, R152, R153, R256, R257). -/

namespace Sys2Proof

namespace Machine

/-- Complement the codes of packed bytes: every stored bit of a code, the unused bits of a C3 word excepted (R35, R47). -/
def notCodes (format : Nat) (bs : List Byte) : List Byte :=
  if format = 2 then bs.zipIdx.map (fun p => if p.2 % 4 = 3 then p.1 ^^^ 0x3F#8 else ~~~p.1) else bs.map (fun b => ~~~b)

/-- The pieces of a weight tensor that a die holds: an offset in the tensor, and the bytes in stored form (R47, R153). -/
def Draft.weightOn (dr : Draft) (j : Nat) (d : Weft) : List (Nat × List Byte) :=
  let t := dr.tensor j
  let plain := ((dr.blobs[t.blob]?).map (fun b => b.plain)).getD []
  let comp := d == .b && !dr.whole
  ((List.range t.rows).filter ((dr.place j).holdsRow d)).flatMap (fun r =>
    let row := sliceB plain (r * t.pitch) t.pitch
    [(r * t.pitch, if comp then notCodes t.format row else row), (t.scaleOff + r, sliceB plain (blobScales t + r) 1)])

/-- Write a weight tensor to its home on a die: the draft's GDDR6 region, or Beam SRAM (home 0: DEDUCED, log entry 29). -/
def WeftDie.putWeight (w : WeftDie) (dr : Draft) (base j : Nat) (d : Weft) : WeftDie :=
  let p := dr.place j
  (dr.weightOn j d).foldl (fun (x : WeftDie) pc =>
    if p.home = 1 then { x with gddr := x.gddr.writeBytes (base + p.homeOff + pc.1) pc.2 }
    else { x with beam := x.beam.writeBytes (p.sramAt d pc.1) pc.2 }) w

/-- The weight tensors of a draft. -/
def Draft.weights (dr : Draft) : List Nat := (List.range dr.tensors.length).filter (fun j => (dr.tensor j).weight)

/-- A die's codebook and curve slots and weights after a load (R43, R46, R127, R153). -/
def WeftDie.loadDraft (w : WeftDie) (dr : Draft) (base : Nat) (d : Weft) : WeftDie :=
  let w1 := { w with
    codebooks := dr.codebooks.foldl (fun l c => insertN l c.1 c.2) w.codebooks
    curves := dr.curves.foldl (fun l c => insertN l c.1 c.2) w.curves }
  dr.weights.foldl (fun (x : WeftDie) j => x.putWeight dr base j d) w1

/-- The Beam SRAM ranges in which a die holds bytes of a weight tensor: its resident rows, or the window its parts are staged into (R256,
R257); none where the die holds no row of it. -/
def Draft.weightRoom (dr : Draft) (j : Nat) (d : Weft) : List (Nat × Nat) :=
  let p := dr.place j
  if p.parts = 0 then (dr.weightOn j d).map (fun pc => (p.sramAt d pc.1, pc.2.length))
  else if (p.dies = 2 ∧ d = .b) ∨ (p.dies = 3 ∧ d = .a) then []
  else [(p.sramAt d 0, p.window * p.partBytes)]

/-- The weight regions of a draft on a die are overwritten with zeros, staged copies in Beam SRAM among them (R153). -/
def WeftDie.wipeDraft (w : WeftDie) (dr : Draft) (base n : Nat) (d : Weft) : WeftDie :=
  let w1 := { w with gddr := w.gddr.zero base n }
  dr.weights.foldl (fun (x : WeftDie) j => (dr.weightRoom j d).foldl (fun (y : WeftDie) r => { y with beam := y.beam.zero r.1 r.2 }) x) w1

/-- The weights of an entry are overwritten with zeros on every die that still holds them (R153). -/
def State.wipeEntry (s : State) (e : Entry) : State :=
  let go := fun (d : Weft) (w : WeftDie) => if e.gone.contains d then w else w.wipeDraft e.draft (e.base d) (e.region d) d
  { s with wa := go .a s.wa, wb := go .b s.wb }

end Machine

end Sys2Proof
end

