-- ==== Sys2Proof/Machine/Steps.lean ====
section
/-! DEFINITION. Steps, their work on the dies, and how a step is ended before its time (R98, R122, R472, R473). -/

namespace Sys2Proof

namespace Machine

/-! ### Finding and changing steps -/

/-- The step with an identity. -/
def State.step? (s : State) (id : Nat) : Option Step := s.steps.find? (fun t => t.id == id)

/-- Change the step with an identity. -/
def State.modStep (s : State) (id : Nat) (f : Step → Step) : State :=
  { s with steps := s.steps.map (fun t => if t.id = id then f t else t) }

/-- Forget a step.  With the last step that keeps a draft, the draft's weights on the surviving die go (R153, R479). -/
def State.dropStep (s : State) (id : Nat) : State :=
  let s1 := { s with steps := s.steps.filter (fun t => t.id != id) }
  match (s.step? id).bind (fun t => t.kept) with
  | some e => if s1.steps.any (fun t => decide (t.kept = some e)) then s1 else s1.wipeEntry e
  | none => s1

/-- A step that has started and not completed (R273). -/
def Stage.begun : Stage → Bool
  | .waiting => false
  | .admitted => false
  | .running => true
  | .saving => true
  | .preempted => true
  | .restoring => true
  | .packed => true
  | .delivering => true
  | .due _ => true

/-- A step whose work has ended and whose record is due (R307). -/
def Stage.ended (x : Stage) : Bool :=
  match x with
  | .due _ => true
  | .waiting => false
  | .admitted => false
  | .running => false
  | .saving => false
  | .preempted => false
  | .restoring => false
  | .packed => false
  | .delivering => false

/-- The started, uncompleted step of a context: at most one (R273).  A step that ended unstarted and whose record a full ring holds (R307) is
none. -/
def State.begunStep (s : State) (ctx : Nat) : Option Step :=
  s.steps.find? (fun t => t.ctx == ctx && t.stage.begun && (t.started || !t.stage.ended))

/-- The draft table entry with an index. -/
def State.entry? (s : State) (i : Nat) : Option Entry := s.drafts.find? (fun e => e.index == i)

/-- The draft of a step: the one its surviving die keeps (R479), else its entry's. -/
def State.stepEntry (s : State) (t : Step) : Option Entry :=
  match t.kept with
  | some e => some e
  | none => s.entry? t.entry

/-- The draft of a step; an empty draft when its entry is gone. -/
def State.stepDraft (s : State) (t : Step) : Draft :=
  match s.stepEntry t with
  | some e => e.draft
  | none => parseDraft [] []

/-- A step's work on a die. -/
def Step.work (t : Step) (d : Weft) : DieWork := match d with | .a => t.workA | .b => t.workB

/-- Change a step's work on a die. -/
def Step.modWork (t : Step) (d : Weft) (f : DieWork → DieWork) : Step :=
  match d with
  | .a => { t with workA := f t.workA }
  | .b => { t with workB := f t.workB }

/-- No work done. -/
def DieWork.zero : DieWork := { layersDone := [], digests := [], sats := [], written := [], codedRows := [], set := none, summarised := false }

/-- A step runs on a die. -/
def Step.on (t : Step) (d : Weft) : Bool := match d with | .a => t.onA | .b => t.onB

/-! ### Lost contents -/

/-- n bytes that are undefined until written (R397, code L): free values from draw k on. -/
def freeMem (k n : Nat) : Memory :=
  (List.range n).filterMap (fun i => if Config.freeByte (k + i) = 0 then none else some (i, Config.freeByte (k + i)))

/-- How many draws a lost pair takes. -/
abbrev pairDraws : Nat := 0x80000

/-- A pair whose registers and memories are lost (R397, row Pair memories and registers: L). -/
def Pair.lost (k : Nat) (p : Pair) : Pair :=
  { p with
    x := 0 :: (List.range 31).map (fun i => Config.freeDword (k + i))
    f := (List.range 32).map (fun i => Config.freeDword (k + 32 + i))
    v := (List.range 32).map (fun i => (Config.freeDword (k + 64 + 4 * i) ++ Config.freeDword (k + 65 + 4 * i)
           ++ Config.freeDword (k + 66 + 4 * i) ++ Config.freeDword (k + 67 + 4 * i)))
    pc := Config.freeDword (k + 192)
    frm := (Config.freeDword (k + 193)).setWidth 3
    fflags := (Config.freeDword (k + 194)).setWidth 5
    vcsr := { vl := Config.freeDword (k + 195), vtype := Config.freeDword (k + 196), vstart := Config.freeDword (k + 197),
              vxrm := (Config.freeDword (k + 198)).setWidth 2, vxsat := (Config.freeDword (k + 199)).getLsbD 0 }
    imem := freeMem k 131072
    dmem := freeMem (k + 131072) 131072 }

/-! ### Programs on pairs (R114, R117) -/

/-- A program starts on a pair: images loaded, a0 its argument, every other integer, floating-point and vector register zero, frm 0 (R113,
R114).  vl, vtype, vstart, vxrm, vxsat and fflags, which R114 does not name, start at 0 (DESIGN CHOICE, log entry 151).  A pair that a
lockstep mismatch halted runs again when the next program begins on it (R109; DESIGN CHOICE, log entry 152). -/
def Pair.begin (p : Pair) (prog : Program) (r : Running) : Pair :=
  { p with
    x := (List.replicate 32 (0 : Dword)).set 10 r.arg
    f := List.replicate 32 0
    v := List.replicate 32 0
    pc := BitVec.ofNat 64 r.start
    frm := 0
    fflags := 0
    vcsr := VecCsr.zero
    imem := Memory.writeBytes [] 0 prog.text
    dmem := Memory.writeBytes [] 0 prog.data
    run := some r
    stall := none
    halted := false
    resv := none }

/-- The program of a running. -/
def State.program (s : State) (r : Running) : Option Program :=
  match s.step? r.step with
  | some t => (s.stepDraft t).programs[r.program]?
  | none => none

/-- A free pair takes the next program that waits for it (R117). -/
def State.pairNext (s : State) (p : Pair) : Pair :=
  match p.run, p.queued with
  | none, r :: rest =>
    match s.program r with
    | some prog => { p with queued := rest }.begin prog r
    | none => { p with queued := rest }
  | _, _ => p

/-! ### What an operation of a step works on -/

/-- Where the buffer of an instance starts on a die. -/
def Instance.base (i : Instance) (d : Weft) : Nat := match d with | .a => i.baseA | .b => i.baseB

/-- A batch index's runtime state. -/
def State.batch (s : State) (b : Nat) : Batch := (s.batches[b]?).getD Batch.reset

/-- An instance of a batch index by its batch counter. -/
def State.inst? (s : State) (b c : Nat) : Option Instance := (s.batch b).instances.find? (fun i => i.counter == c)

/-- The tensors, slots, batch buffer and keys of a step on a die (R65, R69, R236, R237). -/
def State.env (s : State) (t : Step) (d : Weft) : Env :=
  let i := if t.batch then s.inst? t.batchIndex t.inst else none
  let base := fun (x : Weft) => match i with
    | some v => v.base x
    | none => 0
  { die := d
    draft := s.stepDraft t
    ma := s.wa.beam
    mb := s.wb.beam
    cbs := if t.kept.isSome then t.keptCbs else (s.weft d).codebooks
    curves := if t.kept.isSome then t.keptCurves else (s.weft d).curves
    baseA := base .a
    baseB := base .b
    compBatch := (i.map (fun v => v.complemented)).getD false
    kappas := t.kappas
    seed := t.seed
    counter := t.counter
    upsets := [] }

/-- Beam SRAM as an operation leaves it. -/
def State.putMem (s : State) (e : Env) : State := { s with wa := { s.wa with beam := e.ma }, wb := { s.wb with beam := e.mb } }

/-! ### Dropping a step's work (R98, R472) -/

/-- An event of a step's own work: its context and class, privilege 3 (those that R518 gives the event count). -/
def workEv (die code : Nat) (inst : Option Nat) (amount : Nat) (t : Step) : Ev :=
  { Ev.plain die code inst amount with ctx := some t.ctx, cls := some (b2n (!t.lc)), priv := some 3 }

/-- The rows of a layer that a die had written when its operation was cut short: any of them, none after (R98; log entry 124). -/
def Env.cutRows (e : Env) (l : Layer) (k : Nat) : Env :=
  (((e.layerRows l).rows.zipIdx.filter (fun x => (Config.freeByte (k + x.2)).getLsbD 0)).map (fun x => x.1)).foldl
    (fun w r => (Env.writeRow l.onArray l (w, 0, 0) r).1) e

/-- The array and Reed layers that a die runs for a step. -/
def WeftDie.midLayers (w : WeftDie) (id : Nat) : List Nat :=
  (w.arrayRun.toList ++ w.reedRun.toList).filterMap (fun o => match o.kind with
    | .layer l => if o.members.any (fun m => m.step == id) then some l else none
    | _ => none)

/-- Rows already written by operations of a step that end before their time stay in Beam SRAM (R98). -/
def State.cutShort (s : State) (t : Step) (d : Weft) : State :=
  ((s.weft d).midLayers t.id).foldl (fun u l =>
    let lay := (s.stepDraft t).layer l
    { u.putMem ((u.env t d).cutRows lay u.freshCtr) with freshCtr := u.freshCtr + (s.stepDraft t).rowsOf lay }) s

/-- An operation without a step's part; none when nothing is left of it. -/
def Op.without (id : Nat) (o : Op) : Option Op :=
  let ms := o.members.filter (fun m => m.step != id)
  if ms.isEmpty then none else some { o with members := ms }

/-- The freeze events of an array operation that ends before its time (R86, R471): the clocks of each cause that can hold the die are timing,
free amounts (log entry 150). -/
def State.cutFreezes (s : State) (t : Step) (d : Weft) : State :=
  if (s.weft d).arrayRun.any (fun o => o.members.any (fun m => m.step == t.id) && (o.without t.id).isNone) then
    (List.range (if (s.stepDraft t).whole then 5 else 4)).foldl (fun u c =>
      let n := (Config.freeDword u.freshCtr).toNat
      bumpAon (countEv { u with freshCtr := u.freshCtr + 1 } (workEv (dieNo d) (0x002 + c) none n t)) (dieNo d) 1 n) s
  else s

/-- An engine without a step's part: one whose operation has nobody left clears its drain bank, lanes and weight blocks (R98). -/
def Engine.dropStep (id : Nat) (e : Engine) : Engine :=
  match e.op with
  | none => e
  | some o =>
    match o.without id with
    | some x => { e with op := some x }
    | none => Engine.reset

/-- The tickets of a step's part of operations. -/
def opTickets (id : Nat) (l : List Op) : List Nat :=
  l.flatMap (fun o => (o.members.filter (fun m => m.step == id)).map (fun m => m.ticket))

/-- Every operation of a die. -/
def WeftDie.ops (w : WeftDie) : List Op :=
  w.arrayQ ++ w.reedQ ++ w.finishQ ++ w.stageQ ++ w.arrayRun.toList ++ w.reedRun.toList ++ w.finishRun.toList ++ w.stageRun.toList

/-- A pair that runs or holds a step's program. -/
def Pair.serves (p : Pair) (id : Nat) : Bool := (p.run.map (fun r => r.step == id)).getD false || p.queued.any (fun r => r.step == id)

/-- A pair without a step's programs; `k`: the draws for what it loses. -/
def Pair.dropStep (id k : Nat) (p : Pair) : Pair :=
  let q := { p with queued := p.queued.filter (fun r => r.step != id) }
  if (p.run.map (fun r => r.step == id)).getD false then { (q.lost k) with run := none, stall := none, halted := false, debugStep := false } else q

/-- A die without a step's operations, tickets, copies and programs. -/
def WeftDie.dropStep (id k : Nat) (w : WeftDie) : WeftDie :=
  let gone := opTickets id w.ops ++ w.pairs.flatMap (fun p =>
    ((p.run.toList ++ p.queued).filter (fun r => r.step == id)).filterMap (fun r => r.ticket))
  { w with
    arrayQ := w.arrayQ.filterMap (Op.without id)
    reedQ := w.reedQ.filterMap (Op.without id)
    finishQ := w.finishQ.filterMap (Op.without id)
    stageQ := w.stageQ.filterMap (Op.without id)
    arrayRun := w.arrayRun.bind (Op.without id)
    reedRun := w.reedRun.bind (Op.without id)
    finishRun := w.finishRun.bind (Op.without id)
    stageRun := w.stageRun.bind (Op.without id)
    engines := w.engines.map (Engine.dropStep id)
    barrier := if (w.arrayRun.bind (Op.without id)).isSome then w.barrier else none
    tickets := w.tickets.filter (fun t => !gone.contains t)
    pairs := w.pairs.zipIdx.map (fun p => p.1.dropStep id (k + p.2 * pairDraws)) }

/-! ### Gather windows: the composition, and what each die gets of it (R101, R102, R535) -/

/-- The used members of a gather group, in member order: context and row count. -/
def State.groupRows (s : State) (g : Nat) : List (Nat × Nat) :=
  ((List.range 16).map (fun m => s.reg (oGrpMem g m))).filterMap (fun w => if fld w 27 12 = 0 then none else some (fld w 11 0, fld w 27 12))

/-- The context of a member. -/
def State.memberCtx (s : State) (m : OpMember) : Option Nat := (s.step? m.step).map (fun t => t.ctx)

/-- Members placed one after the other, from a row on (R102, determinism off). -/
def placeRows : Nat → List OpMember → List OpMember
  | _, [] => []
  | b, m :: t => { m with base := b } :: placeRows (b + m.rows) t

/-- Members of a fixed composition at their row ranges, in member order; an absent member keeps its range (R102, determinism on). -/
def State.placeGroup (s : State) (ms : List OpMember) : Nat → List (Nat × Nat) → List OpMember
  | _, [] => []
  | b, (c, n) :: t => ((ms.filter (fun m => s.memberCtx m == some c)).map (fun m => { m with base := b })) ++ s.placeGroup ms (b + n) t

/-- A member's step runs on a die. -/
def State.memberOn (s : State) (d : Weft) (m : OpMember) : Bool := (s.step? m.step).any (fun t => t.on d)

/-- A window holds an entry of a die's array queue: the die asked, and its queue does not have the operation yet. -/
def Window.waits (w : Window) (d : Weft) : Bool := !w.sent.contains d && w.asked.any (fun a => decide (a.1 = d))

/-- A closed window's operation goes to a die's queue when every member whose step runs there has asked there (R535). -/
def State.windowReady (s : State) (w : Window) (d : Weft) : Bool :=
  w.closed && w.waits d && w.members.all (fun m => !s.memberOn d m || w.asked.any (fun a => decide (a.1 = d) && a.2.step == m.step))

/-- The operation of a window on a die: its composition, with the tickets of the die. -/
def Window.opOn (w : Window) (d : Weft) : Op :=
  let ms := w.members.filterMap (fun m =>
    (w.asked.find? (fun a => decide (a.1 = d) && a.2.step == m.step)).map (fun a => { a.2 with base := m.base }))
  { entry := w.entry, kind := .layer w.layer, pass := 0, members := ms
    rows := if w.group.isSome then w.span
      else if ms.length < w.members.length then w.members.foldl (fun a m => max a (m.base + m.rows)) 0 else 0 }

/-- A die's part of a window goes to its queue when it is complete. -/
def State.sendTo (a : State × Window) (d : Weft) : State × Window :=
  if a.1.windowReady a.2 d then
    (a.1.modWeft d (fun x => { x with arrayQ := x.arrayQ ++ [a.2.opOn d] }), { a.2 with sent := a.2.sent ++ [d] })
  else a

/-- A window has given every die of its members their operation. -/
def State.windowDone (s : State) (w : Window) : Bool :=
  w.closed && [Weft.a, Weft.b].all (fun d => w.sent.contains d || !w.members.any (s.memberOn d))

/-- Each closed window gives the dies that are complete their operation; one that owes nothing more goes (R535). -/
def State.sendWindows (s : State) : State :=
  let r := s.sched.windows.foldl (fun (a : State × List Window) w =>
    let p := [Weft.a, Weft.b].foldl State.sendTo (a.1, w)
    (p.1, if s.windowDone p.2 then a.2 else a.2 ++ [p.2])) (s, [])
  { r.1 with sched := { r.1.sched with windows := r.2 } }

/-- A window as it closes: its members take their rows (R101, R102). -/
def State.shutWindow (s : State) (w : Window) : Window :=
  match w.group with
  | none => { w with closed := true, members := placeRows 0 w.members }
  | some g => { w with
      closed := true
      members := s.placeGroup w.members 0 (s.groupRows g)
      span := (s.groupRows g).foldl (fun (a : Nat) (x : Nat × Nat) => a + x.2) 0 }

/-- A window closes: its requests run as one operation (R101, R102). -/
def State.closeWindow (s : State) (w : Window) : State :=
  ({ s with sched := { s.sched with windows := s.sched.windows.filter (fun x => decide (x ≠ w)) ++ [s.shutWindow w] } }).sendWindows

/-- A gather window without a step's requests; none when nothing is left of it. -/
def Window.without (id : Nat) (w : Window) : Option Window :=
  let ms := w.members.filter (fun m => m.step != id)
  if ms.isEmpty then none else some { w with members := ms, asked := w.asked.filter (fun a => a.2.step != id) }

/-- Every engine, pair, Reed, Finish, stage queue and gather window drops a step's work, and the latches its programs hold are
released (R98, R122, R472). -/
def State.dropWork (s0 : State) (t : Step) : State :=
  let s := (((s0.cutFreezes t .a).cutFreezes t .b).cutShort t .a).cutShort t .b
  let k := s.freshCtr
  State.sendWindows { s with
    wa := s.wa.dropStep t.id k
    wb := s.wb.dropStep t.id (k + 4 * pairDraws)
    freshCtr := k + 8 * pairDraws
    latches := s.latches.filter (fun l => decide (l.2 ≠ .program t.ctx))
    sched := { s.sched with windows := s.sched.windows.filterMap (Window.without t.id) } }

/-! ### A delivery cut short (R319, R347) -/

/-- The enabled binding of a source context: its target. -/
def State.mirrorOf (s : State) (src : Nat) : Option Nat :=
  ((List.range 64).find? (fun i => bitW (s.reg (oMirror i)) 31 && fld (s.reg (oMirror i)) 11 0 == src)).map
    (fun i => fld (s.reg (oMirror i)) 23 12)

/-- The oldest unused RECEIVE of a context that is not closing (R302, R322). -/
def State.receiveOf (s : State) (ctx : Nat) : Option ReadDesc :=
  if s.ctxOpen ctx then s.posted.find? (fun d => d.ctx == ctx && leAt d.bytes 0 1 == 8) else none

/-- Free bytes where Heddle was writing into the memory of a host. -/
def State.spoilHost (s : State) (p : HostPort) (addr n : Nat) : State :=
  let bs := (List.range n).map (fun i => Config.freeByte (s.freshCtr + i))
  match p with
  | .hostA => { s with hostMemA := s.hostMemA.writeBytes addr bs, freshCtr := s.freshCtr + n }
  | .hostB => { s with hostMemB := s.hostMemB.writeBytes addr bs, freshCtr := s.freshCtr + n }

/-- A step ends while Heddle writes its result set: what the buffer holds is not valid (R319), and a RECEIVE in use stays posted with
undefined contents (R347). -/
def State.spoil (s : State) (t : Step) : State :=
  if t.stage ≠ .delivering then s
  else
    let n := max (t.workA.set.getD []).length (t.workB.set.getD []).length
    let s1 := s.spoilHost t.fn.port t.resultAddr n
    match (if t.mirror then s.mirrorOf t.ctx else none).bind (fun g => (s.ctx? g).bind (fun cx => (s.receiveOf g).map (fun d => (cx, d)))) with
    | some (cx, d) => if n ≤ leAt d.bytes 16 4 then s1.spoilHost cx.fn.port (leAt d.bytes 8 8) n else s1
    | none => s1

/-- Every delivery is cut short. -/
def State.spoilAll (s : State) : State := s.steps.foldl State.spoil s

/-! ### Ending a step (R472, R473, R481) -/

/-- The contexts whose steps have a member in some of the operations. -/
def State.opCtxs (s : State) (ops : List Op) : List Nat :=
  ((ops.flatMap (fun o => o.members.map (fun m => m.step))).filterMap (fun i => (s.step? i).map (fun t => t.ctx))).foldl addSet []

/-- The die of engine or pair n (R109). -/
def weftOf (n : Nat) : Weft := if n < 4 then .a else .b

/-- Contexts with work queued or running on a unit (R470). -/
def State.unitCtxs (s : State) (u : UnitId) : List Nat :=
  match u with
  | .engine n =>
    let w := s.weft (weftOf n)
    s.opCtxs (w.arrayQ ++ w.arrayRun.toList)
  | .pair n =>
    match (s.weft (weftOf n)).pairs[n % 4]? with
    | some p => ((p.run.toList ++ p.queued).filterMap (fun r => (s.step? r.step).map (fun t => t.ctx))).foldl addSet []
    | none => []
  | .reed d => s.opCtxs ((s.weft d).reedQ ++ (s.weft d).reedRun.toList)
  | .finish d => s.opCtxs ((s.weft d).finishQ ++ (s.weft d).finishRun.toList)
  | .link _ => []
  | .creel => []
  | .heddle => (s.steps.filter (fun t => t.stage.begun)).map (fun t => t.ctx)

/-- The units of the dies that take operations or programs (R472). -/
def dataUnits : List UnitId :=
  (List.range 8).map UnitId.engine ++ (List.range 8).map UnitId.pair ++ [.reed .a, .reed .b, .finish .a, .finish .b]

/-- The units that a kill of a context tells to flush: those with work of it (R473). -/
def State.flushUnits (s : State) (ctx : Nat) : List (Nat × UnitId) :=
  (dataUnits.filter (fun u => (s.unitCtxs u).contains ctx)).map (fun u => (ctx, u))

/-- A step ends with a status: its work is dropped now, and KILL_COMPLETE gives its record.  A kill of a context already being
killed is absorbed, the higher status of R17 governing (PEER_RESET, KILLED, ECC_FAIL: 4, 3, 2). -/
def State.endCtx (s : State) (ctx status : Nat) : State :=
  match s.begunStep ctx with
  | none => s
  | some t =>
    match lookupN s.ladder.kills ctx with
    | some old => { s with ladder := { s.ladder with kills := insertN s.ladder.kills ctx (max old status) } }
    | none => { (s.dropWork t).spoil t with ladder := { s.ladder with
        kills := insertN s.ladder.kills ctx status
        flush := s.ladder.flush ++ s.flushUnits ctx } }

/-- End the steps of several contexts. -/
def State.endCtxs (s : State) (ctxs : List Nat) (status : Nat) : State := ctxs.foldl (fun t c => t.endCtx c status) s

/-- A step's part of an operation can still be served: its context is not being killed. -/
def State.live (s : State) (id : Nat) : Bool :=
  match s.step? id with
  | some t => (lookupN s.ladder.kills t.ctx).isNone
  | none => false

end Machine

end Sys2Proof
end

