-- ==== Sys2Proof/Machine/Creel.lean ====
section
/-! DEFINITION. Batches, buffers and substitution (R216, R236 to R243, R573). -/

namespace Sys2Proof

namespace Machine

/-! ### Settings -/

/-- A stream slot is enabled. -/
def State.slotOn (s : State) (k : Nat) : Bool := bitW (s.reg (oSlotBind k)) 28
/-- The port code of a stream slot. -/
def State.slotPort (s : State) (k : Nat) : Nat := fld (s.reg (oSlotBind k)) 5 0
/-- The recipe slot of a stream slot. -/
def State.slotRecipe (s : State) (k : Nat) : Nat := fld (s.reg (oSlotBind k)) 13 8
/-- The batch index of a stream slot. -/
def State.slotBatch (s : State) (k : Nat) : Nat := fld (s.reg (oSlotBind k)) 20 16
/-- The position of a stream slot. -/
def State.slotPos (s : State) (k : Nat) : Nat := fld (s.reg (oSlotBind k)) 25 21
/-- A batch index is enabled. -/
def State.batchOn (s : State) (b : Nat) : Bool := bitW (s.reg (oBatchCtl b)) 16
/-- B of a batch index. -/
def State.batchB (s : State) (b : Nat) : Nat := fld (s.reg (oBatchCtl b)) 5 0
/-- Buffers of a batch index. -/
def State.batchBufs (s : State) (b : Nat) : Nat := fld (s.reg (oBatchCtl b)) 7 6 + 1
/-- The partition that owns a batch index. -/
def State.batchOwner (s : State) (b : Nat) : Nat := b2n (bitW (s.reg (oBatchCtl b)) 8)
/-- The base of a batch on a die. -/
def State.batchBase (s : State) (b : Nat) (d : Weft) : Nat :=
  match d with | .a => (s.reg (oBatchBaseA b)).toNat | .b => (s.reg (oBatchBaseB b)).toNat

/-- The recipe in a recipe slot. -/
def State.recipe? (s : State) (r : Nat) : Option RecipeSlot := s.recipes.find? (fun x => x.slot == r)

/-- The recipe of a stream slot. -/
def State.slotRec (s : State) (k : Nat) : Option Recipe := (s.recipe? (s.slotRecipe k)).map (fun x => x.recipe)

/-- The stream slots that feed a batch index (R216). -/
def State.members (s : State) (b : Nat) : List Nat := (List.range 32).filter (fun k => s.slotOn k && s.slotBatch k == b)

/-- The regroup factor in force: 1 without regroup (R230). -/
def Recipe.factor (r : Recipe) : Nat := if r.regroupOn then max 1 r.f else 1

/-- Rows of a sample (R230, R231). -/
def Recipe.rows (r : Recipe) : Nat := if r.points then r.nx * r.ny * r.pmax else (r.hOut / r.factor) * (r.wOut / r.factor)

/-- Channels of a row (R230, R231). -/
def Recipe.rowLen (r : Recipe) : Nat := if r.points then r.nFeat else (if r.cfa = 2 then 2 else 1) * r.factor * r.factor

/-- The sample geometry (R216): rows, row_len, format, codebook and row_pitch. -/
def Recipe.geo (r : Recipe) : List Nat := [r.rows, r.rowLen, r.format, r.codebook, r.rowPitch]

/-- A coded tensor of n samples of the recipe, under R148. -/
def Recipe.tensor (r : Recipe) (n : Nat) : Tensor :=
  { Tensor.zero with batchInput := true, format := r.format, codebook := r.codebook, kappa := r.kappa, rows := n * r.rows, rowLen := r.rowLen, rowPitch := r.rowPitch }

/-- The recipe that gives a batch its geometry: that of its first member. -/
def State.batchRec (s : State) (b : Nat) : Option Recipe := (s.members b).head?.bind s.slotRec

/-- Bytes of a batch tensor of n samples of the recipe, up to the manifest (R237). -/
def Recipe.batchBytes (r : Recipe) (n : Nat) : Nat := alignUp (r.tensor n).bytes 64

/-- Bytes of a batch tensor up to the manifest; 0 where no member gives its geometry. -/
def State.batchBytes (s : State) (b : Nat) : Nat := ((s.batchRec b).map (fun r => r.batchBytes (s.batchB b))).getD 0

/-- Where buffer n of a batch starts on a die (R237). -/
def State.bufferBase (s : State) (b n : Nat) (d : Weft) : Nat := s.batchBase b d + n * (s.batchBytes b + 576)

/-- Change a batch index. -/
def State.modBatch (s : State) (b : Nat) (f : Batch → Batch) : State := { s with batches := modAt s.batches b f }

/-- Change one instance of a batch index. -/
def State.modInst (s : State) (b c : Nat) (f : Instance → Instance) : State :=
  s.modBatch b (fun x => { x with instances := x.instances.map (fun i => if i.counter = c then f i else i) })

/-- Change one position of an instance. -/
def State.modPos (s : State) (b c q : Nat) (f : Pos → Pos) : State :=
  s.modInst b c (fun i => { i with pos := modAt i.pos q f })

/-- A stream slot's runtime state. -/
def State.slot (s : State) (k : Nat) : Slot := (s.slots[k]?).getD Slot.reset

/-- Change a stream slot's runtime state. -/
def State.modSlot (s : State) (k : Nat) (f : Slot → Slot) : State := { s with slots := modAt s.slots k f }

/-- A count of a stream slot stops at its largest value. -/
def inc32 (w : Word) : Word := if w = 0xFFFFFFFF#32 then w else w + 1

/-- An event of a stream slot (R518). -/
def State.slotEv (s : State) (code k n : Nat) (addr : Option (Nat × Nat)) : State :=
  countEv s { Ev.plain 0 code (some k) n with master := some (0x80 + k), addr := addr }

/-! ### Writing rows -/

/-- The codebook a recipe names, when both dies hold one of its format (R220, R238). -/
def State.recipeCb (s : State) (r : Recipe) : Option Codebook :=
  match codebookAt s.wa.codebooks r.codebook, codebookAt s.wb.codebooks r.codebook with
  | some a, some b => if a.format = r.format ∧ b.format = r.format then some a else none
  | _, _ => none

/-- The stream slot whose master Creel takes for what belongs to a batch as a whole, its padding and its manifest: that of the first member
(DESIGN CHOICE, log entry 129: R16 has no master for Creel itself). -/
def State.batchSlot (s : State) (b : Nat) : Nat := (s.members b).headD 0

/-- The attributes of Creel's accesses for a stream slot (R515). -/
def slotAccess (k : Nat) : Ev := { Ev.plain 0 0 none 0 with master := some (0x80 + k), priv := some 3 }

/-- Creel writes bytes of an instance's buffer on both dies, over the links of each (R270); counts 0x041 on each die, and 0x0A4 for the
stream slot that writes (R518). -/
def State.creelPut (s : State) (k off : Nat) (i : Instance) (onA onB : List Byte) : State :=
  let s1 := s.modWeft .a (fun w => { w with beam := w.beam.writeBytes (i.baseA + off) onA })
  let s2 := s1.modWeft .b (fun w => { w with beam := w.beam.writeBytes (i.baseB + off) onB })
  let e := slotAccess k
  let s3 := (s2.linkBytes 0 1 e onA.length).linkBytes 0 2 e onB.length
  ((s3.beamBytes .a true (i.baseA + off) onA.length e).beamBytes .b true (i.baseB + off) onB.length e).slotEv 0x0A4 k (onA.length + onB.length) (some (0, i.baseA + off))

/-- Write row r of position q: codes in true form on Weft A, complemented on Weft B when the instance is (R236, R237). -/
def State.putRow (s : State) (b : Nat) (i : Instance) (q k : Nat) (rec : Recipe) (cb : Codebook) (r scale : Nat)
    (codes : List Nat) : State :=
  let t := rec.tensor (s.batchB b)
  let row := q * rec.rows + r
  let s1 := s.creelPut k (row * t.pitch) i (codedRowBytes t cb false codes) (codedRowBytes t cb i.complemented codes)
  s1.creelPut k (t.scaleOff + row) i (leBytes 1 scale) (leBytes 1 scale)

/-- The codebook that fills zero rows; where the slot holds none, code 0 (R45; log entry 18). -/
def State.zeroCb (s : State) (rec : Recipe) : Codebook :=
  (s.recipeCb rec).getD { format := rec.format, used := 0, levels := [] }

/-- Zero rows in a whole position (R238, R239, R231). -/
def State.zeroPos (s : State) (b : Nat) (i : Instance) (q k : Nat) (rec : Recipe) : State :=
  let cb := s.zeroCb rec
  (List.range rec.rows).foldl (fun t r => t.putRow b i q k rec cb r 0 (List.replicate rec.rowLen (cbZero cb))) s

/-! ### Hold samples (R240) -/

/-- Bytes of one hold half: code and scale planes, rounded up to 64 bytes. -/
def Recipe.holdBytes (r : Recipe) : Nat := alignUp (r.rows * (r.tensor 1).pitch + r.rows) 64

/-- Where a hold half of a stream slot starts. -/
def Slot.halfAt (sl : Slot) (half : Bool) : Nat := sl.holdBase + (if half then sl.holdBytes else 0)

/-- The bytes that a copy of a hold sample reads at one offset of a die and writes at another, codes and scales (R518). -/
def State.copyBytes (k : Nat) (s : State) (x : Weft × Nat × Nat × Nat) : State :=
  (s.beamBytes x.1 false x.2.1 x.2.2.2 (slotAccess k)).beamBytes x.1 true x.2.2.1 x.2.2.2 (slotAccess k)

/-- Copy a position of an instance into a hold half, on both dies. -/
def State.toHold (s : State) (k b : Nat) (i : Instance) (q : Nat) (rec : Recipe) (half : Bool) : State :=
  let t := rec.tensor (s.batchB b)
  let n := rec.rows * t.pitch
  let dst := (s.slot k).halfAt half
  let go := fun (st : State) (d : Weft) => st.modWeft d (fun w =>
    let src := i.base d
    let m1 := w.beam.writeBytes dst (w.beam.readBytes (src + q * n) n)
    { w with beam := m1.writeBytes (dst + n) (w.beam.readBytes (src + t.scaleOff + q * rec.rows) rec.rows) })
  [Weft.a, Weft.b].foldl (fun u d => State.copyBytes k (State.copyBytes k u (d, i.base d + q * n, dst, n))
    (d, i.base d + t.scaleOff + q * rec.rows, dst + n, rec.rows)) (go (go s .a) .b)

/-- Copy a hold half into a position of an instance, on both dies, in the form the instance has. -/
def State.fromHold (s : State) (k b : Nat) (i : Instance) (q : Nat) (rec : Recipe) (h : Hold) : State :=
  let t := rec.tensor (s.batchB b)
  let n := rec.rows * t.pitch
  let src := (s.slot k).halfAt (s.slot k).half
  let go := fun (st : State) (d : Weft) => st.modWeft d (fun w =>
    let codes := w.beam.readBytes src n
    let form := if d == .b && h.comp != i.complemented then notCodes rec.format codes else codes
    let dst := i.base d
    let m1 := w.beam.writeBytes (dst + q * n) form
    { w with beam := m1.writeBytes (dst + t.scaleOff + q * rec.rows) (w.beam.readBytes (src + n) rec.rows) })
  [Weft.a, Weft.b].foldl (fun u d => State.copyBytes k (State.copyBytes k u (d, src, i.base d + q * n, n))
    (d, src + n, i.base d + t.scaleOff + q * rec.rows, rec.rows)) (go (go s .a) .b)

/-! ### Substitution (R239) -/

/-- Substitute a position with a cause: last-good from a hold sample young enough, else zero rows. -/
def State.substitute (s : State) (b c q cause : Nat) : State :=
  match s.inst? b c with
  | none => s
  | some i =>
    match i.pos[q]? with
    | none => s
    | some p =>
      if p.state != .empty then s
      else
        match s.slotRec p.stream with
        | none => s
        | some rec =>
          let s1 := (s.modSlot p.stream (fun x => { x with substituted := inc32 x.substituted })).slotEv 0x0A3 p.stream 1 none
          let s2 := bumpAon s1 0 9 1
          let zero := (s2.zeroPos b i q p.stream rec).modPos b c q (fun x =>
            { x with state := .zeroSub, cause := cause, sat := 0, time := i.openTime, corrupt := cause == 1 })
          match rec.lastGood, (s2.slot p.stream).hold with
          | true, some h =>
            if s.time.now.toNat - h.time.toNat ≤ rec.maxAgeUs * 1000 then
              (s2.fromHold p.stream b i q rec h).modPos b c q (fun x =>
                { x with state := .copying, cause := cause, sat := h.sat, time := h.time, corrupt := cause == 1 })
            else zero
          | _, _ => zero

/-- The open sample of a slot becomes corrupt: counted, its position substituted, and the event raised (R239, R573).  Later lines
count as late. -/
def State.corruptSample (s : State) (k : Nat) : State :=
  match (s.slot k).phase with
  | .open sm =>
    let b := s.slotBatch k
    let s1 := s.modSlot k (fun x => { x with corrupt := inc32 x.corrupt, phase := .late })
    let s2 := s1.substitute b sm.counter sm.position 1
    eventRecord s2 { port := partPort (s.batchOwner b), num := 0 } 0x12 k
  | _ => s

/-! ### Instances (R238, R241, R243) -/

/-- Two ranges, first and end, share an offset. -/
def rangesMeet (a b : Nat × Nat) : Bool := decide (a.1 < b.2) && decide (b.1 < a.2)

/-- The bytes of a buffer of a batch on a die, with its manifest (R237). -/
def State.bufferSpan (s : State) (b n : Nat) (d : Weft) : Nat × Nat :=
  (s.bufferBase b n d, s.bufferBase b n d + s.batchBytes b + 576)

/-- A buffer of a batch has bytes of a buffer that is in use (R241): of the same batch index, or of another that lies there. -/
def State.bufferUsed (s : State) (b n : Nat) : Bool :=
  (List.range 32).any (fun c => (s.batch c).instances.any (fun i => !i.released && [Weft.a, Weft.b].any (fun d =>
    rangesMeet (s.bufferSpan b n d) (i.base d, i.base d + i.tensorBytes + 576))))

/-- The lowest free buffer of a batch. -/
def State.freeBuffer (s : State) (b : Nat) : Option Nat := (List.range (s.batchBufs b)).find? (fun n => !s.bufferUsed b n)

/-- Open an instance of a batch at a time, when both Weft dies are in service and a buffer is free (R236, R238, R243). -/
def State.openInst (s : State) (b : Nat) (time : Dword) : Option State :=
  if !(s.wa.inService && s.wb.inService && s.batchOn b) then none
  else
    match s.freeBuffer b with
    | none => none
    | some n =>
      let c := (s.batch b).counter + 1
      let pos := (List.range (s.batchB b)).map (fun q =>
        match (s.members b).find? (fun k => s.slotPos k == q) with
        | some k => ({ state := .empty, stream := k, cause := 0, sat := 0, time := 0, corrupt := false } : Pos)
        | none => { state := .padded, stream := 0xFF, cause := 0, sat := 0, time := 0, corrupt := false })
      let i : Instance := { counter := c, buffer := n, baseA := s.bufferBase b n .a, baseB := s.bufferBase b n .b,
                            tensorBytes := s.batchBytes b, openTime := time, readyTime := 0, ready := false, mode := s.mode, complemented := s.mode == 0,
                            pos := pos, started := false, eccFail := false, discarded := false, released := false }
      let s1 := s.modBatch b (fun x => { counter := c, instances := x.instances ++ [i] })
      match s.batchRec b with
      | none => some s1
      | some rec => some (pos.zipIdx.foldl (fun t p => if p.1.state == .padded then t.zeroPos b i p.2 (s.batchSlot b) rec else t) s1)

/-- A step uses an instance: bound to it, read and not completed. -/
def Step.uses (t : Step) (b c : Nat) : Bool := t.batch && t.batchIndex == b && t.inst == c

/-- Release buffers no longer in use, and forget released instances that no step names (R241). -/
def State.releaseInsts (s : State) (b : Nat) : State :=
  let busy := fun (i : Instance) => s.steps.any (fun t => t.uses b i.counter && t.stage.begun)
  let later := fun (i : Instance) => (s.batch b).instances.any (fun j => decide (i.counter < j.counter) && j.ready)
  let free := fun (i : Instance) =>
    if (i.ready || i.discarded) && !busy i && (i.started || i.discarded || later i) then { i with released := true } else i
  let keep := fun (i : Instance) => !i.released || s.steps.any (fun t => t.uses b i.counter)
  s.modBatch b (fun x => { x with instances := (x.instances.map free).filter keep })

/-- The injection stream slot a stream tag names on a host's injection port (R210, R315). -/
def State.injSlot (s : State) (p : HostPort) (tag : Nat) : Option Nat :=
  (List.range 32).find? (fun k => s.slotOn k && s.slotPort k == 0x1C + portPart p && fld (s.reg (oSlotSel k)) 15 0 == tag)

/-- The open sample of a stream is the one an INJECT began: its posted descriptor's bytes go on with 64 bytes, the container header, and the
batch counter of the sample. -/
def State.injectOpen (s : State) (k : Nat) (desc : List Byte) : Bool :=
  match (s.slot k).phase with
  | .open sm => leAt desc 128 8 == sm.counter
  | _ => false

/-- The bytes of an INJECT whose sample is discarded: it has no sample any more, as if dropped whole (R243). -/
def State.unmark (s : State) (k : Nat) (desc : List Byte) : List Byte :=
  if s.injectOpen k desc then desc.take 128 ++ leBytes 8 0 ++ desc.drop 136 else desc

/-- A posted INJECT whose sample is discarded. -/
def State.unmarkPosted (s : State) (d : ReadDesc) : ReadDesc :=
  if leAt d.bytes 0 1 ≠ 6 then d
  else match (s.ctx? d.ctx).bind (fun cx => s.injSlot cx.fn.port (leAt d.bytes 2 2)) with
    | some k => { d with bytes := s.unmark k d.bytes }
    | none => d

/-- A waiting packet of a slot whose sample is discarded. -/
def State.unmarkInput (s : State) (k : Nat) (x : Dword × Packet) : Dword × Packet :=
  match x.2 with
  | .inject desc payload checks => (x.1, .inject (s.unmark k desc) payload checks)
  | .frameStart => x
  | .line _ _ _ _ _ _ => x
  | .frameEnd => x
  | .discard _ _ => x
  | .point _ _ _ => x
  | .linkLoss => x

/-- No INJECT has an open sample any more: the samples being received are discarded (R243). -/
def State.unmarkAll (s : State) : State :=
  { s with
    posted := s.posted.map s.unmarkPosted
    slots := s.slots.zipIdx.map (fun x => { x.1 with input := x.1.input.map (s.unmarkInput x.2) }) }

/-- Discard every instance of every batch, the samples being received and the hold samples (R243, R397, R474).  A buffer stays while a
started step uses it (R479). -/
def State.discardInsts (s0 : State) : State :=
  let s := s0.unmarkAll
  let s1 := (List.range 32).foldl (fun t b =>
    (t.modBatch b (fun x => { x with instances := x.instances.map (fun i => { i with discarded := true }) })).releaseInsts b) s
  { s1 with slots := s1.slots.map (fun x =>
      { x with hold := none, copying := none, half := false, phase := match x.phase with
        | .open _ => .dropping
        | p => p }) }

/-- Every position of the batch's open instances that the stream fills and that lacks a complete sample is substituted with cause
3 (R243). -/
def State.closeStream (s : State) (k : Nat) : State :=
  let b := s.slotBatch k
  (s.batch b).instances.foldl (fun t i =>
    if i.ready || i.discarded then t
    else i.pos.zipIdx.foldl (fun u p => if p.1.stream == k && p.1.state == .empty then u.substitute b i.counter p.2 3 else u) t) s

/-- The timestamp of a batch instance: the earliest of its filled and substituted positions (R20). -/
def Instance.batchTime (i : Instance) : Dword :=
  let ts := (i.pos.filter (fun p => p.state != .padded)).map (fun p => p.time)
  match ts with
  | [] => i.openTime
  | t :: rest => rest.foldl (fun m x => if x.toNat < m.toNat then x else m) t

/-- A mask of the positions whose state satisfies a test. -/
def Instance.mask (i : Instance) (f : Pos → Bool) : Nat := (i.pos.zipIdx.filter (fun p => f p.1)).foldl (fun a p => a + 2 ^ p.2) 0

/-- The substituted mask (R242). -/
def Instance.substituted (i : Instance) : Nat := i.mask (fun p => p.state == .zeroSub || p.state == .lastGood)

end Machine

end Sys2Proof
end

