-- ==== Sys2Proof/Machine/Records.lean ====
section
/-! DEFINITION. What a step produced, and the step record (R66, R69, R70, R135, R295, R406 to R409, R307). -/

namespace Sys2Proof

namespace Machine

/-- The adapting tensors of a draft, ascending (R69, R406). -/
def Draft.adapting (d : Draft) : List Nat := (List.range d.tensors.length).filter (fun j => (d.tensor j).adaptEnable)

/-- The κ values a step takes: from the context's state, which Heddle keeps by the draft's digest, as it outlives a draft table entry (R397;
log entry 141), or for a replay from its record (R69). -/
def State.stepKappas (s : State) (t : Step) : List (Nat × Nat) :=
  if t.replay then t.kappas
  else
    let d := s.stepDraft t
    d.adapting.map (fun j =>
      (j, ((s.kappas.find? (fun k => decide (k.1 = (t.ctx, d.digest.toNat, j)))).map (fun k => k.2)).getD (d.tensor j).kappaInit))

/-- Add up two dies' shares, or take the one die that has one: array layers and row-split tensors add; other layers are computed
whole on each die that runs them (R66, R70, R135). -/
def Draft.addsUp (d : Draft) (l : Nat) : Bool :=
  d.whole && !(d.layer l).onFinish && ((d.layer l).onArray || (d.place (d.layer l).out).dies == 1)

/-- The digest of a layer of a step (R135, R408): Weft A's for a Paired step that ran on it (R408, R425). -/
def Step.layerDigest (t : Step) (d : Draft) (l : Nat) : Option Nat :=
  match lookupN t.workA.digests l, lookupN t.workB.digests l with
  | some a, some b => if t.onA then some (if d.addsUp l then (a + b) % 2 ^ 32 else a) else some b
  | some a, none => if t.onA then some a else none
  | none, b => b

/-- Layers a step has completed: on both dies for a layer that each die computes in part, else on a die that counts. -/
def Step.layersDone (t : Step) (d : Draft) : Nat :=
  ((List.range d.layers.length).filter (fun l =>
    let a := t.workA.layersDone.contains l
    let b := t.workB.layersDone.contains l
    if d.whole then (if d.addsUp l then a && b else a || b) else if t.onA then a else b)).length

/-- The batch instance of a step. -/
def State.stepInst (s : State) (t : Step) : Option Instance := if t.batch then s.inst? t.batchIndex t.inst else none

/-- The timestamp of a step's batch: 0 without batch input (R20, R406). -/
def State.stepBatchTime (s : State) (t : Step) : Dword :=
  match s.stepInst t with
  | some i => i.batchTime
  | none => 0

/-- The anchor of a step's age: batch timestamp, or doorbell time without batch input (R30, R295). -/
def State.ageAnchor (s : State) (t : Step) : Dword :=
  match s.stepInst t with
  | some i => i.batchTime
  | none => t.bellTime

/-- The step's input held a substitute. -/
def State.stepSubst (s : State) (t : Step) : Nat :=
  match s.stepInst t with
  | some i => i.substituted
  | none => 0

/-- record_bytes (R407). -/
def Draft.recordBytes (d : Draft) : Nat :=
  128 + ceilDiv (4 * d.adapting.length) 64 * 64 + ceilDiv (4 * d.layers.length) 64 * 64

/-- Zeros up to a length. -/
def padTo (n : Nat) (bs : List Byte) : List Byte := bs ++ List.replicate (n - bs.length) 0

/-- The disabled-unit map as bytes 72 to 75 of a step record (R406). -/
def Disabled.bytes (m : Disabled) : List Byte := [m.engines, m.pairs, m.links, m.vector.setWidth 8]

/-- The step record (R406 to R409); of a step that never started, with the κ values it would have taken (log entry 159). -/
def State.stepRecord (s : State) (t : Step) (status digest : Nat) : List Byte :=
  let d := s.stepDraft t
  let done := t.layersDone d
  let i := s.stepInst t
  let kap := (if t.started then t.kappas else s.stepKappas t).flatMap (fun k => leBytes 2 k.1 ++ leBytes 1 k.2 ++ leBytes 1 0)
  let dig := (List.range d.layers.length).flatMap (fun l => leBytes 4 (if l < done then (t.layerDigest d l).getD 0 else 0))
  leBytes 4 0x43455253 ++ leBytes 2 1 ++ leBytes 1 (b2n s.det + 2 * b2n t.replay + 4 * s.mode) ++ leBytes 1 0
    ++ leBytes 4 d.recordBytes ++ leBytes 4 s.sec.manifest.fwVersion.toNat ++ leBytes 8 t.counter.toNat ++ leBytes 8 t.seed.toNat
    ++ leBytes 32 d.digest.toNat ++ leBytes 8 d.buildId.toNat ++ s.disabled.bytes ++ leBytes 2 d.layers.length ++ leBytes 2 done
    ++ leBytes 2 d.adapting.length ++ leBytes 1 status ++ leBytes 1 t.entry ++ leBytes 4 (if t.batch then t.batchIndex else 0)
    ++ leBytes 8 (if t.batch then t.inst else 0) ++ leBytes 8 (s.stepBatchTime t).toNat
    ++ leBytes 8 ((i.map (fun x => x.openTime.toNat)).getD 0) ++ leBytes 4 (s.stepSubst t)
    ++ leBytes 4 (if status ≤ 1 then digest else 0) ++ leBytes 4 (min t.measured 0xFFFFFFFF) ++ leBytes 4 0
    ++ padTo (ceilDiv (4 * d.adapting.length) 64 * 64) kap ++ padTo (ceilDiv (4 * d.layers.length) 64 * 64) dig

/-- The result set a step delivers: Weft A's in Paired mode, the survivor's after a loss, the packing die's in Whole (R424, R428). -/
def Step.resultSet (t : Step) : Option (List Byte) :=
  match (if t.onA then t.workA.set else none) with
  | some b => some b
  | none => if t.onB then t.workB.set else none

/-- The step record goes to host memory, where the descriptor asks for it (R409). -/
def State.writeStepRecord (s : State) (t : Step) (status : Nat) : State :=
  let digest := ((t.resultSet).map (fun b => leAt b 24 4)).getD 0
  let at' := t.recordAddr + (if t.replay then (s.stepDraft t).recordBytes else 0)
  if t.record then hostWrite s t.fn.port (fnMaster t.fn) t.ctx t.lc at' (s.stepRecord t status digest) else s

/-- A completion ring cannot take a record now (R307). -/
def Ring.blocked (r : Ring) : Bool := r.full || !r.held.isEmpty

/-- The completion ring of a step cannot take its record now (R307). -/
def State.recordBlocked (s : State) (t : Step) : Bool :=
  (((s.ring? t.ctx t.ring).bind (fun r => s.ring? t.ctx r.cq)).map Ring.blocked).getD false

/-- A completion ring holds a record of a step (R307). -/
def State.recordHeld (s : State) (id : Nat) : Bool := s.rings.any (fun r => r.held.any (fun c => c.owner == some id))

end Machine

end Sys2Proof
end

