-- ==== Sys2Proof/WellFormed.lean ====
section
/-! DEFINITION. The commands whose operands name something the block has: checks on the operands alone. -/

namespace Sys2Proof

/-- A host function exists: the PF or one of 31 VFs (R16, R327). -/
def FnId.wf (f : FnId) : Bool := decide (f.num < 32)

/-- A function with MSI-X vectors. -/
def IrqFn.wf : IrqFn → Bool
  | .fn f => f.wf
  | .sup => true

/-- A unit Keeper can reset (R461): eight engines, eight pairs, eight links. -/
def UnitId.wf : UnitId → Bool
  | .engine n => decide (n < 8)
  | .pair n => decide (n < 8)
  | .reed _ => true
  | .finish _ => true
  | .link n => decide (n < 8)
  | .creel => true
  | .heddle => true

/-- A place that a checker reads exists (R112, R244): below 64 MiB of Beam SRAM, below 11.25 GiB of GDDR6, in the memory of the host of one
of 4,096 contexts, or in the 128 KiB of data memory of one of eight pairs. -/
def DataAt.wf : DataAt → Bool
  | .beam _ a => decide (a < 0x4000000)
  | .gddr _ a => decide (a < 0x2D0000000)
  | .host c _ => decide (c < 4096)
  | .pair n a => decide (n < 8) && decide (a < 131072)

/-- What the checks on reads find lies where there is memory. -/
def ReadChecks.wf (c : ReadChecks) : Bool := c.fixed.all DataAt.wf && c.hit.all (fun h => h.place.wf)

/-- An error of a product, a lane or a combined sum strikes a channel below 65,536 (R145); a report of the coders names an engine 0 to 7, or 8 for the
Reed's (R461). -/
def OpCheck.wf : OpCheck → Bool
  | .ok => true
  | .product _ n _ _ => decide (n < 65536)
  | .lane _ n _ _ => decide (n < 65536)
  | .combined _ n _ _ => decide (n < 65536)
  | .coder e _ => decide (e < 9)
  | .reedIntegrity => true

/-- A monitored instance exists (R467): engines 0 to 7, a Reed or Finish by die, 4,096 contexts, eight links, 32 slots, 256 rings. -/
def monWf (k : MonKind) (inst ring : Nat) : Bool :=
  match k with
  | .engine => decide (inst < 8)
  | .reed => decide (inst < 2)
  | .finish => decide (inst < 2)
  | .context => decide (inst < 4096)
  | .link => decide (inst < 8)
  | .slot => decide (inst < 32)
  | .ring => decide (inst < 4096) && decide (ring < 256)

/-- A JTAG operation names one of eight pairs (R109). -/
def JtagOp.wf : JtagOp → Bool
  | .readPair p _ => decide (p < 8)
  | .writePair p _ _ => decide (p < 8)
  | .haltPair p => decide (p < 8)
  | .resumePair p => decide (p < 8)
  | .stepPair p => decide (p < 8)
  | .inspectPair p r k => decide (p < 8) && decide (r < 98) && decide (k < 8)
  | .idcode => true
  | .boundaryScan => true
  | .scan => true
  | .readReg _ => true
  | .writeReg _ _ => true
  | .readMem _ _ _ => true
  | .writeMem _ _ _ _ => true

/-- A view exists. -/
def View.wf : View → Bool
  | .sup => true
  | .keeper => true
  | .supMsix => true
  | .supStaging => true
  | .fn f => f.wf

/-- What an unreachable operand would be, for each command: true when every operand names something the block has. -/
def Instr.wf : Instr → Bool
  | .prsnt1Low => true
  | .prsnt1DebounceExpiry => true
  | .standbyRailUp => true
  | .pwrEnRise _ _ _ _ => true
  | .railInRegulation => true
  | .powerGood => true
  | .bootVerified => true
  | .wakeNTimeout => true
  | .pwrEnFall => true
  | .pwrEnLowTimeout => true
  | .powerDownStep => true
  | .offReached => true
  | .inputUndervoltage => true
  | .inputOvervoltage => true
  | .prsnt1High => true
  | .removalDeclared => true
  | .thermalWarning _ _ => true
  | .thermalTrip _ _ => true
  | .railFault => true
  | .referenceLost => true
  | .pllLockLoss _ => true
  | .pllRelock _ => true
  | .heartbeatMissing => true
  | .aliveToggle => true
  | .perstAssert _ => true
  | .perstDeassert _ => true
  | .hostLinkLoss _ => true
  | .hostLinkUp _ _ _ _ _ => true
  | .hostLinkDegraded _ _ _ _ => true
  | .hostLinkRestored _ _ => true
  | .hostLinkRecovery _ => true
  | .supervisorLinkLoss => true
  | .supervisorLinkUp _ => true
  | .flr f => f.wf
  | .vfEnableClear _ => true
  | .msixVectorUnmask f v => f.wf && decide (v < 2048)
  | .syncInEdge _ q => decide (q < 4)
  | .syncOutRise => true
  | .syncOutFall => true
  | .smbusEepromRead _ _ o n => decide (o < 256) && decide (n ≤ 256)
  | .jtagAccess op k => op.wf && k.wf
  | .ptmDialogue _ _ => true
  | .gptpFrame e _ => decide (e < 4)
  | .timeSourceFail => true
  | .csi2FrameStart p vc _ => decide (p < 24) && decide (vc < 16)
  | .csi2LongPacket p vc dt _ _ _ _ _ _ _ => decide (p < 24) && decide (vc < 16) && decide (dt < 64)
  | .csi2FrameEnd p vc _ => decide (p < 24) && decide (vc < 16)
  | .csi2PacketDiscard p vc dt _ _ => decide (p < 24) && decide (vc < 16) && decide (dt < 64)
  | .phyLinkLoss p => decide (p < 28)
  | .ethernetFrame p _ _ _ _ => decide (p < 4)
  | .holdCopyDone s k => decide (s < 32) && k.wf
  | .batchCloseTimeout b _ => decide (b < 32)
  | .substituteCopyDone b _ p k => decide (b < 32) && decide (p < 32) && k.wf
  | .batchReady b _ => decide (b < 32)
  | .doorbellTail f p _ ds => f.wf && decide (p < 4096) && ds.all (fun d => d.length == 64 || d.isEmpty)
  | .doorbellHead f p _ => f.wf && decide (p < 4096)
  | .nop c => decide (c < 4096)
  | .nopFenceRelease c => decide (c < 4096)
  | .step c _ _ => decide (c < 4096)
  | .stepAdmission c _ => decide (c < 4096)
  | .batchWaitTimeout c => decide (c < 4096)
  | .draftLoad c => decide (c < 4096)
  | .draftLoadDone c _ _ => decide (c < 4096)
  | .draftUnload c => decide (c < 4096)
  | .draftUnloadDone c => decide (c < 4096)
  | .recipeLoad c _ _ => decide (c < 4096)
  | .recipeUnload c => decide (c < 4096)
  | .inject c h _ => decide (c < 4096) && h.length == 64
  | .injectReadDone c _ _ _ _ => decide (c < 4096)
  | .transfer c => decide (c < 4096)
  | .receive c => decide (c < 4096)
  | .wakeRequest _ _ => true
  | .wakeComplete _ _ => true
  | .idleTimeout _ _ => true
  | .restTimeout _ _ => true
  | .stateEntryDone _ _ => true
  | .rv64Instruction p st _ _ k => decide (p < 8) && st.all (fun x => decide (x.mask ≠ 0)) && k.wf
  | .rdtime p rd => decide (p < 8) && decide (rd < 32)
  | .ecall p => decide (p < 8)
  | .ebreak p => decide (p < 8)
  | .lmOp p rd a => decide (p < 8) && decide (rd < 32) && decide (a < 32)
  | .lmReed p rd a => decide (p < 8) && decide (rd < 32) && decide (a < 32)
  | .lmFin p rd a => decide (p < 8) && decide (rd < 32) && decide (a < 32)
  | .lmStage p rd a b => decide (p < 8) && decide (rd < 32) && decide (a < 32) && decide (b < 32)
  | .lmEvict p rd a b => decide (p < 8) && decide (rd < 32) && decide (a < 32) && decide (b < 32)
  | .lmSpawn p rd a b => decide (p < 8) && decide (rd < 32) && decide (a < 32) && decide (b < 32)
  | .lmWait p a => decide (p < 8) && decide (a < 32)
  | .lmSync p => decide (p < 8)
  | .lmHinge p a => decide (p < 8) && decide (a < 32)
  | .lmDec p rd a b _ => decide (p < 8) && decide (rd < 32) && decide (a < 32) && decide (b < 32)
  | .lmEnc p rd a b _ => decide (p < 8) && decide (rd < 32) && decide (a < 32) && decide (b < 32)
  | .lmLacq p rd a => decide (p < 8) && decide (rd < 32) && decide (a < 32)
  | .lmLrel p a => decide (p < 8) && decide (a < 32)
  | .lmRd p rd sel => decide (p < 8) && decide (rd < 32) && decide (sel < 32)
  | .queuedOpStart _ _ chk => chk.wf
  | .gatherHoldExpiry e _ => decide (e < 256)
  | .wholeBarrier => true
  | .arrayOpRetire _ _ _ k => k.wf
  | .reedOpRetire _ _ k => k.wf
  | .finishOpRetire _ _ k => k.wf
  | .stageCopyDone _ k => k.wf
  | .shuttleBudgetExpiry p => decide (p < 8)
  | .hingeSaveDone k => k.wf
  | .hingeRestoreDone k => k.wf
  | .stepFinish _ => true
  | .wardVerdict _ => true
  | .resultWritesDone c k => decide (c < 4096) && k.wf
  | .deadlineMonitorExpiry c _ => decide (c < 4096)
  | .ageMonitorExpiry c _ => decide (c < 4096)
  | .scrubLine _ f => (f.fixed ++ f.bad).all (fun n => decide (n < 512))
  | .gddr6Refresh _ c => decide (c < 12)
  | .gddr6EdcFail _ a n _ => decide (a < 0x2D0000000) && decide (1 ≤ n) && decide (n ≤ 4)
  | .transactionTimeout d p h => decide (p < 3) && h.place.wf && (match h.place with
    | .beam _ _ => false
    | .gddr x _ => decide (x = d)
    | .host _ _ => true
    | .pair _ _ => false)
  | .warpFlitCrcFail l => decide (l < 8)
  | .warpE2eMismatch l h => decide (l < 8) && h.place.wf
  | .warpLinkDown l => decide (l < 8)
  | .warpLinkRetrainDone l => decide (l < 8)
  | .warpRetrainTimeout l => decide (l < 8)
  | .gddr6TrainingDone _ _ => true
  | .gddr6ZeroingDone _ => true
  | .moduleFrameStart => true
  | .proofDue _ => true
  | .proofRelease _ => true
  | .proofVerdict _ _ => true
  | .selftestSliceStart _ => true
  | .sliceFallbackTimer _ => true
  | .selftestSliceEnd _ _ => true
  | .pairTestStart p => decide (p < 8)
  | .pairTestDone p _ => decide (p < 8)
  | .injectionDone sc _ => match sc with
    | .module => true
    | .die _ => true
    | .unit u => u.wf
  | .bootProofVerdict _ _ => true
  | .ready hs => hs.all (fun h => h.all (fun d => d.length == 64))
  | .graceTimerExpiry n => decide (n < 768)
  | .progressMonitorTrip k i r _ cs => monWf k i r && cs.all (fun c => decide (c < 4096))
  | .killComplete c stuck => decide (c < 4096) && stuck.all UnitId.wf
  | .unitResetDone u => u.wf
  | .rungDeadlineExpiry r => match r with
    | .unit u => u.wf
    | .die _ => true
    | .module => true
  | .isolationConfirmed u => u.wf
  | .dieInService _ => true
  | .hdlFnCtxOpenGo f _ => f.wf
  | .hdlFnCtxCloseGo f _ => f.wf
  | .contextCloseDone c => decide (c < 4096)
  | .ringCreate f => f.wf
  | .ringDestroy f => f.wf
  | .latchTake f l => f.wf && decide (l < 4096)
  | .latchRelease f l => f.wf && decide (l < 4096)
  | .faultStatusAck f => f.wf
  | .hspRaisedAck i _ => decide (i < 24)
  | .hspFirstClear => true
  | .hspActionKill c => decide (c < 4096)
  | .hspActionUnitReset u => u.wf
  | .hspActionDieReset _ => true
  | .hspActionModuleReset => true
  | .tmbNonce => true
  | .tmbToken => true
  | .tmbAttest => true
  | .tmbLoadDraftKey => true
  | .tmbEraseDraftKey k => decide (k < 256)
  | .tmbEnrol => true
  | .kprBootInstall _ => true
  | .kprRollbackCommit => true
  | .kprDebugWrite _ => true
  | .kprDbgDataRead k => k.wf
  | .kprDbgDataWrite _ => true
  | .kprSafetyWrite _ => true
  | .hdlDeterminismWrite _ => true
  | .kprFrameWrite _ => true
  | .kprFramePhaseWrite _ => true
  | .kprProofWrite _ => true
  | .kprStestWrite _ => true
  | .hspProgWinWrite k _ => decide (k < 5)
  | .hdlPartLoomWrite p _ => decide (p < 2)
  | .hdlPartMemWrite p _ => decide (p < 2)
  | .hdlPartQuotaWrite p _ => decide (p < 2)
  | .hdlPartLatchWrite p _ => decide (p < 2)
  | .hdlSchedGapWrite _ => true
  | .hdlSchedSaveWrite _ => true
  | .hdlMirrorWrite i _ => decide (i < 64)
  | .hdlGatherCtlWrite _ => true
  | .hdlGatherGrpWrite g _ => decide (g < 16)
  | .wrpWheelWrite l d h _ => decide (l < 8) && decide (d < 2) && decide (h < 2)
  | .crlSlotEnable s _ => decide (s < 32)
  | .crlSlotDisable s _ => decide (s < 32)
  | .crlBatchEnable b _ => decide (b < 32)
  | .crlBatchDisable b _ => decide (b < 32)
  | .ctrSelWrite _ i _ => decide (i < 32)
  | .ctrWatchCfgWrite w _ => decide (w < 16)
  | .registerLowWordRead v _ => v.wf
  | .badRegisterAccess v _ _ _ => v.wf
  | .registerWrite v _ _ => v.wf
  | .inputTurnOn => true
  | .electronicBreakerTrip => true
  | .vfEnableSet _ n _ => decide (1 ≤ n) && decide (n ≤ 31)
  | .poisonedBarWrite f _ => f.wf
  | .flrComplete f _ => f.wf
  | .transferDone c k => decide (c < 4096) && k.wf
  | .inputPowerUpdate _ _ _ => true

end Sys2Proof
end

