-- ==== Sys2Proof/Machine/Reset.lean ====
section
/-! DEFINITION. Closing contexts, and unit, die and module resets (R302, R392, R397, R474, R478 to R480). -/

namespace Sys2Proof

namespace Machine

/-! ### Records of steps that never ran -/

/-- The record of a step that did not run (R314, R317): its counter is 0 unless it had been admitted or accepted, and so are the qualifiers
that an admitted step carries (R294, R504, R542). -/
def State.unrunRecord (s : State) (t : Step) (status detail : Nat) : Completion :=
  let admitted := decide (t.stage ≠ .waiting)
  { Completion.zero with
    status := status, detail := detail, tag := t.tag, ring := t.ring, slot := t.slot, entry := t.entry, irq := t.irq
    step := if admitted then t.counter else 0
    substituted := admitted && s.stepSubst t != 0
    unqualified := admitted && t.unqualified
    ageFault := t.ageFault }

/-- Count a completed step (R518, R519, R520). -/
def countStep (s : State) (ctx : Nat) (lc : Bool) (status : Nat) : State :=
  let s1 := bumpAon s 0 1 1
  let s2 := if status = 3 then bumpAon s1 0 2 1 else if status = 1 then bumpAon s1 0 3 1 else if status = 0x10 then bumpAon s1 0 4 1
    else if status = 2 || status = 4 then bumpAon s1 0 5 1 else s1
  let s3 := countEv s2 { Ev.plain 0 0x083 none 1 with ctx := some ctx, cls := some (b2n (!lc)) }
  match s3.ctx? ctx with
  | none => s3
  | some cx =>
    if lc && status == 0x10 then bumpPart s3 cx.part 1
    else if lc && status == 1 then bumpPart s3 cx.part 2
    else if !lc && status == 1 then bumpPart s3 cx.part 5
    else s3

/-- A step ends before it ran (R319): its step record, but for NOT_ADMITTED and INVALID (R409), and its completion record are written, and
the step is forgotten; an admitted one whose record a full ring holds stays until it is written (R307). -/
def State.endUnrun (s : State) (t : Step) (status detail : Nat) : State :=
  let c := s.unrunRecord t status detail
  let s1 := if status = 0x10 ∨ status = 0x13 ∨ s.recordBlocked t then s else s.writeStepRecord t status
  if s.recordBlocked t && decide (t.stage ≠ .waiting) && decide (status ≠ 0x10) && decide (status ≠ 0x13) && (s.hport t.fn.port).carries then
    (completeDesc s1 t.ctx { c with owner := some t.id }).modStep t.id (fun x => { x with stage := .due status })
  else
    (completeDesc (countStep (s1.dropStep t.id) t.ctx t.lc status) t.ctx c).releaseInsts t.batchIndex

/-! ### Watch slots, groups and bindings that name what goes away -/

/-- Clear a bit of a register when a test of its value holds. -/
def State.clearBitIf (s : State) (off bit : Nat) (p : Word → Bool) : State :=
  if p (s.reg off) then s.setReg off (setFld (s.reg off) bit bit 0) else s

/-- An entry leaves the table: watch slots and gather groups that name it are disabled (R526, R565). -/
def State.forgetEntry (s : State) (e : Nat) : State :=
  let s1 := (List.range 16).foldl (fun t w => t.clearBitIf (oWatchCfg w) 20 (fun v => fld v 19 12 == e)) s
  (List.range 16).foldl (fun t g => t.clearBitIf (oGrp g) 22 (fun v => fld v 7 0 == e)) s1

/-- A context closes: mirror bindings that name it and watch slots on it are disabled (R302, R321, R526). -/
def State.forgetCtx (s : State) (c : Nat) : State :=
  let s1 := (List.range 16).foldl (fun t w => t.clearBitIf (oWatchCfg w) 20 (fun v => fld v 11 0 == c)) s
  (List.range 64).foldl (fun t i => t.clearBitIf (oMirror i) 31 (fun v => fld v 11 0 == c || fld v 23 12 == c)) s1

/-! ### Closing a context (R302) -/

/-- An INJECT whose container is still being read ends: its sample becomes corrupt (R302, R316). -/
def State.stopInject (s : State) (cx : Ctx) (d : ReadDesc) : State :=
  if leAt d.bytes 0 1 = 6 then
    match s.injSlot cx.fn.port (leAt d.bytes 2 2) with
    | some k => if s.injectOpen k d.bytes then (s.corruptSample k).modSlot k (fun x => { x with phase := .idle }) else s
    | none => s
  else s

/-- The load in progress stops, changing nothing: its descriptor is posted again, its entry freed or, for an unload, loaded again
(R347, R302). -/
def State.stopLoad (s : State) : State :=
  match s.loadBusy with
  | none => s
  | some d =>
    { s with
      loadBusy := none
      posted := d :: s.posted
      drafts := s.drafts.filter (fun e => decide (e.state ≠ .loading)) }

/-- A descriptor's type (R311). -/
def ReadDesc.type (d : ReadDesc) : Nat := leAt d.bytes 0 1
/-- A descriptor's flags. -/
def ReadDesc.flags (d : ReadDesc) : Nat := leAt d.bytes 1 1
/-- A field of a descriptor. -/
def ReadDesc.at' (d : ReadDesc) (off n : Nat) : Nat := leAt d.bytes off n

/-- A posted descriptor leaves. -/
def State.unpost (s : State) (d : ReadDesc) : State := { s with posted := s.posted.filter (fun x => decide (x ≠ d)) }

/-- A load or unload descriptor. -/
def ReadDesc.isLoad (d : ReadDesc) : Bool := d.type == 2 || d.type == 3

/-- The load or unload that comes first. -/
def firstLoad : List ReadDesc → Option ReadDesc
  | [] => none
  | d :: t =>
    match firstLoad t with
    | some e => if d.isLoad && decide (d.seq < e.seq) then some d else some e
    | none => if d.isLoad then some d else none

/-- A command of TMB_CMD runs or waits (TMB_STATUS.busy, R483). -/
def State.tumblerBusy (s : State) : Bool := s.sec.tmbWaiting.isSome || s.sec.enrolling.isSome

/-- The next load begins when none is in progress: the load or unload that arrived first, even while Heddle has not taken it from its
context's read queue (R169); a closing context's loads begin no more (R302).  A draft load takes the lowest free entry (R316), and is one
command of Tumbler's (event 0x0C2), which waits for those before it (R483). -/
def State.startLoad (s : State) : State :=
  match s.loadBusy, firstLoad ((s.posted ++ s.readQ).filter (fun d => s.ctxOpen d.ctx)) with
  | none, some d =>
    if s.readQ.any (fun x => decide (x = d)) || (d.type == 2 && s.tumblerBusy) then s
    else
    let s0 := ({ s.unpost d with loadBusy := some d }).wakeBeams
    if d.type = 3 then s0
    else
      let s1 := s0.tmbCount 0
      match s1.ctx? d.ctx with
      | none => s1
      | some cx =>
        match s1.freeEntry cx.part with
        | none => s1
        | some i => { s1 with drafts := s1.drafts ++ [{ index := i, partition := cx.part, state := .loading, draft := parseDraft [] [],
                                                         baseA := 0, baseB := 0 }] }
  | _, _ => s

/-- Entries whose unload no descriptor asks for any more are loaded again, or failed where their weights are lost (R302, R265). -/
def State.fixUnloading (s : State) : State :=
  { s with drafts := s.drafts.map (fun (e : Entry) =>
      if e.state = .unloading && !((s.posted ++ s.loadBusy.toList).any (fun d => d.type == 3 && d.at' 2 1 == e.index)) then
        { e with state := if e.lost then .failed else .loaded, lost := false } else e) }

/-- A context starts to close: its rings are read no more and its started step is killed (R302). -/
def State.closeStart (s : State) (c : Nat) : State :=
  { (s.modCtx c (fun x => { x with closing := true })).endCtx c 3 with heldBells := s.heldBells.filter (fun b => b.ctx != c) }

/-- The contexts of a function. -/
def State.fnCtxs (s : State) (f : FnId) : List Nat := (s.ctxs.filter (fun c => decide (c.fn = f))).map (fun c => c.id)

/-- The contexts of a host port. -/
def State.portCtxs (s : State) (p : HostPort) : List Nat := (s.ctxs.filter (fun c => decide (c.fn.port = p))).map (fun c => c.id)

/-! ### Units -/

/-- The unit code of R461. -/
def unitCode (u : UnitId) : Nat :=
  match u with
  | .engine n => n
  | .pair n => 0x10 + n
  | .reed .a => 0x20
  | .reed .b => 0x21
  | .finish .a => 0x28
  | .finish .b => 0x29
  | .link n => 0x30 + n
  | .creel => 0x40
  | .heddle => 0x41

/-- The unit a code names. -/
def codeUnit (c : Nat) : Option UnitId :=
  if c < 8 then some (.engine c)
  else if 0x10 ≤ c && c < 0x18 then some (.pair (c - 0x10))
  else if c = 0x20 then some (.reed .a)
  else if c = 0x21 then some (.reed .b)
  else if c = 0x28 then some (.finish .a)
  else if c = 0x29 then some (.finish .b)
  else if 0x30 ≤ c && c < 0x38 then some (.link (c - 0x30))
  else if c = 0x40 then some .creel
  else if c = 0x41 then some .heddle
  else none

/-- The dies a link joins (R263): links 0, 1 Selvedge and Weft A; 2, 3 Selvedge and Weft B; 4 to 7 the two Weft dies. -/
def linkOn (l : Nat) (d : Weft) : Bool := decide (4 ≤ l) || (match d with | .a => decide (l < 2) | .b => decide (2 ≤ l))

/-- The unit is disabled in HSP_DISABLED (R388). -/
def State.isDisabled (s : State) (u : UnitId) : Bool :=
  match u with
  | .engine n => s.disabled.engines.getLsbD n
  | .pair n => s.disabled.pairs.getLsbD n
  | .reed .a => s.disabled.vector.getLsbD 0
  | .reed .b => s.disabled.vector.getLsbD 1
  | .finish .a => s.disabled.vector.getLsbD 2
  | .finish .b => s.disabled.vector.getLsbD 3
  | .link n => s.disabled.links.getLsbD n
  | .creel => false
  | .heddle => false

/-- Set bit n of a map. -/
def setBitB {w : Nat} (m : BitVec w) (n : Nat) : BitVec w := m ||| BitVec.ofNat w (2 ^ n)

/-- Mark a unit disabled (R475, rung 3); an isolated link is a disabled link (R271). -/
def State.disable (s : State) (u : UnitId) : State :=
  let m := s.disabled
  match u with
  | .engine n => { s with disabled := { m with engines := setBitB m.engines n } }
  | .pair n => { s with disabled := { m with pairs := setBitB m.pairs n } }
  | .reed .a => { s with disabled := { m with vector := setBitB m.vector 0 } }
  | .reed .b => { s with disabled := { m with vector := setBitB m.vector 1 } }
  | .finish .a => { s with disabled := { m with vector := setBitB m.vector 2 } }
  | .finish .b => { s with disabled := { m with vector := setBitB m.vector 3 } }
  | .link n => { s with disabled := { m with links := setBitB m.links n },
                        links := modAt s.links n (fun l => { l with state := 3, modulesUp := 0 }) }
  | .creel => s
  | .heddle => s

/-- The die a unit belongs to; none for links, Creel and Heddle. -/
def unitDie (u : UnitId) : Option Weft :=
  match u with
  | .engine n => some (weftOf n)
  | .pair n => some (weftOf n)
  | .reed d => some d
  | .finish d => some d
  | .link _ => none
  | .creel => none
  | .heddle => none

/-- Where the reset of a die stands. -/
def State.diePhase (s : State) (d : Weft) : Option DiePhase := match d with | .a => s.ladder.dieA | .b => s.ladder.dieB

/-- A die is in die reset (R478); one whose training or injection failed is out of it, and another die reset starts afresh (R444). -/
def State.dieInReset (s : State) (d : Weft) : Bool := (s.diePhase d).any (fun p => decide (p ≠ .failed))

/-- A unit's place in the ladder. -/
def State.unitPhase (s : State) (u : UnitId) : Option UnitPhase := (s.ladder.units.find? (fun p => decide (p.1 = u))).map (fun p => p.2)

/-- A unit is neither in the ladder nor left in its state by a kill that it did not confirm (R473, R474). -/
def State.unitUp (s : State) (u : UnitId) : Bool := (s.unitPhase u).isNone && !s.ladder.stuck.contains u

/-- A unit leaves the ladder. -/
def State.unitDone (s : State) (u : UnitId) : State :=
  { s with ladder := { s.ladder with units := s.ladder.units.filter (fun p => decide (p.1 ≠ u)) } }

/-- A unit takes a place in the ladder. -/
def State.unitAt (s : State) (u : UnitId) (p : UnitPhase) : State :=
  { (s.unitDone u) with ladder := { s.ladder with units := (s.unitDone u).ladder.units ++ [(u, p)] } }

/-- Put descriptors into a list in the order of submission. -/
def mergeSeq (l : List ReadDesc) (ds : List ReadDesc) : List ReadDesc :=
  ds.foldl (fun acc d0 =>
    let d : ReadDesc := { d0 with bytes := d0.bytes.take 64 }
    acc.takeWhile (fun x => decide (x.seq < d.seq)) ++ d :: acc.dropWhile (fun x => decide (x.seq < d.seq))) l

/-- An engine, Reed or Finish is reset: a proof input or slice on its die is abandoned; the target has not passed (R481). -/
def Checks.abandon (c : Checks) : Checks :=
  { c with phase := if c.phase = .running then .abandoned else c.phase, slice := none, sliceDone := c.sliceDone || c.slice.isSome }

/-- An operation without a pair's members; none when nothing is left of it. -/
def Op.withoutPair (n : Nat) (o : Op) : Option Op :=
  let ms := o.members.filter (fun m => m.pair != n)
  if ms.isEmpty then none else some { o with members := ms }

/-- The issue queue entries of a pair go, with their tickets (R474); an operation that a unit runs ends there. -/
def WeftDie.dropPair (w : WeftDie) (n : Nat) : WeftDie :=
  let gone := ((w.arrayQ ++ w.reedQ ++ w.finishQ ++ w.stageQ).flatMap (fun o => o.members)).filterMap
    (fun m => if m.pair = n then some m.ticket else none)
  { w with
    arrayQ := w.arrayQ.filterMap (Op.withoutPair n)
    reedQ := w.reedQ.filterMap (Op.withoutPair n)
    finishQ := w.finishQ.filterMap (Op.withoutPair n)
    stageQ := w.stageQ.filterMap (Op.withoutPair n)
    tickets := w.tickets.filter (fun k => !gone.contains k) }

/-- Set a pair of a die. -/
def WeftDie.setPair (w : WeftDie) (n : Nat) (p : Pair) : WeftDie := { w with pairs := setAt w.pairs (n % 4) p }

/-- Clear a unit and nothing else (R474, R397 column Unit; Creel's hold samples go too, R397, log entry 17). -/
def State.clearUnit (s : State) (u : UnitId) : State :=
  match u with
  | .engine n => s.modWeft (weftOf n) (fun w => { w with engines := setAt w.engines (n % 4) Engine.reset, checks := w.checks.abandon })
  | .pair n => s.modWeft (weftOf n) (fun w => (w.dropPair n).setPair n Pair.reset)
  | .reed d => s.modWeft d (fun w => { w with reedQ := [], reedRun := none, checks := w.checks.abandon })
  | .finish d => s.modWeft d (fun w => { w with finishQ := [], finishRun := none, checks := w.checks.abandon })
  | .link n =>
    { (s.resetRegs (fun sc => decide (sc = .link n))) with links := modAt s.links n (fun _ => { Link.reset with state := 1 }) }
  | .creel => { s.discardInsts with slots := s.discardInsts.slots.map (fun x => { x with input := [] }) }
  | .heddle =>
    let t := s.stopLoad
    State.fixUnloading { t with
      readQ := mergeSeq (mergeSeq [] t.posted) t.readQ
      posted := []
      sched := { t.sched with lastPart := 1, nextStart := none, picked := none, windows := [], retest := false } }

/-! ### Die reset (R478, R479) -/

/-- A step needs a die (R282, R532): both for Whole tiling and in Paired mode, Weft A alone for Paired tiling in Bench. -/
def State.needs (s : State) (whole : Bool) (d : Weft) : Bool := whole || s.mode == 0 || (s.mode == 2 && d == .a)

/-- A die joins a list of dies. -/
def addSetW (l : List Weft) (d : Weft) : List Weft := if l.contains d then l else l ++ [d]

/-- The draft tables go; a step that keeps its draft takes a copy of it and of the slots (R171, R479). -/
def State.keepDraft (s : State) (t : Step) (left : Weft) : Step :=
  let gone := fun (e : Entry) => { e with gone := addSetW e.gone (otherDie left) }
  match t.kept with
  | some e => { t with kept := some (gone e) }
  | none => { t with kept := (s.entry? t.entry).map gone, keptCbs := (s.weft left).codebooks, keptCurves := (s.weft left).curves }

/-- What a die reset does to one step (R479, R428). -/
def State.resetStep (s : State) (d : Weft) (id : Nat) : State :=
  match s.step? id with
  | none => s
  | some t =>
    let dr := s.stepDraft t
    let single := s.mode == 0 && !dr.whole && s.singleOk
    let keep := fun (x : Step) => s.keepDraft x (otherDie d)
    if t.stage = .waiting then s
    else if t.stage.ended then s.modStep id keep
    else if !t.stage.begun then (if s.needs dr.whole d then s.endUnrun t 4 0 else s.modStep id keep)
    else if !t.on d then s.modStep id keep
    else if single && t.on (otherDie d) && (t.stage == .running || t.stage == .packed || t.stage == .delivering) then
      s.modStep id (fun x => keep (match d with
        | .a => { x with onA := false, singleChannel := true }
        | .b => { x with onB := false, singleChannel := true }))
    else (s.modStep id keep).endCtx t.ctx 4

/-- A die after the release of its reset: groups in Rest, GDDR6 training (R398, R254); a first proof that the mode asked for is still owed
(R416). -/
def WeftDie.afterReset (w : WeftDie) : WeftDie :=
  { WeftDie.reset with
    chans := List.replicate 12 { Chan.reset with train := 1 }
    checks := { Checks.reset with firstProof := w.checks.firstProof } }

/-- The units of a die leave the disabled map (R397). -/
def Disabled.clearDie (m : Disabled) (d : Weft) : Disabled :=
  match d with
  | .a => { engines := m.engines &&& 0xF0#8, pairs := m.pairs &&& 0xF0#8, links := m.links &&& 0x0C#8, vector := m.vector &&& 0xA#4 }
  | .b => { engines := m.engines &&& 0x0F#8, pairs := m.pairs &&& 0x0F#8, links := m.links &&& 0x03#8, vector := m.vector &&& 0x5#4 }

/-- The counters of a die return to 0 (R397, Die column). -/
def Counters.clearDie (c : Counters) (n : Nat) : Counters :=
  { c with prog := c.prog.filter (fun p => p.1 / 32 != n), aon := c.aon.filter (fun p => p.1 / 16 != n) }

/-- A unit belongs to a die or joins it. -/
def unitTouches (u : UnitId) (d : Weft) : Bool :=
  match u with
  | .link l => linkOn l d
  | _ => decide (unitDie u = some d)

/-- The die's part of a die reset: everything of the die and of the links that join it returns to its initial value. -/
def State.dieCleared (s : State) (d : Weft) : State :=
  let s1 := s.resetRegs (fun sc => match sc with
    | .die x => decide (x = d)
    | .link l => linkOn l d
    | _ => false)
  let s2 := s1.modWeft d WeftDie.afterReset
  let la := { s2.ladder with
    units := s2.ladder.units.filter (fun p => !unitTouches p.1 d)
    flush := s2.ladder.flush.filter (fun p => !unitTouches p.2 d)
    stuck := s2.ladder.stuck.filter (fun u => !unitTouches u d) }
  { s2 with
    links := s2.links.zipIdx.map (fun p => if linkOn p.2 d then Link.reset else p.1)
    disabled := s2.disabled.clearDie d
    ctr := s2.ctr.clearDie (dieNo d)
    clk := match d with
      | .a => { s2.clk with weftA := 0 }
      | .b => { s2.clk with weftB := 0 }
    bus := { s2.bus with
      heldWrites := s2.bus.heldWrites.filter (fun p => decide (ctrDie p.1 ≠ dieNo d))
      hiLatch := s2.bus.hiLatch.filter (fun p => !ctrLatch (dieNo d) p.1) }
    sched := { s2.sched with windows := s2.sched.windows.map (fun w => { w with asked := w.asked.filter (fun a => decide (a.1 ≠ d)) }) }
    ladder := match d with
      | .a => { la with dieA := some .training }
      | .b => { la with dieB := some .training } }

/-- A step keeps the draft of an entry on a surviving die. -/
def State.keeps (s : State) (e : Entry) : Bool := s.keptEntries.any (fun k => decide ({ k with gone := e.gone } = e))

/-- The other Weft die and Heddle lose every draft (R171): the weights of one that no step keeps are overwritten with zeros there (R153).
Every batch instance is discarded (R243). -/
def State.emptyTable (s : State) : State :=
  let s0 := s.drafts.foldl (fun t e => t.forgetEntry e.index) s
  let s1 := (s.drafts.filter (fun e => decide (e.state ≠ .loading) && !s.keeps e)).foldl State.wipeEntry s0
  let f := fun (w : WeftDie) => { w with codebooks := [], curves := [] }
  let s2 := s1.stopLoad
  (({ s2 with drafts := [], wa := f s2.wa, wb := f s2.wb }).startLoad).discardInsts

/-- Reset a Weft die (R478, R479).  Absorbed while the die is in reset.  Its links are down, and admission is tested again (R288). -/
def State.dieReset (s : State) (d : Weft) : State :=
  if s.dieInReset d then s
  else
    let s1 := eventAll s 0x20 (dieNo d)
    let s2 := (s1.steps.map (fun t => t.id)).foldl (fun t i => t.resetStep d i) s1
    let s3 := ((s2.dieCleared d).emptyTable).sendWindows
    { s3 with sched := { s3.sched with retest := true } }

/-! ### Links and units -/

/-- Some link of the group 4 to 7 is up (R271). -/
def State.groupUp (s : State) : Bool := (s.links.drop 4).any (fun l => l.state == 2#2)

/-- Every Whole-mode step ends with PEER_RESET (R271). -/
def State.endWhole (s : State) : State :=
  s.steps.foldl (fun u t =>
    if t.stage = .waiting || t.stage.ended then u else if t.stage.begun then u.endCtx t.ctx 4 else u.endUnrun t 4 0) s

/-- What the loss of a link leaves (R271): a die without a link to Selvedge is reset; with links 4 to 7 all down in Whole mode every step
ends. -/
def State.linkGone (s : State) (l : Nat) : State :=
  let lost := fun (a b : Nat) => !s.linkUp a && !s.linkUp b
  if l < 2 then (if lost 0 1 then s.dieReset .a else s)
  else if l < 4 then (if lost 2 3 then s.dieReset .b else s)
  else if s.mode = 1 ∧ !s.groupUp then s.endWhole else s

/-- A unit takes no reset: it does not exist, is in reset already, is isolated, or its die is in reset (R462, R481). -/
def State.unitHeld (s : State) (u : UnitId) : Bool :=
  let held := match unitDie u with
    | some d => s.dieInReset d
    | none => false
  !u.wf || held || s.isDisabled u || (s.unitPhase u).isSome

/-- A unit enters reset, cleared; a link that resets is down, and admission is tested again (R474, R271, R288). -/
def State.unitStart (s : State) (u : UnitId) : State :=
  let s0 := s.clearUnit u
  let s1 := ({ s0 with ladder := { s0.ladder with
    flush := s0.ladder.flush.filter (fun p => decide (p.2 ≠ u))
    stuck := s0.ladder.stuck.filter (fun x => decide (x ≠ u)) } }).unitAt u .resetting
  match u with
  | .link l => ({ s1 with sched := { s1.sched with retest := true } }).linkGone l
  | _ => s1

/-- Reset a unit (R474).  Every context with work on it is killed first (R475, rung 1; log entry 15). -/
def State.unitReset (s : State) (u : UnitId) : State := if s.unitHeld u then s else (s.endCtxs (s.unitCtxs u) 3).unitStart u

/-! ### Module reset (R480) and Off (R395) -/

/-- Security state after a module reset or Off: keys, nonce, mailbox and the records that boot reads again are gone, the manifest of the
image that ran among them (R14, R496, R502, TMB_MAILBOX, KPR_FW_VERSION, KPR_BOOT).  An install, an enrolment and a command in progress end
there (R488, R512). -/
def Security.afterReset (x : Security) : Security :=
  { x with
    manifest := Security.reset.manifest
    owner := none
    owk := none
    draftKeys := []
    nonce := none
    tmbResult := 0
    mailbox := []
    installing := none
    enrolling := none
    tmbWaiting := none }

/-- A host port whose link goes down; its counts stay (HDL_PORT_STATUS: cold reset). -/
def PortSt.downed (p : PortSt) : PortSt := { PortSt.reset with downCount := p.downCount, recoveryCount := p.recoveryCount }

/-- The mission domains return to their initial state: the Module and Off columns of R397.  Every context closes without a record
(R480, R395). -/
def State.missionReset (s : State) : State :=
  let s1 := s.resetRegs (fun sc => decide (sc ≠ .cold))
  { State.reset with
    pending := s.pending
    pins := { s.pins with alive := false, aliveRun := false, syncOut := false }
    supply := s.supply
    pwr := { s.pwr with
      firmware := false
      heartbeat := false
      recovery := false
      bootCause := 0
      stage := 0
      ready := false
      readyMs := 0
      bootT0 := s.time.now
      moduleInjectFailed := false
      injected := false
      startFailed := [] }
    time := s.time
    clk := State.reset.clk
    regs := s1.regs
    bus := { s.bus with hiLatch := [], heldWrites := [] }
    sec := s.sec.afterReset
    hasp := { s.hasp with grace := [], log := [] }
    portA := s.portA.downed
    portB := s.portB.downed
    portS := s.portS.downed
    msix := { s.msix with enabled := [], unmasked := [], pending := [], table := [] }
    hostMemA := s.spoilAll.hostMemA
    hostMemB := s.spoilAll.hostMemB
    freshCtr := s.spoilAll.freshCtr }

/-- Module reset (R480): the mission domains are reset; power good starts the boot (R475 rung 5, R546).  `fault`: FAULT_N is
asserted. -/
def State.moduleReset (s : State) (fault : Bool) : State :=
  let s1 := s.missionReset
  if s1.pwr.phase = .mission ∨ s1.pwr.phase = .powerUp then
    { s1 with
      pins := { s1.pins with faultN := s1.pins.faultN || fault }
      pwr := { s1.pwr with phase := .powerUp }
      ladder := { s1.ladder with module := true } }
  else s

end Machine

end Sys2Proof
end

