-- ==== Sys2Proof/Machine/Hasp.lean ====
section
/-! DEFINITION. Hasp: captures, reaction sets, grace timers and acknowledgement (R456 to R466). -/

namespace Sys2Proof

namespace Machine

/-- A capture before Hasp adds the time and the count (R460). -/
def cap (ctx : Option Nat) (master : Byte) (access : Nat) (address : Dword) (detail : Nat) : Capture :=
  { ctx := ctx, master := master, access := access, address := address, time := 0, detail := BitVec.ofNat 32 detail, count := 0 }

/-- No master (R460). -/
abbrev noMaster : Byte := 0xFF#8

/-- A source of a Weft die (R456). -/
def weftSrc (d : Weft) (i : Nat) : Nat := 256 * dieNo d + i

/-- A source of a link: k = 0 link-down, 1 retry-budget, 2 end-to-end, 3 link progress (R457). -/
def linkSrc (l k : Nat) : Nat := if l < 4 then 0x30 + 4 * l + k else 0x130 + 4 * (l - 4) + k

/-- The unit that a unit reset of a source resets (R457). -/
def srcUnit (n : Nat) (detail : Word) : Option UnitId :=
  let i := n % 256
  let lnk : Option UnitId := if 0x30 ≤ i && i < 0x40 then some (.link (if n < 256 then (i - 0x30) / 4 else 4 + (i - 0x30) / 4)) else none
  if n < 256 then
    if i = 0x0D || i = 0x22 || (0x40 ≤ i && i < 0x60) then some .creel
    else if i = 0x14 then some .heddle
    else if i = 0x0E then codeUnit detail.toNat
    else lnk
  else
    let d : Weft := if n < 512 then .a else .b
    let base := if n < 512 then 0 else 4
    if i < 0x0C then some (.engine (base + i % 4))
    else if i < 0x0F then some (.reed d)
    else if i = 0x0F then some (.finish d)
    else if 0x10 ≤ i && i < 0x1C then some (.pair (base + i % 4))
    else if n < 512 then lnk
    else none

/-- FAULT_N is asserted and ALIVE driven low (R354). -/
def State.assertFault (s : State) : State := { s with pins := { s.pins with faultN := true, alive := false, aliveRun := false } }

/-- A capture of a source; zeros where it has none. -/
def State.capture (s : State) (n : Nat) : Capture := (lookupN s.hasp.caps n).getD (cap none 0 0 0 0)

/-- HDL_FN_FAULT_STATUS of a first host interrupt (R466). -/
def faultStatus (n : Nat) (c : Capture) : Word :=
  BitVec.ofNat 32 (n + 2 ^ 10 * b2n c.ctx.isSome + 2 ^ 11 * c.ctx.getD 0 + 2 ^ 31)

/-- A host interrupt to one function: its status register, or the missed count, and its vector (R466). -/
def State.hostInterrupt (s : State) (f : FnId) (n : Nat) (c : Capture) : State :=
  if !(s.hport f.port).carries then s
  else
    let st := s.fnReg f 0x74
    let s1 := if bitW st 31 then s.setFnReg f 0x74 (setFld st 29 23 (min 127 (fld st 29 23 + 1)))
      else (s.setFnReg f 0x74 (faultStatus n c)).setFnReg f 0x78 c.detail
    if bitW (s.fnReg f 0x70) 31 then sendMsix s1 (.fn f) (fld (s.fnReg f 0x70) 10 0) else s1

/-- The functions a host interrupt of a source goes to (R466). -/
def State.intTargets (s : State) (n : Nat) (c : Capture) : List FnId :=
  match c.ctx with
  | some id =>
    match s.ctx? id with
    | some cx => [cx.fn]
    | none => []
  | none =>
    if n = 0x009 then [{ port := partPort (c.detail.toNat % 2), num := 0 }]
    else if 0x18 ≤ n && n < 0x20 then [{ port := partPort (n % 2), num := 0 }]
    else [{ port := .hostA, num := 0 }, { port := .hostB, num := 0 }]

/-- The trap: the capture goes to the next HSP_LOG entry, and supervisor vector 1 is raised (R462). -/
def State.trap (s : State) (n : Nat) (c : Capture) : State :=
  let next := fld (s.reg oLogHead) 5 0
  let s1 := { s with hasp := { s.hasp with log := insertN s.hasp.log next (n, c) } }
  supVector (s1.setReg oLogHead (BitVec.ofNat 32 ((next + 1) % 64))) 1

/-- The reset that a reaction set selects: the widest only (R462). -/
def State.fireReset (s : State) (n set : Nat) (c : Capture) : State :=
  if bitN set 5 || (bitN set 4 && decide (n < 256)) then s.moduleReset (bitN set 6)
  else if bitN set 4 then s.dieReset (if n < 512 then .a else .b)
  else if bitN set 3 then
    match srcUnit n c.detail with
    | some u => s.unitReset u
    | none => s
  else s

/-- Fire a reaction set (R462). -/
def State.fire (s : State) (n set : Nat) : State :=
  let c := s.capture n
  let s1 := if bitN set 0 then (s.intTargets n c).foldl (fun t f => t.hostInterrupt f n c) s else s
  let s2 := if bitN set 1 then supVector s1 0 else s1
  let s3 := if bitN set 2 then s2.trap n c else s2
  let s4 := if bitN set 6 then s3.assertFault else s3
  s4.fireReset n set c

/-- The first reaction set of a source. -/
def State.firstSet (s : State) (n : Nat) : Nat := fld (s.reg (oSrcCfg n)) 6 0

/-- The second reaction set of a source. -/
def State.secondSet (s : State) (n : Nat) : Nat := fld (s.reg (oSrcCfg n)) 13 7

/-- The grace time of a source in Tick clocks: ceil(g × 6.25) (R463). -/
def State.graceTicks (s : State) (n : Nat) : Nat := ceilDiv (fld (s.reg (oSrcCfg n)) 31 16 * 25) 4

/-- HSP_FIRST takes the first source, or a lower one raised in the same Tick clock (R459, R481). -/
def State.noteFirst (s : State) (n : Nat) : State :=
  let w := s.reg oFirst
  if !bitW w 31 || (decide (s.hasp.firstTime = some s.time.now) && decide (n < fld w 9 0)) then
    ({ s with hasp := { s.hasp with firstTime := some s.time.now } }).setReg oFirst (BitVec.ofNat 32 (2 ^ 31 + n))
  else s

/-- A second set fires, once for each raise (R463). -/
def State.fireNext (s : State) (n set : Nat) : State :=
  if s.hasp.secondFired.contains n then s
  else ({ s with hasp := { s.hasp with secondFired := addSet s.hasp.secondFired n, grace := eraseN s.hasp.grace n } }).fire n set

/-- The second set of a source fires (R463). -/
def State.fireSecond (s : State) (n : Nat) : State := s.fireNext n (s.secondSet n)

/-- A source occurs, its fixed action done: captured and fired when not raised, else counted (R459, R463).  Both sets are those in force at
the occurrence, and a grace timer runs from it, though a module reset of the first set ends it (R397). -/
def State.raise (s : State) (n : Nat) (c : Capture) : State :=
  if s.hasp.raised.contains n then
    let old := s.capture n
    let cnt := inc32 old.count
    ({ s with hasp := { s.hasp with caps := insertN s.hasp.caps n { old with count := cnt } } }).fireReset n (s.firstSet n) c
  else
    let s1 := s.noteFirst n
    let s2 := { s1 with hasp := { s1.hasp with
      caps := insertN s1.hasp.caps n { c with time := s.time.now, count := 0 }
      raised := addSet s1.hasp.raised n
      secondFired := delSet s1.hasp.secondFired n } }
    let s3 := bumpAon (countEv s2 (Ev.plain 0 0x0C1 (some (n / 256)) 1)) 0 12 1
    if s.graceTicks n = 0 then (s3.fire n (s.firstSet n)).fireNext n (s.secondSet n)
    else ({ s3 with hasp := { s3.hasp with grace := insertN s3.hasp.grace n (s.graceTicks n) } }).fire n (s.firstSet n)

/-- Acknowledgement: the raise, its count and its grace timer end (R459, R464). -/
def State.ackSource (s : State) (n : Nat) : State :=
  if s.hasp.raised.contains n then
    { s with hasp := { s.hasp with
      raised := delSet s.hasp.raised n
      grace := eraseN s.hasp.grace n
      secondFired := delSet s.hasp.secondFired n
      caps := insertN s.hasp.caps n { (s.capture n) with count := 0 } } }
  else s

/-- The 32 bytes of a capture (R460). -/
def captureBytes (n : Nat) (c : Capture) : List Byte :=
  leBytes 4 (n + 2 ^ 10 * b2n c.ctx.isSome + 2 ^ 11 * c.ctx.getD 0 + 2 ^ 24 * c.master.toNat) ++ leBytes 4 c.access
    ++ leBytes 8 c.address.toNat ++ leBytes 8 c.time.toNat ++ leBytes 4 c.detail.toNat ++ leBytes 4 c.count.toNat

end Machine

end Sys2Proof
end

