-- ==== Sys2Proof/Machine/Admission.lean ====
section
/-! DEFINITION. What a step costs and whether it is admitted (R282, R284 to R288, R96, R117, R477). -/

namespace Sys2Proof

namespace Machine

/-! ### Units in service -/

/-- The die of a unit's work is out because training or its injection failed (R254, R444). -/
def State.enginesOut (s : State) (d : Weft) : Bool := (s.weft d).trainFailed || (s.weft d).injectFailed

/-- Engine n is enabled. -/
def State.engineOn (s : State) (n : Nat) : Bool := !s.isDisabled (.engine n) && !s.enginesOut (weftOf n)

/-- Engine n takes work: enabled, not in a unit reset, and not left in its state by a kill (R96, R473, R474). -/
def State.engineTakes (s : State) (n : Nat) : Bool := s.engineOn n && s.unitUp (.engine n)

/-- Pair n is enabled (R117). -/
def State.pairOn (s : State) (n : Nat) : Bool := !s.isDisabled (.pair n) && !(s.weft (weftOf n)).injectFailed

/-- The engines of a die. -/
def enginesOf (d : Weft) : List Nat := match d with | .a => [0, 1, 2, 3] | .b => [4, 5, 6, 7]

/-- A unit is enabled and has passed its injection since its last reset (R282, R442). -/
def State.unitServes (s : State) (u : UnitId) : Bool := !s.isDisabled u && (s.unitPhase u).isNone

/-- The die can serve a step: in service, with an engine, a pair, Reed and Finish that are enabled and have passed injection (R282, check
0x03, R442). -/
def State.dieServes (s : State) (d : Weft) : Bool :=
  (s.weft d).inService && (enginesOf d).any (fun n => s.engineOn n && s.unitServes (.engine n))
    && (enginesOf d).any (fun n => s.pairOn n && s.unitServes (.pair n)) && s.unitServes (.reed d) && s.unitServes (.finish d)

/-- The draft's tiling matches the safety mode (R282, R415). -/
def State.tilingFits (s : State) (whole : Bool) : Bool := s.mode == 2 || (if whole then s.mode == 1 else s.mode == 0)

/-- The dies, links and injection that check 0x03 asks for. -/
def State.unitsServe (s : State) (whole : Bool) : Bool :=
  (!s.needs whole .a || s.dieServes .a) && (!s.needs whole .b || s.dieServes .b) && (s.mode != 1 || s.groupUp) && !s.pwr.moduleInjectFailed

/-- A change into Paired or Whole still waits for a first proof (R416). -/
def State.proofWait (s : State) : Bool :=
  s.mode != 2 && ((s.wa.inService && s.wa.checks.firstProof) || (s.wb.inService && s.wb.checks.firstProof))

/-! ### The cost C (R285) -/

/-- The Loom share and floor that admission uses (R390). -/
def State.effLoom (s : State) (p : Nat) : Word := s.sched.effLoom.getD p 0

/-- The partition's loom_share. -/
def State.share (s : State) (p : Nat) : Nat := fld (s.effLoom p) 9 0

/-- The wake term W for a floor (R285). -/
def wakeTerm (floor : Nat) : Nat := if floor = 0 then 6000 else if floor = 1 then 900000 else 24000000

/-- A die that the step needs has work moved off a disabled unit. -/
def State.anyOut (s : State) (whole : Bool) (on : State → Nat → Bool) : Bool :=
  (s.needs whole .a && (enginesOf .a).any (fun n => !on s n)) || (s.needs whole .b && (enginesOf .b).any (fun n => !on s n))

/-- The hold limit in µs: values above 10,000 act as 10,000 (R103). -/
def State.holdUs (s : State) : Nat := min (fld (s.reg oGatherCtl) 15 0) 10000

/-- The T_iso term (R285, R96, R117). -/
def State.tIso (s : State) (d : Draft) : Nat :=
  d.bounds.isolated
    + (if s.anyOut d.whole State.engineOn then d.layers.foldl (fun a l => a + (if l.onArray then l.bound else 0)) 0 else 0)
    + (if s.anyOut d.whole State.pairOn then d.tSh else 0)

/-- The T_sr term: one save and one restore of save_max (R280, R285). -/
def State.tSr (s : State) : Nat := 2 * (ceilDiv (fld (s.reg oSchedSave) 15 0 * 65536) 640 + 256)

/-- The T_gth term under a hold limit (R285). -/
def Draft.tGth (d : Draft) (hold : Nat) : Nat := (d.layers.filter (fun l => l.gatherable)).length * (hold * 600)

/-- The cost C of an LC step of a partition under the hold limit of its admission (R285, R540). -/
def State.cost (s : State) (p hold : Nat) (d : Draft) : Nat :=
  let iso := s.tIso d
  let det := if s.det then ceilDiv (9 * iso) 100 else 0
  let ref := 168 * ceilDiv (d.tSe + s.tSr) 1140
  let ret := 1248 * (if d.whole then 8 else 4) * ceilDiv (iso + s.tSr + ref) 600000
  let out := ceilDiv d.bounds.resultBytes 40 + 18000
  wakeTerm (fld (s.effLoom p) 11 10) + iso + det + d.tGth hold + s.tSr + ref + ret + out

/-! ### The timing test (R284, R286) -/

/-- A span of device time in Loom clocks, rounded down (R286). -/
def clocksDown (ns : Int) : Nat := (ns * 3 / 5).toNat

/-- The ready bound of a step minus t_a, in Loom clocks rounded up, not below 0 (R284, R286). -/
def State.readyClocks (s : State) (t : Step) (ta : Dword) : Nat :=
  if t.started || !t.batch then 0
  else
    match s.inst? t.batchIndex t.inst with
    | none => 0
    | some i =>
      if i.ready then 0
      else
        let recs := (s.members t.batchIndex).filterMap s.slotRec
        let close : Nat := (recs.map (fun r => r.closeUs)).foldl max 0
        let bytes : Nat := (recs.filter (fun r => r.lastGood)).foldl (fun a r => a + (r.rows * (r.tensor 1).pitch + r.rows)) 0
        let ns32 : Int := ((i.openTime.toNat : Int) + (close * 1000 + 10000 : Nat) - (ta.toNat : Int)) * 32 + (bytes : Int)
        ((ns32 * 3 + 159) / 160).toNat

/-- P + S in Loom clocks (R286, R417). -/
def State.reserve (s : State) : Nat := if s.mode = 2 then 0 else fld (s.reg oProof) 10 0 * 600 + 60000

/-- The blocking term B (R280). -/
def State.blocking (s : State) : Nat := max (fld (s.reg oSchedGap) 13 0) (fld (s.reg oSchedGap) 29 16) * 1024

/-- What the timing test looks at of one step: ready clocks, cost left, and D in clocks from t_a. -/
abbrev TestRow := Nat × Nat × Nat

/-- The row of a step (R286). -/
def State.testRow (s : State) (ta : Dword) (t : Step) : TestRow :=
  (s.readyClocks t ta, t.cost - (if t.started then t.measured else 0), clocksDown ((t.deadline.getD 0 : Int) - ta.toNat))

/-- Insert by D, after equal ones. -/
def insertRow (r : TestRow) : List TestRow → List TestRow
  | [] => [r]
  | x :: l => if r.2.2 < x.2.2 then r :: x :: l else x :: insertRow r l

/-- The rows that fail (R286): f runs over the rows by ascending D. -/
def failingRows (share b rsv tf : Nat) : Nat → List TestRow → Nat
  | _, [] => 0
  | f, r :: l =>
    let f1 := max f (r.1 + b) + ceilDiv (r.2.1 * 1000) (max 1 share)
    b2n (decide (r.2.2 < f1 + rsv * (ceilDiv r.2.2 (max 1 tf) + 1))) + failingRows share b rsv tf f1 l

/-- The admitted, uncompleted LC steps of a partition in admission order (R286). -/
def State.admittedLc (s : State) (p : Nat) : List Step :=
  s.steps.filter (fun t => t.lc && t.stage != .waiting && portPart t.fn.port == p)

/-- How many of a partition's steps, with a candidate last, fail the timing test at t_a (R286). -/
def State.failing (s : State) (p : Nat) (cand : List Step) (ta : Dword) : Nat :=
  let rows := ((s.admittedLc p ++ cand).map (s.testRow ta)).foldl (fun l r => insertRow r l) []
  failingRows (s.share p) s.blocking s.reserve (s.frameUs * 600) 0 rows

/-! ### Recomputation (R288) -/

/-- The costs of the admitted LC steps with the units in service now (R96, R117, R288). -/
def State.recost (s : State) : State :=
  { s with steps := s.steps.map (fun t =>
    if t.lc && t.stage != .waiting then { t with cost := s.cost (portPart t.fn.port) t.holdUs (s.stepDraft t) } else t) }

/-- A unit or link is lost: costs are recomputed, every partition is tested again, and the overcommit source is raised once when a
step fails (R288). -/
def State.recompute (s : State) : State :=
  let s1 := { s.recost with sched := { s.sched with retest := false } }
  let f0 := s1.failing 0 [] s1.time.now
  let f1 := s1.failing 1 [] s1.time.now
  if f0 != 0 then s1.raise 0x009 (cap none noMaster 0 0 (256 * f0))
  else if f1 != 0 then s1.raise 0x009 (cap none noMaster 0 0 (1 + 256 * f1))
  else s1

/-- The test of R288 where a link that went into unit reset asks for it. -/
def State.retestNow (s : State) : State := if s.sched.retest then s.recompute else s

/-! ### Submission checks at t_a (R282) -/

/-- The anchor of a step's deadline: open time of its instance, else the doorbell time (R281). -/
def State.anchor (s : State) (t : Step) : Dword :=
  if t.batch then (match s.inst? t.batchIndex t.inst with
    | some i => i.openTime
    | none => t.bellTime) else t.bellTime

/-- The deadline D of a step; none for a best-effort step with deadline_us 0 (R281). -/
def State.deadlineOf (s : State) (t : Step) : Option Nat :=
  if !t.lc && t.deadlineUs == 0 then none else some ((s.anchor t).toNat + t.deadlineUs * 1000)

/-- The last deadline among a context's admitted, uncompleted steps. -/
def State.lastDeadline (s : State) (ctx : Nat) : Nat :=
  (s.steps.filter (fun t => t.ctx == ctx && t.stage != .waiting)).foldl (fun m t => max m (t.deadline.getD 0)) 0

/-- An entry that a step read before its unload may still use, its weights not lost (R170, R265). -/
def Entry.open' (e : Entry) : Bool := decide (e.state = .loaded) || (decide (e.state = .unloading) && !e.lost)

/-- The weights of an entry are lost (R265). -/
def Entry.dead (e : Entry) : Bool := decide (e.state = .failed) || (decide (e.state = .unloading) && e.lost)

/-- The first check of R282 that an LC candidate fails; the candidate carries its deadline and cost.  A degraded port counts as a
share of 0 (R342). -/
def State.lcReason (s : State) (t : Step) : Option Nat :=
  let p := portPart t.fn.port
  match s.entry? t.entry with
  | none => some 1
  | some e =>
    if !e.open' || e.partition != p then some 1
    else if e.draft.bounds.hostSpill != 0 then some 2
    else if !(s.tilingFits e.draft.whole && s.unitsServe e.draft.whole) || s.proofWait then some 3
    else if fld (s.reg oSchedGap) 13 0 * 1024 < e.draft.bounds.hingeGap then some 4
    else if s.share p = 0 || (s.hport (partPort p)).degraded || 256 ≤ (s.admittedLc p).length then some 5
    else if !(decide (1 ≤ t.deadlineUs) && decide (t.deadlineUs ≤ 1000000)) || decide (t.deadline.getD 0 ≤ s.time.now.toNat) then some 6
    else if t.deadline.getD 0 < s.lastDeadline t.ctx then some 7
    else if s.failing p [t] s.time.now != 0 then some 8
    else none

/-- The outcome of a best-effort submission: the status and detail of a refusal (R282, R320). -/
def State.beReason (s : State) (t : Step) : Option (Nat × Nat) :=
  match s.entry? t.entry with
  | none => some (0x10, 1)
  | some e =>
    if !e.open' || e.partition != portPart t.fn.port then some (0x10, 1)
    else if !s.tilingFits e.draft.whole then some (0x13, 3)
    else if !s.unitsServe e.draft.whole then some (0x10, 3)
    else if fld (s.reg oSchedGap) 29 16 * 1024 < e.draft.bounds.hingeGap then some (0x13, 4)
    else none

end Machine

end Sys2Proof
end

