-- ==== Sys2Proof/Machine/Power.lean ====
section
/-! DEFINITION. Power states of the Weft groups (R26, R27, R276, R383 to R391, R398). -/

namespace Sys2Proof

namespace Machine

/-- Request Run for every group of a die. -/
def State.wakeDie (s : State) (d : Weft) : State := allGrps.foldl (fun t g => t.wake d g) s

/-- Every group of a die is in Run. -/
def State.dieRun (s : State) (d : Weft) : Bool := allGrps.all (fun g => (s.weft d).grp g == .at .run)

/-- A Selvedge group other than the Keeper groups, or the debug domains of the dies (R381, R382).  The A-PHY receivers have two groups of
eight (DEDUCED: R381 counts two power domains, R210 sixteen receivers). -/
inductive SelvGroup where
  | heddle
  | hostPort (p : HostPort)
  | supPort
  | aphy (n : Nat)
  | csi2
  | ethernet
  | creel
  | debug
deriving DecidableEq, Repr

/-- A stream slot is enabled. -/
def State.anySlot (s : State) : Bool := (List.range 32).any s.slotOn

/-- A sensor port between two port codes is enabled in CRL_PORT_CTL (R210, R382). -/
def State.portsOn (s : State) (first count : Nat) : Bool := (List.range count).any (fun i => bitW (s.reg (oPortCtl (first + i))) 0)

/-- A Selvedge group is in use (R382). -/
def State.selvUsed (s : State) (g : SelvGroup) : Bool :=
  match g with
  | .heddle => true
  | .hostPort p => (s.hport p).up
  | .supPort => true
  | .aphy n => s.portsOn (8 * n) 8
  | .csi2 => s.portsOn 0x10 8
  | .ethernet => s.portsOn 0x18 4
  | .creel => s.anySlot
  | .debug => s.debugLevel == 2

/-- The power state of a Selvedge group outside Off: Run while it is in use, else Cool (R382); none in Off, where its rails are off. -/
def State.selvState (s : State) (g : SelvGroup) : Option PState :=
  if s.pwr.phase = .mission then some (if s.selvUsed g then .run else .cool) else none

/-- The Creel PLL follows its one group: off while that sits in Cool, locked when a stream slot brings it to Run (R380, R382, R383). -/
def State.creelClock (s : State) (was : Bool) : State :=
  if s.anySlot = was then s else { s with clk := { s.clk with creel := s.anySlot } }

/-- Depth of a state: Run 0, Warm 1, Cool 2, Rest 3. -/
def PState.depth (p : PState) : Nat :=
  match p with
  | .run => 0
  | .warm => 1
  | .cool => 2
  | .rest => 3

/-- The depth a group has reached; a group on its way counts as the deeper of the two ends. -/
def GState.depth (x : GState) : Nat :=
  match x with
  | .at p => p.depth
  | .waking p => p.depth
  | .entering _ p => p.depth

/-- The partition has an LC context open. -/
def State.lcOpen (s : State) (p : Nat) : Bool := s.ctxs.any (fun c => c.lc && c.part == p)

/-- The floor a HDL_PART_LOOM word sets, as a depth. -/
def floorDepth (w : Word) : Nat := fld w 11 10 + 1

/-- The floor in force for given HDL_PART_LOOM words: the shallowest lc_floor among the partitions with a share or an LC context
(R389); none without one. -/
def State.floorOf (s : State) (w0 w1 : Word) : Option Nat :=
  let has := fun (p : Nat) (w : Word) => fld w 9 0 != 0 || s.lcOpen p
  match has 0 w0, has 1 w1 with
  | true, true => some (min (floorDepth w0) (floorDepth w1))
  | true, false => some (floorDepth w0)
  | false, true => some (floorDepth w1)
  | false, false => none

/-- The floor in force (R389). -/
def State.floor (s : State) : Option Nat := s.floorOf (s.reg (oPartLoom 0)) (s.reg (oPartLoom 1))

/-- A batch index is enabled (R386). -/
def State.anyBatch (s : State) : Bool := (List.range 32).any s.batchOn

/-- The deepest state the rules allow a group (R389, R386). -/
def State.deepest (s : State) (g : Grp) : Nat :=
  let a := if s.mode = 2 then 3 else 2
  let b := match s.floor with
    | some f => min a f
    | none => a
  if g = .beam && s.anyBatch then min b 1 else b

/-- The idle target of a group: the deeper of Warm and idle_state, not below what the rules allow (R389, KPR_PWR_IDLE). -/
def State.idleTarget (s : State) (g : Grp) : PState :=
  let want := if fld (s.reg oPwrIdle) 17 16 = 0 then 1 else 2
  if min want (s.deepest g) = 2 then .cool else .warm

/-- Work is scheduled on a group (R389): a step, a check, and for the Beam group a transfer of Heddle's or a hold or substitute copy of Creel's (R239, R240); a step that is saved or restored
resumes on the shuttles (R26, R289). -/
def State.grpBusy (s : State) (d : Weft) (g : Grp) : Bool :=
  let w := s.weft d
  let stepOn := match s.sched.running with
    | some i => ((s.step? i).map (fun t => t.on d)).getD false
    | none => false
  let moving := match s.sched.running with
    | some i => ((s.step? i).map (fun t => t.on d && (decide (t.stage = .saving) || decide (t.stage = .restoring)))).getD false
    | none => false
  let checks := decide (w.checks.phase = .due) || decide (w.checks.phase = .running) || w.checks.slice.isSome
  match g with
  | .loom => stepOn || checks || s.sched.nextStart.isSome
  | .shuttle => w.pairs.any (fun p => p.run.isSome || p.testing) || moving || s.sched.nextStart.isSome
  | .reedFinish => stepOn || checks || s.sched.nextStart.isSome
  | .beam => stepOn || checks || s.sched.nextStart.isSome || !w.ops.isEmpty || s.loadBusy.isSome || s.posted.any (fun x => leAt x.bytes 0 1 == 7)
      || s.slots.any (fun x => x.copying.isSome)
      || s.batches.any (fun b => b.instances.any (fun i => i.pos.any (fun p => decide (p.state = .copying))))

/-- Every group of the dies in service has reached a floor (R390). -/
def State.floorReached (s : State) (f : Option Nat) : Bool :=
  match f with
  | none => true
  | some n => [Weft.a, Weft.b].all (fun d => !(s.weft d).inService || allGrps.all (fun g => decide (((s.weft d).grp g).depth ≤ n)))

/-- Groups deeper than a floor are told to wake (R276, R390). -/
def State.wakeTo (s : State) (f : Option Nat) : State :=
  match f with
  | none => s
  | some n => [Weft.a, Weft.b].foldl (fun t d => allGrps.foldl (fun u g =>
      if n < ((u.weft d).grp g).depth then u.wake d g else u) t) s

/-- The shares and floors take effect for admission once the floor is reached (R390). -/
def State.applyLoom (s : State) : State :=
  if s.floorReached s.floor then { s with sched := { s.sched with effLoom := [s.reg (oPartLoom 0), s.reg (oPartLoom 1)] } } else s

/-- What a group loses on entry to Rest (R387, R397): Beam SRAM, pair memories, weight blocks and drain banks. -/
def State.restLoss (s : State) (d : Weft) (g : Grp) : State :=
  match g with
  | .beam => s.modWeft d (fun w => { w with beam := [] })
  | .shuttle =>
    let k := s.freshCtr
    { s.modWeft d (fun w => { w with pairs := w.pairs.zipIdx.map (fun p => p.1.lost (k + p.2 * pairDraws)) }) with
      freshCtr := k + 4 * pairDraws }
  | .loom => s.modWeft d (fun w => { w with engines := List.replicate 4 Engine.reset })
  | .reedFinish => s

end Machine

end Sys2Proof
end

