-- ==== Sys2Proof/Machine/Sched.lean ====
section
/-! DEFINITION. The order of work: ready steps, choice points, and the start and resumption of steps (R26, R114, R157, R273,
R277 to R279, R289, R504, R542). -/

namespace Sys2Proof

namespace Machine

/-! ### Which step is next (R277, R279) -/

/-- The batch input of a step is ready, or it has none (R277). -/
def State.inputReady (s : State) (t : Step) : Bool :=
  !t.batch || (match s.inst? t.batchIndex t.inst with
    | some i => i.ready && !i.discarded
    | none => false)

/-- Nothing of the step's context that was submitted before it is in its way: no earlier step, no earlier TRANSFER, no close (R273, R302,
R316). -/
def State.ctxTurn (s : State) (t : Step) : Bool :=
  s.ctxOpen t.ctx && (s.begunStep t.ctx).isNone && !(s.steps.any (fun u => u.ctx == t.ctx && decide (u.id < t.id)))
    && !(s.posted.any (fun d => d.ctx == t.ctx && decide (d.seq < t.id) && leAt d.bytes 0 1 == 7))

/-- A step that could start now (R277). -/
def State.stepReady (s : State) (t : Step) : Bool := t.stage == .admitted && s.inputReady t && s.ctxTurn t

/-- A pre-empted step that could resume now. -/
def State.resumable (s : State) (t : Step) : Bool := t.stage == .preempted && s.live t.id

/-- The earlier deadline of two steps; equal deadlines go to the first. -/
def earlier (a b : Step) : Step := if b.deadline.getD 0 < a.deadline.getD 0 then b else a

/-- The step with the earliest deadline; the list is in admission order. -/
def earliest : List Step → Option Step
  | [] => none
  | t :: l => some (l.foldl earlier t)

/-- The latency-critical steps that could hold the array. -/
def State.lcChoices (s : State) : List Step := s.steps.filter (fun t => t.lc && (s.stepReady t || s.resumable t))

/-- The first best-effort step of a partition, in submission order (R279). -/
def State.firstBe (s : State) (p : Nat) : Option Step :=
  (s.steps.filter (fun t => !t.lc && s.stepReady t && portPart t.fn.port == p)).foldl (fun m t =>
    match m with
    | none => some t
    | some u => if t.id < u.id then some t else some u) none

/-- The step that a choice point selects while no step holds the array (R277). -/
def State.pick (s : State) : Option Step :=
  match earliest s.lcChoices with
  | some t => some t
  | none =>
    match s.steps.find? (fun t => !t.lc && s.resumable t) with
    | some t => some t
    | none =>
      let other := 1 - s.sched.lastPart
      match s.firstBe other with
      | some t => some t
      | none => s.firstBe s.sched.lastPart

/-! ### Programs on a die (R114, R117) -/

/-- The lowest-numbered enabled pair of a die that takes work. -/
def State.lowestPair (s : State) (d : Weft) : Option Nat := (enginesOf d).find? (fun n => s.pairOn n && s.unitUp (.pair n))

/-- Put a program on a pair: it begins at once, or waits for the pair's own programs (R117).  A pair test is abandoned (R439). -/
def State.runOn (s : State) (n : Nat) (prog : Program) (r : Running) : State :=
  s.modWeft (weftOf n) (fun w => { w with pairs := modAt w.pairs (n % 4) (fun p =>
    let q := { p with testing := false }
    if q.run.isSome || !q.queued.isEmpty then { q with queued := q.queued ++ [r] } else q.begin prog r) })

/-- Start a step's sequencer program on a die (R114).  The manual gives its argument no value: a free value. -/
def State.startSeq (s : State) (t : Step) (d : Weft) : State :=
  let dr := s.stepDraft t
  let i := match d with | .a => dr.seqA | .b => dr.seqB
  match dr.programs[i]?, s.lowestPair d with
  | some prog, some n =>
    let r : Running := { step := t.id, program := i, tickets := [], clocks := 0, instrs := 0, ticket := none,
                         arg := Config.freeDword s.freshCtr, start := prog.entry }
    { s.runOn n prog r with freshCtr := s.freshCtr + 1 }
  | _, _ => s

/-- Resume a step's program on a die at its hinge's resume entry (R121). -/
def State.resumeSeq (s : State) (t : Step) (d : Weft) (h : Nat) (clocks : Nat) : State :=
  let dr := s.stepDraft t
  match dr.hinges[h]? with
  | none => s
  | some hg =>
    match dr.programs[hg.program]?, s.lowestPair d with
    | some prog, some n =>
      s.runOn n prog { step := t.id, program := hg.program, tickets := [], clocks := clocks, instrs := 0, ticket := none,
                       arg := BitVec.ofNat 64 h, start := hg.resume }
    | _, _ => s

/-! ### Qualifiers (R504, R542) -/

/-- A condition of R542 holds now. -/
def State.unqual (s : State) : Bool := s.mode == 2 || s.debugLevel == 2 || s.lifecycle == 0 || s.lifecycle == 3

/-- Every step admitted or started is covered while a condition of R542 holds. -/
def State.markUnqualified (s : State) : State :=
  if s.unqual then { s with steps := s.steps.map (fun t => if t.stage = .waiting then t else { t with unqualified := true }) } else s

/-! ### Start and resumption -/

/-- Groups that have work are no longer idle since before the mode became Bench (R389, R398). -/
def State.busyNow (s : State) : State :=
  [Weft.a, Weft.b].foldl (fun t d => t.modWeft d (fun w => { w with benchIdle := w.benchIdle.filter (fun g => !s.grpBusy d g) })) s

/-- A selected step starts: it holds the array, and its sequencers begin on its dies (R114, R277). -/
def State.beginStep (s : State) (t : Step) : State :=
  let whole := (s.stepDraft t).whole
  let a := s.needs whole .a
  let b := s.needs whole .b
  let s1 := s.modStep t.id (fun x => { x with
    stage := .running
    started := true
    onA := a
    onB := b
    kappas := s.stepKappas t
    workA := DieWork.zero
    workB := DieWork.zero })
  let s2 := { s1 with
   mon := eraseN s1.mon (instrKey t.ctx)
   sched := { s1.sched with
    running := some t.id
    nextStart := none
    picked := none
    lastPart := if t.lc then s1.sched.lastPart else portPart t.fn.port } }
  let s3 := if t.batch then s2.modInst t.batchIndex t.inst (fun i => { i with started := true }) else s2
  let s4 := countEv s3 { Ev.plain 0 0x082 none 1 with ctx := some t.ctx, cls := some (b2n (!t.lc)) }
  let s5 := if a then s4.startSeq t .a else s4
  (if b then s5.startSeq t .b else s5).busyNow

/-- Live ranges of a hinge as they are: the bytes each die saves, in order (R156, R289).  Data memory is that of the pair that runs
the hinge's program. -/
def Env.saveBytes (e : Env) (h : Hinge) (dmem : Memory) (d : Weft) : List Byte :=
  (e.draft.ranges h).flatMap (fun r =>
    if bitN r.dies (match d with | .a => 0 | .b => 1) then
      (if r.tensor = 0xFFFE then dmem.readBytes r.start r.length else e.bytes d r.tensor r.start r.length)
    else [])

/-- A step's program resumes: pre-emption is over (R289). -/
def State.resumeStep (s : State) (t : Step) : State :=
  let s1 := s.modStep t.id (fun x => { x with stage := .running, saved := none, hinge := none, resumeA := none, resumeB := none })
  let s2 := { s1 with sched := { s1.sched with running := some t.id, nextStart := none } }
  match t.hinge with
  | none => s2
  | some h =>
    let s3 := match t.resumeA with
      | some c => s2.resumeSeq t .a h c
      | none => s2
    State.busyNow (match t.resumeB with
      | some c => s3.resumeSeq t .b h c
      | none => s3)

/-! ### Save and restore (R156, R157, R289) -/

/-- A region of Beam SRAM: die, start and length. -/
abbrev Region := Weft × Nat × Nat

/-- The region of a tensor in a die's Beam SRAM; none where the die holds none of it. -/
def Env.regionOn (e : Env) (d : Weft) (j : Nat) : List Region :=
  let t := e.draft.tensor j
  let p := e.draft.place j
  if e.draft.tensors.length ≤ j then []
  else if t.batchInput then [(d, e.addr d j 0, t.bytes)]
  else if (p.dies = 2 ∧ d = .b) ∨ (p.dies = 3 ∧ d = .a) then []
  else [(d, p.sramAt d 0, if p.parts = 0 then t.bytes else min t.bytes (p.window * p.partBytes))]

/-- Bytes of a step's run-time tensors on a die become undefined (R157): free values from draw k on. -/
def Env.scramble (e : Env) (d : Weft) (k : Nat) : Env :=
  (List.range e.draft.tensors.length).foldl (fun x j =>
    let t := e.draft.tensor j
    if t.weight || t.batchInput || (e.regionOn d j).isEmpty then x
    else x.put d j 0 ((List.range t.bytes).map (fun i => Config.freeByte (k + j * 2 ^ 32 + i)))) e

/-- Write a hinge's live ranges of a die back, but those of data memory. -/
def Env.restore (d : Weft) : Env → List LiveRange → List Byte → Env
  | e, [], _ => e
  | e, r :: rs, bs =>
    if bitN r.dies (match d with | .a => 0 | .b => 1) then
      (if r.tensor = 0xFFFE then e else e.put d r.tensor r.start (bs.take r.length)).restore d rs (bs.drop r.length)
    else e.restore d rs bs

/-- Write a hinge's live ranges of data memory back. -/
def restoreDmem (d : Weft) : Memory → List LiveRange → List Byte → Memory
  | m, [], _ => m
  | m, r :: rs, bs =>
    if bitN r.dies (match d with | .a => 0 | .b => 1) then
      restoreDmem d (if r.tensor = 0xFFFE then m.writeBytes r.start (bs.take r.length) else m) rs (bs.drop r.length)
    else restoreDmem d m rs bs

/-- A die of a resuming step: every byte outside its live ranges is undefined (R157). -/
def State.restoreDie (s : State) (id : Nat) (d : Weft) (ranges : List LiveRange) (bs : List Byte) : State :=
  match s.step? id with
  | none => s
  | some t =>
    if !t.on d then s
    else
      let k := s.freshCtr
      let e := ((s.env t d).scramble d k).restore d ranges bs
      let s1 := { s.putMem e with freshCtr := k + 2 ^ 48 }
      s1.modWeft d (fun w => { w with pairs := w.pairs.map (fun (p : Pair) =>
        if (p.run.map (fun r => r.step == id)).getD false then { p with dmem := restoreDmem d (freeMem (k + 2 ^ 47) 131072) ranges bs } else p) })

/-! ### Choice points (R277) -/

/-- A selected pre-empted step is restored, or resumes at once when its hinge saved nothing (R289). -/
def State.restoreStep (s : State) (t : Step) : State :=
  let nothing : Bool := match t.hinge with
    | some h => (((s.stepDraft t).hinges[h]?).map (fun g => g.lrCount == 0)).getD true
    | none => true
  if nothing then ((s.resumeStep t).restoreDie t.id .a [] []).restoreDie t.id .b [] []
  else
    let s1 := s.modStep t.id (fun x => { x with stage := .restoring })
    { s1 with sched := { s1.sched with running := some t.id, nextStart := none } }

/-- Every group that a step needs is in Run (R26). -/
def State.groupsReady (s : State) (whole : Bool) : Bool :=
  (!s.needs whole .a || s.dieRun .a) && (!s.needs whole .b || s.dieRun .b)

/-- Heddle requests Run for the dies a step needs (R26). -/
def State.wakeFor (s : State) (whole : Bool) : State :=
  let s1 := if s.needs whole .a then s.wakeDie .a else s
  if s.needs whole .b then s1.wakeDie .b else s1

/-- The data or draft of a step is lost: it completes with ECC_FAIL when it would have started (R265). -/
def State.inputLost (s : State) (t : Step) : Bool :=
  (t.batch && ((s.inst? t.batchIndex t.inst).map (fun i => i.eccFail)).getD false)
    || (t.kept.isNone && ((s.entry? t.entry).map Entry.dead).getD false)

/-- A selected step starts or is restored; while its dies wake it waits (R26, R289). -/
def State.startOrWait (s : State) (t : Step) : State :=
  if !s.groupsReady (s.stepDraft t).whole then
    let u := s.wakeFor (s.stepDraft t).whole
    { u with sched := { u.sched with nextStart := some t.id } }
  else if t.stage = .preempted then s.restoreStep t
  else s.beginStep t

/-- A choice point while no step holds the array (R277): select, wake, and start or restore.  A step that waits for its dies to wake is
selected again at every choice point, so that one with an earlier deadline takes its place (R23). -/
def State.chooseN : Nat → State → State
  | 0, s => s
  | n + 1, s =>
    if s.sched.running.isSome then s
    else
      match s.pick with
      | none => { s with sched := { s.sched with nextStart := none } }
      | some t =>
        if t.stage = .admitted && s.inputLost t then State.chooseN n (s.endUnrun t 2 0)
        else s.startOrWait t

/-- Heddle works: its clock runs and it is not in reset (R380, R474). -/
def State.heddleOn (s : State) : Bool := decide (s.pwr.phase = .mission) && s.clk.fabric && decide (s.unitPhase .heddle ≠ some .resetting)

/-- A choice point (R277), where Heddle works. -/
def State.choose (s : State) : State := if s.heddleOn then s.chooseN (s.steps.length + 1) else s

/-- The step that was selected at the hinge starts when the save is over, whatever became ready meanwhile (R277, R289, R291); where it cannot
start any more, a choice is made. -/
def State.startPicked (s0 : State) : State :=
  let s := { s0 with sched := { s0.sched with picked := none } }
  match s0.sched.picked.bind s.step? with
  | some u => if s.heddleOn && (s.stepReady u || s.resumable u) && !(u.stage == .admitted && s.inputLost u) then s.startOrWait u else s.choose
  | none => s.choose

/-- The array is released by a step (R277). -/
def State.releaseArray (s : State) (id : Nat) : State :=
  if s.sched.running = some id then { s with sched := { s.sched with running := none } } else s

end Machine

end Sys2Proof
end

