-- ==== Sys2Proof/Machine/Finish.lean ====
section
/-! DEFINITION. Delivery and completion of steps (R29, R30, R68, R69, R294 to R297, R319, R322, R406 to R409). -/

namespace Sys2Proof

namespace Machine

/-! ### What a step produced -/

/-- The key under which a die counts what the consumers of a first-pass tensor saturate (R62). -/
abbrev codedMark (j : Nat) : Nat := 65536 + j

/-- A die's saturation count of a tensor: of its writers, and of the coding by its consumers (R66). -/
def DieWork.satCount (w : DieWork) (j : Nat) : Nat :=
  min 0xFFFFFFFF ((lookupN w.sats j).getD 0 + (lookupN w.sats (codedMark j)).getD 0)

/-- The two dies' counts of a tensor's writers add up: the dies share the rows of its layers, or programs write it (R70). -/
def Draft.satsAddUp (d : Draft) (j : Nat) : Bool :=
  d.whole && (let ls := (List.range d.layers.length).filter (fun l => (d.layer l).out == j); ls.isEmpty || ls.any d.addsUp)

/-- The saturation count of a tensor for a step (R66, R70): Weft A's for a Paired step that ran on it, the sum over all engines in
Whole mode; it stops at 0xFFFF_FFFF.  Of a Whole step's layer that each die computes whole, one die counts. -/
def Step.satCount (t : Step) (d : Draft) (j : Nat) : Nat :=
  if !d.whole then (if t.onA then t.workA.satCount j else t.workB.satCount j)
  else
    let a := (lookupN t.workA.sats j).getD 0
    let b := (lookupN t.workB.sats j).getD 0
    let made := if d.satsAddUp j then a + b else if (lookupN t.workA.sats j).isSome then a else b
    min 0xFFFFFFFF (made + (lookupN t.workA.sats (codedMark j)).getD 0 + (lookupN t.workB.sats (codedMark j)).getD 0)

/-- The count of a tensor that a die's drift comparison uses (R67): its own in Paired mode, the step's in Whole mode. -/
def Step.driftCount (t : Step) (d : Draft) (x : Weft) (j : Nat) : Nat := if d.whole then t.satCount d j else (t.work x).satCount j

/-- The digest of a layer that a die packs into its own result set: its own in Paired mode (R135, R423). -/
def Step.ownDigest (t : Step) (e : Env) (l : Nat) : Option Nat :=
  if e.draft.whole then t.layerDigest e.draft l else lookupN (t.work e.die).digests l

/-- The digest of a result output (R136).  Of one that only programs write, the CRC covers its rows in true form, whatever its type
(R138; for section types 0 and 4 DESIGN CHOICE, log entry 122). -/
def Step.outputDigest (t : Step) (e : Env) (j : Nat) : Nat :=
  let d := e.draft
  let ls := (List.range d.layers.length).filter (fun l => (d.layer l).out == j)
  if ls.isEmpty then
    let x := d.tensor j
    (crc32c ((List.range x.rows).flatMap (fun r =>
      if x.type = 0 ∧ ¬ x.heldB16 then codedRowBytes x (e.cb j) false (e.held j r).2
      else e.bytes (e.rowDie j r) j (r * x.pitch) x.pitch))).toNat
  else (ls.foldl (fun a l => a + (t.ownDigest e l).getD 0) 0) % 2 ^ 32

/-- The step digest (R136). -/
def Step.digest (t : Step) (e : Env) : Nat :=
  (crc32c ((e.draft.resultTensors).flatMap (fun j => leBytes 4 (t.outputDigest e j)))).toNat

/-! ### Records -/

/-- A result set with its qualifier bits, as Heddle delivers it (R137). -/
def qualified (bs : List Byte) (q : Nat) : List Byte := bs.take 28 ++ leBytes 4 q ++ bs.drop 32

/-- The qualifier bits of a step's result set (R137). -/
def State.qualBits (s : State) (t : Step) : Nat :=
  b2n (s.stepSubst t != 0) + 2 * b2n t.unqualified + 4 * b2n t.singleChannel

/-- The completion record of a step that ran (R317); where a full ring holds it, its status and age are taken again (`drainHeld`). -/
def State.ranRecord (s : State) (t : Step) (status age : Nat) (short : Bool) : Completion :=
  let iso := max 1 (s.stepDraft t).bounds.isolated
  { status := status
    substituted := s.stepSubst t != 0
    unqualified := t.unqualified
    singleChannel := t.singleChannel
    mirrorCopy := false
    mirrorShort := short
    ageFault := t.ageFault
    event := false
    detail := 0
    tag := t.tag
    ring := t.ring
    slot := t.slot
    entry := t.entry
    measured := t.measured
    step := t.counter
    slowDown := min 0xFFFF (t.measured * 4096 / iso)
    ageUs := age
    irq := t.irq
    owner := some t.id }

/-! ### Mirror delivery (R321, R322) -/

/-- Deliver to the mirror target: the state, and whether the source's record says mirror_short. -/
def State.deliverMirror (s : State) (t : Step) (c : Completion) (set : Option (List Byte)) : State × Bool :=
  match (s.mirrorOf t.ctx).bind (fun g => (s.ctx? g).bind (fun cx => (s.receiveOf g).map (fun d => (cx, d)))) with
  | none => (bumpPart s (1 - portPart t.fn.port) 6, true)
  | some (cx, d) =>
    let len := leAt d.bytes 16 4
    let fits := match set with
      | some bs => decide (bs.length ≤ len)
      | none => false
    let s1 := { s with posted := s.posted.filter (fun x => decide (x ≠ d)) }
    let s2 := match set with
      | some bs => if fits then hostWrite s1 cx.fn.port (fnMaster cx.fn) cx.id cx.lc (leAt d.bytes 8 8) bs else s1
      | none => s1
    let r : Completion := { c with tag := leAt d.bytes 4 4, ring := d.ring, slot := d.slot, entry := 0, mirrorCopy := true,
                                   mirrorShort := !fits }
    (completeDesc s2 cx.id r, !fits)

/-! ### Deadline and age (R294, R295, R30) -/

/-- The LC deadline source is raised for a step, once; the partition counts it (R294, R520). -/
def State.deadlineRaise (s : State) (t : Step) : State :=
  if t.lc && !t.deadlineFault then
    let s1 := (s.modStep t.id (fun x => { x with deadlineFault := true }))
    (bumpPart s1 (portPart t.fn.port) 3).raise 0x011 (cap (some t.ctx) noMaster 7 t.counter 0)
  else s

/-- A step past its D. -/
def State.deadlineFault (s : State) (t : Step) : State :=
  if decide (t.deadline.getD 0 < s.time.now.toNat) then s.deadlineRaise t else s

/-- The result-age source is raised for a step, once (R295). -/
def State.ageRaise (s : State) (t : Step) : State :=
  if t.lc && !t.ageFault then
    (s.modStep t.id (fun x => { x with ageFault := true })).raise 0x012 (cap (some t.ctx) noMaster 7 t.counter 0)
  else s

/-- A step past its age limit. -/
def State.ageFaultNow (s : State) (t : Step) : State :=
  match t.ageAt with
  | none => s
  | some a => if decide (a < s.time.now.toNat) then s.ageRaise t else s

/-! ### Completion (R319) -/

/-- κ updates at completion with OK or LATE (R68, R69). -/
def State.updateKappas (s : State) (t : Step) : State :=
  if t.replay then s
  else
    let d := s.stepDraft t
    t.kappas.foldl (fun u k =>
      let key := (t.ctx, d.digest.toNat, k.1)
      { u with kappas := u.kappas.filter (fun x => decide (x.1 ≠ key))
                 ++ [(key, adaptKappa (d.tensor k.1).adaptCurve k.2 (t.satCount d k.1))] }) s

/-- OK, or LATE after the deadline (R17, R294, R296). -/
def State.okOrLate (s : State) (t : Step) : Nat :=
  match t.deadline with
  | none => 0
  | some d => if d < s.time.now.toNat then 1 else 0

/-- The result age of a step whose record is written now, in µs rounded up (R30, R317). -/
def State.ageOf (s : State) (t : Step) (status : Nat) : Nat :=
  if status ≤ 1 then ceilDiv (s.time.now.toNat - (s.ageAnchor t).toNat) 1000 else 0

/-- The records of a step that started: step record, mirror, completion record, in that order (R29, R409, R322).  A step record waits
with a completion record that its full ring holds. -/
def State.writeRecords (s : State) (t : Step) (status : Nat) : State :=
  let delivered := decide (status ≤ 1)
  let age := s.ageOf t status
  let s1 := if s.recordBlocked t then s else s.writeStepRecord t status
  let set := if delivered then (t.resultSet).map (fun b => qualified b (s.qualBits t)) else none
  if t.mirror && (s1.hport t.fn.port).carries then
    let m := s1.deliverMirror t (s.ranRecord t status age false) set
    completeDesc m.1 t.ctx (s.ranRecord t status age m.2)
  else completeDesc s1 t.ctx (s.ranRecord t status age false)

/-- The last record of a step is written: it has completed (R68, R69, R241, R273, R277, R520). -/
def State.finishStep (s : State) (t : Step) (status : Nat) : State :=
  let s1 := if status ≤ 1 then s.updateKappas t else s
  (((countStep s1 t.ctx t.lc status).dropStep t.id).releaseInsts t.batchIndex).choose

/-- The status with which a step completes whose record is written now: OK becomes LATE when the record was held past D (R307). -/
def State.dueStatus (s : State) (t : Step) : Nat :=
  match t.stage with
  | .due st => if st ≤ 1 then s.okOrLate t else st
  | _ => s.okOrLate t

/-- The monitors of a step that delivered its results, at the moment of a record write (R294, R295). -/
def State.monitorsNow (s : State) (t : Step) : State := if s.dueStatus t ≤ 1 then (s.deadlineFault t).ageFaultNow t else s

/-- Write held records while the ring has room (R307).  A record of a step that ran takes the status and the age of this moment, and waits
while a kill of its step goes on; with its last record the step has completed. -/
def drainHeld : Nat → State → Nat → Nat → State
  | 0, s, _, _ => s
  | f + 1, s, ctx, idx =>
    match s.ctx? ctx, s.ring? ctx idx with
    | some cx, some cr =>
      match cr.held with
      | [] => s
      | c :: _ =>
        let next := fun (u : State) => u.modRing ctx idx (fun r => { r with held := r.held.drop 1 })
        if cr.full then s
        else
          match c.owner.bind s.step? with
          | none => drainHeld f (writeRecord (next s) cx cr c) ctx idx
          | some t =>
            let s1 := s.monitorsNow t
            if !s1.live t.id then s1
            else
              let st := s1.dueStatus t
              let s2 := if c.mirrorCopy then s1 else s1.writeStepRecord t st
              let s3 := writeRecord (next s2) cx cr { c with
                status := st, ageUs := s1.ageOf t st, ageFault := ((s1.step? t.id).map (fun x => x.ageFault)).getD false }
              drainHeld f (if s3.recordHeld t.id then s3 else s3.finishStep t st) ctx idx
    | _, _ => s

/-- Write what the completion rings of a context hold, while they have room. -/
def State.drainCtx (s : State) (c : Nat) : State :=
  (s.rings.filter (fun r => r.ctx == c && r.completion)).foldl (fun u r => drainHeld r.held.length u c r.index) s

/-- Steps whose held records went away with a ring have completed (R302). -/
def State.settleDue (s : State) : State :=
  s.steps.foldl (fun u t => if t.stage.ended && u.ctxOpen t.ctx && !u.recordHeld t.id then u.finishStep t (u.dueStatus t) else u) s

/-- What a step held of the machine is free: the array, the latches of its programs (R122; at a normal end DESIGN CHOICE, log entry 134),
Ward's summaries. -/
def State.endRun (s : State) (t : Step) : State :=
  { s with
    latches := s.latches.filter (fun l => decide (l.2 ≠ LatchHolder.program t.ctx))
    ladder := { s.ladder with kills := eraseN s.ladder.kills t.ctx }
    ward := { s.ward with summaries := s.ward.summaries.filter (fun w => w.step != t.id) } }.releaseArray t.id

/-- A step that started ends with a status (R319, R277): its records are written and it has completed, or it stays until a full ring has
taken its last record (R307); in a closing context they wait for their place in ring order (R302). -/
def State.completeStep (s : State) (id status : Nat) : State :=
  match s.step? id with
  | none => s
  | some t =>
    let s1 := s.endRun t
    let due := fun (u : State) (st : Nat) => u.modStep id (fun x => { x with stage := .due st })
    match t.stage with
    | .due old =>
      let s2 := due s1 (if old ≤ 1 then status else max old status)
      if s2.ctxOpen t.ctx then s2.rings.foldl (fun u r => if r.completion then drainHeld r.held.length u r.ctx r.index else u) s2 else s2
    | _ =>
      if !s1.ctxOpen t.ctx then (due s1 status).choose
      else
        let s2 := s1.writeRecords t status
        if s2.recordHeld id then (due s2 status).choose else s2.finishStep t status

end Machine

end Sys2Proof
end

