-- ==== Sys2Proof/Machine/PortOps.lean ====
section
/-! DEFINITION. Losing a host port or the supervisor port, and device time against its source (R339 to R348). -/

namespace Sys2Proof

namespace Machine

/-! ### Device time (R339 to R341) -/

/-- The time source KPR_TIME_CTL selects: 0 none, 1 IEEE 802.1AS, 2 PTM on Host A, 3 PTM on Host B. -/
def State.timeSource (s : State) : Nat := fld (s.reg oTimeCtl) 1 0

/-- An LC context is open in either partition (R340). -/
def State.anyLc (s : State) : Bool := s.ctxs.any (fun c => c.lc)

/-- The source fails: holdover, and the time-source source, once until a dialogue succeeds again (R341). -/
def State.timeFail (s : State) : State :=
  if s.timeSource = 0 || s.time.failed then s
  else
    ({ s with time := { s.time with lock := 3, good := 0, slew := 0, failed := true } }).raise 0x006 (cap none noMaster 0 0 0)

/-- An offset as KPR_TIME_OFFSET holds it: 32 bits, saturating. -/
def satOffset (o : Int) : Word := BitVec.ofInt 32 (max (-(2 ^ 31)) (min (2 ^ 31 - 1) o))

/-- Locked, with an offset to slew away (R340). -/
def Time.locked (t : Time) (slew : Int) : Time := { t with lock := 2, everLocked := true, slew := slew }

/-- Device time steps forward to the source time; the offset is negative (R340). -/
def Time.stepped (t : Time) (o : Int) : Time := { t.locked 0 with now := t.now + BitVec.ofInt 64 (-o) }

/-- An offset above 1 ms (R340): holdover, with a forward step while no LC context is open. -/
def Time.beyond (t : Time) (o : Int) (lcOpen : Bool) : Time :=
  { t with lock := 3, good := 0, slew := 0, now := if !lcOpen && decide (o < 0) then t.now + BitVec.ofInt 64 (-o) else t.now }

/-- A measured offset while locked (R340): within 1 ms it slews. -/
def Time.correct (t : Time) (o : Int) (lcOpen : Bool) : Time :=
  if o.natAbs ≤ 1000000 then t.locked (-o) else t.beyond o lcOpen

/-- A measured offset after a loss of lock or a change of source (R339 to R341): within 1 ms device time slews and is acquired again, and
eight offsets in a row within 1 µs give the lock. -/
def Time.regain (t : Time) (o : Int) (lcOpen : Bool) : Time :=
  if o.natAbs ≤ 1000000 then
    let n := if o.natAbs ≤ 1000 then t.good + 1 else 0
    if 8 ≤ n then { t.locked (-o) with good := n } else { t with lock := 1, good := n, slew := -o }
  else t.beyond o lcOpen

/-- One dialogue that measured an offset before the first lock (R339, R340; log entry 23): eight in a row within 1 µs of the source, or of the
offset that the count started from, give the lock, which steps device time forward to the source. -/
def Time.acquire (t : Time) (o : Int) : Time :=
  let near := decide (0 < t.good) && (decide (o.natAbs ≤ 1000) || decide ((o - t.refOffset).natAbs ≤ 1000))
  let u : Time := if near then { t with good := t.good + 1 } else { t with good := 1, refOffset := o }
  if u.good < 8 then u
  else if o < 0 then u.stepped o
  else if o ≤ 1000 then u.locked (-o)
  else u

/-- A dialogue with the selected source (R339, R340). -/
def State.timeMeasure (s : State) (o : Int) : State :=
  let t : Time := { s.time with offset := satOffset o, failed := false }
  { s with time := if t.lock = 2 then t.correct o s.anyLc else if t.everLocked then t.regain o s.anyLc else t.acquire o }

/-- A dialogue with the selected source that failed: the count of consecutive ones starts again (R339). -/
def State.timeMiss (s : State) : State := { s with time := { s.time with good := 0 } }

/-! ### Ports -/

/-- Every function with MSI-X vectors. -/
def fnList : List IrqFn :=
  .sup :: [HostPort.hostA, HostPort.hostB].flatMap (fun p => (List.range 32).map (fun n => IrqFn.fn { port := p, num := n }))

/-- The functions of a port leave MSI-X as after a function-level reset: disabled, masked, nothing pending. -/
def MsixSt.without (m : MsixSt) (p : IrqFn → Bool) : MsixSt :=
  { m with
    enabled := m.enabled.filter (fun f => !p f)
    unmasked := m.unmasked.filter (fun v => !p v.fn)
    pending := m.pending.filter (fun v => !p v.fn)
    table := m.table.filter (fun w => !(fnList.any (fun f => p f && irqIdx f == w.1 / 0x2000))) }

/-- A function of a host port. -/
def onPort (p : HostPort) (f : IrqFn) : Bool := match f with
  | .fn g => decide (g.port = p)
  | .sup => false

/-- The latches that a port's functions hold (R292). -/
def heldByPort (p : HostPort) (l : Nat × LatchHolder) : Bool := match l.2 with
  | .host f => decide (f.port = p)
  | .program _ => false

/-- The function windows of a port return to their FLR values (R346). -/
def State.resetPortWindows (s : State) (p : HostPort) : State :=
  { s with fnRegs := s.fnRegs.filter (fun r => r.1 / 0x1000 / 32 != portPart p) }

/-- A host port is lost (R344): requests stop, the link-down source and vector 2 are raised, every context of the port closes without
a record, host latches and mirror bindings go, and the functions wait at their FLR values (R346). -/
def State.portLost (s : State) (p : HostPort) : State :=
  if !(s.hport p).up then s
  else
    let cs := s.portCtxs p
    let s1 := s.modHport p (fun x => { x.downed with downCount := if x.downCount = 0xFF#8 then 0xFF#8 else x.downCount + 1,
                                                     closing := !cs.isEmpty })
    let s2 := supVector (s1.raise (0x18 + portPart p) (cap none noMaster 0 0 0)) 2
    let s3 := if s2.timeSource = 2 + portPart p then s2.timeFail else s2
    let s4 := cs.foldl (fun t c => (t.closeStart c).forgetCtx c) s3
    { (s4.resetPortWindows p) with
      msix := s4.msix.without (onPort p)
      flrBusy := s4.flrBusy.filter (fun f => decide (f.port ≠ p))
      eventLost := s4.eventLost.filter (fun f => decide (f.port ≠ p))
      latches := s4.latches.filter (fun l => !heldByPort p l) }

/-- The supervisor link is lost: only the supervisor function resets (R348). -/
def State.supLost (s : State) : State :=
  if !s.portS.up then s
  else
    let s1 := { s with
      portS := { s.portS.downed with downCount := if s.portS.downCount = 0xFF#8 then 0xFF#8 else s.portS.downCount + 1 }
      msix := s.msix.without (fun f => decide (f = IrqFn.sup)) }
    supVector (s1.raise 0x007 (cap none noMaster 0 0 0)) 2

/-- A port's link is degraded by its width, speed or Max Payload Size (R342); speed code 5 is 32 GT/s. -/
def badLink (width speed mps : Nat) : Bool := decide (width < 8) || decide (speed < 5) || decide (mps < 256)

/-- Mirror bindings whose target lies on a port are disabled (R342). -/
def State.unbindTargets (s : State) (p : HostPort) : State :=
  (List.range 64).foldl (fun t i => t.clearBitIf (oMirror i) 31 (fun v =>
    match t.ctx? (fld v 23 12) with
    | some c => decide (c.fn.port = p)
    | none => false)) s

/-- A port becomes degraded: bindings to it go, the source is raised once, and vector 2 carries the event (R342, R338). -/
def State.portDegraded (s : State) (p : HostPort) : State :=
  let s1 := (s.modHport p (fun x => { x with degraded := true })).unbindTargets p
  supVector (s1.raise (0x1A + portPart p) (cap none noMaster 0 0 0)) 2

end Machine

end Sys2Proof
end

