-- ==== Sys2Proof/Machine/Insertion.lean ====
section
/-! DEFINITION. Insertion, power-up, power-down, removal, the input supply, temperature, rails and clocks (R354 to R364, R375 to
R380, R393 to R396). -/

namespace Sys2Proof

namespace Machine

/-! ### Cold reset, power-up and power-down -/

/-- What no power state touches: queue, pins driven from outside, the input, fuses, flash and EEPROM, and what has left the block. -/
def State.coldReset (s : State) : State :=
  { State.reset with
    pending := s.pending
    pins := { State.reset.pins with
      prsnt1Low := s.pins.prsnt1Low
      pwrEn := s.pins.pwrEn
      perstA := s.pins.perstA
      perstB := s.pins.perstB
      perstS := s.pins.perstS
      wakeN := s.pins.perstA || s.pins.perstB || s.pins.perstS }
    supply := { s.supply with filter := false, removed := false }
    sec := { Security.reset with
      dieIdS := s.sec.dieIdS
      dieIdA := s.sec.dieIdA
      dieIdB := s.sec.dieIdB
      ownedFuse := s.sec.ownedFuse
      toggles := s.sec.toggles
      returnedFuse := s.sec.returnedFuse
      rollbackFused := s.sec.rollbackFused
      revoked := s.sec.revoked
      idSeed := s.sec.idSeed
      transportKey := s.sec.transportKey
      flashImage := s.sec.flashImage
      owner0 := s.sec.owner0
      owner1 := s.sec.owner1
      eeprom := s.sec.eeprom
      romRoot := s.sec.romRoot
      romVendor := s.sec.romVendor }
    msix := { State.reset.msix with sent := s.msix.sent }
    hostMemA := s.spoilAll.hostMemA
    hostMemB := s.spoilAll.hostMemB
    freshCtr := s.spoilAll.freshCtr }

/-- Every rail is gone, the standby rail included: the pins float, and the next start is a cold reset (R359, R354). -/
def State.unpower (s : State) : State :=
  let c := s.coldReset
  { c with
    pins := { c.pins with wakeN := false }
    supply := { c.supply with ramped := false, standby := false }
    pwr := { c.pwr with phase := .unpowered } }

/-- The rail sequence starts (R394). -/
def State.startRails (s : State) : State :=
  { s with pwr := { s.pwr with phase := .powerUp, rails := 0, lockout := .none } }

/-- Keeper takes the module to Off (R395): work is abandoned without records, the three links are disabled, ALIVE is low. -/
def State.powerDown (s : State) (lock : Lockout) (trip : Bool) : State :=
  let s1 := (((s.portLost .hostA).portLost .hostB).supLost).missionReset
  { s1 with
    pwr := { s1.pwr with phase := .powerDown, downStage := 0, lockout := lock, lowQual := false, thermalTrip := trip } }

/-- Mission rails are up or coming up. -/
def State.powered (s : State) : Bool := decide (s.pwr.phase = .powerUp) || decide (s.pwr.phase = .mission)

/-- Some mission rail is up: powered, or on the way to Off (R395). -/
def State.railsOn (s : State) : Bool := s.powered || decide (s.pwr.phase = .powerDown)

/-- The mission domains run. -/
def State.missionOn (s : State) : Bool := decide (s.pwr.phase = .mission)

/-- A port's reset pin is asserted. -/
def Pins.perst (p : Pins) (x : Port) : Bool :=
  match x with
  | .hostA => p.perstA
  | .hostB => p.perstB
  | .sup => p.perstS

/-- Some PERST pin is asserted (R371). -/
def Pins.anyPerst (p : Pins) : Bool := p.perstA || p.perstB || p.perstS

/-- A temperature as KPR_TEMP reports it: °C + 64. -/
def kprTemp (celsius : Nat) : Nat := celsius + 64

/-- Record a die's reading. -/
def Supply.setTemp (x : Supply) (d : Die) (v : Byte) : Supply :=
  match d with
  | .selvedge => { x with tempS := v }
  | .weftA => { x with tempA := v }
  | .weftB => { x with tempB := v }

/-! ### Insertion (R360) -/

/-- PRSNT1_LOW (R360): debounce starts; a bounce shorter than the filter is no removal (R362). -/
def execPrsnt1Low (s : State) : Host.Outcome State Fault Refusal :=
  .next { s with
    pins := { s.pins with prsnt1Low := true }
    supply := { s.supply with debounce := s.supply.debounce || (!s.pins.prsnt1Low && !s.supply.ramped), filter := false } }

/-- PRSNT1_DEBOUNCE_EXPIRY (R360): the hot-swap switch ramps, when the input is within its limits (R358). -/
def execPrsnt1DebounceExpiry (s : State) : Host.Outcome State Fault Refusal :=
  if s.supply.debounce && s.pins.prsnt1Low then
    .next { s with supply := { s.supply with debounce := false, ramped := decide (s.supply.cut = .none) } }
  else .next s

/-- STANDBY_RAIL_UP (R360): cold reset; a PWR_EN already high counts as rising now (R361). -/
def execStandbyRailUp (s : State) : Host.Outcome State Fault Refusal :=
  if s.supply.ramped && !s.supply.standby then
    let c := s.coldReset
    let d := { c with supply := { c.supply with standby := true } }
    .next (if s.pins.pwrEn then d.startRails else d)
  else .next s

/-- PWR_EN_RISE (R361, R393, R375): leaving Off after a trip, a rail fault or the ladder needs PWR_EN low for 10 ms first, and after a
trip every junction below 95 °C. -/
def execPwrEnRise (lowTenMs : Bool) (ts ta tb : Byte) (s : State) : Host.Outcome State Fault Refusal :=
  if s.pins.pwrEn then .next s
  else
    let s1 := { s with pins := { s.pins with pwrEn := true }, pwr := { s.pwr with lowQual := false },
                       supply := { s.supply with tempS := ts, tempA := ta, tempB := tb } }
    let cool := decide (ts.toNat < kprTemp 95) && decide (ta.toNat < kprTemp 95) && decide (tb.toNat < kprTemp 95)
    let ok : Bool := match s.pwr.lockout with
      | .none => true
      | .thermal => lowTenMs && cool
      | .rail => lowTenMs
      | .ladder => lowTenMs
    .next (if s.pwr.phase = .off ∧ ok then s1.startRails else s1)

/-- RAIL_IN_REGULATION (R394): the next rail is enabled. -/
def execRailInRegulation (s : State) : Host.Outcome State Fault Refusal :=
  if s.pwr.phase = .powerUp ∧ s.pwr.rails < 7 then .next { s with pwr := { s.pwr with rails := s.pwr.rails + 1 } } else .next s

/-- WAKE_N_TIMEOUT (R371). -/
def execWakeNTimeout (s : State) : Host.Outcome State Fault Refusal :=
  .next (if s.pwr.refLost then s else { s with pins := { s.pins with wakeN := false } })

/-- PWR_EN_FALL (R393): the 10 µs qualification starts. -/
def execPwrEnFall (s : State) : Host.Outcome State Fault Refusal :=
  if s.pins.pwrEn then
    .next { s with pins := { s.pins with pwrEn := false }, pwr := { s.pwr with lowQual := s.supply.standby } }
  else .next s

/-- PWR_EN_LOW_TIMEOUT (R393, R395): without a reference the 10 µs do not pass (R379). -/
def execPwrEnLowTimeout (s : State) : Host.Outcome State Fault Refusal :=
  if s.pwr.lowQual && !s.pins.pwrEn && !s.pwr.refLost then
    .next (if s.powered then s.powerDown .none false else { s with pwr := { s.pwr with lowQual := false } })
  else .next s

/-- POWER_DOWN_STEP (R395): the next group of rails goes off, in the reverse order of R394; the last step switches two. -/
def execPowerDownStep (s : State) : Host.Outcome State Fault Refusal :=
  if s.pwr.phase = .powerDown ∧ s.pwr.downStage < 6 then
    let k := s.pwr.downStage + 1
    .next { s with pwr := { s.pwr with downStage := k, rails := if k = 6 then 0 else min s.pwr.rails (7 - k) } }
  else .next s

/-- OFF_REACHED (R395): Off; a PWR_EN already high counts as rising now (R361, R376), unless it must have been low first (R393). -/
def execOffReached (s : State) : Host.Outcome State Fault Refusal :=
  if s.pwr.phase = .powerDown ∧ s.pwr.downStage = 6 then
    let s1 := { s with pwr := { s.pwr with phase := .off, rails := 0, downStage := 0 } }
    .next (if s.pins.pwrEn ∧ s.pwr.lockout = .none then s1.startRails else s1)
  else .next s

/-! ### Input and removal (R358, R359, R362) -/

/-- INPUT_UNDERVOLTAGE (R359). -/
def execInputUndervoltage (s : State) : Host.Outcome State Fault Refusal :=
  .next (let u := s.unpower; { u with supply := { u.supply with cut := .under } })

/-- INPUT_OVERVOLTAGE (R359). -/
def execInputOvervoltage (s : State) : Host.Outcome State Fault Refusal :=
  .next (let u := s.unpower; { u with supply := { u.supply with cut := .over } })

/-- ELECTRONIC_BREAKER_TRIP (R358): the input is open, so every rail goes as under R359 (log entry 24). -/
def execElectronicBreakerTrip (s : State) : Host.Outcome State Fault Refusal :=
  .next (let u := s.unpower; { u with supply := { u.supply with cut := .breaker } })

/-- INPUT_TURN_ON (R358, R359): after an undervoltage or overvoltage turn-off the bulk capacitance charges again while PRSNT1_N is
low. -/
def execInputTurnOn (s : State) : Host.Outcome State Fault Refusal :=
  if s.supply.cut = .under ∨ s.supply.cut = .over then
    .next { s with supply := { s.supply with cut := .none, ramped := s.pins.prsnt1Low && !s.supply.debounce } }
  else .next s

/-- INPUT_POWER_UPDATE (R519, KPR_MOD_STATUS): the measured input voltage and power, and the board's sensor (R375); the energy counter
advances by pin while mission rails are up (R397: it is zero at the exit from Off). -/
def execInputPowerUpdate (vin : Byte) (pin : BitVec 16) (board : Byte) (s : State) : Host.Outcome State Fault Refusal :=
  if s.supply.standby then
    .next (bumpAon { s with supply := { s.supply with vin := vin, pin := pin, tempBoard := board } } 0 15 pin.toNat)
  else .next s

/-- PRSNT1_HIGH (R360, R362): the breaker is closed for the next insertion (log entry 24), the debounce starts again, the ramp stops (R359), or the removal filter starts. -/
def execPrsnt1High (s : State) : Host.Outcome State Fault Refusal :=
  .next { s with
    pins := { s.pins with prsnt1Low := false }
    supply := { s.supply with
      debounce := false
      cut := if s.supply.cut = .breaker then .none else s.supply.cut
      ramped := s.supply.ramped && s.supply.standby
      filter := s.supply.standby && (s.supply.filter || s.pins.prsnt1Low) } }

/-- REMOVAL_DECLARED (R362, R363): ports stop, ALIVE low, the removal source raised; the switch opens and the rails collapse.  FAULT_N, as
it is until then, reads high on the absent module (R354, R376). -/
def execRemovalDeclared (s : State) : Host.Outcome State Fault Refusal :=
  if s.supply.filter && !s.pins.prsnt1Low then
    let s1 := { s with portA := s.portA.downed, portB := s.portB.downed, portS := s.portS.downed }
    let s2 := (s1.raise 0x001 (cap none noMaster 0 0 0)).missionReset
    .next { s2 with
      pins := { s2.pins with faultN := false, wakeN := false }
      supply := { s2.supply with filter := false, removed := true, ramped := false, standby := false }
      pwr := { s2.pwr with phase := .unpowered, rails := 0, lowQual := false } }
  else .next s

/-! ### Temperature and rails (R375, R396) -/

/-- THERMAL_WARNING (R375): a junction reaches 105 °C. -/
def execThermalWarning (d : Die) (reading : Byte) (s : State) : Host.Outcome State Fault Refusal :=
  if s.supply.standby && decide (kprTemp 105 ≤ reading.toNat) then
    let s1 := { s with supply := s.supply.setTemp d reading }
    .next (if s.railsOn then s1.raise 0x004 (cap none noMaster 0 0 0) else s1)
  else .next s

/-- THERMAL_TRIP (R375): a junction reaches 115 °C; FAULT_N whatever is configured, and Keeper takes the module to Off, or it is on its way
there and stays until the conditions of a trip let it leave. -/
def execThermalTrip (d : Die) (reading : Byte) (s : State) : Host.Outcome State Fault Refusal :=
  if s.supply.standby && decide (kprTemp 115 ≤ reading.toNat) then
    let s1 := { s with supply := s.supply.setTemp d reading }
    let s2 := (s1.raise 0x005 (cap none noMaster 0 0 0)).assertFault
    .next (if s.powered then s2.powerDown .thermal true
      else if s.railsOn then { s2 with pwr := { s2.pwr with lockout := .thermal, thermalTrip := true } } else s1)
  else .next s

/-- RAIL_FAULT (R396). -/
def execRailFault (s : State) : Host.Outcome State Fault Refusal :=
  if s.powered then .next (((s.raise 0x002 (cap none noMaster 0 0 0)).assertFault).powerDown .rail false) else .next s

/-! ### Clocks (R354, R355, R379, R380) -/

/-- REFERENCE_LOST (R379): FAULT_N, ALIVE low; device time and every Tick-based timer stop (`tickIdle`). -/
def execReferenceLost (s : State) : Host.Outcome State Fault Refusal :=
  if s.supply.standby then .next ({ s with pwr := { s.pwr with refLost := true } }).assertFault else .next s

/-- The bit of a PLL in a die's lock field (KPR_CLK_STATUS), which is also its code in a capture (R461). -/
def pllBit (p : Pll) : Nat :=
  match p with
  | .creel => 3
  | .selvFabric => 2
  | .loom _ => 0
  | .shuttle _ => 1
  | .weftFabric _ => 2

/-- The Weft die of a PLL; none for Selvedge's. -/
def pllDie (p : Pll) : Option Weft :=
  match p with
  | .creel => none
  | .selvFabric => none
  | .loom d => some d
  | .shuttle d => some d
  | .weftFabric d => some d

/-- A PLL is locked. -/
def Clocks.locked (c : Clocks) (p : Pll) : Bool :=
  match p with
  | .creel => c.creel
  | .selvFabric => c.fabric
  | .loom .a => c.weftA.getLsbD 0
  | .loom .b => c.weftB.getLsbD 0
  | .shuttle .a => c.weftA.getLsbD 1
  | .shuttle .b => c.weftB.getLsbD 1
  | .weftFabric .a => c.weftA.getLsbD 2
  | .weftFabric .b => c.weftB.getLsbD 2

/-- Set or clear bit n of a lock field. -/
def lockBit (w : BitVec 3) (n : Nat) (v : Bool) : BitVec 3 :=
  if v then w ||| BitVec.ofNat 3 (2 ^ n) else w &&& ~~~(BitVec.ofNat 3 (2 ^ n))

/-- Record a PLL's lock. -/
def Clocks.setLock (c : Clocks) (p : Pll) (v : Bool) : Clocks :=
  match p with
  | .creel => { c with creel := v }
  | .selvFabric => { c with fabric := v }
  | .loom .a => { c with weftA := lockBit c.weftA 0 v }
  | .loom .b => { c with weftB := lockBit c.weftB 0 v }
  | .shuttle .a => { c with weftA := lockBit c.weftA 1 v }
  | .shuttle .b => { c with weftB := lockBit c.weftB 1 v }
  | .weftFabric .a => { c with weftA := lockBit c.weftA 2 v }
  | .weftFabric .b => { c with weftB := lockBit c.weftB 2 v }

/-- The groups a Weft PLL feeds (R377, R381). -/
def pllGroups (p : Pll) : List Grp :=
  match p with
  | .creel => []
  | .selvFabric => []
  | .loom _ => [.loom, .reedFinish, .beam]
  | .shuttle _ => [.shuttle]
  | .weftFabric _ => [.beam]

/-- A PLL is meant to be running unless every group it feeds is in Cool or deeper, one on its way there not yet (R380): the fabric of
Selvedge once Keeper firmware runs, in Recovery too (R487), the Creel PLL while a stream slot is enabled too (R382). -/
def State.pllMeant (s : State) (p : Pll) : Bool :=
  match pllDie p with
  | none => (s.pwr.firmware || s.pwr.recovery) && (decide (p ≠ .creel) || s.anySlot)
  | some d => (pllGroups p).any (fun g => match (s.weft d).grp g with
    | .at q => decide (q.depth < 2)
    | .waking q => decide (q.depth < 2)
    | .entering q _ => decide (q.depth < 2))

/-- PLL_LOCK_LOSS (R380): the clock source of the die names the PLL; the domains it feeds freeze (`State.clocked`). -/
def execPllLockLoss (p : Pll) (s : State) : Host.Outcome State Fault Refusal :=
  if s.clk.locked p then
    let c := s.clk.setLock p false
    let s1 := { s with clk := { c with losses := if c.losses = 0xFF#8 then 0xFF#8 else c.losses + 1 } }
    let n := match pllDie p with
      | none => 0x003
      | some d => weftSrc d 0x29
    .next (s1.raise n (cap none noMaster 0 0 (pllBit p)))
  else .next s

/-- HEARTBEAT_MISSING (R354). -/
def execHeartbeatMissing (s : State) : Host.Outcome State Fault Refusal :=
  if s.pwr.heartbeat then .next ({ s with pwr := { s.pwr with heartbeat := false } }).assertFault else .next s

/-- ALIVE_TOGGLE (R355). -/
def execAliveToggle (s : State) : Host.Outcome State Fault Refusal :=
  if s.pins.aliveRun && s.pwr.heartbeat then .next { s with pins := { s.pins with alive := !s.pins.alive } } else .next s

end Machine

end Sys2Proof
end

