-- ==== Sys2Proof/Machine/Groups.lean ====
section
/-! DEFINITION. The power commands of the Weft groups (R26, R27, R380, R383 to R391, R398, R557). -/

namespace Sys2Proof

namespace Machine

/-- The PLLs of a Weft die. -/
def diePlls (d : Weft) : List Pll := [.loom d, .shuttle d, .weftFabric d]

/-- A clock domain of a die runs: its PLL is locked (R380).  Without lock the domain is frozen and nothing in it changes. -/
def State.clocked (s : State) (p : Pll) : Bool := decide (s.pwr.phase = .mission) && s.clk.locked p

/-- The PLLs that feed a group and stood off lock again; one meant to run keeps the lock that it reports (R380, R383). -/
def State.lockFor (s : State) (d : Weft) (g : Grp) : State :=
  ((diePlls d).filter (fun p => (pllGroups p).contains g && !s.pllMeant p)).foldl (fun t p => { t with clk := t.clk.setLock p true }) s

/-- The PLLs of a die that feed no group above Cool go off (R380). -/
def State.unlockIdle (s : State) (d : Weft) : State :=
  ((diePlls d).filter (fun p => !s.pllMeant p)).foldl (fun t p => { t with clk := t.clk.setLock p false }) s

/-- Writes held for a die whose Weft control group slept reach it over the links, in order (R557, R270). -/
def State.applyHeld (s : State) (d : Weft) : State :=
  let mine := fun (w : Nat × Word) => decide (ctrDie w.1 = dieNo d)
  let s1 := (s.bus.heldWrites.filter mine).foldl (fun t w => (t.controlWord d true 1).ctrWrite (dieNo d) ((w.1 - 0x500000) % 0x4000) w.2) s
  { s1 with bus := { s1.bus with heldWrites := s1.bus.heldWrites.filter (fun w => !mine w) } }

/-! ### Where the proof input and the slices meet the array (R290, R434, R435, R438) -/

/-- The end of the module frame, in ns (R418). -/
def State.frameEnd (s : State) : Nat := s.frame.start.toNat + s.frameUs * 1000

/-- A moment of the frame, µs after its start, in ns. -/
def State.frameAt (s : State) (us : Nat) : Nat := s.frame.start.toNat + us * 1000

/-- slot_us (KPR_PROOF). -/
def State.slotUs (s : State) : Nat := fld (s.reg oProof) 10 0

/-- start_us (KPR_PROOF). -/
def State.startUs (s : State) : Nat := fld (s.reg oProof) 27 11

/-- The proof input can still enter: its latest start is the frame's end less slot_us (R435). -/
def State.proofInTime (s : State) : Bool := s.frame.running && decide (s.time.now.toNat + s.slotUs * 1000 ≤ s.frameEnd)

/-- Keeper's proof input, due or running, or a self-test slice holds a die (R290, R435). -/
def State.checksHold (s : State) (d : Weft) : Bool :=
  let c := (s.weft d).checks
  decide (c.phase = .running) || c.slice.isSome || (decide (c.phase = .due) && s.proofInTime)

/-- Array, Reed and Finish of a die run no operation: an operation boundary (R290). -/
def WeftDie.atBoundary (w : WeftDie) : Bool := w.arrayRun.isNone && w.reedRun.isNone && w.finishRun.isNone

/-- The proof input of a die can enter now (R290, R435): in Bench mode none does (R417). -/
def State.proofCanEnter (s : State) (d : Weft) : Bool :=
  let w := s.weft d
  decide (s.mode ≠ 2) && decide (w.checks.phase = .due) && s.proofInTime && w.atBoundary && w.checks.slice.isNone && s.clocked (.loom d) && s.dieRun d

/-- The formats of the proof input in a frame, by the built-in codebook slots that it uses: C4×C4 in every frame, with one of C3, C2×C2 and
C1×C1 by frame number mod 3 (R433, R33). -/
def proofFormats (frame : Nat) : List Nat := [0, 1 + frame % 3]

/-- An engine that runs the proof input: both weight blocks of every cube hold the test's (R433). -/
def Engine.proving (n frame : Nat) (e : Engine) : Engine :=
  { e with
    active := Config.proofBlocks frame n (proofFormats frame) false
    shadow := Config.proofBlocks frame n (proofFormats frame) true }

/-- The proof input holds a die's Loom, Reed and Finish: its test blocks are in every enabled engine (R433); KPR_PROOF_STATUS notes how late
it started. -/
def State.proofStart (s : State) (d : Weft) : State :=
  let late := (s.time.now.toNat - s.frameAt s.startUs) / 1000
  s.modWeft d (fun w => { w with
    engines := w.engines.zipIdx.map (fun x =>
      if s.engineTakes (4 * weftNo d + x.2) then x.1.proving (4 * weftNo d + x.2) s.frame.number else x.1)
    checks := { w.checks with phase := .running, startOffset := BitVec.ofNat 16 (min 0xFFFF late) } })

/-- A die runs a proof input: ready, out of Bench, in service, with an enabled engine (R417, R436, R549). -/
def State.provable (s : State) (d : Weft) : Bool :=
  s.pwr.ready && s.mode != 2 && (s.weft d).inService && !s.dieInReset d && (enginesOf d).any s.engineOn

/-- In Whole mode a die's proof input does not keep the other die's waiting: it can enter too, or the die runs none in this frame, or no
longer (R433). -/
def State.proofJoins (s : State) (d : Weft) : Bool :=
  s.proofCanEnter d || !s.provable d || !((s.weft d).checks.phase == .idle || (s.weft d).checks.phase == .due)

/-- Proof inputs that are due and meet an operation boundary enter; in Whole mode both dies' together (R433, R435). -/
def State.proofEnter (s : State) : State :=
  if s.mode = 1 then
    (if s.proofJoins .a && s.proofJoins .b then
      [Weft.a, Weft.b].foldl (fun t d => if s.proofCanEnter d then t.proofStart d else t) s
    else s)
  else [Weft.a, Weft.b].foldl (fun t d => if s.proofCanEnter d then t.proofStart d else t) s

/-! ### The proof's verdict (R436, R461) -/

/-- The detail of the proof source (R461). -/
def proofDetail (v : ProofVerdict) : Nat :=
  match v with
  | .passed => 0
  | .finishDiffers => 1
  | .crcDiffers => 2
  | .none => 3

/-- The proof source of a die, with the frame number (R436, R461). -/
def State.raiseProof (s : State) (d : Weft) (v : ProofVerdict) : State :=
  s.raise (weftSrc d 0x26) (cap none noMaster 0 (BitVec.ofNat 64 s.frame.number) (proofDetail v))

/-- Change a die's checks. -/
def State.modChecks (s : State) (d : Weft) (f : Checks → Checks) : State := s.modWeft d (fun w => { w with checks := f w.checks })

/-! ### Commands -/

/-- WAKE_REQUEST (R26, R27, R385, R398): absorbed in Run and while waking; an entry stops. -/
def execWakeRequest (d : Weft) (g : Grp) (s : State) : Host.Outcome State Fault Refusal :=
  .next (if s.missionOn then s.wake d g else s)

/-- A die that wakes from Rest after Bench notes when the last of its groups reached Run (R398). -/
def State.awake (s : State) (d : Weft) : State :=
  if (s.weft d).checks.fromRest && (s.weft d).checks.awakeAt.isNone && s.dieRun d then
    s.modChecks d (fun c => { c with awakeAt := some s.time.now.toNat })
  else s

/-- The idle timers of a group count: they run from the reference (R379), and in Recovery the Beam group of Weft A stays in Run (R487). -/
def State.idleRuns (s : State) (d : Weft) (g : Grp) : Bool := s.missionOn && !s.pwr.refLost && !s.pwr.recovery && !s.grpBusy d g

/-- IDLE_TIMEOUT (R389): an idle group leaves for its target state. -/
def execIdleTimeout (d : Weft) (g : Grp) (s : State) : Host.Outcome State Fault Refusal :=
  match (s.weft d).grp g with
  | .at p =>
    .next (if s.idleRuns d g && decide (p.depth < (s.idleTarget g).depth) then
        s.modWeft d (fun w => w.setGrp g (.entering p (s.idleTarget g)))
      else s)
  | _ => .next s

/-- REST_TIMEOUT (R389): an idle group leaves for Rest, when rest_after_ms is set and the floor, the mode and R386 allow it;
a group idle since before the mode became Bench waits for its next idle period (R398). -/
def execRestTimeout (d : Weft) (g : Grp) (s : State) : Host.Outcome State Fault Refusal :=
  match (s.weft d).grp g with
  | .at p =>
    .next (if s.idleRuns d g && decide (p.depth < 3) && decide (s.deepest g = 3) && decide (fld (s.reg oPwrIdle) 31 18 ≠ 0)
          && !(s.weft d).benchIdle.contains g then
        s.modWeft d (fun w => w.setGrp g (.entering p .rest))
      else s)
  | _ => .next s

/-- STATE_ENTRY_DONE (R385, R387): the group reaches the state it was entering; Rest loses what R387 names. -/
def execStateEntryDone (d : Weft) (g : Grp) (s : State) : Host.Outcome State Fault Refusal :=
  match (s.weft d).grp g with
  | .entering _ p =>
    let s1 := (s.modWeft d (fun w => w.setGrp g (.at p))).unlockIdle d
    .next (if p = .rest then s1.restLoss d g else s1)
  | _ => .next s

end Machine

end Sys2Proof
end

