-- ==== Sys2Proof/Machine/Float.lean ====
section
/-! DEFINITION. IEEE 754 arithmetic as the F and D extensions use it (R113; log entry 12): binary32 and binary64 operands taken apart into exact
numbers, operations on those, and one rounding at the end. -/

namespace Sys2Proof

namespace Machine

/-- Fraction bits of the format of a width: 16, 32 or 64 bits. -/
def fracBits (w : Nat) : Nat := if w = 64 then 52 else if w = 32 then 23 else 10

/-- Exponent bits of the format of a width. -/
def expoBits (w : Nat) : Nat := w - 1 - fracBits w

/-- The bias of a format. -/
def expoBias (w : Nat) : Nat := 2 ^ (expoBits w - 1) - 1

/-- Exception flags as fflags numbers them: inexact 1, underflow 2, overflow 4, divide by zero 8, invalid 16. -/
abbrev FFlags := Nat

/-- A floating-point number: a NaN, an infinity, or (-1)^s × m × 2^e. -/
inductive FNum where
  | nan (signaling : Bool)
  | inf (s : Bool)
  | fin (s : Bool) (m : Nat) (e : Int)
deriving DecidableEq, Repr

/-- The number that a word of a format stands for. -/
def unpackF (w v : Nat) : FNum :=
  let f := v % 2 ^ fracBits w
  let x := v / 2 ^ fracBits w % 2 ^ expoBits w
  let s := bitN v (w - 1)
  if x = 2 ^ expoBits w - 1 then (if f = 0 then .inf s else .nan (!bitN v (fracBits w - 1)))
  else if x = 0 then .fin s f (1 - (expoBias w : Int) - fracBits w)
  else .fin s (2 ^ fracBits w + f) ((x : Int) - expoBias w - fracBits w)

/-- A sign bit in its place. -/
def signF (w : Nat) (s : Bool) : Nat := if s then 2 ^ (w - 1) else 0

/-- An infinity. -/
def infF (w : Nat) (s : Bool) : Nat := signF w s + (2 ^ expoBits w - 1) * 2 ^ fracBits w

/-- The canonical NaN. -/
def nanF (w : Nat) : Nat := (2 ^ expoBits w - 1) * 2 ^ fracBits w + 2 ^ (fracBits w - 1)

/-- Bits that a number needs. -/
def bitLen (n : Nat) : Nat := if n = 0 then 0 else Nat.log2 n + 1

/-- m × 2^e as a multiple of 2^q under a rounding mode (0 RNE, 1 RTZ, 2 RDN, 3 RUP, 4 RMM, 5 to odd), and whether it is exact. -/
def roundAt (rm : Nat) (s : Bool) (m : Nat) (e q : Int) : Nat × Bool :=
  if q ≤ e then (m * 2 ^ (e - q).toNat, true)
  else
    let d := (q - e).toNat
    let k := m / 2 ^ d
    let r := m % 2 ^ d
    let half := 2 ^ (d - 1)
    let up := match rm with
      | 0 => decide (half < r) || (decide (r = half) && k % 2 == 1)
      | 1 => false
      | 2 => s && r != 0
      | 3 => !s && r != 0
      | 4 => decide (half ≤ r)
      | _ => r != 0 && k % 2 == 0
    (if up then k + 1 else k, r == 0)

/-- A non-zero number rounded to a format, with its flags; tininess is found after rounding. -/
def roundF (w rm : Nat) (s : Bool) (m : Nat) (e : Int) : Nat × FFlags :=
  if m = 0 then (signF w s, 0)
  else
    let p := fracBits w + 1
    let emin : Int := 1 - (expoBias w : Int) - fracBits w
    let q0 : Int := e + bitLen m - p
    let q := max q0 emin
    let a := roundAt rm s m e q
    let b := roundAt rm s m e q0
    let bits := if a.1 < 2 ^ fracBits w then a.1 else ((q - emin).toNat + 1) * 2 ^ fracBits w + (a.1 - 2 ^ fracBits w)
    let big := (2 ^ expoBits w - 1) * 2 ^ fracBits w
    if big ≤ bits then
      (signF w s + (if rm = 1 ∨ rm = 5 ∨ (rm = 2 ∧ !s) ∨ (rm = 3 ∧ s) then big - 1 else big), 5)
    else (signF w s + bits, if a.2 then 0 else if q0 + bitLen b.1 ≤ emin + fracBits w then 3 else 1)

/-- Signaling NaNs are invalid. -/
def nvOf (l : List FNum) : FFlags := if l.contains (.nan true) then 16 else 0

/-- Some operand is a NaN. -/
def anyNan (l : List FNum) : Bool := l.any (fun x => match x with | .nan _ => true | _ => false)

/-- A number of the other sign. -/
def FNum.neg : FNum → FNum
  | .nan g => .nan g
  | .inf s => .inf (!s)
  | .fin s m e => .fin (!s) m e

/-- The exact sum of two finite numbers, rounded; an exact zero of unlike signs is +0, and -0 when rounding down. -/
def sumF (w rm : Nat) (s1 : Bool) (m1 : Nat) (e1 : Int) (s2 : Bool) (m2 : Nat) (e2 : Int) : Nat × FFlags :=
  let e := min e1 e2
  let a : Int := m1 * 2 ^ (e1 - e).toNat
  let b : Int := m2 * 2 ^ (e2 - e).toNat
  let t := (if s1 then -a else a) + (if s2 then -b else b)
  if t = 0 then (signF w (if s1 = s2 then s1 else rm = 2), 0)
  else roundF w rm (decide (t < 0)) t.natAbs e

/-- Addition. -/
def addF (w rm : Nat) (x y : FNum) : Nat × FFlags :=
  if anyNan [x, y] then (nanF w, nvOf [x, y])
  else
    match x, y with
    | .inf s, .inf t => if s = t then (infF w s, 0) else (nanF w, 16)
    | .inf s, _ => (infF w s, 0)
    | _, .inf t => (infF w t, 0)
    | .fin s m e, .fin t n f => sumF w rm s m e t n f
    | _, _ => (nanF w, 0)

/-- x × y + z with one rounding. -/
def fmaF (w rm : Nat) (x y z : FNum) : Nat × FFlags :=
  let bad := match x, y with
    | .inf _, .fin _ 0 _ => true
    | .fin _ 0 _, .inf _ => true
    | _, _ => false
  if bad then (nanF w, 16)
  else if anyNan [x, y, z] then (nanF w, nvOf [x, y, z])
  else
    match x, y, z with
    | .fin s m e, .fin t n f, .fin u k g => sumF w rm (s != t) (m * n) (e + f) u k g
    | .fin _ _ _, .fin _ _ _, .inf u => (infF w u, 0)
    | .inf s, .inf t, .inf u => if (s != t) = u then (infF w u, 0) else (nanF w, 16)
    | .inf s, .fin t _ _, .inf u => if (s != t) = u then (infF w u, 0) else (nanF w, 16)
    | .fin s _ _, .inf t, .inf u => if (s != t) = u then (infF w u, 0) else (nanF w, 16)
    | .inf s, .inf t, _ => (infF w (s != t), 0)
    | .inf s, .fin t _ _, _ => (infF w (s != t), 0)
    | .fin s _ _, .inf t, _ => (infF w (s != t), 0)
    | _, _, _ => (nanF w, 0)

/-- Multiplication. -/
def mulF (w rm : Nat) (x y : FNum) : Nat × FFlags :=
  if anyNan [x, y] then (nanF w, nvOf [x, y])
  else
    match x, y with
    | .inf s, .inf t => (infF w (s != t), 0)
    | .inf s, .fin t n _ => if n = 0 then (nanF w, 16) else (infF w (s != t), 0)
    | .fin s m _, .inf t => if m = 0 then (nanF w, 16) else (infF w (s != t), 0)
    | .fin s m e, .fin t n f => roundF w rm (s != t) (m * n) (e + f)
    | _, _ => (nanF w, 0)

/-- Division. -/
def divF (w rm : Nat) (x y : FNum) : Nat × FFlags :=
  if anyNan [x, y] then (nanF w, nvOf [x, y])
  else
    match x, y with
    | .inf _, .inf _ => (nanF w, 16)
    | .inf s, .fin t _ _ => (infF w (s != t), 0)
    | .fin s _ _, .inf t => (signF w (s != t), 0)
    | .fin s m e, .fin t n f =>
      if n = 0 then (if m = 0 then (nanF w, 16) else (infF w (s != t), 8))
      else
        let k := bitLen n + 64
        let a := m * 2 ^ k
        roundF w rm (s != t) (2 * (a / n) + b2n (a % n != 0)) (e - f - k - 1)
    | _, _ => (nanF w, 0)

/-- The whole square root of n, from a guess `r` upwards: bit by bit, `b` bits left. -/
def sqrtN (n : Nat) : Nat → Nat → Nat
  | 0, r => r
  | b + 1, r => sqrtN n b (if (r + 2 ^ b) * (r + 2 ^ b) ≤ n then r + 2 ^ b else r)

/-- Square root. -/
def sqrtF (w rm : Nat) (x : FNum) : Nat × FFlags :=
  match x with
  | .nan _ => (nanF w, nvOf [x])
  | .inf s => if s then (nanF w, 16) else (infF w false, 0)
  | .fin s m e =>
    if m = 0 then (signF w s, 0)
    else if s then (nanF w, 16)
    else
      let k := 128 + (e % 2).toNat
      let a := m * 2 ^ k
      let r := sqrtN a (bitLen a / 2 + 1) 0
      roundF w rm false (2 * r + b2n (r * r != a)) ((e - k) / 2 - 1)

/-- Numbers that are no NaN compared: -1, 0 or 1. -/
def cmpF (x y : FNum) : Int :=
  let key : FNum → FNum → Int := fun x y => match x with
    | .fin s m e =>
      let f := match y with | .fin _ _ f => min e f | _ => e
      let a : Int := m * 2 ^ (e - f).toNat
      if s then -a else a
    | _ => 0
  match x, y with
  | .inf s, .inf t => if s = t then 0 else if s then -1 else 1
  | .inf s, _ => if s then -1 else 1
  | _, .inf t => if t then 1 else -1
  | _, _ => let d := key x y - key y x; if d < 0 then -1 else if d = 0 then 0 else 1

/-- A comparison: feq (k = 0) is quiet, flt (1) and fle (2) take every NaN as invalid. -/
def compareF (k : Nat) (x y : FNum) : Bool × FFlags :=
  if anyNan [x, y] then (false, if k = 0 then nvOf [x, y] else 16)
  else
    let c := cmpF x y
    (match k with | 0 => decide (c = 0) | 1 => decide (c < 0) | _ => decide (c ≤ 0), 0)

/-- The smaller or the larger of two words: -0 is below +0, and a NaN gives the other operand. -/
def minMaxF (w : Nat) (mx : Bool) (a b : Nat) : Nat × FFlags :=
  let x := unpackF w a
  let y := unpackF w b
  let nv := nvOf [x, y]
  if anyNan [x] && anyNan [y] then (nanF w, nv)
  else if anyNan [x] then (b, nv)
  else if anyNan [y] then (a, nv)
  else
    let c := cmpF x y
    let less := decide (c < 0) || (decide (c = 0) && bitN a (w - 1))
    (if less != mx then a else b, 0)

/-- The mask that fclass gives. -/
def classF (w v : Nat) : Nat :=
  match unpackF w v with
  | .inf s => if s then 1 else 128
  | .nan g => if g then 256 else 512
  | .fin s m _ =>
    if m = 0 then (if s then 8 else 16)
    else if m < 2 ^ fracBits w then (if s then 4 else 32)
    else if s then 2 else 64

/-- A number as an integer of a width; out of range is invalid and gives the nearest end, and a NaN the upper one. -/
def toIntF (rm : Nat) (sgn : Bool) (n : Nat) (x : FNum) : Nat × FFlags :=
  let lo : Int := if sgn then -(2 ^ (n - 1) : Nat) else 0
  let hi : Int := if sgn then (2 ^ (n - 1) : Nat) - 1 else (2 ^ n : Nat) - 1
  let put : Int → Nat := fun z => (z % (2 ^ n : Nat)).toNat
  match x with
  | .nan _ => (put hi, 16)
  | .inf s => (put (if s then lo else hi), 16)
  | .fin s m e =>
    let a := roundAt rm s m e 0
    let z : Int := if s then -(a.1 : Int) else a.1
    if z < lo then (put lo, 16) else if hi < z then (put hi, 16) else (put z, if a.2 then 0 else 1)

/-- An integer as a number of a format. -/
def ofIntF (w rm : Nat) (z : Int) : Nat × FFlags := roundF w rm (decide (z < 0)) z.natAbs 0

/-- A number in another format. -/
def castF (w rm : Nat) (x : FNum) : Nat × FFlags :=
  match x with
  | .nan g => (nanF w, if g then 16 else 0)
  | .inf s => (infF w s, 0)
  | .fin s m e => roundF w rm s m e

/-- A word with the sign of another: copied (k = 0), inverted (1), or combined with its own (2). -/
def sgnF (w k a b : Nat) : Nat :=
  let s := match k with
    | 0 => bitN b (w - 1)
    | 1 => !bitN b (w - 1)
    | _ => bitN a (w - 1) != bitN b (w - 1)
  a % 2 ^ (w - 1) + signF w s

/-- A subnormal fraction shifted up until its leading bit leaves: the exponent field it then has, and the fraction. -/
def normSub (w f : Nat) : Int × Nat :=
  let z := fracBits w - bitLen f
  (-(z : Int), f * 2 ^ (z + 1) % 2 ^ fracBits w)

/-- The 7-bit estimate of a reciprocal (vfrec7.v): that of the middle of the operand's interval. -/
def rec7F (w rm v : Nat) : Nat × FFlags :=
  let s := bitN v (w - 1)
  match unpackF w v with
  | .nan g => (nanF w, if g then 16 else 0)
  | .inf _ => (signF w s, 0)
  | .fin _ m _ =>
    if m = 0 then (infF w s, 8)
    else
      let x0 := v / 2 ^ fracBits w % 2 ^ expoBits w
      let n : Int × Nat := if x0 = 0 then normSub w (v % 2 ^ fracBits w) else (x0, v % 2 ^ fracBits w)
      if n.1 < -1 then
        (if rm = 1 ∨ (rm = 2 ∧ !s) ∨ (rm = 3 ∧ s) then infF w s - 1 else infF w s, 5)
      else
        let i := n.2 / 2 ^ (fracBits w - 7)
        let o := ((131072 / (257 + 2 * i) + 1) / 2 - 128) * 2 ^ (fracBits w - 7)
        let x : Int := 2 * (expoBias w : Int) - 1 - n.1
        if 0 < x then (signF w s + x.toNat * 2 ^ fracBits w + o, 0)
        else (signF w s + (o + 2 ^ fracBits w) / 2 ^ (1 - x).toNat, 0)

/-- The 7-bit estimate of a reciprocal square root (vfrsqrt7.v). -/
def rsqrt7F (w v : Nat) : Nat × FFlags :=
  let s := bitN v (w - 1)
  match unpackF w v with
  | .nan g => (nanF w, if g then 16 else 0)
  | .inf _ => if s then (nanF w, 16) else (0, 0)
  | .fin _ m _ =>
    if m = 0 then (infF w s, 8)
    else if s then (nanF w, 16)
    else
      let x0 := v / 2 ^ fracBits w % 2 ^ expoBits w
      let n : Int × Nat := if x0 = 0 then normSub w (v % 2 ^ fracBits w) else (x0, v % 2 ^ fracBits w)
      let i := n.2 / 2 ^ (fracBits w - 6)
      let k := if n.1 % 2 = 0 then 2 else 1
      let o := ((sqrtN (33554432 / (k * (129 + 2 * i))) 14 0 + 1) / 2 - 128) * 2 ^ (fracBits w - 7)
      (((3 * (expoBias w : Int) - 1 - n.1) / 2).toNat * 2 ^ fracBits w + o, 0)

end Machine

end Sys2Proof
end

