-- ==== Sys2Proof/Machine/Rv.lean ====
section
/-! DEFINITION. What an instruction of RV64GC does to the registers of a shuttle core (R110, R113, R115; log entry 12): decoding, the integer,
atomic and floating-point instructions and the control and status registers that U mode reaches.  Memory is a reading function; stores are
returned. -/

namespace Sys2Proof

namespace Machine

/-! ### Registers -/

/-- An integer register; x0 reads as zero. -/
def Pair.getX (p : Pair) (i : Nat) : Dword := if i % 32 = 0 then 0 else p.x.getD (i % 32) 0

/-- Set an integer register; x0 stays zero. -/
def Pair.setX (p : Pair) (i : Nat) (v : Dword) : Pair := if i % 32 = 0 then p else { p with x := p.x.set (i % 32) v }

/-- A floating-point register as a word of a format; a binary32 that is not NaN-boxed reads as the canonical NaN. -/
def Pair.getF (p : Pair) (w i : Nat) : Nat :=
  let v := (p.f.getD (i % 32) 0).toNat
  if w = 64 then v else if v / 2 ^ 32 = 2 ^ 32 - 1 then v % 2 ^ 32 else nanF 32

/-- Write a floating-point register; a binary32 is NaN-boxed. -/
def Pair.setF (p : Pair) (w i v : Nat) : Pair :=
  { p with f := p.f.set (i % 32) (BitVec.ofNat 64 (if w = 64 then v else v % 2 ^ 32 + (2 ^ 32 - 1) * 2 ^ 32)) }

/-- Exception flags accumulate. -/
def Pair.flag (p : Pair) (n : FFlags) : Pair := { p with fflags := p.fflags ||| BitVec.ofNat 5 n }

/-- A value of n bits, sign-extended. -/
def sextN (n v : Nat) : Dword := BitVec.ofInt 64 (signedOf n (v % 2 ^ n))

/-- What an instruction does: the core's registers after it, its pc among them; the bytes it reads of memory and the values it stores, in
order; whether it writes a register; and how many free values it draws. -/
structure RvOut where
  pair : Pair
  stores : List (Nat × Nat × Nat) := []
  loads : List (Nat × Nat) := []
  writes : Bool := true
  draws : Nat := 0
deriving DecidableEq, Repr

/-- What an instruction meets: the core before it, the pc that follows, device time, and where free values are drawn. -/
structure RvIn where
  p : Pair
  next : Dword
  now : Dword
  k : Nat
deriving DecidableEq, Repr

/-- A read of memory: address and bytes give a value, or a fault. -/
abbrev RvMem := Nat → Nat → Option Nat

/-- The core goes on behind the instruction. -/
def RvIn.on (c : RvIn) : Pair := { c.p with pc := c.next }

/-- An integer register written. -/
def RvIn.x (c : RvIn) (rd : Nat) (v : Dword) : Option RvOut := some { pair := c.on.setX rd v }

/-- A floating-point register written, with flags. -/
def RvIn.f (c : RvIn) (w rd : Nat) (r : Nat × FFlags) : Option RvOut := some { pair := (c.on.setF w rd r.1).flag r.2 }

/-- An instruction without an effect but the pc's. -/
def RvIn.nop (c : RvIn) : Option RvOut := some { pair := c.on, writes := false }

/-! ### Compressed instructions -/

/-- The word of an I-type instruction. -/
def encI (imm rs1 f3 rd op : Nat) : Nat := imm % 4096 * 2 ^ 20 + rs1 * 2 ^ 15 + f3 * 2 ^ 12 + rd * 2 ^ 7 + op

/-- The word of an R-type instruction. -/
def encR (f7 rs2 rs1 f3 rd op : Nat) : Nat := f7 * 2 ^ 25 + rs2 * 2 ^ 20 + rs1 * 2 ^ 15 + f3 * 2 ^ 12 + rd * 2 ^ 7 + op

/-- The word of an S-type instruction. -/
def encS (imm rs2 rs1 f3 op : Nat) : Nat := encR (bitsN imm 11 5) rs2 rs1 f3 (bitsN imm 4 0) op

/-- The word of a branch on two registers. -/
def encB (imm rs2 rs1 f3 : Nat) : Nat :=
  encR (bitsN imm 12 12 * 64 + bitsN imm 10 5) rs2 rs1 f3 (bitsN imm 4 1 * 2 + bitsN imm 11 11) 0x63

/-- The word of a jump. -/
def encJ (imm rd : Nat) : Nat :=
  bitsN imm 20 20 * 2 ^ 31 + bitsN imm 10 1 * 2 ^ 21 + bitsN imm 11 11 * 2 ^ 20 + bitsN imm 19 12 * 2 ^ 12 + rd * 2 ^ 7 + 0x6F

/-- A value of n bits, sign-extended to 32 bits. -/
def sext32 (n v : Nat) : Nat := (sextN n v).toNat % 2 ^ 32

/-- Quadrant 0 of the compressed instructions as words of 32 bits; none is reserved. -/
def rvc0 (h : Nat) : Option Nat :=
  let rd := 8 + bitsN h 4 2
  let rs := 8 + bitsN h 9 7
  let i4 := bitsN h 12 10 * 8 + bitsN h 6 6 * 4 + bitsN h 5 5 * 64
  let i8 := bitsN h 12 10 * 8 + bitsN h 6 5 * 64
  match bitsN h 15 13 with
  | 0 =>
    let imm := bitsN h 12 11 * 16 + bitsN h 10 7 * 64 + bitsN h 6 6 * 4 + bitsN h 5 5 * 8
    if imm = 0 then none else some (encI imm 2 0 rd 0x13)
  | 1 => some (encI i8 rs 3 rd 0x07)
  | 2 => some (encI i4 rs 2 rd 0x03)
  | 3 => some (encI i8 rs 3 rd 0x03)
  | 5 => some (encS i8 rd rs 3 0x27)
  | 6 => some (encS i4 rd rs 2 0x23)
  | 7 => some (encS i8 rd rs 3 0x23)
  | _ => none

/-- The arithmetic instructions of quadrant 1. -/
def rvcAlu (h : Nat) : Option Nat :=
  let rd := 8 + bitsN h 9 7
  let rs := 8 + bitsN h 4 2
  let i := bitsN h 12 12 * 32 + bitsN h 6 2
  match bitsN h 11 10 with
  | 0 => some (encI i rd 5 rd 0x13)
  | 1 => some (encI (1024 + i) rd 5 rd 0x13)
  | 2 => some (encI (sext32 6 i) rd 7 rd 0x13)
  | _ =>
    match bitsN h 12 12 * 4 + bitsN h 6 5 with
    | 0 => some (encR 32 rs rd 0 rd 0x33)
    | 1 => some (encR 0 rs rd 4 rd 0x33)
    | 2 => some (encR 0 rs rd 6 rd 0x33)
    | 3 => some (encR 0 rs rd 7 rd 0x33)
    | 4 => some (encR 32 rs rd 0 rd 0x3B)
    | 5 => some (encR 0 rs rd 0 rd 0x3B)
    | _ => none

/-- Quadrant 1 of the compressed instructions. -/
def rvc1 (h : Nat) : Option Nat :=
  let rd := bitsN h 11 7
  let i := bitsN h 12 12 * 32 + bitsN h 6 2
  let b := sext32 9 (bitsN h 12 12 * 256 + bitsN h 11 10 * 8 + bitsN h 6 5 * 64 + bitsN h 4 3 * 2 + bitsN h 2 2 * 32)
  match bitsN h 15 13 with
  | 0 => some (encI (sext32 6 i) rd 0 rd 0x13)
  | 1 => if rd = 0 then none else some (encI (sext32 6 i) rd 0 rd 0x1B)
  | 2 => some (encI (sext32 6 i) 0 0 rd 0x13)
  | 3 =>
    if rd = 2 then
      let a := bitsN h 12 12 * 512 + bitsN h 6 6 * 16 + bitsN h 5 5 * 64 + bitsN h 4 3 * 128 + bitsN h 2 2 * 32
      if a = 0 then none else some (encI (sext32 10 a) 2 0 2 0x13)
    else if i = 0 then none else some (sext32 6 i % 2 ^ 20 * 2 ^ 12 + rd * 2 ^ 7 + 0x37)
  | 4 => rvcAlu h
  | 5 => some (encJ (sext32 12 (bitsN h 12 12 * 2048 + bitsN h 11 11 * 16 + bitsN h 10 9 * 256 + bitsN h 8 8 * 1024 + bitsN h 7 7 * 64
      + bitsN h 6 6 * 128 + bitsN h 5 3 * 2 + bitsN h 2 2 * 32)) 0)
  | 6 => some (encB b 0 (8 + bitsN h 9 7) 0)
  | _ => some (encB b 0 (8 + bitsN h 9 7) 1)

/-- Quadrant 2 of the compressed instructions. -/
def rvc2 (h : Nat) : Option Nat :=
  let rd := bitsN h 11 7
  let rs := bitsN h 6 2
  let i4 := bitsN h 12 12 * 32 + bitsN h 6 4 * 4 + bitsN h 3 2 * 64
  let i8 := bitsN h 12 12 * 32 + bitsN h 6 5 * 8 + bitsN h 4 2 * 64
  let s8 := bitsN h 12 10 * 8 + bitsN h 9 7 * 64
  match bitsN h 15 13 with
  | 0 => some (encI (bitsN h 12 12 * 32 + rs) rd 1 rd 0x13)
  | 1 => some (encI i8 2 3 rd 0x07)
  | 2 => if rd = 0 then none else some (encI i4 2 2 rd 0x03)
  | 3 => if rd = 0 then none else some (encI i8 2 3 rd 0x03)
  | 4 =>
    if bitsN h 12 12 = 0 then
      (if rs ≠ 0 then some (encR 0 rs 0 0 rd 0x33) else if rd = 0 then none else some (encI 0 rd 0 0 0x67))
    else if rs ≠ 0 then some (encR 0 rs rd 0 rd 0x33)
    else if rd = 0 then some 0x00100073
    else some (encI 0 rd 0 1 0x67)
  | 5 => some (encS s8 rs 2 3 0x27)
  | 6 => some (encS (bitsN h 12 9 * 4 + bitsN h 8 7 * 64) rs 2 2 0x23)
  | _ => some (encS s8 rs 2 3 0x23)

/-- The instruction at the pc in instruction memory (R111): its length in bytes and its word of 32 bits, that of the instruction it stands for
where it is compressed; none is an access fault or a reserved encoding. -/
def Pair.fetch (p : Pair) : Option (Nat × Nat) :=
  let a := p.pc.toNat
  let h := p.imem.readLe a 2
  if 0x20000 < a + 2 ∨ a % 2 ≠ 0 then none
  else if h % 4 = 3 then (if 0x20000 < a + 4 then none else some (4, p.imem.readLe a 4))
  else ((match h % 4 with | 0 => rvc0 h | 1 => rvc1 h | _ => rvc2 h).map (fun w => (2, w)))

/-! ### Integer instructions -/

/-- A register operation on n bits: funct7 0 and 32. -/
def rvAlu {n : Nat} (f7 f3 : Nat) (a b : BitVec n) : Option (BitVec n) :=
  match f3 with
  | 0 => if f7 = 0 then some (a + b) else if f7 = 32 then some (a - b) else none
  | 1 => if f7 = 0 then some (a <<< (b.toNat % n)) else none
  | 2 => if f7 = 0 then some (BitVec.ofNat n (b2n (a.slt b))) else none
  | 3 => if f7 = 0 then some (BitVec.ofNat n (b2n (a.ult b))) else none
  | 4 => if f7 = 0 then some (a ^^^ b) else none
  | 5 => if f7 = 0 then some (a >>> (b.toNat % n)) else if f7 = 32 then some (a.sshiftRight (b.toNat % n)) else none
  | 6 => if f7 = 0 then some (a ||| b) else none
  | _ => if f7 = 0 then some (a &&& b) else none

/-- A multiplication or division on n bits (M); a divisor of zero gives all ones and leaves the dividend. -/
def rvMulDiv {n : Nat} (f3 : Nat) (a b : BitVec n) : BitVec n :=
  let hi : Int → BitVec n := fun z => BitVec.ofInt n (z / (2 ^ n : Nat))
  match f3 with
  | 0 => a * b
  | 1 => hi (a.toInt * b.toInt)
  | 2 => hi (a.toInt * b.toNat)
  | 3 => hi (a.toNat * b.toNat)
  | 4 => if b = 0 then BitVec.ofInt n (-1) else a.sdiv b
  | 5 => if b = 0 then BitVec.ofInt n (-1) else a / b
  | 6 => if b = 0 then a else a.srem b
  | _ => if b = 0 then a else a % b

/-- OP and OP-32: an operation of two registers; `word`: on the lower 32 bits. -/
def rvOp (word : Bool) (f7 f3 : Nat) (a b : Dword) : Option Dword :=
  if word then
    (if f7 = 1 then (if 1 ≤ f3 ∧ f3 ≤ 3 then none else some ((rvMulDiv f3 (a.setWidth 32) (b.setWidth 32)).signExtend 64))
    else if f3 = 0 ∨ f3 = 1 ∨ f3 = 5 then (rvAlu f7 f3 (a.setWidth 32) (b.setWidth 32)).map (fun (v : BitVec 32) => v.signExtend 64)
    else none)
  else if f7 = 1 then some (rvMulDiv f3 a b)
  else rvAlu f7 f3 a b

/-- OP-IMM and OP-IMM-32: an operation of a register and an immediate, whose shifts take their kind from its upper bits. -/
def rvOpImm (word : Bool) (f3 imm : Nat) (a : Dword) : Option Dword :=
  if f3 = 1 ∨ f3 = 5 then
    (if word then (rvAlu (imm / 32) f3 (a.setWidth 32) (BitVec.ofNat 32 (imm % 32))).map (fun (v : BitVec 32) => v.signExtend 64)
    else rvAlu (imm / 64 * 2) f3 a (BitVec.ofNat 64 (imm % 64)))
  else if word ∧ f3 ≠ 0 then none
  else rvOp word 0 f3 a (sextN 12 imm)

/-- A branch is taken. -/
def rvTaken (f3 : Nat) (a b : Dword) : Option Bool :=
  match f3 with
  | 0 => some (a == b)
  | 1 => some (a != b)
  | 4 => some (a.slt b)
  | 5 => some (!a.slt b)
  | 6 => some (a.ult b)
  | 7 => some (!a.ult b)
  | _ => none

/-! ### Control and status registers -/

/-- A control and status register that U mode reads.  The counts of cycles and of instructions, which firmware may have set, are free values
(log entry 9). -/
def RvIn.csr (c : RvIn) (n : Nat) : Option Nat :=
  let v := c.p.vcsr
  match n with
  | 0x001 => some c.p.fflags.toNat
  | 0x002 => some c.p.frm.toNat
  | 0x003 => some (c.p.frm.toNat * 32 + c.p.fflags.toNat)
  | 0x008 => some v.vstart.toNat
  | 0x009 => some (b2n v.vxsat)
  | 0x00A => some v.vxrm.toNat
  | 0x00F => some (v.vxrm.toNat * 2 + b2n v.vxsat)
  | 0xC00 => some (Config.freeDword c.k).toNat
  | 0xC01 => some c.now.toNat
  | 0xC02 => some (Config.freeDword c.k).toNat
  | 0xC20 => some v.vl.toNat
  | 0xC21 => some v.vtype.toNat
  | 0xC22 => some 32
  | _ => none

/-- A write of a control and status register; none where U mode may not write it. -/
def Pair.setCsr (p : Pair) (n v : Nat) : Option Pair :=
  match n with
  | 0x001 => some { p with fflags := BitVec.ofNat 5 v }
  | 0x002 => some { p with frm := BitVec.ofNat 3 v }
  | 0x003 => some { p with fflags := BitVec.ofNat 5 v, frm := BitVec.ofNat 3 (v / 32) }
  | 0x008 => some { p with vcsr := { p.vcsr with vstart := BitVec.ofNat 64 (v % 256) } }
  | 0x009 => some { p with vcsr := { p.vcsr with vxsat := v % 2 == 1 } }
  | 0x00A => some { p with vcsr := { p.vcsr with vxrm := BitVec.ofNat 2 v } }
  | 0x00F => some { p with vcsr := { p.vcsr with vxrm := BitVec.ofNat 2 (v / 2), vxsat := v % 2 == 1 } }
  | _ => none

/-- CSRRW, CSRRS, CSRRC and their immediate forms. -/
def RvIn.csrOp (c : RvIn) (f3 rd rs1 n : Nat) : Option RvOut :=
  (c.csr n).bind (fun old =>
    let a := if f3 < 4 then (c.p.getX rs1).toNat else rs1
    let q := c.on
    let w := match f3 % 4 with
      | 1 => q.setCsr n a
      | 2 => if rs1 = 0 then some q else q.setCsr n (old ||| a)
      | 3 => if rs1 = 0 then some q else q.setCsr n (old - (old &&& a))
      | _ => none
    w.map (fun u => { pair := u.setX rd (BitVec.ofNat 64 old), draws := 1 }))

/-! ### Loads, stores and atomic memory operations -/

/-- A load into an integer register. -/
def RvIn.load (c : RvIn) (ld : RvMem) (f3 rd a : Nat) : Option RvOut :=
  if f3 = 7 then none
  else
    let n := 2 ^ (f3 % 4)
    (ld a n).map (fun v => { pair := c.on.setX rd (if f3 < 4 then sextN (8 * n) v else BitVec.ofNat 64 v), loads := [(a, n)] })

/-- What an atomic memory operation stores. -/
def rvAmo {n : Nat} (f5 : Nat) (old b : BitVec n) : Option (BitVec n) :=
  match f5 with
  | 0x00 => some (old + b)
  | 0x01 => some b
  | 0x04 => some (old ^^^ b)
  | 0x08 => some (old ||| b)
  | 0x0C => some (old &&& b)
  | 0x10 => some (if old.slt b then old else b)
  | 0x14 => some (if old.slt b then b else old)
  | 0x18 => some (if old.ult b then old else b)
  | 0x1C => some (if old.ult b then b else old)
  | _ => none

/-- The first Beam window starts here (R111). -/
abbrev winBase : Nat := 0x1000000000

/-- LR, SC and AMO on 4 or 8 bytes, naturally aligned.  A store-conditional needs the reservation of its address; in a Beam window, which
others write too, whether it holds is a free value (log entry 178). -/
def RvIn.amo (c : RvIn) (ld : RvMem) (f5 f3 rd rs2 a : Nat) : Option RvOut :=
  if (f3 ≠ 2 ∧ f3 ≠ 3) ∨ a % 2 ^ f3 ≠ 0 then none
  else
    let n := 2 ^ f3
    let b := (c.p.getX rs2).toNat
    match f5 with
    | 0x02 =>
      if rs2 ≠ 0 then none
      else (ld a n).map (fun v => { pair := { (c.on.setX rd (sextN (8 * n) v)) with resv := some (a, n) }, loads := [(a, n)] })
    | 0x03 =>
      let ok := decide (c.p.resv = some (a, n)) && (decide (a < winBase) || (Config.freeByte c.k).getLsbD 0)
      some { pair := { (c.on.setX rd (if ok then 0 else 1)) with resv := none },
             stores := if ok then [(a, n, b % 2 ^ (8 * n))] else [], draws := 1 }
    | _ =>
      (ld a n).bind (fun v =>
        (if f3 = 2 then (rvAmo f5 (BitVec.ofNat 32 v) (BitVec.ofNat 32 b)).map BitVec.toNat
          else (rvAmo f5 (BitVec.ofNat 64 v) (BitVec.ofNat 64 b)).map BitVec.toNat).map (fun w =>
          { pair := c.on.setX rd (sextN (8 * n) v), loads := [(a, n)], stores := [(a, n, w)] }))

/-! ### Floating-point instructions (R113) -/

/-- The rounding mode of an instruction: its rm field, or frm for the dynamic one; none is reserved. -/
def Pair.rmOf (p : Pair) (rm : Nat) : Option Nat :=
  let r := if rm = 7 then p.frm.toNat else rm
  if r ≤ 4 then some r else none

/-- A fused multiply-add: bit 0 of `k` negates the addend, bit 1 the product. -/
def RvIn.fma (c : RvIn) (w k rm rd rs1 rs2 rs3 : Nat) : Option RvOut :=
  (c.p.rmOf rm).bind (fun r =>
    let x := unpackF w (c.p.getF w rs1)
    let z := unpackF w (c.p.getF w rs3)
    c.f w rd (fmaF w r (if bitN k 1 then x.neg else x) (unpackF w (c.p.getF w rs2)) (if bitN k 0 then z.neg else z)))

/-- OP-FP: the operations of two registers and the conversions. -/
def RvIn.opFp (c : RvIn) (w f5 rm rd rs1 rs2 : Nat) : Option RvOut :=
  let a := c.p.getF w rs1
  let b := c.p.getF w rs2
  let x := unpackF w a
  let y := unpackF w b
  let raw := (c.p.f.getD (rs1 % 32) 0).toNat
  let int : Option (Nat × Bool) := match rs2 with
    | 0 => some (32, true)
    | 1 => some (32, false)
    | 2 => some (64, true)
    | 3 => some (64, false)
    | _ => none
  match f5 with
  | 0x00 => (c.p.rmOf rm).bind (fun r => c.f w rd (addF w r x y))
  | 0x01 => (c.p.rmOf rm).bind (fun r => c.f w rd (addF w r x y.neg))
  | 0x02 => (c.p.rmOf rm).bind (fun r => c.f w rd (mulF w r x y))
  | 0x03 => (c.p.rmOf rm).bind (fun r => c.f w rd (divF w r x y))
  | 0x0B => if rs2 ≠ 0 then none else (c.p.rmOf rm).bind (fun r => c.f w rd (sqrtF w r x))
  | 0x04 => if 2 < rm then none else c.f w rd (sgnF w rm a b, 0)
  | 0x05 => if 1 < rm then none else c.f w rd (minMaxF w (rm = 1) a b)
  | 0x08 =>
    if rs2 ≠ (if w = 32 then 1 else 0) then none
    else (c.p.rmOf rm).bind (fun r => c.f w rd (castF w r (unpackF (96 - w) (c.p.getF (96 - w) rs1))))
  | 0x14 =>
    if 2 < rm then none
    else
      let t := compareF (2 - rm) x y
      some { pair := (c.on.setX rd (BitVec.ofNat 64 (b2n t.1))).flag t.2 }
  | 0x18 => int.bind (fun i => (c.p.rmOf rm).map (fun r =>
      let t := toIntF r i.2 i.1 x
      { pair := (c.on.setX rd (sextN i.1 t.1)).flag t.2 }))
  | 0x1A => int.bind (fun i => (c.p.rmOf rm).bind (fun r =>
      let v := (c.p.getX rs1).toNat % 2 ^ i.1
      c.f w rd (ofIntF w r (if i.2 then signedOf i.1 v else v))))
  | 0x1C =>
    if rs2 ≠ 0 then none
    else if rm = 0 then c.x rd (if w = 32 then sextN 32 raw else BitVec.ofNat 64 raw)
    else if rm = 1 then c.x rd (BitVec.ofNat 64 (classF w a))
    else none
  | 0x1E => if rs2 ≠ 0 ∨ rm ≠ 0 then none else c.f w rd ((c.p.getX rs1).toNat % 2 ^ w, 0)
  | _ => none

/-! ### One instruction -/

/-- An instruction of RV64GC from its word of 32 bits; none is an illegal instruction or a fault of its read.  The Loom control
instructions, ecall, ebreak and rdtime have rows of their own, and vector instructions stand in Machine/RvVec.lean. -/
def RvIn.exec (c : RvIn) (ld : RvMem) (w : Nat) : Option RvOut :=
  let rd := bitsN w 11 7
  let f3 := bitsN w 14 12
  let rs1 := bitsN w 19 15
  let rs2 := bitsN w 24 20
  let f7 := bitsN w 31 25
  let immI := bitsN w 31 20
  let a := c.p.getX rs1
  let addr := (a + sextN 12 immI).toNat
  let addrS := (a + sextN 12 (f7 * 32 + rd)).toNat
  let fmt := if f7 % 4 = 0 then 32 else 64
  match w % 128 with
  | 0x03 => c.load ld f3 rd addr
  | 0x07 =>
    if f3 ≠ 2 ∧ f3 ≠ 3 then none
    else (ld addr (2 ^ f3)).map (fun v => { pair := c.on.setF (8 * 2 ^ f3) rd v, loads := [(addr, 2 ^ f3)] })
  | 0x0F => if f3 ≤ 1 then c.nop else none
  | 0x13 => (rvOpImm false f3 immI a).bind (c.x rd)
  | 0x17 => c.x rd (c.p.pc + sextN 32 (w / 4096 * 4096))
  | 0x1B => (rvOpImm true f3 immI a).bind (c.x rd)
  | 0x23 =>
    if 3 < f3 then none
    else some { pair := c.on, stores := [(addrS, 2 ^ f3, (c.p.getX rs2).toNat % 2 ^ (8 * 2 ^ f3))], writes := false }
  | 0x27 =>
    if f3 ≠ 2 ∧ f3 ≠ 3 then none
    else some { pair := c.on, stores := [(addrS, 2 ^ f3, (c.p.f.getD rs2 0).toNat % 2 ^ (8 * 2 ^ f3))], writes := false }
  | 0x2F => c.amo ld (f7 / 4) f3 rd rs2 a.toNat
  | 0x33 => (rvOp false f7 f3 a (c.p.getX rs2)).bind (c.x rd)
  | 0x37 => c.x rd (sextN 32 (w / 4096 * 4096))
  | 0x3B => (rvOp true f7 f3 a (c.p.getX rs2)).bind (c.x rd)
  | 0x43 => if 1 < f7 % 4 then none else c.fma fmt 0 f3 rd rs1 rs2 (f7 / 4)
  | 0x47 => if 1 < f7 % 4 then none else c.fma fmt 1 f3 rd rs1 rs2 (f7 / 4)
  | 0x4B => if 1 < f7 % 4 then none else c.fma fmt 2 f3 rd rs1 rs2 (f7 / 4)
  | 0x4F => if 1 < f7 % 4 then none else c.fma fmt 3 f3 rd rs1 rs2 (f7 / 4)
  | 0x53 => if 1 < f7 % 4 then none else c.opFp fmt (f7 / 4) f3 rd rs1 rs2
  | 0x63 =>
    (rvTaken f3 a (c.p.getX rs2)).map (fun t =>
      { pair := if t then { c.p with pc := c.p.pc + sextN 13 (bitsN w 31 31 * 4096 + bitsN w 7 7 * 2048 + bitsN w 30 25 * 32 + bitsN w 11 8 * 2) }
                else c.on,
        writes := false })
  | 0x67 =>
    if f3 ≠ 0 then none
    else some { pair := { (c.p.setX rd c.next) with pc := (a + sextN 12 immI) &&& ~~~(1 : Dword) } }
  | 0x6F =>
    some { pair := { (c.p.setX rd c.next) with
      pc := c.p.pc + sextN 21 (bitsN w 31 31 * 2 ^ 20 + bitsN w 19 12 * 4096 + bitsN w 20 20 * 2048 + bitsN w 30 21 * 2) } }
  | 0x73 => if f3 % 4 = 0 then (if w = 0x10500073 then c.nop else none) else c.csrOp f3 rd rs1 immI
  | _ => none

end Machine

end Sys2Proof
end

