-- ==== Sys2Proof/Machine/Issue.lean ====
section
/-! DEFINITION. Shuttle pairs at work, tickets, issue queues and gather windows (R98, R100 to R103, R115, R118, R119, R400, R535,
R538, R540). -/

namespace Sys2Proof

namespace Machine

/-! ### Counts (R515, R518) -/

/-- Bytes of a step's work at a level, in an amount and at addresses that the manual leaves to timing: free values (log entry 9), under
the master that moves them (R16). -/
def State.bytesFree (s : State) (d code level size : Nat) (master : Byte) (t : Step) : State :=
  ({ s with freshCtr := s.freshCtr + 1 }).countFree { workEv d code none 0 t with
    master := some master.toNat, addr := some (level, (Config.freeDword s.freshCtr).toNat % size) }

/-- Loom clocks for which a master of a step's work lost the arbitration of a bank: timing, a free amount (R247, R518). -/
def State.bankLost (s : State) (d : Nat) (master : Byte) (t : Step) : State :=
  s.countFree { workEv d 0x042 none 0 t with master := some master.toNat }

/-- What a unit's operation reads of Beam SRAM: how often it reads a byte again is not stated, so a free amount of bytes, with arbitration
lost (R518; log entry 149). -/
def State.beamReads (s : State) (d : Nat) (master : Byte) (t : Step) : State :=
  (s.bytesFree d 0x040 0 (2 ^ 26) master t).bankLost d master t

/-- Add a free amount to an always-on counter. -/
def State.aonFree (s : State) (d j : Nat) : State :=
  bumpAon { s with freshCtr := s.freshCtr + 1 } d j (Config.freeDword s.freshCtr).toNat

/-! ### Pairs -/

/-- The pair with a number, 0 to 7. -/
def State.pair? (s : State) (n : Nat) : Option Pair := if n < 8 then (s.weft (weftOf n)).pairs[n % 4]? else none

/-- Change a pair. -/
def State.modPair (s : State) (n : Nat) (f : Pair → Pair) : State :=
  if n < 8 then s.modWeft (weftOf n) (fun w => { w with pairs := modAt w.pairs (n % 4) f }) else s

/-- The program that a pair executes now: neither stalled nor halted, but for one instruction under a debug step (R499). -/
def Pair.active (p : Pair) : Option Running :=
  if p.stall.isSome || p.halted || (p.debugHalt && !p.debugStep) || p.testing then none else p.run

/-- A pair executes an instruction of a step's program: its clock runs, and it is enabled and not in reset (R109, R377, R388, R473). -/
def State.onPair (s : State) (n : Nat) (go : Pair → Running → Step → State) : State :=
  match s.pair? n with
  | none => s
  | some p =>
    match p.active with
    | none => s
    | some r =>
      match s.step? r.step with
      | none => s
      | some t =>
        if s.clocked (.shuttle (weftOf n)) && s.pairOn n && s.unitUp (.pair n) then go p r t else s

/-- An instruction of four bytes retires. -/
def Pair.advance (p : Pair) : Pair := { p with pc := p.pc + 4, debugStep := false, run := p.run.map (fun r => { r with instrs := r.instrs + 1 }) }

/-- An instruction retires: events 0x023 and, for a Loom control instruction, 0x024 (R518). -/
def State.retired (s : State) (n : Nat) (t : Step) (loom : Bool) : State :=
  let d := dieNo (weftOf n)
  let s1 := (countEv s (workEv d 0x023 (some (n % 4)) 1 t)).instrDone t.ctx
  if loom then countEv s1 (workEv d 0x024 (some (n % 4)) 1 t) else s1

/-- A standard instruction of four bytes retires with an effect on the pair. -/
def State.doneStd (s : State) (n : Nat) (t : Step) (f : Pair → Pair) : State := (s.modPair n (fun p => f p.advance)).retired n t false

/-- A Loom control instruction retires with an effect on the pair. -/
def State.doneLm (s : State) (n : Nat) (t : Step) (f : Pair → Pair) : State := (s.modPair n (fun p => f p.advance)).retired n t true

/-- The master of a pair (R16). -/
def pairMaster (n : Nat) : Byte := BitVec.ofNat 8 (0x60 + n)

/-- A source of a pair: k = 0x10 lockstep, 0x14 program, 0x18 budget (R457), with its capture (R461). -/
def State.raisePair (s : State) (n k : Nat) (t : Step) (r : Running) (pc : Dword) : State :=
  s.raise (weftSrc (weftOf n) (k + n % 4)) (cap (some t.ctx) (pairMaster n) 0 pc r.program)

/-- A program fault (R115): the owning context is killed. -/
def State.progFault (s : State) (n : Nat) (t : Step) (r : Running) (pc : Dword) : State :=
  (s.endCtx t.ctx 3).raisePair n 0x14 t r pc

/-! ### Queues and tickets (R118, R119) -/

/-- An issue queue. -/
def WeftDie.queue (w : WeftDie) (u : OpUnit) : List Op :=
  match u with
  | .array => w.arrayQ
  | .reed => w.reedQ
  | .finish => w.finishQ
  | .stage => w.stageQ

/-- Set an issue queue. -/
def WeftDie.setQueue (w : WeftDie) (u : OpUnit) (q : List Op) : WeftDie :=
  match u with
  | .array => { w with arrayQ := q }
  | .reed => { w with reedQ := q }
  | .finish => { w with finishQ := q }
  | .stage => { w with stageQ := q }

/-- The operation a unit runs. -/
def WeftDie.runOf (w : WeftDie) (u : OpUnit) : Option Op :=
  match u with
  | .array => w.arrayRun
  | .reed => w.reedRun
  | .finish => w.finishRun
  | .stage => w.stageRun

/-- Set the operation a unit runs. -/
def WeftDie.setRun (w : WeftDie) (u : OpUnit) (o : Option Op) : WeftDie :=
  match u with
  | .array => { w with arrayRun := o }
  | .reed => { w with reedRun := o }
  | .finish => { w with finishRun := o }
  | .stage => { w with stageRun := o }

/-- The operations that a batched layer's entry still runs after this one (R191): true when this is the last. -/
def State.opLast (s : State) (o : Op) : Bool :=
  match o.kind, (o.members.head?).bind (fun m => s.step? m.step) with
  | .layer l, some t => decide (((s.stepDraft t).layer l).batches ≤ o.pass + 1)
  | _, _ => true

/-- A queue holds 16 entries (R119).  An open gather window of the die, and a batched layer with operations still to run, hold an entry
of the array queue (log entry 119). -/
def State.queueFull (s : State) (d : Weft) (u : OpUnit) : Bool :=
  let w := s.weft d
  let more := if u = .array then (s.sched.windows.filter (fun x => x.waits d)).length
      + (w.arrayRun.toList.filter (fun o => !s.opLast o)).length else 0
  decide (16 ≤ (w.queue u).length + more)

/-- Put an operation into a queue. -/
def State.pushOp (s : State) (d : Weft) (u : OpUnit) (o : Op) : State := s.modWeft d (fun w => w.setQueue u (w.queue u ++ [o]))

/-- A ticket that no operation in flight on the die bears: a free pick (R118, log entry 34). -/
def State.pickTicket (s : State) (d : Weft) : Option Nat :=
  let free := (List.range 256).filter (fun k => !(s.weft d).tickets.contains k)
  free[(Config.freeDword s.freshCtr).toNat % max 1 free.length]?

/-- The tickets in flight that a pair bears: those its operations and started programs still carry, an ended program's too (R119). -/
def State.pairTickets (s : State) (n : Nat) : Nat :=
  let w := s.weft (weftOf n)
  let ops := w.arrayQ ++ w.reedQ ++ w.finishQ ++ w.stageQ ++ w.arrayRun.toList ++ w.reedRun.toList ++ w.finishRun.toList ++ w.stageRun.toList
  let held := ((s.sched.windows.filter (fun x => x.waits (weftOf n))).flatMap (fun x => (x.asked.filter (fun a => decide (a.1 = weftOf n))).map (fun a => a.2))) ++ ops.flatMap (fun o => o.members)
  let spawned := w.pairs.flatMap (fun p => (p.run.toList ++ p.queued).filter (fun r => r.ticket.isSome && r.parent == n))
  (held.filter (fun m => m.pair == n)).length + spawned.length

/-- An issue: a pair at 64 tickets, or one that meets a full queue, stalls and issues later (R119); else the ticket goes to rd and the
operation where it belongs. -/
def State.issue (s : State) (n rd : Nat) (t : Step) (full : Bool) (put : Nat → State → State) : State :=
  let d := weftOf n
  let stalled := s.countFree (workEv (dieNo d) 0x025 (some (n % 4)) 0 t)
  if full || decide (64 ≤ s.pairTickets n) then stalled
  else
    match s.pickTicket d with
    | none => stalled
    | some k =>
      let s1 := { s with freshCtr := s.freshCtr + 1 }
      let s2 := s1.modWeft d (fun w => { w with tickets := w.tickets ++ [k] })
      put k (s2.doneLm n t (fun p =>
        ({ p with run := p.run.map (fun (x : Running) => { x with tickets := x.tickets ++ [k] }) }).setX rd (BitVec.ofNat 64 k)))

/-- A ticket completes: pairs that stall on it, or whose last ticket it was, go on (R118). -/
def Pair.ticketDone (k : Nat) (p : Pair) : Pair :=
  let run := p.run.map (fun (r : Running) => { r with tickets := r.tickets.filter (fun x => x != k) })
  let left := (run.map (fun r => r.tickets)).getD []
  { p with
    run := run
    stall := match p.stall with
      | some (.ticket x) => if x = k then none else p.stall
      | some .all => if left.isEmpty then none else p.stall
      | x => x }

/-- A ticket of a die completes. -/
def State.ticketDone (s : State) (d : Weft) (k : Nat) : State :=
  s.modWeft d (fun w => { w with tickets := w.tickets.filter (fun x => x != k), pairs := w.pairs.map (Pair.ticketDone k) })

/-- A layer of a member's step completes: its context's progress counter advances (R467). -/
def State.layerProgress (s : State) (o : Op) (m : OpMember) : State :=
  match o.kind, s.step? m.step with
  | .layer _, some t => s.progress (monKey .context t.ctx 0)
  | _, _ => s

/-- The tickets of an operation's members complete. -/
def State.opDone (s : State) (d : Weft) (o : Op) : State := o.members.foldl (fun u m => (u.layerProgress o m).ticketDone d m.ticket) s

/-- An operation retires on a unit of a die: the progress counters of the unit, for the array of the engines that take work (R467). -/
def State.unitProgress (s : State) (d : Weft) (u : OpUnit) : State :=
  match u with
  | .array => ((enginesOf d).filter s.engineTakes).foldl (fun x e => x.progress (monKey .engine e 0)) s
  | .reed => s.progress (monKey .reed (weftNo d) 0)
  | .finish => s.progress (monKey .finish (weftNo d) 0)
  | .stage => s

/-! ### Gather windows (R100 to R103, R400, R535, R538, R540) -/

/-- The gather target of a layer in rows (R89). -/
def Draft.gatherTarget (d : Draft) (l : Layer) : Nat := if l.gatherRows = 0 then 64 * d.engines else l.gatherRows

/-- The contexts of a gather group. -/
def State.groupMembers (s : State) (g : Nat) : List Nat := (s.groupRows g).map (fun x => x.1)

/-- A gather group governs: enabled, or disabled with its window still open (R565). -/
def State.groupOn (s : State) (g : Nat) : Bool := bitW (s.reg (oGrp g)) 22 || s.sched.windows.any (fun w => !w.closed && w.group == some g)

/-- The gather group in force of an entry and layer that lists a context. -/
def State.groupFor (s : State) (entry layer ctx : Nat) : Option Nat :=
  (List.range 16).find? (fun g => s.groupOn g && fld (s.reg (oGrp g)) 7 0 == entry && fld (s.reg (oGrp g)) 21 8 == layer
    && (s.groupMembers g).contains ctx)

/-- Rows gathered in a window. -/
def Window.rows (w : Window) : Nat := w.members.foldl (fun a m => a + m.rows) 0

/-- Every member of a window's gather group is present (R102). -/
def State.groupFull (s : State) (w : Window) : Bool :=
  match w.group with
  | none => false
  | some g => (s.groupMembers g).all (fun c => w.members.any (fun m => s.memberCtx m == some c))

/-- Two windows gather the same requests (R100). -/
def Window.alike (w x : Window) : Bool := x.entry == w.entry && x.layer == w.layer && x.lc == w.lc && x.group == w.group

/-- A window with a request more; it closes when it is full: at the gather target, or in a fixed composition when every member is
present (R101, R102). -/
def State.joinWindow (s : State) (target : Nat) (w : Window) : State :=
  let s1 := { s with sched := { s.sched with windows := s.sched.windows.filter (fun x => x.closed || !w.alike x) ++ [w] } }
  if (w.group.isNone && decide (target ≤ w.rows)) || s1.groupFull w then s1.closeWindow w else s1

/-- A request fits into a window: into the rows left, or in a fixed composition into its member's range, still free (R101, R102). -/
def State.fitsWindow (s : State) (target : Nat) (w : Window) (m : OpMember) : Bool :=
  match w.group with
  | none => decide (w.rows + m.rows ≤ target)
  | some _ => !(w.members.any (fun x => s.memberCtx x == s.memberCtx m))

/-- The window whose composition a request of the step's other die fixed (R535). -/
def State.fixedFor (s : State) (d : Weft) (t : Step) (l : Nat) : Option Window :=
  s.sched.windows.find? (fun w => w.entry == t.entry && w.layer == l && w.members.any (fun m => m.step == t.id)
    && !w.asked.any (fun a => decide (a.1 = d) && a.2.step == t.id))

/-- An array request of a step arrives (R100, R101, R535).  The step's request on its other die may have fixed the composition; else it runs
alone, joins the open window, or opens the next.  With determinism on, a request of either class gathers within its gather group only
(R400, R538; log entry 140). -/
def State.request (s : State) (d : Weft) (t : Step) (l : Nat) (m : OpMember) : State :=
  let dr := s.stepDraft t
  let lay := dr.layer l
  let target := dr.gatherTarget lay
  let grp := if s.det then s.groupFor t.entry l t.ctx else none
  let alone := s.holdUs == 0 || (s.det && grp.isNone) || decide (target ≤ m.rows)
  let w0 : Window := { entry := t.entry, layer := l, lc := t.lc, group := if alone then none else grp, openTime := s.time.now,
                       limitUs := if t.lc then min s.holdUs t.holdUs else s.holdUs, members := [m], asked := [(d, m)] }
  if !lay.gatherable || (alone && !t.on (otherDie d)) then s.pushOp d .array { entry := t.entry, kind := .layer l, members := [m], pass := 0 }
  else
    match s.fixedFor d t l with
    | some w => ({ s with sched := { s.sched with windows := s.sched.windows.map (fun x => if x = w then { x with asked := x.asked ++ [(d, m)] } else x) } }).sendWindows
    | none =>
      if alone then s.closeWindow w0
      else
        match s.sched.windows.find? (fun x => !x.closed && w0.alike x) with
        | none => s.joinWindow target w0
        | some w =>
          if s.fitsWindow target w m then
            s.joinWindow target { w with
              limitUs := if t.lc then min w.limitUs t.holdUs else w.limitUs
              members := w.members ++ [m]
              asked := w.asked ++ [(d, m)] }
          else (s.closeWindow w).joinWindow target w0

end Machine

end Sys2Proof
end

