-- ==== Sys2Proof/Machine/Image.lean ====
section
/-! DEFINITION. Recipes and the image path of Creel: unpacking, black levels and defects, lens and mesh, tone, regroup, and
line-delta (R211, R218 to R220, R223 to R230, R234). -/

namespace Sys2Proof

namespace Machine

/-! ### binary32 with infinities and NaN (R226) -/

/-- A binary32 value: finite, infinite (with its sign) or NaN.  R226 asks for plain binary32 arithmetic. -/
inductive X32 where
  | fin (q : Rat)
  | inf (neg : Bool)
  | nan
deriving DecidableEq, Repr

/-- The value of a binary32 word. -/
def X32.ofWord (w : Nat) : X32 := if f32IsNan w then .nan else if f32IsInf w then .inf (bitN w 31) else .fin (f32Val w)

/-- Round to binary32, nearest even. -/
def X32.round (q : Rat) : X32 := if (rne32 q).2 then .inf (decide (q < 0)) else .fin (rne32 q).1

/-- Sum rounded once. -/
def X32.add (a b : X32) : X32 :=
  match a, b with
  | .fin p, .fin q => X32.round (p + q)
  | .nan, _ => .nan
  | _, .nan => .nan
  | .inf m, .inf n => if m = n then .inf m else .nan
  | .inf m, .fin _ => .inf m
  | .fin _, .inf n => .inf n

/-- Negation. -/
def X32.neg (a : X32) : X32 :=
  match a with
  | .fin q => .fin (-q)
  | .inf m => .inf (!m)
  | .nan => .nan

/-- Difference rounded once. -/
def X32.sub (a b : X32) : X32 := a.add b.neg

/-- Sign of a value: negative. -/
def X32.isNeg (a : X32) : Bool :=
  match a with
  | .fin q => decide (q < 0)
  | .inf m => m
  | .nan => false

/-- The value is a zero. -/
def X32.isZero (a : X32) : Bool :=
  match a with
  | .fin q => decide (q = 0)
  | .inf _ => false
  | .nan => false

/-- Product rounded once. -/
def X32.mul (a b : X32) : X32 :=
  match a, b with
  | .fin p, .fin q => X32.round (p * q)
  | .nan, _ => .nan
  | _, .nan => .nan
  | x, y => if x.isZero || y.isZero then .nan else .inf (x.isNeg != y.isNeg)

/-- a × b + c with one rounding. -/
def X32.fma (a b c : X32) : X32 :=
  match a, b, c with
  | .fin p, .fin q, .fin r => X32.round (p * q + r)
  | .fin _, .fin _, c => c
  | a, b, c => (a.mul b).add c

/-! ### CSI-2 lines (R211, R223, R224) -/

/-- An image data type (R211). -/
def isImageType (dt : Nat) : Bool := [0x1E, 0x2B, 0x2C, 0x2E].contains dt

/-- Bytes of a line of w columns (R223). -/
def lineBytes (dt w : Nat) : Nat := if dt = 0x2B then ceilDiv (10 * w) 8 else if dt = 0x2C then ceilDiv (12 * w) 8 else 2 * w

/-- Components of a line in CSI-2 order. -/
def lineComps (dt w : Nat) : Nat := if dt = 0x1E then 2 * w else w

/-- The native width of a component (R224). -/
def nativeBits (dt : Nat) : Nat := if dt = 0x1E then 8 else if dt = 0x2B then 10 else if dt = 0x2C then 12 else 16

/-- Samples of one packed group: the high bits of each in a byte of its own, the low bits together in the last byte. -/
def unpackGroup (low : Nat) (g : List Byte) : List Nat :=
  let n := g.length - 1
  let last := leAt g n 1
  (List.range n).map (fun i => leAt g i 1 * 2 ^ low + last / 2 ^ (low * i) % 2 ^ low)

/-- The components of a line at their native width (PRESUMED, log entry 27: the packings of CSI-2 3.0, which R210 names). -/
def unpackLine (dt : Nat) (bs : List Byte) : List Nat :=
  if dt = 0x2B then (chunks 5 bs.length bs).flatMap (unpackGroup 2)
  else if dt = 0x2C then (chunks 3 bs.length bs).flatMap (unpackGroup 4)
  else if dt = 0x2E then (List.range (bs.length / 2)).map (fun i => leAt bs (2 * i) 2)
  else bs.map (fun b => b.toNat)

/-! ### Stages 3 and 4 (R224, R225) -/

/-- Member i of a list of numbers. -/
abbrev nth (l : List Nat) (i : Nat) : Nat := l.getD i 0

/-- The mean of the same-phase neighbours of a listed pixel (R225). -/
def neighbourMean (src : List Nat) (step x : Nat) : Nat :=
  let ns := (if step ≤ x then [nth src (x - step)] else []) ++ (if x + step < src.length then [nth src (x + step)] else [])
  ns.foldl (fun a b => a + b) 0 / max 1 ns.length

/-- Replace the listed columns of a row (R225). -/
def fixRow (step : Nat) (cols : List Nat) (src : List Nat) : List Nat :=
  src.zipIdx.map (fun p => if cols.contains p.2 then neighbourMean src step p.2 else p.1)

/-- The planes of sensor row y from the line's components: left-aligned, black-corrected, defects replaced. -/
def Recipe.planes (r : Recipe) (y : Nat) (comps : List Nat) : List Nat × List Nat :=
  let al := fun (v : Nat) => v * 2 ^ (16 - nativeBits r.dataType)
  let cols := if r.defectOn then (r.defects.filter (fun d => d.1 == y)).map (fun d => d.2) else []
  if r.cfa = 2 then
    let luma := (List.range r.wIn).map (fun x => al (nth comps (2 * x + 1)) - nth r.black 0)
    let chroma := (List.range r.wIn).map (fun x => al (nth comps (2 * x)))
    (fixRow 1 cols luma, fixRow 2 cols chroma)
  else
    let v := (List.range r.wIn).map (fun x =>
      al (nth comps x) - nth r.black (if r.cfa = 1 then 2 * (y % 2) + x % 2 else 0))
    (fixRow (if r.cfa = 1 then 2 else 1) cols v, [])

/-! ### Stages 5 and 6 (R226) -/

/-- A lens parameter: 0 cx, 1 cy, 2 fl, 3 inv_fl, 4 p1, 5 p2, 6 r2_scale. -/
def Recipe.lp (r : Recipe) (i : Nat) : X32 := X32.ofWord (nth r.lens i)

/-- The component of a mesh node; indices beyond the last node are clamped to it. -/
def Recipe.node (r : Recipe) (ycomp : Bool) (i j : Nat) : X32 :=
  let n := r.mesh.getD (min i (r.meshNy - 1) * r.meshNx + min j (r.meshNx - 1)) (0, 0)
  X32.ofWord (if ycomp then n.2 else n.1)

/-- A mesh coordinate of an output position (R226, stage 6). -/
def Recipe.meshAt (r : Recipe) (ycomp : Bool) (xo yo : Nat) : X32 :=
  let j := xo / 2 ^ r.log2sx
  let i := yo / 2 ^ r.log2sy
  let ax : X32 := .fin (mkRat (xo % 2 ^ r.log2sx) (2 ^ r.log2sx))
  let ay : X32 := .fin (mkRat (yo % 2 ^ r.log2sy) (2 ^ r.log2sy))
  let n := r.node ycomp
  let top := ax.fma ((n i (j + 1)).sub (n i j)) (n i j)
  let bot := ax.fma ((n (i + 1) (j + 1)).sub (n (i + 1) j)) (n (i + 1) j)
  ay.fma (bot.sub top) top

/-- The radial gain of r2 × r2_scale: the table index and fraction are min(floor(t), 254) and min(t − k, 1).  An index below 0 reads
a free value (log entry 26). -/
def Recipe.radialAt (r : Recipe) (t : X32) : X32 :=
  let rd := fun (k : Int) => X32.ofWord (if k < 0 then Config.radialBelow k else nth r.radial k.toNat)
  match t with
  | .nan => .nan
  | .inf true => .nan
  | .inf false => (X32.fin 1).fma ((rd 255).sub (rd 254)) (rd 254)
  | .fin q =>
    let k := min (ratFloor q) 254
    let a : X32 := match (X32.fin q).sub (.fin (ratZ k)) with
      | .fin d => .fin (ratMin d 1)
      | x => x
    a.fma ((rd (k + 1)).sub (rd k)) (rd k)

/-- The sensor coordinate (xs, ys) of an output position with lens_on or mesh_on (R226). -/
def Recipe.coord (r : Recipe) (xo yo : Nat) : X32 × X32 :=
  let two : X32 := .fin 2
  let cx := r.lp 0
  let cy := r.lp 1
  let p1 := r.lp 4
  let p2 := r.lp 5
  let xu := if r.meshOn then r.meshAt false xo yo else ((X32.fin (ratN (xo + r.cropX))).sub cx).mul (r.lp 3)
  let yu := if r.meshOn then r.meshAt true xo yo else ((X32.fin (ratN (yo + r.cropY))).sub cy).mul (r.lp 3)
  let r2 := (xu.mul xu).add (yu.mul yu)
  let g := r.radialAt (r2.mul (r.lp 6))
  let xd := ((xu.mul g).add (((two.mul p1).mul xu).mul yu)).add (p2.mul (r2.add ((two.mul xu).mul xu)))
  let yd := ((yu.mul g).add (p1.mul (r2.add ((two.mul yu).mul yu)))).add (((two.mul p2).mul xu).mul yu)
  let x := if r.lensOn then xd else xu
  let y := if r.lensOn then yd else yu
  (cx.add ((r.lp 2).mul x), cy.add ((r.lp 2).mul y))

/-- A plane coordinate as its floor and its fraction; an infinity lies at the border (log entry 26). -/
def planeCoord (xo yo n : Nat) (c : X32) : Int × Rat :=
  match c with
  | .fin q => (ratFloor q, (rne32 (q - ratZ (ratFloor q))).1)
  | .inf true => (-1, 0)
  | .inf false => (n, 0)
  | .nan => (Config.nanCoord xo yo, 0)

/-- Clamp a tap to a plane of n rows or columns. -/
def clampTap (n : Nat) (v : Int) : Nat := if v < 0 then 0 else min v.toNat (n - 1)

/-- Where a sampled value comes from: two sensor rows and two sensor columns (equal without arithmetic), and the fractions. -/
structure Tap4 where
  r0 : Nat
  r1 : Nat
  c0 : Nat
  c1 : Nat
  fy : Rat
  fx : Rat
deriving DecidableEq, Repr

/-- One axis of R226's plane mapping: the two sensor taps and the fraction.  `half`: the plane holds every second pixel from phase
`ph`. -/
def axisTaps (half : Bool) (ph n xo yo : Nat) (c : X32) : Nat × Nat × Rat :=
  let m := if half then (n - ph + 1) / 2 else n
  let pc := planeCoord xo yo m (if half then (c.sub (.fin (ratN ph))).mul (.fin (mkRat 1 2)) else c)
  let back := fun (v : Nat) => if half then 2 * v + ph else v
  (back (clampTap m pc.1), back (clampTap m (pc.1 + 1)), pc.2)

/-- The taps of output position (xo, yo) in plane 0 or the chroma plane (R226). -/
def Recipe.taps (r : Recipe) (chroma : Bool) (xo yo : Nat) : Tap4 :=
  if !r.lensOn && !r.meshOn then
    { r0 := yo + r.cropY, r1 := yo + r.cropY, c0 := xo + r.cropX, c1 := xo + r.cropX, fy := 0, fx := 0 }
  else
    let p := r.coord xo yo
    let x := axisTaps (r.cfa == 1 || chroma) (xo % 2) r.wIn xo yo p.1
    let y := axisTaps (r.cfa == 1) (yo % 2) r.hIn xo yo p.2
    { r0 := y.1, r1 := y.2.1, c0 := x.1, c1 := x.2.1, fy := y.2.2, fx := x.2.2 }

/-- The planes of a recipe: the chroma plane only for YUV422. -/
def Recipe.planeNos (r : Recipe) : List Bool := if r.cfa = 2 then [false, true] else [false]

/-- The sensor rows of every tap of output row yo (R227). -/
def Recipe.tapRows (r : Recipe) (yo : Nat) : List Nat :=
  (List.range r.wOut).flatMap (fun xo => r.planeNos.flatMap (fun c => [(r.taps c xo yo).r0, (r.taps c xo yo).r1]))

/-- highest(yo) (R227). -/
def Recipe.highest (r : Recipe) (yo : Nat) : Nat := (r.tapRows yo).foldl max 0

/-- lowest(yo) (R227). -/
def Recipe.lowest (r : Recipe) (yo : Nat) : Nat := (r.tapRows yo).foldl min (r.highest yo)

/-- The resampled value at a position, from the lines received: three fma steps, rounded and clamped to 16 bits (R226). -/
def Sample.resample (sm : Sample) (r : Recipe) (chroma : Bool) (xo yo : Nat) : Nat :=
  let t := r.taps chroma xo yo
  let px := fun (row col : Nat) =>
    let l := sm.lines.getD row ([], [])
    nth (if chroma then l.2 else l.1) col
  if !r.lensOn && !r.meshOn then px t.r0 t.c0
  else
    let v := fun (row col : Nat) => ((ratN (px row col), false) : F32)
    let lerp := fun (f : Rat) (a b : F32) => f32Fma (f, false) (f32Sub b a) a
    let top := lerp t.fx (v t.r0 t.c0) (v t.r0 t.c1)
    let bot := lerp t.fx (v t.r1 t.c0) (v t.r1 t.c1)
    let q := rneInt (lerp t.fy top bot).1
    if q < 0 then 0 else min q.toNat 65535

/-! ### Stages 7 and 8 (R229, R230) -/

/-- The tone word of a position (R229). -/
def Sample.tone (sm : Sample) (r : Recipe) (chroma : Bool) (xo yo : Nat) : Nat :=
  nth (if chroma then r.tone1 else r.tone0) (sm.resample r chroma xo yo / 16)

/-- The channels of output position (yb, xb) after regroup, as B16 values (R230, R188). -/
def Sample.rowVals (sm : Sample) (r : Recipe) (yb xb : Nat) : List Rat :=
  let f := r.factor
  (List.range f).flatMap (fun dy => (List.range f).flatMap (fun dx =>
    r.planeNos.map (fun c => b16Val (sm.tone r c (xb * f + dx) (yb * f + dy)))))

/-- The output bands whose last sensor row is y (R228). -/
def Recipe.bandsAt (r : Recipe) (y : Nat) : List Nat :=
  (List.range (r.hOut / r.factor)).filter (fun b => (fromTo (b * r.factor) r.factor).foldl (fun m yo => max m (r.highest yo)) 0 == y)

/-! ### Line-delta (R234) -/

/-- The bits of bytes, the most significant bit of each byte first. -/
def bitsOf (bs : List Byte) : List Bool := bs.flatMap (fun b => (List.range 8).map (fun i => b.getLsbD (7 - i)))

/-- The number of bits, the first most significant. -/
def bitsNat (l : List Bool) : Nat := l.foldl (fun a b => 2 * a + b2n b) 0

/-- Take n bits; none where fewer are left. -/
def takeBits (n : Nat) (l : List Bool) : Option (Nat × List Bool) := if l.length < n then none else some (bitsNat (l.take n), l.drop n)

/-- Count one-bits up to 32, taking the zero-bit that ends a shorter run; none where the bits end. -/
def unary : Nat → List Bool → Option (Nat × List Bool)
  | 0, l => some (0, l)
  | _ + 1, [] => none
  | _ + 1, false :: l => some (0, l)
  | n + 1, true :: l => (unary n l).map (fun p => (p.1 + 1, p.2))

/-- The further samples of a line-delta line. -/
def deltaRest (k : Nat) : Nat → Int → List Bool → Option (List Int × List Bool)
  | 0, _, l => some ([], l)
  | n + 1, prev, l =>
    match unary 32 l with
    | none => none
    | some (q, l1) =>
      match takeBits (if q = 32 then 16 else k) l1 with
      | none => none
      | some (low, l2) =>
        let u := q * 2 ^ k + low
        let v : Int := if q = 32 then (low : Int) else if u % 2 = 0 then prev + ((u / 2 : Nat) : Int) else prev - (((u + 1) / 2 : Nat) : Int)
        (deltaRest k n v l2).map (fun p => (v :: p.1, p.2))

/-- One line-delta line of n samples from a byte boundary: the samples and the bytes after it; none where it is at fault. -/
def deltaLine (n w : Nat) (bs : List Byte) : Option (List Nat × List Byte) :=
  match bs with
  | [] => none
  | b :: rest =>
    if 16 ≤ b.toNat then none
    else
      let bits := bitsOf rest
      match takeBits 16 bits with
      | none => none
      | some (v0, l1) =>
        match deltaRest (b.toNat % 16) (n - 1) v0 l1 with
        | none => none
        | some (vs, l2) =>
          let all := (v0 : Int) :: vs
          if all.all (fun v => decide (0 ≤ v) && decide (v < 2 ^ w)) then
            some (all.map Int.toNat, rest.drop (ceilDiv (bits.length - l2.length) 8))
          else none

/-- The lines of a line-delta payload, at most `count`; shorter where one is at fault. -/
def deltaLines (n w : Nat) : Nat → List Byte → List (List Nat)
  | 0, _ => []
  | c + 1, bs =>
    match deltaLine n w bs with
    | none => []
    | some (l, rest) => l :: deltaLines n w c rest

/-! ### Recipe images (R218 to R220) -/

/-- Half-words of a section. -/
def halves (bs : List Byte) (off n : Nat) : List Nat := (List.range n).map (fun i => leAt bs (off + 2 * i) 2)

/-- The recipe an image states. -/
def parseRecipe (bs : List Byte) : Recipe :=
  let fl := leAt bs 7 1
  let pts := leAt bs 6 1 == 1
  let nd := leAt bs 30 2
  let nx := leAt bs 68 1
  let ny := leAt bs 69 1
  { points := pts, lensOn := bitN fl 0, meshOn := bitN fl 1, regroupOn := bitN fl 2, defectOn := bitN fl 3, lastGood := bitN fl 4,
    dataType := leAt bs 8 1, cfa := leAt bs 9 1, f := leAt bs 10 1, codebook := leAt bs 11 1, format := leAt bs 12 1,
    kappa := leAt bs 13 1, wIn := leAt bs 16 2, hIn := leAt bs 18 2, cropX := leAt bs 20 2, cropY := leAt bs 22 2,
    wOut := leAt bs 24 2, hOut := leAt bs 26 2, lineWindow := leAt bs 28 2, nDefects := nd, black := halves bs 32 4,
    lens := (List.range 7).map (fun i => leAt bs (40 + 4 * i) 4), meshNx := nx, meshNy := ny, log2sx := leAt bs 70 1 % 16,
    log2sy := leAt bs 70 1 / 16, rowPitch := leAt bs 72 4, closeUs := leAt bs 76 4, maxAgeUs := leAt bs 80 4,
    x0 := sleAt bs 84 2, y0 := sleAt bs 86 2, cell := leAt bs 88 2, nx := leAt bs 90 2, ny := leAt bs 92 2, pmax := leAt bs 94 1,
    nFeat := leAt bs 95 1, zMin := sleAt bs 96 2, zMax := sleAt bs 98 2, maxPoints := leAt bs 100 4, gains := halves bs 104 8,
    tone0 := if pts then [] else halves bs 128 4096, tone1 := if pts then [] else halves bs 8320 4096,
    radial := if pts then [] else (List.range 256).map (fun i => leAt bs (16512 + 4 * i) 4),
    defects := if pts then [] else (List.range nd).map (fun i => (leAt bs (17536 + 4 * i) 2, leAt bs (17538 + 4 * i) 2)),
    mesh := if pts then [] else (List.range (nx * ny)).map (fun i =>
      (leAt bs (17536 + 4 * nd + 8 * i) 4, leAt bs (17540 + 4 * nd + 8 * i) 4)) }

/-- Every one of the conditions holds. -/
def allOk (l : List Bool) : Bool := l.all id

/-- lo ≤ v ≤ hi. -/
def between (lo v hi : Nat) : Bool := decide (lo ≤ v) && decide (v ≤ hi)

/-- Check 0x0020 (R218 to R220): magic, version, length and reserved fields.  R220 names the reserved fields where R10 has a device ignore
them: the check goes before it (DEDUCED, log entry 133). -/
def recipe0020 (bs : List Byte) (len : Nat) : Bool :=
  let r := parseRecipe bs
  let total := if r.points then 128 else 17536 + 4 * r.nDefects + 8 * r.meshNx * r.meshNy
  allOk [leAt bs 0 4 == 0x45504352, leAt bs 4 2 == 1, len == total, bs.length == total, leAt bs 7 1 < 32, leAt bs 14 2 == 0,
    leAt bs 71 1 == 0, leAt bs 120 8 == 0]

/-- The tone words and gains hold no B16 word with exponent 255 (R220). -/
def wordsFinite (l : List Nat) : Bool := l.all (fun w => !b16ReadSat w)

/-- Field ranges of an image recipe (R218). -/
def Recipe.imageRanges (r : Recipe) (bs : List Byte) : Bool :=
  let f := r.factor
  let zero := fun (i : Nat) => nth r.lens i == 0
  let unusedLens := (r.lensOn || (zero 4 && zero 5 && zero 6)) && (!r.meshOn || zero 3) && (r.lensOn || r.meshOn || (zero 0 && zero 1 && zero 2 && zero 3))
  allOk [isImageType r.dataType, (if r.dataType = 0x1E then r.cfa == 2 else decide (r.cfa ≤ 1)),
    (if r.regroupOn then r.f == 2 || r.f == 4 else r.f == 0), between 1 r.wIn 8192, between 1 r.hIn 8192,
    r.cfa != 1 || (r.cropX % 2 == 0 && r.cropY % 2 == 0), between 1 r.wOut 8192, between 1 r.hOut 8192, r.wOut % f == 0, r.hOut % f == 0,
    between 1 r.lineWindow 256, between 0 r.nDefects 4096, r.defectOn || r.nDefects == 0,
    (if r.meshOn then between 2 r.meshNx 129 && between 2 r.meshNy 129 && decide (r.log2sx ≤ 7) && decide (r.log2sy ≤ 7)
      else r.meshNx == 0 && r.meshNy == 0 && r.log2sx == 0 && r.log2sy == 0),
    unusedLens, (sliceB bs 84 36).all (fun b => b == 0), wordsFinite r.tone0, wordsFinite r.tone1]

/-- Field ranges of a point recipe (R218). -/
def Recipe.pointRanges (r : Recipe) (bs : List Byte) : Bool :=
  allOk [leAt bs 7 1 % 16 == 0, (sliceB bs 8 3).all (fun b => b == 0), (sliceB bs 16 56).all (fun b => b == 0), between 1 r.cell 1000,
    between 1 r.nx 1024, between 1 r.ny 1024, between 1 r.pmax 64, between 1 r.nFeat 8, r.maxPoints != 0, wordsFinite r.gains]

/-- Check 0x0021 (R218, R220). -/
def recipe0021 (bs : List Byte) : Bool :=
  let r := parseRecipe bs
  allOk [decide (leAt bs 6 1 ≤ 1), decide (r.codebook ≤ 63), r.format == 2 || r.format == 3, r.kappa != 0, r.rowPitch % 4 == 0,
    decide (codeBytes r.format r.rowLen ≤ r.rowPitch), between 1 r.closeUs 100000,
    (if r.lastGood then between 1 r.maxAgeUs 1000000 else r.maxAgeUs == 0),
    (if r.points then r.pointRanges bs else r.imageRanges bs)]

/-- Ascending by row and then column, without duplicates (R219). -/
def defectOrder : List (Nat × Nat) → Bool
  | [] => true
  | [_] => true
  | a :: b :: t => (decide (a.1 < b.1) || (a.1 == b.1 && decide (a.2 < b.2))) && defectOrder (b :: t)

/-- Check 0x0023. -/
def recipe0023 (r : Recipe) : Bool := defectOrder r.defects && r.defects.all (fun d => decide (d.1 < r.hIn) && decide (d.2 < r.wIn))

/-- Check 0x0024: the mesh spans the output. -/
def recipe0024 (r : Recipe) : Bool :=
  !r.meshOn || (decide (r.wOut - 1 ≤ (r.meshNx - 1) * 2 ^ r.log2sx) && decide (r.hOut - 1 ≤ (r.meshNy - 1) * 2 ^ r.log2sy))

/-- Check 0x0025 (R226, R227): the line window; without lens and mesh the crop lies inside the sensor. -/
def recipe0025 (r : Recipe) : Bool :=
  if r.points then true
  else if !r.lensOn && !r.meshOn then decide (r.cropX + r.wOut ≤ r.wIn) && decide (r.cropY + r.hOut ≤ r.hIn)
  else (List.range r.hOut).all (fun yo =>
    decide (r.highest yo - r.lowest yo + 1 ≤ r.lineWindow) && (yo + 1 == r.hOut || decide (r.lowest yo ≤ r.lowest (yo + 1))))

/-- Line-buffer bytes of an enabled slot with a recipe (R227). -/
def Recipe.lineBuffer (r : Recipe) : Nat := if r.points then 0 else r.lineWindow * r.wIn * 2 * (if r.cfa = 2 then 2 else 1)

/-- Intake SRAM in use (R220): loaded recipes, and the line buffers of enabled slots. -/
def State.intakeUsed (s : State) : Nat :=
  (s.recipes.foldl (fun a x => a + x.bytes) 0)
    + ((List.range 32).filter s.slotOn).foldl (fun a k => a + ((s.slotRec k).map Recipe.lineBuffer).getD 0) 0

/-- The bytes of the recipe that a slot holds. -/
def State.recipeBytes (s : State) (slot : Nat) : Nat := ((s.recipe? slot).map (fun x => x.bytes)).getD 0

/-- A recipe slot is bound to an enabled stream slot. -/
def State.recipeBound (s : State) (slot : Nat) : Bool := (List.range 32).any (fun k => s.slotOn k && s.slotRecipe k == slot)

/-- The result of a recipe load (R220): none when every check passes. -/
def State.recipeResult (s : State) (slot : Nat) (bs : List Byte) (len : Nat) : Option Nat :=
  let r := parseRecipe bs
  if !recipe0020 bs len then some 0x0020
  else if !recipe0021 bs then some 0x0021
  else if (s.recipeCb r).isNone then some 0x0022
  else if !recipe0023 r then some 0x0023
  else if !recipe0024 r then some 0x0024
  else if !recipe0025 r then some 0x0025
  else if 8388608 < s.intakeUsed - s.recipeBytes slot + len then some 0x0026
  else if s.recipeBound slot then some 0x0027
  else none

end Machine

end Sys2Proof
end

