-- ==== Sys2Proof/Machine/Intake.lean ====
section
/-! DEFINITION. The intake commands: samples from CSI-2, Ethernet and injection, and batch instances (R20, R21, R31, R211 to R215,
R223, R228, R231 to R243, R430). -/

namespace Sys2Proof

namespace Machine

/-! ### Samples -/

/-- The master of a stream slot (R16). -/
def slotMaster (k : Nat) : Byte := BitVec.ofNat 8 (0x80 + k)

/-- Creel works: its clock runs, it is not in unit reset, and the Beam groups open to its writes (R377, R380, R386, R474). -/
def State.creelOn (s : State) : Bool :=
  decide (s.pwr.phase = .mission) && s.clk.creel && decide (s.unitPhase .creel ≠ some .resetting) && s.beamsOpen

/-- The mission rails are up and Creel is not in unit reset: what a sensor port receives reaches its slot's input queue, Creel's clock
running or frozen (R217, R380). -/
def State.intakeOn (s : State) : Bool := decide (s.pwr.phase = .mission) && decide (s.unitPhase .creel ≠ some .resetting)

/-- A sensor port receives (CRL_PORT_CTL). -/
def State.portOn (s : State) (p : Nat) : Bool := bitW (s.reg (oPortCtl p)) 0

/-- The enabled stream slot of a port code and selector (R216). -/
def State.slotOf (s : State) (port sel : Nat) : Option Nat :=
  (List.range 32).find? (fun k => s.slotOn k && s.slotPort k == port && fld (s.reg (oSlotSel k)) 15 0 == sel)

/-- The oldest open instance whose position for a stream is empty (R238). -/
def State.openFor (s : State) (k : Nat) : Option Nat :=
  ((s.batch (s.slotBatch k)).instances.find? (fun i => !i.ready && !i.discarded &&
    (match i.pos[s.slotPos k]? with
      | some p => p.stream == k && decide (p.state = .empty)
      | none => false))).map (fun i => i.counter)

/-- A sample begins in an instance; a sweep's rows become zero rows first (R231).  A codebook slot without a codebook of the
recipe's format makes it corrupt at once (R238). -/
def State.beginSample (s : State) (k : Nat) (rec : Recipe) (c : Nat) (time : Dword) (sweep : Nat) : State :=
  let b := s.slotBatch k
  let q := s.slotPos k
  let sm : Sample := { time := time, counter := c, position := q, lines := [], sat := 0, sweep := sweep, nextSeq := 0, kept := 0, pillars := [] }
  let s1 := s.modSlot k (fun x => { x with phase := .open sm })
  match s1.recipeCb rec, s1.inst? b c with
  | some _, some i => if rec.points then s1.zeroPos b i q k rec else s1
  | _, _ => s1.corruptSample k

/-- A sample of a stream starts (R20, R238): in the oldest open instance that lacks it, else in a new one; else it is dropped whole,
and the overrun source raised (no batch counter exists then: a free value). -/
def State.startSample (s : State) (k : Nat) (time : Dword) (sweep : Nat) : State :=
  let s0 := s.corruptSample k
  match s0.slotRec k with
  | none => s0
  | some rec =>
    match s0.openFor k with
    | some c => s0.beginSample k rec c time sweep
    | none =>
      match s0.openInst (s0.slotBatch k) time with
      | some s1 => s1.beginSample k rec (s1.batch (s1.slotBatch k)).counter time sweep
      | none =>
        let s1 := s0.modSlot k (fun x => { x with dropped := inc32 x.dropped, phase := .dropping })
        ({ s1 with freshCtr := s1.freshCtr + 1 }).raise 0x20 (cap none (slotMaster k) 0 (Config.freeDword s1.freshCtr) k)

/-- The open sample becomes corrupt, then a source is raised for it (R243, R430, R461). -/
def State.corruptRaise (s : State) (k n counter : Nat) : State :=
  (s.corruptSample k).raise n (cap none (slotMaster k) 0 (BitVec.ofNat 64 counter) k)

/-- The batch counter of a slot's open sample; 0 without one. -/
def State.openCounter (s : State) (k : Nat) : Nat :=
  match (s.slot k).phase with
  | .open sm => sm.counter
  | _ => 0

/-- Errors that the intake SRAM's checks corrected: event 0x0A5 and Selvedge's always-on counter 13 (R245, R248, R518, R519). -/
def State.intakeFixed (s : State) (c : IntakeCheck) : State :=
  c.fixed.foldl (fun u a => bumpAon (countEv u { Ev.plain 0 0x0A5 none 1 with addr := some (3, a) }) 0 13 1) s

/-- An error that makes the sample of a stream corrupt: an uncorrectable one in the intake SRAM (R245, R457), one in a recipe slot or tone table,
or lanes that disagree, which are Creel integrity errors (R430, R449; log entry 162). -/
def State.intakeError (k : Nat) (c : IntakeCheck) (lanesAgree : Bool) : Option (State → State) :=
  match c.hit, lanesAgree && !c.recipe with
  | some a, _ => some (fun s => (s.corruptSample k).raise 0x0D (cap none (slotMaster k) 1 (BitVec.ofNat 64 a) 3))
  | none, false => some (fun s => s.corruptRaise k 0x22 (s.openCounter k))
  | none, true => none

/-- A slot is between samples. -/
def State.idleSlot (s : State) (k : Nat) : State := s.modSlot k (fun x => { x with phase := .idle })

/-- Count a discarded packet or frame. -/
def State.dropOne (s : State) (k : Nat) : State := s.modSlot k (fun x => { x with dropped := inc32 x.dropped })

/-- Count a late line, packet or frame end (R31). -/
def State.lateOne (s : State) (k : Nat) : State := s.modSlot k (fun x => { x with late := inc32 x.late })

/-- A sample completes without fault: it fills its position, and enters the hold under last-good (R239, R240, R573). -/
def State.completeSample (s : State) (k : Nat) (sm : Sample) : State :=
  let b := s.slotBatch k
  let s1 := (s.modPos b sm.counter sm.position (fun p => { p with state := .received, cause := 0, sat := sm.sat, time := sm.time })).modSlot k
    (fun x => { x with phase := .idle, good := inc32 x.good })
  let s2 := bumpAon (s1.slotEv 0x0A2 k 1 none) 0 8 1
  match s2.slotRec k, s2.inst? b sm.counter with
  | some rec, some i =>
    if rec.lastGood then
      (s2.toHold k b i sm.position rec (!(s2.slot k).half)).modSlot k (fun x =>
        { x with copying := some { time := sm.time, sat := sm.sat, comp := i.complemented } })
    else s2
  | _, _ => s2

/-- Creel works on a line or a packet: its event, the slot's progress (R217), and what the checks corrected. -/
def State.workOn (s : State) (k : Nat) (points : Bool) (c : IntakeCheck) : State :=
  ((s.slotEv (if points then 0x0A1 else 0x0A0) k 1 none).progress (monKey .slot k 0)).intakeFixed c

/-! ### Image samples (R223, R228 to R230) -/

/-- Code and write the output rows of one band (R228, R230). -/
def State.writeBand (s : State) (k : Nat) (sm : Sample) (rec : Recipe) (cb : Codebook) (i : Instance) (band : Nat) : State × Nat :=
  let w := rec.wOut / rec.factor
  (List.range w).foldl (fun (a : State × Nat) xb =>
    let r := codeRow cb rec.kappa none 0 (sm.rowVals rec band xb)
    (a.1.putRow (s.slotBatch k) i sm.position k rec cb (band * w + xb) r.1 r.2.1, a.2 + r.2.2)) (s, 0)

/-- An accepted line: its planes join the line buffers, and every output row whose last sensor row it is is written (R228). -/
def State.acceptLine (s : State) (k : Nat) (sm : Sample) (rec : Recipe) (comps : List Nat) : State :=
  let y := sm.lines.length
  let sm1 := { sm with lines := sm.lines ++ [rec.planes y comps] }
  match s.recipeCb rec, s.inst? (s.slotBatch k) sm.counter with
  | some cb, some i =>
    let r := (rec.bandsAt y).foldl (fun (a : State × Nat) b =>
      let o := a.1.writeBand k sm1 rec cb i b
      (o.1, a.2 + o.2)) (s, sm1.sat)
    r.1.modSlot k (fun x => { x with phase := .open { sm1 with sat := r.2 } })
  | _, _ => s

/-- A frame ends: complete when it held h_in lines, else corrupt (R223). -/
def State.endFrame (s : State) (k : Nat) : State :=
  match (s.slot k).phase with
  | .idle => s.dropOne k
  | .dropping => s.idleSlot k
  | .late => (s.lateOne k).idleSlot k
  | .open sm =>
    match s.slotRec k with
    | none => s.idleSlot k
    | some rec => if sm.lines.length = rec.hIn then s.completeSample k sm else (s.corruptSample k).idleSlot k

/-- A long packet of a slot (R211, R223, R243, R245, R430).  One whose CRC fails makes its sample corrupt, whatever its type. -/
def State.takeLine (s : State) (k dataType : Nat) (payload : List Byte) (crcOk lanesAgree overflow : Bool) (ecc : IntakeCheck) : State :=
  let bad := fun (u : State) => if crcOk then u else u.corruptSample k
  if dataType = 0x12 then bad s
  else if !isImageType dataType then bad (s.dropOne k)
  else
    let s1 := s.workOn k false ecc
    match (s1.slot k).phase, s1.slotRec k with
    | .idle, _ => s1.dropOne k
    | .dropping, _ => s1
    | .late, _ => s1.lateOne k
    | .open _, none => s1
    | .open sm, some rec =>
      if overflow then s1.corruptRaise k 0x21 sm.counter
      else if !crcOk || dataType != rec.dataType || payload.length != lineBytes rec.dataType rec.wIn
          || decide (rec.hIn ≤ sm.lines.length) then s1.corruptSample k
      else match State.intakeError k ecc lanesAgree with
        | some err => err s1
        | none => s1.acceptLine k sm rec (unpackLine dataType payload)

/-- A packet of a type that R211 does not accept, or with a multi-bit header error, is discarded: the error also makes the sample corrupt,
and embedded data are not counted. -/
def State.takeDiscard (s : State) (k dataType : Nat) (headerError : Bool) : State :=
  if headerError then (s.dropOne k).corruptSample k
  else if dataType ≤ 0x03 || dataType = 0x12 || isImageType dataType then s
  else s.dropOne k

/-! ### Point packets (R214, R215, R231, R232) -/

/-- Points of a packet: x, y, z, intensity, ring, t_off, and the invalid bit. -/
structure Point where
  x : Int
  y : Int
  z : Int
  intensity : Nat
  ring : Nat
  tOff : Nat
  invalid : Bool
deriving DecidableEq, Repr

/-- Point i of a packet (R214). -/
def pointAt (bs : List Byte) (i : Nat) : Point :=
  let o := 32 + 12 * i
  { x := sleAt bs o 2, y := sleAt bs (o + 2) 2, z := sleAt bs (o + 4) 2, intensity := leAt bs (o + 6) 1, ring := leAt bs (o + 7) 1,
    tOff := leAt bs (o + 8) 2, invalid := bitN (leAt bs (o + 10) 1) 0 }

/-- Magic, version, count and length of a point packet (R214). -/
def packetOk (bs : List Byte) : Bool :=
  let n := leAt bs 14 2
  leAt bs 0 4 == 0x54504B50 && leAt bs 4 1 == 1 && between 1 n 745 && bs.length == 32 + 12 * n

/-- The pillar of a point, when the point lies in the grid and the height window (R231). -/
def Recipe.pillar (r : Recipe) (p : Point) : Option Nat :=
  let ix := (p.x - r.x0) / (max 1 r.cell : Nat)
  let iy := (p.y - r.y0) / (max 1 r.cell : Nat)
  if !p.invalid && decide (0 ≤ ix) && decide (ix < r.nx) && decide (0 ≤ iy) && decide (iy < r.ny) && decide (r.zMin ≤ p.z)
      && decide (p.z ≤ r.zMax) then some (iy.toNat * r.nx + ix.toNat) else none

/-- The features of a point in a pillar: B16 words, and the saturations counted (R232, R570). -/
def Recipe.features (r : Recipe) (p : Point) (pillar : Nat) : List Nat × Nat :=
  let xc : Rat := ratZ r.x0 + (ratN (pillar % max 1 r.nx) + mkRat 1 2) * ratN r.cell
  let yc : Rat := ratZ r.y0 + (ratN (pillar / max 1 r.nx) + mkRat 1 2) * ratN r.cell
  let fs : List Rat := [ratZ p.x - xc, ratZ p.y - yc, ratZ p.z, ratN p.intensity, ratN p.tOff, ratN p.ring, ratZ p.x, ratZ p.y]
  let vs := (List.range r.nFeat).map (fun c =>
    let m := rne32 (fs.getD c 0 * b16Val (nth r.gains c))
    let w := b16Round m.1
    (w.1, b2n m.2 + b2n w.2))
  (vs.map (fun v => v.1), (vs.map (fun v => v.2)).foldl (fun a b => a + b) 0)

/-- One point of the open sweep: kept and written, or dropped (R231). -/
def State.takePoint (s : State) (k : Nat) (rec : Recipe) (p : Point) : State :=
  match (s.slot k).phase with
  | .open sm =>
    if p.invalid then s
    else
      match rec.pillar p with
      | none => s.dropOne k
      | some pl =>
        let n := (lookupN sm.pillars pl).getD 0
        if rec.pmax ≤ n ∨ rec.maxPoints ≤ sm.kept then s.dropOne k
        else
          match s.recipeCb rec, s.inst? (s.slotBatch k) sm.counter with
          | some cb, some i =>
            let f := rec.features p pl
            let r := codeRow cb rec.kappa none 0 (f.1.map b16Val)
            let sm1 := { sm with kept := sm.kept + 1, pillars := insertN sm.pillars pl (n + 1), sat := sm.sat + f.2 + r.2.2 }
            (s.putRow (s.slotBatch k) i sm.position k rec cb (pl * rec.pmax + n) r.1 r.2.1).modSlot k (fun x => { x with phase := .open sm1 })
          | _, _ => s
  | _ => s

/-- The points of a packet join the open sweep, and its sensor time is recorded (R214); its last packet completes it (R215). -/
def State.takePacket (s : State) (k : Nat) (rec : Recipe) (bs : List Byte) : State :=
  let s1 := (List.range (leAt bs 14 2)).foldl (fun t i => t.takePoint k rec (pointAt bs i))
    (s.modSlot k (fun x => { x with sensorTime := BitVec.ofNat 64 (leAt bs 16 8) }))
  match (s1.slot k).phase with
  | .open sm =>
    let sm1 := { sm with nextSeq := sm.nextSeq + 1 }
    if bitN (leAt bs 5 1) 1 then s1.completeSample k sm1 else s1.modSlot k (fun x => { x with phase := .open sm1 })
  | _ => s1

/-- A point packet of a stream (R215): a packet with its first bit set opens a sweep; one that does not continue the open sweep makes
it corrupt. -/
def State.pointPacket (s : State) (k : Nat) (rec : Recipe) (bs : List Byte) (time : Dword) (err : Option (State → State)) : State :=
  let fl := leAt bs 5 1
  let seq := leAt bs 12 2
  let last := bitN fl 1
  if packetOk bs && bitN fl 0 && seq == 0 then
    let s1 := s.startSample k time (leAt bs 8 4)
    match (s1.slot k).phase with
    | .open _ => (match err with
      | some f => f s1
      | none => s1.takePacket k rec bs)
    | _ => if last then s1.idleSlot k else s1
  else
    match (s.slot k).phase with
    | .open sm =>
      if packetOk bs && !bitN fl 0 && seq == sm.nextSeq && leAt bs 8 4 == sm.sweep then
        (match err with
        | some f => f s
        | none => s.takePacket k rec bs)
      else (let t := s.corruptSample k; if last then t.idleSlot k else t)
    | .late => (let t := s.lateOne k; if last then t.idleSlot k else t)
    | .dropping => if last then s.idleSlot k else s
    | .idle => s

/-! ### Ethernet (R213) -/

/-- The big-endian number of the n bytes at an offset. -/
def beAt (bs : List Byte) (off n : Nat) : Nat := leNat (sliceB bs off n).reverse

/-- The ones'-complement sum of the 16-bit words of bytes. -/
def sum16 (bs : List Byte) : Nat :=
  let t := (List.range ((bs.length + 1) / 2)).foldl (fun a i => a + beAt bs (2 * i) 2) 0
  let f := fun (v : Nat) => v % 65536 + v / 65536
  f (f t)

/-- The IPv4 packet of a frame: after one 802.1Q tag, if there is one; none for another protocol. -/
def ipv4Of (frame : List Byte) : Option (List Byte) :=
  let body := frame.take (frame.length - 4)
  if beAt body 12 2 = 0x0800 then some (body.drop 14)
  else if beAt body 12 2 = 0x8100 ∧ beAt body 16 2 = 0x0800 then some (body.drop 18)
  else none

/-- The UDP datagram of an IPv4 packet: none when it is fragmented, not UDP, or cut short. -/
def udpOf (ip : List Byte) : Option (List Byte) :=
  let hl := 4 * (leAt ip 0 1 % 16)
  let total := beAt ip 2 2
  if leAt ip 0 1 / 16 = 4 ∧ 20 ≤ hl ∧ hl + 8 ≤ total ∧ total ≤ ip.length ∧ leAt ip 9 1 = 17 ∧ beAt ip 6 2 % 16384 = 0 then
    (let u := (ip.take total).drop hl
     let n := beAt u 4 2
     if 8 ≤ n ∧ n ≤ u.length then some (u.take n) else none)
  else none

/-- The header checksum, and a UDP checksum that is not 0, hold. -/
def sumsOk (ip udp : List Byte) : Bool :=
  sum16 (ip.take (4 * (leAt ip 0 1 % 16))) == 65535
    && (beAt udp 6 2 == 0 || sum16 (sliceB ip 12 8 ++ [0, 17] ++ sliceB udp 4 2 ++ udp) == 65535)

/-- The enabled stream slots of an Ethernet port with a UDP destination port. -/
def State.udpSlots (s : State) (port dst : Nat) : List Nat :=
  (List.range 32).filter (fun k => s.slotOn k && s.slotPort k == 0x18 + port && fld (s.reg (oSlotSel k)) 31 16 == dst)

/-! ### Containers (R233 to R235) -/

/-- The packets of a sweep payload: a 16-bit length, two reserved bytes and the packet, padded to 4 bytes; the list stops where the
payload ends (R233). -/
def sweepPackets : Nat → List Byte → List (List Byte)
  | 0, _ => []
  | n + 1, bs =>
    let l := leAt bs 0 2
    if l = 0 ∨ 8972 < l ∨ bs.length < 4 + l then [] else ((bs.drop 4).take l) :: sweepPackets n (bs.drop (4 + alignUp l 4))

/-- A point packet that is not the last of its sweep. -/
def notLast (bs : List Byte) : List Byte := modAt bs 5 (fun b => b &&& 0xFD#8)

/-- The packets of a container of n packets; where the payload ends early none of them completes the sweep (R235). -/
def containerPackets (n : Nat) (payload : List Byte) : List (List Byte) :=
  let ps := sweepPackets n payload
  if ps.length < n then ps.map notLast else ps

/-- The lines of an image payload: CSI-2 lines padded to 4 bytes, or line-delta (R233, R234). -/
def payloadLines (rec : Recipe) (compression : Nat) (payload : List Byte) : List (List Nat) :=
  let n := lineComps rec.dataType rec.wIn
  if compression = 1 then deltaLines n (nativeBits rec.dataType) rec.hIn payload
  else
    let b := lineBytes rec.dataType rec.wIn
    (((List.range rec.hIn).map (fun y => (payload.drop (y * alignUp b 4)).take b)).filter (fun l => l.length == b)).map
      (fun l => unpackLine rec.dataType l)

/-- The check of line or packet i of a container. -/
def rowCheck (cs : List RowCheck) (i : Nat) : RowCheck := cs.getD i { lanesAgree := true, ecc := { fixed := [], hit := none } }

/-- One line of a container (R31, R430, R573). -/
def State.injectLine (k : Nat) (rec : Recipe) (cs : List RowCheck) (s : State) (x : List Nat × Nat) : State :=
  let c := rowCheck cs x.2
  let s1 := s.workOn k false c.ecc
  match (s1.slot k).phase with
  | .open sm => (match State.intakeError k c.ecc c.lanesAgree with
    | some err => err s1
    | none => s1.acceptLine k sm rec x.1)
  | .late => s1.lateOne k
  | _ => s1

/-- One packet of a container: the first opens the sweep that the INJECT began, the others follow R215. -/
def State.injectPacket (k : Nat) (rec : Recipe) (cs : List RowCheck) (time : Dword) (s : State) (p : List Byte × Nat) : State :=
  let c := rowCheck cs p.2
  let s1 := s.workOn k true c.ecc
  let fl := leAt p.1 5 1
  let err := State.intakeError k c.ecc c.lanesAgree
  if p.2 ≠ 0 then s1.pointPacket k rec p.1 time err
  else
    match (s1.slot k).phase, err with
    | .open sm, none =>
      if packetOk p.1 && bitN fl 0 && leAt p.1 12 2 == 0 then
        (s1.modSlot k (fun x => { x with phase := .open { sm with sweep := leAt p.1 8 4 } })).takePacket k rec p.1
      else s1.corruptSample k
    | .open _, some f => f s1
    | .late, _ => s1.lateOne k
    | _, _ => s1

/-- The payload of a container becomes its sample (R233 to R235); one that ends early makes it corrupt. -/
def State.injectPayload (s : State) (k : Nat) (rec : Recipe) (header payload : List Byte) (cs : List RowCheck) : State :=
  if rec.points then
    let s1 := (containerPackets (leAt header 18 2) payload).zipIdx.foldl (State.injectPacket k rec cs (BitVec.ofNat 64 (leAt header 8 8))) s
    (s1.corruptSample k).idleSlot k
  else ((payloadLines rec (leAt header 7 1) payload).zipIdx.foldl (State.injectLine k rec cs) s).endFrame k

/-- What a container brings for a sample that is substituted already, the slot being at another: every line and the frame end, or every
packet, counts as late (R31, R573). -/
def State.injectLate (s : State) (k : Nat) (rec : Recipe) (header payload : List Byte) (cs : List RowCheck) : State :=
  let n := if rec.points then (sweepPackets (leAt header 18 2) payload).length else (payloadLines rec (leAt header 7 1) payload).length
  let s1 := (List.range n).foldl (fun (u : State) i => (u.workOn k rec.points (rowCheck cs i).ecc).lateOne k) s
  if rec.points then s1 else s1.lateOne k

/-- Creel works on a container's payload: its sample is the one being received, or is substituted already, or was dropped whole or
discarded. -/
def State.injectRead (s : State) (k : Nat) (rec : Recipe) (desc payload : List Byte) (cs : List RowCheck) : State :=
  let header := (desc.drop 64).take 64
  let bs := payload.take (leAt header 24 4)
  if s.injectOpen k desc then s.injectPayload k rec header bs cs
  else match leAt desc 128 8, (s.slot k).phase with
    | 0, .dropping => s.idleSlot k
    | 0, _ => s
    | _, .late => s.injectPayload k rec header bs cs
    | _, _ => s.injectLate k rec header bs cs

/-! ### The input queue of a slot (R217) -/

/-- Creel works on a packet of a slot that was received at a time. -/
def State.takeOne (k : Nat) (s : State) (x : Dword × Packet) : State :=
  match x.2 with
  | .frameStart => s.startSample k x.1 0
  | .line dt payload crcOk lanes overflow ecc => s.takeLine k dt payload crcOk lanes overflow ecc
  | .frameEnd => s.endFrame k
  | .discard dt headerError => s.takeDiscard k dt headerError
  | .point bs lanes ecc =>
    match s.slotRec k with
    | some rec => (s.workOn k true ecc).pointPacket k rec bs x.1 (State.intakeError k ecc lanes)
    | none => s
  | .linkLoss => s.corruptSample k
  | .inject desc payload checks =>
    match s.slotRec k with
    | some rec => s.injectRead k rec desc payload checks
    | none => s

/-- Creel works through the input queue of a slot, in order. -/
def State.drainInput (s : State) (k : Nat) : State :=
  ((s.slot k).input).foldl (State.takeOne k) (s.modSlot k (fun x => { x with input := [] }))

/-- Creel works through every input queue, when it works. -/
def State.drainAll (s : State) : State := if s.creelOn then (List.range 32).foldl State.drainInput s else s

/-- A packet reaches a slot: it waits in the input queue while Creel does not work, else Creel works on what waits and then on it. -/
def State.receive (s : State) (k : Nat) (waits : Bool) (p : Packet) : State :=
  if !s.intakeOn then s
  else
    let s1 := s.modSlot k (fun x => { x with input := x.input ++ [(s.time.now, p)] })
    if waits || !s.creelOn then s1 else s1.drainInput k

/-- A corrected single-bit error of a packet header is counted (R211; the manual gives the count no register, log entry 132). -/
def State.headerFix (s : State) (k : Nat) (fixed : Bool) : State :=
  if fixed then s.modSlot k (fun x => { x with headerFixed := inc32 x.headerFixed }) else s

/-- A CSI-2 packet of a camera port reaches the slot of its virtual channel. -/
def State.csi2 (s : State) (port vc : Nat) (fixed waits : Bool) (p : Packet) : State :=
  match s.slotOf port vc with
  | some k => if s.portOn port then (s.headerFix k fixed).receive k waits p else s
  | none => s

/-- CSI2_FRAME_START (R20, R223). -/
def execCsi2FrameStart (port vc : Nat) (fixed : Bool) (s : State) : Host.Outcome State Fault Refusal := .next (s.csi2 port vc fixed false .frameStart)

/-- CSI2_LONG_PACKET (R211, R223, R243, R245, R430). -/
def execCsi2LongPacket (port vc dataType : Nat) (payload : List Byte) (crcOk lanesAgree overflow : Bool) (ecc : IntakeCheck) (fixed waits : Bool)
    (s : State) : Host.Outcome State Fault Refusal :=
  .next (s.csi2 port vc fixed waits (.line dataType payload crcOk lanesAgree overflow ecc))

/-- CSI2_FRAME_END (R223). -/
def execCsi2FrameEnd (port vc : Nat) (fixed : Bool) (s : State) : Host.Outcome State Fault Refusal := .next (s.csi2 port vc fixed false .frameEnd)

/-- CSI2_PACKET_DISCARD (R211). -/
def execCsi2PacketDiscard (port vc dataType : Nat) (headerError fixed : Bool) (s : State) : Host.Outcome State Fault Refusal :=
  .next (s.csi2 port vc (fixed && !headerError) false (.discard dataType headerError))

/-- PHY_LINK_LOSS (R212): the open samples of an A-PHY or CSI-2 port become corrupt, in the order in which Creel works on what the port
received. -/
def execPhyLinkLoss (port : Nat) (s : State) : Host.Outcome State Fault Refusal :=
  if s.portOn port && decide (port < 0x18) then
    .next (((List.range 32).filter (fun k => s.slotOn k && s.slotPort k == port)).foldl (fun u k => u.receive k false .linkLoss) s)
  else .next s

/-- ETHERNET_FRAME (R213 to R215, R245, R430): delivered to the stream slot of its UDP port and sensor_id, else discarded. -/
def execEthernetFrame (port : Nat) (frame : List Byte) (lanesAgree : Bool) (ecc : IntakeCheck) (waits : Bool) (s : State) :
    Host.Outcome State Fault Refusal :=
  if !(s.intakeOn && s.portOn (0x18 + port)) then .next s
  else
    match ipv4Of frame with
    | none => .next s
    | some ip =>
      let hl := 4 * (leAt ip 0 1 % 16)
      match udpOf ip with
      | none => .next (if leAt ip 9 1 = 17 ∧ beAt ip 6 2 % 8192 = 0 then (s.udpSlots port (beAt ip (hl + 2) 2)).foldl State.dropOne s else s)
      | some udp =>
        let ks := s.udpSlots port (beAt udp 2 2)
        let bs := udp.drop 8
        match ks.find? (fun k => fld (s.reg (oSlotSel k)) 15 0 == leAt bs 6 2), frame.length ≤ 9022 && sumsOk ip udp with
        | some k, true => .next (s.receive k waits (.point bs lanesAgree ecc))
        | _, _ => .next (ks.foldl State.dropOne s)

/-! ### Copies and batches (R21, R31, R239 to R243) -/

/-- The close time of a position of an instance has come: open time + close_us of its stream's recipe (R239). -/
def State.closeDue (s : State) (i : Instance) (p : Pos) : Bool :=
  decide (p.state = .empty) && (match s.slotRec p.stream with
    | some r => decide (i.openTime.toNat + r.closeUs * 1000 ≤ s.time.now.toNat)
    | none => false)

/-- The sample being received for a position is late from now on (R31). -/
def State.markLate (s : State) (k c : Nat) : State :=
  s.modSlot k (fun x => match x.phase with
    | .open sm => if sm.counter = c then { x with phase := .late } else x
    | _ => x)

/-- BATCH_CLOSE_TIMEOUT (R31, R239). -/
def execBatchCloseTimeout (batch counter : Nat) (s : State) : Host.Outcome State Fault Refusal :=
  match s.inst? batch counter with
  | some i =>
    .next (if i.ready || i.discarded then s
      else (i.pos.zipIdx.filter (fun p => s.closeDue i p.1)).foldl
        (fun t p => (t.markLate p.1.stream counter).substitute batch counter p.2 2) s)
  | none => .next s

/-- The code of a position's state in the manifest (R242). -/
def PosState.code (p : PosState) : Nat :=
  match p with
  | .zeroSub => 1
  | .lastGood => 2
  | .padded => 3
  | .empty => 0
  | .received => 0
  | .copying => 0

/-- The 16 bytes of a position in the manifest. -/
def Pos.bytes (p : Pos) : List Byte :=
  leBytes 1 p.stream ++ leBytes 1 p.state.code ++ leBytes 1 p.cause ++ leBytes 1 0 ++ leBytes 4 (min p.sat 0xFFFFFFFF)
    ++ leBytes 8 (if p.state = .padded then 0 else p.time.toNat)

/-- The manifest of an instance (R242). -/
def Instance.manifest (i : Instance) (b : Nat) : List Byte :=
  padTo 576 (leBytes 4 0x54464E4D ++ leBytes 1 b ++ leBytes 1 i.buffer ++ leBytes 1 i.pos.length ++ leBytes 1 0 ++ leBytes 8 i.counter
    ++ leBytes 8 i.batchTime.toNat ++ leBytes 8 i.openTime.toNat ++ leBytes 8 i.readyTime.toNat
    ++ leBytes 4 (i.mask (fun p => decide (p.state = .received))) ++ leBytes 4 i.substituted ++ leBytes 4 (i.mask (fun p => p.corrupt))
    ++ leBytes 4 (i.mask (fun p => decide (p.state = .padded))) ++ leBytes 8 0 ++ i.pos.flatMap Pos.bytes)

/-- Every position holds a sample, a substitute or padding (R21). -/
def Instance.full (i : Instance) : Bool := i.pos.all (fun p => decide (p.state ≠ .empty) && decide (p.state ≠ .copying))

/-- Arm the age monitor of a step at its batch time (R295). -/
def State.armAge (s : State) (t : Step) : State :=
  if t.lc && t.ageUs != 0 then
    let a := (s.ageAnchor t).toNat + t.ageUs * 1000
    (s.modStep t.id (fun x => { x with ageAt := some a })).ageFaultNow { t with ageAt := some a }
  else s

/-- An instance becomes ready: the manifest is written on both dies, and the age monitors of its admitted steps are armed (R21, R295).  The
steps that the batch-ready events of one Tick clock make ready are looked at together, at its end (R23, R277; log entry 135). -/
def State.instReady (s : State) (b c : Nat) (i0 : Instance) : State :=
  let i := { i0 with ready := true, readyTime := s.time.now }
  let bs := i.manifest b
  let s1 := (s.modInst b c (fun _ => i)).creelPut (s.batchSlot b) i.tensorBytes i bs bs
  (s1.steps.filter (fun t => t.uses b c && t.stage != .waiting)).foldl State.armAge (s1.releaseInsts b)

/-- BATCH_READY (R21). -/
def execBatchReady (batch counter : Nat) (s : State) : Host.Outcome State Fault Refusal :=
  match s.inst? batch counter with
  | some i => .next (if i.full && !i.ready && !i.discarded then s.instReady batch counter i else s)
  | none => .next s

end Machine

end Sys2Proof
end

