-- ==== Sys2Proof/Machine/Boot.lean ====
section
/-! DEFINITION. The boot image, owner record, EEPROM, training, start-up injection and boot proof (R254, R442 to R444, R485 to R495,
R545 to R549). -/

namespace Sys2Proof

namespace Machine

/-! ### The boot image (R484, R485) -/

/-- Check 1 of R485: magic, version, segments, image_bytes and segment extents. -/
def imageForm (img : List Byte) : Bool :=
  let segs := leAt img 6 2
  let total := leAt img 16 4
  leAt img 0 4 == 0x464D5746 && leAt img 4 2 == 1 && decide (1 ≤ segs) && decide (segs ≤ 16) && decide (1 ≤ total)
    && decide (total ≤ 16777216)
    && (List.range segs).all (fun k =>
      let off := leAt img (324 + 48 * k) 4
      let len := leAt img (328 + 48 * k) 4
      off % 64 == 0 && decide (9024 ≤ off) && decide (1 ≤ len) && decide (off + len ≤ total))

/-- Check 5 of R485: every segment's SHA-256 is the digest that the manifest states (R484). -/
def segmentsOk (img : List Byte) : Bool :=
  (List.range (leAt img 6 2)).all (fun k =>
    decide ((sha256 (sliceB img (leAt img (324 + 48 * k) 4) (leAt img (328 + 48 * k) 4))).toNat = leAt img (336 + 48 * k) 32))

/-- Check 2 of R485: the root key of the manifest is the one whose digest is in ROM, and it is not revoked. -/
def Security.rootOk (x : Security) (img : List Byte) : Bool :=
  let root := leAt img 13 1
  decide (root < 4) && x.romRoot[root]? == some (sha256 (sliceB img 1088 32)) && !(x.revoked.getLsbD root)

/-- Check 3 of R485: the manifest's signature verifies under its root key (R484). -/
def manifestSigned (img : List Byte) : Bool := slhVerify slh128s (sliceB img 1088 32) (sliceB img 0 1152) (sliceB img 1152 7856)

/-- The first check of R485 that an image fails; 0 where all pass. -/
def imageCause (x : Security) (img : List Byte) : Nat :=
  if !imageForm img then 1
  else if !x.rootOk img then 2
  else if !manifestSigned img then 3
  else if leAt img 12 1 < x.rollbackFused then 4
  else if !segmentsOk img then 5
  else 0

/-- The manifest fields that reports and checks use (R484). -/
def parseManifest (img : List Byte) : Manifest :=
  { fwVersion := BitVec.ofNat 32 (leAt img 8 4)
    rollback := leAt img 12 1
    rootIndex := leAt img 13 1
    issuers := (List.range (min 8 (leAt img 32 1))).map (fun i => BitVec.ofNat 256 (leAt img (40 + 32 * i) 32))
    measure := sha256 (sliceB img 0 1152)
    rootPk := BitVec.ofNat 256 (leAt img 1088 32) }

/-! ### Owner record and EEPROM (R490 to R493) -/

/-- The owner record of its bytes (R492). -/
def parseOwner (bs : List Byte) : OwnerRec :=
  { sequence := leAt bs 8 4
    sigRequired := bitN (leAt bs 7 1) 0
    fieldOpen := bitN (leAt bs 7 1) 1
    ownerPk := BitVec.ofNat 256 (leAt bs 40 32)
    ownerDraftPk := BitVec.ofNat 256 (leAt bs 392 32)
    issuers := (List.range (min 8 (leAt bs 12 1))).map (fun i => BitVec.ofNat 256 (leAt bs (136 + 32 * i) 32)) }

/-- die_ids at an offset equal the fused identities. -/
def Security.dieIdsAt (x : Security) (bs : List Byte) (off : Nat) : Bool :=
  leAt bs off 8 == x.dieIdS.toNat && leAt bs (off + 8) 8 == x.dieIdA.toNat && leAt bs (off + 16) 8 == x.dieIdB.toNat

/-- The magic of an owner record, and its signature under a root key that is not revoked (R492, R493).  Of the root public keys the module
holds the one of the manifest that runs (R482; log entry 166). -/
def Security.ownerSigned (x : Security) (bs : List Byte) : Bool :=
  let root := leAt bs 6 1
  leAt bs 0 4 == 0x524E574F && decide (root < 4) && !(x.revoked.getLsbD root) && root == x.manifest.rootIndex
    && slhVerify slh128s (leBytes 32 x.manifest.rootPk.toNat) (sliceB bs 0 448) (sliceB bs 448 7856)

/-- The checks of R493 on a record but the unwrapping: magic, signature under a root key not revoked, die identities. -/
def Security.ownerForm (x : Security) (bs : List Byte) : Bool := x.dieIdsAt bs 16 && x.ownerSigned bs

/-- A 32-byte key unwrapped with AES-256-GCM; none where the tag does not verify (R492, R496). -/
def unwrapKey (key : BitVec 256) (iv aad wrapped tag : List Byte) : Option (BitVec 256) :=
  (gcmOpen (leBytes 32 key.toNat) iv aad wrapped tag).map (fun k => BitVec.ofNat 256 (leNat k))

/-- The owner wrapping key of a record, under the transport key (R492, R493). -/
def Security.unwrapOwk (x : Security) (bs : List Byte) : Option (BitVec 256) :=
  unwrapKey x.transportKey (sliceB bs 72 12) (sliceB bs 0 72) (sliceB bs 100 32) (sliceB bs 84 16)

/-- A record that passes R493, with the owner wrapping key. -/
def Security.ownerRecord (x : Security) (bs : List Byte) : Option (OwnerRec × BitVec 256) :=
  if x.ownerForm bs then (x.unwrapOwk bs).map (fun k => (parseOwner bs, k)) else none

/-- Put a record in force; none in Manufacture and Returned (R493). -/
def State.selectOwner (s : State) : State :=
  let pick := match s.sec.ownerRecord s.sec.owner0 with
    | some p => some p
    | none => s.sec.ownerRecord s.sec.owner1
  let sel := if s.lifecycle = 0 ∨ s.lifecycle = 3 then none else pick
  { s with sec := { s.sec with owner := sel.map (fun p => p.1), owk := sel.map (fun p => p.2) } }

/-- Copy serial and ordering number from the EEPROM, when its CRC holds (R490). -/
def Security.copyEeprom (x : Security) : Security :=
  if leAt x.eeprom 252 4 = (crc32c (sliceB x.eeprom 0 252)).toNat then
    { x with serial := BitVec.ofNat 128 (leAt x.eeprom 32 16), ordering := BitVec.ofNat 128 (leAt x.eeprom 16 16), orderValid := true }
  else { x with serial := 0, ordering := 0, orderValid := false }

/-- WAKE_N while any PERST pin is asserted, after a reset or a Recovery boot (R371). -/
def State.askPerst (s : State) : State := { s with pins := { s.pins with wakeN := s.pins.wakeN || s.pins.anyPerst } }

/-! ### Power good and firmware (R485, R487, R545) -/

/-- The module goes to Recovery (R487): Weft A's Beam group wakes, links 0 and 1 train, vector 1 carries the message. -/
def State.enterRecovery (s : State) (cause : Nat) : State :=
  let s1 := { s with
    pwr := { s.pwr with recovery := true, bootCause := cause }
    clk := { s.clk with fabric := true }
    links := s.links.zipIdx.map (fun (p : Link × Nat) => if p.2 < 2 then { p.1 with state := 1 } else p.1) }
  supVector ((s1.wake .a .beam).askPerst) 1

/-- POWER_GOOD (R394, R485, R487): mission domains leave reset, and the boot checks run. -/
def execPowerGood (s : State) : Host.Outcome State Fault Refusal :=
  if s.pwr.phase = .powerUp ∧ s.pwr.rails = 7 then
    let s1 := { s with
      ctr := { s.ctr with aon := eraseN (eraseN s.ctr.aon 0) 15 }
      pwr := { s.pwr with phase := .mission, bootT0 := s.time.now, stage := 0, ready := false, readyMs := 0 }
      ladder := { s.ladder with module := false } }
    let cause := if bitW (s1.reg oBoot) 4 then 7 else imageCause s1.sec s1.sec.flashImage
    .next (if cause ≠ 0 then s1.enterRecovery cause
      else { s1 with pwr := { s1.pwr with stage := 1 }, sec := { s1.sec with manifest := parseManifest s1.sec.flashImage } })
  else .next s

/-- A die's channels start to train (R254). -/
def WeftDie.startTraining (w : WeftDie) : WeftDie := { w with chans := w.chans.map (fun (c : Chan) => { c with train := 1 }) }

/-- The identity public key of the fused seed (R482, R491). -/
def Security.identityPk (x : Security) : BitVec 256 := BitVec.ofNat 256 (leNat (slhPublic slh128f (leBytes 48 x.idSeed.toNat)))

/-- BOOT_VERIFIED (R545): Keeper firmware runs, reads fuses, owner record, identity key and EEPROM, and tells every Weft group to
wake; links and GDDR6 train.  In Returned the safety mode is Bench (R498, R506; log entry 25). -/
def execBootVerified (s : State) : Host.Outcome State Fault Refusal :=
  if s.missionOn && !s.pwr.recovery && decide (s.pwr.stage = 1) then
    let s1 := s.selectOwner
    let s2 := { s1 with
      sec := { s1.sec.copyEeprom with idPk := s.sec.identityPk }
      pwr := { s1.pwr with firmware := true, heartbeat := true, stage := 2 }
      clk := { s1.clk with fabric := true }
      links := s1.links.map (fun (l : Link) => { l with state := 1 })
      wa := s1.wa.startTraining
      wb := s1.wb.startTraining }
    let s3 := if s2.lifecycle = 3 then s2.setReg oSafety (setFld (s2.reg oSafety) 1 0 2) else s2
    .next ((s3.wakeDie .a).wakeDie .b).askPerst
  else .next s

/-! ### GDDR6 (R254, R255) -/

/-- The boot stage moves on, never back (KPR_START). -/
def State.stageTo (s : State) (n : Nat) : State := { s with pwr := { s.pwr with stage := max s.pwr.stage n } }

/-- A die trains. -/
def WeftDie.isTraining (w : WeftDie) : Bool := w.chans.any (fun c => c.train == 1)

/-- Set where the reset of a die stands, when it is in reset. -/
def State.diePhaseTo (s : State) (d : Weft) (p : DiePhase) : State :=
  match d with
  | .a => { s with ladder := { s.ladder with dieA := s.ladder.dieA.map (fun _ => p) } }
  | .b => { s with ladder := { s.ladder with dieB := s.ladder.dieB.map (fun _ => p) } }

/-- GDDR6_TRAINING_DONE (R254): a channel that fails raises the source, and its die's engines count as disabled. -/
def execGddr6TrainingDone (d : Weft) (failed : BitVec 12) (s : State) : Host.Outcome State Fault Refusal :=
  if (s.weft d).isTraining then
    let s1 := s.modWeft d (fun w => { w with
      trainFailed := failed != 0
      chans := w.chans.zipIdx.map (fun (p : Chan × Nat) => { p.1 with train := if failed.getLsbD p.2 then 3 else 2 }) })
    let s2 := ((List.range 12).filter (fun n => failed.getLsbD n)).foldl
      (fun t _ => t.raise (weftSrc d 0x23) (cap none noMaster 0 0 0)) (s1.diePhaseTo d .zeroing)
    let s3 := if failed = 0 then s2 else s2.recompute
    .next (if s3.wa.isTraining || s3.wb.isTraining then s3 else s3.stageTo 3)
  else .next s

/-- GDDR6_ZEROING_DONE (R254, R442): every data line is zero.  The injection that covers the die runs: that of its reset, or the module's
once both dies are zeroed. -/
def execGddr6ZeroingDone (d : Weft) (s : State) : Host.Outcome State Fault Refusal :=
  if !(s.weft d).isTraining && !(s.weft d).zeroed && (s.weft d).chans.all (fun c => c.train != 0) then
    let s1 := (s.modWeft d (fun w => { w with gddr := [], zeroed := true })).diePhaseTo d .injecting
    .next (if (s1.diePhase d).isSome then s1.setReg oInject (BitVec.ofNat 32 (1 + 4 * dieNo d))
      else if s1.wa.zeroed && s1.wb.zeroed then (s1.setReg oInject 1#32).stageTo 4 else s1)
  else .next s

/-! ### Start-up error injection (R442 to R444) -/

/-- The number of an injection scope in KPR_INJECT_STATUS. -/
def scopeCode (sc : InjectScope) : Nat :=
  match sc with
  | .module => 0
  | .die .a => 1
  | .die .b => 2
  | .unit _ => 3

/-- Keeper injects one instance of a checker before another: in ascending code, then in ascending instance number (R443). -/
def injectedBefore (f g : InjectFailure) : Bool := decide (f.checker < g.checker) || (f.checker == g.checker && decide (f.inst < g.inst))

/-- The failure of a run that comes first in Keeper's order (R443). -/
def firstFailure : List InjectFailure → Option InjectFailure
  | [] => none
  | f :: l =>
    match firstFailure l with
    | none => some f
    | some g => some (if injectedBefore g f then g else f)

/-- KPR_INJECT_STATUS after a run (R443, R444). -/
def injectStatus (sc : InjectScope) (fs : List InjectFailure) : Word :=
  match firstFailure fs with
  | none => BitVec.ofNat 32 (2 + 4 * scopeCode sc)
  | some f => BitVec.ofNat 32 (3 + 4 * scopeCode sc + 2 ^ 8 * (f.checker % 256) + 2 ^ 16 * (f.inst % 65536))

/-- A die counts its units as disabled, and leaves service (R444, R549). -/
def State.dieOut (s : State) (d : Weft) : State := s.modWeft d (fun w => { w with injectFailed := true, inService := false })

/-- A die's start-up injection failed at the module start: it has not passed (R503). -/
def State.startOut (s : State) (d : Weft) : State :=
  let s1 := s.dieOut d
  { s1 with pwr := { s1.pwr with startFailed := addSetW s1.pwr.startFailed d } }

/-- A die's injection has passed (R503). -/
def State.startPassed (s : State) (d : Weft) : State :=
  { s with pwr := { s.pwr with startFailed := s.pwr.startFailed.filter (fun x => decide (x ≠ d)) } }

/-- The consequence of a failed checker of a module-scope run (R444). -/
def State.moduleFailure (s : State) (f : InjectFailure) : State :=
  match f.die with
  | .selvedge => { s with pwr := { s.pwr with moduleInjectFailed := true } }
  | .weftA => s.startOut .a
  | .weftB => s.startOut .b

/-- INJECTION_DONE (R442 to R444, R356): a failure asserts FAULT_N; a module-scope run that passes releases it and starts ALIVE, unless the
reference is lost (R379).  A die whose run fails, or whose training had failed, stays out of service, and admission is tested again (R254,
R288, R444). -/
def execInjectionDone (scope : InjectScope) (failures : List InjectFailure) (s : State) : Host.Outcome State Fault Refusal :=
  let noted := s.setReg oInject (injectStatus scope failures)
  if s.pwr.refLost then .next s
  else
  match scope with
  | .module =>
    if s.pwr.firmware && !s.pwr.injected && decide (s.pwr.stage = 4) then
      let s1 := (({ noted with pwr := { noted.pwr with injected := true } }).stageTo 5)
      .next (if failures.isEmpty then { s1 with pins := { s1.pins with faultN := false, aliveRun := true } }
        else (failures.foldl State.moduleFailure s1).assertFault.recompute)
    else .next s
  | .die d =>
    if s.diePhase d = some .injecting then
      .next (if failures.isEmpty then
          (if (s.weft d).trainFailed then ((noted.startPassed d).diePhaseTo d .failed).recompute else (noted.startPassed d).diePhaseTo d .linking)
        else (((noted.dieOut d).diePhaseTo d .failed).assertFault).recompute)
    else .next s
  | .unit u =>
    if s.unitPhase u = some .injecting then
      .next (if failures.isEmpty then noted.unitDone u else (noted.unitAt u .isolating).assertFault)
    else .next s

/-! ### Boot proof (R549) -/

/-- The boot of a die is settled: out, or in service (R547). -/
def WeftDie.settled (w : WeftDie) : Bool := w.injectFailed || w.trainFailed || w.inService

/-- BOOT_PROOF_VERDICT (R549): a pass is the die's first proof, and the die is in service; a fail raises the proof source, asserts
FAULT_N, and takes the die out. -/
def execBootProofVerdict (d : Weft) (v : ProofVerdict) (s : State) : Host.Outcome State Fault Refusal :=
  if s.pwr.injected && !s.pwr.ready && !(s.weft d).settled then
    let s1 := match v with
      | .passed => bumpAon (s.modWeft d (fun w => { w with inService := true, checks := { w.checks with firstProof := false } })) 0 10 1
      | _ => (((s.assertFault).dieOut d).raiseProof d v).recompute
    .next (if s1.wa.settled && s1.wb.settled then s1.stageTo 6 else s1)
  else .next s

/-! ### Installing an image, and the rollback count (R486, R488) -/

/-- KPR_BOOT.install_result takes a value. -/
def State.installResult (s : State) (n : Nat) : State := s.setReg oBoot (setFld (s.reg oBoot) 7 6 n)

/-- The image that the supervisor staged through BAR4 (R488). -/
def State.stagedImage (s : State) : List Byte :=
  s.wa.beam.readBytes 0 (min 16777216 (max 1152 (leAt (s.wa.beam.readBytes 0 1152) 16 4)))

/-- An install begins (R488): a staged image that passes the checks of R485 is programmed, and the slot is invalid until that is done. -/
def State.install (s : State) (programmed : Bool) : State :=
  if s.portS.up && s.pwr.recovery && s.sec.installing.isNone then
    (if imageCause s.sec s.stagedImage ≠ 0 then s.installResult 2
    else ({ s with sec := { s.sec with flashImage := [], installing := some (s.stagedImage, programmed) } }).installResult 1)
  else s

/-- An install ends (R488): the image read back right is in the slot, and the module is reset; a failed programming leaves the slot
invalid.  The model ends it in a Tick clock (log entry 167). -/
def State.finishInstall (s : State) : State :=
  match s.sec.installing with
  | none => s
  | some x =>
    if x.2 then (({ s with sec := { s.sec with flashImage := x.1, installing := none } }).installResult 0).moduleReset false
    else ({ s with sec := { s.sec with installing := none } }).installResult 3

/-- KPR_BOOT_INSTALL (R488). -/
def execKprBootInstall (programmed : Bool) (s : State) : Host.Outcome State Fault Refusal := .next (s.install programmed)

/-- KPR_ROLLBACK_COMMIT (R486): the count takes the running image's index when that is higher. -/
def execKprRollbackCommit (s : State) : Host.Outcome State Fault Refusal :=
  if s.portS.up && s.pwr.firmware && decide (s.sec.rollbackFused < s.sec.manifest.rollback) then
    .next { s with sec := { s.sec with rollbackFused := min 64 s.sec.manifest.rollback } }
  else .next s

end Machine

end Sys2Proof
end

