-- ==== Sys2Proof/Machine/Ports.lean ====
section
/-! DEFINITION. The PCIe ports, functions, MSI-X, device time, SYNC pins and the EEPROM bus (R326 to R348, R353, R361, R369, R370). -/

namespace Sys2Proof

namespace Machine

/-! ### Ports (R342 to R348, R361) -/

/-- Set a port's reset pin; WAKE_N is released when none is asserted (R371). -/
def State.setPerst (s : State) (p : Port) (v : Bool) : State :=
  let q := match p with
    | .hostA => { s.pins with perstA := v }
    | .hostB => { s.pins with perstB := v }
    | .sup => { s.pins with perstS := v }
  { s with pins := { q with wakeN := q.wakeN && q.anyPerst } }

/-- PERST_ASSERT (R344, R348): the host port is lost, or the supervisor function resets. -/
def execPerstAssert (p : Port) (s : State) : Host.Outcome State Fault Refusal :=
  let s1 := s.setPerst p true
  .next (match p with
    | .hostA => s1.portLost .hostA
    | .hostB => s1.portLost .hostB
    | .sup => s1.supLost)

/-- PERST_DEASSERT (R361): the link may train. -/
def execPerstDeassert (p : Port) (s : State) : Host.Outcome State Fault Refusal := .next (s.setPerst p false)

/-- HOST_LINK_LOSS (R344). -/
def execHostLinkLoss (p : HostPort) (s : State) : Host.Outcome State Fault Refusal := .next (s.portLost p)

/-- The port of a host port. -/
def asPort (p : HostPort) : Port := match p with | .hostA => .hostA | .hostB => .hostB

/-- A port's link may leave Detect: its reset pin is deasserted and 100 ms have passed since power good (R361). -/
def State.mayTrain (s : State) (p : Port) : Bool :=
  s.missionOn && !s.pins.perst p && decide (s.pwr.bootT0.toNat + 100000000 ≤ s.time.now.toNat)

/-- HOST_LINK_UP (R346, R342, R338): the functions start from their FLR values, VF Enable 0; in Recovery host links stay in Detect
(R487). -/
def execHostLinkUp (p : HostPort) (width speed mps : Nat) (msix : Bool) (s : State) : Host.Outcome State Fault Refusal :=
  if s.mayTrain (asPort p) && s.pwr.firmware && !(s.hport p).up then
    let pf : FnId := { port := p, num := 0 }
    let s1 := s.modHport p (fun x => { x with up := true, width := width, speed := speed, mps := mps, numVfs := 0, degraded := false })
    let s2 := { s1 with msix := { s1.msix with enabled := if msix then addSet s1.msix.enabled (.fn pf) else s1.msix.enabled } }
    let s3 := supVector s2 2
    .next (if badLink width speed mps then s3.portDegraded p else s3)
  else .next s

/-- HOST_LINK_DEGRADED (R342): the source is raised once, when the port becomes degraded. -/
def execHostLinkDegraded (p : HostPort) (width speed mps : Nat) (s : State) : Host.Outcome State Fault Refusal :=
  if (s.hport p).up && badLink width speed mps then
    let s1 := s.modHport p (fun x => { x with width := width, speed := speed, mps := mps })
    .next (if (s.hport p).degraded then s1 else s1.portDegraded p)
  else .next s

/-- HOST_LINK_RESTORED (R342): full width, full speed and a Max Payload Size of at least 256 bytes. -/
def execHostLinkRestored (p : HostPort) (mps : Nat) (s : State) : Host.Outcome State Fault Refusal :=
  if (s.hport p).up && (s.hport p).degraded && decide (256 ≤ mps) then
    .next (s.modHport p (fun x => { x with width := 8, speed := 5, mps := mps, degraded := false }))
  else .next s

/-- HOST_LINK_RECOVERY (R343). -/
def execHostLinkRecovery (p : HostPort) (s : State) : Host.Outcome State Fault Refusal :=
  if (s.hport p).up then
    .next (s.modHport p (fun x => { x with recoveryCount := if x.recoveryCount = 0xFF#8 then 0xFF#8 else x.recoveryCount + 1 }))
  else .next s

/-- SUPERVISOR_LINK_LOSS (R348). -/
def execSupervisorLinkLoss (s : State) : Host.Outcome State Fault Refusal := .next s.supLost

/-- SUPERVISOR_LINK_UP (R348, R338): held vectors are sent, then the port event. -/
def execSupervisorLinkUp (msix : Bool) (s : State) : Host.Outcome State Fault Refusal :=
  if s.mayTrain .sup && (s.pwr.firmware || s.pwr.recovery) && !s.portS.up then
    let s1 := { s with
      portS := { s.portS with up := true, width := 1, speed := 2 }
      msix := { s.msix with enabled := if msix then addSet s.msix.enabled .sup else s.msix.enabled }
      hasp := { s.hasp with supPending := [] } }
    .next (supVector (s.hasp.supPending.foldl supVector s1) 2)
  else .next s

/-! ### Functions (R326 to R328, R335, R336) -/

/-- The device ID of a function (R326). -/
def deviceId (f : IrqFn) : Nat :=
  match f with
  | .fn g => if g.num = 0 then 0x4810 else 0x4811
  | .sup => 0x4812

/-- The class code of every function (R326). -/
def classCode : Nat := 0x120000

/-- The identity words of a function's configuration space: vendor and device ID, and the class code (R326). -/
def fnIdentity (f : IrqFn) : Word × Nat := (BitVec.ofNat 32 (Config.vendorId.toNat + 2 ^ 16 * deviceId f), classCode)

/-- What the configuration space of a port's functions offers (R326): the link's lanes and speed in GT/s, Precision Time Measurement, Advanced
Error Reporting, ECRC generation and check, the largest Max Payload Size, and 10-bit tags.  Interrupts are MSI-X only, and there is no ATS and
no PASID on any port. -/
structure PortCaps where
  lanes : Nat
  speed : Nat
  ptm : Bool
  aer : Bool
  ecrc : Bool
  maxPayload : Nat
  tenBitTags : Bool
deriving DecidableEq, Repr

/-- The capabilities of the ports (R326). -/
def portCaps (p : Port) : PortCaps :=
  match p with
  | .hostA => { lanes := 8, speed := 32, ptm := true, aer := true, ecrc := true, maxPayload := 512, tenBitTags := true }
  | .hostB => { lanes := 8, speed := 32, ptm := true, aer := true, ecrc := true, maxPayload := 512, tenBitTags := true }
  | .sup => { lanes := 1, speed := 5, ptm := false, aer := true, ecrc := true, maxPayload := 256, tenBitTags := false }

/-- A function answers configuration requests: its link is up, no closing goes on after a loss, and it exists (R327, R346). -/
def State.fnExists (s : State) (f : FnId) : Bool := (s.hport f.port).carries && decide (f.num ≤ (s.hport f.port).numVfs)

/-- A function takes register accesses: it exists and is not within the 2 ms of an FLR (R328). -/
def State.fnLive (s : State) (f : FnId) : Bool := s.fnExists f && !s.flrBusy.contains f

/-- A function-level reset of one function (R302, R328): its contexts close, its latches go, its window returns to FLR values. -/
def State.flrOne (s : State) (f : FnId) : State :=
  let s1 := (s.fnCtxs f).foldl State.closeStart (s.resetFnRegs f)
  { s1 with
    msix := s1.msix.without (fun g => decide (g = IrqFn.fn f))
    eventLost := delSet s1.eventLost f
    latches := s1.latches.filter (fun l => decide (l.2 ≠ LatchHolder.host f))
    flrBusy := addSet s1.flrBusy f }

/-- An FLR of every VF of a port; VF Enable is 0 after it (R327). -/
def State.flrVfs (s : State) (p : HostPort) : State :=
  let s1 := (fromTo 1 (s.hport p).numVfs).foldl (fun t n => t.flrOne { port := p, num := n }) s
  s1.modHport p (fun x => { x with numVfs := 0 })

/-- FLR (R328, R327). -/
def execFlr (f : FnId) (s : State) : Host.Outcome State Fault Refusal :=
  if s.fnLive f then .next (if f.num = 0 then (s.flrVfs f.port).flrOne f else s.flrOne f) else .next s

/-- FLR_COMPLETE (R328): the function accepts configuration requests again, and its host sets MSI-X Enable or leaves it at 0 (R336; log
entry 139). -/
def execFlrComplete (f : FnId) (msix : Bool) (s : State) : Host.Outcome State Fault Refusal :=
  .next (if s.flrBusy.contains f then
      { s with flrBusy := delSet s.flrBusy f
               msix := { s.msix with enabled := if msix && s.fnExists f then addSet s.msix.enabled (.fn f) else s.msix.enabled } }
    else s)

/-- VF_ENABLE_SET (R327): VFs 1 to NumVFs exist. -/
def execVfEnableSet (p : HostPort) (numVfs : Nat) (msix : Bool) (s : State) : Host.Outcome State Fault Refusal :=
  if s.fnLive { port := p, num := 0 } && (s.hport p).numVfs == 0 && decide (numVfs ≤ 31) then
    let s1 := s.modHport p (fun x => { x with numVfs := numVfs })
    let vfs := (fromTo 1 numVfs).map (fun n => IrqFn.fn { port := p, num := n })
    .next { s1 with msix := { s1.msix with enabled := if msix then vfs.foldl addSet s1.msix.enabled else s1.msix.enabled } }
  else .next s

/-- VF_ENABLE_CLEAR (R327). -/
def execVfEnableClear (p : HostPort) (s : State) : Host.Outcome State Fault Refusal :=
  if s.fnLive { port := p, num := 0 } then .next (s.flrVfs p) else .next s

/-- A function's vectors exist now. -/
def State.irqLive (s : State) (f : IrqFn) : Bool :=
  match f with
  | .fn g => s.fnLive g
  | .sup => s.portS.up

/-- A vector is unmasked, and sent when its pending bit is set (R336). -/
def State.unmask (s : State) (m : Msix) : State :=
  let s1 := { s with msix := { s.msix with unmasked := addSet s.msix.unmasked m } }
  if s1.msix.pending.contains m && s1.msix.enabled.contains m.fn then
    emitMsix { s1 with msix := { s1.msix with pending := delSet s1.msix.pending m } } m
  else s1

/-- Vectors of a function: 2,048 of a host function, 8 of the supervisor's (R337, R338). -/
def irqVectors (f : IrqFn) : Nat := match f with
  | .fn _ => 2048
  | .sup => 8

/-- MSIX_VECTOR_UNMASK (R336). -/
def execMsixVectorUnmask (f : IrqFn) (vector : Nat) (s : State) : Host.Outcome State Fault Refusal :=
  if s.irqLive f && decide (vector < irqVectors f) then .next (s.unmask { fn := f, vector := vector }) else .next s

/-- POISONED_BAR_WRITE (R335): the write is discarded, and the host bad-access source carries the master ID. -/
def execPoisonedBarWrite (f : FnId) (off : Nat) (s : State) : Host.Outcome State Fault Refusal :=
  if s.fnExists f then .next (s.raise (0x1C + portPart f.port) (cap none (fnMaster f) 2 (BitVec.ofNat 64 off) 4)) else .next s

/-! ### Device time (R339 to R341) -/

/-- PTM_DIALOGUE (R339): a dialogue with the selected host. -/
def execPtmDialogue (p : HostPort) (offset : Option Int) (s : State) : Host.Outcome State Fault Refusal :=
  if s.timeSource = 2 + portPart p ∧ (s.hport p).up then
    .next (match offset with
      | some o => s.timeMeasure o
      | none => s.timeMiss)
  else .next s

/-- GPTP_FRAME (R213, R339): a frame of the selected Ethernet port that completes an exchange measures an offset. -/
def execGptpFrame (eth : Nat) (offset : Option Int) (s : State) : Host.Outcome State Fault Refusal :=
  if s.timeSource = 1 ∧ fld (s.reg oTimeCtl) 3 2 = eth ∧ bitW (s.reg (oPortCtl (0x18 + eth))) 0 then
    .next (match offset with
      | some o => s.timeMeasure o
      | none => s)
  else .next s

/-- TIME_SOURCE_FAIL (R341). -/
def execTimeSourceFail (s : State) : Host.Outcome State Fault Refusal := .next s.timeFail

/-! ### SYNC pins (R369, R370) -/

/-- KPR_SYNC_IN_TIME. -/
def State.syncInTime (s : State) : Nat := (s.reg 0x230).toNat + 2 ^ 32 * (s.reg 0x234).toNat

/-- SYNC_IN_EDGE (R370): the selected edge captures device time; one within 1 µs of the previous capture is ignored. -/
def execSyncInEdge (rising : Bool) (quarter : Nat) (s : State) : Host.Outcome State Fault Refusal :=
  let ctl := s.reg oSyncCtl
  let t := s.time.now.toNat + 40 * quarter
  let st := s.reg oSyncStatus
  let held := bitW st 0 || s.syncInTime != 0
  if bitW ctl 1 && (bitW ctl 2 != rising) && !(held && decide (t - s.syncInTime ≤ 1000)) then
    let s1 := (s.setReg 0x230 (BitVec.ofNat 32 t)).setReg 0x234 (BitVec.ofNat 32 (t / 2 ^ 32))
    .next (s1.setReg oSyncStatus (if bitW st 0 then st ||| 3#32 else st ||| 1#32))
  else .next s

/-- period_us in force: above 1,000,000 acts as 1,000,000; 0 gives no pulses. -/
def State.syncPeriod (s : State) : Nat := min 1000000 (fld (s.reg oSyncPeriod) 19 0)

/-- width_us in force: period_us or more acts as period_us − 1; 0 gives no pulses (R369). -/
def State.syncWidth (s : State) : Nat := min (s.syncPeriod - 1) (fld (s.reg oSyncPeriod) 31 20)

/-- Whole µs since the phase within the period. -/
def State.syncSince (s : State) : Nat :=
  let n := s.syncPeriod
  (s.time.now.toNat / 1000 % n + (n - fld (s.reg oSyncPhase) 19 0 % n)) % n

/-- SYNC_OUT_RISE (R369). -/
def execSyncOutRise (s : State) : Host.Outcome State Fault Refusal :=
  if bitW (s.reg oSyncCtl) 0 && s.syncPeriod != 0 && s.syncWidth != 0 && s.syncSince == 0 && s.missionOn then
    .next { s with pins := { s.pins with syncOut := true } }
  else .next s

/-- SYNC_OUT_FALL (R369): width_us after the rise. -/
def execSyncOutFall (s : State) : Host.Outcome State Fault Refusal :=
  if s.pins.syncOut && decide (s.syncWidth ≤ s.syncSince) then .next { s with pins := { s.pins with syncOut := false } } else .next s

/-! ### The EEPROM bus (R353) -/

/-- SMBUS_EEPROM_READ (R353): reads at address 0x50 are answered while the standby rail is up; nothing else is acknowledged. -/
def execSmbusEepromRead (addr : BitVec 7) (isRead : Bool) (offset count : Nat) (s : State) : Host.Outcome State Fault Refusal :=
  if s.supply.standby && addr == 0x50#7 && isRead then
    .next { s with sec := { s.sec with smbAck := true, smbData := (fromTo offset count).map (fun i => s.sec.eeprom.getD (i % 256) 0) } }
  else .next { s with sec := { s.sec with smbAck := false, smbData := [] } }

end Machine

end Sys2Proof
end

