-- ==== Sys2Proof/Machine/Rings.lean ====
section
/-! DEFINITION. Contexts, rings, doorbells and host latches (R292, R298 to R310, R324, R547, R548). -/

namespace Sys2Proof

namespace Machine

/-! ### Opening and closing contexts (R298 to R302) -/

/-- The first check of R300 that an open fails; 0 where all pass. -/
def State.openStatus (s : State) (f : FnId) (w : Word) : Nat :=
  let p := portPart f.port
  let save := fld w 20 5
  let lat := s.fnReg f 0x04
  let base := fld lat 11 0
  let count := fld lat 24 12
  let range := s.reg (oPartLatch p)
  let spill := s.fnReg f 0x08
  let len := fld (s.fnReg f 0x10) 23 0
  let fits := fun (d : Weft) => decide (s.gddrUsed p d + save * 65536 ≤ s.gddrLen p) && s.regionFits p d (save * 65536)
  if !(bitW w 0 || bitW w 1) then 0x11
  else if fld (s.reg (oPartQuota p)) 12 0 ≤ (s.ctxs.filter (fun c => c.part == p)).length then 0x50
  else if fld (s.reg oSchedSave) 15 0 < save || !(fits .a && fits .b) then 0x51
  else if count != 0 && !(decide (fld range 11 0 ≤ base) && decide (base + count ≤ fld range 11 0 + fld range 24 12)) then 0x52
  else if len != 0 && (bitW w 2 || fld spill 11 0 != 0) then 0x53
  else if bitW w 3 && !(bitW w 2 && bitW w 1) then 0x54
  else 0

/-- The lowest free context ID (R298). -/
def State.freeCtx (s : State) : Nat := ((List.range 4096).find? (fun i => (s.ctx? i).isNone)).getD 0

/-- The context that an open makes, with its save area on each die at a place that Heddle chooses (R260, R300, R301; log entry 30). -/
def State.newCtx (s : State) (f : FnId) (w : Word) : Ctx :=
  { id := s.freeCtx
    fn := f
    lc := bitW w 2
    role := if bitW w 3 then .mirrorTarget else .work
    version := if bitW w 1 then 3 else 2
    counterGrant := bitW w 4
    save64k := fld w 20 5
    saveA := s.regionBase (portPart f.port) .a (fld w 20 5 * 65536) s.freshCtr
    saveB := s.regionBase (portPart f.port) .b (fld w 20 5 * 65536) (s.freshCtr + 1)
    latchBase := fld (s.fnReg f 0x04) 11 0
    latchCount := fld (s.fnReg f 0x04) 24 12
    spillAddr := (s.fnReg f 0x08).toNat + 2 ^ 32 * (s.fnReg f 0x0C).toNat
    spillLen := fld (s.fnReg f 0x10) 23 0 * 4096
    stepCounter := 0
    closing := false
    bound := [] }

/-- HDL_FN_CTX_RESULT of an open: context, version and status; busy is read from the state (`State.readFn`). -/
def openResult (ctx version status : Nat) : Word := BitVec.ofNat 32 (ctx + 2 ^ 12 * version + 2 ^ 16 * status)

/-- HDL_FN_CTX_OPEN_GO (R300, R301): the context opens, or the status names the check that fails.  An LC context can raise the floor
of the power states (R276). -/
def execHdlFnCtxOpenGo (f : FnId) (value : Word) (s : State) : Host.Outcome State Fault Refusal :=
  if s.fnLive f then
    let s1 := s.setFnReg f 0x00 (value &&& 0x001FFFFF#32)
    let st := s1.openStatus f value
    .next (if !bitW value 31 then s1
      else if st ≠ 0 then s1.setFnReg f 0x14 (openResult 0 0 st)
      else
        let c := s1.newCtx f value
        let s2 := { s1.setFnReg f 0x14 (openResult c.id c.version 0) with ctxs := s1.ctxs ++ [c], freshCtr := s1.freshCtr + 2 }
        s2.wakeTo s2.floor)
  else .next s

/-- HDL_FN_CTX_CLOSE_GO (R302): reading stops and the context is killed; a context the function does not own is ignored. -/
def execHdlFnCtxCloseGo (f : FnId) (value : Word) (s : State) : Host.Outcome State Fault Refusal :=
  if s.fnLive f then
    let s1 := s.setFnReg f 0x18 (value &&& 0xFFF#32)
    .next (if !bitW value 31 then s1
      else match s1.ctx? (fld value 11 0) with
        | some c => if c.fn = f ∧ !c.closing then s1.closeStart c.id else s1
        | none => s1)
  else .next s

/-- Complete with KILLED what was read from one slot of a submission ring and not completed; a started step, with the status that ended it. -/
def State.killSlot (s : State) (cx : Ctx) (ring slot : Nat) : State :=
  match s.steps.find? (fun t => t.ctx == cx.id && t.ring == ring && t.slot == slot) with
  | some t => (match t.stage with
    | .due st => if s.recordHeld t.id then s.finishStep t st else (s.writeRecords t st).finishStep t st
    | _ => (let u := s.endUnrun t 3 0; if u.recordHeld t.id then u.finishStep t 3 else u))
  | none =>
    match s.posted.find? (fun d => d.ctx == cx.id && d.ring == ring && d.slot == slot) with
    | some d =>
      completeRead ({ s with posted := s.posted.filter (fun x => decide (x ≠ d)) }.stopInject cx d) d 3 0 0
    | none =>
      match s.readQ.find? (fun d => d.ctx == cx.id && d.ring == ring && d.slot == slot) with
      | some d => completeRead { s with readQ := s.readQ.filter (fun x => decide (x ≠ d)) } d 3 0 0
      | none => s

/-- The submission rings of a context, by index. -/
def State.subRings (s : State) (c : Nat) : List Ring :=
  (List.range 256).filterMap (fun i => (s.ring? c i).bind (fun r => if r.completion then none else some r))

/-- Every descriptor read but not completed completes with KILLED, in ring order (R302). -/
def State.killRead (s : State) (cx : Ctx) : State :=
  (s.subRings cx.id).foldl (fun t r =>
    ((List.range r.size).map (fun i => (r.head + i) % r.size)).foldl (fun u slot => u.killSlot cx r.index slot) t) s

/-- Closing ends: held records written where there is room, descriptors completed, latches, save area and spill registration released, bindings disabled, rings destroyed
and the ID free (R302). -/
def State.closeCtx (s : State) (c : Nat) : State :=
  match s.ctx? c with
  | none => s
  | some cx =>
    let s1 := if (s.loadBusy.map (fun d => d.ctx == c)).getD false then s.stopLoad else s
    let s2 := ((s1.drainCtx c).killRead cx).forgetCtx c
    (State.fixUnloading { s2 with
      ctxs := s2.ctxs.filter (fun x => x.id != c)
      rings := s2.rings.filter (fun r => r.ctx != c)
      latches := s2.latches.filter (fun l => decide (l.2 ≠ .program c))
      kappas := s2.kappas.filter (fun k => k.1.1 != c)
      steps := s2.steps.filter (fun t => t.ctx != c)
      readQ := s2.readQ.filter (fun d => d.ctx != c)
      posted := s2.posted.filter (fun d => d.ctx != c)
      ladder := { s2.ladder with kills := eraseN s2.ladder.kills c } }).startLoad

/-- A port whose contexts are all closed answers again (R346). -/
def State.closedPort (s : State) (p : HostPort) : State :=
  if (s.portCtxs p).isEmpty then s.modHport p (fun x => { x with closing := false }) else s

/-- CONTEXT_CLOSE_DONE (R302), once its kill is complete: steps 2 to 5 of the close. -/
def execContextCloseDone (ctx : Nat) (s : State) : Host.Outcome State Fault Refusal :=
  match s.ctx? ctx with
  | some c =>
    if c.closing && ((s.begunStep ctx).map (fun t => t.stage.ended)).getD true && (lookupN s.ladder.kills ctx).isNone then
      .next ((s.closeCtx ctx).settleDue.closedPort c.fn.port).choose
    else .next s
  | none => .next s

/-! ### Rings (R303, R305, R324) -/

/-- HDL_FN_RING_SEL: context, ring index, and whether it selects a completion ring. -/
def State.ringSel (s : State) (f : FnId) : Nat × Nat × Bool :=
  let w := s.fnReg f 0x40
  (fld w 11 0, fld w 19 12, bitW w 20)

/-- The function owns the context with an ID, and it is not closing. -/
def State.owns (s : State) (f : FnId) (c : Nat) : Bool :=
  match s.ctx? c with
  | some x => decide (x.fn = f) && !x.closing
  | none => false

/-- The submission rings bound to a completion ring. -/
def State.bound (s : State) (c q : Nat) : List Ring := s.rings.filter (fun r => r.ctx == c && !r.completion && r.cq == q)

/-- The function's event ring (HDL_FN_EVENT). -/
def State.isEventRing (s : State) (f : FnId) (c q : Nat) : Bool :=
  let w := s.fnReg f 0x60
  bitW w 31 && fld w 11 0 == c && fld w 19 12 == q

/-- The first check that a ring creation fails, in the order 3, 4, 1, 2, 5; 0 where all pass (HDL_FN_RING_CMD, R305). -/
def State.createResult (s : State) (f : FnId) : Nat :=
  let sel := s.ringSel f
  let cfg := s.fnReg f 0x4C
  let log2 := fld cfg 4 0
  let cq := fld cfg 15 8
  if !s.owns f sel.1 then 3
  else if (s.ring? sel.1 sel.2.1).isSome then 4
  else if !(decide (4 ≤ log2) && decide (log2 ≤ 16)) then 1
  else if fld (s.fnReg f 0x44) 11 0 ≠ 0 then 2
  else if sel.2.2 then 0
  else if s.isEventRing f sel.1 cq then 5
  else match s.ring? sel.1 cq with
    | none => 5
    | some q =>
      if q.completion && decide (((s.bound sel.1 cq).map (fun r => r.size - 1)).foldl (fun a b => a + b) (2 ^ log2 - 1) ≤ q.size - 1)
      then 0 else 5

/-- Set HDL_FN_RING_CMD.result. -/
def State.ringResult (s : State) (f : FnId) (n : Nat) : State := s.setFnReg f 0x50 (BitVec.ofNat 32 (2 ^ 8 * n))

/-- RING_CREATE (R303, R305, R306). -/
def execRingCreate (f : FnId) (s : State) : Host.Outcome State Fault Refusal :=
  if s.fnLive f then
    let n := s.createResult f
    let sel := s.ringSel f
    let cfg := s.fnReg f 0x4C
    let r : Ring := { ctx := sel.1, index := sel.2.1, completion := sel.2.2,
                      base := (s.fnReg f 0x44).toNat + 2 ^ 32 * (s.fnReg f 0x48).toNat, log2 := fld cfg 4 0, cq := fld cfg 15 8,
                      vector := fld cfg 26 16, head := 0, tail := 0, read := 0, done := [], phase := true, held := [] }
    .next (if n = 0 then ({ s with rings := s.rings ++ [r] }).ringResult f 0 else s.ringResult f n)
  else .next s

/-- The first check that a ring destruction fails, in the order 3, 4, 6; 0 where all pass (R324). -/
def State.destroyResult (s : State) (f : FnId) : Nat :=
  let sel := s.ringSel f
  if !s.owns f sel.1 then 3
  else match s.ring? sel.1 sel.2.1 with
    | none => 4
    | some r =>
      if r.completion ≠ sel.2.2 then 4
      else if (if r.completion then !(s.bound sel.1 r.index).isEmpty || !r.held.isEmpty || s.isEventRing f sel.1 r.index
        else r.read != r.head) then 6
      else 0

/-- RING_DESTROY (R324). -/
def execRingDestroy (f : FnId) (s : State) : Host.Outcome State Fault Refusal :=
  if s.fnLive f then
    let n := s.destroyResult f
    let sel := s.ringSel f
    .next (if n = 0 then
        ({ s with rings := s.rings.filter (fun r => !(r.ctx == sel.1 && r.index == sel.2.1)),
                  heldBells := s.heldBells.filter (fun b => !(b.ctx == sel.1 && b.ring == sel.2.1)) }).ringResult f 0
      else s.ringResult f n)
  else .next s

/-! ### Latches (R292) -/

/-- A latch lies in the grant of a context (R122). -/
def Ctx.grants (c : Ctx) (l : Nat) : Bool := decide (c.latchBase ≤ l) && decide (l < c.latchBase + c.latchCount)

/-- A latch lies in the grant of an open context that the function owns. -/
def State.fnGrant (s : State) (f : FnId) (l : Nat) : Bool := s.ctxs.any (fun c => decide (c.fn = f) && !c.closing && c.grants l)

/-- HDL_FN_LATCH after an operation. -/
def latchWord (l : Nat) (taken denied : Bool) : Word := BitVec.ofNat 32 (l % 4096 + 2 ^ 16 * b2n taken + 2 ^ 17 * b2n denied)

/-- LATCH_TAKE (R292): never waits. -/
def execLatchTake (f : FnId) (latch : Nat) (s : State) : Host.Outcome State Fault Refusal :=
  if s.fnLive f then
    .next (if !s.fnGrant f latch then s.setFnReg f 0x80 (latchWord latch false true)
      else if (lookupN s.latches latch).isSome then s.setFnReg f 0x80 (latchWord latch false false)
      else ({ s with latches := insertN s.latches latch (.host f) }).setFnReg f 0x80 (latchWord latch true false))
  else .next s

/-- LATCH_RELEASE (R292): a latch the function does not hold is left as it is. -/
def execLatchRelease (f : FnId) (latch : Nat) (s : State) : Host.Outcome State Fault Refusal :=
  if s.fnLive f then
    let taken := bitW (s.fnReg f 0x80) 16
    .next (if !s.fnGrant f latch then s.setFnReg f 0x80 (latchWord latch taken true)
      else ({ s with latches := s.latches.filter (fun x => decide (x ≠ (latch, LatchHolder.host f))) }).setFnReg f 0x80
        (latchWord latch taken false))
  else .next s

/-! ### Doorbells (R304, R307 to R310, R548) -/

/-- A read of host memory for a descriptor comes back poisoned or failed (R265, R335): none of its bytes is used, the descriptor completes
with ECC_FAIL (for one that is no step DESIGN CHOICE, log entry 138), and the host read error source is raised. -/
def State.hostReadError (s : State) (cx : Ctx) (d : ReadDesc) (addr : Nat) : State :=
  (completeRead s d 2 0 0).raise (0x1E + cx.part) (cap (some cx.id) (fnMaster cx.fn) 1 (BitVec.ofNat 64 addr) 2)

/-- Heddle reads n descriptors of a submission ring, in ring order; each takes its place in the order of submission (R310), and the ring's
progress counter advances (R467).  An empty entry stands for a read that came back poisoned or failed (R335): that descriptor completes with
ECC_FAIL, its unread fields 0 (DESIGN CHOICE, log entry 160). -/
def State.readDescs (s : State) (cx : Ctx) (ring : Nat) (time : Dword) : Nat → List (List Byte) → State
  | 0, _ => s
  | n + 1, ds =>
    match s.ring? cx.id ring with
    | none => s
    | some r =>
      let bytes := sliceB (ds.headD []) 0 64
      let d : ReadDesc := { seq := s.sched.nextId, ctx := cx.id, ring := ring, slot := r.read, time := time, bytes := bytes }
      let s1 := s.modRing cx.id ring (fun x => { x with read := (x.read + 1) % x.size })
      let s2 := { s1 with readQ := s1.readQ ++ [d], sched := { s1.sched with nextId := s1.sched.nextId + 1 } }
      let s3 := hostRead s2 cx.fn.port (fnMaster cx.fn) cx.id cx.lc (r.base + 64 * r.read) 64
      let s4 := (countEv s3 { Ev.plain 0 0x081 none 1 with master := some (fnMaster cx.fn).toNat, ctx := some cx.id }).progress (monKey .ring cx.id ring)
      let s5 := if ds.head? = some [] then { s4 with readQ := s4.readQ.filter (fun x => decide (x ≠ d)) }.hostReadError cx d (r.base + 64 * r.read) else s4
      State.readDescs s5 cx ring time n ds.tail

/-- Descriptors of a submission ring that no doorbell has had read, up to an index. -/
def Ring.unread (r : Ring) (index : Nat) : Nat := (index + r.size - r.read) % r.size

/-- A bad doorbell is discarded, and the source raised (R309). -/
def State.badDoorbell (s : State) (f : FnId) (page : Nat) (value : Word) : State :=
  s.raise 0x010 (cap none (fnMaster f) 2 (BitVec.ofNat 64 (page * 4096)) value.toNat)

/-- An accepted doorbell on a submission ring: the tail moves, and the descriptors are read, at once or at ready (R310, R548). -/
def State.tailBell (s : State) (cx : Ctx) (r : Ring) (index : Nat) (descs : List (List Byte)) : State :=
  let s1 := countEv (s.modRing cx.id r.index (fun x => { x with tail := index }))
    { Ev.plain 0 0x080 none 1 with master := some (fnMaster cx.fn).toNat, ctx := some cx.id }
  if s.pwr.ready then s1.readDescs cx r.index s.time.now (r.unread index) descs
  else { s1 with heldBells := s1.heldBells ++ [{ ctx := cx.id, ring := r.index, index := index }] }

/-- An accepted doorbell on a completion ring: the head moves, and held records are written while there is room (R307). -/
def State.headBell (s : State) (cx : Ctx) (r : Ring) (index : Nat) : State :=
  let s1 := countEv (s.modRing cx.id r.index (fun x => { x with head := index }))
    { Ev.plain 0 0x080 none 1 with master := some (fnMaster cx.fn).toNat, ctx := some cx.id }
  drainHeld r.held.length s1 cx.id r.index

/-- A doorbell write (R308, R309). -/
def State.doorbell (s : State) (f : FnId) (page : Nat) (value : Word) (descs : List (List Byte)) : State :=
  match s.ctx? page with
  | none => s.badDoorbell f page value
  | some cx =>
    if cx.fn ≠ f then s.badDoorbell f page value
    else if cx.closing then s
    else
      match s.ring? page (fld value 31 24) with
      | none => s.badDoorbell f page value
      | some r =>
        let index := fld value 15 0
        let old := if r.completion then r.head else r.tail
        let room := if r.completion then r.used else r.size - 1 - r.used
        if r.size ≤ index ∨ room < (index + r.size - old) % r.size then s.badDoorbell f page value
        else if index = old then s
        else if r.completion then s.headBell cx r index
        else s.tailBell cx r index descs

/-- DOORBELL_TAIL (R308 to R310). -/
def execDoorbellTail (f : FnId) (page : Nat) (value : Word) (descs : List (List Byte)) (s : State) :
    Host.Outcome State Fault Refusal :=
  if s.fnLive f then .next (s.doorbell f page value descs) else .next s

/-- DOORBELL_HEAD (R307). -/
def execDoorbellHead (f : FnId) (page : Nat) (value : Word) (s : State) : Host.Outcome State Fault Refusal :=
  if s.fnLive f then .next (s.doorbell f page value []) else .next s

/-! ### Ready (R547, R548) -/

/-- Read what held doorbells cover, in arrival order; their doorbell time is now (R548). -/
def State.readHeld (s : State) : List (HeldBell × List (List Byte)) → State
  | [] => s
  | (b, ds) :: rest =>
    match s.ctx? b.ctx, s.ring? b.ctx b.ring with
    | some cx, some r => State.readHeld (s.readDescs cx b.ring s.time.now (r.unread b.index) ds) rest
    | _, _ => State.readHeld s rest

/-- The module may become ready (R547). -/
def State.mayBeReady (s : State) : Bool := s.pwr.firmware && s.pwr.injected && !s.pwr.ready && s.wa.settled && s.wb.settled

/-- READY (R547, R548). -/
def execReady (held : List (List (List Byte))) (s : State) : Host.Outcome State Fault Refusal :=
  if s.mayBeReady then
    let ms := (s.time.now.toNat - s.pwr.bootT0.toNat) / 1000000
    let s1 := { s with pwr := { s.pwr with ready := true, readyMs := BitVec.ofNat 16 (min 0xFFFF ms), stage := 7 }, heldBells := [] }
    .next ((supVector s1 1).readHeld (s.heldBells.zipIdx.map (fun p => (p.1, held.getD p.2 []))))
  else .next s

end Machine

end Sys2Proof
end

