-- ==== Sys2Proof/Machine/Loads.lean ====
section
/-! DEFINITION. Descriptors as Heddle reads them, and the loads of drafts and recipes, injection and transfers (R152, R153, R167 to
R171, R220, R221, R233 to R235, R311, R315, R316, R320, R322). -/

namespace Sys2Proof

namespace Machine

/-! ### Reading a descriptor (R311, R315, R320) -/

/-- The next descriptor of a context, when Heddle can process it. -/
def State.nextDesc (s : State) (ctx : Nat) : Option (Ctx × ReadDesc) :=
  if !s.heddleOn then none
  else
    match s.ctx? ctx, s.readQ.find? (fun d => d.ctx == ctx) with
    | some cx, some d => if cx.closing then none else some (cx, d)
    | _, _ => none

/-- The next descriptor of a context leaves the read queue. -/
def State.takeRead (s : State) (d : ReadDesc) : State := { s with readQ := s.readQ.filter (fun x => decide (x ≠ d)) }

/-- A descriptor waits, read and not completed. -/
def State.post (s : State) (d : ReadDesc) : State := { s.takeRead d with posted := s.posted ++ [d] }

/-- An address field is 64-byte aligned, and non-zero where it must be (check 0x0042). -/
def addrOk (a : Nat) (need : Bool) : Bool := a % 64 == 0 && (!need || a != 0)

/-- Check 0x0042 by type. -/
def ReadDesc.fieldsOk (d : ReadDesc) : Bool :=
  let len := d.at' 16 4
  match d.type with
  | 1 => addrOk (d.at' 16 8) true && addrOk (d.at' 32 8) false && d.at' 24 4 != 0
  | 2 => addrOk (d.at' 8 8) true && len != 0
  | 4 => addrOk (d.at' 8 8) true && len != 0
  | 6 => addrOk (d.at' 8 8) true && len != 0
  | 7 => addrOk (d.at' 8 8) (len != 0)
  | 8 => addrOk (d.at' 8 8) (len != 0)
  | _ => true

/-- The checks of R320 that every descriptor takes: 0x0040, 0x0041, 0x0042. -/
def commonCheck (cx : Ctx) (d : ReadDesc) : Option Nat :=
  let t := d.type
  let target := decide (cx.role = .mirrorTarget)
  if !(t ≤ (if cx.version = 3 then 8 else 6)) || (t == 1 && cx.version == 2 && d.flags % 8 != 0) then some 0x40
  else if (t != 0 && target != (t == 8)) || ((t == 4 || t == 5) && cx.fn.num != 0) || (t == 7 && cx.lc) then some 0x41
  else if !d.fieldsOk then some 0x42
  else none

/-- The next descriptor of a context is of a type: complete it with INVALID when a common check fails, else go on. -/
def State.process (s : State) (ctx : Nat) (t : Nat → Bool) (go : State → Ctx → ReadDesc → State) : State :=
  match s.nextDesc ctx with
  | some (cx, d) =>
    if t d.type then
      (match commonCheck cx d with
      | some e => completeRead (s.takeRead d) d 0x13 e 0
      | none => go s cx d)
    else s
  | none => s

/-- A descriptor of a context read before another one is not yet completed (R315). -/
def State.earlierOpen (s : State) (d : ReadDesc) : Bool :=
  s.steps.any (fun t => t.ctx == d.ctx && decide (t.id < d.seq))
    || (s.posted ++ s.readQ ++ s.loadBusy.toList).any (fun x => x.ctx == d.ctx && decide (x.seq < d.seq))

/-- NOP (R316, R315): completes at once, or waits with its fence.  An unknown type fails check 0x0040 here (log entry 28). -/
def execNop (ctx : Nat) (s : State) : Host.Outcome State Fault Refusal :=
  .next (s.process ctx (fun t => decide (t = 0) || decide (9 ≤ t)) (fun u _ d =>
    if bitN d.flags 0 && u.earlierOpen d then u.post d else completeRead (u.takeRead d) d 0 0 0))

/-- The oldest posted descriptor of a type of a context that is not closing (R302). -/
def State.postedOf (s : State) (ctx t : Nat) : Option ReadDesc :=
  if s.ctxOpen ctx then s.posted.find? (fun d => d.ctx == ctx && d.type == t) else none

/-- NOP_FENCE_RELEASE (R315). -/
def execNopFenceRelease (ctx : Nat) (s : State) : Host.Outcome State Fault Refusal :=
  match s.postedOf ctx 0 with
  | some d => if s.earlierOpen d then .next s else .next (completeRead (s.unpost d) d 0 0 0)
  | none => .next s

/-- RECEIVE (R322): posted until a mirrored step uses it. -/
def execReceive (ctx : Nat) (s : State) : Host.Outcome State Fault Refusal :=
  .next (s.process ctx (fun t => decide (t = 8)) (fun u _ d => u.post d))

/-! ### Draft loads (R167 to R169) -/

/-- DRAFT_LOAD (R167, R169). -/
def execDraftLoad (ctx : Nat) (s : State) : Host.Outcome State Fault Refusal :=
  .next (s.process ctx (fun t => decide (t = 2)) (fun u _ d => u.post d)).startLoad

/-- The attributes of the traffic of Heddle's loads and copies for a context: control class, and privilege 0 (R262, R515). -/
def controlEv (cx : Ctx) : Ev :=
  { Ev.plain 0 0 none 0 with master := some (fnMaster cx.fn).toNat, ctx := some cx.id, cls := some 2, priv := some 0 }

/-! ### Placing a draft (R152, R153, R256, R258) -/

/-- The weights of a draft go to a die, over the links of Selvedge, into its GDDR6 and its Beam SRAM (R153, R270, R518). -/
def State.loadTraffic (s : State) (dr : Draft) (base : Nat) (e : Ev) (d : Weft) : State :=
  dr.weights.foldl (fun (u : State) j =>
    let p := dr.place j
    (dr.weightOn j d).foldl (fun (x : State) pc =>
      let y := x.linkBytes 0 (dieNo d) e pc.2.length
      if p.home = 1 then y.gddrBytes d true (base + p.homeOff + pc.1) pc.2.length e
      else y.beamBytes d true (p.sramAt d pc.1) pc.2.length e) u) s

/-- A draft is loaded into an entry (R167, R168); `e`: the class and master of its traffic. -/
def State.loadEntry (s : State) (i part : Nat) (dr : Draft) (e : Ev) : State :=
  let a := s.regionBase part .a dr.bounds.gddrA s.freshCtr
  let b := s.regionBase part .b dr.bounds.gddrB (s.freshCtr + 1)
  let s1 : State := { s with
    drafts := s.drafts ++ [{ index := i, partition := part, state := .loaded, draft := dr, baseA := a, baseB := b }]
    wa := s.wa.loadDraft dr a .a
    wb := s.wb.loadDraft dr b .b
    freshCtr := s.freshCtr + 2 }
  (s1.loadTraffic dr a e .a).loadTraffic dr b e .b

/-- DRAFT_LOAD_DONE (R167, R316): the checks pass and the draft is placed, or the first failed check is reported.  With determinism on its
GDDR6 writes wait while a step holds the array (R399, R414), and they wait for a Beam group in Cool or Rest to wake (R26, R386).  `failed`: a read of the image failed (R335). -/
def execDraftLoadDone (ctx : Nat) (image : List Byte) (failed : Bool) (s : State) : Host.Outcome State Fault Refusal :=
  match s.loadBusy, s.ctx? ctx with
  | some d, some cx =>
    if d.ctx = ctx ∧ d.type = 2 ∧ !cx.closing then
      let u := { s with loadBusy := none, drafts := s.drafts.filter (fun e => decide (e.state ≠ .loading)) }
      let s0 := hostRead u cx.fn.port (fnMaster cx.fn) ctx cx.lc (d.at' 8 8) image.length
      let placed := !failed && (draftResult u cx.part image (d.at' 16 4)).isNone
      let waits := placed && !s.beamsOpen || !failed && s.det && s.sched.running.isSome && (draftResult u cx.part image (d.at' 16 4)).isNone
      let r := match draftResult u cx.part image (d.at' 16 4), u.freeEntry cx.part with
        | none, some i => completeRead (s0.loadEntry i cx.part (imageDraft s.sec.draftKeys image) (controlEv cx)) d 0 0 i
        | none, none => completeRead s0 d 0x13 0x0011 0
        | some e, _ => completeRead s0 d (if e = 2 then 0x11 else 0x13) e 0
      if waits then .next s.wakeBeams else .next (if failed then s0.hostReadError cx d (d.at' 8 8) else r).startLoad
    else .next s
  | _, _ => .next s

/-! ### Unloading (R170) -/

/-- The entry is loaded for a partition (check 0x004B). -/
def State.loadedFor (s : State) (i p : Nat) : Bool :=
  match s.entry? i with
  | some e => decide (e.state = .loaded) && e.partition == p
  | none => false

/-- DRAFT_UNLOAD (R170): a failed entry can be unloaded too (R265). -/
def execDraftUnload (ctx : Nat) (s : State) : Host.Outcome State Fault Refusal :=
  .next (s.process ctx (fun t => decide (t = 3)) (fun u cx d =>
    let i := d.at' 2 1
    let failed := match u.entry? i with
      | some e => decide (e.state = .failed) && e.partition == cx.part
      | none => false
    if !(u.loadedFor i cx.part || failed) then completeRead (u.takeRead d) d 0x13 0x4B 0
    else ({ u.post d with drafts := u.drafts.map (fun (e : Entry) => if e.index = i then { e with state := .unloading, lost := failed } else e) }))).startLoad

/-- Slots that no draft but one and no recipe names are emptied (R170, R221). -/
def State.dropSlots (s : State) (dr : Draft) (rest : List Entry) : State :=
  let keepCb := fun (c : Nat × Codebook) => !dr.usesCodebook c.1 || rest.any (fun e => e.draft.usesCodebook c.1)
    || s.recipes.any (fun r => r.recipe.codebook == c.1)
  let keepCurve := fun (c : Nat × Curve) => !dr.usesCurve c.1 || rest.any (fun e => e.draft.usesCurve c.1)
  let f := fun (w : WeftDie) => { w with codebooks := w.codebooks.filter keepCb, curves := w.curves.filter keepCurve }
  { s with wa := f s.wa, wb := f s.wb }

/-- An entry is freed with its memory and slots, and the κ of a draft that no entry holds any more goes (R170, R153; log entry 141). -/
def State.freeDraft (s : State) (e : Entry) : State :=
  let rest := s.drafts.filter (fun x => x.index != e.index)
  let s1 := ({ s with drafts := rest }.dropSlots e.draft rest).forgetEntry e.index
  { s1.wipeEntry e with
    kappas := s1.kappas.filter (fun k => k.1.2.1 != e.draft.digest.toNat || rest.any (fun x => decide (x.draft.digest = e.draft.digest))) }

/-- A step against an entry that was read before a descriptor is not yet completed (R170). -/
def State.entryBusy (s : State) (i seq : Nat) : Bool :=
  s.steps.any (fun t => t.entry == i && decide (t.id < seq))
    || s.readQ.any (fun d => d.type == 1 && d.at' 2 1 == i && decide (d.seq < seq))

/-- DRAFT_UNLOAD_DONE (R170, R316). -/
def execDraftUnloadDone (ctx : Nat) (s : State) : Host.Outcome State Fault Refusal :=
  match s.loadBusy with
  | some d =>
    let i := d.at' 2 1
    if d.ctx = ctx ∧ d.type = 3 ∧ s.ctxOpen ctx ∧ !s.entryBusy i d.seq ∧ s.beamsOpen then
      let s0 := { s with loadBusy := none }
      let s1 := match s0.entry? i with
        | some e => if e.state = .unloading then s0.freeDraft e else s0
        | none => s0
      .next (completeRead s1 d 0 0 i).startLoad
    else .next s
  | none => .next s

/-! ### Recipes (R220, R221) -/

/-- A recipe slot is held by the other partition. -/
def State.recipeOther (s : State) (slot p : Nat) : Bool :=
  match s.recipe? slot with
  | some r => r.partition != p
  | none => false

/-- RECIPE_LOAD (R220, R316); `failed`: a read of the image failed (R335). -/
def execRecipeLoad (ctx : Nat) (image : List Byte) (failed : Bool) (s : State) : Host.Outcome State Fault Refusal :=
  .next (s.process ctx (fun t => decide (t = 4)) (fun u cx d =>
    let slot := d.at' 2 2 % 64
    let u1 := u.takeRead d
    if u.recipeOther slot cx.part then completeRead u1 d 0x13 0x4B 0
    else
      let u2 := hostRead u1 cx.fn.port (fnMaster cx.fn) ctx cx.lc (d.at' 8 8) image.length
      if failed then u2.hostReadError cx d (d.at' 8 8)
      else match u.recipeResult slot image (d.at' 16 4) with
      | some e => completeRead u2 d 0x13 e 0
      | none =>
        let r : RecipeSlot := { slot := slot, partition := cx.part, recipe := parseRecipe image, digest := sha256 image, bytes := image.length }
        completeRead { u2 with recipes := u2.recipes.filter (fun x => x.slot != slot) ++ [r] } d 0 0 0))

/-- RECIPE_UNLOAD (R221, R316). -/
def execRecipeUnload (ctx : Nat) (s : State) : Host.Outcome State Fault Refusal :=
  .next (s.process ctx (fun t => decide (t = 5)) (fun u cx d =>
    let slot := d.at' 2 2 % 64
    let u1 := u.takeRead d
    if (u.recipe? slot).isNone || u.recipeOther slot cx.part then completeRead u1 d 0x13 0x4B 0
    else if u.recipeBound slot then completeRead u1 d 0x13 0x27 0
    else completeRead { u1 with recipes := u1.recipes.filter (fun x => x.slot != slot) } d 0 0 0))

/-! ### Injection (R233 to R235) -/

/-- A container's header agrees with a recipe (R233, R235): magic, version, kind, compression, dimensions, data type and length. -/
def headerOk (h : List Byte) (rec : Recipe) : Bool :=
  leAt h 0 4 == 0x4D524650 && leAt h 4 2 == 1 && leAt h 6 1 == b2n rec.points && leAt h 20 1 == rec.dataType && leAt h 24 4 != 0
    && (if rec.points then leAt h 7 1 == 0 && leAt h 16 2 == 0 && leAt h 18 2 != 0
      else decide (leAt h 7 1 ≤ 1) && leAt h 16 2 == rec.wIn && leAt h 18 2 == rec.hIn)

/-- A container that R235 rejects: wider or higher than the recipe's image. -/
def headerRejected (h : List Byte) (rec : Recipe) : Bool := !rec.points && (decide (rec.wIn < leAt h 16 2) || decide (rec.hIn < leAt h 18 2))

/-- What an INJECT notes of the sample it began: the batch counter, all ones when it is substituted already, 0 when it is dropped whole. -/
def State.injectMark (s : State) (k : Nat) : Nat :=
  match (s.slot k).phase with
  | .open sm => sm.counter
  | .late => 2 ^ 64 - 1
  | _ => 0

/-- INJECT (R233, R235, R316): once Creel has worked on what the slot received before, the sample starts with the container's timestamp, and its sequence number is recorded; a container that R235
rejects completes at once, and so does one whose header could not be read (`failed`, R335). -/
def execInject (ctx : Nat) (header : List Byte) (failed : Bool) (s : State) : Host.Outcome State Fault Refusal :=
  .next (s.process ctx (fun t => decide (t = 6)) (fun u cx d =>
    match u.injSlot cx.fn.port (d.at' 2 2) with
    | none => completeRead (u.takeRead d) d 0x13 0x4B 0
    | some k =>
      match u.slotRec k with
      | none => completeRead (u.takeRead d) d 0x13 0x4B 0
      | some rec =>
        if u.batchOwner (u.slotBatch k) ≠ cx.part then completeRead (u.takeRead d) d 0x13 0x4B 0
        else if failed then (u.takeRead d).hostReadError cx d (d.at' 8 8)
        else if headerRejected header rec then completeRead (u.takeRead d) d 0x12 0 0
        else if !u.creelOn then u
        else
          let u0 := ((u.takeRead d).drainInput k).modSlot k (fun x => { x with sequence := BitVec.ofNat 32 (leAt header 28 4) })
          let u1 := u0.startSample k (BitVec.ofNat 64 (leAt header 8 8)) 0
          let c := u1.injectMark k
          let u2 := if headerOk header rec then u1 else u1.corruptSample k
          { u2 with posted := u2.posted ++ [{ d with bytes := d.bytes ++ sliceB header 0 64 ++ leBytes 8 c }] }))

/-- INJECT_READ_DONE (R316, R235): Creel has read the whole container, whose payload goes to the slot's input queue, and the INJECT completes
OK; or a read of it failed (R335), and what the sample got does not count: it is corrupt. -/
def execInjectReadDone (ctx : Nat) (payload : List Byte) (failed : Bool) (checks : List RowCheck) (waits : Bool) (s : State) : Host.Outcome State Fault Refusal :=
  match s.postedOf ctx 6, s.ctx? ctx with
  | some d, some cx =>
    if !s.creelOn then .next s
    else
      let s1 := hostRead (s.unpost d) cx.fn.port (fnMaster cx.fn) ctx cx.lc (d.at' 8 8) (64 + payload.length)
      let s2 := match s1.injSlot cx.fn.port (d.at' 2 2) with
        | some k =>
          if (s1.slotRec k).isNone then s1
          else if failed then s1.stopInject cx d
          else s1.receive k waits (.inject d.bytes payload checks)
        | none => s1
      .next (if failed then s2.hostReadError cx d (d.at' 8 8) else completeRead s2 d 0 0 0)
  | _, _ => .next s

/-! ### Transfers (R316) -/

/-- TRANSFER (R316): the tensor exists, is no weight, and holds the range. -/
def execTransfer (ctx : Nat) (s : State) : Host.Outcome State Fault Refusal :=
  .next (s.process ctx (fun t => decide (t = 7)) (fun u cx d =>
    let i := d.at' 2 1
    let j := d.at' 20 2
    let ok := match u.entry? i with
      | some e => u.loadedFor i cx.part && decide (j < e.draft.tensors.length) && !(e.draft.tensor j).weight
          && decide (d.at' 24 4 + d.at' 16 4 ≤ (e.draft.tensor j).bytes)
      | none => false
    if ok then (u.post d).wakeBeams else completeRead (u.takeRead d) d 0x13 0x4B 0))

/-- The die whose copy holds byte `off` of tensor j for a transfer (R316). -/
def Draft.byteDie (dr : Draft) (j off : Nat) : Weft :=
  let t := dr.tensor j
  let p := dr.place j
  let row := if off < t.scaleOff || t.heldB16 || t.type != 0 then off / max 1 t.pitch else off - t.scaleOff
  if p.dies = 1 then (if row < p.splitRow then .a else .b) else if p.dies = 3 then .b else .a

/-- Byte `off` of tensor j of an entry in true form, from the die and the level that its placement names (R316).  A row split or a tensor on
one die belongs to a Whole draft, which complements nothing (R47, R258), and host memory holds true form (log entry 131). -/
def State.homeByte (s : State) (e : Entry) (cx : Ctx) (j off : Nat) : Byte :=
  let p := e.draft.place j
  let d := e.draft.byteDie j off
  if p.home = 0 then (s.weft d).beam.read (p.sramAt d off)
  else if p.home = 1 then (s.weft d).gddr.read (e.base d + p.homeOff + off)
  else (match cx.fn.port with | .hostA => s.hostMemA | .hostB => s.hostMemB).read (cx.spillAddr + p.homeOff + off)

end Machine

end Sys2Proof
end

