-- ==== Sys2Proof/Machine/Layers.lean ====
section
/-! DEFINITION. What an operation's end does to memory, digests, counts and watch slots (R53, R62, R66, R67, R123, R133 to R137, R257,
R408, R523 to R525), and uncorrectable errors (R265). -/

namespace Sys2Proof

namespace Machine

/-! ### Uncorrectable errors (R265) -/

/-- Who owns data (R265). -/
inductive Owner where
  | step (ctx : Nat)
  | batch (b counter : Nat)
  | entry (e : Nat)
  | nothing
deriving DecidableEq, Repr

/-- The context an error's capture names. -/
def ownerCtx (o : Owner) : Option Nat :=
  match o with
  | .step c => some c
  | .batch _ _ => none
  | .entry _ => none
  | .nothing => none

/-- The contexts whose begun steps satisfy a test. -/
def State.begunCtxs (s : State) (p : Step → Bool) : List Nat := ((s.steps.filter (fun t => t.stage.begun && p t)).map (fun t => t.ctx)).foldl addSet []

/-- The weights of an entry are lost (R265); one that unloads goes on unloading. -/
def Entry.lose (x : Entry) : Entry :=
  match x.state with
  | .loading => x
  | .loaded => { x with state := .failed }
  | .unloading => { x with lost := true }
  | .failed => x

/-- Every step that the lost data belongs to ends with ECC_FAIL; an instance or a draft table entry is marked (R265). -/
def State.eccOwner (s : State) (o : Owner) : State :=
  match o with
  | .step c => s.endCtx c 2
  | .batch b c => (s.endCtxs (s.begunCtxs (fun t => t.uses b c)) 2).modInst b c (fun i => { i with eccFail := true })
  | .entry e =>
    let s1 := s.endCtxs (s.begunCtxs (fun t => t.kept.isNone && t.entry == e)) 2
    { s1 with drafts := s1.drafts.map (fun (x : Entry) => if x.index = e then x.lose else x) }
  | .nothing => s

/-- A count of 16 bits stops at 0xFFFF. -/
def add16 (w : BitVec 16) (n : Nat) : BitVec 16 := BitVec.ofNat 16 (min 0xFFFF (w.toNat + n))

/-- The map of a die is the diverse one of R421: Weft B in Paired mode. -/
def State.diverse (s : State) (d : Weft) : Bool := decide (d = .b) && decide (s.mode = 0)

/-- Bank group, bank in the group and line in the bank of a Beam SRAM offset (R246, R421). -/
def State.bankOf (s : State) (d : Weft) (a : Nat) : Nat × Nat × Nat :=
  let g := bitsN a 25 23
  let b := bitsN a 11 6
  let l := bitsN a 22 12
  if s.diverse d then (7 - g, b ^^^ bitsN a 17 12, l) else (g, b, l)

/-- The bank group of a Beam SRAM offset. -/
def State.bankGroup (s : State) (d : Weft) (a : Nat) : Nat := (s.bankOf d a).1

/-- The offset at which a line of a bank starts: the inverse of `bankOf`. -/
def State.lineAddr (s : State) (d : Weft) (group bank line : Nat) : Nat :=
  if s.diverse d then (7 - group % 8) * 2 ^ 23 + line % 2048 * 4096 + (bank % 64 ^^^ line % 64) * 64
  else group % 8 * 2 ^ 23 + line % 2048 * 4096 + bank % 64 * 64

/-- A corrected single-bit error of a die's Beam SRAM: event 0x043 of its bank group, always-on counter 4 (R248, R518, R519). -/
def beamCorrected (d : Weft) (s : State) (a : Nat) : State :=
  bumpAon (countEv s { Ev.plain (dieNo d) 0x043 (some (s.bankGroup d a)) 1 with addr := some (0, a) }) (dieNo d) 4 1

/-- A GDDR6 line whose inline ECC corrected an error: its channel's count, event 0x047, always-on counter 6 (R250, R251, R518, R519). -/
def gddrCorrected (d : Weft) (s : State) (a : Nat) : State :=
  let s1 := s.modWeft d (fun w => { w with chans := modAt w.chans (gddrChan a) (fun (c : Chan) => { c with corrected := add16 c.corrected 1 }) })
  bumpAon (countEv s1 { Ev.plain (dieNo d) 0x047 (some (gddrChan a)) 1 with addr := some (1, a) }) (dieNo d) 6 1

/-- An address lies in a range. -/
def covers (start len a : Nat) : Bool := decide (start ≤ a) && decide (a < start + len)

/-- The open batch instance whose buffer holds a Beam SRAM offset of a die: its index and counter (R237, R241). -/
def State.instAt (s : State) (d : Weft) (a : Nat) : Option (Nat × Nat) :=
  (List.range 32).findSome? (fun b =>
    ((s.batch b).instances.find? (fun i => !i.released && covers (i.base d) (i.tensorBytes + 576) a)).map (fun i => (b, i.counter)))

/-- A tensor of a step's draft, a weight or none, holds a Beam SRAM offset of a die. -/
def State.stepHolds (s : State) (t : Step) (d : Weft) (weight : Bool) (a : Nat) : Bool :=
  let e := s.env t d
  (List.range e.draft.tensors.length).any (fun j => (e.draft.tensor j).weight == weight
    && (e.regionOn d j).any (fun r => covers r.2.1 r.2.2 a))

/-- The owner of a Beam SRAM line (R249, R265): an open batch instance, the step that holds the array, or a loaded draft's resident
weights (log entry 127). -/
def State.beamOwner (s : State) (d : Weft) (a : Nat) : Owner :=
  let resident := match s.drafts.find? (fun e => decide (e.state ≠ .loading) && e.draft.weights.any (fun j =>
      decide ((e.draft.place j).parts = 0) && (e.draft.weightRoom j d).any (fun r => covers r.1 r.2 a))) with
    | some e => Owner.entry e.index
    | none => .nothing
  match s.instAt d a, s.sched.running.bind s.step? with
  | some x, _ => .batch x.1 x.2
  | none, none => resident
  | none, some t =>
    if s.stepHolds t d true a then (if t.kept.isSome then .step t.ctx else .entry t.entry)
    else if s.stepHolds t d false a then .step t.ctx
    else resident

/-- The owner of a GDDR6 line (R258, R260, R265): the step whose save area holds it, the step that holds the array for a run-time tensor
of its draft's region, or the draft for the rest of the region (log entry 127). -/
def State.gddrOwner (s : State) (d : Weft) (a : Nat) : Owner :=
  match s.ctxs.find? (fun c => covers (c.saveAt d) (c.save64k * 65536) a) with
  | some c => if (s.begunStep c.id).any (fun t => t.saved.isSome || decide (t.stage = .saving)) then .step c.id else .nothing
  | none =>
    match s.drafts.find? (fun e => decide (e.state ≠ .loading) && covers (e.base d) (e.region d) a) with
    | none => .nothing
    | some e =>
      let runTime := (List.range e.draft.tensors.length).any (fun j => !(e.draft.tensor j).weight && decide ((e.draft.place j).home = 1)
        && covers (e.base d + (e.draft.place j).homeOff) (e.draft.tensor j).bytes a)
      if !runTime then .entry e.index
      else match s.sched.running.bind s.step? with
        | some t => if t.entry = e.index then .step t.ctx else .nothing
        | none => .nothing

/-- The step whose work a pair's data memory serves: that of the Reed operation which moves it, else of the pair's program. -/
def State.pairStep (s : State) (n : Nat) : Option Step :=
  match ((s.weft (weftOf n)).reedRun.bind (fun o => o.members.find? (fun m => m.pair == n))).bind (fun m => s.step? m.step) with
  | some t => some t
  | none => ((s.pair? n).bind (fun p => p.run)).bind (fun r => s.step? r.step)

/-- A program fault that a queued operation meets in a pair's data (R115): the capture holds the pair's program counter when the operation
ends, and the program that the pair runs then, 0xFFFF where it runs none (DESIGN CHOICE, log entry 123). -/
def State.dataFault (s : State) (n : Nat) (p : Pair) (t : Step) (status : Nat) : State :=
  (s.endCtx t.ctx status).raise (weftSrc (weftOf n) (0x14 + n % 4))
    (cap (some t.ctx) (pairMaster n) 0 p.pc ((p.run.map (fun r => r.program)).getD 0xFFFF))

/-- The owner of lost data, its address at its level and the level's detail (R461). -/
def State.lost (s : State) (x : DataAt) : Owner × Nat × Nat :=
  match x with
  | .beam d a => (s.beamOwner d a, a, 0)
  | .gddr d a => (s.gddrOwner d a, a, 1)
  | .host c a => (.step c, a, 2)
  | .pair n a => (((s.pairStep n).map (fun t => Owner.step t.ctx)).getD .nothing, a, 0)

/-- Data is lost: its owner's steps end, and a source is raised with its capture (R265, R460); `work`: the context whose work met the
error, where the data has no step for its owner. -/
def State.lostAs (s : State) (h : EccHit) (source access : Nat) (work : Option Nat) : State :=
  let o := s.lost h.place
  (s.eccOwner o.1).raise source (cap ((ownerCtx o.1).or work) h.master access (BitVec.ofNat 64 o.2.1) o.2.2)

/-- An uncorrectable error that a read meets (R115, R265, R519): the source of its level, and the level's always-on counter. -/
def State.dataLost (s : State) (h : EccHit) (work : Option Nat) : State :=
  match h.place with
  | .beam d _ => bumpAon (s.lostAs h (weftSrc d 0x20) 1 work) (dieNo d) 5 1
  | .gddr d _ => bumpAon (s.lostAs h (weftSrc d 0x22) 1 work) (dieNo d) 7 1
  | .host c _ => s.lostAs h (0x1E + ((s.ctx? c).map Ctx.part).getD 0) 1 work
  | .pair n _ =>
    match s.pairStep n, s.pair? n with
    | some t, some p => s.dataFault n p t 2
    | _, _ => s

/-- A corrected error is counted where its level counts it (R248, R251). -/
def dataCorrected (s : State) (x : DataAt) : State :=
  match x with
  | .beam d a => beamCorrected d s a
  | .gddr d a => gddrCorrected d s a
  | .host _ _ => s
  | .pair _ _ => s

/-- What the checks on reads find takes effect (R248, R251, R265). -/
def State.readChecks (s : State) (c : ReadChecks) (work : Option Nat) : State :=
  let s1 := c.fixed.foldl dataCorrected s
  match c.hit with
  | none => s1
  | some h => s1.dataLost h work

/-! ### Saturation counts and drift (R66, R67) -/

/-- A die's count of tensor j under a key (the tensor's own, or `codedMark`) grows; when its count passes the threshold, its
calibration-drift source is raised once. -/
def State.addSatsAt (s : State) (id : Nat) (d : Weft) (key j n : Nat) : State :=
  match s.step? id with
  | none => s
  | some t =>
    let dr := s.stepDraft t
    let x := dr.tensor j
    let s1 := s.modStep id (fun u => u.modWork d (fun w => { w with sats := insertN w.sats key (satAdd 32 ((lookupN w.sats key).getD 0) n) }))
    let after := ((s1.step? id).map (fun u => u.driftCount dr d j)).getD 0
    if x.driftEnable && decide (t.driftCount dr d j ≤ x.driftThreshold) && decide (x.driftThreshold < after) then
      s1.raise (weftSrc d 0x25) (cap (some t.ctx) noMaster 0 t.counter j)
    else s1

/-- What a die's units saturate when they write tensor j (R66, R67). -/
def State.addSats (s : State) (id : Nat) (d : Weft) (j n : Nat) : State := s.addSatsAt id d j j n

/-- Rows of a first-pass tensor that a die's consumers have coded since they were written (R62). -/
def DieWork.codedOf (w : DieWork) (j : Nat) : List Nat := (lookupN w.codedRows j).getD []

/-- Rows of a first-pass tensor are coded by a consumer: the saturations of a row count once for each writing of it on each die, and once
for both dies of a Whole draft (R62, R64, R66, R70; log entry 35). -/
def State.firstPassInput (s : State) (id : Nat) (d : Weft) (e : Env) (j : Nat) (rows : List Nat) : State :=
  match s.step? id with
  | none => s
  | some t =>
    if !(e.draft.tensor j).takesFirstPass then s
    else
      let seen := fun (x : Weft) (r : Nat) => ((t.work x).codedOf j).contains r
      let new := rows.filter (fun r => !seen d r && !(e.draft.whole && seen (otherDie d) r))
      (s.addSatsAt id d (codedMark j) j (e.firstPassSats j new)).modStep id (fun u => u.modWork d (fun w =>
        { w with codedRows := insertN w.codedRows j (new.foldl addSet (w.codedOf j)) }))

/-- Rows of a first-pass tensor are written anew: the next consumer codes them again (R62, R203). -/
def State.rewritten (s : State) (id : Nat) (d : Weft) (e : Env) (j : Nat) (rows : List Nat) : State :=
  if !(e.draft.tensor j).takesFirstPass then s
  else
    let f := fun (w : DieWork) => { w with codedRows := insertN w.codedRows j ((w.codedOf j).filter (fun r => !rows.contains r)) }
    s.modStep id (fun u => if e.draft.whole then (u.modWork .a f).modWork .b f else u.modWork d f)

/-- The words with exponent 255 in the rows of a first-pass input that a layer reads on a die count for the layer's output (R53), each row once
for each layer and die. -/
def State.firstPassWords (s : State) (id : Nat) (d : Weft) (e : Env) (out j : Nat) (rows : List Nat) : State :=
  let n := e.firstPassReads j rows
  if n = 0 then s else s.addSats id d out n

/-- The records that a step's top-k layers wrote, as result packing counts them: in a Whole draft on whichever die ran them (R134, R207). -/
def Step.writtenOn (t : Step) (e : Env) : List (Nat × Nat) :=
  if e.draft.whole then t.workA.written ++ t.workB.written else (t.work e.die).written

/-- The tensors a layer reads. -/
def Draft.inputs (d : Draft) (l : Layer) : List Nat :=
  if l.op = 0x16 then d.resultTensors else [l.in0, l.in1, l.in2].filter (fun j => decide (j < d.tensors.length))

/-! ### Tensor watch (R523 to R526) -/

/-- A watch slot's results. -/
def State.watch (s : State) (w : Nat) : Watch :=
  (lookupN s.ctr.watch w).getD
    { seq := 0, minCode := 0, maxCode := 0, step := 0, digest := 0, satCount := 0, zeroCount := 0, zeroRows := 0, hist := List.replicate 16 0 }

/-- The watch slot is enabled for a context, entry and tensor. -/
def State.watches (s : State) (w ctx entry j : Nat) : Bool :=
  let c := s.reg (oWatchCfg w)
  bitW c 20 && fld c 11 0 == ctx && fld c 19 12 == entry && fld (s.reg (oWatchTensor w)) 15 0 == j

/-- The rows of its output that a layer writes, over both dies. -/
def Env.writtenRows (e : Env) (l : Layer) : List Nat :=
  if l.op = 0x12 then (e.scatter l).rows.map (fun r => r.row) else List.range (e.draft.tensor l.out).rows

/-- The statistics of the rows a layer wrote (R524). -/
def Env.stats (e : Env) (l : Layer) (seq : Word) (digest sats : Nat) : Watch :=
  let t := e.draft.tensor l.out
  let rows := e.writtenRows l
  let base : Watch := { seq := seq, minCode := 0, maxCode := 0, step := e.counter, digest := digest, satCount := 0, zeroCount := 0,
                        zeroRows := 0, hist := List.replicate 16 0 }
  let lim := fun (n : Nat) => min n 0xFFFFFFFF
  if t.heldB16 then
    let zeros := (rows.flatMap (e.words l.out)).filter (fun w => bitsN w 14 7 == 0)
    { base with minCode := 0xFF, maxCode := 0xFF, satCount := lim sats, zeroCount := lim zeros.length }
  else if t.type = 0 then
    let rs := rows.map (e.held l.out)
    let codes := rs.flatMap (fun r => r.2)
    let z := cbZero (e.cb l.out)
    let zeros := rs.foldl (fun a r => a + (if r.1 = 0 then r.2.length else (r.2.filter (fun c => c == z)).length)) 0
    { base with
      minCode := codes.foldl min (codes.headD 0)
      maxCode := codes.foldl max 0
      satCount := lim sats
      zeroCount := lim zeros
      zeroRows := lim (rs.filter (fun r => r.1 == 0)).length
      hist := (List.range 16).map (fun c => lim (codes.filter (fun x => x == c)).length) }
  else base

/-- A layer of a step completes: every slot that watches its output publishes (R523, R525).  Of a Paired step Weft A publishes, or the
survivor; of a Whole one the die that completes the layer. -/
def State.publish (s : State) (id : Nat) (d : Weft) (l : Nat) : State :=
  match s.step? id with
  | none => s
  | some t =>
    let dr := s.stepDraft t
    let speaks := if dr.whole then !dr.addsUp l || t.workA.layersDone.contains l && t.workB.layersDone.contains l
      else d == .a || !t.onA
    let lay := dr.layer l
    if !speaks then s
    else (List.range 16).foldl (fun u w =>
      if u.watches w t.ctx t.entry lay.out then
        let v := (u.env t d).stats lay ((u.watch w).seq + 2) ((t.layerDigest dr l).getD 0) (t.satCount dr lay.out)
        { u with ctr := { u.ctr with watch := insertN u.ctr.watch w v } }
      else u) s

/-! ### The effect of a layer on a die -/

/-- A layer of a step is done on a die with a digest (R135, R408): Heddle records it, and watch slots publish. -/
def State.layerDone (s : State) (id : Nat) (d : Weft) (l digest : Nat) : State :=
  (s.modStep id (fun u => u.modWork d (fun w => { w with layersDone := addSet w.layersDone l, digests := insertN w.digests l digest }))).publish id d l

/-- A layer runs for a step on a die: an array or Reed layer, argmax, top-k, or result packing, which also writes the packed set to its
raw output (R174).  `us`: the operation's undetected errors (R107). -/
def State.layerEffect (s : State) (id : Nat) (d : Weft) (l : Nat) (us : List Upset) : State :=
  match s.step? id with
  | none => s
  | some t =>
    let e := { s.env t d with upsets := us.filter (fun u => u.step == id) }
    let lay := e.draft.layer l
    let ins := e.draft.inputs lay
    let s0 := (ins.foldl addSet []).foldl (fun u j =>
      (u.firstPassInput id d e j (e.readRows lay j)).firstPassWords id d e lay.out j (e.readRows lay j)) s
    if lay.op = 0x16 then
      let dig := t.digest e
      let set := e.resultSet (t.writtenOn e) (s.stepBatchTime t) dig
      ((s0.putMem (e.put d lay.out 0 set)).modStep id (fun u => u.modWork d (fun w => { w with set := some set }))).layerDone id d l dig
    else if lay.onFinish then
      let rs := if lay.op = 0x14 then e.argmax lay else e.topk lay
      let dig := (crc32c (rs.flatMap (fun r => r.2))).toNat
      let s1 := s0.putMem (e.putRecords lay rs)
      (s1.modStep id (fun u => u.modWork d (fun w => { w with written := insertN w.written l rs.length }))).layerDone id d l dig
    else
      let r := e.runLayer lay
      let s1 := (s0.putMem r.1.1).addSats id d lay.out r.1.2.2
      let s2 := if r.2 = 0 then s1 else countEv s1 (workEv (dieNo d) 0x021 none r.2 t)
      (s2.rewritten id d e lay.out ((e.layerRows lay).rows.map (fun x => x.row))).layerDone id d l r.1.2.1

/-! ### lm.dec and lm.enc (R123, R570) -/

/-- The binary32 words of a decoded row: exact values rounded to nearest even. -/
def Env.decodeRow (e : Env) (j r channels : Nat) : List Nat := ((e.vals j r).1.take channels).map (fun v => f32Bits (rne32 v).1)

/-- Rows decoded into the data memory of a pair.  It codes a first-pass tensor as any consumer does; words with exponent 255 count for the
tensor itself, since no layer reads them (log entry 116). -/
def State.runDec (s : State) (d : Weft) (m : OpMember) (j row count channels off : Nat) : State :=
  match s.step? m.step with
  | none => s
  | some t =>
    let e := s.env t d
    let bs := (List.range count).flatMap (fun i => (e.decodeRow j (row + i) channels).flatMap (leBytes 4))
    let rows := (List.range count).map (fun i => row + i)
    ((s.firstPassInput m.step d e j rows).firstPassWords m.step d e j j rows).modPair m.pair (fun p => { p with dmem := p.dmem.writeBytes off bs })

/-- One row of binary32 words coded into a tensor, with the saturations it counts (R59 to R66, R570).  A row that the other die of a Whole
draft holds is coded and counted here and written nowhere (R125; DESIGN CHOICE, log entry 154). -/
def Env.encodeRow (e : Env) (j r : Nat) (ws : List Nat) : Env × Nat :=
  let t := e.draft.tensor j
  let vs := ws.map f32Taken
  let infs := (vs.filter (fun v => v.2)).length
  let here := fun (x : Weft) => x == e.die
  if t.heldB16 then
    let b := b16Row (vs.map (fun v => v.1))
    (if here (e.rowDie j r) then e.putWords e.die j r b.1 else e, infs + b.2)
  else
    let c := codeRow (e.cb j) (e.kappa j) (e.dither j) r (vs.map (fun v => v.1))
    (if here (e.rowDie j r) then e.putCoded e.die j r c.1 c.2.1 else e, infs + c.2.2)

/-- Rows coded from the data memory of a pair; a NaN among them is a program fault and nothing is written. -/
def State.runEnc (s : State) (d : Weft) (m : OpMember) (j row count channels off : Nat) : State :=
  match s.step? m.step, s.pair? m.pair with
  | some t, some p =>
    let ws := fun (i : Nat) => (List.range channels).map (fun c => p.dmem.readLe (off + 4 * (i * channels + c)) 4)
    if (List.range count).any (fun i => (ws i).any f32IsNan) then
      s.dataFault m.pair p t 3
    else
      let x := (List.range count).foldl (fun (a : Env × Nat) i =>
        let y := a.1.encodeRow j (row + i) (ws i)
        (y.1, a.2 + y.2)) (s.env t d, 0)
      ((s.putMem x.1).addSats m.step d j x.2).rewritten m.step d x.1 j ((List.range count).map (fun i => row + i))
  | _, _ => s

/-! ### Stage and evict (R257, R260) -/

/-- The tensor that a placement record places. -/
def Draft.placed (dr : Draft) (p : Nat) : Tensor :=
  (dr.tensors.find? (fun t => t.placement == p)).getD Tensor.zero

/-- Bytes of a part: all of part_bytes but for the last. -/
def Draft.partLen (dr : Draft) (p part : Nat) : Nat :=
  let pl := dr.placements.getD p Placement.zero
  min pl.partBytes ((dr.placed p).bytes - part * pl.partBytes)

/-- Where part `part` lies in Beam SRAM of a die. -/
def Placement.partAt (pl : Placement) (d : Weft) (part : Nat) : Nat := pl.sramAt d (part * pl.partBytes)

/-- Host memory of a port. -/
def State.hostMem (s : State) (p : HostPort) : Memory := match p with | .hostA => s.hostMemA | .hostB => s.hostMemB

/-- Bytes of a placed tensor from an offset on, turned from the form in which a die stores them into true form or back (R47): its code
bytes complemented where that die's are. -/
def Env.turn (e : Env) (d : Weft) (j off : Nat) (bs : List Byte) : List Byte :=
  let t := e.draft.tensor j
  let n := t.rows * t.pitch - off
  if e.comp d j && t.type == 0 && !t.heldB16 then notCodes t.format (bs.take n) ++ bs.drop n else bs

/-- A part is copied from its home to Beam SRAM, or back, on the issuing die.  Host memory holds a spilled tensor in true form (DEDUCED, log
entry 131). -/
def State.copyPart (s : State) (d : Weft) (mem : OpMember) (p part : Nat) (out : Bool) : State :=
  match s.step? mem.step with
  | none => s
  | some t =>
    match s.stepEntry t, s.ctx? t.ctx with
    | some en, some cx =>
      let pl := en.draft.placements.getD p Placement.zero
      let n := en.draft.partLen p part
      let at' := pl.partAt d part
      let off := pl.homeOff + part * pl.partBytes
      let base := en.base d + off
      let spill := cx.spillAddr + off
      let turn := (s.env t d).turn d ((en.draft.tensors.findIdx? (fun x => x.placement == p)).getD 0) (part * pl.partBytes)
      let m := fnMaster cx.fn
      let host : Ev := { workEv (dieNo d) 0x049 none n t with master := some m.toNat }
      if pl.home = 1 then
        let s1 := s.modWeft d (fun w => if out then { w with gddr := w.gddr.writeBytes base (w.beam.readBytes at' n) }
          else { w with beam := w.beam.writeBytes at' (w.gddr.readBytes base n) })
        let e := { workEv (dieNo d) 0 none 0 t with master := some (pairMaster mem.pair).toNat }
        (s1.gddrBytes d out base n e).beamBytes d (!out) at' n e
      else if out then
        ((countEv (hostWrite s cx.fn.port m cx.id cx.lc spill (turn ((s.weft d).beam.readBytes at' n))) host).linkBytes (dieNo d) 0 host n).tracked
          (dieNo d) host
      else
        let s1 := hostRead s cx.fn.port m cx.id cx.lc spill n
        ((countEv (s1.modWeft d (fun w => { w with beam := w.beam.writeBytes at' (turn ((s.hostMem cx.fn.port).readBytes spill n)) })) host).linkBytes 0
          (dieNo d) host n).tracked (dieNo d) host
    | _, _ => s

end Machine

end Sys2Proof
end

