-- ==== Sys2Proof/Machine/Array.lean ====
section
/-! DEFINITION. The Loom engines: which tiles an engine runs, the weight blocks of its cubes, and the residue check (R74 to R79, R83,
R84, R90, R96, R98, R104 to R107, R420). -/

namespace Sys2Proof

namespace Machine

/-! ### Tiles and engines (R90, R96, R420) -/

/-- The engine of a die, by its local number, that R90 and R420 give tile j to; none for a tile of the other die. -/
def tileHome (d : Weft) (whole : Bool) (j : Nat) : Option Nat :=
  if whole then (if j / 4 = weftNo d then some (j % 4) else none)
  else some (match d with | .a => j % 4 | .b => 3 - j % 4)

/-- The engine of a die that runs tile j: its home, or the lowest-numbered one that takes work where that is disabled or in reset (R96, R474). -/
def State.tileEngine (s : State) (d : Weft) (whole : Bool) (j : Nat) : Option Nat :=
  (tileHome d whole j).bind (fun k =>
    if s.engineTakes (4 * weftNo d + k) then some k else (List.range 4).find? (fun i => s.engineTakes (4 * weftNo d + i)))

/-- The tiles an engine runs, in order: its own, then those of disabled engines (R96). -/
def State.tilesOf (s : State) (d : Weft) (whole : Bool) (k : Nat) : List Nat :=
  let js := (List.range 8).filter (fun j => (whole || decide (j < 4)) && s.tileEngine d whole j == some k)
  js.filter (fun j => tileHome d whole j == some k) ++ js.filter (fun j => tileHome d whole j != some k)

/-- Output rows of an operation (R100, R102, R191). -/
def Op.m (o : Op) (l : Layer) : Nat :=
  if 1 < l.batches then l.mb else o.members.foldl (fun a m => max a (m.base + m.rows)) o.rows

/-- The tile of output row p, channel n and pass of an operation of m rows (R90). -/
def Draft.tileOf (d : Draft) (l : Layer) (m p n pass : Nat) : Nat :=
  (p / max 1 (l.me m) * l.ns + n / max 1 l.nspan) * l.ks + pass / max 1 (ceilDiv (d.passes l) l.ks)

/-! ### The passes of a tile (R90) -/

/-- Passes, N-blocks and chunks of tile j. -/
structure TileSize where
  pass0 : Nat
  passes : Nat
  block0 : Nat
  blocks : Nat
  rows : Nat
deriving DecidableEq, Repr

/-- The ranges of tile j of an operation of m rows. -/
def Draft.tileSize (d : Draft) (l : Layer) (m j : Nat) : TileSize :=
  let kp := ceilDiv (d.passes l) l.ks
  let nb := l.nspan / 128
  let p0 := j % l.ks * kp
  let b0 := j / l.ks % l.ns * nb
  let r0 := j / (l.ns * l.ks) * l.me m
  { pass0 := p0, passes := min kp (d.passes l - p0), block0 := b0, blocks := min nb (ceilDiv l.n 128 - b0), rows := min (l.me m) (m - r0) }

/-- The chunks that an engine runs, in order: each with its tile; `desc`: the chunks of a tile descend on Weft B of a Paired step (R90,
R420). -/
def Draft.chunksOf (d : Draft) (l : Layer) (m : Nat) (desc : Bool) (tiles : List Nat) : List (Nat × Nat) :=
  tiles.flatMap (fun j =>
    let n := ceilDiv (d.tileSize l m j).rows (max 1 l.chunk)
    (List.range n).map (fun c => (j, if desc then n - 1 - c else c)))

/-- Passes that an engine streams for one chunk of a tile: every pass of every N-block (R90). -/
def TileSize.perChunk (t : TileSize) : Nat := t.blocks * t.passes

/-- The N-block and the pass at step i of an engine's chunks; `desc`: N-blocks descend on Weft B of a Paired step (R420). -/
def Draft.passAt (d : Draft) (l : Layer) (m : Nat) (desc : Bool) : List (Nat × Nat) → Nat → Option (Nat × Nat)
  | [], _ => none
  | x :: rest, i =>
    let t := d.tileSize l m x.1
    if i < t.perChunk then
      let b := i / max 1 t.passes
      some (t.block0 + (if desc then t.blocks - 1 - b else b), t.pass0 + i % max 1 t.passes)
    else d.passAt l m desc rest (i - t.perChunk)

/-- Loom clocks by which passes of fewer than eight position groups fall short of a shadow load (R84), for one tile. -/
def TileSize.short (t : TileSize) (l : Layer) : Nat :=
  let miss := fun (positions : Nat) => 8 - min 8 (ceilDiv positions 8)
  let mc := max 1 l.chunk
  t.blocks * t.passes * (t.rows / mc * miss mc + (if t.rows % mc = 0 then 0 else miss (t.rows % mc)))

/-! ### Weight blocks (R74, R75, R78, R79, R83) -/

/-- Codes along the reduction in one cube (R75). -/
def Draft.cubeDepth (d : Draft) (l : Layer) : Nat := kPerSegment (d.tensor l.in0).format (d.tensor l.in1).format / 8

/-- Where reduction position x of cube row r of a pass lies in the layer's reduction: its tap group and the channel in it; none for a
position that the feeder marks as empty (R78, R79). -/
def Env.position (e : Env) (l : Layer) (pass r x : Nat) : Option (Nat × Nat) :=
  let kc := e.draft.cubeDepth l
  let cg := e.tapChannels l
  let segs := max 1 (ceilDiv cg (8 * kc))
  let seg := 4 * pass + r / 8
  let c := seg % segs * (8 * kc) + r % 8 * kc + x
  if seg / segs < l.taps ∧ c < cg then some (seg / segs, c) else none

/-- The weight block of cube (r, c): eight channels of k_c codes in stored form, an empty position as code 0 (R74, R85). -/
def Env.block (e : Env) (l : Layer) (batch nblock pass r c : Nat) : List Nat :=
  let t := e.draft.tensor l.in1
  (List.range 8).flatMap (fun i =>
    let n := 128 * nblock + 8 * c + i
    let row := storeForm (e.comp e.die l.in1) t.format (e.coded l.in1 (batch * l.n + n)).2
    (List.range (e.draft.cubeDepth l)).map (fun x => match e.position l pass r x with
      | some (g, k) => if n < l.n then row.getD (g * e.tapChannels l + k) 0 else 0
      | none => 0))

/-- The blocks of a weight tile: those of the cubes that hold some position of some channel. -/
def Env.tile (e : Env) (l : Layer) (batch : Nat) (at' : Nat × Nat) : List (Nat × List Nat) :=
  (List.range 512).filterMap (fun i =>
    if 128 * at'.1 + 8 * (i % 16) < l.n ∧ (e.position l at'.2 (i / 16) 0).isSome then some (i, e.block l batch at'.1 at'.2 (i / 16) (i % 16))
    else none)

/-- An engine starts its tiles: its cubes hold the first tile, and the second is being loaded (R83).  The lanes and the drain-bank half of
the first chunk start at 0; the other half keeps what it holds (R91). -/
def Engine.begin (g : Engine) (o : Op) (tiles : List Nat) (first second : Option (List (Nat × List Nat))) (half : Nat) : Engine :=
  { op := some o, tiles := tiles, tag := 0, active := first.getD g.active, shadow := second.getD (if first.isSome then g.active else g.shadow),
    lanes := List.replicate 4096 0, residues := List.replicate 1024 0, drain0 := List.replicate half 0, drain1 := g.drain1 }

/-- What streaming its tiles leaves in an engine: how many passes, the blocks of the last pass and of the one before, the columns as the
last position group leaves them, and the two halves of the drain bank. -/
structure Streamed where
  count : Nat
  last : Option (List (Nat × List Nat))
  prev : Option (List (Nat × List Nat))
  columns : List (List Int × Nat)
  half0 : Option (List Rat)
  half1 : Option (List Rat)
deriving DecidableEq, Repr

/-- An engine has streamed its tiles: the last pass is active, the one before is the shadow; the lanes, the residue lanes and the halves of
the drain bank hold what the last passes and chunks left in them (R77, R83, R91; log entry 147). -/
def Engine.finish (g : Engine) (x : Streamed) : Engine :=
  { op := none, tiles := [], tag := x.count - 1, active := x.last.getD g.active, shadow := x.prev.getD g.shadow,
    lanes := x.columns.flatMap (fun c => c.1), residues := x.columns.map (fun c => c.2),
    drain0 := x.half0.getD g.drain0, drain1 := x.half1.getD g.drain1 }

/-- The layer of an operation with its first member's step. -/
def State.opLayer (s : State) (o : Op) : Option (Step × Layer) :=
  match o.kind, (o.members.head?).bind (fun m => s.step? m.step) with
  | .layer l, some t => some (t, (s.stepDraft t).layer l)
  | _, _ => none

/-- The tile that an engine streams in the i-th pass of its chunks (R90, R420). -/
def State.passTile (s : State) (d : Weft) (t : Step) (l : Layer) (o : Op) (chunks : List (Nat × Nat)) (i : Nat) : Option (List (Nat × List Nat)) :=
  let e := s.env t d
  (e.draft.passAt l (o.m l) (d == .b && !e.draft.whole) chunks i).map (e.tile l o.pass)

/-- The chunks of a die's engine in an operation. -/
def State.engineChunks (s : State) (d : Weft) (t : Step) (l : Layer) (o : Op) (tiles : List Nat) : List (Nat × Nat) :=
  (s.stepDraft t).chunksOf l (o.m l) (d == .b && !(s.stepDraft t).whole) tiles

/-- The engines of a die with an operation that starts: every one that takes work runs its tiles (R90, R94, R96). -/
def State.startEngines (s : State) (d : Weft) (o : Op) : List Engine :=
  (s.weft d).engines.zipIdx.map (fun x =>
    if !s.engineTakes (4 * weftNo d + x.2) then x.1
    else
      match s.opLayer o with
      | none => { x.1 with op := some o }
      | some (t, l) =>
        let tiles := s.tilesOf d (s.stepDraft t).whole x.2
        let pass := s.passTile d t l o (s.engineChunks d t l o tiles)
        x.1.begin o tiles (pass 0) (pass 1) (min 32768 (l.chunk * l.nspan)))

/-- The Loom clocks by which the passes of a die's engines fall short of their shadow loads in an operation: the longest shortfall
(R84, R86). -/
def State.weightShort (s : State) (d : Weft) (o : Op) : Nat :=
  match s.opLayer o with
  | none => 0
  | some (t, l) => (((s.weft d).engines.map (fun g =>
      (g.tiles.map (fun j => ((s.stepDraft t).tileSize l (o.m l) j).short l)).foldl (fun a b => a + b) 0))).foldl max 0

/-- The frozen clocks of an operation by cause.  WEIGHT covers at least the clocks by which its short passes miss their shadow loads,
which go on loading in the freezes of the other causes (R84, R87).  EXCHANGE needs a partial sum or a row max of another engine (R86, R92,
R93), BARRIER the other die.  A wait for a frozen other die of a Whole operation counts as EXCHANGE where rows or sums span the dies, else as
BARRIER (R88). -/
def State.freezesOf (s : State) (d : Weft) (o : Op) (f : Freezes) : List Nat :=
  match s.opLayer o with
  | none => [0, 0, 0, 0, 0]
  | some (t, l) =>
    let whole := (s.stepDraft t).whole
    let shares := decide (1 < l.ks) || decide (1 < l.ns) && !((s.stepDraft t).tensor l.out).heldB16
    let span := shares && decide (l.ns * l.ks = 8)
    let exch := (if shares then f.exchange else 0) + (if whole && span then f.other else 0)
    let barr := (if whole then f.barrier else 0) + (if whole && !span then f.other else 0)
    [f.feed, max f.weight (s.weightShort d o - (f.feed + f.drain + exch + barr)), f.drain, exch, barr]

/-! ### The residue check (R104 to R107) -/

/-- The predicted residue of a sum of products, from the residue tables of the two codebooks (R104). -/
def predicted (ca cw : Codebook) : List Nat → List Nat → Nat
  | a :: s, b :: t => (cbResidue ca a * cbResidue cw b + predicted ca cw s t) % 7
  | _, _ => 0

/-- The exact sum of the products of two lists of codes (R39, R48). -/
def exactSum (ca cw : Codebook) : List Nat → List Nat → Int
  | a :: s, b :: t => cbLevel ca a * cbLevel cw b + exactSum ca cw s t
  | _, _ => 0

/-- A sum that is off by `delta` differs from its predicted residue (R105). -/
def mismatch (ca cw : Codebook) (as ws : List Nat) (delta : Int) : Bool :=
  (exactSum ca cw as ws + delta) % 7 != (predicted ca cw as ws : Int)

/-- Codes of reduction positions [c, c + n) of tap group g: the input row's and the weight row's; none where the group is not
multiplied (R82). -/
def Env.operandCodes (e : Env) (l : Layer) (p n g c len : Nat) : Option (List Nat × List Nat) :=
  match (l.rowTaps p).getD g none with
  | none => none
  | some r =>
    let a := e.coded l.in0 r
    let cg := e.tapChannels l
    let k := min len (cg - c)
    if a.1 = 0 then none
    else some ((a.2.drop c).take k, ((e.coded l.in1 (l.wbase p + n)).2.drop (g * cg + c)).take k)

/-- A place in the array where an error strikes: tap group, first reduction channel, how many, pass, and the cube row that a mismatch
names (32 for a column check, R106). -/
structure Strike where
  group : Nat
  chan0 : Nat
  len : Nat
  pass : Nat
  cubeRow : Nat
deriving DecidableEq, Repr

/-- Where the 8-product sum of reduction position `pos` forms (R74, R79). -/
def Env.strikeCube (e : Env) (l : Layer) (pos : Nat) : Strike :=
  let kc := e.draft.cubeDepth l
  let cg := max 1 (e.tapChannels l)
  let segs := max 1 (ceilDiv cg (8 * kc))
  let c := pos % cg
  let seg := pos / cg * segs + c / (8 * kc)
  { group := pos / cg, chan0 := c / kc * kc, len := kc, pass := seg / 4, cubeRow := 8 * (seg % 4) + c % (8 * kc) / kc }

/-- Where the lane of segment `seg` of the reduction ends (R77, R105). -/
def Env.strikeLane (e : Env) (l : Layer) (seg : Nat) : Strike :=
  let kc := e.draft.cubeDepth l
  let segs := max 1 (ceilDiv (e.tapChannels l) (8 * kc))
  { group := seg / segs, chan0 := seg % segs * (8 * kc), len := 8 * kc, pass := seg / 4, cubeRow := 32 }

/-- The combined sum of tap group g, which the receiving drain checks under a K-split: that of the tile of pass range 0 (R81, R93, R105; log
entry 145). -/
def Env.strikeSum (e : Env) (l : Layer) (g : Nat) : Strike := { group := g, chan0 := 0, len := e.tapChannels l, pass := 0, cubeRow := 32 }

/-- What an error does: nothing where it strikes no product of this die; the engine, cube row and column that report it; or an upset
that goes undetected. -/
inductive Struck where
  | missed
  | reported (engine cubeRow column : Nat)
  | silent (u : Upset)
deriving DecidableEq, Repr

/-- An error of `delta` at channel n of the operation's row p, which is row r of a step's tensor (R105 to R107). -/
def State.strike (s : State) (d : Weft) (t : Step) (l : Layer) (o : Op) (p r n : Nat) (at' : Env → Strike) (delta : Int) : Struck :=
  let e := s.env t d
  let k := at' e
  match e.operandCodes l r n k.group k.chan0 k.len, s.tileEngine d e.draft.whole (e.draft.tileOf l (o.m l) p n k.pass) with
  | some (as, ws), some g =>
    if n < l.n ∧ k.group < l.taps then
      (if mismatch (e.cb l.in0) (e.cb l.in1) as ws delta then .reported (4 * weftNo d + g) k.cubeRow (n % 128 / 8)
       else .silent { step := t.id, row := r, chan := n, group := k.group, delta := delta })
    else .missed
  | _, _ => .missed

/-! ### What the columns and the drain bank hold (R74, R76, R77, R91, R105) -/

/-- The member that owns an output row of an operation (R102): none for the range of an absent member. -/
def rowOwner (ms : List OpMember) (r : Nat) : Option OpMember := ms.find? (fun m => decide (m.base ≤ r) && decide (r < m.base + m.rows))

/-- The step that owns an output row of an operation, and the row of its tensor (R102, R191). -/
def State.opRow (s : State) (o : Op) (l : Layer) (row : Nat) : Option (Step × Nat) :=
  (rowOwner o.members row).bind (fun m => (s.step? m.step).map (fun t => (t, if 1 < l.batches then o.pass * l.mb + row else row - m.base)))

/-- The codes that cube row r multiplies in a pass for an output row and channel (R74, R75, R79, R82). -/
def Env.cubeCodes (e : Env) (l : Layer) (p n pass r : Nat) : Option (List Nat × List Nat) :=
  (e.position l pass r 0).bind (fun x => e.operandCodes l p n x.1 x.2 (e.draft.cubeDepth l))

/-- The four sum lanes and the residue lane of an element as a pass leaves them: from the first cube row to the last, each cube adds its
sum to the lane of its own segment, passes the other three on, and adds its predicted residue to the residue lane (R77, R104, R105). -/
def Env.column (e : Env) (l : Layer) (p n pass : Nat) : List Int × Nat :=
  (List.range 32).foldl (fun a r => match e.cubeCodes l p n pass r with
    | none => a
    | some (as, ws) => (modAt a.1 (r / 8) (fun v => v + exactSum (e.cb l.in0) (e.cb l.in1) as ws),
        (a.2 + predicted (e.cb l.in0) (e.cb l.in1) as ws) % 7)) ([0, 0, 0, 0], 0)

/-- The output rows of chunk c of tile j: the first and how many. -/
def Draft.chunkRows (d : Draft) (l : Layer) (m : Nat) (x : Nat × Nat) : Nat × Nat :=
  let t := d.tileSize l m x.1
  (x.1 / (l.ns * l.ks) * l.me m + x.2 * l.chunk, min l.chunk (t.rows - x.2 * l.chunk))

/-- The columns of an engine after the last position group of a chunk's pass: 16 columns of 8 positions by 8 channels each (R74, R76). -/
def State.columnsOf (s : State) (d : Weft) (l : Layer) (o : Op) (rows : Nat × Nat) (at' : Nat × Nat) : List (List Int × Nat) :=
  (List.range 1024).map (fun i =>
    let row := rows.1 + (rows.2 - 1) / 8 * 8 + i / 8 % 8
    let n := 128 * at'.1 + 8 * (i / 64) + i % 8
    match s.opRow o l row with
    | some (t, r) => if row < rows.1 + rows.2 ∧ n < l.n then (s.env t d).column l r n at'.2 else ([0, 0, 0, 0], 0)
    | none => ([0, 0, 0, 0], 0))

/-- The exact element values that a drain-bank half holds after chunk x of a tile (R81, R91): at most 32,768, the last ones of a wider
chunk (log entry 147). -/
def State.halfOf (s : State) (d : Weft) (l : Layer) (o : Op) (m : Nat) (dr : Draft) (x : Nat × Nat) : List Rat :=
  let rows := dr.chunkRows l m x
  let n0 := 128 * (dr.tileSize l m x.1).block0
  let vs := (fromTo rows.1 rows.2).flatMap (fun row => (fromTo n0 (min l.nspan (l.n - n0))).map (fun n =>
    match s.opRow o l row with
    | some (t, r) => (({ s.env t d with upsets := o.upsets.filter (fun u => u.step == t.id) } : Env).tapElem l r n).1
    | none => 0))
  vs.drop (vs.length - 32768)

/-- What streaming its tiles leaves in an engine of a die.  Chunks use the two halves of the drain bank in turn (R91). -/
def State.streamed (s : State) (d : Weft) (t : Step) (l : Layer) (o : Op) (tiles : List Nat) : Streamed :=
  let dr := s.stepDraft t
  let m := o.m l
  let cs := s.engineChunks d t l o tiles
  let n := cs.foldl (fun a x => a + (dr.tileSize l m x.1).perChunk) 0
  let half := fun (k : Nat) => (cs[k]?).map (s.halfOf d l o m dr)
  let last := cs.length - 1
  let even := half (if last % 2 = 0 then last else last - 1)
  let odd := if last % 2 = 1 then half last else if last = 0 then none else half (last - 1)
  { count := n, last := s.passTile d t l o cs (n - 1), prev := if n < 2 then none else s.passTile d t l o cs (n - 2)
    columns := match cs.getLast?, dr.passAt l m (d == .b && !dr.whole) cs (n - 1) with
      | some x, some y => s.columnsOf d l o (dr.chunkRows l m x) y
      | _, _ => []
    half0 := even, half1 := odd }

/-- The engines of a die after the operation they run. -/
def State.endEngines (s : State) (d : Weft) (o : Op) : List Engine :=
  (s.weft d).engines.map (fun g =>
    match g.op, s.opLayer o with
    | some _, some (t, l) => g.finish (s.streamed d t l o g.tiles)
    | _, _ => { g with op := none, tiles := [] })

/-! ### Cube products (R82, R518) -/

/-- Units of 512 MAC that an engine multiplies in an operation: for each output row and N-block of its tiles, every cube row that holds some
position of a tap group that is multiplied, over 128 channels of k_c codes (R75, R78, R82; log entry 148). -/
def State.cubeProducts (s : State) (d : Weft) (t : Step) (l : Layer) (o : Op) (tiles : List Nat) : Nat :=
  let dr := s.stepDraft t
  tiles.foldl (fun a j =>
    let z := dr.tileSize l (o.m l) j
    let rows := fromTo (j / (l.ns * l.ks) * l.me (o.m l)) z.rows
    a + z.blocks * (rows.foldl (fun b row => match s.opRow o l row with
      | none => b
      | some (u, r) => b + ((fromTo z.pass0 z.passes).foldl (fun c pass =>
          c + ((List.range 32).filter (fun x => ((s.env u d).cubeCodes l r (128 * z.block0) pass x).isSome)).length) 0)) 0)
      * (dr.cubeDepth l / 4)) 0

/-! ### Accumulator saturations (R50) -/

/-- The A32 saturations of a member's rows in an operation on a die, by local engine.  Under a K-split the spec names no engine whose drain
closes the combined sum, and so counts its saturation: the model takes that of the tile of pass range 0 (DESIGN CHOICE, log entry 145). -/
def State.accSats (s : State) (d : Weft) (o : Op) (m : OpMember) (t : Step) (l : Layer) : List Nat :=
  let e := { s.env t d with upsets := o.upsets.filter (fun u => u.step == t.id) }
  let batch := if 1 < l.batches then o.pass * l.mb else 0
  let rows := if 1 < l.batches then l.mb else m.rows
  let all := (List.range rows).flatMap (fun r => (List.range l.n).map (fun n =>
    (s.tileEngine d e.draft.whole (e.draft.tileOf l (o.m l) (m.base + r) n 0), (e.tapElem l (batch + r) n).2)))
  (List.range 4).map (fun k => (all.filter (fun x => x.1 == some k)).foldl (fun a x => a + x.2) 0)

/-- Events 0x009 and always-on counter 13 of an operation that retires (R50, R518, R519). -/
def State.countAcc (s : State) (d : Weft) (o : Op) : State :=
  o.members.foldl (fun u m => match s.step? m.step, s.opLayer o with
    | some t, some (_, l) => (s.accSats d o m t l).zipIdx.foldl (fun v x =>
        bumpAon (countEv v (workEv (dieNo d) 0x009 (some x.2) x.1 t)) (dieNo d) 13 x.1) u
    | _, _ => u) s

end Machine

end Sys2Proof
end

