-- ==== Sys2Proof/Machine/RvVec.lean ====
section
/-! DEFINITION. The vector extension 1.0 with VLEN = 256 and ELEN = 64 (R110; log entry 12): configuration, loads and stores, integer,
fixed-point and floating-point arithmetic, reductions, masks and permutations.  Elements that the standard leaves to an agnostic policy,
orders of elements that it leaves open and unordered sums are free values (log entry 179). -/

namespace Sys2Proof

namespace Machine

/-! ### Configuration -/

/-- The vector configuration in force: element width in bits, LMUL in eighths, vl, vstart and the two policies. -/
structure VCfg where
  sew : Nat
  lm : Nat
  vl : Nat
  vstart : Nat
  vta : Bool
  vma : Bool
deriving DecidableEq, Repr

/-- LMUL in eighths from vlmul; 0 is reserved. -/
def lmOf (n : Nat) : Nat :=
  match n with
  | 0 => 8
  | 1 => 16
  | 2 => 32
  | 3 => 64
  | 5 => 1
  | 6 => 2
  | 7 => 4
  | _ => 0

/-- A vtype value is supported: no reserved bits, widths of 8 to 64 bits, and LMUL large enough for the width. -/
def vtypeOk (t : Nat) : Bool := decide (t < 256) && decide (bitsN t 5 3 ≤ 3) && decide (8 * 2 ^ bitsN t 5 3 ≤ 8 * lmOf (bitsN t 2 0))

/-- The largest vl of a width and an LMUL. -/
def vlmaxOf (sew lm : Nat) : Nat := 32 * lm / sew

/-- The configuration in force; none when vill is set. -/
def vcfg (v : VecCsr) : Option VCfg :=
  let t := v.vtype.toNat
  if vtypeOk t then
    some { sew := 8 * 2 ^ bitsN t 5 3, lm := lmOf (bitsN t 2 0), vl := v.vl.toNat, vstart := v.vstart.toNat, vta := bitN t 6, vma := bitN t 7 }
  else none

/-- Registers of a group. -/
def vregs (lm : Nat) : Nat := max 1 (lm / 8)

/-- Element i of n bits of the group that starts at a register; with n = 1, a mask bit. -/
def Pair.elem (p : Pair) (n base i : Nat) : Nat := (p.v.getD ((base + i * n / 256) % 32) 0).toNat / 2 ^ (i * n % 256) % 2 ^ n

/-- Write element i of n bits of a group. -/
def Pair.putElem (p : Pair) (n base i v : Nat) : Pair :=
  let r := (base + i * n / 256) % 32
  let o := i * n % 256
  let old := (p.v.getD r 0).toNat
  { p with v := p.v.set r (BitVec.ofNat 256 (old % 2 ^ o + v % 2 ^ n * 2 ^ o + old / 2 ^ (o + n) * 2 ^ (o + n))) }

/-- Flags of a vector instruction: fflags, and vxsat as 32. -/
def Pair.flagV (p : Pair) (n : FFlags) : Pair :=
  let q := p.flag (n % 32)
  if n < 32 then q else { q with vcsr := { q.vcsr with vxsat := true } }

/-- A vector instruction is done: vstart is 0. -/
def Pair.vdone (p : Pair) : Pair := { p with vcsr := { p.vcsr with vstart := 0 } }

/-- The free values that a vector instruction may draw. -/
abbrev vDraws : Nat := 1024

/-- An element that a policy leaves agnostic keeps its value or becomes all ones. -/
def RvIn.agn (c : RvIn) (on : Bool) (n i old : Nat) : Nat := if on && (Config.freeByte (c.k + i)).getLsbD 0 then 2 ^ n - 1 else old

/-- The elements of a destination group: those below `lo` stay, active ones below `hi` are computed, inactive ones and the tail follow
their policies. -/
def RvIn.vPut (c : RvIn) (g : VCfg) (q : Pair) (lo hi n base regs : Nat) (act : Nat → Bool) (f : Nat → Nat × FFlags) : Pair :=
  (List.range (regs * 256 / n)).foldl (fun u i =>
    if i < lo then u
    else if i < hi then
      (if act i then (u.putElem n base i (f i).1).flagV (f i).2 else u.putElem n base i (c.agn g.vma n i (u.elem n base i)))
    else u.putElem n base i (c.agn g.vta n i (u.elem n base i))) q

/-- The bits of a mask destination: as elements, but every tail bit is free. -/
def RvIn.vPutMask (c : RvIn) (g : VCfg) (q : Pair) (vd : Nat) (act : Nat → Bool) (f : Nat → Bool × FFlags) : Pair :=
  (List.range 256).foldl (fun u i =>
    if i < g.vstart then u
    else if i < g.vl then
      (if act i then (u.putElem 1 vd i (b2n (f i).1)).flagV (f i).2 else u.putElem 1 vd i (c.agn g.vma 1 i (u.elem 1 vd i)))
    else u.putElem 1 vd i ((Config.freeByte (c.k + i)).toNat % 2)) q

/-- The pair after a vector instruction that writes only vector registers. -/
def RvIn.vOut (g : VCfg) (c : RvIn) (q : Pair) : Option RvOut :=
  some { pair := if g.vl ≤ g.vstart then c.on.vdone else q.vdone, draws := vDraws }

/-- A source group of a vector instruction: register, element bits, LMUL in eighths. -/
abbrev VSrc := Nat × Nat × Nat

/-- A destination may lie as it does beside a source: apart; on it, with one width; on its lowest part, if narrower; on the highest part
that a wider destination has, if the source has a whole register. -/
def vApart (vd dn dlm : Nat) (s : VSrc) : Bool :=
  let d := vregs dlm
  let k := vregs s.2.2
  decide (vd + d ≤ s.1) || decide (s.1 + k ≤ vd) || decide (dn = s.2.1) || (decide (dn < s.2.1) && decide (vd = s.1))
    || (decide (s.2.1 < dn) && decide (8 ≤ s.2.2) && decide (s.1 + k = vd + d))

/-- Groups are aligned and of a legal size, and the destination of a masked instruction is not v0. -/
def vLegal (vm : Bool) (vd dn dlm : Nat) (ss : List VSrc) : Bool :=
  decide (1 ≤ dlm) && decide (dlm ≤ 64) && decide (dn ≤ 64) && decide (vd % vregs dlm = 0) && (vm || decide (vd ≠ 0))
    && ss.all (fun s => decide (1 ≤ s.2.2) && decide (s.2.2 ≤ 64) && decide (8 ≤ s.2.1) && decide (s.2.1 ≤ 64)
      && decide (s.1 % vregs s.2.2 = 0) && vApart vd dn dlm s)

/-- An element is active under a mask. -/
def RvIn.act (c : RvIn) (vm : Bool) (i : Nat) : Bool := vm || c.p.elem 1 0 i == 1

/-- The second operand of a vector instruction: a group, or a value for every element. -/
inductive VOpd where
  | vec (r : Nat)
  | val (v : Nat)
deriving DecidableEq, Repr

/-- The operand as a source group. -/
def VOpd.src (o : VOpd) (n lm : Nat) : List VSrc := match o with | .vec r => [(r, n, lm)] | .val _ => []

/-- Element i of the operand, n bits. -/
def VOpd.get (o : VOpd) (p : Pair) (n i : Nat) : Nat := match o with | .vec r => p.elem n r i | .val v => v % 2 ^ n

/-- An elementwise operation on vs2, the second operand and the old destination, with the widths of each. -/
def RvIn.vMap (c : RvIn) (g : VCfg) (vm : Bool) (vd dw vs2 w2 : Nat) (o : VOpd) (w1 : Nat) (op : Nat → Nat → Nat → Nat × FFlags) :
    Option RvOut :=
  let lm := fun n => g.lm * n / g.sew
  if !vLegal vm vd dw (lm dw) ((vs2, w2, lm w2) :: o.src w1 (lm w1)) then none
  else RvIn.vOut g c (c.vPut g c.on g.vstart g.vl dw vd (vregs (lm dw)) (c.act vm)
    (fun i => op (c.p.elem w2 vs2 i) (o.get c.p w1 i) (c.p.elem dw vd i)))

/-- An elementwise operation that gives a mask. -/
def RvIn.vMapMask (c : RvIn) (g : VCfg) (vm masked : Bool) (vd vs2 : Nat) (o : VOpd) (op : Nat → Nat → Bool → Bool × FFlags) : Option RvOut :=
  if !vLegal true vd 1 1 ((vs2, g.sew, g.lm) :: o.src g.sew g.lm) then none
  else RvIn.vOut g c (c.vPutMask g c.on vd (fun i => !masked || c.act vm i)
    (fun i => op (c.p.elem g.sew vs2 i) (o.get c.p g.sew i) (!vm && c.p.elem 1 0 i == 1)))

/-! ### Integer and fixed-point arithmetic -/

/-- An integer as n bits. -/
def toN (n : Nat) (z : Int) : Nat := (z % (2 ^ n : Nat)).toNat

/-- A value without flags. -/
def plainV (v : Nat) : Nat × FFlags := (v, 0)

/-- z / 2^d rounded as vxrm says: to nearest up, to nearest even, down, to odd. -/
def roundoff (rm : Nat) (z : Int) (d : Nat) : Int :=
  if d = 0 then z
  else
    let k := z / (2 ^ d : Nat)
    let r := z % (2 ^ d : Nat)
    let h : Int := (2 ^ (d - 1) : Nat)
    match rm with
    | 0 => if h ≤ r then k + 1 else k
    | 1 => if h < r ∨ (r = h ∧ k % 2 = 1) then k + 1 else k
    | 2 => k
    | _ => if r ≠ 0 ∧ k % 2 = 0 then k + 1 else k

/-- An integer clipped to n bits, signed or not; a clip sets vxsat. -/
def clipV (sgn : Bool) (n : Nat) (z : Int) : Nat × FFlags :=
  let lo : Int := if sgn then -(2 ^ (n - 1) : Nat) else 0
  let hi : Int := if sgn then (2 ^ (n - 1) : Nat) - 1 else (2 ^ n : Nat) - 1
  if z < lo then (toN n lo, 32) else if hi < z then (toN n hi, 32) else (toN n z, 0)

/-- OPIVV, OPIVX, OPIVI operations of one width, by funct6: a of vs2, b the second operand. -/
def viOp (n rm f6 : Nat) (a b _d : Nat) : Nat × FFlags :=
  let sa := signedOf n a
  let sb := signedOf n b
  match f6 with
  | 0x00 => plainV (a + b)
  | 0x02 => plainV (toN n ((a : Int) - b))
  | 0x03 => plainV (toN n ((b : Int) - a))
  | 0x04 => plainV (min a b)
  | 0x05 => plainV (if sa < sb then a else b)
  | 0x06 => plainV (max a b)
  | 0x07 => plainV (if sa < sb then b else a)
  | 0x09 => plainV (a &&& b)
  | 0x0A => plainV (a ||| b)
  | 0x0B => plainV (a ^^^ b)
  | 0x20 => clipV false n (a + b)
  | 0x21 => clipV true n (sa + sb)
  | 0x22 => clipV false n ((a : Int) - b)
  | 0x23 => clipV true n (sa - sb)
  | 0x25 => plainV (a * 2 ^ (b % n))
  | 0x27 => clipV true n (roundoff rm (sa * sb) (n - 1))
  | 0x28 => plainV (a / 2 ^ (b % n))
  | 0x29 => plainV (toN n (sa / (2 ^ (b % n) : Nat)))
  | 0x2A => plainV (toN n (roundoff rm a (b % n)))
  | _ => plainV (toN n (roundoff rm sa (b % n)))

/-- The funct6 values of `viOp` that the vector-vector (0), vector-scalar (4) and vector-immediate (3) forms have. -/
def viHas (f3 f6 : Nat) : Bool :=
  [0x00, 0x09, 0x0A, 0x0B, 0x20, 0x21, 0x25, 0x28, 0x29, 0x2A, 0x2B].contains f6
    || (f3 != 0 && f6 == 0x03) || (f3 != 3 && [0x02, 0x04, 0x05, 0x06, 0x07, 0x22, 0x23, 0x27].contains f6)

/-- Narrowing shifts and clips: a has 2n bits. -/
def viNarrow (n rm f6 : Nat) (a b _d : Nat) : Nat × FFlags :=
  let sa := signedOf (2 * n) a
  let k := b % (2 * n)
  match f6 with
  | 0x2C => plainV (a / 2 ^ k)
  | 0x2D => plainV (toN n (sa / (2 ^ k : Nat)))
  | 0x2E => clipV false n (roundoff rm a k)
  | _ => clipV true n (roundoff rm sa k)

/-- Comparisons by funct6. -/
def viCmp (n f6 : Nat) (a b : Nat) : Bool :=
  let sa := signedOf n a
  let sb := signedOf n b
  match f6 with
  | 0x18 => a == b
  | 0x19 => a != b
  | 0x1A => decide (a < b)
  | 0x1B => decide (sa < sb)
  | 0x1C => decide (a ≤ b)
  | 0x1D => decide (sa ≤ sb)
  | 0x1E => decide (b < a)
  | _ => decide (sb < sa)

/-- OPMVV, OPMVX operations of one width, by funct6. -/
def vmOp (n rm f6 : Nat) (a b d : Nat) : Nat × FFlags :=
  let sa := signedOf n a
  let sb := signedOf n b
  match f6 with
  | 0x08 => plainV (toN n (roundoff rm (a + b) 1))
  | 0x09 => plainV (toN n (roundoff rm (sa + sb) 1))
  | 0x0A => plainV (toN n (roundoff rm ((a : Int) - b) 1))
  | 0x0B => plainV (toN n (roundoff rm (sa - sb) 1))
  | 0x20 => plainV (if b = 0 then 2 ^ n - 1 else a / b)
  | 0x21 => plainV (if b = 0 then 2 ^ n - 1 else toN n (sa.tdiv sb))
  | 0x22 => plainV (if b = 0 then a else a % b)
  | 0x23 => plainV (if b = 0 then a else toN n (sa.tmod sb))
  | 0x24 => plainV (a * b / 2 ^ n)
  | 0x25 => plainV (a * b)
  | 0x26 => plainV (toN n (sa * b / (2 ^ n : Nat)))
  | 0x27 => plainV (toN n (sa * sb / (2 ^ n : Nat)))
  | 0x29 => plainV (b * d + a)
  | 0x2B => plainV (toN n ((a : Int) - b * d))
  | 0x2D => plainV (b * a + d)
  | _ => plainV (toN n ((d : Int) - b * a))

/-- Widening operations by funct6: the operands as their own widths give them, the result of 2n bits. -/
def vmWide (n f6 : Nat) (a b d : Nat) : Nat × FFlags :=
  let wa := if 0x34 ≤ f6 ∧ f6 < 0x38 then 2 * n else n
  let sa := signedOf wa a
  let sb := signedOf n b
  let z : Int := match f6 with
    | 0x30 => (a : Int) + b
    | 0x31 => sa + sb
    | 0x32 => (a : Int) - b
    | 0x33 => sa - sb
    | 0x34 => (a : Int) + b
    | 0x35 => sa + sb
    | 0x36 => (a : Int) - b
    | 0x37 => sa - sb
    | 0x38 => (a : Int) * b
    | 0x3A => sa * b
    | 0x3B => sa * sb
    | 0x3C => (a : Int) * b + d
    | 0x3D => sa * sb + d
    | 0x3E => sa * b + d
    | _ => (a : Int) * sb + d
  plainV (toN (2 * n) z)

/-- Single-width and widening reductions by funct6, on n bits. -/
def vRed (n f6 : Nat) (a b : Nat) : Nat :=
  match f6 with
  | 0x00 => (a + b) % 2 ^ n
  | 0x01 => a &&& b
  | 0x02 => a ||| b
  | 0x03 => a ^^^ b
  | 0x04 => min a b
  | 0x05 => if signedOf n a < signedOf n b then a else b
  | 0x06 => max a b
  | _ => if signedOf n a < signedOf n b then b else a

/-- The active elements below vl. -/
def RvIn.actives (c : RvIn) (g : VCfg) (vm : Bool) : List Nat := (List.range g.vl).filter (c.act vm)

/-- A reduction: element 0 of vd from element 0 of vs1 and the active elements of vs2, of widths dn and g.sew. -/
def RvIn.vReduce (c : RvIn) (g : VCfg) (vm : Bool) (vd dn vs2 vs1 : Nat) (op : List Nat → Nat → Nat × FFlags) : Option RvOut :=
  if g.vstart ≠ 0 ∨ 64 < dn ∨ vs2 % vregs g.lm ≠ 0 then none
  else
    let r := op ((c.actives g vm).map (c.p.elem g.sew vs2)) (c.p.elem dn vs1 0)
    RvIn.vOut g c (c.vPut g c.on 0 1 dn vd 1 (fun _ => true) (fun _ => r))

/-! ### Permutations -/

/-- A gather: element i of vd is the element of vs2 that an index names, 0 beyond VLMAX. -/
def RvIn.vGather (c : RvIn) (g : VCfg) (vm : Bool) (vd vs2 : Nat) (o : VOpd) (w1 : Nat) : Option RvOut :=
  let l1 := g.lm * w1 / g.sew
  let far := fun (s : VSrc) => decide (vd + vregs g.lm ≤ s.1) || decide (s.1 + vregs s.2.2 ≤ vd)
  let ss := (vs2, g.sew, g.lm) :: o.src w1 l1
  if !(vLegal vm vd g.sew g.lm ss && ss.all far) then none
  else RvIn.vOut g c (c.vPut g c.on g.vstart g.vl g.sew vd (vregs g.lm) (c.act vm) (fun i =>
    let j := match o with | .vec r => c.p.elem w1 r i | .val v => v
    plainV (if j < vlmaxOf g.sew g.lm then c.p.elem g.sew vs2 j else 0)))

/-- A slide: element i of vd is what `f` finds; elements below `lo` stay. -/
def RvIn.vSlide (c : RvIn) (g : VCfg) (vm apart : Bool) (vd vs2 lo : Nat) (f : Nat → Nat) : Option RvOut :=
  if !vLegal vm vd g.sew g.lm [(vs2, g.sew, g.lm)] || (apart && vd == vs2) then none
  else RvIn.vOut g c (c.vPut g c.on (max g.vstart lo) g.vl g.sew vd (vregs g.lm) (c.act vm) (fun i => plainV (f i)))

/-- Slides up and down by an offset. -/
def RvIn.vSlideBy (c : RvIn) (g : VCfg) (vm up : Bool) (vd vs2 off : Nat) : Option RvOut :=
  if up then c.vSlide g vm true vd vs2 off (fun i => c.p.elem g.sew vs2 (i - off))
  else c.vSlide g vm false vd vs2 0 (fun i => if i + off < vlmaxOf g.sew g.lm then c.p.elem g.sew vs2 (i + off) else 0)

/-- Slides by one that bring in a value. -/
def RvIn.vSlide1 (c : RvIn) (g : VCfg) (vm up : Bool) (vd vs2 v : Nat) : Option RvOut :=
  if up then c.vSlide g vm true vd vs2 0 (fun i => if i = 0 then v else c.p.elem g.sew vs2 (i - 1))
  else c.vSlide g vm false vd vs2 0 (fun i => if i + 1 = g.vl then v else c.p.elem g.sew vs2 (i + 1))

/-- vcompress: the elements that a mask names, packed from element 0; the rest is tail. -/
def RvIn.vCompress (c : RvIn) (g : VCfg) (vm : Bool) (vd vs2 vs1 : Nat) : Option RvOut :=
  let in' := decide (vd ≤ vs1) && decide (vs1 < vd + vregs g.lm)
  if !vm ∨ g.vstart ≠ 0 ∨ in' ∨ vd = vs2 ∨ !vLegal true vd g.sew g.lm [(vs2, g.sew, g.lm)] then none
  else
    let l := (List.range g.vl).filter (fun i => c.p.elem 1 vs1 i == 1)
    RvIn.vOut g c (c.vPut g c.on 0 l.length g.sew vd (vregs g.lm) (fun _ => true) (fun i => plainV (c.p.elem g.sew vs2 (l.getD i 0))))

/-- vmv<nr>r: whole registers copied, from element vstart on. -/
def RvIn.vMove (c : RvIn) (g : VCfg) (vm : Bool) (vd vs2 n : Nat) : Option RvOut :=
  let k := n + 1
  if !vm ∨ ¬ [1, 2, 4, 8].contains k ∨ vd % k ≠ 0 ∨ vs2 % k ≠ 0 then none
  else
    let e := k * 256 / g.sew
    some { pair := if e ≤ g.vstart then c.on.vdone
                   else (c.vPut g c.on g.vstart e g.sew vd k (fun _ => true) (fun i => plainV (c.p.elem g.sew vs2 i))).vdone,
           draws := vDraws }

/-- A value into element 0 of a vector register, when vl lets it. -/
def RvIn.vSet0 (c : RvIn) (g : VCfg) (vd v : Nat) : Option RvOut :=
  RvIn.vOut g c (c.vPut g c.on g.vstart 1 g.sew vd 1 (fun _ => true) (fun _ => plainV v))

/-! ### Integer instructions -/

/-- OPIVV (f3 = 0), OPIVI (3) and OPIVX (4). -/
def RvIn.opIv (c : RvIn) (g : VCfg) (f3 f6 : Nat) (vm : Bool) (vd vs2 s1 : Nat) : Option RvOut :=
  let n := g.sew
  let rm := c.p.vcsr.vxrm.toNat
  let x := (c.p.getX s1).toNat
  let u : Nat := if f3 = 4 then x else s1
  let o : VOpd := if f3 = 0 then .vec s1 else if f3 = 4 then .val x else .val (sextN 5 s1).toNat
  let oU : VOpd := if f3 = 3 then .val s1 else o
  match f6 with
  | 0x0C => c.vGather g vm vd vs2 oU n
  | 0x0E => if f3 = 0 then c.vGather g vm vd vs2 o 16 else c.vSlideBy g vm true vd vs2 u
  | 0x0F => if f3 = 0 then none else c.vSlideBy g vm false vd vs2 u
  | 0x10 =>
    if vm ∨ vd = 0 then none
    else (vLegalCarry g vd vs2 o).bind (fun _ => RvIn.vOut g c (c.vPut g c.on g.vstart g.vl n vd (vregs g.lm) (fun _ => true)
      (fun i => plainV (c.p.elem n vs2 i + o.get c.p n i + c.p.elem 1 0 i))))
  | 0x11 => c.vMapMask g vm false vd vs2 o (fun a b m => (decide (2 ^ n ≤ a + b + b2n m), 0))
  | 0x12 =>
    if vm ∨ vd = 0 ∨ f3 = 3 then none
    else (vLegalCarry g vd vs2 o).bind (fun _ => RvIn.vOut g c (c.vPut g c.on g.vstart g.vl n vd (vregs g.lm) (fun _ => true)
      (fun i => plainV (toN n ((c.p.elem n vs2 i : Int) - o.get c.p n i - c.p.elem 1 0 i)))))
  | 0x13 => if f3 = 3 then none else c.vMapMask g vm false vd vs2 o (fun a b m => (decide (a < b + b2n m), 0))
  | 0x17 =>
    if vm then
      (if vs2 ≠ 0 then none else c.vMap g true vd n vd n o n (fun _ b _ => plainV b))
    else if vd = 0 then none
    else (vLegalCarry g vd vs2 o).bind (fun _ => RvIn.vOut g c (c.vPut g c.on g.vstart g.vl n vd (vregs g.lm) (fun _ => true)
      (fun i => plainV (if c.p.elem 1 0 i = 1 then o.get c.p n i else c.p.elem n vs2 i))))
  | 0x27 => if f3 = 3 then c.vMove g vm vd vs2 s1 else c.vMap g vm vd n vs2 n o n (viOp n rm f6)
  | 0x30 => if f3 ≠ 0 then none else c.vReduce g vm vd (2 * n) vs2 s1 (fun l b => plainV (l.foldl (fun s a => (s + a) % 2 ^ (2 * n)) b))
  | 0x31 => if f3 ≠ 0 then none else c.vReduce g vm vd (2 * n) vs2 s1 (fun l b => plainV (l.foldl (fun s a => toN (2 * n) (s + signedOf n a)) b))
  | _ =>
    if 0x18 ≤ f6 ∧ f6 ≤ 0x1F then
      (if ((f6 = 0x1A ∨ f6 = 0x1B) ∧ f3 = 3) ∨ (0x1E ≤ f6 ∧ f3 = 0) then none
      else c.vMapMask g vm true vd vs2 o (fun a b _ => (viCmp n f6 a b, 0)))
    else if 0x2C ≤ f6 ∧ f6 ≤ 0x2F then c.vMap g vm vd n vs2 (2 * n) oU n (viNarrow n rm f6)
    else if viHas f3 f6 then c.vMap g vm vd n vs2 n (if 0x25 ≤ f6 then oU else o) n (viOp n rm f6)
    else none
where
  /-- The groups of an instruction that takes v0 as a carry or a choice. -/
  vLegalCarry (g : VCfg) (vd vs2 : Nat) (o : VOpd) : Option Unit :=
    if vLegal false vd g.sew g.lm ((vs2, g.sew, g.lm) :: o.src g.sew g.lm) then some () else none

/-- The unary instructions of OPMVV that give an integer register: vmv.x.s, vcpop.m, vfirst.m. -/
def RvIn.vToX (c : RvIn) (g : VCfg) (vm : Bool) (rd vs2 k : Nat) : Option RvOut :=
  let l := (c.actives g vm).filter (fun i => c.p.elem 1 vs2 i == 1)
  let out := fun (v : Dword) => some ({ pair := (c.on.setX rd v).vdone } : RvOut)
  match k with
  | 0 => if vm then out (sextN g.sew (c.p.elem g.sew vs2 0)) else none
  | 16 => if g.vstart ≠ 0 then none else out (BitVec.ofNat 64 l.length)
  | 17 => if g.vstart ≠ 0 then none else out (match l.head? with | some i => BitVec.ofNat 64 i | none => BitVec.ofInt 64 (-1))
  | _ => none

/-- vmsbf, vmsof, vmsif, viota and vid, by the vs1 field. -/
def RvIn.vMaskUnary (c : RvIn) (g : VCfg) (vm : Bool) (vd vs2 k : Nat) : Option RvOut :=
  let on := fun i => c.act vm i && c.p.elem 1 vs2 i == 1
  let first := ((c.actives g vm).filter (fun i => c.p.elem 1 vs2 i == 1)).head?.getD g.vl
  let setMask := fun (f : Nat → Bool) =>
    if g.vstart ≠ 0 ∨ vd = vs2 ∨ (!vm ∧ vd = 0) then none else RvIn.vOut g c (c.vPutMask g c.on vd (c.act vm) (fun i => (f i, 0)))
  match k with
  | 1 => setMask (fun i => decide (i < first))
  | 2 => setMask (fun i => decide (i = first))
  | 3 => setMask (fun i => decide (i ≤ first))
  | 16 =>
    let in' := decide (vd ≤ vs2) && decide (vs2 < vd + vregs g.lm)
    if g.vstart ≠ 0 ∨ in' ∨ !vLegal vm vd g.sew g.lm [] then none
    else RvIn.vOut g c (c.vPut g c.on 0 g.vl g.sew vd (vregs g.lm) (c.act vm) (fun i => plainV (((List.range i).filter on).length)))
  | 17 =>
    if vs2 ≠ 0 ∨ !vLegal vm vd g.sew g.lm [] then none
    else RvIn.vOut g c (c.vPut g c.on g.vstart g.vl g.sew vd (vregs g.lm) (c.act vm) (fun i => plainV i))
  | _ => none

/-- Mask logic by funct6. -/
def maskLogic (f6 : Nat) (a b : Bool) : Bool :=
  match f6 with
  | 0x18 => a && !b
  | 0x19 => a && b
  | 0x1A => a || b
  | 0x1B => a != b
  | 0x1C => a || !b
  | 0x1D => !(a && b)
  | 0x1E => !(a || b)
  | _ => a == b

/-- OPMVV (f3 = 2) and OPMVX (6). -/
def RvIn.opMv (c : RvIn) (g : VCfg) (f3 f6 : Nat) (vm : Bool) (vd vs2 s1 : Nat) : Option RvOut :=
  let n := g.sew
  let rm := c.p.vcsr.vxrm.toNat
  let vv := decide (f3 = 2)
  let x := (c.p.getX s1).toNat
  let o : VOpd := if vv then .vec s1 else .val x
  if f6 < 8 then
    (if vv then c.vReduce g vm vd n vs2 s1 (fun l b => plainV (l.foldl (vRed n f6) b)) else none)
  else if f6 < 0x0C then c.vMap g vm vd n vs2 n o n (vmOp n rm f6)
  else if f6 = 0x0E ∨ f6 = 0x0F then (if vv then none else c.vSlide1 g vm (f6 = 0x0E) vd vs2 x)
  else if f6 = 0x10 then
    (if vv then c.vToX g vm vd vs2 s1 else if vs2 = 0 ∧ vm then c.vSet0 g vd (x % 2 ^ n) else none)
  else if f6 = 0x12 then
    let k := 2 ^ (4 - s1 / 2)
    if !vv ∨ s1 < 2 ∨ 7 < s1 ∨ n / k < 8 ∨ g.lm / k < 1 then none
    else c.vMap g vm vd n vs2 (n / k) (.val 0) n (fun a _ _ => plainV (if s1 % 2 = 1 then toN n (signedOf (n / k) a) else a))
  else if f6 = 0x14 then (if vv then c.vMaskUnary g vm vd vs2 s1 else none)
  else if f6 = 0x17 then (if vv then c.vCompress g vm vd vs2 s1 else none)
  else if 0x18 ≤ f6 ∧ f6 ≤ 0x1F then
    (if vv && vm then RvIn.vOut g c (c.vPutMask g c.on vd (fun _ => true) (fun i => (maskLogic f6 (c.p.elem 1 vs2 i == 1) (c.p.elem 1 s1 i == 1), 0)))
    else none)
  else if (0x20 ≤ f6 ∧ f6 ≤ 0x27) ∨ [0x29, 0x2B, 0x2D, 0x2F].contains f6 then c.vMap g vm vd n vs2 n o n (vmOp n rm f6)
  else if f6 < 0x30 ∨ f6 = 0x39 ∨ (f6 = 0x3E ∧ vv) ∨ 32 < n then none
  else c.vMap g vm vd (2 * n) vs2 (if 0x34 ≤ f6 ∧ f6 < 0x38 then 2 * n else n) o n (vmWide n f6)

/-! ### Floating-point instructions -/

/-- OPFVV, OPFVF operations by funct6, on numbers, with the words for those that work on words; the result has dn bits. -/
def vfOp (dn rm f6 : Nat) (a b : Nat) (x y z : FNum) : Nat × FFlags :=
  match f6 with
  | 0x00 => addF dn rm x y
  | 0x02 => addF dn rm x y.neg
  | 0x04 => minMaxF dn false a b
  | 0x06 => minMaxF dn true a b
  | 0x08 => (sgnF dn 0 a b, 0)
  | 0x09 => (sgnF dn 1 a b, 0)
  | 0x0A => (sgnF dn 2 a b, 0)
  | 0x20 => divF dn rm x y
  | 0x21 => divF dn rm y x
  | 0x24 => mulF dn rm x y
  | 0x27 => addF dn rm y x.neg
  | 0x28 => fmaF dn rm y z x
  | 0x29 => fmaF dn rm y.neg z x.neg
  | 0x2A => fmaF dn rm y z x.neg
  | 0x2B => fmaF dn rm y.neg z x
  | 0x2C => fmaF dn rm y x z
  | 0x2D => fmaF dn rm y.neg x z.neg
  | 0x2E => fmaF dn rm y x z.neg
  | 0x2F => fmaF dn rm y.neg x z
  | 0x30 => addF dn rm x y
  | 0x32 => addF dn rm x y.neg
  | 0x34 => addF dn rm x y
  | 0x36 => addF dn rm x y.neg
  | 0x38 => mulF dn rm x y
  | 0x3C => fmaF dn rm y x z
  | 0x3D => fmaF dn rm y.neg x z.neg
  | 0x3E => fmaF dn rm y x z.neg
  | _ => fmaF dn rm y.neg x z

/-- The funct6 values of `vfOp`; the reversed ones have a scalar operand. -/
def vfHas (vv : Bool) (f6 : Nat) : Bool :=
  [0x00, 0x02, 0x04, 0x06, 0x08, 0x09, 0x0A, 0x20, 0x24].contains f6 || (decide (0x28 ≤ f6) && decide (f6 ≤ 0x2F))
    || (!vv && (f6 == 0x21 || f6 == 0x27)) || [0x30, 0x32, 0x34, 0x36, 0x38, 0x3C, 0x3D, 0x3E, 0x3F].contains f6

/-- Floating-point comparisons by funct6. -/
def vfCmp (f6 : Nat) (x y : FNum) : Bool × FFlags :=
  match f6 with
  | 0x18 => compareF 0 x y
  | 0x19 => compareF 2 x y
  | 0x1B => compareF 1 x y
  | 0x1C => let t := compareF 0 x y; (!t.1, t.2)
  | 0x1D => compareF 1 y x
  | _ => compareF 2 y x

/-- A sum in element order, one rounding per addition. -/
def sumOrdered (n rm : Nat) (l : List FNum) (b : Nat) : Nat × FFlags :=
  l.foldl (fun s x => let t := addF n rm (unpackF n s.1) x; (t.1, s.2 ||| t.2)) (b, 0)

/-- An unordered sum: of no element the start value, else a free value with free flags (log entry 179). -/
def RvIn.sumUnordered (c : RvIn) (n : Nat) (l : List FNum) (b : Nat) : Nat × FFlags :=
  if l.isEmpty then (b, 0) else ((Config.freeDword (c.k + 512)).toNat % 2 ^ n, (Config.freeDword (c.k + 513)).toNat % 32)

/-- The conversions of VFUNARY0 by the vs1 field: source bits, destination bits, and the function; none is reserved. -/
def vfConv (n rm k : Nat) : Option (Nat × Nat × (Nat → Nat × FFlags)) :=
  let isF := fun w => decide (w = 32) || decide (w = 64)
  let r := if k % 8 = 6 ∨ k % 8 = 7 then 1 else rm
  let s := if k < 8 then n else if k < 16 then n else 2 * n
  let d := if k < 8 then n else if k < 16 then 2 * n else n
  let sgn := k % 2 == 1
  let j := k % 8
  if 24 ≤ k ∨ 64 < s ∨ 64 < d then none
  else if j = 0 ∨ j = 1 ∨ j = 6 ∨ j = 7 then
    (if isF s then some (s, d, fun v => toIntF r sgn d (unpackF s v)) else none)
  else if j = 2 ∨ j = 3 then
    (if isF d then some (s, d, fun v => ofIntF d r (if sgn then signedOf s v else v)) else none)
  else if j = 4 ∧ 8 ≤ k then
    (if isF s && isF d then some (s, d, fun v => castF d r (unpackF s v)) else none)
  else if k = 21 then (if isF s && isF d then some (s, d, fun v => castF d 5 (unpackF s v)) else none)
  else none

/-- OPFVV (f3 = 1) and OPFVF (5). -/
def RvIn.opFv (c : RvIn) (g : VCfg) (f3 f6 : Nat) (vm : Bool) (vd vs2 s1 : Nat) : Option RvOut :=
  let n := g.sew
  let vv := decide (f3 = 1)
  let isF := decide (n = 32) || decide (n = 64)
  let fs := c.p.getF n s1
  let o : VOpd := if vv then .vec s1 else .val fs
  (c.p.rmOf 7).bind (fun rm =>
    if f6 = 0x12 then
      (if !vv then none
      else (vfConv n rm s1).bind (fun t => c.vMap g vm vd t.2.1 vs2 t.1 (.val 0) n (fun a _ _ => t.2.2 a)))
    else if !isF then none
    else
      let wide := decide (0x30 ≤ f6)
      let dn := if wide then 2 * n else n
      let nums := fun (l : List Nat) => l.map (unpackF n)
      if 64 < dn then none
      else
        match f6 with
        | 0x01 => if vv then c.vReduce g vm vd n vs2 s1 (fun l b => c.sumUnordered n (nums l) b) else none
        | 0x03 => if vv then c.vReduce g vm vd n vs2 s1 (fun l b => sumOrdered n rm (nums l) b) else none
        | 0x05 => if vv then c.vReduce g vm vd n vs2 s1 (minMaxAll n false) else none
        | 0x07 => if vv then c.vReduce g vm vd n vs2 s1 (minMaxAll n true) else none
        | 0x31 => if vv then c.vReduce g vm vd dn vs2 s1 (fun l b => c.sumUnordered dn (nums l) b) else none
        | 0x33 => if vv then c.vReduce g vm vd dn vs2 s1 (fun l b => sumOrdered dn rm (nums l) b) else none
        | 0x0E => if vv then none else c.vSlide1 g vm true vd vs2 fs
        | 0x0F => if vv then none else c.vSlide1 g vm false vd vs2 fs
        | 0x10 =>
          if !vm then none
          else if vv then (if s1 = 0 then some { pair := (c.on.setF n vd (c.p.elem n vs2 0)).vdone } else none)
          else if vs2 = 0 then c.vSet0 g vd fs else none
        | 0x13 =>
          let un := fun (f : Nat → Nat × FFlags) => c.vMap g vm vd n vs2 n (.val 0) n (fun a _ _ => f a)
          if !vv then none
          else match s1 with
            | 0 => un (fun a => sqrtF n rm (unpackF n a))
            | 4 => un (rsqrt7F n)
            | 5 => un (rec7F n rm)
            | 16 => un (fun a => (classF n a, 0))
            | _ => none
        | 0x17 =>
          if vv then none
          else if vm then (if vs2 = 0 then c.vMap g true vd n vd n o n (fun _ b _ => plainV b) else none)
          else if !vLegal false vd n g.lm [(vs2, n, g.lm)] then none
          else RvIn.vOut g c (c.vPut g c.on g.vstart g.vl n vd (vregs g.lm) (fun _ => true)
            (fun i => plainV (if c.p.elem 1 0 i = 1 then fs else c.p.elem n vs2 i)))
        | _ =>
          if [0x18, 0x19, 0x1B, 0x1C].contains f6 ∨ ([0x1D, 0x1F].contains f6 ∧ !vv) then
            c.vMapMask g vm true vd vs2 o (fun a b _ => vfCmp f6 (unpackF n a) (unpackF n b))
          else if !vfHas vv f6 then none
          else
            let w2 := if f6 = 0x34 ∨ f6 = 0x36 then 2 * n else n
            c.vMap g vm vd dn vs2 w2 o n (fun a b d => vfOp dn rm f6 a b (unpackF w2 a) (unpackF n b) (unpackF dn d)))
where
  /-- The least or the greatest of elements. -/
  minMaxAll (n : Nat) (mx : Bool) (l : List Nat) (b : Nat) : Nat × FFlags :=
    l.foldl (fun s a => let t := minMaxF n mx s.1 a; (t.1, s.2 ||| t.2)) (b, 0)

/-! ### Configuration instructions -/

/-- vsetvli, vsetivli and vsetvl: an unsupported type sets vill; for a length between VLMAX and twice that, vl is an
opaque function of the two in the range that the standard allows. -/
def RvIn.vset (c : RvIn) (rd t : Nat) (avl : Option Nat) : Option RvOut :=
  let old := c.p.vcsr.vl.toNat
  let mx := vlmaxOf (8 * 2 ^ bitsN t 5 3) (lmOf (bitsN t 2 0))
  let ok := vtypeOk t && (avl.isSome || ((vcfg c.p.vcsr).map (fun g => vlmaxOf g.sew g.lm)) == some mx)
  let vl := match avl with
    | none => old
    | some a =>
      if a ≤ mx then a
      else if 2 * mx ≤ a then mx
      else ceilDiv a 2 + Config.vsetLength a mx % (mx - ceilDiv a 2 + 1)
  let v : VecCsr := if ok then { c.p.vcsr with vl := BitVec.ofNat 64 vl, vtype := BitVec.ofNat 64 t, vstart := 0 }
    else { c.p.vcsr with vl := 0, vtype := BitVec.ofNat 64 (2 ^ 63), vstart := 0 }
  some { pair := { (c.on.setX rd v.vl) with vcsr := v }, draws := vDraws }

/-! ### Loads and stores -/

/-- What a vector load or store reaches: element bits and LMUL in eighths, fields, element count, and the address of field s of element i. -/
structure VMem where
  n : Nat
  lm : Nat
  nf : Nat
  evl : Nat
  addr : Nat → Nat → Nat

/-- The fields of elements in order: those of active elements from vstart on. -/
def VMem.items (m : VMem) (lo : Nat) (act : Nat → Bool) : List (Nat × Nat) :=
  ((fromTo lo (m.evl - lo)).filter act).flatMap (fun i => (List.range m.nf).map (fun s => (i, s)))

/-- Read the fields of elements; the values read, and the element at which a fault stops it. -/
def VMem.gather (ld : RvMem) (m : VMem) : List (Nat × Nat) → List ((Nat × Nat) × Nat) → List ((Nat × Nat) × Nat) × Option Nat
  | [], got => (got, none)
  | x :: xs, got =>
    match ld (m.addr x.1 x.2) (m.n / 8) with
    | some v => VMem.gather ld m xs ((x, v) :: got)
    | none => (got, some x.1)

/-- The register of field s. -/
def VMem.reg (m : VMem) (vd s : Nat) : Nat := vd + s * vregs m.lm

/-- A vector load.  `ff`: fault-only-first, which sets vl to the element that faults; what it leaves in the elements behind is free. -/
def RvIn.vLoad (c : RvIn) (ld : RvMem) (g : VCfg) (vm ff : Bool) (vd : Nat) (m : VMem) : Option RvOut :=
  if m.evl ≤ g.vstart then some { pair := c.on.vdone, draws := vDraws }
  else
    let r := VMem.gather ld m (m.items g.vstart (c.act vm)) []
    match r.2, ff with
    | some _, false => none
    | some 0, true => none
    | _, _ =>
      let cut := r.2.getD m.evl
      let q := (List.range m.nf).foldl (fun u s => c.vPut g u g.vstart m.evl m.n (m.reg vd s) (vregs m.lm) (c.act vm) (fun i =>
        plainV (if i < cut then ((r.1.find? (fun x => x.1 == (i, s))).map Prod.snd).getD 0 else (Config.freeDword (c.k + 256 + i)).toNat))) c.on
      let q1 := if r.2.isSome then { q with vcsr := { q.vcsr with vl := BitVec.ofNat 64 cut } } else q
      some { pair := q1.vdone, loads := r.1.reverse.map (fun x => (m.addr x.1.1 x.1.2, m.n / 8)), draws := vDraws }

/-- A vector store; unless the elements are ordered, whether they go up or down is free. -/
def RvIn.vStore (c : RvIn) (g : VCfg) (vm ordered : Bool) (vs3 : Nat) (m : VMem) : Option RvOut :=
  let l := (m.items g.vstart (c.act vm)).map (fun x => (m.addr x.1 x.2, m.n / 8, c.p.elem m.n (m.reg vs3 x.2) x.1))
  some { pair := c.on.vdone, stores := if ordered || (Config.freeByte c.k).getLsbD 0 then l else l.reverse, writes := false, draws := vDraws }

/-- A vector load (opcode 0x07) or store (0x27), by width, mop and lumop. -/
def RvIn.vMemOp (c : RvIn) (ld : RvMem) (w : Nat) : Option RvOut :=
  let store := decide (w % 128 = 0x27)
  let vd := bitsN w 11 7
  let base := c.p.getX (bitsN w 19 15)
  let s2 := bitsN w 24 20
  let vm := bitN w 25
  let nf := bitsN w 31 29 + 1
  let mop := bitsN w 27 26
  let e := match bitsN w 14 12 with | 0 => 8 | 5 => 16 | 6 => 32 | _ => 64
  let at' := fun (k : Nat) => (base + BitVec.ofNat 64 k).toNat
  let zero : VCfg := { sew := 8, lm := 8, vl := 0, vstart := c.p.vcsr.vstart.toNat, vta := true, vma := false }
  let go := fun (g : VCfg) (ordered ff : Bool) (m : VMem) => if store then c.vStore g vm ordered vd m else c.vLoad ld g vm ff vd m
  let fits := fun (m : VMem) => decide (1 ≤ m.lm) && decide (m.lm ≤ 64) && decide (m.nf * vregs m.lm ≤ 8)
    && decide (vd % vregs m.lm = 0) && decide (vd + m.nf * vregs m.lm ≤ 32) && (vm || store || decide (vd ≠ 0))
  if bitN w 28 then none
  else if mop = 0 ∧ s2 = 8 then
    (if !vm ∨ ¬ [1, 2, 4, 8].contains nf ∨ vd % nf ≠ 0 ∨ (store ∧ e ≠ 8) then none
    else go zero false false { n := e, lm := 8 * nf, nf := 1, evl := nf * 256 / e, addr := fun i _ => at' (i * e / 8) })
  else
    (vcfg c.p.vcsr).bind (fun g =>
      let lmE := g.lm * e / g.sew
      if mop = 0 then
        (if s2 = 0x0B then
          (if e ≠ 8 ∨ nf ≠ 1 ∨ !vm then none
          else go { g with vta := true } false false { n := 8, lm := 8, nf := 1, evl := ceilDiv g.vl 8, addr := fun i _ => at' i })
        else
          let m : VMem := { n := e, lm := lmE, nf := nf, evl := g.vl, addr := fun i s => at' ((i * nf + s) * (e / 8)) }
          if ¬ (s2 = 0 ∨ (s2 = 0x10 ∧ !store)) ∨ !fits m then none else go g false (s2 = 0x10) m)
      else if mop = 2 then
        let m : VMem := { n := e, lm := lmE, nf := nf, evl := g.vl,
                          addr := fun i s => (base + BitVec.ofNat 64 i * c.p.getX s2 + BitVec.ofNat 64 (s * (e / 8))).toNat }
        if fits m then go g false false m else none
      else
        let m : VMem := { n := g.sew, lm := g.lm, nf := nf, evl := g.vl, addr := fun i s => at' (c.p.elem e s2 i + s * (g.sew / 8)) }
        let apart := decide (vd + nf * vregs g.lm ≤ s2) || decide (s2 + vregs lmE ≤ vd)
        if !fits m || decide (lmE < 1) || decide (64 < lmE) || decide (s2 % vregs lmE ≠ 0)
          || !(store || apart || (nf == 1 && vApart vd g.sew g.lm (s2, e, lmE))) then none
        else go g (mop = 3) false m)

/-! ### One instruction -/

/-- A vector instruction from its word; none is an illegal instruction or a fault. -/
def RvIn.execV (c : RvIn) (ld : RvMem) (w : Nat) : Option RvOut :=
  let rd := bitsN w 11 7
  let f3 := bitsN w 14 12
  let s1 := bitsN w 19 15
  let f6 := bitsN w 31 26
  if w % 128 = 0x07 ∨ w % 128 = 0x27 then c.vMemOp ld w
  else if f3 = 7 then
    let avl : Option Nat := if s1 ≠ 0 then some (c.p.getX s1).toNat else if rd ≠ 0 then some (2 ^ 64 - 1) else none
    if !bitN w 31 then c.vset rd (bitsN w 30 20) avl
    else if bitN w 30 then c.vset rd (bitsN w 29 20) (some s1)
    else if bitsN w 29 25 = 0 then c.vset rd (c.p.getX (bitsN w 24 20)).toNat avl
    else none
  else
    (vcfg c.p.vcsr).bind (fun g =>
      match f3 with
      | 1 => c.opFv g f3 f6 (bitN w 25) rd (bitsN w 24 20) s1
      | 2 => c.opMv g f3 f6 (bitN w 25) rd (bitsN w 24 20) s1
      | 5 => c.opFv g f3 f6 (bitN w 25) rd (bitsN w 24 20) s1
      | 6 => c.opMv g f3 f6 (bitN w 25) rd (bitsN w 24 20) s1
      | _ => c.opIv g f3 f6 (bitN w 25) rd (bitsN w 24 20) s1)

/-- Opcode and width name a vector instruction. -/
def isVecWord (w : Nat) : Bool :=
  w % 128 == 0x57 || ((w % 128 == 0x07 || w % 128 == 0x27) && [0, 5, 6, 7].contains (bitsN w 14 12))

end Machine

end Sys2Proof
end

