-- ==== Sys2Proof/Machine/Shuttle.lean ====
section
/-! DEFINITION. What shuttle pairs retire: RV64GC and vector instructions, and the Loom control instructions (R109 to R123, R154,
R257, R277, R289). -/

namespace Sys2Proof

namespace Machine

/-! ### The address map (R111, R112) -/

/-- Where an access lands: instruction memory, data memory, or a byte of a Beam window. -/
inductive Place where
  | imem (off : Nat)
  | dmem (off : Nat)
  | window (w off : Nat)
  | outside
deriving DecidableEq, Repr

/-- Data memory starts here. -/
abbrev dmemBase : Nat := 0x10000000

/-- The place of `n` bytes from an address on. -/
def placeOf (a n : Nat) : Place :=
  if a + n ≤ 0x20000 then .imem a
  else if dmemBase ≤ a ∧ a + n ≤ dmemBase + 0x20000 then .dmem (a - dmemBase)
  else if winBase ≤ a ∧ a + n ≤ winBase + 16 * 2 ^ 32 then .window ((a - winBase) / 2 ^ 32) ((a - winBase) % 2 ^ 32)
  else .outside

/-- The tensor a window of a program maps, and whether it may be written. -/
def State.window (s : State) (r : Running) (w : Nat) : Option (Nat × Bool) :=
  match s.program r with
  | some p => (p.wins[w]?).bind (fun x => if x.1 = 0xFFFF then none else some x)
  | none => none

/-- Element i of a tensor: row and offset of the row's byte for it. -/
def Tensor.elemAt (t : Tensor) (i : Nat) : Nat × Nat := (i / max 1 t.rowLen, i / max 1 t.rowLen * t.pitch + 2 * (i % max 1 t.rowLen))

/-- The value a window read gives; none for an access or misaligned fault. -/
def Env.winRead (e : Env) (j off n : Nat) : Option Nat :=
  let t := e.draft.tensor j
  if t.type = 1 ∨ t.type = 3 then
    if n = 4 ∧ off % 4 = 0 ∧ off / 4 < t.elems then
      let p := t.elemAt (off / 4)
      let v := leNat (e.bytes (e.rowDie j p.1) j p.2 2)
      some (if t.type = 1 then b16ToF32 v else f16ToF32 v)
    else none
  else if t.type = 0 then none
  else if off % n = 0 ∧ off + n ≤ t.bytes then some (leNat (e.bytes (e.rowDie j (off / max 1 t.pitch)) j off n))
  else none

/-- What a window write does: the memories and the saturations it counts; none for a fault, a NaN to a B16 window among them. -/
def Env.winWrite (e : Env) (j off n v : Nat) : Option (Env × Nat) :=
  let t := e.draft.tensor j
  if t.type = 1 ∨ t.type = 3 then
    if n = 4 ∧ off % 4 = 0 ∧ off / 4 < t.elems then
      let p := t.elemAt (off / 4)
      if t.type = 3 then some (e.put (e.rowDie j p.1) j p.2 (leBytes 2 (f32ToF16 v)), 0)
      else if f32IsNan v then none
      else
        let x := f32Taken v
        let b := b16Round x.1
        some (e.put (e.rowDie j p.1) j p.2 (leBytes 2 b.1), b2n x.2 + b2n b.2)
    else none
  else if t.type = 0 then none
  else if off % n = 0 ∧ off + n ≤ t.bytes then some (e.put (e.rowDie j (off / max 1 t.pitch)) j off (leBytes n v), 0)
  else none

/-- The value a load of a program reads; none for a fault.  Pair memories serve an access at any alignment (DESIGN CHOICE, log entry
120). -/
def State.loadAt (s : State) (n : Nat) (t : Step) (r : Running) (a w : Nat) : Option Nat :=
  match placeOf a w, s.pair? n with
  | .imem o, some p => some (p.imem.readLe o w)
  | .dmem o, some p => some (p.dmem.readLe o w)
  | .window x o, _ => (s.window r x).bind (fun m => (s.env t (weftOf n)).winRead m.1 o w)
  | _, _ => none

/-- A store of a program; none for a fault.  Pair memories serve an access at any alignment (DESIGN CHOICE, log entry 120). -/
def State.storeAt (s : State) (n : Nat) (t : Step) (r : Running) (a w v : Nat) : Option State :=
  match placeOf a w with
  | .dmem o => some (s.modPair n (fun p => { p with dmem := p.dmem.writeBytes o (leBytes w v) }))
  | .window x o =>
    (s.window r x).bind (fun m =>
      if !m.2 then none
      else ((s.env t (weftOf n)).winWrite m.1 o w v).map (fun y =>
        let s1 := s.putMem y.1
        if y.2 = 0 then s1 else s1.addSats t.id (weftOf n) m.1 y.2))
  | .imem _ => none
  | .outside => none

/-! ### RV64GC and vector instructions (R109, R110, R113, R115) -/

/-- The Beam SRAM bytes that an access through a window moves are counted (R112, R518). -/
def State.windowBytes (s : State) (n : Nat) (t : Step) (r : Running) (a w : Nat) (write : Bool) : State :=
  match placeOf a w with
  | .window x o =>
    match s.window r x with
    | some m =>
      let e := s.env t (weftOf n)
      let ten := e.draft.tensor m.1
      let at' := if ten.type = 1 ∨ ten.type = 3 then ((ten.elemAt (o / 4)).2, 2) else (o, w)
      s.beamBytes (weftOf n) write (e.addr (weftOf n) m.1 at'.1) at'.2 { workEv 0 0 none 0 t with master := some (pairMaster n).toNat }
    | none => s
  | _ => s

/-- The stores of an instruction in order, up to the first fault; true: one faulted. -/
def State.stores (n : Nat) (t : Step) (r : Running) : State → List (Nat × Nat × Nat) → State × Bool
  | s, [] => (s, false)
  | s, m :: ms =>
    match s.storeAt n t r m.1 m.2.1 m.2.2 with
    | some u => State.stores n t r (u.windowBytes n t r m.1 m.2.1 true) ms
    | none => (s, true)

/-- What the instruction with a word, of a length, does on a pair (R110, R111); none is a program fault. -/
def State.coreStep (s : State) (n : Nat) (p : Pair) (t : Step) (r : Running) (len w : Nat) : Option RvOut :=
  let c : RvIn := { p := p, next := p.pc + BitVec.ofNat 64 len, now := s.time.now, k := s.freshCtr }
  if isVecWord w then c.execV (s.loadAt n t r) w else c.exec (s.loadAt n t r) w

/-- The registers of the core after an instruction. -/
def Pair.take (p q : Pair) : Pair :=
  { p with x := q.x, f := q.f, v := q.v, pc := q.pc, frm := q.frm, fflags := q.fflags, vcsr := q.vcsr, resv := q.resv }

/-- An error in one core changes something that the pair compares (R109): the pc; the destination value of an instruction that writes a
register; the address or the data of a store. -/
def RvOut.struck (o : RvOut) (k : CoreStrike) : Bool :=
  decide (k.mask ≠ 0) && (match k.place with
    | .pc => true
    | .dest => o.writes
    | .storeAddr => !o.stores.isEmpty
    | .storeData => !o.stores.isEmpty
    | .loomOperands => false)

/-- The same of an instruction with a row of its own: rdtime and most Loom control instructions write a register, ecall and ebreak do not, and
a Loom control instruction has operands (R109, R118). -/
def rowStruck (w : Nat) (k : CoreStrike) : Bool :=
  let loom := isLoomWord (BitVec.ofNat 32 w)
  decide (k.mask ≠ 0) && (match k.place with
    | .pc => true
    | .dest => if loom then !([6, 7, 8, 12].contains (bitsN w 31 25)) else decide (w ≠ 0x73) && decide (w ≠ 0x100073)
    | .storeAddr => false
    | .storeData => false
    | .loomOperands => loom)

/-- The cores differ (R109): the pair halts, and the owning context is killed. -/
def State.lockstepFault (s : State) (n : Nat) (t : Step) (r : Running) (pc : Dword) : State :=
  let s1 := (s.endCtx t.ctx 3).modPair n (fun p => { p with halted := true })
  (bumpAon s1 (dieNo (weftOf n)) 11 1).raisePair n 0x10 t r pc

/-- An instruction retires with what it does: its loads count, its stores land, and the core's registers follow; a store that faults is a
program fault (R111, R112, R115). -/
def State.retireRv (s : State) (n : Nat) (t : Step) (r : Running) (pc : Dword) (clocks : Nat) (o : RvOut) : State :=
  let s1 := o.loads.foldl (fun u m => u.windowBytes n t r m.1 m.2 false) s
  let a := State.stores n t r s1 o.stores
  if a.2 then a.1.progFault n t r pc
  else
    (({ a.1 with freshCtr := a.1.freshCtr + o.draws }).modPair n (fun q =>
      { q.take o.pair with
        debugStep := false
        run := q.run.map (fun (x : Running) => { x with clocks := x.clocks + clocks, instrs := x.instrs + 1 }) })).retired n t false

/-- RV64_INSTRUCTION (R109 to R115, R248, R251): the instruction at the pc, with lockstep comparison, program faults, accesses under the
address map with the checks on them, and retirement.  An instruction that has a row of its own retires with that row's command. -/
def execRv64Instruction (pair : Nat) (strike : Option CoreStrike) (ecc : Bool) (clocks : Nat) (chk : ReadChecks) (s : State) :
    Host.Outcome State Fault Refusal :=
  .next (s.onPair pair (fun p r t =>
    if ecc then (s.endCtx t.ctx 2).raisePair pair 0x14 t r p.pc
    else
      match p.fetch with
      | none => s.progFault pair t r p.pc
      | some i =>
        if (rowOf pair Move.none (BitVec.ofNat 32 i.2)).isSome then
          (if strike.any (rowStruck i.2) then s.lockstepFault pair t r p.pc else s)
        else
          match s.coreStep pair p t r i.1 i.2 with
          | none => s.progFault pair t r p.pc
          | some o =>
            if strike.any o.struck then s.lockstepFault pair t r p.pc
            else
              let s1 := s.readChecks chk (some t.ctx)
              if !s1.live t.id then s1 else s1.retireRv pair t r p.pc clocks o))

/-- The instruction at a pair's pc spells a command. -/
def Pair.spells (p : Pair) (n : Nat) (mv : Move) (i : Instr) : Bool :=
  decide (p.fetch.bind (fun x => rowOf n mv (BitVec.ofNat 32 x.2)) = some i)

/-- A pair executes the instruction of a command, which stands at its pc. -/
def State.onRow (s : State) (n : Nat) (mv : Move) (i : Instr) (go : Pair → Running → Step → State) : State :=
  s.onPair n (fun p r t => if p.spells n mv i then go p r t else s)

/-- RDTIME (R118): device time in nanoseconds. -/
def execRdtime (pair rd : Nat) (s : State) : Host.Outcome State Fault Refusal :=
  .next (s.onRow pair Move.none (.rdtime pair rd) (fun _ _ t => s.doneStd pair t (fun p => p.setX rd s.time.now)))

/-- EBREAK (R115): a program fault. -/
def execEbreak (pair : Nat) (s : State) : Host.Outcome State Fault Refusal :=
  .next (s.onRow pair Move.none (.ebreak pair) (fun p r t => s.progFault pair t r p.pc))

/-! ### Hinges (R121, R277, R278, R289, R291) -/

/-- A die has reached a hinge of a step: the reporting program waits there, the step's other programs have ended, its operations and
transfers have drained, and no proof input or slice holds the die (R289, R291). -/
def State.hingeAt (s : State) (t : Step) (d : Weft) : Option Nat :=
  let w := s.weft d
  let rs := w.pairs.flatMap (fun p => (p.run.toList ++ p.queued).filter (fun r => r.step == t.id))
  if rs.length ≠ 1 ∨ s.checksHold d ∨ w.ops.any (fun o => o.members.any (fun m => m.step == t.id)) then none
  else (w.pairs.find? (fun p => (p.run.map (fun r => r.step == t.id)).getD false)).bind (fun p => match p.stall with
    | some (.hinge h) => some h
    | _ => none)

/-- The hinge that a step has reached on every die it runs on. -/
def State.hingeOf (s : State) (t : Step) : Option Nat :=
  match (if t.onA then s.hingeAt t .a else none), (if t.onB then s.hingeAt t .b else none) with
  | some a, some b => if a = b then some a else none
  | some a, none => if t.onB then none else some a
  | none, some b => if t.onA then none else some b
  | none, none => none

/-- The step that pre-empts a running one at its hinge: for an LC step one with a strictly earlier deadline, for a BE step any LC
step (R277, R278). -/
def State.preemptor (s : State) (t : Step) : Option Step :=
  match earliest s.lcChoices with
  | none => none
  | some u => if !t.lc || decide (u.deadline.getD 0 < t.deadline.getD 0) then some u else none

/-- The pairs that run a step's program go on, with every register intact (R121). -/
def WeftDie.passHinge (w : WeftDie) (id : Nat) : WeftDie :=
  { w with pairs := w.pairs.map (fun (p : Pair) => if (p.run.map (fun r => r.step == id)).getD false then { p with stall := none } else p) }

/-- The clocks of a step's program on a die. -/
def State.progClocks (s : State) (t : Step) (d : Weft) : Option Nat :=
  if t.on d then ((s.weft d).pairs.filterMap (fun p => p.run.bind (fun r => if r.step = t.id then some r.clocks else none))).head? else none

/-- The pairs that ran a step's program are free; no register is kept (R121). -/
def State.freePairs (s : State) (id : Nat) : State :=
  let k := s.freshCtr
  let f := fun (k0 : Nat) (w : WeftDie) => { w with pairs := w.pairs.zipIdx.map (fun x =>
    if (x.1.run.map (fun r => r.step == id)).getD false then { (x.1.lost (k0 + x.2 * pairDraws)) with run := none, stall := none, debugStep := false } else x.1) }
  let s1 := { s with wa := f k s.wa, wb := f (k + 4 * pairDraws) s.wb, freshCtr := k + 8 * pairDraws }
  { s1 with
    wa := { s1.wa with pairs := s1.wa.pairs.map s1.pairNext }
    wb := { s1.wb with pairs := s1.wb.pairs.map s1.pairNext } }

/-- A step is pre-empted: it gives up the array, and the next step is chosen. -/
def State.preempted (s : State) (id : Nat) : State :=
  (((s.freePairs id).modStep id (fun x => { x with stage := .preempted })).releaseArray id).startPicked

/-- The choice point of a running step's hinge, once every die has reached it (R277, R289). -/
def State.tryHinge (s : State) (id : Nat) : State :=
  match s.step? id with
  | none => s
  | some t =>
    if t.stage ≠ .running then s
    else
      match s.hingeOf t with
      | none => s
      | some h =>
        match s.preemptor t with
        | none => { s with wa := s.wa.passHinge id, wb := s.wb.passHinge id }.progress (monKey .context t.ctx 0)
        | some u =>
          let s1 := (s.progress (monKey .context t.ctx 0)).modStep id (fun x => { x with stage := .saving, hinge := some h, resumeA := s.progClocks t .a, resumeB := s.progClocks t .b })
          let s2 := { s1 with sched := { s1.sched with nextStart := some u.id, picked := some u.id } }
          if (((s.stepDraft t).hinges[h]?).map (fun g => g.lrCount == 0)).getD true then
            (s2.modStep id (fun x => { x with saved := some (0, 0) })).preempted id
          else s2

/-- ECALL (R114, R115): with a7 = 0 the program ends, and its ticket completes; any other a7 is a program fault. -/
def execEcall (pair : Nat) (s : State) : Host.Outcome State Fault Refusal :=
  .next (s.onRow pair Move.none (.ecall pair) (fun p r t =>
    if p.getX 17 ≠ 0 then s.progFault pair t r p.pc
    else
      let s1 := s.doneStd pair t (fun q => { q with run := none, stall := none })
      let s2 := match r.ticket with
        | some k => s1.ticketDone (weftOf pair) k
        | none => s1
      (s2.modPair pair s2.pairNext).tryHinge t.id))

/-- LM_HINGE (R121): an absent hinge is a program fault; a latch still held kills the context; else the hinge is reported and the
program waits for the choice.  Any program of the step may report a hinge (DESIGN CHOICE, log entry 121). -/
def execLmHinge (pair rs1 : Nat) (s : State) : Host.Outcome State Fault Refusal :=
  .next (s.onRow pair Move.none (.lmHinge pair rs1) (fun p r t =>
    let h := (p.getX rs1).toNat % 2 ^ 14
    if (s.stepDraft t).hinges.length ≤ h then s.progFault pair t r p.pc
    else if s.latches.any (fun l => decide (l.2 = .program t.ctx)) then
      (s.endCtx t.ctx 3).raise (weftSrc (weftOf pair) 0x1E) (cap (some t.ctx) (pairMaster pair) 0 0 0)
    else (s.doneLm pair t (fun q => { q with stall := some (.hinge h) })).tryHinge t.id))

/-! ### Operations (R118, R119, R123, R257) -/

/-- A layer instruction: the layer must exist and belong to the unit (log entry 32). -/
def State.issueLayer (s : State) (pair rd rs1 : Nat) (u : OpUnit) (i : Instr) : State :=
  s.onRow pair Move.none i (fun p r t =>
    let l := (p.getX rs1).toNat % 2 ^ 14
    let dr := s.stepDraft t
    let d := weftOf pair
    if !(decide (l < dr.layers.length) && decide ((dr.layer l).unit = u)) then s.progFault pair t r p.pc
    else s.issue pair rd t (s.queueFull d u) (fun k s1 =>
      let m : OpMember := { step := t.id, pair := pair, ticket := k, rows := (dr.layer l).m }
      if u = .array then s1.request d t l m else s1.pushOp d u { entry := t.entry, kind := .layer l, members := [m], pass := 0 }))

/-- LM_OP (R118, R100, R101). -/
def execLmOp (pair rd rs1 : Nat) (s : State) : Host.Outcome State Fault Refusal := .next (s.issueLayer pair rd rs1 .array (.lmOp pair rd rs1))

/-- LM_REED (R118). -/
def execLmReed (pair rd rs1 : Nat) (s : State) : Host.Outcome State Fault Refusal := .next (s.issueLayer pair rd rs1 .reed (.lmReed pair rd rs1))

/-- LM_FIN (R118). -/
def execLmFin (pair rd rs1 : Nat) (s : State) : Host.Outcome State Fault Refusal := .next (s.issueLayer pair rd rs1 .finish (.lmFin pair rd rs1))

/-- How often a step has used a placement's stages or evicts on a die. -/
def useCount (l : List (Nat × Nat)) (k : Nat) : Nat := (lookupN l k).getD 0

/-- A stage or evict instruction: program faults under R257, else queued. -/
def State.issueCopy (s : State) (pair rd rs1 rs2 : Nat) (out : Bool) : State :=
  s.onRow pair Move.none (if out then .lmEvict pair rd rs1 rs2 else .lmStage pair rd rs1 rs2) (fun p r t =>
    let pl := (p.getX rs1).toNat
    let part := (p.getX rs2).toNat
    let dr := s.stepDraft t
    let d := weftOf pair
    let key := 2 * pl + (match d with | .a => 0 | .b => 1)
    let x := dr.placements.getD pl Placement.zero
    let used := useCount (if out then t.evictsUsed else t.stagesUsed) key
    if !(decide (pl < dr.placements.length) && decide (x.parts ≠ 0) && decide (part < x.parts)
        && decide (used < (if out then x.evicts else x.stages))) then s.progFault pair t r p.pc
    else s.issue pair rd t (s.queueFull d .stage) (fun k s1 =>
      let s2 := s1.modStep t.id (fun y => if out then { y with evictsUsed := insertN y.evictsUsed key (used + 1) }
        else { y with stagesUsed := insertN y.stagesUsed key (used + 1) })
      s2.pushOp d .stage { entry := t.entry, kind := if out then .evict pl part else .stage pl part,
                           members := [{ step := t.id, pair := pair, ticket := k, rows := 0 }], pass := 0 }))

/-- LM_STAGE (R257). -/
def execLmStage (pair rd rs1 rs2 : Nat) (s : State) : Host.Outcome State Fault Refusal := .next (s.issueCopy pair rd rs1 rs2 false)

/-- LM_EVICT (R257). -/
def execLmEvict (pair rd rs1 rs2 : Nat) (s : State) : Host.Outcome State Fault Refusal := .next (s.issueCopy pair rd rs1 rs2 true)

/-- A decode or coding instruction (R123): counts of 1 to 4,096, rows of a coded tensor, and data memory that holds them; else a
program fault.  The command carries what it moves (log entry 33). -/
def State.issueMove (s : State) (pair rd rs1 rs2 : Nat) (mv : Move) (enc : Bool) : State :=
  s.onRow pair mv (if enc then .lmEnc pair rd rs1 rs2 mv else .lmDec pair rd rs1 rs2 mv) (fun p r t =>
    let j := mv.tensor
    let row := mv.row
    let n := mv.count
    let ch := mv.channels
    let off := (p.getX rs2).toNat
    let dr := s.stepDraft t
    let d := weftOf pair
    let ok := between 1 n 4096 && between 1 ch 4096 && decide (j < dr.tensors.length) && decide ((dr.tensor j).type = 0)
      && decide (row + n ≤ (dr.tensor j).rows) && decide (ch ≤ (dr.tensor j).rowLen) && decide (off + 4 * n * ch ≤ 131072)
    if !ok then s.progFault pair t r p.pc
    else s.issue pair rd t (s.queueFull d .reed) (fun k s1 =>
      s1.pushOp d .reed { entry := t.entry, kind := if enc then .enc j row n ch off else .dec j row n ch off,
                          members := [{ step := t.id, pair := pair, ticket := k, rows := n }], pass := 0 }))

/-- LM_DEC (R123). -/
def execLmDec (pair rd rs1 rs2 : Nat) (mv : Move) (s : State) : Host.Outcome State Fault Refusal := .next (s.issueMove pair rd rs1 rs2 mv false)

/-- LM_ENC (R123). -/
def execLmEnc (pair rd rs1 rs2 : Nat) (mv : Move) (s : State) : Host.Outcome State Fault Refusal := .next (s.issueMove pair rd rs1 rs2 mv true)

/-- The next enabled pair of the die after a pair, cyclically (R118, R117). -/
def State.nextPair (s : State) (n : Nat) : Nat :=
  let base := n / 4 * 4
  (((List.range 4).map (fun i => base + (n + 1 + i) % 4)).find? (fun k => s.pairOn k && s.unitUp (.pair k))).getD n

/-- LM_SPAWN (R118): the program starts on the next enabled pair, after that pair's own programs (R117); its ticket completes when it
ends. -/
def execLmSpawn (pair rd rs1 rs2 : Nat) (s : State) : Host.Outcome State Fault Refusal :=
  .next (s.onRow pair Move.none (.lmSpawn pair rd rs1 rs2) (fun p r t =>
    let i := (p.getX rs1).toNat % 256
    match (s.stepDraft t).programs[i]? with
    | none => s.progFault pair t r p.pc
    | some prog => s.issue pair rd t false (fun k s1 =>
        s1.runOn (s.nextPair pair) prog { step := t.id, program := i, tickets := [], clocks := 0, instrs := 0, ticket := some k,
                                          arg := p.getX rs2, start := prog.entry, parent := pair })))

/-! ### Waiting, latches and attributes (R118, R119, R122) -/

/-- A pair stalls on tickets, and the stall counts (event 0x025). -/
def State.stallOn (s : State) (pair : Nat) (t : Step) (x : Stall) : State :=
  (s.doneLm pair t (fun q => { q with stall := some x })).countFree (workEv (dieNo (weftOf pair)) 0x025 (some (pair % 4)) 0 t)

/-- LM_WAIT (R118): stalls until the ticket completes; one not in flight has completed. -/
def execLmWait (pair rs1 : Nat) (s : State) : Host.Outcome State Fault Refusal :=
  .next (s.onRow pair Move.none (.lmWait pair rs1) (fun p _ t =>
    let k := (p.getX rs1).toNat % 256
    if (s.weft (weftOf pair)).tickets.contains k then s.stallOn pair t (.ticket k) else s.doneLm pair t id))

/-- LM_SYNC (R118): stalls until every ticket of the program completes. -/
def execLmSync (pair : Nat) (s : State) : Host.Outcome State Fault Refusal :=
  .next (s.onRow pair Move.none (.lmSync pair) (fun _ r t => if r.tickets.isEmpty then s.doneLm pair t id else s.stallOn pair t .all))

/-- A latch instruction is a program fault for a program without latch use and outside the context's grant (R122, R154). -/
def State.latchGrant (s : State) (t : Step) (r : Running) (l : Nat) : Bool :=
  ((s.program r).map (fun p => p.latchUse)).getD false
    && ((s.ctx? t.ctx).map (fun c => decide (c.latchBase ≤ l) && decide (l < c.latchBase + c.latchCount))).getD false

/-- LM_LACQ (R118, R122): 1 when the context takes or holds the latch, 0 when it is held elsewhere. -/
def execLmLacq (pair rd rs1 : Nat) (s : State) : Host.Outcome State Fault Refusal :=
  .next (s.onRow pair Move.none (.lmLacq pair rd rs1) (fun p r t =>
    let l := (p.getX rs1).toNat % 2 ^ 12
    if !s.latchGrant t r l then s.progFault pair t r p.pc
    else
      match lookupN s.latches l with
      | none => ({ s with latches := insertN s.latches l (.program t.ctx) }).doneLm pair t (fun q => q.setX rd 1)
      | some h => s.doneLm pair t (fun q => q.setX rd (if h = .program t.ctx then 1 else 0))))

/-- LM_LREL (R118, R122): a latch that the context does not hold stays as it is. -/
def execLmLrel (pair rs1 : Nat) (s : State) : Host.Outcome State Fault Refusal :=
  .next (s.onRow pair Move.none (.lmLrel pair rs1) (fun p r t =>
    let l := (p.getX rs1).toNat % 2 ^ 12
    if !s.latchGrant t r l then s.progFault pair t r p.pc
    else
      let s1 := if lookupN s.latches l = some (.program t.ctx) then { s with latches := eraseN s.latches l } else s
      s1.doneLm pair t id))

/-- A step attribute that lm.rd reads (R118).  Of a step without a batch input the batch index and the substitution mask read 0 (DESIGN
CHOICE, log entry 155). -/
def State.attribute (s : State) (t : Step) (d : Weft) (sel : Nat) : Dword :=
  match sel with
  | 0 => BitVec.ofNat 64 t.ctx
  | 1 => t.counter
  | 2 => BitVec.ofNat 64 (if t.batch then t.batchIndex else 0)
  | 3 => BitVec.ofNat 64 (s.stepSubst t)
  | 4 => t.seed
  | 5 => BitVec.ofNat 64 s.mode
  | 6 => (match d with | .a => 0 | .b => 1)
  | _ => 0

/-- LM_RD (R118). -/
def execLmRd (pair rd sel : Nat) (s : State) : Host.Outcome State Fault Refusal :=
  .next (s.onRow pair Move.none (.lmRd pair rd sel) (fun _ _ t => s.doneLm pair t (fun q => q.setX rd (s.attribute t (weftOf pair) sel))))

/-- A pair's watchdog counts: its program runs, or waits at a hinge; clocks stalled on tickets do not count (R116), and none pass for a
pair that is halted. -/
def Pair.watched (p : Pair) : Option Running :=
  match p.stall with
  | some (.ticket _) => none
  | some .all => none
  | some (.hinge _) => if p.halted || p.debugHalt || p.testing then none else p.run
  | none => p.active

/-- SHUTTLE_BUDGET_EXPIRY (R116): the program's watchdog passes its budget. -/
def execShuttleBudgetExpiry (pair : Nat) (s : State) : Host.Outcome State Fault Refusal :=
  .next (match s.pair? pair with
    | none => s
    | some p =>
      match p.watched with
      | none => s
      | some r =>
        match s.step? r.step with
        | none => s
        | some t =>
          if s.clocked (.shuttle (weftOf pair)) && s.pairOn pair && s.unitUp (.pair pair) then
            (s.endCtx t.ctx 3).raisePair pair 0x18 t r p.pc
          else s)

end Machine

end Sys2Proof
end

