-- ==== Sys2Proof/Machine/Flow.lean ====
section
/-! DEFINITION. Queued operations from their start to their retirement, hinge saves and restores (R94, R98, R99, R101, R105, R106,
R119, R120, R124, R126, R132, R137, R191, R257, R289, R429). -/

namespace Sys2Proof

namespace Machine

/-! ### Beam regions (R120) -/

/-- Two regions share a byte. -/
def meets (a b : Region) : Bool := decide (a.1 = b.1) && decide (a.2.1 < b.2.1 + b.2.2) && decide (b.2.1 < a.2.1 + a.2.2)

/-- The regions of rows r to r + n - 1 of a tensor in a die's Beam SRAM: a resident tensor's code rows and their scales; all of the tensor's
window where it is staged in parts. -/
def Env.rowsOn (e : Env) (d : Weft) (j r n : Nat) : List Region :=
  let t := e.draft.tensor j
  if !t.batchInput && (e.draft.place j).parts != 0 then e.regionOn d j
  else (e.regionOn d j).flatMap (fun x =>
    (x.1, x.2.1 + r * t.pitch, n * t.pitch) :: (if t.type = 0 && !t.heldB16 then [(x.1, x.2.1 + t.scaleOff + r, n)] else []))

/-- The regions an operation of a step on a die reads, and those it writes. -/
def Env.footprint (e : Env) (k : OpKind) : List Region × List Region :=
  let both := fun (j : Nat) => e.regionOn .a j ++ e.regionOn .b j
  let near := fun (j : Nat) => if (e.draft.place j).dies = 0 then e.regionOn e.die j else both j
  let rows := fun (ds : List Weft) (j r n : Nat) => ds.flatMap (fun d => e.rowsOn d j r n)
  match k with
  | .layer l =>
    let lay := e.draft.layer l
    ((e.draft.inputs lay).flatMap near, if e.draft.whole && lay.onArray then both lay.out else e.regionOn e.die lay.out)
  | .stage p part => ([], [(e.die, (e.draft.placements.getD p Placement.zero).partAt e.die part, e.draft.partLen p part)])
  | .evict p part => ([(e.die, (e.draft.placements.getD p Placement.zero).partAt e.die part, e.draft.partLen p part)], [])
  | .dec j r n _ _ => (rows (if (e.draft.place j).dies = 0 then [e.die] else [.a, .b]) j r n, [])
  | .enc j r n _ _ => ([], rows [e.die] j r n)

/-- The footprint of an operation on a die, over its members. -/
def State.opFootprint (s : State) (d : Weft) (o : Op) : List Region × List Region :=
  let l := (o.members.filterMap (fun m => s.step? m.step)).map (fun t => (s.env t d).footprint o.kind)
  (l.flatMap (fun x => x.1), l.flatMap (fun x => x.2))

/-- The operations in flight on a die, with the die. -/
def State.inFlight (s : State) (d : Weft) : List (Weft × Op) :=
  let w := s.weft d
  (w.arrayRun.toList ++ w.reedRun.toList ++ w.finishRun.toList ++ w.stageRun.toList).map (fun o => (d, o))

/-- An operation that would start touches a region being written by another one in flight (R120); the two dies' shares of one array
operation are no two operations. -/
def State.hazard (s : State) (d : Weft) (o : Op) : Bool :=
  let f := s.opFootprint d o
  (s.inFlight .a ++ s.inFlight .b).any (fun x =>
    !(decide (x.1 ≠ d) && decide (x.2.kind = o.kind) && decide (x.2.entry = o.entry))
      && (s.opFootprint x.1 x.2).2.any (fun w => (f.1 ++ f.2).any (meets w)))

/-! ### Starting (R119, R120, R105, R106, R429, R132) -/

/-- A unit of a die takes operations: clocked, enabled, out of reset. -/
def State.unitFree (s : State) (d : Weft) (u : OpUnit) : Bool :=
  let on := fun (x : UnitId) => !s.isDisabled x && s.unitUp x
  match u with
  | .array => s.clocked (.loom d) && (enginesOf d).any s.engineTakes
  | .reed => s.clocked (.loom d) && on (.reed d)
  | .finish => s.clocked (.loom d) && on (.finish d)
  | .stage => s.clocked (.weftFabric d)

/-- The operation's members belong to a Whole-tiling draft. -/
def State.opWhole (s : State) (o : Op) : Bool :=
  ((o.members.head?).bind (fun m => s.step? m.step)).map (fun t => (s.stepDraft t).whole) == some true

/-- The other die runs its share of an operation of a Whole step: this die's share starts even while a proof input is due, since both
end together (R94, R435). -/
def State.twinRuns (s : State) (d : Weft) (o : Op) : Bool :=
  let c := (s.weft d).checks
  decide (c.phase = .due) && c.slice.isNone && s.opWhole o && (match (s.weft (otherDie d)).arrayRun with
    | some x => decide (x.kind = o.kind) && decide (x.entry = o.entry) && x.pass == o.pass
    | none => false)

/-- A proof input or a slice holds array, Reed and Finish of the die (R290, R435). -/
def State.opHeld (s : State) (d : Weft) (u : OpUnit) (o : Op) : Bool :=
  decide (u ≠ .stage) && s.checksHold d && !(decide (u = .array) && s.twinRuns d o)

/-- The first member of an operation. -/
def Op.first (o : Op) : Option OpMember := o.members.head?

/-- A checker's report ends the owning context and raises its source (R106, R429, R132, R457); `aon`, `code`: the counters of R518. -/
def State.checkFault (s : State) (d : Weft) (m : Option OpMember) (src : Nat) (master : Byte) (access row detail : Nat)
    (counts : Option (Nat × Nat × Nat)) : State :=
  match m.bind (fun x => s.step? x.step) with
  | none => s
  | some t =>
    let s0 := match counts with
      | some (code, inst, j) => bumpAon (countEv s { Ev.plain (dieNo d) code (some inst) 1 with ctx := some t.ctx }) (dieNo d) j 1
      | none => s
    (s0.endCtx t.ctx 3).raise (weftSrc d src) (cap (some t.ctx) master access (BitVec.ofNat 64 row) detail)

/-- An error strikes a starting array operation (R105 to R107): the residue check reports it, or it stays in the operation. -/
def State.struck (s : State) (d : Weft) (o : Op) (row chan : Nat) (at' : Layer → Env → Strike) (delta : Int) : State :=
  match rowOwner o.members row, s.opLayer o with
  | some m, some (_, l) =>
    match s.step? m.step with
    | none => s
    | some t =>
      let r := if 1 < l.batches then o.pass * l.mb + row else row - m.base
      match s.strike d t l o row r chan (at' l) delta with
      | .missed => s
      | .reported e cube col =>
        s.checkFault d (some m) (e % 4) (BitVec.ofNat 8 (0x70 + e)) 4 row (e + 256 * cube + 65536 * col) (some (0x00A, e % 4, 9))
      | .silent u => s.modWeft d (fun w => { w with arrayRun := w.arrayRun.map (fun x => { x with upsets := u :: x.upsets }) })
  | _, _ => s

/-- What an operation's checkers report (R105, R106, R429, R132). -/
def State.checked (s : State) (d : Weft) (u : OpUnit) (o : Op) (c : OpCheck) : State :=
  let reed : Byte := match d with | .a => 0xA0#8 | .b => 0xA1#8
  match c, u with
  | .product row chan pos delta, .array => s.struck d o row chan (fun l e => e.strikeCube l pos) delta
  | .lane row chan seg delta, .array => s.struck d o row chan (fun l e => e.strikeLane l seg) delta
  | .combined row chan group delta, .array =>
    if (s.opLayer o).any (fun x => decide (1 < x.2.ks)) then s.struck d o row chan (fun l e => e.strikeSum l group) delta else s
  | .coder e row, .array =>
    if (enginesOf d).contains e && s.engineTakes e then
      s.checkFault d (rowOwner o.members row) (4 + e % 4) (BitVec.ofNat 8 (0x70 + e)) 4 row e (some (0x00B, e % 4, 10))
    else s
  | .coder 8 row, .reed => s.checkFault d o.first 0x0D reed 5 row 8 (some (0x00B, 8, 10))
  | .reedIntegrity, .reed => s.checkFault d o.first 0x0C reed 5 0 0 none
  | _, _ => s

/-- The master of a unit that starts an operation, for a capture. -/
def unitMaster (d : Weft) (u : OpUnit) (o : Op) : Byte :=
  match u, d with
  | .array, .a => 0x70#8
  | .array, .b => 0x74#8
  | .reed, .a => 0xA0#8
  | .reed, .b => 0xA1#8
  | .finish, .a => 0xB0#8
  | .finish, .b => 0xB1#8
  | .stage, _ => ((o.first).map (fun m => pairMaster m.pair)).getD noMaster

/-- QUEUED_OP_START (R119, R120): the unit's next operation starts in order, after the hazard check; its checkers then report. -/
def execQueuedOpStart (d : Weft) (u : OpUnit) (chk : OpCheck) (s : State) : Host.Outcome State Fault Refusal :=
  match (s.weft d).queue u with
  | [] => .next s
  | o :: rest =>
    .next (if !s.unitFree d u || ((s.weft d).runOf u).isSome || s.opHeld d u o then s
      else if s.hazard d o then
        let cs := s.opCtxs [o]
        (s.endCtxs cs 3).raise (weftSrc d 0x1C) (cap cs.head? (unitMaster d u o) 0 0 0)
      else
        let s1 := s.modWeft d (fun w => (w.setQueue u rest).setRun u (some o))
        let s2 := if u = .array then s1.modWeft d (fun w => { w with engines := s.startEngines d o }) else s1
        s2.checked d u o chk)

/-- GATHER_HOLD_EXPIRY (R101): windows of an entry and layer whose hold limit has passed close. -/
def execGatherHoldExpiry (entry layer : Nat) (s : State) : Host.Outcome State Fault Refusal :=
  .next ((s.sched.windows.filter (fun w => !w.closed && w.entry == entry && w.layer == layer
    && decide (w.openTime.toNat + w.limitUs * 1000 ≤ s.time.now.toNat))).foldl State.closeWindow s)

/-! ### Ends: an operation ends only while the clock of its unit runs (R380) -/

/-- What an operation does for each of its members. -/
def State.opEffect (s : State) (d : Weft) (o : Op) : State :=
  o.members.foldl (fun u m => match o.kind with
    | .layer l => u.layerEffect m.step d l o.upsets
    | .stage p part => u.copyPart d m p part false
    | .evict p part => u.copyPart d m p part true
    | .dec j r n c off => u.runDec d m j r n c off
    | .enc j r n c off => u.runEnc d m j r n c off) s

/-- WHOLE_BARRIER (R94, R124): both dies end their array operation and exchange the layer index; a mismatch kills the context.  The
rows of both dies are written when they meet. -/
def execWholeBarrier (s : State) : Host.Outcome State Fault Refusal :=
  match s.wa.arrayRun, s.wb.arrayRun, s.wa.barrier, s.wb.barrier with
  | some a, some b, none, none =>
    .next (if !(s.opWhole a && s.opWhole b) then s
      else if a.kind ≠ b.kind ∨ a.pass ≠ b.pass then
        let cs := s.opCtxs [a, b]
        let c := cap cs.head? noMaster 0 0 0
        ((s.endCtxs cs 3).raise (weftSrc .a 0x1D) c).raise (weftSrc .b 0x1D) c
      else
        let s1 := if s.opLast a then (s.opEffect .a a).opEffect .b b else s
        { s1 with wa := { s1.wa with barrier := some a.pass }, wb := { s1.wb with barrier := some b.pass } })
  | _, _, _, _ => .next s

/-! ### Beam SRAM bytes that operations move (R513, R518) -/

/-- Where the bytes of channels [lo, hi) of row r of a tensor lie in it, with the row's padding after the last code (R36, R148): offset and
length. -/
def Tensor.piece (t : Tensor) (r lo hi : Nat) : Nat × Nat :=
  (r * t.pitch + t.pieceBytes lo, (if hi < t.rowLen || t.heldB16 then t.pieceBytes hi else t.pitch) - t.pieceBytes lo)

/-- Bytes moved between a unit and Beam SRAM: the master, the die, the offset there, and how many. -/
structure BeamMove where
  master : Byte
  die : Weft
  off : Nat
  len : Nat
deriving DecidableEq, Repr

/-- The moves of whole row r of tensor j: its codes or words, and its scale. -/
def Env.rowMoves (e : Env) (m : Byte) (d : Weft) (j r : Nat) : List BeamMove :=
  let t := e.draft.tensor j
  let p := t.piece r 0 t.rowLen
  { master := m, die := d, off := e.addr d j p.1, len := p.2 }
    :: (if t.heldB16 then [] else [{ master := m, die := d, off := e.addr d j (t.scaleOff + r), len := 1 }])

/-- What the drains of a die write of row r of a layer's output, row p of the operation: each engine the channels of its N-blocks; the
scale, where the holder's own drains produce no channel of the row, or on this die, the first of them (R90, R256, R261; log entry 149). -/
def State.drainWrites (s : State) (d : Weft) (o : Op) (t : Step) (l : Layer) (p r : Nat) : List BeamMove :=
  let e := s.env t d
  let x := e.draft.tensor l.out
  let tile := fun (b : Nat) => e.draft.tileOf l (o.m l) p (b * l.nspan) 0
  let mine := fun (h : Weft) => (List.range l.ns).filter (fun b => decide (b * l.nspan < l.n) && (tileHome h e.draft.whole (tile b)).isSome)
  (mine d).flatMap (fun b =>
    let m := BitVec.ofNat 8 (0x70 + 4 * weftNo d + (s.tileEngine d e.draft.whole (tile b)).getD 0)
    (e.holders true l.out r).flatMap (fun h =>
      let c := x.piece r (b * l.nspan) (min l.n ((b + 1) * l.nspan))
      ({ master := m, die := h, off := e.addr h l.out c.1, len := c.2 } : BeamMove)
        :: (if x.heldB16 || (mine d).head? != some b || (h != d && !(mine h).isEmpty) then []
            else [{ master := m, die := h, off := e.addr h l.out (x.scaleOff + r), len := 1 }])))

/-- What an operation of a die writes into Beam SRAM, with the step it works for (R125, R137, R205, R206, R261). -/
def State.opWrites (s : State) (d : Weft) (u : OpUnit) (o : Op) : List (Step × BeamMove) :=
  o.members.flatMap (fun m => match s.step? m.step with
    | none => []
    | some t =>
      let e := s.env t d
      let w := unitMaster d u o
      let raw := fun (j off n : Nat) => (e.holders false j 0).map (fun h => ({ master := w, die := h, off := e.addr h j off, len := n } : BeamMove))
      (match o.kind with
        | .layer k =>
          let l := e.draft.layer k
          if l.onArray then
            (if 1 < l.batches then (List.range l.mb).flatMap (fun p => s.drainWrites d o t l p (o.pass * l.mb + p))
             else (List.range m.rows).flatMap (fun r => s.drainWrites d o t l (m.base + r) r))
          else if l.op = 0x16 then
            [{ master := w, die := d, off := e.addr d l.out 0, len := (e.resultSet (t.writtenOn e) (s.stepBatchTime t) (t.digest e)).length }]
          else if l.onFinish then
            (if l.op = 0x14 then e.argmax l else e.topk l).flatMap (fun (r : Nat × List Byte) => raw l.out (r.1 * (e.draft.tensor l.out).pitch) r.2.length)
          else (e.layerRows l).rows.flatMap (fun (r : RowRes) => (e.holders false l.out r.row).flatMap (fun h => e.rowMoves w h l.out r.row))
        | .enc j row n _ _ => (List.range n).flatMap (fun i => if e.rowDie j (row + i) = d then e.rowMoves w d j (row + i) else [])
        | _ => []).map (fun x => (t, x)))

/-- Bytes that units move are counted where the SRAM lies; those for the other die also cross links 4 to 7 (R269, R270, R513, R518). -/
def State.countMoves (s : State) (d : Weft) (write : Bool) (ws : List (Step × BeamMove)) : State :=
  ws.foldl (fun u x =>
    let e := { workEv (dieNo d) 0 none 0 x.1 with master := some x.2.master.toNat }
    let v := u.beamBytes x.2.die write x.2.off x.2.len e
    if x.2.die = d then v else v.linkBytes (dieNo d) (dieNo x.2.die) e x.2.len) s

/-- The time that a step held the array grows (R297); events 0x001 and always-on counter 0 of its dies (R518, R519). -/
def State.holdClocks (s : State) (n : Nat) : State :=
  match s.sched.running.bind s.step? with
  | none => s
  | some t =>
    let s1 := s.modStep t.id (fun x => { x with measured := x.measured + n })
    [Weft.a, Weft.b].foldl (fun u d => if t.on d then bumpAon (countEv u (workEv (dieNo d) 0x001 none n t)) (dieNo d) 0 n else u) s1

/-- The frozen clocks of an array operation: events 0x002 to 0x006, and always-on counter 1 for all of them (R86, R88, R518, R519). -/
def State.countFreezes (s : State) (d : Weft) (t : Step) (o : Op) (f : Freezes) : State :=
  let l := s.freezesOf d o f
  bumpAon (l.zipIdx.foldl (fun u x => countEv u (workEv (dieNo d) (0x002 + x.2) none x.1 t)) s) (dieNo d) 1 (l.foldl (fun a b => a + b) 0)

/-- The engines of a die also send K-split sums, row maxima and the barrier's exchange of a Whole operation over links 4 to 7: a free
amount of bytes from each, under its master ID (R16, R92 to R94, R270; log entry 130). -/
def State.crossTraffic (s : State) (d : Weft) (t : Step) : State :=
  ((enginesOf d).filter s.engineTakes).foldl (fun u g =>
    ({ u with freshCtr := u.freshCtr + 1 } : State).linkBytes (dieNo d) (dieNo (otherDie d))
      { workEv 0 0 none 0 t with master := some (0x70 + g) } ((Config.freeDword u.freshCtr).toNat % 2 ^ 26)) s

/-- The cube products of an engine of a die in the operation that it runs (R518). -/
def State.engineProducts (s : State) (d : Weft) (o : Op) (k : Nat) : Nat :=
  match s.opLayer o, (s.weft d).engines[k]? with
  | some (t, l), some g => s.cubeProducts d t l o g.tiles
  | _, _ => 0

/-- ARRAY_OP_RETIRE (R99, R135, R191, R248): an array operation ends on a die; in a Whole draft only after the barrier.  What the checks on
its reads find comes first: an uncorrectable error ends the steps of its owner. -/
def execArrayOpRetire (d : Weft) (clocks : Nat) (frozen : Freezes) (chk : ReadChecks) (s : State) : Host.Outcome State Fault Refusal :=
  match (s.weft d).arrayRun with
  | none => .next s
  | some o =>
    .next (if !s.clocked (.loom d) || (s.opWhole o && (s.weft d).barrier.isNone) then s
      else
        let s1 := (s.holdClocks clocks).readChecks chk (s.opCtxs [o]).head?
        match (s1.weft d).arrayRun with
        | none => s1
        | some o1 =>
          match (o1.first).bind (fun m => s1.step? m.step) with
          | none => s1.modWeft d (fun w => { w with arrayRun := none, barrier := none, engines := List.replicate 4 Engine.reset })
          | some t =>
            let es := (enginesOf d).filter s1.engineTakes
            let s2 := es.foldl (fun u e => countEv u (workEv (dieNo d) 0x007 (some (e % 4)) 1 t)) (bumpAon (s1.unitProgress d .array) (dieNo d) 2 1)
            let s2 := (if s2.opWhole o1 then s2.crossTraffic d t else s2).countMoves d true (s1.opWrites d .array o1)
            let s3 := es.foldl (fun u e => (countEv u (workEv (dieNo d) 0x008 (some (e % 4)) (s1.engineProducts d o1 (e % 4)) t)).beamReads
                (dieNo d) (BitVec.ofNat 8 (0x70 + e)) t) ((s2.countFreezes d t o1 frozen).countAcc d o1)
            let gs := s3.endEngines d o1
            let idle := fun (u : State) => u.modWeft d (fun w => { w with arrayRun := none, barrier := none, engines := gs })
            if s3.opLast o1 then
              let s4 := if s3.opWhole o1 then s3 else s3.opEffect d o1
              o1.members.foldl (fun u m => u.tryHinge m.step) ((idle s4).opDone d o1).proofEnter
            else ((idle s3).modWeft d (fun w => { w with arrayQ := { o1 with pass := o1.pass + 1 } :: w.arrayQ })).proofEnter)

/-- A Reed, Finish or stage operation ends. -/
def State.retireOp (s : State) (d : Weft) (u : OpUnit) (o : Op) : State :=
  let s1 := (s.unitProgress d u).opEffect d o
  let s2 := ((s1.modWeft d (fun w => w.setRun u none)).opDone d o).proofEnter
  o.members.foldl (fun x m => x.tryHinge m.step) s2

/-- What a Reed, Finish or stage operation reads of Beam SRAM: lm.dec its rows once each, a copy what `copyPart` counts, lm.enc nothing, a
layer as `beamReads` says. -/
def State.opReads (s : State) (d : Weft) (u : OpUnit) (o : Op) (t : Step) : State :=
  let w := unitMaster d u o
  match o.kind with
  | .layer _ => s.beamReads (dieNo d) w t
  | .dec j row n _ _ =>
    let e := s.env t d
    let ms := (List.range n).flatMap (fun i => e.rowMoves w (e.rowDie j (row + i)) j (row + i))
    (s.countMoves d false (ms.map (fun x => (t, x)))).bankLost (dieNo d) w t
  | .enc _ _ _ _ _ => s.bankLost (dieNo d) w t
  | .stage _ _ => s.bankLost (dieNo d) w t
  | .evict _ _ => s.bankLost (dieNo d) w t

/-- A Reed, Finish or stage operation ends: the checks on its reads take effect, and what an uncorrectable error leaves of it retires, with
its counts. -/
def State.retireChecked (s : State) (d : Weft) (u : OpUnit) (chk : ReadChecks) (counts : Op → Step → State → State) : State :=
  let s1 := s.readChecks chk (s.opCtxs ((s.weft d).runOf u).toList).head?
  match (s1.weft d).runOf u with
  | none => s1
  | some o =>
    match (o.first).bind (fun m => s1.step? m.step) with
    | none => s1.modWeft d (fun w => w.setRun u none)
    | some t => (((counts o t s1).opReads d u o t).countMoves d true (s1.opWrites d u o)).retireOp d u o

/-- REED_OP_RETIRE (R126, R123). -/
def execReedOpRetire (d : Weft) (clocks : Nat) (chk : ReadChecks) (s : State) : Host.Outcome State Fault Refusal :=
  match (s.weft d).reedRun with
  | none => .next s
  | some _ => .next (if !s.clocked (.loom d) then s else (bumpAon (s.holdClocks clocks) (dieNo d) 3 1).retireChecked d .reed chk (fun _ t u =>
      u.countFree (workEv (dieNo d) 0x020 none 0 t)))

/-- FINISH_OP_RETIRE (R133, R134, R137). -/
def execFinishOpRetire (d : Weft) (clocks : Nat) (chk : ReadChecks) (s : State) : Host.Outcome State Fault Refusal :=
  match (s.weft d).finishRun with
  | none => .next s
  | some _ => .next (if !s.clocked (.loom d) then s else (s.holdClocks clocks).retireChecked d .finish chk (fun _ t u => u.countFree (workEv (dieNo d) 0x022 none 0 t)))

/-- STAGE_COPY_DONE (R257, R251): a copy ends; accesses to GDDR6 may have waited for a refresh of any channel (R253). -/
def execStageCopyDone (d : Weft) (chk : ReadChecks) (s : State) : Host.Outcome State Fault Refusal :=
  match (s.weft d).stageRun with
  | none => .next s
  | some _ => .next (if !s.clocked (.weftFabric d) then s else s.retireChecked d .stage chk (fun _ t u =>
      (List.range 12).foldl (fun x c => x.countFree (workEv (dieNo d) 0x046 (some c) 0 t)) u))

/-! ### Hinge save and restore (R156, R157, R289) -/

/-- The data memory of the pair that runs a step's program on a die. -/
def State.progDmem (s : State) (id : Nat) (d : Weft) : Memory :=
  (((s.weft d).pairs.find? (fun p => (p.run.map (fun r => r.step == id)).getD false)).map (fun p => p.dmem)).getD []

/-- The Beam SRAM bytes of a hinge's live ranges on a die (R156), which a save reads and a restore writes. -/
def State.rangeMoves (s : State) (t : Step) (m : Byte) (d : Weft) (rs : List LiveRange) : List (Step × BeamMove) :=
  (rs.filter (fun r => decide (r.tensor ≠ 0xFFFE) && bitN r.dies (weftNo d))).map (fun r =>
    (t, { master := m, die := d, off := (s.env t d).addr d r.tensor r.start, len := r.length }))

/-- A die writes a hinge's live ranges to the save area of the step's context in its GDDR6 (R156, R260, R289). -/
def State.saveDie (s : State) (t : Step) (cx : Ctx) (d : Weft) (rs : List LiveRange) (bs : List Byte) : State :=
  if t.on d then
    let m := fnMaster cx.fn
    (((s.modWeft d (fun w => { w with gddr := w.gddr.writeBytes (cx.saveAt d) bs })).countMoves d false (s.rangeMoves t m d rs)).bankLost
      (dieNo d) m t).gddrBytes d true (cx.saveAt d) bs.length { workEv (dieNo d) 0 none 0 t with master := some m.toNat }
  else s

/-- HINGE_SAVE_DONE (R289): the live ranges are in the save area, and the selected step starts or is restored.  An uncorrectable error of
the save's reads ends its owner first. -/
def execHingeSaveDone (chk : ReadChecks) (s : State) : Host.Outcome State Fault Refusal :=
  match s.steps.find? (fun t => decide (t.stage = .saving) && s.live t.id) with
  | none => .next s
  | some t =>
    let s0 := s.readChecks chk (some t.ctx)
    match (t.hinge).bind (fun h => (s0.stepDraft t).hinges[h]?), s0.ctx? t.ctx with
    | some hg, some cx =>
      let get := fun (d : Weft) => if t.on d then (s0.env t d).saveBytes hg (s0.progDmem t.id d) d else []
      let rs := (s0.stepDraft t).ranges hg
      let s1 := ((s0.saveDie t cx .a rs (get .a)).saveDie t cx .b rs (get .b)).modStep t.id (fun x =>
        { x with saved := some ((get .a).length, (get .b).length) })
      let s2 := countEv s1 { Ev.plain 0 0x087 none 1 with ctx := some t.ctx, cls := some (b2n (!t.lc)) }
      .next (if s0.live t.id then s2.preempted t.id else s0)
    | _, _ => .next (if s0.live t.id then s0.preempted t.id else s0)

/-- What a die's save area holds of a step, read back (R289). -/
def State.savedBytes (s : State) (t : Step) (d : Weft) : List Byte :=
  let n := t.saved.getD (0, 0)
  match s.ctx? t.ctx with
  | some cx => (s.weft d).gddr.readBytes (cx.saveAt d) (match d with | .a => n.1 | .b => n.2)
  | none => []

/-- The counts of a restore's reads and writes on a die. -/
def State.restoreTraffic (s : State) (t : Step) (rs : List LiveRange) (d : Weft) : State :=
  match s.ctx? t.ctx with
  | some cx =>
    let m := fnMaster cx.fn
    if t.on d then ((s.gddrBytes d false (cx.saveAt d) (s.savedBytes t d).length { workEv (dieNo d) 0 none 0 t with
      master := some m.toNat }).countMoves d true (s.rangeMoves t m d rs)).bankLost (dieNo d) m t
    else s
  | none => s

/-- HINGE_RESTORE_DONE (R289): the program resumes at the hinge's resume entry with a0 = hinge index, and the live ranges are as they
were (R157); where a group it needs has left Run, Heddle wakes it first (R26).  An uncorrectable error of the restore's reads ends its owner first. -/
def execHingeRestoreDone (chk : ReadChecks) (s : State) : Host.Outcome State Fault Refusal :=
  match s.steps.find? (fun t => decide (t.stage = .restoring) && s.live t.id) with
  | none => .next s
  | some t =>
    let ranges := ((t.hinge.bind (fun h => (s.stepDraft t).hinges[h]?)).map (fun h => (s.stepDraft t).ranges h)).getD []
    let s0 := ((s.restoreTraffic t ranges .a).restoreTraffic t ranges .b).readChecks chk (some t.ctx)
    .next (if s0.live t.id && !s0.groupsReady (s0.stepDraft t).whole then s0.wakeFor (s0.stepDraft t).whole
      else if s0.live t.id then
        ((s0.resumeStep t).restoreDie t.id .a ranges (s0.savedBytes t .a)).restoreDie t.id .b ranges (s0.savedBytes t .b)
      else s0)

end Machine

end Sys2Proof
end

