-- ==== Sys2Proof/Machine/Beam.lean ====
section
/-! DEFINITION. The scrubber, GDDR6 channels, trackers and Warp links (R248, R249, R251 to R253, R262 to R271). -/

namespace Sys2Proof

namespace Machine

/-! ### Beam SRAM and GDDR6 -/

/-- The Beam group of a die is in Run or Warm: the scrubber runs, and the channels refresh themselves (R249, R253, R386). -/
def State.beamAwake (s : State) (d : Weft) : Bool :=
  s.clocked (.loom d) && (decide ((s.weft d).beamGrp = .at .run) || decide ((s.weft d).beamGrp = .at .warm))

/-- The scrubber's place moves to the next line; after the last it completes a pass. -/
def WeftDie.scrubNext (w : WeftDie) : WeftDie :=
  { w with scrubLine := w.scrubLine + 1, scrubPasses := if w.scrubLine = 0x7FF#11 then add16 w.scrubPasses 1 else w.scrubPasses }

/-- The line of bank n that the scrubber reads. -/
def State.scrubAt (s : State) (d : Weft) (n : Nat) : Nat := s.lineAddr d (n / 64) (n % 64) (s.weft d).scrubLine.toNat

/-- The scrubber's reads of one line of each of the 512 banks, 64 bytes each: event 0x040 with privilege 0 (R249, R515, R518). -/
def State.scrubReads (s : State) (d : Weft) : State :=
  if s.countsCode (dieNo d) 0x040 then
    (List.range 512).foldl (fun u n => u.beamBytes d false (s.scrubAt d n) 64 { Ev.plain 0 0 none 0 with priv := some 0 }) s
  else s

/-- An uncorrectable error that the scrubber finds: in a line nothing owns the Beam scrub source, else R265 (R249). -/
def scrubBad (d : Weft) (s : State) (a : Nat) : State :=
  if s.beamOwner d a = .nothing then bumpAon (s.raise (weftSrc d 0x21) (cap none noMaster 1 (BitVec.ofNat 64 a) 0)) (dieNo d) 5 1
  else s.dataLost { place := .beam d a, master := noMaster } none

/-- SCRUB_LINE (R249): the next line of every bank is read; errors are corrected and counted, or reported. -/
def execScrubLine (d : Weft) (finding : ScrubFinding) (s : State) : Host.Outcome State Fault Refusal :=
  if !s.beamAwake d then .next s
  else
    let s1 := (s.scrubReads d).modWeft d WeftDie.scrubNext
    let s2 := (finding.fixed.map (s.scrubAt d)).foldl (beamCorrected d) s1
    .next ((finding.bad.map (s.scrubAt d)).foldl (scrubBad d) s2)

/-- GDDR6_REFRESH (R253): the channel is blocked; accesses that meet the refresh wait, which event 0x046 counts. -/
def execGddr6Refresh (d : Weft) (chan : Nat) (s : State) : Host.Outcome State Fault Refusal :=
  if s.beamAwake d then .next (s.countFree (Ev.plain (dieNo d) 0x046 (some chan) 0)) else .next s

/-- GDDR6_EDC_FAIL (R252): the channel counts the failure and retries the burst; the fourth failure is uncorrectable (R265). -/
def execGddr6EdcFail (d : Weft) (off failure : Nat) (master : Byte) (s : State) : Host.Outcome State Fault Refusal :=
  let n := dieNo d
  let s1 := s.modWeft d (fun w => { w with chans := modAt w.chans (gddrChan off) (fun (c : Chan) =>
    { c with edc := if c.edc = 0xFF#8 then 0xFF#8 else c.edc + 1 }) })
  if failure < 4 then .next (bumpAon (countEv s1 (Ev.plain n 0x048 (some (gddrChan off)) 1)) n 8 1)
  else .next (s1.dataLost { place := .gddr d off, master := master } none)

/-- TRANSACTION_TIMEOUT (R262): an entry outstanding for 100 µs; the access is uncorrectable (R265). -/
def execTransactionTimeout (d : Weft) (pool : Nat) (hit : EccHit) (s : State) : Host.Outcome State Fault Refusal :=
  .next (if pool < 3 ∧ !s.pwr.refLost then s.lostAs hit (weftSrc d 0x24) 1 none else s)

/-! ### Warp links (R263 to R271) -/

/-- Change a link. -/
def State.modLink (s : State) (l : Nat) (f : Link → Link) : State := { s with links := modAt s.links l f }

/-- The master of a link (R16). -/
def linkMaster (l : Nat) : Byte := BitVec.ofNat 8 (0xC0 + l)

/-- A retry of a link is counted on the dies of its endpoints (R518, R519). -/
def countRetry (s : State) (l : Nat) : State :=
  (linkEnds l).foldl (fun u d =>
    let v := countEv u (Ev.plain d 0x063 (some l) 1)
    if d = 0 then bumpAon v 0 14 1 else bumpAon v d 12 1) s

/-- WARP_FLIT_CRC_FAIL (R264): the flit is replayed; the 33rd retry of a millisecond raises the retry-budget source and marks the link
degraded. -/
def execWarpFlitCrcFail (link : Nat) (s : State) : Host.Outcome State Fault Refusal :=
  if !s.linkUp link then .next s
  else
    let now := s.time.now
    let young := fun (ms : Nat) (t : Dword) => decide (now.toNat < t.toNat + ms * 1000000)
    let s1 := countRetry (s.modLink link (fun x => { x with recent := x.recent.filter (young 2) ++ [now] })) link
    let n := (((s1.link? link).map (fun x => x.recent)).getD []).filter (young 1)
    .next (if 32 < n.length then
        (s1.modLink link (fun x => { x with degraded := true })).raise (linkSrc link 1) (cap none (linkMaster link) 6 0 0)
      else s1)

/-- WARP_E2E_MISMATCH (R266): an internal corruption, handled under R265 as a Warp end-to-end error; the flit is not replayed. -/
def execWarpE2eMismatch (link : Nat) (hit : EccHit) (s : State) : Host.Outcome State Fault Refusal :=
  .next (if s.linkUp link then s.lostAs hit (linkSrc link 2) 6 none else s)

/-- WARP_LINK_DOWN (R271): the link retrains and the source is raised; a die without a link to Selvedge is reset; with links 4 to 7
all down in Whole mode every step ends; these fixed actions come before the source (R463). -/
def execWarpLinkDown (link : Nat) (s : State) : Host.Outcome State Fault Refusal :=
  if !s.linkUp link then .next s
  else
    let s1 := (s.modLink link (fun x => { x with state := 1, modulesUp := 0 })).linkGone link
    .next (s1.raise (linkSrc link 0) (cap none (linkMaster link) 6 0 0)).recompute

/-- WARP_LINK_RETRAIN_DONE (R271): the link is up again. -/
def execWarpLinkRetrainDone (link : Nat) (s : State) : Host.Outcome State Fault Refusal :=
  .next (s.modLink link (fun x => if x.state = 1 then { x with state := 2, modulesUp := 3 } else x))

/-- WARP_RETRAIN_TIMEOUT (R271): the link stays disabled until die reset. -/
def execWarpRetrainTimeout (link : Nat) (s : State) : Host.Outcome State Fault Refusal :=
  match s.link? link with
  | some x => .next (if x.state = 1 ∧ !s.pwr.refLost then (s.disable (.link link)).recompute else s)
  | none => .next s

end Machine

end Sys2Proof
end

