-- ==== Sys2Proof/Machine/Checks.lean ====
section
/-! DEFINITION. Module frames, the proof input, self-test slices and pair tests (R416, R418, R433 to R441, R445, R481). -/

namespace Sys2Proof

namespace Machine

/-! ### The proof's verdict (R436) -/

/-- The proof passes (R436); Selvedge's always-on counter 10 counts the passes of both dies (R519). -/
def State.proofPass (s : State) (d : Weft) : State :=
  bumpAon (s.modChecks d (fun c => { c with phase := .done, result := 1, firstProof := false })) 0 10 1

/-- A proof miss: the PROOF_MISS event and the source (R436, R323); Selvedge's always-on counter 11 counts it (R519). -/
def State.proofMiss (s : State) (d : Weft) (v : ProofVerdict) : State :=
  let s1 := s.modChecks d (fun c => { c with
    phase := .done
    result := if v = .none then 3 else 2
    misses := if c.misses = 0xFF#8 then 0xFF#8 else c.misses + 1 })
  (eventAll (bumpAon s1 0 11 1) 0x21 (dieNo d)).raiseProof d v

/-! ### Targets (R437, R440, R441) -/

/-- The units of a self-test target (R437, R440). -/
def targetUnits (d : Weft) (t : Nat) : List UnitId :=
  let e := match d with | .a => 0 | .b => 4
  match t with
  | 0 => [.engine e, .engine (e + 1)]
  | 1 => [.engine (e + 2), .engine (e + 3)]
  | 2 => [.reed d, .finish d]
  | 3 => (enginesOf d).map UnitId.engine
  | n => [.pair (e + (n - 4) % 4)]

/-- A target is disabled: it failed, or each of its units is disabled (R438, R440, R441; log entry 36). -/
def State.targetOff (s : State) (d : Weft) (t : Nat) : Bool :=
  (s.weft d).checks.failed.getLsbD t || (targetUnits d t).all s.isDisabled

/-- Frames since a target passed. -/
def Checks.age (c : Checks) (t : Nat) : Nat := c.ages.getD t 0

/-- Frames counted toward a target's next starvation fault (R441). -/
def Checks.hunger (c : Checks) (t : Nat) : Nat := c.starve.getD t 0

/-- A target passes (R438, R439). -/
def Checks.pass (c : Checks) (t : Nat) : Checks := { c with ages := setAt c.ages t 0, starve := setAt c.starve t 0, passed := addSet c.passed t, lastTarget := t }

/-- A target fails: its units are isolated as disabled, the source is raised, and admission is recomputed (R440). -/
def State.targetFail (s : State) (d : Weft) (t : Nat) : State :=
  let s1 := s.modChecks d (fun c => { c with failed := setBitB c.failed t, lastTarget := t })
  let s2 := (targetUnits d t).foldl (fun u x => u.disable x) s1
  (s2.raise (weftSrc d 0x27) (cap none noMaster 0 (BitVec.ofNat 64 s.frame.number) t)).recompute

/-- The slice target that passed longest ago, the lowest of equals; disabled targets are skipped (R438). -/
def State.sliceTarget (s : State) (d : Weft) : Option Nat :=
  let c := (s.weft d).checks
  ((List.range 4).filter (fun t => !s.targetOff d t)).foldl (fun m t =>
    match m with
    | none => some t
    | some x => if c.age x < c.age t then some t else some x) none

/-! ### Frames (R418, R436, R441) -/

/-- latent_frames (KPR_STEST). -/
def State.latentFrames (s : State) : Nat := fld (s.reg oStest) 7 0

/-- After a change out of Bench a die was still waking from Rest at the latest start of its proof in the frame (R398, R435, R436). -/
def State.proofAsleep (s : State) (d : Weft) : Bool :=
  let c := (s.weft d).checks
  c.fromRest && (match c.awakeAt with
    | none => true
    | some a => decide (s.frameEnd < a + s.slotUs * 1000))

/-- A target has not passed for one more frame: its age grows; in a frame that counts toward starvation the fault is raised once for each
period of latent_frames (R441; log entry 37). -/
def State.ageTarget (d : Weft) (counts : Bool) (s : State) (t : Nat) : State :=
  let c := (s.weft d).checks
  if s.targetOff d t || c.passed.contains t then s
  else
    let n := c.hunger t + 1
    let full := decide (s.latentFrames ≠ 0) && decide (s.latentFrames ≤ n)
    let s1 := s.modChecks d (fun x => { x with
      ages := setAt x.ages t (x.age t + 1)
      starve := if counts then setAt x.starve t (if full then 0 else n) else x.starve })
    if counts && full then s1.raise (weftSrc d 0x28) (cap none noMaster 0 0 0) else s1

/-- A frame ends on a die without the verdict of its proof: a miss, where the die owed the frame a proof and could still run one, or began
one (R433, R436). -/
def State.proofOver (s : State) (d : Weft) : State :=
  let none' := s.modChecks d (fun c => { c with result := 0 })
  match (s.weft d).checks.phase with
  | .done => s
  | .idle => if (s.weft d).checks.owed && s.provable d then s.proofMiss d .none else none'
  | .due => if s.provable d then s.proofMiss d .none else none'
  | .running => s.proofMiss d .none
  | .released => s.proofMiss d .none
  | .abandoned => s.proofMiss d .none

/-- A frame ends on a die: a proof without verdict is a miss, and the targets age (R436, R441).  A frame in Bench, and one in which the die
was waking from Rest, runs no proof and does not count toward starvation (R398, R417). -/
def State.closeFrame (s : State) (d : Weft) : State :=
  if !(s.pwr.ready && (s.weft d).inService) then s
  else
    let exempt := s.mode == 2 || s.proofAsleep d
    let s1 := if exempt then s.modChecks d (fun c => { c with result := 0 }) else s.proofOver d
    ((List.range 8).foldl (State.ageTarget d (!exempt)) s1).modChecks d (fun c =>
      if c.awakeAt.isSome then { c with fromRest := false, awakeAt := none } else c)

/-- A frame begins on a die; `owed`: the die can run a proof in it (R433). -/
def Checks.newFrame (owed : Bool) (c : Checks) : Checks :=
  { c with phase := .idle, slice := none, sliceDone := false, fallback := false, passed := [], owed := owed }

/-- MODULE_FRAME_START (R418): the frame in which device time lies begins; the frame before it ends. -/
def execModuleFrameStart (s : State) : Host.Outcome State Fault Refusal :=
  let us := s.time.now.toNat / 1000
  let phase := fld (s.reg oFramePhase) 16 0
  if !s.clk.fabric || decide (s.pwr.phase ≠ .mission) || decide (us < phase) || decide (s.frameUs = 0) then .next s
  else
    let k := (us - phase) / s.frameUs
    let start := BitVec.ofNat 64 ((k * s.frameUs + phase) * 1000)
    .next (if s.frame.running ∧ s.frame.start = start then s
      else
        let s1 := if s.frame.running then (s.closeFrame .a).closeFrame .b else s
        let s2 := (s1.modChecks .a (Checks.newFrame (s1.provable .a))).modChecks .b (Checks.newFrame (s1.provable .b))
        { s2 with frame := { number := k, start := start, running := true, trips := [] } })

/-! ### The proof input (R434 to R436) -/

/-- PROOF_DUE (R435, R391): from frame start + start_us on the proof input is due; it enters at once, or at the next operation
boundary. -/
def execProofDue (d : Weft) (s : State) : Host.Outcome State Fault Refusal :=
  let c := (s.weft d).checks
  .next (if s.provable d && s.proofInTime && decide (s.frameAt s.startUs ≤ s.time.now.toNat) && (decide (c.phase = .idle) || decide (c.phase = .due))
    then ((s.modChecks d (fun x => { x with phase := .due })).wakeDie d).proofEnter
    else s)

/-- The array of a die is free of checks again: hinges that waited are tried, and a choice is made (R290, R291). -/
def State.afterChecks (s : State) : State :=
  let s1 := s.proofEnter
  match s1.sched.running with
  | some id => s1.tryHinge id
  | none => s1.choose

/-- The first byte and the length of the reserved Beam region (R245). -/
def reservedAt : Nat := 0x3F00000

/-- PROOF_RELEASE (R434): the proof's output is in the reserved region, and the proof input releases Loom, Reed and Finish of its die. -/
def execProofRelease (d : Weft) (s : State) : Host.Outcome State Fault Refusal :=
  .next (if (s.weft d).checks.phase = .running then
      (s.modWeft d (fun w => { w with
        beam := w.beam.writeBytes reservedAt ((Config.proofImage s.frame.number (proofFormats s.frame.number)).take 0x100000)
        checks := { w.checks with phase := .released } })).afterChecks
    else s)

/-- PROOF_VERDICT (R436): passed, or a proof miss.  An abandoned proof has no verdict (R481). -/
def execProofVerdict (d : Weft) (v : ProofVerdict) (s : State) : Host.Outcome State Fault Refusal :=
  let p := (s.weft d).checks.phase
  .next (if p = .released ∨ (p = .abandoned ∧ v = .none) then (if v = .passed then s.proofPass d else s.proofMiss d v) else s)

/-! ### Self-test slices (R438, R440) -/

/-- No step, proof input or slice holds a die's array, and Heddle could start none (R438). -/
def State.arrayIdle (s : State) (d : Weft) : Bool :=
  let held := match s.sched.running with
    | some id => ((s.step? id).map (fun t => t.on d)).getD false
    | none => (s.pick).isSome || s.sched.nextStart.isSome
  !held && (s.weft d).atBoundary && !s.checksHold d

/-- SELFTEST_SLICE_START (R438, R391): after the verdict, at the first idle moment, or after half the frame at an operation boundary; once
per frame, when 100 µs are left of it.  The die's groups wake first; a slice clears the weight blocks and drain banks of the die. -/
def execSelftestSliceStart (d : Weft) (s : State) : Host.Outcome State Fault Refusal :=
  let w := s.weft d
  let moment := s.arrayIdle d || (w.checks.fallback && w.atBoundary && !s.checksHold d)
  .next (if !(s.provable d && s.frame.running && decide (w.checks.phase = .done) && !w.checks.sliceDone && moment
        && decide (s.time.now.toNat + 100000 ≤ s.frameEnd)) then s
    else if !(s.dieRun d && s.clocked (.loom d)) then s.wakeDie d
    else
      match s.sliceTarget d with
      | none => s
      | some t => s.modWeft d (fun x => { x with
          engines := List.replicate 4 Engine.reset
          checks := { x.checks with slice := some t, lastTarget := t } }))

/-- SLICE_FALLBACK_TIMER (R438): at half the frame the slice may start at the next operation boundary. -/
def execSliceFallbackTimer (d : Weft) (s : State) : Host.Outcome State Fault Refusal :=
  let c := (s.weft d).checks
  .next (if s.frame.running && decide (s.frame.start.toNat + s.frameUs * 500 ≤ s.time.now.toNat) && decide (c.phase = .done) && !c.sliceDone
      && c.slice.isNone then s.modChecks d (fun x => { x with fallback := true })
    else s)

/-- SELFTEST_SLICE_END (R438, R440): the target passes, or fails. -/
def execSelftestSliceEnd (d : Weft) (passed : Bool) (s : State) : Host.Outcome State Fault Refusal :=
  match (s.weft d).checks.slice with
  | none => .next s
  | some t =>
    let s1 := s.modChecks d (fun c => { c with slice := none, sliceDone := true, fallback := false })
    .next ((if passed then s1.modChecks d (fun c => c.pass t) else s1.targetFail d t).afterChecks)

/-! ### Pair tests (R439) -/

/-- The self-test target of a pair on its die. -/
def pairTarget (n : Nat) : Nat := 4 + n % 4

/-- PAIR_TEST_START (R439): an idle, enabled pair that has not passed in this frame is tested. -/
def execPairTestStart (pair : Nat) (s : State) : Host.Outcome State Fault Refusal :=
  let d := weftOf pair
  .next (match s.pair? pair with
    | none => s
    | some p =>
      if s.pwr.ready && s.mode != 2 && (s.weft d).inService && s.frame.running && s.clocked (.shuttle d) && decide ((s.weft d).shuttle = .at .run)
          && s.pairOn pair && s.unitUp (.pair pair) && p.run.isNone && p.queued.isEmpty && !p.debugHalt && !p.halted
          && !s.targetOff d (pairTarget pair) && !(s.weft d).checks.passed.contains (pairTarget pair)
        then s.modPair pair (fun q => { q with testing := true }) else s)

/-- PAIR_TEST_DONE (R439, R440): the target passes, or the pair is isolated as disabled. -/
def execPairTestDone (pair : Nat) (passed : Bool) (s : State) : Host.Outcome State Fault Refusal :=
  let d := weftOf pair
  .next (match s.pair? pair with
    | none => s
    | some p =>
      if !p.testing then s
      else
        let s1 := s.modPair pair (fun q => { q with testing := false })
        if passed then s1.modChecks d (fun c => c.pass (pairTarget pair)) else s1.targetFail d (pairTarget pair))

end Machine

end Sys2Proof
end

