-- ==== Sys2Proof/Machine/Settings.lean ====
section
/-! DEFINITION. Writes to the settings whose acceptance depends on the work in progress (R245, R274, R275, R280, R292, R321, R390,
R401, R416, R419, R441, R468, R498, R540, R556, R564 to R567). -/

namespace Sys2Proof

namespace Machine

/-! ### What a write is refused for -/

/-- No step is admitted, started or pre-empted, and no gather window is open (R401, R416). -/
def State.quiet (s : State) : Bool := s.steps.all (fun t => decide (t.stage = .waiting)) && s.sched.windows.all (fun w => w.closed)

/-- An LC step of either partition is admitted and uncompleted. -/
def State.lcBusy (s : State) : Bool := !(s.admittedLc 0).isEmpty || !(s.admittedLc 1).isEmpty

/-- A refused write changes the refused bit and nothing else (R556). -/
def State.refuse (s : State) (off bit : Nat) : State := s.setReg off (setFld (s.reg off) bit bit 1)

/-- The draft table entries that hold a draft. -/
def State.heldEntries (s : State) : List Entry := s.drafts.filter (fun e => decide (e.state ≠ .loading))

/-- The loaded drafts (an unload still under way included). -/
def State.loadedEntries (s : State) : List Entry := s.drafts.filter Entry.open'

/-! ### The safety mode (R416, R398, R468, R498) -/

/-- A die as a change of the safety mode leaves it: into Paired or Whole a first proof is due again, and starvation counts from zero
(R416); a die with a group in Rest, or on its way there, wakes from Rest (R398). -/
def WeftDie.afterMode (w : WeftDie) : WeftDie :=
  { w with checks := { w.checks with
      starve := [0, 0, 0, 0, 0, 0, 0, 0]
      firstProof := true
      fromRest := w.checks.fromRest || allGrps.any (fun g => decide ((w.grp g).depth = 3))
      awakeAt := none } }

/-- A die as a change into Bench leaves it: a proof that is due runs no more (R417), and a group that is idle now reaches Rest only from its
next idle period on (R398). -/
def State.toBench (s : State) (d : Weft) : State :=
  s.modWeft d (fun w => { w with
    benchIdle := allGrps.filter (fun g => !s.grpBusy d g)
    checks := { w.checks with phase := if w.checks.phase = .due then .idle else w.checks.phase, owed := false } })

/-- The safety mode changes: into Bench no proof is due; out of Bench, groups in Rest go straight to Run (R398, R416, R417). -/
def State.modeTo (s : State) (m : Nat) : State :=
  let s1 := s.setReg oSafety (setFld (s.reg oSafety) 1 0 m)
  if m = 2 then (s1.toBench .a).toBench .b
  else
    let s2 := { s1 with wa := s1.wa.afterMode, wb := s1.wb.afterMode }
    [Weft.a, Weft.b].foldl (fun t d => allGrps.foldl (fun u g => if ((u.weft d).grp g).depth = 3 then u.wake d g else u) t) s2

/-- Some progress window is 0 (R468). -/
def State.zeroWindow (s : State) : Bool := (List.range 5).any (fun k => fld (s.reg (oProgWin k)) 15 0 == 0)

/-- KPR_SAFETY_WRITE (R416); in Returned only Bench is accepted, even where the mode in force is another (R498, R506). -/
def execKprSafetyWrite (value : Word) (s : State) : Host.Outcome State Fault Refusal :=
  if !s.missionOn then .next s else
  let m := fld value 1 0
  let bad := m == 3 || !s.quiet || (s.mode == 2 && s.zeroWindow)
  .next (if s.lifecycle = 3 ∧ m ≠ 2 then s.refuse oSafety 31
    else if m = s.mode then s.setReg oSafety (value &&& 0x7#32)
    else if bad then s.refuse oSafety 31
    else (s.setReg oSafety ((value &&& 0x4#32) ||| BitVec.ofNat 32 s.mode)).modeTo m)

/-- HDL_DETERMINISM_WRITE (R401): the value in force is always accepted. -/
def execHdlDeterminismWrite (value : Word) (s : State) : Host.Outcome State Fault Refusal :=
  if !s.missionOn then .next s else
  .next (if bitW value 0 == s.det || s.quiet then s.setReg oDeterminism (value &&& 0x1#32) else s.refuse oDeterminism 31)

/-! ### Frame, proof, self-test and progress windows (R418, R419, R441, R468) -/

/-- Frame, phase, slot and start hold together, with the progress windows in force (R418, R419). -/
def State.frameOk (s : State) (frame phase slot start : Nat) : Bool :=
  decide (10000 ≤ frame) && decide (frame ≤ 100000) && decide (phase < frame) && decide (150 ≤ slot)
    && decide (slot ≤ (15 * frame + 500) / 1000) && decide (start + slot + ceilDiv frame 16 ≤ frame)
    && (List.range 5).all (fun k => decide (fld (s.reg (oProgWin k)) 15 0 ≤ frame / 8))

/-- phase_us (KPR_FRAME_PHASE). -/
def State.phaseUs (s : State) : Nat := fld (s.reg oFramePhase) 16 0

/-- KPR_FRAME_WRITE (R419). -/
def execKprFrameWrite (value : Word) (s : State) : Host.Outcome State Fault Refusal :=
  if !s.missionOn then .next s else
  .next (if !s.lcBusy && s.frameOk (fld value 16 0) s.phaseUs s.slotUs s.startUs then s.setReg oFrame (value &&& 0x1FFFF#32)
    else s.refuse oFrame 31)

/-- KPR_FRAME_PHASE_WRITE (R419). -/
def execKprFramePhaseWrite (value : Word) (s : State) : Host.Outcome State Fault Refusal :=
  if !s.missionOn then .next s else
  .next (if !s.lcBusy && s.frameOk s.frameUs (fld value 16 0) s.slotUs s.startUs then s.setReg oFramePhase (value &&& 0x1FFFF#32)
    else s.refuse oFramePhase 31)

/-- KPR_PROOF_WRITE (R419). -/
def execKprProofWrite (value : Word) (s : State) : Host.Outcome State Fault Refusal :=
  if !s.missionOn then .next s else
  .next (if !s.lcBusy && s.frameOk s.frameUs s.phaseUs (fld value 10 0) (fld value 27 11) then s.setReg oProof (value &&& 0xFFFFFFF#32)
    else s.refuse oProof 31)

/-- KPR_STEST_WRITE (R441, KPR_STEST): below 8 is refused. -/
def execKprStestWrite (value : Word) (s : State) : Host.Outcome State Fault Refusal :=
  if !s.missionOn then .next s else
  .next (if 8 ≤ fld value 7 0 then s.setReg oStest (value &&& 0xFF#32) else s.refuse oStest 31)

/-- A progress window is accepted (R468, R97, R469). -/
def State.windowOk (s : State) (k w : Nat) : Bool :=
  let eng := if k = 0 then w else fld (s.reg (oProgWin 0)) 15 0
  let ctx := if k = 1 then w else fld (s.reg (oProgWin 1)) 15 0
  decide (w ≤ s.frameUs / 8) && (w != 0 || s.mode == 2) && s.loadedEntries.all (fun e => e.draft.windowsOk eng ctx)

/-- HSP_PROG_WIN_WRITE (R468). -/
def execHspProgWinWrite (k : Nat) (value : Word) (s : State) : Host.Outcome State Fault Refusal :=
  if !s.missionOn then .next s else
  .next (if 5 ≤ k then s
    else if s.windowOk k (fld value 15 0) then s.setReg (oProgWin k) (value &&& 0xFFFF#32)
    else s.refuse (oProgWin k) 31)

/-! ### Partitions and the scheduler (R245, R274, R275, R280, R292, R390) -/

/-- A floor is shallower than another; none is the deepest. -/
def shallower (a b : Option Nat) : Bool :=
  match a, b with
  | some x, some y => decide (x < y)
  | some _, none => true
  | none, _ => false

/-- HDL_PART_LOOM_WRITE (R275, R390): a shallower floor, or a share raised from 0, wakes the groups, and the values take effect for
admission once the floor is reached. -/
def execHdlPartLoomWrite (p : Nat) (value : Word) (s : State) : Host.Outcome State Fault Refusal :=
  if !s.missionOn then .next s else
  let old := s.reg (oPartLoom p)
  let share := fld value 9 0
  let other := fld (s.reg (oPartLoom (1 - p))) 9 0
  let changed := decide (share ≠ fld old 9 0) || decide (fld value 11 10 ≠ fld old 11 10)
  .next (if 2 ≤ p then s
    else if 1000 < share + other || fld value 11 10 = 3 || (changed && !(s.admittedLc p).isEmpty) then s.refuse (oPartLoom p) 31
    else
      let s1 := s.setReg (oPartLoom p) (value &&& 0xFFF#32)
      let s2 := if shallower s1.floor s.floor || (decide (fld old 9 0 = 0) && decide (0 < share)) then s1.wakeTo s1.floor else s1
      s2.applyLoom)

/-- A partition's loaded drafts lie inside its shares, and its save areas fit (R245, R258, R260). -/
def State.sharesFit (s : State) (p : Nat) : Bool :=
  let b := s.beamShare p
  let g := s.gddrShare p
  let inside := fun (x : Nat) (n : Nat) => n == 0 || (decide (g.1 ≤ x) && decide (x + n ≤ g.2))
  (s.heldEntries.filter (fun e => e.partition == p)).all (fun e =>
    decide (e.draft.bounds.beamA ≤ b.2 - b.1) && decide (e.draft.bounds.beamB ≤ b.2 - b.1)
      && (List.range e.draft.tensors.length).all (e.draft.placedOk s p)
      && inside e.baseA e.draft.bounds.gddrA && inside e.baseB e.draft.bounds.gddrB)
    && decide (s.gddrUsed p .a ≤ s.gddrLen p) && decide (s.gddrUsed p .b ≤ s.gddrLen p)

/-- HDL_PART_MEM_WRITE (R245). -/
def execHdlPartMemWrite (p : Nat) (value : Word) (s : State) : Host.Outcome State Fault Refusal :=
  if !s.missionOn then .next s else
  let other := s.reg (oPartMem (1 - p))
  let s1 := s.setReg (oPartMem p) (value &&& 0x3F3F#32)
  .next (if 2 ≤ p then s
    else if fld value 5 0 + fld other 5 0 ≤ 63 ∧ fld value 13 8 + fld other 13 8 ≤ 45 ∧ s1.sharesFit 0 ∧ s1.sharesFit 1 then s1
    else s.refuse (oPartMem p) 31)

/-- HDL_PART_QUOTA_WRITE (R274). -/
def execHdlPartQuotaWrite (p : Nat) (value : Word) (s : State) : Host.Outcome State Fault Refusal :=
  if !s.missionOn then .next s else
  let other := s.reg (oPartQuota (1 - p))
  let ctxs := (s.ctxs.filter (fun c => c.part == p)).length
  let drafts := (s.drafts.filter (fun e => e.partition == p)).length
  .next (if 2 ≤ p then s
    else if fld value 12 0 + fld other 12 0 ≤ 4096 ∧ fld value 24 16 + fld other 24 16 ≤ 256 ∧ ctxs ≤ fld value 12 0 ∧ drafts ≤ fld value 24 16 then
      s.setReg (oPartQuota p) (value &&& 0x1FF1FFF#32)
    else s.refuse (oPartQuota p) 31)

/-- Two ranges, first and count, share a number. -/
def overlap (b0 n0 b1 n1 : Nat) : Bool := decide (b0 < b1 + n1) && decide (b1 < b0 + n0) && n0 != 0 && n1 != 0

/-- HDL_PART_LATCH_WRITE (R292). -/
def execHdlPartLatchWrite (p : Nat) (value : Word) (s : State) : Host.Outcome State Fault Refusal :=
  if !s.missionOn then .next s else
  let other := s.reg (oPartLatch (1 - p))
  let base := fld value 11 0
  let n := fld value 24 12
  let inside := fun (c : Ctx) => c.latchCount == 0 || (decide (base ≤ c.latchBase) && decide (c.latchBase + c.latchCount ≤ base + n))
  .next (if 2 ≤ p then s
    else if overlap base n (fld other 11 0) (fld other 24 12) || !(s.ctxs.filter (fun c => c.part == p)).all inside then s.refuse (oPartLatch p) 31
    else s.setReg (oPartLatch p) (value &&& 0x1FFFFFF#32))

/-- HDL_SCHED_GAP_WRITE (R280). -/
def execHdlSchedGapWrite (value : Word) (s : State) : Host.Outcome State Fault Refusal :=
  if !s.missionOn then .next s else
  .next (if s.lcBusy then s.refuse oSchedGap 31 else s.setReg oSchedGap (value &&& 0x3FFF3FFF#32))

/-- HDL_SCHED_SAVE_WRITE (R280). -/
def execHdlSchedSaveWrite (value : Word) (s : State) : Host.Outcome State Fault Refusal :=
  if !s.missionOn then .next s else
  .next (if s.lcBusy || s.heldEntries.any (fun e => decide (fld value 15 0 * 65536 < e.draft.bounds.saveBytes)) then s.refuse oSchedSave 31
    else s.setReg oSchedSave (value &&& 0xFFFF#32))

/-! ### Mirror bindings (R321) -/

/-- A binding of a source to a target is accepted in register i (R321). -/
def State.mirrorOk (s : State) (i src tgt : Nat) : Bool :=
  match s.ctx? src, s.ctx? tgt with
  | some a, some b =>
    !a.closing && !b.closing && a.part != b.part && a.lc && decide (a.role = .work) && a.version == 3 && decide (b.role = .mirrorTarget)
      && (List.range 64).all (fun j => j == i || !bitW (s.reg (oMirror j)) 31 || fld (s.reg (oMirror j)) 11 0 != src)
  | _, _ => false

/-- HDL_MIRROR_WRITE (R321): the refused bit tells of the last enable. -/
def execHdlMirrorWrite (i : Nat) (value : Word) (s : State) : Host.Outcome State Fault Refusal :=
  if !s.missionOn then .next s else
  .next (if 64 ≤ i then s
    else if !bitW value 31 then s.setReg (oMirror i) ((value &&& 0xFFFFFF#32) ||| (s.reg (oMirror i) &&& 0x40000000#32))
    else if s.mirrorOk i (fld value 11 0) (fld value 23 12) then s.setReg (oMirror i) (value &&& 0x80FFFFFF#32)
    else s.refuse (oMirror i) 30)

/-! ### Gathering (R540, R564, R565) -/

/-- HDL_GATHER_CTL_WRITE (R540): 0 closes every open window. -/
def execHdlGatherCtlWrite (value : Word) (s : State) : Host.Outcome State Fault Refusal :=
  if !s.missionOn then .next s else
  let s1 := s.setReg oGatherCtl (value &&& 0xFFFF#32)
  .next (if fld value 15 0 = 0 then (s1.sched.windows.filter (fun w => !w.closed)).foldl State.closeWindow s1 else s1)

/-- The used members of a gather group: context and rows. -/
def State.usedMembers (s : State) (g : Nat) : List (Nat × Nat) :=
  ((List.range 16).map (fun m => s.reg (oGrpMem g m))).filterMap (fun w => if fld w 27 12 = 0 then none else some (fld w 11 0, fld w 27 12))

/-- No number is listed twice. -/
def noTwice : List Nat → Bool
  | [] => true
  | a :: l => !l.contains a && noTwice l

/-- The first reason of R564 to refuse a gather group; 0 for none. -/
def State.groupErr (s : State) (g entry layer : Nat) : Nat :=
  let us := s.usedMembers g
  let cs := us.map (fun u => u.1)
  match s.loadedEntries.find? (fun e => e.index == entry && decide (e.state = .loaded)) with
  | none => 1
  | some e =>
    if e.draft.layers.length ≤ layer ∨ !(e.draft.layer layer).gatherable then 1
    else
      let xs := cs.filterMap s.ctx?
      if us.isEmpty || xs.length != cs.length || xs.any (fun c => c.closing) then 2
      else if xs.any (fun c => c.part != e.partition) || (xs.any (fun c => c.lc) && xs.any (fun c => !c.lc)) then 3
      else if e.draft.gatherTarget (e.draft.layer layer) < us.foldl (fun a u => a + u.2) 0 then 4
      else if !noTwice cs || cs.any (fun c => (List.range 16).any (fun h => h != g && bitW (s.reg (oGrp h)) 22
          && fld (s.reg (oGrp h)) 7 0 == entry && fld (s.reg (oGrp h)) 21 8 == layer && (s.groupMembers h).contains c)) then 5
      else 0

/-- HDL_GATHER_GRP_WRITE (R564, R565): while enabled, only a clear of enable acts; refused and err tell of the last enable. -/
def execHdlGatherGrpWrite (g : Nat) (value : Word) (s : State) : Host.Outcome State Fault Refusal :=
  if !s.missionOn then .next s else
  let old := s.reg (oGrp g)
  let said := old &&& 0x47000000#32
  .next (if 16 ≤ g then s
    else if bitW old 22 then (if bitW value 22 then s else s.setReg (oGrp g) (setFld old 22 22 0))
    else if !bitW value 22 then s.setReg (oGrp g) ((value &&& 0x3FFFFF#32) ||| said)
    else
      let e := s.groupErr g (fld value 7 0) (fld value 21 8)
      if e = 0 then s.setReg (oGrp g) (value &&& 0x7FFFFF#32)
      else s.setReg (oGrp g) (setFld (setFld old 26 24 e) 30 30 1))

/-! ### Arbitration wheels (R566, R567) -/

/-- The eight kinds of half a wheel. -/
def wheelKinds (w : Word) : List Nat := (List.range 8).map (fun k => fld w (4 * k + 3) (4 * k))

/-- A half wheel is accepted beside the other half (R567). -/
def wheelOk (a b : Word) : Bool :=
  (wheelKinds a).all (fun k => decide (k ≤ 4) || k == 15)
    && decide (8 ≤ ((wheelKinds a ++ wheelKinds b).filter (fun k => k == 0 || k == 3)).length)

/-- WRP_WHEEL_WRITE (R567). -/
def execWrpWheelWrite (link dir half : Nat) (value : Word) (s : State) : Host.Outcome State Fault Refusal :=
  if !s.missionOn then .next s else
  .next (if 8 ≤ link ∨ 2 ≤ dir ∨ 2 ≤ half then s
    else if wheelOk value (s.reg (oWheel link dir (1 - half))) && s.quiet then
      (s.setReg (oWheel link dir half) value).setReg oWheelStatus 0
    else s.setReg oWheelStatus 1)

end Machine

end Sys2Proof
end

