-- ==== Sys2Proof/Machine/Submit.lean ====
section
/-! DEFINITION. STEP descriptors: their checks, their batch instance, admission and acceptance (R281 to R283, R312 to R314, R320, R410,
R416, R431). -/

namespace Sys2Proof

namespace Machine

/-! ### Checks 0x0043 to 0x004B (R320) -/

/-- The draft a STEP works on, when its entry is loaded for the partition, or was when the step was read (R170, R320). -/
def State.submitDraft (s : State) (i part seq : Nat) : Option Draft :=
  match s.entry? i with
  | none => none
  | some e =>
    let before := (s.posted ++ s.loadBusy.toList).any (fun d => d.type == 3 && d.at' 2 1 == i && decide (seq < d.seq))
    if e.partition = part ∧ e.open' ∧ (e.state = .loaded ∨ before) then some e.draft else none

/-- The batch_input tensor of a draft. -/
def Draft.batchInput (d : Draft) : Option Tensor := d.tensors.find? (fun t => t.batchInput)

/-- A batch index's geometry matches a draft's batch_input tensor (R237); without a member it is not known yet. -/
def State.geometryFits (s : State) (b : Nat) (t : Tensor) : Bool :=
  match s.batchRec b with
  | none => true
  | some r => t.type == 0 && t.rows == s.batchB b * r.rows && t.rowLen == r.rowLen && t.format == r.format && t.codebook == r.codebook
      && t.pitch == (r.tensor (s.batchB b)).pitch

/-- Check 0x0044. -/
def State.batchFits (s : State) (part : Nat) (batch : Bool) (b : Nat) (dr : Option Draft) : Bool :=
  (!batch || (s.batchOn b && s.batchOwner b == part))
    && (match dr with
      | none => true
      | some d => (match d.batchInput with
        | none => !batch
        | some t => batch && s.geometryFits b t))

/-- The κ entries of a step record: tensor and κ (R406). -/
def recordKappas (r : List Byte) : List (Nat × Nat) :=
  (List.range (leAt r 80 2)).map (fun i => (leAt r (128 + 4 * i) 2, leAt r (130 + 4 * i) 1))

/-- What check 0x0048 asks of a step record whatever the draft (R410); the reserved bits of its unit map are not looked at (R10). -/
def State.replayForm (s : State) (r : List Byte) : Bool :=
  leAt r 0 4 == 0x43455253 && leAt r 4 2 == 1 && leAt r 12 4 == s.sec.manifest.fwVersion.toNat
    && leAt r 72 4 % 2 ^ 28 == leNat s.disabled.bytes % 2 ^ 28 && bitN (leAt r 6 1) 0 == s.det && (recordKappas r).all (fun k => k.2 != 0)

/-- What check 0x0048 asks of a step record for the entry's draft (R410). -/
def Draft.replayFits (d : Draft) (r : List Byte) : Bool :=
  leAt r 8 4 == d.recordBytes && leAt r 32 32 == d.digest.toNat && decide ((recordKappas r).map (fun k => k.1) = d.adapting)

/-- A step may bind to an instance: not ready, not discarded, opened under the mode in force (R313, R416). -/
def State.bindable (s : State) (i : Instance) : Bool := !i.ready && !i.discarded && i.mode == s.mode

/-- Check 0x004A: a named instance is not yet ready; one not yet opened has a higher batch counter than any so far. -/
def State.namedOk (s : State) (b c : Nat) : Bool :=
  decide ((s.batch b).counter < c) || (match s.inst? b c with
    | some i => s.bindable i
    | none => false)

/-- The first of checks 0x0043 to 0x004B that a STEP fails. -/
def State.stepCheck (s : State) (cx : Ctx) (d : ReadDesc) (rec : List Byte) : Option Nat :=
  let fl := d.flags
  let entry := d.at' 2 1
  let b := d.at' 3 1 % 32
  let batch := bitN fl 3
  let inst := d.at' 48 8
  let dr := s.submitDraft entry cx.part d.seq
  let has := fun (p : Draft → Bool) => match dr with
    | none => true
    | some x => p x
  let other := match s.entry? entry with
    | some e => e.partition != cx.part && (decide (e.state = .loaded) || decide (e.state = .loading))
    | none => false
  firstFail [(0x43, has (fun x => decide (x.bounds.resultBytes ≤ d.at' 24 4))),
    (0x44, s.batchFits cx.part batch b dr),
    (0x45, has (fun x => decide (x.bounds.saveBytes ≤ cx.save64k * 65536))),
    (0x46, cx.lc || has (fun x => decide (x.bounds.hostSpill ≤ cx.spillLen))),
    (0x47, !bitN fl 0 || (cx.lc && (s.mirrorOf cx.id).isSome)),
    (0x48, (!(bitN fl 1 || bitN fl 2) || d.at' 32 8 != 0) && (!bitN fl 1 || (s.replayForm rec && has (fun x => x.replayFits rec)))),
    (0x49, !cx.lc || d.at' 12 4 != 0 || s.mode == 2),
    (0x4A, !batch || inst == 0 || s.namedOk b inst),
    (0x4B, !other)]

/-! ### Binding (R313) -/

/-- The instance a STEP binds to: the one it names, else the earliest that is not ready and that no earlier step of the context bound,
open or still to open. -/
def State.bindTo (s : State) (cx : Ctx) (b named : Nat) : Nat :=
  if named ≠ 0 then named
  else
    match (s.batch b).instances.find? (fun i => s.bindable i && !cx.bound.contains (b, i.counter)) with
    | some i => i.counter
    | none =>
      let n := (s.batch b).counter + 1
      ((fromTo n (cx.bound.length + 1)).find? (fun c => !cx.bound.contains (b, c))).getD n

/-- The context remembers what its steps bound, and forgets instances that can be bound no more. -/
def State.noteBound (s : State) (cx : Ctx) (b c : Nat) : State :=
  let keep := fun (p : Nat × Nat) => decide ((s.batch p.1).counter < p.2) || ((s.inst? p.1 p.2).map (fun i => !i.ready)).getD false
  s.modCtx cx.id (fun x => { x with bound := addSet (x.bound.filter keep) (b, c) })

/-- The step a STEP descriptor asks for (R312). -/
def newStep (cx : Ctx) (d : ReadDesc) (inst : Nat) (rec : List Byte) : Step :=
  let fl := d.flags
  let replay := bitN fl 1
  { id := d.seq, ctx := cx.id, fn := cx.fn, ring := d.ring, slot := d.slot, tag := d.at' 4 4, lc := cx.lc, entry := d.at' 2 1,
    mirror := bitN fl 0, replay := replay, record := bitN fl 2, batch := bitN fl 3, irq := bitN fl 4, batchIndex := d.at' 3 1 % 32,
    inst := inst, deadlineUs := d.at' 8 4, ageUs := d.at' 12 4, resultAddr := d.at' 16 8, resultLen := d.at' 24 4,
    recordAddr := d.at' 32 8, seed := BitVec.ofNat 64 (if replay then leAt rec 24 8 else d.at' 40 8), bellTime := d.time, stage := .waiting,
    counter := if replay then BitVec.ofNat 64 (leAt rec 16 8) else 0, admitTime := 0, deadline := none, ageAt := none, cost := 0, holdUs := 0,
    measured := 0, started := false, onA := false, onB := false, kappas := if replay then recordKappas rec else [], stagesUsed := [],
    evictsUsed := [], hinge := none, saved := none, resumeA := none, resumeB := none, workA := DieWork.zero, workB := DieWork.zero,
    unqualified := false, singleChannel := false, ageFault := false, deadlineFault := false, kept := none, keptCbs := [],
    keptCurves := [], releasedAt := none }

/-! ### Waiting for an instance (R283) -/

/-- A step waits for its batch instance to open. -/
def State.waitsOpen (s : State) (t : Step) : Bool :=
  decide (t.stage = .waiting) && t.batch && (s.inst? t.batchIndex t.inst).isNone

/-- Steps that wait for an instance of a batch index complete with NOT_ADMITTED, detail 0x0009, and later steps may start (R283, R277); a
closing context's steps are killed in ring order (R302). -/
def State.batchGone (s : State) (b : Nat) : State :=
  ((s.steps.filter (fun t => t.batchIndex == b && s.waitsOpen t && s.ctxOpen t.ctx)).foldl (fun u t => u.endUnrun t 0x10 9) s).choose

/-- STEP (R312, R313, R320): checked, bound, and waiting for t_a.  A step whose entry is not loaded completes NOT_ADMITTED with reason
0x01, and one whose instance can never open with 0x0009.  `failed`: the read of the step record of a replay failed (R335). -/
def execStep (ctx : Nat) (record : List Byte) (failed : Bool) (s : State) : Host.Outcome State Fault Refusal :=
  .next (s.process ctx (fun t => decide (t = 1)) (fun u cx d =>
    if failed && bitN d.flags 1 then ((u.takeRead d).releaseInsts (d.at' 3 1 % 32)).hostReadError cx d (d.at' 32 8)
    else match u.stepCheck cx d record with
    | some e => completeRead ((u.takeRead d).releaseInsts (d.at' 3 1 % 32)) d 0x13 e 0
    | none =>
      let b := d.at' 3 1 % 32
      let batch := bitN d.flags 3
      let c := if batch then u.bindTo cx b (d.at' 48 8) else 0
      let u1 := u.takeRead d
      let u2 := if batch then u1.noteBound cx b c else u1
      let t := newStep cx d c record
      if (u2.submitDraft t.entry cx.part d.seq).isNone then u2.endUnrun t 0x10 1
      else if batch && (u2.inst? b c).isNone && (u2.members b).isEmpty then u2.endUnrun t 0x10 9
      else { u2 with steps := u2.steps ++ [t] }))

/-! ### Admission (R282, R431) -/

/-- The next step of a context whose t_a has come: no batch input, or its instance is open (R282). -/
def State.atTa (s : State) (ctx : Nat) : Option Step :=
  s.steps.find? (fun t => t.ctx == ctx && decide (t.stage = .waiting) && !s.waitsOpen t)

/-- Why a candidate is refused: status and detail. -/
def State.refusal (s : State) (t : Step) : Option (Nat × Nat) :=
  if t.lc then (s.lcReason t).map (fun r => (0x10, r)) else s.beReason t

/-- A step is admitted (LC) or accepted (BE): it takes the next step counter, and its monitors are armed (R288, R294, R295, R314). -/
def State.admitStep (s : State) (t : Step) : State :=
  let n := ((s.ctx? t.ctx).map (fun c => c.stepCounter + 1)).getD 1
  let t1 := { t with stage := .admitted, admitTime := s.time.now, holdUs := s.holdUs, counter := if t.replay then t.counter else n }
  let s1 := if t.replay then s else s.modCtx t.ctx (fun c => { c with stepCounter := n })
  let s2 := { s1 with steps := s1.steps.filter (fun x => x.id != t.id) ++ [t1] }
  let s3 := bumpPart s2 (portPart t.fn.port) (if t.lc then 0 else 4)
  let s4 := if !t.batch || ((s3.stepInst t1).map (fun i => i.ready)).getD false then s3.armAge t1 else s3
  s4.markUnqualified.choose

/-- STEP_ADMISSION (R282, R431): refused by Heddle with the reason; or, where a fault makes Heddle take what Keeper refuses, with
reason 0x08 after the admission-check source.  A refusal can make a later step of the context ready (R277). -/
def execStepAdmission (ctx : Nat) (heddleOverAdmits : Bool) (s : State) : Host.Outcome State Fault Refusal :=
  match s.atTa ctx with
  | none => .next s
  | some t0 =>
    let t := { t0 with deadline := s.deadlineOf t0, cost := s.cost (portPart t0.fn.port) s.holdUs (s.stepDraft t0) }
    .next (if !(s.heddleOn && s.ctxOpen ctx) then s
      else match s.refusal t with
      | none => s.admitStep t
      | some (st, r) =>
        (if t.lc && heddleOverAdmits then (s.endUnrun t 0x10 8).raise 0x008 (cap (some ctx) noMaster 0 0 0) else s.endUnrun t st r).choose)

/-- BATCH_WAIT_TIMEOUT (R283): 64 module frames have passed since the doorbell of a step without its instance opening; later steps of
the context on the batch index go with it, and later steps may start (R277). -/
def execBatchWaitTimeout (ctx : Nat) (s : State) : Host.Outcome State Fault Refusal :=
  match s.steps.find? (fun t => t.ctx == ctx && s.ctxOpen ctx && s.waitsOpen t && decide (t.bellTime.toNat + 64 * s.frameUs * 1000 ≤ s.time.now.toNat)) with
  | some t =>
    .next ((s.steps.filter (fun x => x.ctx == ctx && s.waitsOpen x && x.batchIndex == t.batchIndex && decide (t.id ≤ x.id))).foldl
      (fun u x => u.endUnrun x 0x10 9) s).choose
  | none => .next s

end Machine

end Sys2Proof
end

