-- ==== Sys2Proof/Machine/CreelCtl.lean ====
section
/-! DEFINITION. Enabling and disabling stream slots and batch indexes (R216, R236, R237, R240, R243, R283). -/

namespace Sys2Proof

namespace Machine

/-! ### Stream slots (R216) -/

/-- The sources a port code takes: 0 image recipes, 1 point recipes, 2 either, 3 none (R210, R216). -/
def portKind (p : Nat) : Nat := if p ≤ 0x17 then 0 else if p ≤ 0x1B then 1 else if p ≤ 0x1D then 2 else 3

/-- A recipe is of the kind a port takes. -/
def Recipe.kindOk (r : Recipe) (p : Nat) : Bool := portKind p == 2 || portKind p == b2n r.points

/-- The buffers of a batch index on a die as a range, with a given number of bytes to each tensor. -/
def State.bufferRange (s : State) (b bytes : Nat) (d : Weft) : Nat × Nat :=
  (s.batchBase b d, s.batchBase b d + s.batchBufs b * (bytes + 576))

/-- The buffers of the other enabled batch indexes of an owner whose geometry is known, on both dies. -/
def State.otherBuffers (s : State) (b owner : Nat) : List (Nat × Nat) :=
  ((List.range 32).filter (fun c => c != b && s.batchOn c && s.batchOwner c == owner && !(s.members c).isEmpty)).flatMap (fun c =>
    [s.bufferRange c (s.batchBytes c) .a, s.bufferRange c (s.batchBytes c) .b])

/-- The hold halves in use in an owner's share. -/
def State.holdRanges (s : State) (owner : Nat) : List (Nat × Nat) :=
  ((List.range 32).filter (fun k => s.slotOn k && s.batchOwner (s.slotBatch k) == owner && (s.slot k).holdBytes != 0)).map (fun k =>
    ((s.slot k).holdBase, (s.slot k).holdBase + 2 * (s.slot k).holdBytes))

/-- Where `n` bytes of hold halves go: the highest place of the owner's share that is clear of the hold halves in use (R240; DESIGN
CHOICE, log entry 40); none where no place is left. -/
def State.holdPlace (s : State) (owner n : Nat) : Option Nat :=
  let sh := s.beamShare owner
  let used := s.holdRanges owner
  let tops := (sh.2 :: used.map (fun r => r.1)).filter (fun t => decide (sh.1 + n ≤ t) && !used.any (rangesMeet (t - n, t)))
  match tops with
  | [] => none
  | t :: ts => some (ts.foldl max t - n)

/-- The hold halves a slot with a recipe needs, for one die. -/
def Recipe.holdNeed (r : Recipe) : Nat := if r.lastGood then r.holdBytes else 0

/-- The buffers of the slot's batch lie inside the owner's share, the line buffers fit the intake SRAM, and the hold halves lie inside the
share, clear of the owner's buffers (R216, R227, R237, R240). -/
def State.slotFits (s : State) (b : Nat) (r : Recipe) : Bool :=
  let owner := s.batchOwner b
  let sh := s.beamShare owner
  let mine := [s.bufferRange b (r.batchBytes (s.batchB b)) .a, s.bufferRange b (r.batchBytes (s.batchB b)) .b]
  mine.all (fun x => decide (sh.1 ≤ x.1) && decide (x.2 ≤ sh.2))
    && decide (s.intakeUsed + r.lineBuffer ≤ 8388608)
    && (r.holdNeed == 0 || (match s.holdPlace owner (2 * r.holdNeed) with
      | none => false
      | some h => !(mine ++ s.otherBuffers b owner).any (rangesMeet (h, h + 2 * r.holdNeed))))

/-- The first reason of R216 not to enable a stream slot with a binding, as err names it; 0 for none. -/
def State.slotErr (s : State) (k : Nat) (v : Word) : Nat :=
  let port := fld v 5 0
  let b := fld v 20 16
  let q := fld v 25 21
  let others := (List.range 32).filter (fun j => j != k && s.slotOn j)
  let mates := others.filter (fun j => s.slotBatch j == b)
  if others.any (fun j => s.slotPort j == port && s.reg (oSlotSel j) == s.reg (oSlotSel k)) then 1
  else
    match s.recipe? (fld v 13 8) with
    | none => 2
    | some x =>
      if x.partition ≠ s.batchOwner b ∨ !x.recipe.kindOk port then 2
      else if !s.batchOn b ∨ s.batchB b ≤ q ∨ mates.any (fun j => s.slotPos j == q) then 3
      else if mates.any (fun j => (s.slotRec j).map Recipe.geo != some x.recipe.geo) then 4
      else if !s.slotFits b x.recipe then 5
      else 0

/-- A stream slot is enabled with a binding: its counts return to 0 and its hold halves are placed (R216, R240). -/
def State.bindSlot (s : State) (k : Nat) (v : Word) (r : Recipe) : State :=
  let n := r.holdNeed
  let at' := (s.holdPlace (s.batchOwner (fld v 20 16)) (2 * n)).getD 0
  (s.modSlot k (fun _ => { Slot.reset with holdBase := if n = 0 then 0 else at', holdBytes := n })).setReg (oSlotBind k)
    ((v &&& 0x03FF3F3F#32) ||| 0x10000000#32)

/-- CRL_SLOT_ENABLE (R216): on an enabled slot nothing changes; a refused write changes err only (R556).  The first slot brings the Creel
stages to Run (R382). -/
def execCrlSlotEnable (k : Nat) (value : Word) (s : State) : Host.Outcome State Fault Refusal :=
  .next (if 32 ≤ k ∨ !s.missionOn ∨ s.slotOn k then s
    else if s.slotErr k value ≠ 0 then s.setReg (oSlotBind k) (setFld (s.reg (oSlotBind k)) 31 29 (s.slotErr k value))
    else
      match s.recipe? (fld value 13 8) with
      | some x => (s.bindSlot k value x.recipe).creelClock s.anySlot
      | none => s)

/-- The open sample of a stream is discarded, its positions are substituted with cause 3, its hold halves are freed, and a batch index
left without members releases the steps that wait on it (R240, R243, R283).  With the last slot the Creel stages go to Cool (R382). -/
def State.unbindSlot (s : State) (k : Nat) : State :=
  let b := s.slotBatch k
  let s1 := (s.modSlot k (fun x => { x with phase := .idle })).closeStream k
  let s2 := s1.setReg (oSlotBind k) (setFld (s1.reg (oSlotBind k)) 28 28 0)
  let s3 := (s2.modSlot k (fun x => { x with input := [], holdBase := 0, holdBytes := 0, half := false, hold := none, copying := none })).creelClock
    s.anySlot
  if (s3.members b).isEmpty then s3.batchGone b else s3

/-- CRL_SLOT_DISABLE (R243): on a slot that is not enabled the write sets the other fields. -/
def execCrlSlotDisable (k : Nat) (value : Word) (s : State) : Host.Outcome State Fault Refusal :=
  .next (if 32 ≤ k ∨ !s.missionOn then s
    else if s.slotOn k then s.unbindSlot k
    else s.setReg (oSlotBind k) ((value &&& 0x03FF3F3F#32) ||| (s.reg (oSlotBind k) &&& 0xE0000000#32)))

/-! ### Batch indexes (R236) -/

/-- B is one of the sizes of R236. -/
def batchSizeOk (n : Nat) : Bool := [1, 2, 4, 8, 16, 32].contains n

/-- A base lies inside the share of a partition, at a multiple of 64 (R237). -/
def State.baseOk (s : State) (owner base : Nat) : Bool :=
  base % 64 == 0 && decide ((s.beamShare owner).1 ≤ base) && decide (base < (s.beamShare owner).2)

/-- The reason not to enable a batch index; 0 for none (CRL_BATCH_CTL.err). -/
def State.batchErr (s : State) (b : Nat) (v : Word) : Nat :=
  let owner := b2n (bitW v 8)
  if !batchSizeOk (fld v 5 0) then 1
  else if !s.baseOk owner (s.batchBase b .a) || !s.baseOk owner (s.batchBase b .b) then 2
  else if !(s.members b).isEmpty then 3
  else 0

/-- A refused write of CRL_BATCH_CTL changes err only (R556). -/
def State.batchRefused (s : State) (b e : Nat) : State := s.setReg (oBatchCtl b) (setFld (s.reg (oBatchCtl b)) 18 17 e)

/-- CRL_BATCH_ENABLE (R236, R237): on an enabled batch index nothing changes.  A Beam group in Cool or Rest wakes (R386). -/
def execCrlBatchEnable (b : Nat) (value : Word) (s : State) : Host.Outcome State Fault Refusal :=
  .next (if 32 ≤ b ∨ !s.missionOn ∨ s.batchOn b then s
    else if s.batchErr b value ≠ 0 then s.batchRefused b (s.batchErr b value)
    else (s.setReg (oBatchCtl b) ((value &&& 0x1FF#32) ||| 0x10000#32)).wakeBeams)

/-- A batch index is disabled: the instances that no step uses are discarded, and the steps that wait for an instance complete (R241,
R283). -/
def State.dropBatch (s : State) (b : Nat) : State :=
  let s1 := s.setReg (oBatchCtl b) (setFld (s.reg (oBatchCtl b)) 16 16 0)
  let s2 := (s1.modBatch b (fun x => { x with instances := x.instances.map (fun (i : Instance) =>
    if s.steps.any (fun t => t.uses b i.counter) then i else { i with discarded := true }) })).releaseInsts b
  s2.batchGone b

/-- CRL_BATCH_DISABLE (R283): refused while a member is enabled; on a batch index that is not enabled the write sets the other fields. -/
def execCrlBatchDisable (b : Nat) (value : Word) (s : State) : Host.Outcome State Fault Refusal :=
  .next (if 32 ≤ b ∨ !s.missionOn then s
    else if !s.batchOn b then s.setReg (oBatchCtl b) ((value &&& 0x1FF#32) ||| (s.reg (oBatchCtl b) &&& 0x60000#32))
    else if !(s.members b).isEmpty then s.batchRefused b 3
    else s.dropBatch b)

end Machine

end Sys2Proof
end

