-- ==== Sys2Proof/Machine/CtrCtl.lean ====
section
/-! DEFINITION. Writes to the counters and the watch slots (R517, R526, R557). -/

namespace Sys2Proof

namespace Machine

/-- The Weft die of a die number. -/
def dieOf (n : Nat) : Option Weft := if n = 1 then some .a else if n = 2 then some .b else none

/-- The number of a die in the counter block. -/
def Die.no (d : Die) : Nat :=
  match d with
  | .selvedge => 0
  | .weftA => 1
  | .weftB => 2

/-- A Weft die is in die reset (R557, R478). -/
def State.dieHeld (s : State) (d : Weft) : Bool := s.dieInReset d

/-- The Weft control group, which follows Beam, is in Cool or Rest, or on its way from or to them (R381, R557, R569). -/
def State.controlAsleep (s : State) (d : Weft) : Bool := decide (2 ≤ ((s.weft d).grp .beam).depth)

/-- A write to the counter block of a die (R557): discarded while the die is in die reset, held while its control group sleeps. -/
def State.ctrAccess (s : State) (n o : Nat) (v : Word) : State :=
  match dieOf n with
  | none => s.ctrWrite n o v
  | some d =>
    if s.dieHeld d then s
    else if s.controlAsleep d then
      { s with bus := { s.bus with heldWrites := s.bus.heldWrites ++ [(0x500000 + 0x4000 * n + o, v)] } }
    else s.ctrWrite n o v

/-- The supervisor's write to a counter block reaches its Weft die over the links, unless it is discarded or held (R270, R557). -/
def State.ctrTraffic (s : State) (n : Nat) : State :=
  match dieOf n with
  | none => s
  | some d => if s.dieHeld d || s.controlAsleep d then s else s.controlWord d true 1

/-- CTR_SEL_WRITE (R517). -/
def execCtrSelWrite (d : Die) (i : Nat) (value : Word) (s : State) : Host.Outcome State Fault Refusal :=
  .next (if 32 ≤ i ∨ !s.missionOn then s else (s.ctrTraffic (Die.no d)).ctrAccess (Die.no d) (0x20 * i) value)

/-- The reason of R526 not to enable watch slot w; 0 for none. -/
def State.watchErr (s : State) (w : Nat) (v : Word) : Nat :=
  match s.ctx? (fld v 11 0) with
  | none => 1
  | some c =>
    if c.closing then 1
    else
      match s.drafts.find? (fun e => e.index == fld v 19 12 && decide (e.state = .loaded)) with
      | none => 2
      | some e =>
        if e.partition ≠ c.part then 2
        else if e.draft.tensors.length ≤ fld (s.reg (oWatchTensor w)) 15 0 then 3
        else 0

/-- CTR_WATCH_CFG_WRITE (R526): the results return to 0 at enable; a refused enable changes err only. -/
def execCtrWatchCfgWrite (w : Nat) (value : Word) (s : State) : Host.Outcome State Fault Refusal :=
  let old := s.reg (oWatchCfg w)
  .next (if 16 ≤ w ∨ !s.missionOn then s
    else if !bitW value 20 then s.setReg (oWatchCfg w) ((value &&& 0xFFFFF#32) ||| (old &&& 0x600000#32))
    else if s.watchErr w value ≠ 0 then s.setReg (oWatchCfg w) (setFld old 22 21 (s.watchErr w value))
    else ({ s with ctr := { s.ctr with watch := eraseN s.ctr.watch w } }).setReg (oWatchCfg w) (value &&& 0x1FFFFF#32))

end Machine

end Sys2Proof
end

