-- ==== Sys2Proof/Machine/Deliver.lean ====
section
/-! DEFINITION. From the packed result set to the completion record: Ward, delivery and the monitors of a step (R29, R294, R295, R319,
R423 to R428); the ends of the copies of hold samples (R239, R240). -/

namespace Sys2Proof

namespace Machine

/-! ### Ward (R423 to R428) -/

/-- The step runs on both dies as a Paired step: Ward compares it (R423, R428). -/
def State.warded (s : State) (t : Step) : Bool := s.mode == 0 && !(s.stepDraft t).whole

/-- The coded tensors that a step outputs, ascending (R423, R66). -/
def Draft.codedOutputs (d : Draft) : List Nat :=
  (List.range d.tensors.length).filter (fun j => (d.tensor j).type == 0 && !(d.tensor j).weight && !(d.tensor j).batchInput)

/-- A die's summary of a step (R423). -/
def State.summaryOf (s : State) (t : Step) (d : Weft) (set : List Byte) : Summary :=
  let dr := s.stepDraft t
  let w := t.work d
  { die := d
    step := t.id
    layersDone := w.layersDone.length
    stepDigest := leAt set 24 4
    setCrc := (crc32c set).toNat
    totalBytes := leAt set 4 4
    digestCrc := (crc32c ((List.range dr.layers.length).flatMap (fun l => leBytes 4 ((lookupN w.digests l).getD 0)))).toNat
    satCrc := (crc32c (dr.codedOutputs.flatMap (fun j => leBytes 4 (w.satCount j)))).toNat
    time := s.time.now }

/-- A die's summary of a step that Ward holds. -/
def State.summary? (s : State) (id : Nat) (d : Weft) : Option Summary := s.ward.summaries.find? (fun x => x.step == id && decide (x.die = d))

/-- The mask of the fields in which two summaries differ (R461). -/
def Summary.mask (a b : Summary) : Nat :=
  b2n (a.layersDone != b.layersDone) + 2 * b2n (a.stepDigest != b.stepDigest) + 4 * b2n (a.setCrc != b.setCrc)
    + 8 * b2n (a.totalBytes != b.totalBytes) + 16 * b2n (a.digestCrc != b.digestCrc) + 32 * b2n (a.satCrc != b.satCrc)

/-- The time between two summaries in ns. -/
def Summary.skew (a b : Summary) : Nat := max (a.time.toNat - b.time.toNat) (b.time.toNat - a.time.toNat)

/-- A source of Ward for a step (R461): index, address and mask. -/
def State.raiseWard (s : State) (i : Nat) (t : Step) (mask : Nat) : State := s.raise i (cap (some t.ctx) noMaster 0 t.counter mask)

/-- The skew check (R426). -/
def State.skewCheck (s : State) (t : Step) : State :=
  match s.summary? t.id .a, s.summary? t.id .b with
  | some a, some b =>
    let lim := fld (s.reg oWrdCtl) 15 0
    if lim ≠ 0 ∧ lim * 1000 < a.skew b then s.raiseWard 0x0B t (a.mask b) else s
  | _, _ => s

/-- STEP_FINISH (R423): the packing layer is complete on a die.  A Paired step sends Ward its summary; any other is ready to
deliver. -/
def execStepFinish (d : Weft) (s : State) : Host.Outcome State Fault Refusal :=
  match s.sched.running.bind s.step? with
  | none => .next s
  | some t =>
    .next (if t.stage ≠ .running ∨ !s.live t.id ∨ !t.on d ∨ (t.work d).summarised then s
      else
        match (t.work d).set with
        | none => s
        | some set =>
          let s1 := s.modStep t.id (fun x => x.modWork d (fun w => { w with summarised := true }))
          if !s.warded t then s1.modStep t.id (fun x => { x with stage := .delivering })
          else
            let s2 := { s1 with ward := { s1.ward with summaries := s1.ward.summaries ++ [s.summaryOf t d set] } }
            match s2.step? t.id with
            | none => s2
            | some u =>
              if (!u.onA || u.workA.summarised) && (!u.onB || u.workB.summarised) then
                (s2.modStep t.id (fun x => { x with stage := .packed })).skewCheck t
              else s2)

/-- A step with every summary that its dies owe (R424, R428): packed, or left alone by a die that was reset. -/
def State.atWard (s : State) : Option Step :=
  match s.sched.running.bind s.step? with
  | none => none
  | some t =>
    if s.warded t && s.live t.id && (t.stage == .packed || t.stage == .running) && (t.onA || t.onB)
        && (!t.onA || t.workA.summarised) && (!t.onB || t.workB.summarised) then some t else none

/-- A Ward count stops at 0xFFFF. -/
def inc16 (w : BitVec 16) : BitVec 16 := if w = 0xFFFF#16 then w else w + 1

/-- WARD_VERDICT (R424 to R428): equal summaries let Heddle deliver; a difference, or comparators that disagree, ends the step with
KILLED; a survivor's step is delivered without comparison. -/
def execWardVerdict (comparatorsAgree : Bool) (s : State) : Host.Outcome State Fault Refusal :=
  match s.atWard with
  | none => .next s
  | some t =>
    let deliver := fun (u : State) => u.modStep t.id (fun x => { x with stage := .delivering })
    match s.summary? t.id .a, s.summary? t.id .b, t.onA && t.onB with
    | some a, some b, true =>
      .next (if !comparatorsAgree then (s.endCtx t.ctx 3).raiseWard 0x0C t (a.mask b)
        else if a.mask b = 0 then deliver { s with ward := { s.ward with agree := inc16 s.ward.agree } }
        else (({ s with ward := { s.ward with disagree := inc16 s.ward.disagree } }).endCtx t.ctx 3).raiseWard 0x0A t (a.mask b))
    | _, _, _ => .next (deliver s)

/-! ### Delivery (R29, R319) -/

/-- RESULT_WRITES_DONE (R29, R319, R294 to R296): the result set is in host memory; monitors that have passed are raised, and the
records are written.  A result set whose lines are lost is not delivered (R265). -/
def execResultWritesDone (ctx : Nat) (chk : ReadChecks) (s0 : State) : Host.Outcome State Fault Refusal :=
  let s := match s0.steps.find? (fun t => t.ctx == ctx && decide (t.stage = .delivering) && s0.live t.id) with
    | some _ => s0.readChecks chk (some ctx)
    | none => s0
  match s.steps.find? (fun t => t.ctx == ctx && decide (t.stage = .delivering) && s.live t.id) with
  | none => .next s
  | some t =>
    match t.resultSet with
    | none => .next s
    | some set =>
      let s1 := hostWrite s t.fn.port (fnMaster t.fn) t.ctx t.lc t.resultAddr (qualified set (s.qualBits t))
      let s1 := (s1.linkBytes (if t.onA then 1 else 2) 0 { workEv 0 0 none 0 t with master := some (fnMaster t.fn).toNat } set.length).tracked
        (if t.onA then 1 else 2) (workEv 0 0 none 0 t)
      let s2 := (s1.deadlineFault t).ageFaultNow t
      .next (if s2.live t.id then s2.completeStep t.id (s2.okOrLate t) else s2)

/-- The runs of offsets from `off` on, n of them, that lie on one die (R316). -/
def Draft.dieRuns (dr : Draft) (j off n : Nat) : List (List Nat) :=
  ((List.range n).map (fun i => off + i)).splitBy (fun a b => decide (dr.byteDie j a = dr.byteDie j b))

/-- The counts of a TRANSFER's reads of tensor j, and of its way to Selvedge (R270, R518). -/
def State.copyTraffic (s : State) (e : Entry) (cx : Ctx) (j off n : Nat) : State :=
  let p := e.draft.place j
  let v := controlEv cx
  (e.draft.dieRuns j off n).foldl (fun (u : State) r =>
    let o := r.headD 0
    let d := e.draft.byteDie j o
    if p.home = 0 then (u.beamBytes d false (p.sramAt d o) r.length v).linkBytes (dieNo d) 0 v r.length
    else if p.home = 1 then (u.gddrBytes d false (e.base d + p.homeOff + o) r.length v).linkBytes (dieNo d) 0 v r.length
    else hostRead u cx.fn.port (fnMaster cx.fn) cx.id cx.lc (cx.spillAddr + p.homeOff + o) r.length) s

/-- TRANSFER_DONE (R316): once the Beam groups are open to it (R26, R386), the bytes go to host memory and the record is written, or an uncorrectable error completes it with
ECC_FAIL. -/
def execTransferDone (ctx : Nat) (chk : ReadChecks) (s : State) : Host.Outcome State Fault Refusal :=
  match s.postedOf ctx 7, s.ctx? ctx with
  | some d, some cx =>
    if s.steps.any (fun t => t.ctx == ctx && decide (t.id < d.seq)) then .next s
    else if !s.beamsOpen && (s.entry? (d.at' 2 1)).any (fun e => decide ((e.draft.place (d.at' 20 2)).home ≠ 2)) then .next s.wakeBeams
    else
      let s0 := s.unpost d
      .next (match s0.entry? (d.at' 2 1) with
        | none => (completeRead s0 d 0x13 0x4B (d.at' 2 1)).choose
        | some e =>
          let j := d.at' 20 2
          let off := d.at' 24 4
          let n := d.at' 16 4
          let s1 := (s0.copyTraffic e cx j off n).readChecks chk (some ctx)
          if chk.hit.isSome then (completeRead s1 d 2 0 e.index).choose
          else
            let bs := (List.range n).map (fun i => s1.homeByte e cx j (off + i))
            (completeRead (hostWrite s1 cx.fn.port (fnMaster cx.fn) ctx cx.lc (d.at' 8 8) bs) d 0 0 e.index).choose)
  | _, _ => .next s

/-! ### Copies of hold samples (R239, R240) -/

/-- HOLD_COPY_DONE (R240): the half that was written becomes the active one; not where lines of the sample were lost (R265; log entry 163). -/
def execHoldCopyDone (slot : Nat) (chk : ReadChecks) (s : State) : Host.Outcome State Fault Refusal :=
  match (s.slot slot).copying with
  | some h => .next ((s.readChecks chk none).modSlot slot (fun x =>
      if chk.hit.isSome then { x with copying := none } else { x with hold := some h, half := !x.half, copying := none }))
  | none => .next s

/-- SUBSTITUTE_COPY_DONE (R239): a last-good copy is complete; where lines of the hold sample were lost, the instance's data is (R265; log
entry 163). -/
def execSubstituteCopyDone (batch counter position : Nat) (chk : ReadChecks) (s : State) : Host.Outcome State Fault Refusal :=
  match (s.inst? batch counter).bind (fun i => i.pos[position]?) with
  | some p =>
    .next (if p.state ≠ .copying then s
      else
        let s1 := s.readChecks chk none
        (if chk.hit.isSome then s1.eccOwner (.batch batch counter) else s1).modPos batch counter position (fun x => { x with state := .lastGood }))
  | none => .next s

/-! ### Monitors -/

/-- An admitted, uncompleted step of a context by its step counter. -/
def State.monitored (s : State) (ctx counter : Nat) : Option Step :=
  s.steps.find? (fun t => t.ctx == ctx && t.lc && decide (t.stage ≠ .waiting) && t.counter.toNat == counter)

/-- DEADLINE_MONITOR_EXPIRY (R294): D comes without the step's last completion-record write. -/
def execDeadlineMonitorExpiry (ctx counter : Nat) (s : State) : Host.Outcome State Fault Refusal :=
  match s.monitored ctx counter with
  | none => .next s
  | some t => .next (if decide (t.deadline.getD 0 ≤ s.time.now.toNat) then s.deadlineRaise t else s)

/-- AGE_MONITOR_EXPIRY (R295): the age limit comes without the last completion-record write. -/
def execAgeMonitorExpiry (ctx counter : Nat) (s : State) : Host.Outcome State Fault Refusal :=
  match s.monitored ctx counter with
  | none => .next s
  | some t =>
    match t.ageAt with
    | none => .next s
    | some a => .next (if decide (a ≤ s.time.now.toNat) then s.ageRaise t else s)

end Machine

end Sys2Proof
end

