-- ==== Sys2Proof/Machine/Ladder.lean ====
section
/-! DEFINITION. Grace timers, acknowledgement, progress monitors and the recovery ladder (R459, R463, R464, R467 to R475, R478,
R480, R481). -/

namespace Sys2Proof

namespace Machine

/-! ### Grace timers and acknowledgement -/

/-- GRACE_TIMER_EXPIRY (R463): the second reaction set fires, once for a raise. -/
def execGraceTimerExpiry (source : Nat) (s : State) : Host.Outcome State Fault Refusal :=
  .next (if lookupN s.hasp.grace source = some 0 && s.hasp.raised.contains source && !s.pwr.refLost then s.fireSecond source else s)

/-- Acknowledge a source; a grace timer that expires in the same Tick clock fires first (R464, R481). -/
def State.acknowledge (s : State) (n : Nat) : State :=
  (if lookupN s.hasp.grace n = some 0 && s.hasp.raised.contains n then s.fireSecond n else s).ackSource n

/-- FAULT_STATUS_ACK (R464): pending and missed go; the source is acknowledged when its host_ack is 1. -/
def execFaultStatusAck (f : FnId) (s : State) : Host.Outcome State Fault Refusal :=
  let w := s.fnReg f 0x74
  .next (if !s.fnLive f || !bitW w 31 then s
    else
      let s1 := s.setFnReg f 0x74 (setFld (setFld w 31 31 0) 29 23 0)
      if bitW (s.reg (oSrcCfg (fld w 9 0))) 14 then s1.acknowledge (fld w 9 0) else s1)

/-- HSP_RAISED_ACK (R464, R459): each 1 acknowledges the source of its bit. -/
def execHspRaisedAck (index : Nat) (value : Word) (s : State) : Host.Outcome State Fault Refusal :=
  .next (if 24 ≤ index ∨ !s.missionOn then s
    else (List.range 32).foldl (fun t j => if value.getLsbD j then t.acknowledge (32 * index + j) else t) s)

/-- HSP_FIRST_CLEAR (R459): valid is cleared, and the next raise is recorded. -/
def execHspFirstClear (s : State) : Host.Outcome State Fault Refusal :=
  .next (if s.missionOn then s.setReg oFirst (setFld (s.reg oFirst) 31 31 0) else s)

/-! ### Progress monitors (R467, R468, R470) -/

/-- The window of a kind of monitor; 0 disables it (R468). -/
def State.progWindow (s : State) (k : MonKind) : Nat :=
  let i := match k with
    | .engine => 0
    | .reed => 0
    | .finish => 0
    | .context => 1
    | .link => 2
    | .slot => 3
    | .ring => 4
  fld (s.reg (oProgWin i)) 15 0

/-- A die by the instance number of its Reed and Finish. -/
def vectorDie (n : Nat) : Weft := if n = 0 then .a else .b

/-- Heddle has transfers for the links of a Weft die: a load, a TRANSFER, a copy of Creel's, or results to deliver (R270). -/
def State.dieTransfers (s : State) : Bool :=
  s.loadBusy.isSome || s.posted.any (fun d => d.type == 7) || s.slots.any (fun x => x.copying.isSome)
    || s.steps.any (fun t => decide (t.stage = .delivering))

/-- Transfers are queued on a link (R467): on links 4 to 7 those of a Whole-mode operation (R270), or those of the contexts that the trip
names (log entry 39). -/
def State.linkWork (s : State) (l : Nat) (ctxs : List Nat) : Bool :=
  !ctxs.isEmpty || (if l < 4 then s.dieTransfers else (s.wa.arrayRun.map s.opWhole).getD false || (s.wb.arrayRun.map s.opWhole).getD false)

/-- A packet that Creel is to work on waits in the input queue of a slot (R217). -/
def Slot.waiting (x : Slot) : Bool :=
  x.input.any (fun p => match p.2 with
    | .linkLoss => false
    | .frameStart => true
    | .line _ _ _ _ _ _ => true
    | .frameEnd => true
    | .discard _ _ => true
    | .point _ _ _ => true
    | .inject _ _ _ => true)

/-- A doorbell has covered descriptors of a submission ring that Heddle has not read (R304, R548). -/
def State.ringWork (s : State) (ctx index : Nat) (r : Ring) : Bool :=
  !r.completion && (decide (r.tail ≠ r.read) || s.heldBells.any (fun b => b.ctx == ctx && b.ring == index))

/-- A monitor is armed (R467).  For an engine the slice of its die is work (R481). -/
def State.armed (s : State) (k : MonKind) (inst ring : Nat) (ctxs : List Nat) : Bool :=
  let unit := fun (u : OpUnit) (w : WeftDie) => !(w.queue u).isEmpty || (w.runOf u).isSome
  match k with
  | .engine => decide (inst < 8) && (unit .array (s.weft (weftOf inst)) || (s.weft (weftOf inst)).checks.slice.isSome) && !s.unitHeld (.engine inst)
  | .reed => decide (inst < 2) && unit .reed (s.weft (vectorDie inst)) && !s.unitHeld (.reed (vectorDie inst))
  | .finish => decide (inst < 2) && unit .finish (s.weft (vectorDie inst)) && !s.unitHeld (.finish (vectorDie inst))
  | .context => (match s.sched.running.bind s.step? with
    | some t => t.ctx == inst && decide (t.stage = .running) && s.live t.id
        && [Weft.a, Weft.b].all (fun d => !t.on d || (decide ((s.weft d).checks.phase ≠ .running) && (s.weft d).checks.slice.isNone))
    | none => false)
  | .link => s.linkUp inst && !s.unitHeld (.link inst) && s.linkWork inst ctxs
  | .slot => s.slotOn inst && (s.slot inst).waiting
  | .ring => ((s.ring? inst ring).map (s.ringWork inst ring)).getD false

/-- A progress source is raised: access 7, the counter value and the instance (R461, R467). -/
def State.raiseProgress (s : State) (n : Nat) (ctx : Option Nat) (master : Byte) (counter : Dword) (inst : Nat) : State :=
  s.raise n (cap ctx master 7 counter inst)

/-- A Reed, Finish or engine that made no progress: every context with work on it is killed, and it is reset (R470, R471).  During a
slice no context is killed (R481). -/
def State.stalledUnit (s : State) (u : UnitId) (slice : Bool) : State :=
  if s.unitHeld u then s else if slice then s.unitStart u else s.unitReset u

/-- The counter value at a trip (R461, R467): the instance's progress counter; of a link, whose flits the state does not count, the one that
the command tells (log entry 39). -/
def State.tripCount (s : State) (k : MonKind) (inst ring : Nat) (told : Dword) : Dword :=
  if k = .link then told else BitVec.ofNat 64 (s.progressOf (monKey k inst ring))

/-- PROGRESS_MONITOR_TRIP (R470): the action on the instance, then the source.  The monitors' windows stop with the reference (R379). -/
def execProgressMonitorTrip (kind : MonKind) (inst ring : Nat) (told : Dword) (ctxs : List Nat) (s : State) :
    Host.Outcome State Fault Refusal :=
  if s.progWindow kind = 0 || !s.armed kind inst ring ctxs || s.pwr.refLost then .next s
  else
    let counter := s.tripCount kind inst ring told
    let one := fun (cs : List Nat) => cs.head?
    match kind with
    | .engine =>
      let d := weftOf inst
      let u := UnitId.engine inst
      let slice := (s.weft d).checks.slice.isSome
      .next ((s.stalledUnit u slice).raiseProgress (weftSrc d (8 + inst % 4)) (if slice then none else one (s.unitCtxs u))
        (BitVec.ofNat 8 (0x70 + inst)) counter inst)
    | .reed =>
      let d := vectorDie inst
      .next ((s.stalledUnit (.reed d) false).raiseProgress (weftSrc d 0x0E) (one (s.unitCtxs (.reed d))) (BitVec.ofNat 8 (0xA0 + inst)) counter 0)
    | .finish =>
      let d := vectorDie inst
      .next ((s.stalledUnit (.finish d) false).raiseProgress (weftSrc d 0x0F) (one (s.unitCtxs (.finish d))) (BitVec.ofNat 8 (0xB0 + inst)) counter 0)
    | .context => .next ((s.endCtx inst 3).raiseProgress 0x013 (some inst) noMaster counter 0)
    | .link =>
      .next ((((s.endCtxs ctxs 3).unitReset (.link inst)).retestNow).raiseProgress (linkSrc inst 3) (one ctxs) (linkMaster inst) counter inst)
    | .slot =>
      let s1 := (s.corruptSample inst).modSlot inst (fun x => { x with input := [] })
      let s2 := if s.frame.trips.isEmpty then s1 else s1.unitReset .creel
      .next (({ s2 with frame := { s2.frame with trips := addSet s2.frame.trips inst } }).raiseProgress (0x40 + inst) none (slotMaster inst)
        counter inst)
    | .ring => .next ((s.unitReset .heddle).raiseProgress 0x014 (some inst) noMaster counter (ring % 256))

/-- WAKE_COMPLETE (R383, R385, R387): the group reaches Run, Beam SRAM zeroed on the way out of Rest; the die's held writes are applied with the control group, which
follows the Beam group (R386); Creel works on what waited for Beam SRAM (R217); shares and floors may now take effect (R390), and a step may start (R26). -/
def execWakeComplete (d : Weft) (g : Grp) (s : State) : Host.Outcome State Fault Refusal :=
  match (s.weft d).grp g with
  | .waking _ =>
    let s1 := (s.lockFor d g).modWeft d (fun w => w.setGrp g (.at .run))
    let s2 := if g = .beam then (if (s.weft d).beamGrp = .waking .rest then s1.modWeft d (fun w => { w with beam := [] }) else s1).applyHeld d else s1
    .next (s2.awake d).applyLoom.drainAll.proofEnter.choose
  | _ => .next s

/-- PLL_RELOCK (R380): the frozen domains go on; Creel works on what waits in the input queues (R217). -/
def execPllRelock (p : Pll) (s : State) : Host.Outcome State Fault Refusal :=
  .next (if !s.clk.locked p && s.pllMeant p then
      ({ s with clk := s.clk.setLock p true } : State).drainAll
    else s)

/-! ### Kills (R472, R473) -/

/-- Of the units that the kill of a context told to flush, those that did not confirm it are left in their state until a unit reset clears
them (R473). -/
def State.flushed (s : State) (ctx : Nat) (stuck : List UnitId) : State :=
  let told := (s.ladder.flush.filter (fun p => p.1 == ctx)).map (fun p => p.2)
  let left := (stuck.filter (fun u => told.contains u && !s.ladder.stuck.contains u)).dedup
  { s with ladder := { s.ladder with flush := s.ladder.flush.filter (fun p => p.1 != ctx), stuck := s.ladder.stuck ++ left } }

/-- KILL_COMPLETE (R473): the step completes with KILLED, or with the higher status that also ends it (R17), whatever units did not confirm
the flush. -/
def execKillComplete (ctx : Nat) (stuck : List UnitId) (s : State) : Host.Outcome State Fault Refusal :=
  match lookupN s.ladder.kills ctx with
  | none => .next s
  | some st =>
    let u := s.flushed ctx stuck
    .next (match u.begunStep ctx with
      | some t => (u.completeStep t.id st).afterChecks
      | none => { u with ladder := { u.ladder with kills := eraseN u.ladder.kills ctx } })

/-! ### Unit reset, isolation, die reset and module reset (R474, R475, R478, R480) -/

/-- UNIT_RESET_DONE (R474, R442): an engine, pair, Reed, Finish or link runs its injection; Creel and Heddle work again. -/
def execUnitResetDone (u : UnitId) (s : State) : Host.Outcome State Fault Refusal :=
  if s.unitPhase u = some .resetting then
    .next (if u = .creel ∨ u = .heddle then (s.unitDone u).afterChecks
      else (s.unitAt u .injecting).setReg oInject (BitVec.ofNat 32 (1 + 4 * 3)))
  else .next s

/-- Reset-hang: a rung missed its deadline (R475, R461). -/
def State.raiseHang (s : State) (code : Nat) : State := s.raise 0x00E (cap none noMaster 0 0 code)

/-- The die whose reset is the next rung after a unit (R475; a link's die: log entry 38); none: on Selvedge, where it is a module reset
(R392). -/
def rungDie (u : UnitId) : Option Weft :=
  match u with
  | .link n => some (if n = 2 ∨ n = 3 then .b else .a)
  | x => unitDie x

/-- Rung 4 for a unit (R475, R392). -/
def State.rungFour (s : State) (u : UnitId) : State :=
  match rungDie u with
  | some d => s.dieReset d
  | none => s.moduleReset false

/-- RUNG_DEADLINE_EXPIRY (R475): the next rung starts, which is reset-hang's fixed action, and reset-hang is raised (R463).  The rungs'
times stop with the reference (R379). -/
def execRungDeadlineExpiry (r : RungId) (s : State) : Host.Outcome State Fault Refusal :=
  if s.pwr.refLost then .next s
  else
  match r with
  | .unit u =>
    match s.unitPhase u with
    | some .resetting => .next ((if (rungDie u).isNone then s.rungFour u else s.unitAt u .isolating).raiseHang (unitCode u))
    | some .isolating => .next ((s.rungFour u).raiseHang (unitCode u))
    | some .injecting => .next s
    | none => .next s
  | .die d => .next (if (s.diePhase d).isSome then (s.moduleReset true).raiseHang 0xFF else s)
  | .module => .next (if s.ladder.module then ((s.powerDown .ladder false).assertFault).raiseHang 0xFF else s)

/-- ISOLATION_CONFIRMED (R475, R388, R271): the unit is disabled, and admission is recomputed (R288). -/
def execIsolationConfirmed (u : UnitId) (s : State) : Host.Outcome State Fault Refusal :=
  if s.unitPhase u = some .isolating then .next (((s.unitDone u).disable u).recompute.afterChecks) else .next s

/-- DIE_IN_SERVICE (R478): training and injection passed, the links that join the die are up.  Its units take effect in later tests (R288),
and its groups go no deeper than the floor (R276). -/
def execDieInService (d : Weft) (s : State) : Host.Outcome State Fault Refusal :=
  let w := s.weft d
  if s.diePhase d = some .linking && !w.trainFailed && !w.injectFailed then
    let joined := fun (l : Nat) => linkOn l d && !(linkOn l (otherDie d) && (s.diePhase (otherDie d)).isSome)
    let s1 := s.modWeft d (fun x => { x with inService := true })
    .next ((({ s1 with
      links := s1.links.zipIdx.map (fun (p : Link × Nat) => if joined p.2 && decide (p.1.state ≠ 3) then { p.1 with state := 2, modulesUp := 3 } else p.1)
      ladder := match d with
        | .a => { s1.ladder with dieA := none }
        | .b => { s1.ladder with dieB := none } } : State).recost.wakeTo s.floor).afterChecks)
  else .next s

/-! ### HSP_ACTION (R475) -/

/-- The last action written. -/
def State.acted (s : State) (a : LastAction) : State := { s with ladder := { s.ladder with action := a } }

/-- HSP_ACTION_KILL (R472, R475). -/
def execHspActionKill (ctx : Nat) (s : State) : Host.Outcome State Fault Refusal :=
  .next (if s.missionOn then (s.acted (.kill ctx)).endCtx ctx 3 else s)

/-- HSP_ACTION_UNIT_RESET (R474). -/
def execHspActionUnitReset (u : UnitId) (s : State) : Host.Outcome State Fault Refusal :=
  .next (if s.missionOn then ((s.acted (.unit u)).unitReset u).retestNow else s)

/-- HSP_ACTION_DIE_RESET (R478). -/
def execHspActionDieReset (d : Weft) (s : State) : Host.Outcome State Fault Refusal :=
  .next (if s.missionOn then (s.acted (.die d)).dieReset d else s)

/-- HSP_ACTION_MODULE_RESET (R480). -/
def execHspActionModuleReset (s : State) : Host.Outcome State Fault Refusal :=
  .next (if s.missionOn then s.moduleReset false else s)

end Machine

end Sys2Proof
end

