-- ==== Sys2Proof/Machine/Tumbler.lean ====
section
/-! DEFINITION. Tumbler's commands and the debug level (R489 to R512, R542). -/

namespace Sys2Proof

namespace Machine

/-! ### The mailbox and the result -/

/-- Bytes of the mailbox. -/
def State.mail (s : State) (off n : Nat) : List Byte := s.sec.mailbox.readBytes off n

/-- Bytes written to the mailbox from an offset on. -/
def State.putMail (s : State) (off : Nat) (bs : List Byte) : State :=
  { s with sec := { s.sec with mailbox := s.sec.mailbox.writeBytes off bs } }

/-- TMB_STATUS.result. -/
def State.tmbDone (s : State) (r : Nat) : State := { s with sec := { s.sec with tmbResult := BitVec.ofNat 8 r } }

/-- A result that the manual gives no code for: a free value (log entry 9). -/
def State.tmbFree (s : State) : State :=
  { s with sec := { s.sec with tmbResult := Config.freeByte s.freshCtr }, freshCtr := s.freshCtr + 1 }

/-- Tumbler works: the mission rails are up (R487). -/
def State.tumblerOn (s : State) : Bool := decide (s.pwr.phase = .mission)

/-! ### Nonce and tokens (R500, R501, R506) -/

/-- Op 1 (R500): sixteen bytes that nothing predicts, which replace any earlier nonce. -/
def State.tmbNonce (s : State) : State :=
  let bs := (List.range 16).map (fun i => Config.freeByte (s.freshCtr + i))
  let s1 := ((s.tmbCount 1).putMail 0 bs).tmbDone 0
  { s1 with sec := { s1.sec with nonce := some (BitVec.ofNat 128 (leNat bs)) }, freshCtr := s.freshCtr + 16 }

/-- Start-up injection has not passed, or the module is in Recovery: every token is refused (R503). -/
def State.noTokens (s : State) : Bool := s.pwr.recovery || !s.pwr.injected || s.pwr.moduleInjectFailed || !s.pwr.startFailed.isEmpty

/-- The request is permitted in the life-cycle state and under the owner's policy (R497, R498, R506). -/
def State.requestOk (s : State) (r : Nat) : Bool :=
  let lc := s.lifecycle
  match r with
  | 1 => true
  | 2 => lc != 2 || (s.sec.owner.map (fun o => o.fieldOpen)).getD false
  | 16 => lc == 1 && decide (s.sec.toggles.toNat < 31)
  | 17 => lc == 2 && decide (s.sec.toggles.toNat < 31)
  | 18 => lc != 3 && s.quiet
  | _ => false

/-- Check 4 of R501: the signer is the vendor debug key in Manufacture and Returned, or owner_pk in Owned and Field. -/
def State.signerOk (s : State) (pk : List Byte) : Bool :=
  if s.lifecycle = 0 ∨ s.lifecycle = 3 then decide (sha256 pk = s.sec.romVendor)
  else (s.sec.owner.map (fun o => o.ownerPk.toNat == leNat pk)).getD false

/-- Check 5 of R501: the token's signature verifies (R500). -/
def State.tokenSigned (s : State) : Bool := slhVerify slh128f (s.mail 48 32) (s.mail 0 128) (s.mail 128 17088)

/-- The first check of R501 that a token fails; 0 where all pass. -/
def State.tokenErr (s : State) : Nat :=
  let t := s.mail 0 128
  let r := leAt t 6 1
  let form := leAt t 0 4 == 0x54474244 && leAt t 4 2 == 1 && [1, 2, 16, 17, 18].contains r && leAt t 7 1 == 0 && leAt t 80 48 == 0
  if s.noTokens then 6
  else if !form then 1
  else if s.sec.nonce ≠ some (BitVec.ofNat 128 (leAt t 8 16)) then 2
  else if !s.sec.dieIdsAt t 24 then 3
  else if !s.signerOk (sliceB t 48 32) then 4
  else if !s.tokenSigned then 5
  else if !s.requestOk r then 6
  else 0

/-- The debug level takes a value; access_err stays. -/
def State.levelTo (s : State) (n : Nat) : State := s.setReg oDebug (setFld (s.reg oDebug) 1 0 n)

/-- What a token's request does (R497, R498, R502).  A token never lowers the level. -/
def State.grant (s : State) (r : Nat) : State :=
  match r with
  | 1 => s.levelTo (max s.debugLevel 1)
  | 2 => (s.levelTo 2).markUnqualified
  | 16 => ({ s with sec := { s.sec with toggles := s.sec.toggles + 1 } }).levelTo 0
  | 17 => ({ s with sec := { s.sec with toggles := s.sec.toggles + 1 } }).levelTo 0
  | _ =>
    let s1 := ({ s with sec := { s.sec with returnedFuse := true, draftKeys := [], owk := none, owner := none } }).levelTo 0
    if s1.mode = 2 then s1 else s1.modeTo 2

/-- Op 2 (R500, R501): the nonce is consumed whatever the result. -/
def State.tmbToken (s : State) : State :=
  let s1 := ({ s.tmbCount 1 with sec := { s.sec with nonce := none } }).tmbDone s.tokenErr
  if s.tokenErr = 0 then s1.grant (leAt (s.mail 0 128) 6 1) else s1

/-! ### Attestation (R509 to R511) -/

/-- The read-only bits that a kept settings register holds beside its RW fields: refused and err. -/
def roMask (off : Nat) : Word :=
  if off = oSafety ∨ off = oFrame ∨ off = oFramePhase ∨ off = oProof ∨ off = oStest ∨ off = oDeterminism ∨ off = oSchedGap ∨ off = oSchedSave then
    0x80000000#32
  else if (idxIn off 0x40D10 4 5).isSome || (0x100600 ≤ off && off < 0x100630) then 0x80000000#32
  else if (idxIn off 0x100700 4 64).isSome then 0x40000000#32
  else if (idxIn off 0x200100 0x20 32).isSome then 0xE0000000#32
  else if (idxIn off 0x200500 0x10 32).isSome then 0x60000#32
  else 0

/-- The settings registers of R510 in ascending offset; KPR_PROOF_STATUS and KPR_STEST_STATUS, whose names R510's prefixes take in, are
read-only and count as zero. -/
def configRegs : List Nat :=
  [oTimeCtl, oPwrIdle, oSafety, oFrame, oFramePhase, oProof, oStest, 0x414, 0x418, 0x41C, 0x420]
    ++ (List.range 768).map (fun n => oSrcCfg n) ++ (List.range 5).map (fun k => oProgWin k) ++ [oWrdCtl, oGatherCtl, oDeterminism]
    ++ (List.range 2).flatMap (fun p => [oPartLoom p, oPartMem p, oPartQuota p, oPartLatch p]) ++ [oSchedGap, oSchedSave]
    ++ (List.range 64).map (fun i => oMirror i) ++ (List.range 28).map (fun p => oPortCtl p)
    ++ (List.range 32).flatMap (fun k => [oSlotBind k, oSlotSel k])
    ++ (List.range 32).flatMap (fun b => [oBatchCtl b, oBatchBaseA b, oBatchBaseB b])

/-- The digest over the settings (R510). -/
def State.configDigest (s : State) : BitVec 256 :=
  sha256 (configRegs.flatMap (fun o => leBytes 4 (s.reg o &&& ~~~(roMask o)).toNat))

/-- A codebook as its 36-byte record (R40). -/
def Codebook.bytes (c : Codebook) : List Byte :=
  leBytes 1 c.format ++ leBytes 1 c.used ++ leBytes 2 0 ++ (List.range 16).flatMap (fun i => leBytes 2 (c.levels.getD i 0))

/-- A curve as its 136-byte record (R127). -/
def Curve.bytes (c : Curve) : List Byte :=
  leBytes 2 c.xMin ++ leBytes 1 (BitVec.ofInt 8 c.log2w).toNat ++ leBytes 1 0 ++ (List.range 65).flatMap (fun i => leBytes 2 (c.y.getD i 0))
    ++ leBytes 2 0

/-- The codebook records of a die's 64 slots, an empty slot as zeros. -/
def WeftDie.codebookBytes (w : WeftDie) : List Byte :=
  (List.range 64).flatMap (fun i => ((codebookAt w.codebooks i).map Codebook.bytes).getD (List.replicate 36 0))

/-- The curve records of a die's 16 slots, an empty slot as zeros. -/
def WeftDie.curveBytes (w : WeftDie) : List Byte :=
  (List.range 16).flatMap (fun i => ((lookupN w.curves i).map Curve.bytes).getD (List.replicate 136 0))

/-- HSP_DISABLED. -/
def Disabled.word (m : Disabled) : Nat := m.engines.toNat + 2 ^ 8 * m.pairs.toNat + 2 ^ 16 * m.links.toNat + 2 ^ 24 * m.vector.toNat

/-- The 48 bytes of a draft table entry in the report. -/
def State.entryReport (s : State) (i : Nat) : List Byte :=
  match s.heldEntries.find? (fun e => e.index == i) with
  | none => List.replicate 48 0
  | some e => leBytes 1 (if e.dead then 2 else 1) ++ leBytes 1 e.partition ++ leBytes 2 e.draft.version ++ leBytes 4 0
      ++ leBytes 8 e.draft.buildId.toNat ++ leBytes 32 e.draft.digest.toNat

/-- Bytes 0 to 12,671 of the report (R509). -/
def State.reportBody (s : State) : List Byte :=
  let x := s.sec
  let key := fun (k : BitVec 256) => leBytes 32 k.toNat
  let sha := fun (bs : List Byte) => key (sha256 bs)
  let seq := (x.owner.map (fun o => o.sequence)).getD 0
  let recipe := fun (i : Nat) => ((s.recipe? i).map (fun r => key r.digest)).getD (List.replicate 32 0)
  leBytes 4 0x52545441 ++ leBytes 2 1 ++ leBytes 2 0 ++ s.mail 0 32 ++ key x.idPk ++ leBytes 8 x.dieIdS.toNat ++ leBytes 8 x.dieIdA.toNat
    ++ leBytes 8 x.dieIdB.toNat ++ leBytes 16 x.serial.toNat ++ leBytes 16 x.ordering.toNat ++ leBytes 4 x.manifest.fwVersion.toNat
    ++ leBytes 1 x.rollbackFused ++ leBytes 1 x.manifest.rollback ++ leBytes 1 s.lifecycle ++ leBytes 1 s.debugLevel ++ leBytes 1 s.mode
    ++ leBytes 1 (b2n s.det) ++ leBytes 6 0 ++ leBytes 8 s.time.now.toNat ++ leBytes 4 s.disabled.word ++ leBytes 2 s.loadedEntries.length
    ++ leBytes 2 seq ++ key x.manifest.measure ++ key s.configDigest ++ sha s.wa.codebookBytes ++ sha s.wb.codebookBytes ++ sha s.wa.curveBytes
    ++ sha ((List.range 64).flatMap recipe)
    ++ sha (s.issuers.flatMap key ++ ((x.owner.map (fun o => key o.ownerPk ++ key o.ownerDraftPk)).getD []))
    ++ (List.range 256).flatMap s.entryReport

/-- The signature of a report by the identity key (R509), with sixteen bytes of randomness that nothing predicts (log entry 11). -/
def State.reportSig (s : State) (body : List Byte) : List Byte :=
  slhSign slh128f (leBytes 48 s.sec.idSeed.toNat) ((List.range 16).map (fun i => Config.freeByte (s.freshCtr + i))) body

/-- Op 3 (R509, R511): the signed report; none in Recovery, or before firmware runs. -/
def State.tmbAttest (s : State) : State :=
  if s.pwr.recovery || !s.pwr.firmware then (s.tmbCount 1).tmbDone 0x12
  else
    let s1 := ((s.tmbCount 1).putMail 0 (s.reportBody ++ s.reportSig s.reportBody)).tmbDone 0
    { s1 with freshCtr := s.freshCtr + 16 }

/-! ### Draft keys (R496) and enrolment (R494) -/

/-- A loaded draft uses a key. -/
def State.keyUsed (s : State) (k : Nat) : Bool := s.loadedEntries.any (fun e => e.draft.encrypted && e.draft.keyId == k)

/-- The draft key that a key record in the mailbox wraps, under the owner wrapping key (R496). -/
def State.mailKey (s : State) : Option (BitVec 256) :=
  s.sec.owk.bind (fun k => unwrapKey k (s.mail 4 12) (s.mail 0 4 ++ leBytes 8 s.sec.dieIdS.toNat) (s.mail 32 32) (s.mail 16 16))

/-- Op 4 (R496, R493): without an owner record no key loads; a tag that does not verify, and a key that may not be replaced, load
nothing. -/
def State.tmbLoadKey (s : State) : State :=
  let k := leNat (s.mail 0 2)
  if s.sec.owk.isNone then (s.tmbCount 1).tmbDone 0x12
  else
    match s.mailKey with
    | none => (s.tmbCount 1).tmbDone 0x10
    | some key =>
      if k = 0 ∨ 64 < k ∨ ((lookupN s.sec.draftKeys k).isSome ∧ s.keyUsed k) then (s.tmbCount 1).tmbFree
      else ({ s.tmbCount 1 with sec := { s.sec with draftKeys := insertN s.sec.draftKeys k key } }).tmbDone 0

/-- Op 5 (R496, R512). -/
def State.tmbEraseKey (s : State) (keyId : Nat) : State :=
  if s.keyUsed keyId then (s.tmbCount 1).tmbDone 6
  else ({ s.tmbCount 1 with sec := { s.sec with draftKeys := eraseN s.sec.draftKeys keyId } }).tmbDone 0

/-- The result of an enrolment (R494, R493, TMB_STATUS): 0 where the record is accepted. -/
def State.enrolErr (s : State) (bs : List Byte) : Nat :=
  let seq := (s.sec.owner.map (fun o => o.sequence)).getD 0
  if s.lifecycle = 3 then 0x12
  else if !s.sec.ownerSigned bs then 0x10
  else if !s.sec.dieIdsAt bs 16 || decide (leAt bs 8 4 ≤ seq) then 0x11
  else if (s.sec.unwrapOwk bs).isNone then 0x10
  else 0

/-- Op 6 (R494): an accepted record goes to the first flash copy, and the command stays in progress. -/
def State.tmbEnrol (s : State) : State :=
  let bs := s.mail 0 8304
  if s.enrolErr bs ≠ 0 then (s.tmbCount 1).tmbDone (s.enrolErr bs)
  else { s.tmbCount 1 with sec := { s.sec with owner0 := bs, enrolling := some bs } }

/-- An enrolment ends (R494): the second copy is written and the record is in force; in Manufacture the Owned fuse is blown and the level
sealed (R497). -/
def State.finishEnrol (s : State) : State :=
  match s.sec.enrolling with
  | none => s
  | some bs =>
    let s1 := ({ s with sec := { s.sec with
      owner1 := bs
      ownedFuse := true
      owner := some (parseOwner bs)
      owk := s.sec.unwrapOwk bs
      enrolling := none } }).tmbDone 0
    if s.lifecycle = 0 then s1.levelTo 0 else s1

/-! ### TMB_CMD (R483) -/

/-- The command that a word written to TMB_CMD names; ops 0 and 7 to 15 do nothing. -/
def State.runTmb (s : State) (v : Word) : State :=
  match fld v 3 0 with
  | 1 => s.tmbNonce
  | 2 => s.tmbToken
  | 3 => s.tmbAttest
  | 4 => s.tmbLoadKey
  | 5 => s.tmbEraseKey (fld v 22 16)
  | 6 => s.tmbEnrol
  | _ => s

/-- Heddle's draft load has Tumbler (R169, R483). -/
def State.loadHasTumbler (s : State) : Bool := (s.loadBusy.map (fun d => d.type == 2)).getD false

/-- A write to TMB_CMD: ignored while a command is running (TMB_STATUS.busy); one that arrives during Heddle's draft load waits for its end
(R483, R512). -/
def State.tmbCmd (s : State) (v : Word) : State :=
  if !s.tumblerOn || s.tumblerBusy || !(decide (1 ≤ fld v 3 0) && decide (fld v 3 0 ≤ 6)) then s
  else if s.loadHasTumbler then { s with sec := { s.sec with tmbWaiting := some v } }
  else s.runTmb v

/-- The word of an op, with a key_id. -/
def tmbWord (op keyId : Nat) : Word := BitVec.ofNat 32 (op % 16 + 2 ^ 16 * (keyId % 128))

/-- What a Tick clock brings to an end (log entry 167): an enrolment; the wait of a command, once no draft load is in progress; an install.
The load that waited for Tumbler then starts (R483). -/
def State.tumblerTick (s : State) : State :=
  let s1 := s.finishEnrol
  let s2 := match s1.sec.tmbWaiting with
    | none => s1
    | some v => if s1.loadHasTumbler then s1 else ({ s1 with sec := { s1.sec with tmbWaiting := none } }).runTmb v
  (if s.tumblerBusy then s2.startLoad else s2).finishInstall

/-- TMB_NONCE (R500). -/
def execTmbNonce (s : State) : Host.Outcome State Fault Refusal := .next (s.tmbCmd (tmbWord 1 0))

/-- TMB_TOKEN (R500, R501). -/
def execTmbToken (s : State) : Host.Outcome State Fault Refusal := .next (s.tmbCmd (tmbWord 2 0))

/-- TMB_ATTEST (R509, R511). -/
def execTmbAttest (s : State) : Host.Outcome State Fault Refusal := .next (s.tmbCmd (tmbWord 3 0))

/-- TMB_LOAD_DRAFT_KEY (R496, R493). -/
def execTmbLoadDraftKey (s : State) : Host.Outcome State Fault Refusal := .next (s.tmbCmd (tmbWord 4 0))

/-- TMB_ERASE_DRAFT_KEY (R496, R512). -/
def execTmbEraseDraftKey (keyId : Nat) (s : State) : Host.Outcome State Fault Refusal := .next (s.tmbCmd (tmbWord 5 keyId))

/-- TMB_ENROL (R494). -/
def execTmbEnrol (s : State) : Host.Outcome State Fault Refusal := .next (s.tmbCmd (tmbWord 6 0))

/-! ### The debug level (R502, R505) -/

/-- KPR_DEBUG_WRITE (R502): the level is only lowered; access_err is write-1-to-clear. -/
def execKprDebugWrite (value : Word) (s : State) : Host.Outcome State Fault Refusal :=
  let s1 := if bitW value 2 then s.setReg oDebug (setFld (s.reg oDebug) 2 2 0) else s
  if !s.missionOn then .next s else
  .next (if fld value 1 0 < s.debugLevel then s1.levelTo (fld value 1 0) else s1)

end Machine

end Sys2Proof
end

