-- ==== Sys2Proof/Machine/RegRead.lean ====
section
/-! DEFINITION. What a read of each register returns: the supervisor view (R554 to R563) and the windows of a host function (R330,
R521, R560). -/

namespace Sys2Proof

namespace Machine

/-! ### Helpers -/

/-- A register word from a number. -/
def word (n : Nat) : Word := BitVec.ofNat 32 n

/-- Word i (four bytes) of bytes. -/
def wordAt (bs : List Byte) (i : Nat) : Word := word (leAt bs (4 * i) 4)

/-- A map of the members below n that satisfy a test. -/
def bitMap (n : Nat) (f : Nat → Bool) : Nat := (List.range n).foldl (fun a i => a + (if f i then 2 ^ i else 0)) 0

/-- A kept register, where the offset holds one. -/
def State.kept (s : State) (off : Nat) : Option Word := if (regInfo off).isSome then some (s.reg off) else none

/-! ### KPR (12_module_hardware.md to 15_safety_mechanisms.md, 18_security_identity_debug.md, 21_bringup_walkthrough.md) -/

/-- KPR_MOD_STATUS. -/
def State.modStatus (s : State) : Word :=
  word (b2n s.pins.prsnt1Low + 2 * b2n s.pins.pwrEn + 4 * b2n s.pins.faultN + 8 * b2n s.pins.aliveRun + 16 * b2n s.pwr.thermalTrip
    + 2 ^ 8 * s.supply.vin.toNat + 2 ^ 16 * s.supply.pin.toNat)

/-- KPR_TEMP. -/
def State.tempWord (s : State) : Word :=
  word (s.supply.tempS.toNat + 2 ^ 8 * s.supply.tempA.toNat + 2 ^ 16 * s.supply.tempB.toNat + 2 ^ 24 * s.supply.tempBoard.toNat)

/-- The code of a group in KPR_PWR_STATE. -/
def GState.code (x : GState) : Nat :=
  match x with
  | .at p => p.depth
  | .waking _ => 4
  | .entering _ _ => 5

/-- Isolated domains of a die (R388). -/
def State.isolated (s : State) (d : Weft) : Nat :=
  let base := 4 * (dieNo d - 1)
  let off := fun (u : UnitId) => b2n (s.isDisabled u)
  let links := fun (l : List Nat) => b2n (l.all (fun n => s.isDisabled (.link n)))
  (List.range 4).foldl (fun a i => a + off (.engine (base + i)) + off (.pair (base + i))) 0
    + off (.reed d) + off (.finish d) + links (match d with | .a => [0, 1] | .b => [2, 3]) + links [4, 5, 6, 7]

/-- KPR_PWR_STATE_d. -/
def State.pwrState (s : State) (d : Weft) : Word :=
  let w := s.weft d
  word (w.loom.code + 2 ^ 3 * w.shuttle.code + 2 ^ 6 * w.reedFinish.code + 2 ^ 9 * w.beamGrp.code + 2 ^ 12 * s.isolated d)

/-- KPR_CLK_STATUS. -/
def State.clkStatus (s : State) : Word :=
  word (b2n s.pwr.refLost + 2 * b2n s.clk.creel + 4 * b2n s.clk.fabric + 2 ^ 3 * s.clk.weftA.toNat + 2 ^ 6 * s.clk.weftB.toNat
    + 2 ^ 16 * s.clk.losses.toNat)

/-- KPR_PROOF_STATUS_d. -/
def Checks.proofStatus (c : Checks) : Word := word (c.result.toNat + 2 ^ 8 * c.startOffset.toNat + 2 ^ 24 * c.misses.toNat)

/-- KPR_STEST_STATUS_d: the oldest age counts the targets that have not failed (R440). -/
def Checks.stestStatus (c : Checks) : Word :=
  let ages := (c.ages.zipIdx.filter (fun p => !c.failed.getLsbD p.2)).map (fun p => p.1)
  word (c.failed.toNat + 2 ^ 8 * min 0xFF (ages.foldl max 0) + 2 ^ 16 * (c.lastTarget % 8))

/-- KPR_BOOT: recovery_req and install_result are kept. -/
def State.bootWord (s : State) : Word :=
  (s.reg oBoot &&& 0xD0#32) ||| word (b2n s.pwr.recovery + 2 * (s.pwr.bootCause % 8) + 2 ^ 8 * (s.sec.manifest.rootIndex % 4)
    + 2 ^ 10 * s.sec.revoked.toNat)

/-- KPR_ROLLBACK: a commit is one command, so busy reads 0. -/
def State.rollbackWord (s : State) : Word := word (s.sec.rollbackFused % 128 + 2 ^ 8 * (s.sec.manifest.rollback % 128))

/-- KPR_LIFECYCLE. -/
def State.lifecycleWord (s : State) : Word :=
  word (s.lifecycle + 2 ^ 2 * s.sec.toggles.toNat + (match s.sec.owner with
    | none => 0
    | some o => 2 ^ 7 + 2 ^ 8 * b2n o.sigRequired + 2 ^ 9 * b2n o.fieldOpen))

/-- KPR_START. -/
def State.startWord (s : State) : Word :=
  word (b2n s.pwr.ready + 2 * b2n s.wa.inService + 4 * b2n s.wb.inService + 2 ^ 8 * (s.pwr.stage % 8) + 2 ^ 16 * s.pwr.readyMs.toNat)

/-- KPR_ORDER: the suffix C of the ordering number ZPM-4810-C (R490; log entry 43). -/
def State.orderWord (s : State) : Word :=
  word (b2n s.sec.orderValid + 2 * b2n (s.sec.orderValid && leAt (leBytes 16 s.sec.ordering.toNat) 9 1 == 0x43))

/-- The KPR block below 0x200: identity. -/
def State.readIdent (s : State) (off : Nat) : Option Word :=
  match off with
  | 0x00 => some (word (Config.vendorId.toNat + 2 ^ 16 * deviceId (.fn { port := .hostA, num := 0 })))
  | 0x04 => some s.sec.manifest.fwVersion
  | 0x08 => some s.orderWord
  | 0x10 => some (word s.sec.dieIdS.toNat)
  | 0x14 => some (word (s.sec.dieIdS.toNat / 2 ^ 32))
  | 0x18 => some (word s.sec.dieIdA.toNat)
  | 0x1C => some (word (s.sec.dieIdA.toNat / 2 ^ 32))
  | 0x20 => some (word s.sec.dieIdB.toNat)
  | 0x24 => some (word (s.sec.dieIdB.toNat / 2 ^ 32))
  | _ =>
    match idxIn off 0x40 4 8, idxIn off 0x60 4 4 with
    | some i, _ => some (wordAt (leBytes 32 s.sec.idPk.toNat) i)
    | none, some i => some (wordAt (leBytes 16 s.sec.serial.toNat) i)
    | none, none => none

/-- The KPR block from 0x200 on. -/
def State.readKpr (s : State) (off : Nat) : Option Word :=
  match off with
  | 0x200 => some ((s.reg oTimeCtl &&& 0xF#32) ||| word (2 ^ 8 * s.time.lock.toNat))
  | 0x204 => some s.time.offset
  | 0x240 => some s.modStatus
  | 0x244 => some s.tempWord
  | 0x304 => some (s.pwrState .a)
  | 0x308 => some (s.pwrState .b)
  | 0x310 => some s.clkStatus
  | 0x414 => some s.wa.checks.proofStatus
  | 0x418 => some s.wb.checks.proofStatus
  | 0x41C => some s.wa.checks.stestStatus
  | 0x420 => some s.wb.checks.stestStatus
  | 0x500 => some s.bootWord
  | 0x504 => some s.rollbackWord
  | 0x508 => some s.lifecycleWord
  | 0x518 => some 0
  | 0x520 => some s.startWord
  | _ => s.kept off

/-! ### HSP, WRD, TMB (15_safety_mechanisms.md, 17_faults_hangs_resets.md, 18_security_identity_debug.md) -/

/-- A capture of a source as its eight words (R460). -/
def Capture.word (c : Capture) (n i : Nat) : Word :=
  match i with
  | 0 => Machine.word (n + 2 ^ 10 * b2n c.ctx.isSome + 2 ^ 11 * (c.ctx.getD 0 % 4096) + 2 ^ 24 * c.master.toNat)
  | 1 => Machine.word (c.access % 16)
  | 2 => Machine.word c.address.toNat
  | 3 => Machine.word (c.address.toNat / 2 ^ 32)
  | 4 => Machine.word c.time.toNat
  | 5 => Machine.word (c.time.toNat / 2 ^ 32)
  | 6 => c.detail
  | _ => c.count

/-- The last HSP_ACTION is in progress (HSP_ACTION.busy). -/
def State.actionBusy (s : State) : Bool :=
  match s.ladder.action with
  | .none => false
  | .kill c => s.ladder.kills.any (fun k => k.1 == c)
  | .unit u => (s.unitPhase u).isSome
  | .die d => s.dieInReset d
  | .module => s.ladder.module

/-- HSP_DISABLED. -/
def State.disabledWord (s : State) : Word := word s.disabled.word

/-- The HSP block. -/
def State.readHsp (s : State) (off : Nat) : Option Word :=
  match idxIn off 0x40C00 4 24, idxIn off 0x40C80 4 24, idxIn off 0x41000 4 6144, idxIn off 0x48000 4 512 with
  | some i, _, _, _ => some (word (bitMap 32 (fun j => s.hasp.raised.contains (32 * i + j))))
  | none, some i, _, _ => some (word (bitMap 32 (fun j => (lookupN s.hasp.grace (32 * i + j)).isSome)))
  | none, none, some i, _ => some (match lookupN s.hasp.caps (i / 8) with
      | some c => c.word (i / 8) (i % 8)
      | none => 0)
  | none, none, none, some i => some (match lookupN s.hasp.log (i / 8) with
      | some e => e.2.word e.1 (i % 8)
      | none => 0)
  | none, none, none, none =>
    if off = 0x40D30 then some (word (2 ^ 31 * b2n s.actionBusy))
    else if off = 0x40D40 then some s.disabledWord
    else s.kept off

/-- TMB_STATUS (R483; log entry 6). -/
def State.tmbStatus (s : State) : Word := word (b2n s.tumblerBusy + 2 ^ 8 * s.sec.tmbResult.toNat + 2 ^ 16 * (s.sec.draftKeys.length % 128))

/-- The WRD and TMB blocks. -/
def State.readWrdTmb (s : State) (off : Nat) : Option Word :=
  if off = 0x80004 then some (word (s.ward.agree.toNat + 2 ^ 16 * s.ward.disagree.toNat))
  else if off = 0xC0000 then some 0
  else if off = 0xC0004 then some s.tmbStatus
  else
    match idxIn off 0xC8000 4 8192 with
    | some i => some (word (s.sec.mailbox.readLe (4 * i) 4))
    | none => s.kept off

/-! ### HDL and CRL (03, 05, 07, 10, 11) -/

/-- HDL_PORT_STATUS_x. -/
def PortSt.status (p : PortSt) : Word :=
  word (b2n p.up + 2 * (if p.up then p.width % 16 else 0) + 2 ^ 5 * (if p.up then p.speed % 8 else 0) + 2 ^ 8 * b2n p.degraded
    + 2 ^ 16 * p.downCount.toNat + 2 ^ 24 * p.recoveryCount.toNat)

/-- HDL_DRAFT_VERSIONS: versions 5 to 7, current 7. -/
def draftVersions : Word := 0x000700E0#32

/-- The HDL block. -/
def State.readHdl (s : State) (off : Nat) : Option Word :=
  match off with
  | 0x100400 => some (s.reg oGatherCtl ||| word (2 ^ 16 * b2n s.det))
  | 0x100500 => some draftVersions
  | 0x100800 => some s.portA.status
  | 0x100804 => some s.portB.status
  | 0x100808 => some { s.portS with degraded := false }.status
  | _ => s.kept off

/-- The CRL block: CRL_SLOT_CNT, and the kept registers. -/
def State.readCrl (s : State) (off : Nat) : Option Word :=
  if 0x200100 ≤ off ∧ off < 0x200500 ∧ off % 4 = 0 then
    let x := s.slot ((off - 0x200100) / 0x20)
    match (off - 0x200100) % 0x20 with
    | 0x08 => some x.good
    | 0x0C => some x.substituted
    | 0x10 => some x.corrupt
    | 0x14 => some x.late
    | 0x18 => some x.dropped
    | _ => s.kept off
  else s.kept off

/-! ### The Weft die blocks (R557, R561, R562) -/

/-- WF_STATE. -/
def State.wfState (s : State) (d : Weft) : Word :=
  let base := 4 * (dieNo d - 1)
  let w := s.weft d
  word (b2n w.inService + 2 * bitMap 4 (fun i => s.engineOn (base + i)) + 2 ^ 5 * bitMap 4 (fun i => s.pairOn (base + i))
    + 2 ^ 9 * b2n (!s.isDisabled (.reed d)) + 2 ^ 10 * b2n (!s.isDisabled (.finish d)) + 2 ^ 11 * b2n (d == .b && s.mode == 0))

/-- WF_CB_WINDOW: the codebook record, the residues of its codes, zeros (R562). -/
def Codebook.window (c : Codebook) : List Byte :=
  c.bytes ++ (List.range 16).flatMap (fun i => leBytes 1 (cbResidue c i)) ++ List.replicate 12 0

/-- The WFA and WFB blocks, by the offset in the block. -/
def State.readWf (s : State) (d : Weft) (o : Nat) : Option Word :=
  let w := s.weft d
  match o with
  | 0x00 => some (s.wfState d)
  | 0x10 => some (word (bitMap 32 (fun i => (codebookAt w.codebooks i).isSome)))
  | 0x14 => some (word (bitMap 32 (fun i => (codebookAt w.codebooks (32 + i)).isSome)))
  | 0x18 => some (word (bitMap 16 (fun i => (lookupN w.curves i).isSome)))
  | 0x20 => some (word (w.scrubLine.toNat + 2 ^ 16 * w.scrubPasses.toNat))
  | _ =>
    match idxIn o 0x1000 4 1024, idxIn o 0x2000 4 1024 with
    | some i, _ => some (match codebookAt w.codebooks (i / 16) with
        | some c => wordAt c.window (i % 16)
        | none => 0)
    | none, some i => some (match lookupN w.curves (i / 64) with
        | some c => wordAt c.bytes (i % 64)
        | none => 0)
    | none, none => none

/-! ### Counters and watch slots (R521, R522, R524) -/

/-- Bits [63:32] of a counter register: the high value bits, and the sticky overflow bit. -/
def ctrHi (v : BitVec 48) (ovf : Bool) : Word := word (v.toNat / 2 ^ 32 + 2 ^ 16 * b2n ovf)

/-- The watch record of a slot, as its 128 bytes (R524). -/
def Watch.bytes (w : Watch) : List Byte :=
  leBytes 4 w.seq.toNat ++ leBytes 1 w.minCode ++ leBytes 1 w.maxCode ++ leBytes 2 0 ++ leBytes 8 w.step.toNat ++ leBytes 4 w.digest
    ++ leBytes 4 w.satCount ++ leBytes 4 w.zeroCount ++ leBytes 4 w.zeroRows ++ (List.range 16).flatMap (fun c => leBytes 4 (w.hist.getD c 0))
    ++ List.replicate 32 0

/-- The counter block of a die, by the offset in it. -/
def State.readCtr (s : State) (d o : Nat) : Option Word :=
  if o < 0x400 then
    let i := o / 0x20
    let v := ctrGet s.ctr.prog (32 * d + i)
    match o % 0x20 with
    | 0x18 => some (word v.toNat)
    | 0x1C => some (ctrHi v ((s.reg (oCtrOvf d)).getLsbD i))
    | _ => s.kept (0x500000 + 0x4000 * d + o)
  else
    match idxIn o 0x800 4 32 with
    | some i =>
      let v := ctrGet s.ctr.aon (16 * d + i / 2)
      some (if i % 2 = 0 then word v.toNat else ctrHi v ((s.reg (oCtrOvfAon d)).getLsbD (i / 2)))
    | none => s.kept (0x500000 + 0x4000 * d + o)

/-- A word of a partition counter (R520). -/
def State.readPart (s : State) (p i : Nat) : Word :=
  let v := ctrGet s.ctr.part (8 * p + i / 2)
  if i % 2 = 0 then word v.toNat else ctrHi v false

/-- The CTR block past the counters of the dies. -/
def State.readCtrTail (s : State) (off : Nat) : Option Word :=
  match idxIn off 0x50C000 4 16, idxIn off 0x50C040 4 16, idxIn off 0x50E000 4 512 with
  | some i, _, _ => some (s.readPart 0 i)
  | none, some i, _ => some (s.readPart 1 i)
  | none, none, some i => some (wordAt (s.watch (i / 32)).bytes (i % 32))
  | none, none, none => s.kept off

/-! ### WRP and GDR (08_beam_memory.md) -/

/-- Retries of a link in the last complete window of 1 ms. -/
def State.linkRetries (s : State) (l : Link) : Nat :=
  min 0xFFFF (l.recent.filter (fun t => t.toNat / 1000000 + 1 == s.time.now.toNat / 1000000)).length

/-- WRP_LINK_STATUS_l. -/
def State.linkStatus (s : State) (l : Link) : Word :=
  word (l.state.toNat + 4 * b2n l.degraded + 8 * l.modulesUp.toNat + 2 ^ 16 * s.linkRetries l)

/-- The WRP block. -/
def State.readWrp (s : State) (off : Nat) : Option Word :=
  match idxIn off 0x600000 0x40 8 with
  | some i => (s.links[i]?).map s.linkStatus
  | none => s.kept off

/-- GDR_CHAN_STATUS_n. -/
def Chan.status (c : Chan) : Word := word (c.train.toNat + 2 ^ 8 * c.edc.toNat + 2 ^ 16 * c.corrected.toNat)

/-- The GDR block: channels 0 to 11 of Weft A, then of Weft B. -/
def State.readGdr (s : State) (off : Nat) : Option Word :=
  match idxIn off 0x700000 4 24 with
  | some i => ((s.weft (if i < 12 then .a else .b)).chans[i % 12]?).map Chan.status
  | none => none

/-! ### The supervisor view -/

/-- The Weft die that a register of the supervisor view belongs to (R557). -/
def regDie (off : Nat) : Option Weft :=
  if 0x300000 ≤ off ∧ off < 0x400000 then some .a
  else if 0x400000 ≤ off ∧ off < 0x500000 then some .b
  else if 0x500000 ≤ off ∧ off < 0x50C000 then dieOf (ctrDie off)
  else if 0x700000 ≤ off ∧ off < 0x700030 then some .a
  else if 0x700030 ≤ off ∧ off < 0x700060 then some .b
  else none

/-- A register of the supervisor view by its block (R554, R559). -/
def State.readBlock (s : State) (off : Nat) : Option Word :=
  if off < 0x200 then s.readIdent off
  else if off < 0x40000 then s.readKpr off
  else if off < 0x80000 then s.readHsp off
  else if off < 0x100000 then s.readWrdTmb off
  else if off < 0x200000 then s.readHdl off
  else if off < 0x300000 then s.readCrl off
  else if off < 0x400000 then s.readWf .a (off - 0x300000)
  else if off < 0x500000 then s.readWf .b (off - 0x400000)
  else if off < 0x50C000 then s.readCtr (ctrDie off) ((off - 0x500000) % 0x4000)
  else if off < 0x600000 then s.readCtrTail off
  else if off < 0x700000 then s.readWrp off
  else s.readGdr off

/-- What a read of the supervisor view returns; none where the register index assigns no register.  A die in die reset answers 0 to
every offset of its own (R557, R569). -/
def State.readSup (s : State) (off : Nat) : Option Word :=
  match regDie off with
  | some d => if s.dieHeld d then some 0 else s.readBlock off
  | none => s.readBlock off

/-! ### The windows of a host function (R330, R521, R560) -/

/-- HDL_FN_HOSTS. -/
def State.hostsWord (s : State) : Word := word (b2n s.portA.up + 2 * b2n s.portB.up + 4 * b2n s.portS.up)

/-- HDL_FN_ENTRY_MASK_i of a partition. -/
def State.entryMask (s : State) (p i : Nat) : Word :=
  word (bitMap 32 (fun j => s.heldEntries.any (fun e => e.partition == p && e.index == 32 * i + j)))

/-- HDL_FN_CTX_RESULT: busy while a context of the function closes (R302). -/
def State.ctxResult (s : State) (f : FnId) : Word :=
  s.fnReg f 0x14 ||| word (2 ^ 31 * b2n (s.ctxs.any (fun c => decide (c.fn = f) && c.closing)))

/-- The function register window, by the offset in it; 0 where it holds no register. -/
def State.readFnWin (s : State) (f : FnId) (o : Nat) : Word :=
  match o with
  | 0x14 => s.ctxResult f
  | 0x1C => 0x000C#32
  | 0x20 => draftVersions
  | 0x88 => s.hostsWord
  | _ =>
    match idxIn o 0x90 4 8 with
    | some i => s.entryMask (portPart f.port) i
    | none => if fnKept o then s.fnReg f o else 0

/-- The function owns a context that is open with counter_grant = 1. -/
def Ctx.grantsTo (c : Ctx) (f : FnId) : Bool := decide (c.fn = f) && !c.closing && c.counterGrant

/-- A context number names such a context. -/
def State.grantsId (s : State) (f : FnId) (id : Nat) : Bool := s.ctxs.any (fun c => c.id == id && c.grantsTo f)

/-- A function may read an offset of its counter read window (R521); a counter on a die in reset answers 0 (R522). -/
def State.ctrWinOpen (s : State) (f : FnId) (o : Nat) : Bool :=
  match idxIn o 0 4 192, idxIn o 0x400 4 16, idxIn o 0x800 4 512 with
  | some i, _, _ =>
    let m := s.reg (oCtrMaster (i / 64) (i / 2 % 32))
    bitW m 28 && s.grantsId f (fld m 27 16) && !((dieOf (i / 64)).map s.dieHeld).getD false
  | none, some _, _ => s.ctxs.any (fun c => c.grantsTo f)
  | none, none, some i => s.grantsId f (fld (s.reg (oWatchCfg (i / 32))) 11 0)
  | none, none, none => false

/-- The counter read window of a function, by the offset in it; 0 where R521 does not let the function read. -/
def State.readCtrWin (s : State) (f : FnId) (o : Nat) : Word :=
  if !s.ctrWinOpen f o then 0
  else
    match idxIn o 0 4 192, idxIn o 0x400 4 16, idxIn o 0x800 4 512 with
    | some i, _, _ =>
      let v := ctrGet s.ctr.prog (i / 2)
      if i % 2 = 0 then word v.toNat else ctrHi v ((s.reg (oCtrOvf (i / 64))).getLsbD (i / 2 % 32))
    | none, some i, _ => s.readPart (portPart f.port) i
    | none, none, some i => wordAt (s.watch (i / 32)).bytes (i % 32)
    | none, none, none => 0

/-- A word of an MSI-X table: three words that the host wrote, and the vector control, whose bit 0 masks. -/
def State.msixWord (s : State) (f : IrqFn) (i : Nat) : Word :=
  if i % 4 = 3 then word (b2n (!s.msix.unmasked.contains { fn := f, vector := i / 4 })) else (lookupN s.msix.table (msixKey f i)).getD 0

/-- A word of a pending bit array. -/
def State.pbaWord (s : State) (f : IrqFn) (i : Nat) : Word :=
  word (bitMap 32 (fun j => s.msix.pending.contains { fn := f, vector := 32 * i + j }))

/-- What a read of BAR0 of a host function returns (R330, R331): 0 for doorbell pages (R308) and for reserved offsets. -/
def State.readFn (s : State) (f : FnId) (off : Nat) : Word :=
  if off < 0x1000000 then 0
  else if off < 0x1001000 then s.readFnWin f (off - 0x1000000)
  else if off < 0x1002000 then s.readCtrWin f (off - 0x1001000)
  else
    match idxIn off 0x1010000 4 8192, idxIn off 0x1018000 4 64 with
    | some i, _ => s.msixWord (.fn f) i
    | none, some i => s.pbaWord (.fn f) i
    | none, none => 0

/-- What a read of BAR2 of the supervisor function returns (R332). -/
def State.readSupMsix (s : State) (off : Nat) : Word :=
  match idxIn off 0 4 32 with
  | some i => s.msixWord .sup i
  | none => if off = 0x8000 then s.pbaWord .sup 0 else 0

/-- What a read of BAR4 returns: the staged image in Recovery, else 0 (R332, R487). -/
def State.readStaging (s : State) (off : Nat) : Word :=
  if s.pwr.recovery ∧ off < 0x1000000 then word (s.wa.beam.readLe off 4) else 0

end Machine

end Sys2Proof
end

