-- ==== Sys2Proof/Machine/RegAccess.lean ====
section
/-! DEFINITION. Register accesses: reads with their latch, bad accesses, writes, and the debug window (R11 to R13, R330 to R333, R499,
R505, R555 to R558). -/

namespace Sys2Proof

namespace Machine

/-! ### Debug accesses to memory (R244, R499, R505) -/

/-- The word a read leaves on the bus. -/
def State.answer (s : State) (v : Word) : State := { s with bus := { s.bus with data := v } }

/-- A debug access meets a group that is not in Run (R505). -/
def State.accessErr (s : State) : State := s.setReg oDebug (setFld (s.reg oDebug) 2 2 1)

/-- Usable bytes of a level of a die that a debug access reaches (R244); 0 for the others. -/
def levelBytes (l : Level) : Nat :=
  match l with
  | .beam => 0x4000000
  | .gddr => 0x2D0000000
  | .host => 0
  | .intake => 0

/-- What a debug address names: die, level and the offset of an aligned word (KPR_DBG_ADDR). -/
def dbgPlace (a : Nat) : Option (Weft × Level × Nat) :=
  let o := a % 2 ^ 36 / 4 * 4
  match dieOf (a / 2 ^ 62 % 4) with
  | none => none
  | some d =>
    if o < levelBytes .beam then some (d, .beam, o)
    else if 0x400000000 ≤ o ∧ o < 0x400000000 + levelBytes .gddr then some (d, .gddr, o - 0x400000000)
    else none

/-- A debug access of four bytes counts as an event of the supervisor, in the control class (R262, R270, R515, R518). -/
def State.dbgCount (s : State) (d : Weft) (l : Level) (write : Bool) (o : Nat) : State :=
  let e := { Ev.plain (dieNo d) 0 none 4 with master := some 1, cls := some 2, priv := some 1 }
  (if l = .gddr then s.gddrBytes d write o 4 e else s.beamBytes d write o 4 e).wordTo d write e

/-- The bytes of a level of a die. -/
def WeftDie.level (w : WeftDie) (l : Level) : Memory := if l = .gddr then w.gddr else w.beam

/-- A debug read of an aligned word (R505), under the checks of its level (R248, R251); lost data is not delivered (R265; log entry 164). -/
def State.dbgLoad (s : State) (d : Weft) (l : Level) (o : Nat) (chk : ReadChecks) : State :=
  if (s.weft d).beamGrp = .at .run then
    ((s.dbgCount d l false o).readChecks chk none).answer
      (if chk.hit.isSome then 0xFFFFFFFF#32 else word (((s.weft d).level l).readLe o 4))
  else s.accessErr.answer 0xFFFFFFFF#32

/-- A debug write of an aligned word (R505). -/
def State.dbgStore (s : State) (d : Weft) (l : Level) (o : Nat) (v : Word) : State :=
  if (s.weft d).beamGrp = .at .run then
    (s.dbgCount d l true o).modWeft d (fun w =>
      if l = .gddr then { w with gddr := w.gddr.writeBytes o (leBytes 4 v.toNat) }
      else { w with beam := w.beam.writeBytes o (leBytes 4 v.toNat) })
  else s.accessErr

/-- The address in KPR_DBG_ADDR. -/
def State.dbgAddr (s : State) : Nat := (s.reg oDbgLo).toNat + 2 ^ 32 * (s.reg oDbgHi).toNat

/-- KPR_DBG_DATA_READ (R499, R505): below Open a read returns 0; an address outside the levels stops. -/
def execKprDbgDataRead (chk : ReadChecks) (s : State) : Host.Outcome State Fault Refusal :=
  if !s.missionOn then .next s
  else if s.debugLevel ≠ 2 then .next (s.answer 0)
  else
    match dbgPlace s.dbgAddr with
    | some p => .next (s.dbgLoad p.1 p.2.1 p.2.2 chk)
    | none => .fault .debugOutsideLevel

/-- KPR_DBG_DATA_WRITE (R499, R505): below Open a write is discarded. -/
def execKprDbgDataWrite (value : Word) (s : State) : Host.Outcome State Fault Refusal :=
  if !s.missionOn ∨ s.debugLevel ≠ 2 then .next s
  else
    match dbgPlace s.dbgAddr with
    | some p => .next (s.dbgStore p.1 p.2.1 p.2.2 value)
    | none => .fault .debugOutsideLevel

/-! ### Reads (R11, R555) -/

/-- The master of an access through a view; the JTAG header has no master ID (R16). -/
def viewMaster (v : View) : Byte :=
  match v with
  | .sup => 0x01
  | .keeper => 0x00
  | .supMsix => 0x01
  | .supStaging => 0x01
  | .fn f => fnMaster f

/-- The key of an offset of a view among the latched words. -/
def viewKey (v : View) (off : Nat) : Nat :=
  match v with
  | .sup => off
  | .keeper => 2 ^ 27 + off
  | .supMsix => 2 ^ 28 + off
  | .supStaging => 2 ^ 29 + off
  | .fn f => 2 ^ 30 + 2 ^ 25 * fnIdx f + off

/-- An access goes through now: the mission rails are up, and a host function's exists (R328, R395). -/
def State.viewLive (s : State) (v : View) : Bool :=
  match v with
  | .sup => s.missionOn
  | .keeper => s.missionOn
  | .supMsix => s.missionOn
  | .supStaging => s.missionOn
  | .fn f => s.missionOn && s.fnLive f

/-- What an offset holds now; none for an offset of the supervisor view that the register index does not assign. -/
def State.valueAt (s : State) (v : View) (off : Nat) : Option Word :=
  match v with
  | .sup => s.readSup off
  | .keeper => s.readSup off
  | .supMsix => some (s.readSupMsix off)
  | .supStaging => some (s.readStaging off)
  | .fn f => some (s.readFn f off)

/-- Words 2 and 4 of a capture start its 64-bit fields (R460). -/
def capLow (i : Nat) : Bool := i % 8 == 2 || i % 8 == 4

/-- An offset of the supervisor view is the low word of a 64-bit register (R11). -/
def supLow (off : Nat) : Bool :=
  [0x10, 0x18, 0x20, 0x230, 0x510, 0x300010, 0x400010].contains off
    || (match idxIn off 0x41000 4 6144, idxIn off 0x48000 4 512, idxIn off 0x50E000 4 512 with
      | some i, _, _ => capLow i
      | none, some i, _ => capLow i
      | none, none, some i => i % 32 == 2
      | none, none, none => false)
    || (decide (0x500000 ≤ off) && decide (off < 0x50C000) && (let o := (off - 0x500000) % 0x4000
        if o < 0x400 then [0x08, 0x10, 0x18].contains (o % 0x20) else decide (0x800 ≤ o) && decide (o < 0x880) && o % 8 == 0))
    || (decide (0x50C000 ≤ off) && decide (off < 0x50C080) && off % 8 == 0)

/-- An offset of BAR0 of a host function is the low word of a 64-bit register. -/
def fnLow (off : Nat) : Bool :=
  let o := off - 0x1001000
  off == 0x1000008 || off == 0x1000044
    || (decide (0x1001000 ≤ off) && ((decide (o < 0x300) && o % 8 == 0) || (decide (0x400 ≤ o) && decide (o < 0x440) && o % 8 == 0)
      || (decide (0x800 ≤ o) && decide (o < 0x1000) && o % 0x80 == 8)))

/-- An offset of a view is the low word of a 64-bit register (R11). -/
def isLow (v : View) (off : Nat) : Bool :=
  match v with
  | .sup => supLow off
  | .keeper => supLow off
  | .supMsix => false
  | .supStaging => false
  | .fn _ => fnLow off

/-- The bad register access source (R12, R461, R555). -/
def State.badAccess (s : State) (v : View) (off : Nat) : State := s.raise 0x000 (cap none (viewMaster v) 8 (BitVec.ofNat 64 off) 4)

/-- A latched high word may still be read: its counter's window is open to the function, and its die is not in reset (R521, R522, R527). -/
def State.latchOpen (s : State) (v : View) (off : Nat) : Bool :=
  match v with
  | .sup => !((regDie off).map s.dieHeld).getD false
  | .keeper => !((regDie off).map s.dieHeld).getD false
  | .supMsix => true
  | .supStaging => true
  | .fn f => !(decide (0x1001000 ≤ off) && decide (off < 0x1002000)) || s.ctrWinOpen f (off - 0x1001000)

/-- The Weft die whose register an access of a view reaches over the links; none for Selvedge's, and for one that Keeper answers for a die in
reset or whose control group is in Cool or Rest (R557, R270). -/
def State.regReaches (s : State) (v : View) (off : Nat) : Option Weft :=
  let d := match v with
    | .sup => regDie off
    | .keeper => regDie off
    | .supMsix => none
    | .supStaging => none
    | .fn f => if 0x1001000 ≤ off ∧ off < 0x1001300 ∧ s.ctrWinOpen f (off - 0x1001000) then dieOf ((off - 0x1001000) / 0x100) else none
  match d with
  | some x => if s.dieHeld x || s.controlAsleep x then none else some x
  | none => none

/-- Four bytes of register traffic to or from a Weft die: control class (R262, R270). -/
def State.regTraffic (s : State) (v : View) (off : Nat) (write : Bool) : State :=
  match s.regReaches v off with
  | some d => s.controlWord d write (viewMaster v).toNat
  | none => s

/-- A read of an aligned word.  A low word latches the high word; the next read of the high word returns what is latched, 0 where the function
may read it no more (R11, R521).  An
unassigned offset of the supervisor view reads 0, and its source is raised (R555). -/
def State.regRead (s : State) (v : View) (off : Nat) : State :=
  match lookupN s.bus.hiLatch (viewKey v off) with
  | some w => { s with bus := { s.bus with hiLatch := eraseN s.bus.hiLatch (viewKey v off), data := if s.latchOpen v off then w else 0 } }
  | none =>
    match s.valueAt v off with
    | none => (s.answer 0).badAccess v off
    | some w =>
      let u := s.regTraffic v off false
      if isLow v off then
        { u with bus := { u.bus with hiLatch := insertN u.bus.hiLatch (viewKey v (off + 4)) ((s.valueAt v (off + 4)).getD 0), data := w } }
      else u.answer w

/-! ### Bad accesses (R12, R331, R555) -/

/-- An offset of BAR0 of a host function that holds something other than an MSI-X table (R330, R331). -/
def fnAssigned (off : Nat) : Bool :=
  let o := off / 4 * 4
  let r := o - 0x1000000
  let c := o - 0x1001000
  if o < 0x1000000 then o % 0x1000 == 0
  else if o < 0x1001000 then fnKept r || [0x1C, 0x20, 0x88].contains r || (idxIn r 0x90 4 8).isSome
  else if o < 0x1002000 then decide (c < 0x300) || (decide (0x400 ≤ c) && decide (c < 0x440)) || decide (0x800 ≤ c)
  else false

/-- An access of a width and alignment that R12 turns away. -/
def badShape (off width : Nat) : Bool := width != 4 || off % 4 != 0

/-- The answer to a read that is turned away. -/
def State.reply (s : State) (kind : BadAccess) (w : Word) : State := if kind = .read then s.answer w else s

/-- A bad access to the supervisor view. -/
def State.badSup (s : State) (v : View) (kind : BadAccess) (off width : Nat) : State :=
  if ((regDie off).map s.dieHeld).getD false then s.reply kind 0
  else if badShape off width then (s.reply kind 0xFFFFFFFF#32).badAccess v off
  else if (s.readSup off).isNone then (s.reply kind 0).badAccess v off
  else s

/-- BAD_REGISTER_ACCESS (R12, R331, R555, R557): a wrong width or alignment reads 0xFFFFFFFF, an unassigned offset 0; a write is
discarded.  The source is raised with the master ID, but for the reserved offsets of a host's windows and of BAR2, and for a die in die
reset.  An MSI-X table takes other widths as PCIe requires. -/
def execBadRegisterAccess (v : View) (kind : BadAccess) (off width : Nat) (s : State) : Host.Outcome State Fault Refusal :=
  .next (if !s.viewLive v then s
    else
      match v with
      | .sup => s.badSup v kind off width
      | .keeper => s.badSup v kind off width
      | .fn _ =>
        if fnAssigned off && badShape off width then (s.reply kind 0xFFFFFFFF#32).badAccess v off
        else if !fnAssigned off && !(decide (0x1010000 ≤ off) && decide (off < 0x1018100)) then s.reply kind 0
        else s
      | .supMsix => if off < 0x80 ∨ (0x8000 ≤ off ∧ off < 0x8008) then s else s.reply kind 0
      | .supStaging => if badShape off width then (s.reply kind 0xFFFFFFFF#32).badAccess v off else s)

/-- REGISTER_LOW_WORD_READ (R11): a read of an aligned word of a view, the low word of a 64-bit register among them. -/
def execRegisterLowWordRead (v : View) (off : Nat) (s : State) : Host.Outcome State Fault Refusal :=
  if (v = .sup ∨ v = .keeper) ∧ off = 0x518 then execKprDbgDataRead { fixed := [], hit := none } s
  else if !s.viewLive v ∨ off % 4 ≠ 0 then .next s
  else .next (s.regRead v off)

/-! ### Writes of the supervisor view to registers without a row of their own (R13, R556) -/

/-- KPR_TIME_CTL: another source, or for IEEE 802.1AS another Ethernet port, starts to be acquired (R339). -/
def State.timeCtlTo (s : State) (v : Word) : State :=
  let old := s.reg oTimeCtl
  let s1 := s.setReg oTimeCtl (v &&& 0xF#32)
  if fld v 1 0 = fld old 1 0 ∧ (fld v 1 0 ≠ 1 ∨ fld v 3 2 = fld old 3 2) then s1
  else { s1 with time := { s1.time with lock := if fld v 1 0 = 0 then 0 else 1, good := 0, slew := 0, failed := false } }

/-- KPR_SYNC_CTL: SYNC_OUT is low while it is not enabled (R369). -/
def State.syncCtlTo (s : State) (v : Word) : State :=
  let s1 := s.setReg oSyncCtl (v &&& 0x7#32)
  if bitW v 0 then s1 else { s1 with pins := { s1.pins with syncOut := false } }

/-- KPR_BOOT: recovery_req, and an install, whose programming succeeds or fails as nothing here tells (R488; log entry 9). -/
def State.bootTo (s : State) (v : Word) : State :=
  let s1 := s.setReg oBoot (setFld (s.reg oBoot) 4 4 (fld v 4 4))
  if bitW v 5 then ({ s1 with freshCtr := s.freshCtr + 1 }).install ((Config.freeByte s.freshCtr).getLsbD 0) else s1

/-- KPR registers of settings. -/
def State.kprStore (s : State) (off : Nat) (v : Word) : State :=
  match off with
  | 0x200 => s.timeCtlTo v
  | 0x220 => s.syncCtlTo v
  | 0x224 => s.setReg oSyncPeriod v
  | 0x228 => s.setReg oSyncPhase (v &&& 0xFFFFF#32)
  | 0x22C => s.setReg oSyncStatus (s.reg oSyncStatus &&& ~~~v)
  | 0x300 => s.setReg oPwrIdle v
  | 0x500 => s.bootTo v
  | 0x510 => s.setReg oDbgLo v
  | 0x514 => s.setReg oDbgHi v
  | _ => s

/-- HSP_SRC_CFG, WRD_CTL and the mailbox. -/
def State.hspStore (s : State) (off : Nat) (v : Word) : State :=
  if (idxIn off 0x40000 4 768).isSome then s.setReg off (v &&& 0xFFFF7FFF#32)
  else if off = oWrdCtl then s.setReg off (v &&& 0xFFFF#32)
  else
    match idxIn off 0xC8000 4 8192 with
    | some i => s.putMail (4 * i) (leBytes 4 v.toNat)
    | none => s

/-- HDL_GATHER_MEM: ignored while its group is enabled (R564; log entry 44). -/
def State.hdlStore (s : State) (off : Nat) (v : Word) : State :=
  if 0x100900 ≤ off ∧ off < 0x101100 ∧ 0x10 ≤ (off - 0x100900) % 0x80 ∧ (off - 0x100900) % 0x80 < 0x50 then
    (if bitW (s.reg (oGrp ((off - 0x100900) / 0x80))) 22 then s else s.setReg off (v &&& 0x0FFFFFFF#32))
  else s

/-- CRL_PORT_CTL, CRL_SLOT_SEL and the bases of a batch; the last two keep their values while the slot or the batch index is enabled (log
entry 44). -/
def State.crlStore (s : State) (off : Nat) (v : Word) : State :=
  match idxIn off 0x200000 4 28, idxIn off 0x200104 0x20 32, idxIn off 0x200504 0x10 32, idxIn off 0x200508 0x10 32 with
  | some _, _, _, _ => s.setReg off (v &&& 0x3#32)
  | none, some k, _, _ => if s.slotOn k then s else s.setReg off v
  | none, none, some b, _ => if s.batchOn b then s else s.setReg off v
  | none, none, none, some b => if s.batchOn b then s else s.setReg off v
  | none, none, none, none => s

/-- Counter registers, the watched tensor, and the degraded bit of a link. -/
def State.ctrWrpStore (s : State) (off : Nat) (v : Word) : State :=
  if 0x500000 ≤ off ∧ off < 0x50C000 then s.ctrAccess (ctrDie off) ((off - 0x500000) % 0x4000) v
  else
    match idxIn off 0x50D004 0x10 16, idxIn off 0x600000 0x40 8 with
    | some _, _ => s.setReg off (v &&& 0xFFFF#32)
    | none, some i => if bitW v 2 then { s with links := modAt s.links i (fun (l : Link) => { l with degraded := false }) } else s
    | none, none => s

/-- A write to a register of the supervisor view without a row of its own: RW fields take the value, write-1-to-clear bits clear, and
read-only registers ignore it (R13). -/
def State.supStore (s : State) (off : Nat) (v : Word) : State :=
  if off < 0x40000 then s.kprStore off v
  else if off < 0x100000 then s.hspStore off v
  else if off < 0x200000 then s.hdlStore off v
  else if off < 0x300000 then s.crlStore off v
  else if off < 0x500000 then s
  else s.ctrWrpStore off v

/-! ### Writes that a row of the table describes -/

/-- HSP_ACTION by its op and target. -/
def hspAction (v : Word) (s : State) : Host.Outcome State Fault Refusal :=
  let target := fld v 19 8
  match fld v 2 0 with
  | 1 => execHspActionKill target s
  | 2 => (match codeUnit target with
    | some u => execHspActionUnitReset u s
    | none => .next s)
  | 3 => (match dieOf target with
    | some d => execHspActionDieReset d s
    | none => .next s)
  | 4 => execHspActionModuleReset s
  | _ => .next s

/-- A write to KPR, HSP or TMB that a row describes; none where no row does. -/
def ownRowLow (off : Nat) (v : Word) (s : State) : Option (Host.Outcome State Fault Refusal) :=
  match off with
  | 0x400 => some (execKprSafetyWrite v s)
  | 0x404 => some (execKprFrameWrite v s)
  | 0x408 => some (execKprFramePhaseWrite v s)
  | 0x40C => some (execKprProofWrite v s)
  | 0x410 => some (execKprStestWrite v s)
  | 0x504 => some (if bitW v 31 then execKprRollbackCommit s else .next s)
  | 0x50C => some (execKprDebugWrite v s)
  | 0x518 => some (execKprDbgDataWrite v s)
  | 0x40D00 => some (if bitW v 31 then execHspFirstClear s else .next s)
  | 0x40D30 => some (hspAction v s)
  | 0xC0000 => some (.next (s.tmbCmd v))
  | _ =>
    match idxIn off 0x40C00 4 24, idxIn off 0x40D10 4 5 with
    | some i, _ => some (execHspRaisedAck i v s)
    | none, some k => some (execHspProgWinWrite k v s)
    | none, none => none

/-- A write to HDL that a row describes. -/
def ownRowHdl (off : Nat) (v : Word) (s : State) : Option (Host.Outcome State Fault Refusal) :=
  match off with
  | 0x100400 => some (execHdlGatherCtlWrite v s)
  | 0x100410 => some (execHdlDeterminismWrite v s)
  | 0x100640 => some (execHdlSchedGapWrite v s)
  | 0x100644 => some (execHdlSchedSaveWrite v s)
  | _ =>
    match idxIn off 0x100600 4 12, idxIn off 0x100700 4 64, idxIn off 0x100900 0x80 16 with
    | some i, _, _ =>
      (match i % 8 with
      | 0 => some (execHdlPartLoomWrite (i / 8) v s)
      | 1 => some (execHdlPartMemWrite (i / 8) v s)
      | 2 => some (execHdlPartQuotaWrite (i / 8) v s)
      | 3 => some (execHdlPartLatchWrite (i / 8) v s)
      | _ => none)
    | none, some i, _ => some (execHdlMirrorWrite i v s)
    | none, none, some g => some (execHdlGatherGrpWrite g v s)
    | none, none, none => none

/-- A write to CRL, CTR or WRP that a row describes. -/
def ownRowHigh (off : Nat) (v : Word) (s : State) : Option (Host.Outcome State Fault Refusal) :=
  match idxIn off 0x200100 0x20 32, idxIn off 0x200500 0x10 32, idxIn off 0x50D000 0x10 16, idxIn off 0x600400 4 32 with
  | some k, _, _, _ => some (if bitW v 28 then execCrlSlotEnable k v s else execCrlSlotDisable k v s)
  | none, some b, _, _ => some (if bitW v 16 then execCrlBatchEnable b v s else execCrlBatchDisable b v s)
  | none, none, some w, _ => some (execCtrWatchCfgWrite w v s)
  | none, none, none, some i => some (execWrpWheelWrite (i / 4) (i / 2 % 2) (i % 2) v s)
  | none, none, none, none => none

/-- A write to an aligned offset of the supervisor view (R556): as the row of its register says, else as its fields' types say.  A
die in die reset discards it (R557); an unassigned offset discards it and raises the source (R555). -/
def supWrite (w : View) (off : Nat) (v : Word) (s : State) : Host.Outcome State Fault Refusal :=
  let own := if off < 0x100000 then ownRowLow off v s else if off < 0x200000 then ownRowHdl off v s else ownRowHigh off v s
  match own with
  | some o => o
  | none =>
    if ((regDie off).map s.dieHeld).getD false then .next s
    else if (s.readSup off).isNone then .next (s.badAccess w off)
    else .next ((s.regTraffic w off true).supStore off v)

/-! ### Writes of a host function (R13, R330, R560) -/

/-- The RW bits of a register of the function window. -/
def fnMask (o : Nat) : Word :=
  match o with
  | 0x00 => 0x001FFFFF#32
  | 0x04 => 0x01FFFFFF#32
  | 0x08 => 0xFFFFFFFF#32
  | 0x0C => 0xFFFFFFFF#32
  | 0x10 => 0x00FFFFFF#32
  | 0x18 => 0x00000FFF#32
  | 0x40 => 0x001FFFFF#32
  | 0x44 => 0xFFFFFFFF#32
  | 0x48 => 0xFFFFFFFF#32
  | 0x4C => 0x07FFFF1F#32
  | 0x60 => 0x800FFFFF#32
  | 0x70 => 0x800007FF#32
  | 0x80 => 0x00000FFF#32
  | _ => 0

/-- A write to RW fields of the function window; what a register only reports stays. -/
def State.fnStore (s : State) (f : FnId) (o : Nat) (v : Word) : State :=
  if fnKept o then s.setFnReg f o ((v &&& fnMask o) ||| (s.fnReg f o &&& ~~~(fnMask o))) else s

/-- A write to the function window: an operation bit acts as its row says. -/
def fnWinWrite (f : FnId) (o : Nat) (v : Word) (s : State) : Host.Outcome State Fault Refusal :=
  match o with
  | 0x00 => if bitW v 31 then execHdlFnCtxOpenGo f v s else .next (s.fnStore f o v)
  | 0x18 => if bitW v 31 then execHdlFnCtxCloseGo f v s else .next (s.fnStore f o v)
  | 0x50 => (match fld v 1 0 with
    | 1 => execRingCreate f s
    | 2 => execRingDestroy f s
    | _ => .next s)
  | 0x74 => if bitW v 31 then execFaultStatusAck f s else .next s
  | 0x80 => (match fld v 13 12 with
    | 1 => execLatchTake f (fld v 11 0) s
    | 2 => execLatchRelease f (fld v 11 0) s
    | _ => .next (s.fnStore f o v))
  | _ => .next (s.fnStore f o v)

/-- A write to a word of an MSI-X table (R336): the vector control masks, or unmasks and sends what is pending. -/
def State.msixStore (s : State) (f : IrqFn) (i : Nat) (v : Word) : State :=
  if i % 4 = 3 then
    (if bitW v 0 then { s with msix := { s.msix with unmasked := delSet s.msix.unmasked { fn := f, vector := i / 4 } } }
     else s.unmask { fn := f, vector := i / 4 })
  else if v = 0 then { s with msix := { s.msix with table := eraseN s.msix.table (msixKey f i) } }
  else { s with msix := { s.msix with table := insertN s.msix.table (msixKey f i) v } }

/-- REGISTER_WRITE (R13, R331, R556): through the view's layout.  A doorbell has a row of its own; the words that need a cryptographic
verdict have one too. -/
def execRegisterWrite (v : View) (off : Nat) (value : Word) (s : State) : Host.Outcome State Fault Refusal :=
  if !s.viewLive v ∨ off % 4 ≠ 0 then .next s
  else
    match v with
    | .sup => supWrite v off value s
    | .keeper => supWrite v off value s
    | .fn f =>
      if 0x1000000 ≤ off ∧ off < 0x1001000 then fnWinWrite f (off - 0x1000000) value s
      else
        match idxIn off 0x1010000 4 8192 with
        | some i => .next (s.msixStore (.fn f) i value)
        | none => .next s
    | .supMsix =>
      match idxIn off 0 4 32 with
      | some i => .next (s.msixStore .sup i value)
      | none => .next s
    | .supStaging =>
      .next (if s.pwr.recovery ∧ off < 0x1000000 then
        s.modWeft .a (fun w => { w with beam := w.beam.writeBytes off (leBytes 4 value.toNat) })
      else s)

end Machine

end Sys2Proof
end

