-- ==== Sys2Proof/Machine/Jtag.lean ====
section
/-! DEFINITION. The JTAG debug header (R372, R499, R505, R558). -/

namespace Sys2Proof

namespace Machine

/-- A pair answers a debug access: its group is in Run, and it is not isolated (R388, R505). -/
def State.pairAnswers (s : State) (n : Nat) : Bool := decide ((s.weft (weftOf n)).shuttle = .at .run) && s.pairOn n

/-- A debug read of a pair memory, by the address a program uses (R111); an address outside both memories stops. -/
def State.pairLoad (s : State) (n a : Nat) : Host.Outcome State Fault Refusal :=
  let o := a / 4 * 4
  if !s.pairAnswers n then .next (s.accessErr.answer 0xFFFFFFFF#32)
  else
    match placeOf o 4, s.pair? n with
    | .imem x, some p => .next (s.answer (word (p.imem.readLe x 4)))
    | .dmem x, some p => .next (s.answer (word (p.dmem.readLe x 4)))
    | _, _ => .fault .debugOutsideLevel

/-- A debug write of a pair memory. -/
def State.pairStore (s : State) (n a : Nat) (v : Word) : Host.Outcome State Fault Refusal :=
  let o := a / 4 * 4
  let bs := leBytes 4 v.toNat
  if !s.pairAnswers n then .next s.accessErr
  else
    match placeOf o 4 with
    | .imem x => .next (s.modPair n (fun p => { p with imem := p.imem.writeBytes x bs }))
    | .dmem x => .next (s.modPair n (fun p => { p with dmem := p.dmem.writeBytes x bs }))
    | _ => .fault .debugOutsideLevel

/-- A 32-bit part of a register of a pair: x0 to x31, f0 to f31, v0 to v31, pc, fcsr. -/
def Pair.part (p : Pair) (reg k : Nat) : Word :=
  let n := if reg < 32 then (p.getX reg).toNat
    else if reg < 64 then (p.f.getD (reg - 32) 0).toNat
    else if reg < 96 then (p.v.getD (reg - 64) 0).toNat
    else if reg = 96 then p.pc.toNat
    else p.fflags.toNat + 2 ^ 5 * p.frm.toNat
  word (n / 2 ^ (32 * k))

/-- Halt, resume or step a pair. -/
def State.pairDebug (s : State) (n : Nat) (f : Pair → Pair) : State := if s.pairAnswers n then s.modPair n f else s.accessErr

/-- A register of a Weft die belongs to its control group, which follows Beam (R381, R386, R557): a debug access meets the group out of Run
(R505). -/
def State.regOutOfRun (s : State) (off : Nat) : Bool := (regDie off).any (fun d => !s.dieHeld d && decide ((s.weft d).beamGrp ≠ .at .run))

/-- A read of a register through the JTAG header: at Observe a group in Cool or Rest answers all ones, at Open a group that is not in Run,
and access_err is set (R505, R507; log entry 165). -/
def State.jtagRead (s : State) (off : Nat) : State :=
  let away := if s.debugLevel = 2 then s.regOutOfRun off else (regDie off).any (fun d => !s.dieHeld d && s.controlAsleep d)
  if off % 4 ≠ 0 then s else if away then s.accessErr.answer 0xFFFFFFFF#32 else s.regRead .sup off

/-- A boundary or internal scan answers what the manual does not state: a free word, with no effect on the mission (R499; log entry 168). -/
def State.scanned (s : State) : State := ({ s with freshCtr := s.freshCtr + 1 }).answer ((Config.freeDword s.freshCtr).setWidth 32)

/-- An operation at Open (R499). -/
def jtagOpen (op : JtagOp) (chk : ReadChecks) (s : State) : Host.Outcome State Fault Refusal :=
  match op with
  | .idcode => .next (s.answer Config.idcode)
  | .boundaryScan => .next s.scanned
  | .scan => .next s.scanned
  | .readReg off => if off = 0x518 then execKprDbgDataRead chk s else .next (s.jtagRead off)
  | .writeReg off v =>
    if off % 4 ≠ 0 then .next s else if s.regOutOfRun off then .next s.accessErr else supWrite .sup off v s
  | .readMem d l off => if off / 4 * 4 < levelBytes l then .next (s.dbgLoad d l (off / 4 * 4) chk) else .fault .debugOutsideLevel
  | .writeMem d l off v => if off / 4 * 4 < levelBytes l then .next (s.dbgStore d l (off / 4 * 4) v) else .fault .debugOutsideLevel
  | .readPair n a => s.pairLoad n a
  | .writePair n a v => s.pairStore n a v
  | .haltPair n => .next (s.pairDebug n (fun p => { p with debugHalt := true, debugStep := false }))
  | .resumePair n => .next (s.pairDebug n (fun p => { p with debugHalt := false, debugStep := false }))
  | .stepPair n => .next (s.pairDebug n (fun p => { p with debugStep := p.debugHalt }))
  | .inspectPair n reg k =>
    .next (if s.pairAnswers n then (match s.pair? n with
        | some p => s.answer (p.part reg k)
        | none => s)
      else s.accessErr.answer 0xFFFFFFFF#32)

/-- JTAG_ACCESS (R372, R499): Sealed permits IDCODE and boundary scan; Observe also reads of the supervisor view; Open everything.
An operation beyond the level has no effect. -/
def execJtagAccess (op : JtagOp) (chk : ReadChecks) (s : State) : Host.Outcome State Fault Refusal :=
  if s.missionOn ∧ s.debugLevel = 2 then jtagOpen op chk s
  else
    match op with
    | .idcode => .next (s.answer Config.idcode)
    | .readReg off => .next (if s.missionOn ∧ s.debugLevel = 1 then s.jtagRead off else s)
    | .boundaryScan => .next s.scanned
    | .scan => .next s
    | .writeReg _ _ => .next s
    | .readMem _ _ _ => .next s
    | .writeMem _ _ _ _ => .next s
    | .readPair _ _ => .next s
    | .writePair _ _ _ => .next s
    | .haltPair _ => .next s
    | .resumePair _ => .next s
    | .stepPair _ => .next s
    | .inspectPair _ _ _ => .next s

end Machine

end Sys2Proof
end

