-- ==== Sys2Proof/Machine/Dispatch.lean ====
section
/-! DEFINITION. One arm per command: each is one call of its meaning. -/

namespace Sys2Proof

namespace Machine

/-- The effect of a command on everything but the queue. -/
def exec (i : Instr) (s : State) : Host.Outcome State Fault Refusal :=
  match i with
  | .prsnt1Low => Sys2Proof.Machine.execPrsnt1Low s
  | .prsnt1DebounceExpiry => Sys2Proof.Machine.execPrsnt1DebounceExpiry s
  | .standbyRailUp => Sys2Proof.Machine.execStandbyRailUp s
  | .pwrEnRise lowTenMs ts ta tb => Sys2Proof.Machine.execPwrEnRise lowTenMs ts ta tb s
  | .railInRegulation => Sys2Proof.Machine.execRailInRegulation s
  | .powerGood => Sys2Proof.Machine.execPowerGood s
  | .bootVerified => Sys2Proof.Machine.execBootVerified s
  | .wakeNTimeout => Sys2Proof.Machine.execWakeNTimeout s
  | .pwrEnFall => Sys2Proof.Machine.execPwrEnFall s
  | .pwrEnLowTimeout => Sys2Proof.Machine.execPwrEnLowTimeout s
  | .powerDownStep => Sys2Proof.Machine.execPowerDownStep s
  | .offReached => Sys2Proof.Machine.execOffReached s
  | .inputUndervoltage => Sys2Proof.Machine.execInputUndervoltage s
  | .inputOvervoltage => Sys2Proof.Machine.execInputOvervoltage s
  | .prsnt1High => Sys2Proof.Machine.execPrsnt1High s
  | .removalDeclared => Sys2Proof.Machine.execRemovalDeclared s
  | .thermalWarning d reading => Sys2Proof.Machine.execThermalWarning d reading s
  | .thermalTrip d reading => Sys2Proof.Machine.execThermalTrip d reading s
  | .railFault => Sys2Proof.Machine.execRailFault s
  | .referenceLost => Sys2Proof.Machine.execReferenceLost s
  | .pllLockLoss p => Sys2Proof.Machine.execPllLockLoss p s
  | .pllRelock p => Sys2Proof.Machine.execPllRelock p s
  | .heartbeatMissing => Sys2Proof.Machine.execHeartbeatMissing s
  | .aliveToggle => Sys2Proof.Machine.execAliveToggle s
  | .perstAssert p => Sys2Proof.Machine.execPerstAssert p s
  | .perstDeassert p => Sys2Proof.Machine.execPerstDeassert p s
  | .hostLinkLoss p => Sys2Proof.Machine.execHostLinkLoss p s
  | .hostLinkUp p width speed mps msix => Sys2Proof.Machine.execHostLinkUp p width speed mps msix s
  | .hostLinkDegraded p width speed mps => Sys2Proof.Machine.execHostLinkDegraded p width speed mps s
  | .hostLinkRestored p mps => Sys2Proof.Machine.execHostLinkRestored p mps s
  | .hostLinkRecovery p => Sys2Proof.Machine.execHostLinkRecovery p s
  | .supervisorLinkLoss => Sys2Proof.Machine.execSupervisorLinkLoss s
  | .supervisorLinkUp msix => Sys2Proof.Machine.execSupervisorLinkUp msix s
  | .flr f => Sys2Proof.Machine.execFlr f s
  | .vfEnableClear p => Sys2Proof.Machine.execVfEnableClear p s
  | .msixVectorUnmask f vector => Sys2Proof.Machine.execMsixVectorUnmask f vector s
  | .syncInEdge rising quarter => Sys2Proof.Machine.execSyncInEdge rising quarter s
  | .syncOutRise => Sys2Proof.Machine.execSyncOutRise s
  | .syncOutFall => Sys2Proof.Machine.execSyncOutFall s
  | .smbusEepromRead addr isRead offset count => Sys2Proof.Machine.execSmbusEepromRead addr isRead offset count s
  | .jtagAccess op chk => Sys2Proof.Machine.execJtagAccess op chk s
  | .ptmDialogue p offset => Sys2Proof.Machine.execPtmDialogue p offset s
  | .gptpFrame eth offset => Sys2Proof.Machine.execGptpFrame eth offset s
  | .timeSourceFail => Sys2Proof.Machine.execTimeSourceFail s
  | .csi2FrameStart port vc fixed => Sys2Proof.Machine.execCsi2FrameStart port vc fixed s
  | .csi2LongPacket port vc dataType payload crcOk lanesAgree overflow ecc fixed waits => Sys2Proof.Machine.execCsi2LongPacket port vc dataType payload crcOk lanesAgree overflow ecc fixed waits s
  | .csi2FrameEnd port vc fixed => Sys2Proof.Machine.execCsi2FrameEnd port vc fixed s
  | .csi2PacketDiscard port vc dataType headerError fixed => Sys2Proof.Machine.execCsi2PacketDiscard port vc dataType headerError fixed s
  | .phyLinkLoss port => Sys2Proof.Machine.execPhyLinkLoss port s
  | .ethernetFrame port frame lanesAgree ecc waits => Sys2Proof.Machine.execEthernetFrame port frame lanesAgree ecc waits s
  | .holdCopyDone slot chk => Sys2Proof.Machine.execHoldCopyDone slot chk s
  | .batchCloseTimeout batch counter => Sys2Proof.Machine.execBatchCloseTimeout batch counter s
  | .substituteCopyDone batch counter position chk => Sys2Proof.Machine.execSubstituteCopyDone batch counter position chk s
  | .batchReady batch counter => Sys2Proof.Machine.execBatchReady batch counter s
  | .doorbellTail f page value descs => Sys2Proof.Machine.execDoorbellTail f page value descs s
  | .doorbellHead f page value => Sys2Proof.Machine.execDoorbellHead f page value s
  | .nop ctx => Sys2Proof.Machine.execNop ctx s
  | .nopFenceRelease ctx => Sys2Proof.Machine.execNopFenceRelease ctx s
  | .step ctx record failed => Sys2Proof.Machine.execStep ctx record failed s
  | .stepAdmission ctx heddleOverAdmits => Sys2Proof.Machine.execStepAdmission ctx heddleOverAdmits s
  | .batchWaitTimeout ctx => Sys2Proof.Machine.execBatchWaitTimeout ctx s
  | .draftLoad ctx => Sys2Proof.Machine.execDraftLoad ctx s
  | .draftLoadDone ctx image failed => Sys2Proof.Machine.execDraftLoadDone ctx image failed s
  | .draftUnload ctx => Sys2Proof.Machine.execDraftUnload ctx s
  | .draftUnloadDone ctx => Sys2Proof.Machine.execDraftUnloadDone ctx s
  | .recipeLoad ctx image failed => Sys2Proof.Machine.execRecipeLoad ctx image failed s
  | .recipeUnload ctx => Sys2Proof.Machine.execRecipeUnload ctx s
  | .inject ctx header failed => Sys2Proof.Machine.execInject ctx header failed s
  | .injectReadDone ctx payload failed checks waits => Sys2Proof.Machine.execInjectReadDone ctx payload failed checks waits s
  | .transfer ctx => Sys2Proof.Machine.execTransfer ctx s
  | .receive ctx => Sys2Proof.Machine.execReceive ctx s
  | .wakeRequest d g => Sys2Proof.Machine.execWakeRequest d g s
  | .wakeComplete d g => Sys2Proof.Machine.execWakeComplete d g s
  | .idleTimeout d g => Sys2Proof.Machine.execIdleTimeout d g s
  | .restTimeout d g => Sys2Proof.Machine.execRestTimeout d g s
  | .stateEntryDone d g => Sys2Proof.Machine.execStateEntryDone d g s
  | .rv64Instruction pair strike ecc clocks chk => Sys2Proof.Machine.execRv64Instruction pair strike ecc clocks chk s
  | .rdtime pair rd => Sys2Proof.Machine.execRdtime pair rd s
  | .ecall pair => Sys2Proof.Machine.execEcall pair s
  | .ebreak pair => Sys2Proof.Machine.execEbreak pair s
  | .lmOp pair rd rs1 => Sys2Proof.Machine.execLmOp pair rd rs1 s
  | .lmReed pair rd rs1 => Sys2Proof.Machine.execLmReed pair rd rs1 s
  | .lmFin pair rd rs1 => Sys2Proof.Machine.execLmFin pair rd rs1 s
  | .lmStage pair rd rs1 rs2 => Sys2Proof.Machine.execLmStage pair rd rs1 rs2 s
  | .lmEvict pair rd rs1 rs2 => Sys2Proof.Machine.execLmEvict pair rd rs1 rs2 s
  | .lmSpawn pair rd rs1 rs2 => Sys2Proof.Machine.execLmSpawn pair rd rs1 rs2 s
  | .lmWait pair rs1 => Sys2Proof.Machine.execLmWait pair rs1 s
  | .lmSync pair => Sys2Proof.Machine.execLmSync pair s
  | .lmHinge pair rs1 => Sys2Proof.Machine.execLmHinge pair rs1 s
  | .lmDec pair rd rs1 rs2 mv => Sys2Proof.Machine.execLmDec pair rd rs1 rs2 mv s
  | .lmEnc pair rd rs1 rs2 mv => Sys2Proof.Machine.execLmEnc pair rd rs1 rs2 mv s
  | .lmLacq pair rd rs1 => Sys2Proof.Machine.execLmLacq pair rd rs1 s
  | .lmLrel pair rs1 => Sys2Proof.Machine.execLmLrel pair rs1 s
  | .lmRd pair rd sel => Sys2Proof.Machine.execLmRd pair rd sel s
  | .queuedOpStart d u chk => Sys2Proof.Machine.execQueuedOpStart d u chk s
  | .gatherHoldExpiry entry layer => Sys2Proof.Machine.execGatherHoldExpiry entry layer s
  | .wholeBarrier => Sys2Proof.Machine.execWholeBarrier s
  | .arrayOpRetire d clocks frozen chk => Sys2Proof.Machine.execArrayOpRetire d clocks frozen chk s
  | .reedOpRetire d clocks chk => Sys2Proof.Machine.execReedOpRetire d clocks chk s
  | .finishOpRetire d clocks chk => Sys2Proof.Machine.execFinishOpRetire d clocks chk s
  | .stageCopyDone d chk => Sys2Proof.Machine.execStageCopyDone d chk s
  | .shuttleBudgetExpiry pair => Sys2Proof.Machine.execShuttleBudgetExpiry pair s
  | .hingeSaveDone chk => Sys2Proof.Machine.execHingeSaveDone chk s
  | .hingeRestoreDone chk => Sys2Proof.Machine.execHingeRestoreDone chk s
  | .stepFinish d => Sys2Proof.Machine.execStepFinish d s
  | .wardVerdict comparatorsAgree => Sys2Proof.Machine.execWardVerdict comparatorsAgree s
  | .resultWritesDone ctx chk => Sys2Proof.Machine.execResultWritesDone ctx chk s
  | .deadlineMonitorExpiry ctx counter => Sys2Proof.Machine.execDeadlineMonitorExpiry ctx counter s
  | .ageMonitorExpiry ctx counter => Sys2Proof.Machine.execAgeMonitorExpiry ctx counter s
  | .scrubLine d finding => Sys2Proof.Machine.execScrubLine d finding s
  | .gddr6Refresh d chan => Sys2Proof.Machine.execGddr6Refresh d chan s
  | .gddr6EdcFail d off failure master => Sys2Proof.Machine.execGddr6EdcFail d off failure master s
  | .transactionTimeout d pool hit => Sys2Proof.Machine.execTransactionTimeout d pool hit s
  | .warpFlitCrcFail link => Sys2Proof.Machine.execWarpFlitCrcFail link s
  | .warpE2eMismatch link hit => Sys2Proof.Machine.execWarpE2eMismatch link hit s
  | .warpLinkDown link => Sys2Proof.Machine.execWarpLinkDown link s
  | .warpLinkRetrainDone link => Sys2Proof.Machine.execWarpLinkRetrainDone link s
  | .warpRetrainTimeout link => Sys2Proof.Machine.execWarpRetrainTimeout link s
  | .gddr6TrainingDone d failed => Sys2Proof.Machine.execGddr6TrainingDone d failed s
  | .gddr6ZeroingDone d => Sys2Proof.Machine.execGddr6ZeroingDone d s
  | .moduleFrameStart => Sys2Proof.Machine.execModuleFrameStart s
  | .proofDue d => Sys2Proof.Machine.execProofDue d s
  | .proofRelease d => Sys2Proof.Machine.execProofRelease d s
  | .proofVerdict d v => Sys2Proof.Machine.execProofVerdict d v s
  | .selftestSliceStart d => Sys2Proof.Machine.execSelftestSliceStart d s
  | .sliceFallbackTimer d => Sys2Proof.Machine.execSliceFallbackTimer d s
  | .selftestSliceEnd d passed => Sys2Proof.Machine.execSelftestSliceEnd d passed s
  | .pairTestStart pair => Sys2Proof.Machine.execPairTestStart pair s
  | .pairTestDone pair passed => Sys2Proof.Machine.execPairTestDone pair passed s
  | .injectionDone scope failures => Sys2Proof.Machine.execInjectionDone scope failures s
  | .bootProofVerdict d v => Sys2Proof.Machine.execBootProofVerdict d v s
  | .ready held => Sys2Proof.Machine.execReady held s
  | .graceTimerExpiry source => Sys2Proof.Machine.execGraceTimerExpiry source s
  | .progressMonitorTrip kind inst ring counter ctxs => Sys2Proof.Machine.execProgressMonitorTrip kind inst ring counter ctxs s
  | .killComplete ctx stuck => Sys2Proof.Machine.execKillComplete ctx stuck s
  | .unitResetDone u => Sys2Proof.Machine.execUnitResetDone u s
  | .rungDeadlineExpiry r => Sys2Proof.Machine.execRungDeadlineExpiry r s
  | .isolationConfirmed u => Sys2Proof.Machine.execIsolationConfirmed u s
  | .dieInService d => Sys2Proof.Machine.execDieInService d s
  | .hdlFnCtxOpenGo f value => Sys2Proof.Machine.execHdlFnCtxOpenGo f value s
  | .hdlFnCtxCloseGo f value => Sys2Proof.Machine.execHdlFnCtxCloseGo f value s
  | .contextCloseDone ctx => Sys2Proof.Machine.execContextCloseDone ctx s
  | .ringCreate f => Sys2Proof.Machine.execRingCreate f s
  | .ringDestroy f => Sys2Proof.Machine.execRingDestroy f s
  | .latchTake f latch => Sys2Proof.Machine.execLatchTake f latch s
  | .latchRelease f latch => Sys2Proof.Machine.execLatchRelease f latch s
  | .faultStatusAck f => Sys2Proof.Machine.execFaultStatusAck f s
  | .hspRaisedAck index value => Sys2Proof.Machine.execHspRaisedAck index value s
  | .hspFirstClear => Sys2Proof.Machine.execHspFirstClear s
  | .hspActionKill ctx => Sys2Proof.Machine.execHspActionKill ctx s
  | .hspActionUnitReset u => Sys2Proof.Machine.execHspActionUnitReset u s
  | .hspActionDieReset d => Sys2Proof.Machine.execHspActionDieReset d s
  | .hspActionModuleReset => Sys2Proof.Machine.execHspActionModuleReset s
  | .tmbNonce => Sys2Proof.Machine.execTmbNonce s
  | .tmbToken => Sys2Proof.Machine.execTmbToken s
  | .tmbAttest => Sys2Proof.Machine.execTmbAttest s
  | .tmbLoadDraftKey => Sys2Proof.Machine.execTmbLoadDraftKey s
  | .tmbEraseDraftKey keyId => Sys2Proof.Machine.execTmbEraseDraftKey keyId s
  | .tmbEnrol => Sys2Proof.Machine.execTmbEnrol s
  | .kprBootInstall programmed => Sys2Proof.Machine.execKprBootInstall programmed s
  | .kprRollbackCommit => Sys2Proof.Machine.execKprRollbackCommit s
  | .kprDebugWrite value => Sys2Proof.Machine.execKprDebugWrite value s
  | .kprDbgDataRead chk => Sys2Proof.Machine.execKprDbgDataRead chk s
  | .kprDbgDataWrite value => Sys2Proof.Machine.execKprDbgDataWrite value s
  | .kprSafetyWrite value => Sys2Proof.Machine.execKprSafetyWrite value s
  | .hdlDeterminismWrite value => Sys2Proof.Machine.execHdlDeterminismWrite value s
  | .kprFrameWrite value => Sys2Proof.Machine.execKprFrameWrite value s
  | .kprFramePhaseWrite value => Sys2Proof.Machine.execKprFramePhaseWrite value s
  | .kprProofWrite value => Sys2Proof.Machine.execKprProofWrite value s
  | .kprStestWrite value => Sys2Proof.Machine.execKprStestWrite value s
  | .hspProgWinWrite k value => Sys2Proof.Machine.execHspProgWinWrite k value s
  | .hdlPartLoomWrite p value => Sys2Proof.Machine.execHdlPartLoomWrite p value s
  | .hdlPartMemWrite p value => Sys2Proof.Machine.execHdlPartMemWrite p value s
  | .hdlPartQuotaWrite p value => Sys2Proof.Machine.execHdlPartQuotaWrite p value s
  | .hdlPartLatchWrite p value => Sys2Proof.Machine.execHdlPartLatchWrite p value s
  | .hdlSchedGapWrite value => Sys2Proof.Machine.execHdlSchedGapWrite value s
  | .hdlSchedSaveWrite value => Sys2Proof.Machine.execHdlSchedSaveWrite value s
  | .hdlMirrorWrite n value => Sys2Proof.Machine.execHdlMirrorWrite n value s
  | .hdlGatherCtlWrite value => Sys2Proof.Machine.execHdlGatherCtlWrite value s
  | .hdlGatherGrpWrite g value => Sys2Proof.Machine.execHdlGatherGrpWrite g value s
  | .wrpWheelWrite link dir half value => Sys2Proof.Machine.execWrpWheelWrite link dir half value s
  | .crlSlotEnable k value => Sys2Proof.Machine.execCrlSlotEnable k value s
  | .crlSlotDisable k value => Sys2Proof.Machine.execCrlSlotDisable k value s
  | .crlBatchEnable b value => Sys2Proof.Machine.execCrlBatchEnable b value s
  | .crlBatchDisable b value => Sys2Proof.Machine.execCrlBatchDisable b value s
  | .ctrSelWrite d n value => Sys2Proof.Machine.execCtrSelWrite d n value s
  | .ctrWatchCfgWrite w value => Sys2Proof.Machine.execCtrWatchCfgWrite w value s
  | .registerLowWordRead v off => Sys2Proof.Machine.execRegisterLowWordRead v off s
  | .badRegisterAccess v kind off width => Sys2Proof.Machine.execBadRegisterAccess v kind off width s
  | .registerWrite v off value => Sys2Proof.Machine.execRegisterWrite v off value s
  | .inputTurnOn => Sys2Proof.Machine.execInputTurnOn s
  | .electronicBreakerTrip => Sys2Proof.Machine.execElectronicBreakerTrip s
  | .vfEnableSet p numVfs msix => Sys2Proof.Machine.execVfEnableSet p numVfs msix s
  | .poisonedBarWrite f off => Sys2Proof.Machine.execPoisonedBarWrite f off s
  | .flrComplete f msix => Sys2Proof.Machine.execFlrComplete f msix s
  | .transferDone ctx chk => Sys2Proof.Machine.execTransferDone ctx chk s
  | .inputPowerUpdate vin pin board => Sys2Proof.Machine.execInputPowerUpdate vin pin board s

end Machine

end Sys2Proof
end

