-- ==== Sys2Proof/Machine/Tick.lean ====
section
/-! DEFINITION. One Tick clock: what a step does on an empty queue (R378, R340; log entry 2). -/

namespace Sys2Proof

namespace Machine

/-- The slew of one Tick clock: 1 ns toward the source on a selected Tick clock, at most once in 63 of them, which is at most
100 ns per ms (R340, R378). -/
def Time.slewNow (t : Time) : Int :=
  if t.slew = 0 then 0
  else if Config.slewTick t.ticks && decide (t.lastSlew + 63 ≤ t.ticks) then (if 0 < t.slew then 1 else -1)
  else 0

/-- Grace timers count Tick clocks down to 0 (R463). -/
def graceTick (l : List (Nat × Nat)) : List (Nat × Nat) := l.map (fun p => (p.1, p.2 - 1))

/-- A die's Loom clocks with the Loom group in Run: 96 in a Tick clock, while the Loom PLL is locked (R377, R518, R519). -/
def loomRun (s : State) (d : Weft) : State :=
  let on := match d with
    | .a => s.clk.weftA.getLsbD 0
    | .b => s.clk.weftB.getLsbD 0
  if on && decide ((s.weft d).loom = .at .run) then bumpAon (countEv s (Ev.plain (dieNo d) 0x000 none 96)) (dieNo d) 15 96 else s

/-- The Loom clocks of a Tick clock in which a step holds the array: 96, while it runs and neither the proof input nor a slice holds one of
its dies (R297, R377). -/
def holdTick (s : State) : State :=
  match s.sched.running.bind s.step? with
  | none => s
  | some t =>
    let free := fun (d : Weft) => !t.on d || (s.clocked (.loom d) && decide ((s.weft d).checks.phase ≠ .running) && (s.weft d).checks.slice.isNone)
    if decide (t.stage = .running) && free .a && free .b then s.holdClocks 96 else s

/-- The Loom clocks of a Tick clock in which the proof input or a self-test slice holds a die's array: events of firmware, without a
context (R434, R438, R515, R518, R519). -/
def checkTick (s : State) (d : Weft) : State :=
  let c := (s.weft d).checks
  if s.clocked (.loom d) && (decide (c.phase = .running) || c.slice.isSome) then
    bumpAon (countEv s { Ev.plain (dieNo d) 0x001 none 96 with priv := some 0 }) (dieNo d) 0 96
  else s

/-- One Tick clock: device time, grace timers, the counters of Tick clocks, and the choice point for what the Tick clock's
events made ready (R23, R277, R288, R378, R463, R518, R519).  Without the standby rail,
or after the reference is lost (R379), nothing moves. -/
def tickIdle (s : State) : State :=
  if !s.supply.standby || s.pwr.refLost then s
  else
    let k := s.time.slewNow
    let s1 := { s with
      time := { s.time with
        now := s.time.now + 160 + BitVec.ofInt 64 k
        slew := s.time.slew - k
        ticks := s.time.ticks + 1
        lastSlew := if k = 0 then s.time.lastSlew else s.time.ticks }
      hasp := { s.hasp with grace := graceTick s.hasp.grace } }
    ((checkTick (checkTick (holdTick (loomRun (loomRun (bumpAon (countEv s1 (Ev.plain 0 0x0C0 none 1)) 0 0 1) .a) .b)) .a) .b).retestNow).choose.tumblerTick

end Machine

end Sys2Proof
end

