-- ==== Sys2Proof/Safety.lean ====
section
/-! DEFINITION. What claims speak of: completion, what a command leaves as it was, and invariants of the state. -/

namespace Sys2Proof

namespace Machine

/-- A command answers a next state. -/
def Completes (c : Instr) (s : State) : Prop := ∃ t, exec c s = .next t

/-- A sticky overflow register of a die's counters (R514). -/
def isOverflowReg (o : Nat) : Bool :=
  [oCtrOvf 0, oCtrOvf 1, oCtrOvf 2, oCtrOvfAon 0, oCtrOvfAon 1, oCtrOvfAon 2].contains o

/-- t is s but for counter values, their sticky overflow registers, and the progress counters of R467. -/
def State.sameButCounters (t s : State) : Prop :=
  { t with ctr := s.ctr, regs := s.regs, mon := s.mon } = s ∧ ∀ o, isOverflowReg o = false → t.reg o = s.reg o

/-- t is s but for counter values, their overflow registers, free values drawn, and the corrected errors that GDDR6 channels count: what
reads of memory leave. -/
def State.sameButReads (t s : State) : Prop :=
  State.sameButCounters { t with wa := s.wa, wb := s.wb, freshCtr := s.freshCtr } s
    ∧ ∀ d, { t.weft d with chans := (s.weft d).chans } = s.weft d

/-- t is s but for Hasp's own state, HSP_FIRST, counter values, their sticky overflow registers and the progress counters. -/
def State.sameButHealth (t s : State) : Prop :=
  { t with ctr := s.ctr, regs := s.regs, hasp := s.hasp, mon := s.mon } = s
    ∧ ∀ o, isOverflowReg o = false → o ≠ oFirst → t.reg o = s.reg o

/-- A source (R456) that is not raised, and whose HSP_SRC_CFG selects no reaction and no grace time (R462, R463). -/
abbrev State.silent (s : State) (n : Nat) : Prop := n < 768 ∧ s.hasp.raised.contains n = false ∧ s.reg (oSrcCfg n) = 0

/-- Source n is raised with the capture c, taken now (R459, R460). -/
def State.captured (t : State) (n : Nat) (c : Capture) : Prop :=
  t.hasp.raised.contains n = true ∧ lookupN t.hasp.caps n = some { c with time := t.time.now, count := 0 }

/-- t is s with the word w in the supervisor register at o, and nothing else changed. -/
def State.sets (t s : State) (o : Nat) (w : Word) : Prop :=
  t.reg o = w ∧ (∀ p, p ≠ o → t.reg p = s.reg p) ∧ { t with regs := s.regs } = s

/-- The record c of context cx, due in s, is in t: written at the tail of its completion ring, which moves on, or held while that ring is
full (R304, R307, R317). -/
def State.recordDue (t s : State) (cx : Ctx) (c : Completion) : Prop :=
  ∀ r cr, s.ring? cx.id c.ring = some r → s.ring? cx.id r.cq = some cr → (s.hport cx.fn.port).carries = true →
    (cr.full = false → cr.held = [] → (s.hostMem cx.fn.port).wf = true →
      (t.hostMem cx.fn.port).readBytes (cr.base + 32 * cr.tail) 32 = recordBytes c cr.phase (r.complete c.slot).head ∧
      (∀ a, a < cr.base + 32 * cr.tail ∨ cr.base + 32 * cr.tail + 32 ≤ a →
        (t.hostMem cx.fn.port).read a = (s.hostMem cx.fn.port).read a) ∧
      (t.ring? cx.id r.cq).map (fun x => x.tail) = some ((cr.tail + 1) % cr.size)) ∧
    (cr.full = true ∨ cr.held ≠ [] →
      (t.ring? cx.id r.cq).map (fun x => x.held) = some (cr.held ++ [c]) ∧ t.hostMem cx.fn.port = s.hostMem cx.fn.port)

/-- t is s but for rings, host memory, MSI-X, counter values and their sticky overflow registers: what completion records change. -/
def State.sameButRecords (t s : State) : Prop :=
  { t with rings := s.rings, hostMemA := s.hostMemA, hostMemB := s.hostMemB, msix := s.msix, ctr := s.ctr, regs := s.regs } = s
    ∧ ∀ o, isOverflowReg o = false → t.reg o = s.reg o

/-- w is v but for the power states of its groups. -/
def WeftDie.sameButGroups (w v : WeftDie) : Prop :=
  { w with loom := v.loom, shuttle := v.shuttle, reedFinish := v.reedFinish, beamGrp := v.beamGrp } = v

/-- No step is there, so none is chosen. -/
abbrev State.noSteps (s : State) : Prop := s.steps = [] ∧ s.sched.running = none ∧ s.sched.nextStart = none

/-- Keeper and Tumbler have nothing under way that a Tick clock ends (log entry 167). -/
abbrev State.keeperIdle (s : State) : Prop := s.sec.enrolling = none ∧ s.sec.tmbWaiting = none ∧ s.sec.installing = none

/-- Tumbler takes a command at once: it works, runs none, and Heddle's draft load does not have it (R483). -/
abbrev State.tumblerFree (s : State) : Prop := s.tumblerOn = true ∧ s.tumblerBusy = false ∧ s.loadHasTumbler = false

/-- No LC step is admitted: the test of R288 finds nothing that fails. -/
abbrev State.noLcAdmitted (s : State) : Prop := s.admittedLc 0 = [] ∧ s.admittedLc 1 = []

/-- Pair n executes a program r of step x: neither stalled nor halted, clocked, enabled and out of reset (R109, R377, R388). -/
abbrev State.executes (s : State) (n : Nat) (p : Pair) (r : Running) (x : Step) : Prop :=
  s.pair? n = some p ∧ p.active = some r ∧ s.step? r.step = some x ∧ s.clocked (.shuttle (weftOf n)) = true ∧ s.pairOn n = true ∧
    s.unitUp (.pair n) = true

/-- Pair n executes a program r of step x, and the instruction at its pc spells the command i (R118). -/
abbrev State.performs (s : State) (n : Nat) (p : Pair) (r : Running) (x : Step) (mv : Move) (i : Instr) : Prop :=
  s.executes n p r x ∧ p.spells n mv i = true

/-- t is s with q in place of pair n (p), but for counters. -/
def State.onlyPair (t s : State) (n : Nat) (p q : Pair) : Prop :=
  t.pair? n = some q ∧ State.sameButCounters (t.modPair n (fun _ => p)) s

/-- The pair p after an instruction of four bytes that writes v to rd; x0 stays zero (R113, R118). -/
def Pair.wrote (q p : Pair) (rd : Nat) (v : Dword) : Prop :=
  q.pc = p.pc + 4 ∧ (p.x.length = 32 → ∀ i, q.getX i = if i % 32 = rd % 32 ∧ rd % 32 ≠ 0 then v else p.getX i) ∧
    { q with x := p.x, pc := p.pc, debugStep := p.debugStep, run := p.run } = p

/-- The started step x of a context can be killed with source n: no kill of the context is under way, and the source is silent. -/
abbrev State.killable (s : State) (x : Step) (n : Nat) : Prop :=
  s.begunStep x.ctx = some x ∧ lookupN s.ladder.kills x.ctx = none ∧ s.silent n

/-- A kill of step x with a status is under way in t: its work is gone from every queue, its latches are free, its record is still to
come, and source n has captured c (R98, R122, R472). -/
def State.killed (t s : State) (x : Step) (status n : Nat) (c : Capture) : Prop :=
  lookupN t.ladder.kills x.ctx = some status ∧ t.captured n c ∧ t.steps = s.steps ∧
    (∀ d, ∀ o ∈ (t.weft d).ops, ∀ m ∈ o.members, m.step ≠ x.id) ∧ (∀ l ∈ t.latches, l.2 ≠ .program x.ctx) ∧
    t.ctxs = s.ctxs ∧ t.drafts = s.drafts ∧ t.rings = s.rings ∧
    (x.stage ≠ .delivering → t.hostMemA = s.hostMemA ∧ t.hostMemB = s.hostMemB)

/-- Pair n (p) issued an operation with a new ticket in rd: `put` says where it waits (R118, R119). -/
def State.issued (t s : State) (n : Nat) (p : Pair) (rd : Nat) (put : Nat → State → Prop) : Prop :=
  ∃ k q, k < 256 ∧ (s.weft (weftOf n)).tickets.contains k = false ∧
    (t.weft (weftOf n)).tickets = (s.weft (weftOf n)).tickets ++ [k] ∧ t.pair? n = some q ∧ q.wrote p rd (BitVec.ofNat 64 k) ∧
    t.weft (otherDie (weftOf n)) = s.weft (otherDie (weftOf n)) ∧ put k t

/-- An operation that serves step x alone, waited for by pair n with ticket k. -/
def Step.opOf (x : Step) (n : Nat) (kind : OpKind) (rows k : Nat) : Op :=
  { entry := x.entry, kind := kind, members := [{ step := x.id, pair := n, ticket := k, rows := rows }], pass := 0 }

/-- The byte memories of a shuttle pair are canonical. -/
def Pair.memWf (p : Pair) : Bool := p.imem.wf && p.dmem.wf

/-- The byte memories of a Weft die are canonical. -/
def WeftDie.memWf (w : WeftDie) : Bool := w.beam.wf && w.gddr.wf && w.pairs.all Pair.memWf

/-- Every byte memory of the block is canonical: equal contents are equal data. -/
def State.memWf (s : State) : Bool :=
  s.hostMemA.wf && s.hostMemB.wf && s.sec.mailbox.wf && s.wa.memWf && s.wb.memWf

/-- The one-way facts of a part hold to bounds already reached: fuses stay blown, revocations and the fused rollback index stay (R482,
R486, R497). -/
def Security.fusesKept (x : Security) (owned returned : Bool) (rollback toggles : Nat) (revoked : BitVec 4) : Prop :=
  (owned = true → x.ownedFuse = true) ∧ (returned = true → x.returnedFuse = true) ∧ rollback ≤ x.rollbackFused ∧
    x.rollbackFused ≤ 64 ∧ toggles ≤ x.toggles.toNat ∧ revoked &&& x.revoked = revoked

/-- Frame, phase, slot and start hold together: the frame's range of R418, and none of the cases in which R419 refuses them. -/
abbrev State.frameHolds (s : State) (frame phase slot start : Nat) : Prop :=
  10000 ≤ frame ∧ frame ≤ 100000 ∧ phase < frame ∧ 150 ≤ slot ∧ 1000 * slot ≤ 15 * frame + 500 ∧
    16 * (start + slot) + frame ≤ 16 * frame ∧ ∀ k, k < 5 → 8 * fld (s.reg (oProgWin k)) 15 0 ≤ frame

/-- Entries of half an arbitration wheel with kind 0 or 3 (R566). -/
def wheelTurns (v : Word) : Nat := ((List.range 8).filter (fun i => fld v (4 * i + 3) (4 * i) == 0 || fld v (4 * i + 3) (4 * i) == 3)).length

/-- A half wheel beside its other half meets neither of R567's first two cases. -/
abbrev wheelHolds (v other : Word) : Prop :=
  (∀ i, i < 8 → fld v (4 * i + 3) (4 * i) < 5 ∨ 14 < fld v (4 * i + 3) (4 * i)) ∧ 8 ≤ wheelTurns v + wheelTurns other

end Machine

end Sys2Proof
end

