-- ==== Sys2Proof/Certificates/Slice0/Obligations.lean ====
section
/-! DEFINITION. The statements for the provers. -/

section

open Sys2Proof Sys2Proof.Machine

/-! ### The queue and the Tick clock -/

/-- A step takes the command at the front of the queue and runs it with the queue's rest. -/
def Obligations.StepRunsFrontCommand : Prop :=
  ∀ (c : Instr) (rest : List Instr) (s : State),
    step { s with pending := c :: rest } = exec c { s with pending := rest }

/-- R378 (log entry 2: what the model does on an empty queue).  One Tick clock: device time advances by 160 ns and at most 1 ns of slew,
grace timers count down, and where no step is there nothing but counters changes besides.
R297 (log entry 137), R519.  A step that runs alone has held the array for 96 Loom clocks more.
R379, R397.  Without the standby rail, or once the reference is lost, a Tick clock changes nothing.
R488, R494 (log entry 167: when the model ends them).  An install that read back right leaves its image in the slot and resets the module; a
failed one leaves the slot invalid and reports it; an enrolment puts its record into the second flash copy and in force. -/
def Obligations.EmptyQueuePassesOneTick : Prop :=
  (∀ s : State, s.pending = [] → s.supply.standby = true → s.pwr.refLost = false → s.noSteps → s.sched.retest = false →
    s.keeperIdle →
    ∃ t, step s = .next t ∧
      (∃ k : Int, k.natAbs ≤ 1 ∧ k.natAbs ≤ s.time.slew.natAbs ∧ t.time.now = s.time.now + 160 + BitVec.ofInt 64 k
        ∧ t.time.slew = s.time.slew - k) ∧
      t.time.ticks = s.time.ticks + 1 ∧
      t.hasp.grace = s.hasp.grace.map (fun p => (p.1, p.2 - 1)) ∧
      State.sameButCounters { t with time := s.time, hasp := s.hasp } s) ∧
  (∀ (x : Step) (s : State), s.pending = [] → s.supply.standby = true → s.pwr.refLost = false → s.sched.running = some x.id →
    s.steps = [x] → x.stage = .running → s.sched.retest = false → s.keeperIdle →
    (∀ d, x.on d = true → s.clocked (.loom d) = true ∧ (s.weft d).checks.phase ≠ .running ∧ (s.weft d).checks.slice = none) →
    ∃ t, step s = .next t ∧ t.steps = [{ x with measured := x.measured + 96 }] ∧ t.sched = s.sched ∧
      State.sameButCounters { t with time := s.time, hasp := s.hasp, steps := s.steps } s) ∧
  (∀ s : State, s.pending = [] → (s.supply.standby = false ∨ s.pwr.refLost = true) → step s = .next s) ∧
  (∀ (img : List Byte) (ok : Bool) (s : State), s.pending = [] → s.supply.standby = true → s.pwr.refLost = false → s.noSteps →
    s.sched.retest = false → s.sec.enrolling = none → s.sec.tmbWaiting = none → s.sec.installing = some (img, ok) →
    s.pwr.phase = .mission →
    ∃ t, step s = .next t ∧ t.sec.installing = none ∧ t.sec.ownedFuse = s.sec.ownedFuse ∧ t.sec.rollbackFused = s.sec.rollbackFused ∧
      (ok = true → t.sec.flashImage = img ∧ t.pwr.phase = .powerUp ∧ t.pwr.recovery = false ∧ t.wa = WeftDie.reset ∧
        t.wb = WeftDie.reset ∧ t.ctxs = [] ∧ t.pins.faultN = s.pins.faultN) ∧
      (ok = false → t.sec.flashImage = s.sec.flashImage ∧ fld (t.reg oBoot) 7 6 = 3 ∧ t.pwr = s.pwr ∧ t.ctxs = s.ctxs)) ∧
  (∀ (bs : List Byte) (s : State), s.pending = [] → s.supply.standby = true → s.pwr.refLost = false → s.noSteps →
    s.sched.retest = false → s.sec.enrolling = some bs → s.sec.tmbWaiting = none → s.sec.installing = none → s.posted = [] →
    s.readQ = [] →
    ∃ t, step s = .next t ∧ t.sec = { s.sec with
        owner1 := bs, ownedFuse := true, owner := some (parseOwner bs), owk := s.sec.unwrapOwk bs, enrolling := none, tmbResult := 0 } ∧
      (s.lifecycle = 0 → t.debugLevel = 0) ∧ t.pwr = s.pwr ∧ t.ctxs = s.ctxs)

/-! ### Insertion, input and removal -/

/-- R360.  A low PRSNT1_N starts the debounce; its expiry ramps the switch when the input is within its limits; a high level starts the
debounce again.
R358 (log entry 24).  A tripped breaker is closed for the next insertion.
R360, R397.  With the standby rail up the Keeper domain leaves cold reset into Off: every register is at its reset value, every table
and memory of the mission domains is empty, and fuses, flash and EEPROM are as they were. -/
def Obligations.InsertionBringsColdReset : Prop :=
  (∀ s : State, s.pins.prsnt1Low = false → s.supply.ramped = false →
    exec .prsnt1Low s = .next { s with
      pins := { s.pins with prsnt1Low := true }, supply := { s.supply with debounce := true, filter := false } }) ∧
  (∀ s : State, s.pins.prsnt1Low = true → s.supply.debounce = true → s.supply.cut = .none →
    exec .prsnt1DebounceExpiry s = .next { s with supply := { s.supply with debounce := false, ramped := true } }) ∧
  (∀ s : State, s.supply.standby = false →
    exec .prsnt1High s = .next { s with
      pins := { s.pins with prsnt1Low := false }
      supply := { s.supply with
        debounce := false, ramped := false, filter := false
        cut := if s.supply.cut = .breaker then .none else s.supply.cut } }) ∧
  (∀ s : State, s.supply.ramped = true → s.supply.standby = false → s.pins.pwrEn = false →
    ∃ t, exec .standbyRailUp s = .next t ∧ t.supply.standby = true ∧ t.pwr = State.reset.pwr ∧ t.time = State.reset.time ∧
      t.regs = [] ∧ t.fnRegs = [] ∧ t.ctxs = [] ∧ t.rings = [] ∧ t.steps = [] ∧ t.drafts = [] ∧ t.recipes = [] ∧
      t.wa = WeftDie.reset ∧ t.wb = WeftDie.reset ∧ t.hasp = State.reset.hasp ∧ t.pins.faultN = false ∧ t.pins.alive = false ∧
      (t.sec.ownedFuse = s.sec.ownedFuse ∧ t.sec.returnedFuse = s.sec.returnedFuse ∧ t.sec.toggles = s.sec.toggles ∧
        t.sec.rollbackFused = s.sec.rollbackFused ∧ t.sec.revoked = s.sec.revoked ∧ t.sec.flashImage = s.sec.flashImage ∧
        t.sec.owner0 = s.sec.owner0 ∧ t.sec.owner1 = s.sec.owner1 ∧ t.sec.eeprom = s.sec.eeprom ∧
        t.sec.romRoot = s.sec.romRoot ∧ t.sec.romVendor = s.sec.romVendor) ∧
      ((∀ x ∈ s.steps, x.stage ≠ .delivering) → t.hostMemA = s.hostMemA ∧ t.hostMemB = s.hostMemB) ∧ t.pending = s.pending)

/-- R358, R359.  Undervoltage, overvoltage and the breaker cut the input: every rail goes, and the module is unpowered with its fuses and
flash kept; after an under- or overvoltage turn-off the input turns on again.
R362, R363, R354, R376.  A high PRSNT1_N that outlasts the filter is a removal: every port is down, ALIVE is low, FAULT_N of the absent
module reads high, the removal source is captured, and the module is unpowered. -/
def Obligations.LostInputOrRemovalUnpowersTheModule : Prop :=
  (∀ (c : Instr) (k : InputCut),
    (c = .inputUndervoltage ∧ k = .under) ∨ (c = .inputOvervoltage ∧ k = .over) ∨ (c = .electronicBreakerTrip ∧ k = .breaker) →
    ∀ s : State, ∃ t, exec c s = .next t ∧ t.supply.cut = k ∧ t.supply.standby = false ∧ t.supply.ramped = false ∧
      t.pwr.phase = .unpowered ∧ t.ctxs = [] ∧ t.steps = [] ∧ t.drafts = [] ∧ t.wa = WeftDie.reset ∧ t.wb = WeftDie.reset ∧
      t.pins.wakeN = false ∧ t.sec.ownedFuse = s.sec.ownedFuse ∧ t.sec.toggles = s.sec.toggles ∧
      t.sec.returnedFuse = s.sec.returnedFuse ∧ t.sec.rollbackFused = s.sec.rollbackFused ∧
      t.sec.flashImage = s.sec.flashImage ∧ ((∀ x ∈ s.steps, x.stage ≠ .delivering) → t.hostMemA = s.hostMemA ∧ t.hostMemB = s.hostMemB)) ∧
  (∀ s : State, (s.supply.cut = .under ∨ s.supply.cut = .over) → s.pins.prsnt1Low = true → s.supply.debounce = false →
    exec .inputTurnOn s = .next { s with supply := { s.supply with cut := .none, ramped := true } }) ∧
  (∀ s : State, s.pins.prsnt1Low = true → s.supply.standby = true →
    exec .prsnt1High s = .next { s with
      pins := { s.pins with prsnt1Low := false }
      supply := { s.supply with
        debounce := false, filter := true, cut := if s.supply.cut = .breaker then .none else s.supply.cut } }) ∧
  (∀ s : State, s.supply.filter = true → s.pins.prsnt1Low = false → s.silent 0x001 →
    ∃ t, exec .removalDeclared s = .next t ∧ t.pins.faultN = false ∧ t.pins.alive = false ∧ t.supply.removed = true ∧
      t.supply.standby = false ∧ t.pwr.phase = .unpowered ∧ t.portA.up = false ∧ t.portB.up = false ∧ t.portS.up = false ∧
      t.ctxs = [] ∧ t.steps = [] ∧ t.drafts = [] ∧ t.captured 0x001 (cap none noMaster 0 0 0) ∧
      ((∀ x ∈ s.steps, x.stage ≠ .delivering) → t.hostMemA = s.hostMemA ∧ t.hostMemB = s.hostMemB) ∧ t.sec.ownedFuse = s.sec.ownedFuse)

/-- R519, R375, KPR_MOD_STATUS, KPR_TEMP.  A measurement is recorded; a junction at 105 °C or more with mission power raises the thermal warning
source. -/
def Obligations.MeasurementsAreRecorded : Prop :=
  (∀ (vin : Byte) (pin : BitVec 16) (board : Byte) (s : State), s.supply.standby = true →
    ∃ t, exec (.inputPowerUpdate vin pin board) s = .next t ∧
      t.sameButCounters { s with supply := { s.supply with vin := vin, pin := pin, tempBoard := board } } ∧
      ctrGet t.ctr.aon 15 = BitVec.ofNat 48 ((ctrGet s.ctr.aon 15).toNat + pin.toNat)) ∧
  (∀ (d : Die) (r : Byte) (s : State), s.supply.standby = true → 169 ≤ r.toNat → s.pwr.phase = .mission → s.silent 0x004 →
    ∃ t, exec (.thermalWarning d r) s = .next t ∧ t.sameButHealth { s with supply := s.supply.setTemp d r } ∧
      t.captured 0x004 (cap none noMaster 0 0 0))

/-! ### Power -/

/-- R361, R393, R375.  A PWR_EN rise in Off starts the rail sequence; after a thermal trip only with PWR_EN low for 10 ms before and every
junction below 95 °C (KPR_TEMP 159), and after a rail fault or the ladder only with the 10 ms.
R394, R395, R371.  Rails come up one at a time, at most seven; on the way down each step switches the next group off; Off is reached
after the sixth step; WAKE_N times out.
R393, R395.  PWR_EN low for 10 µs with mission power takes the module down: links, contexts, steps, tables and the Weft dies are gone,
and ALIVE is low; in Off it changes only the qualification.
R488, R494, R512.  An install or an enrolment under way then ends with the flash copies as they are.
R379.  With the reference lost neither time passes. -/
def Obligations.RailsFollowPwrEn : Prop :=
  (∀ (low : Bool) (ts ta tb : Byte) (s : State), s.pins.pwrEn = false → s.pwr.phase = .off →
    (s.pwr.lockout = .none ∨
      (low = true ∧ (s.pwr.lockout = .thermal → ts.toNat < 159 ∧ ta.toNat < 159 ∧ tb.toNat < 159)) →
      exec (.pwrEnRise low ts ta tb) s = .next { s with
        pins := { s.pins with pwrEn := true }
        supply := { s.supply with tempS := ts, tempA := ta, tempB := tb }
        pwr := { s.pwr with lowQual := false, phase := .powerUp, rails := 0, lockout := .none } }) ∧
    (s.pwr.lockout ≠ .none →
      (low = false ∨ (s.pwr.lockout = .thermal ∧ (159 ≤ ts.toNat ∨ 159 ≤ ta.toNat ∨ 159 ≤ tb.toNat))) →
      exec (.pwrEnRise low ts ta tb) s = .next { s with
        pins := { s.pins with pwrEn := true }
        supply := { s.supply with tempS := ts, tempA := ta, tempB := tb }
        pwr := { s.pwr with lowQual := false } })) ∧
  (∀ s : State, s.pwr.phase = .powerUp → s.pwr.rails < 7 →
    exec .railInRegulation s = .next { s with pwr := { s.pwr with rails := s.pwr.rails + 1 } }) ∧
  (∀ s : State, s.pwr.phase = .powerDown → s.pwr.downStage < 5 →
    exec .powerDownStep s = .next { s with pwr := { s.pwr with
      downStage := s.pwr.downStage + 1, rails := min s.pwr.rails (6 - s.pwr.downStage) } }) ∧
  (∀ s : State, s.pwr.phase = .powerDown → s.pwr.downStage = 5 →
    exec .powerDownStep s = .next { s with pwr := { s.pwr with downStage := 6, rails := 0 } }) ∧
  (∀ s : State, s.pwr.phase = .powerDown → s.pwr.downStage = 6 → s.pins.pwrEn = false →
    exec .offReached s = .next { s with pwr := { s.pwr with phase := .off, rails := 0, downStage := 0 } }) ∧
  (∀ s : State, s.pwr.phase = .powerDown → s.pwr.downStage = 6 → s.pins.pwrEn = true → s.pwr.lockout = .none →
    exec .offReached s = .next { s with pwr := { s.pwr with phase := .powerUp, rails := 0, downStage := 0 } }) ∧
  (∀ s : State, s.pwr.refLost = false → exec .wakeNTimeout s = .next { s with pins := { s.pins with wakeN := false } }) ∧
  (∀ s : State, s.pins.pwrEn = true → s.supply.standby = true →
    exec .pwrEnFall s = .next { s with pins := { s.pins with pwrEn := false }, pwr := { s.pwr with lowQual := true } }) ∧
  (∀ s : State, s.pwr.lowQual = true → s.pins.pwrEn = false → s.pwr.refLost = false → s.pwr.phase = .off →
    exec .pwrEnLowTimeout s = .next { s with pwr := { s.pwr with lowQual := false } }) ∧
  (∀ s : State, s.pwr.lowQual = true → s.pins.pwrEn = false → s.pwr.refLost = false → (s.pwr.phase = .powerUp ∨ s.pwr.phase = .mission) →
    ∃ t, exec .pwrEnLowTimeout s = .next t ∧ t.pwr.phase = .powerDown ∧ t.pwr.downStage = 0 ∧ t.pwr.lockout = .none ∧
      t.pwr.ready = false ∧ t.pwr.firmware = false ∧ t.pins.alive = false ∧ t.ctxs = [] ∧ t.rings = [] ∧ t.steps = [] ∧
      t.posted = [] ∧ t.readQ = [] ∧ t.drafts = [] ∧ t.recipes = [] ∧ t.wa = WeftDie.reset ∧ t.wb = WeftDie.reset ∧
      t.portA.up = false ∧ t.portB.up = false ∧ t.portS.up = false ∧ t.sec.flashImage = s.sec.flashImage ∧
      t.sec.installing = none ∧ t.sec.enrolling = none) ∧
  (∀ s : State, s.pwr.refLost = true → exec .wakeNTimeout s = .next s ∧ exec .pwrEnLowTimeout s = .next s)

/-- R375, R396.  A junction at 115 °C or more, or a rail fault, takes the module to Off with FAULT_N asserted and its source captured;
leaving Off then needs PWR_EN low first. -/
def Obligations.TripsTakeTheModuleToOff : Prop :=
  (∀ (d : Die) (r : Byte) (s : State), s.supply.standby = true → 179 ≤ r.toNat → (s.pwr.phase = .powerUp ∨ s.pwr.phase = .mission) →
    s.silent 0x005 → s.portA.up = false → s.portB.up = false → s.portS.up = false →
    ∃ t, exec (.thermalTrip d r) s = .next t ∧ t.pwr.phase = .powerDown ∧ t.pwr.lockout = .thermal ∧ t.pwr.thermalTrip = true ∧
      t.pins.faultN = true ∧ t.pins.alive = false ∧ t.ctxs = [] ∧ t.steps = [] ∧ t.drafts = [] ∧ t.wa = WeftDie.reset ∧
      t.wb = WeftDie.reset ∧ t.supply = s.supply.setTemp d r ∧ t.captured 0x005 (cap none noMaster 0 0 0)) ∧
  (∀ s : State, (s.pwr.phase = .powerUp ∨ s.pwr.phase = .mission) → s.silent 0x002 → s.portA.up = false → s.portB.up = false →
    s.portS.up = false →
    ∃ t, exec .railFault s = .next t ∧ t.pwr.phase = .powerDown ∧ t.pwr.lockout = .rail ∧ t.pins.faultN = true ∧
      t.pins.alive = false ∧ t.ctxs = [] ∧ t.steps = [] ∧ t.drafts = [] ∧ t.wa = WeftDie.reset ∧ t.wb = WeftDie.reset ∧
      t.captured 0x002 (cap none noMaster 0 0 0))

/-- R394, R397, R485, R487.  At power good with seven rails up the mission domains leave reset and the module's Tick clock and energy counters
start at 0; a slot image that passes the boot checks puts its manifest in force, and one that fails takes the module to Recovery with the
first failing check as the cause; recovery_req takes it there with cause 7. -/
def Obligations.PowerGoodRunsTheBootChecks : Prop :=
  (∀ s : State, s.pwr.phase = .powerUp → s.pwr.rails = 7 → bitW (s.reg oBoot) 4 = false → s.portS.up = false →
    ∃ t, exec .powerGood s = .next t ∧ t.pwr.phase = .mission ∧ t.pwr.bootT0 = s.time.now ∧ t.pwr.firmware = s.pwr.firmware ∧
      ctrGet t.ctr.aon 0 = 0 ∧ ctrGet t.ctr.aon 15 = 0 ∧ (∀ i, i ≠ 0 → i ≠ 15 → ctrGet t.ctr.aon i = ctrGet s.ctr.aon i) ∧
      t.ctr.prog = s.ctr.prog ∧ t.ctxs = s.ctxs ∧ t.drafts = s.drafts ∧ t.steps = s.steps ∧ t.regs = s.regs ∧
      (if imageCause s.sec s.sec.flashImage = 0 then
        t.pwr.stage = 1 ∧ t.pwr.recovery = s.pwr.recovery ∧ t.pwr.bootCause = s.pwr.bootCause ∧
          t.sec = { s.sec with manifest := parseManifest s.sec.flashImage } ∧ t.hasp = s.hasp ∧ t.pins = s.pins ∧ t.wa = s.wa ∧
          t.wb = s.wb
      else
        t.pwr.recovery = true ∧ t.pwr.bootCause = imageCause s.sec s.sec.flashImage ∧ t.sec = s.sec ∧
          t.hasp.supPending = addSet s.hasp.supPending 1 ∧ t.pins.wakeN = (s.pins.wakeN || s.pins.anyPerst) ∧
          t.wa.beamGrp = s.wa.beamGrp.wake ∧ t.wb = s.wb)) ∧
  (∀ s : State, s.pwr.phase = .powerUp → s.pwr.rails = 7 → bitW (s.reg oBoot) 4 = true → s.portS.up = false →
    ∃ t, exec .powerGood s = .next t ∧ t.pwr.phase = .mission ∧ t.pwr.recovery = true ∧ t.pwr.bootCause = 7 ∧ t.sec = s.sec ∧
      t.hasp.supPending = addSet s.hasp.supPending 1)

/-! ### Clocks, time and pins -/

/-- R379, R354, R355.  A lost reference or a missing heartbeat asserts FAULT_N and drives ALIVE low; ALIVE toggles while it runs.
R380.  A PLL that loses lock raises the clock source of its die with the PLL's code, the count of losses rises to at most 255, and the
other locks stay; a PLL that is meant to run locks again (Creel
then works on what waits in its input queues, of which this speaks only when there is nothing). -/
def Obligations.LostClocksShowOnPinsAndSources : Prop :=
  (∀ s : State, s.supply.standby = true →
    exec .referenceLost s = .next { s with
      pwr := { s.pwr with refLost := true }, pins := { s.pins with faultN := true, alive := false, aliveRun := false } }) ∧
  (∀ s : State, s.pwr.heartbeat = true →
    exec .heartbeatMissing s = .next { s with
      pwr := { s.pwr with heartbeat := false }, pins := { s.pins with faultN := true, alive := false, aliveRun := false } }) ∧
  (∀ s : State, s.pins.aliveRun = true → s.pwr.heartbeat = true →
    exec .aliveToggle s = .next { s with pins := { s.pins with alive := !s.pins.alive } }) ∧
  (∀ (p : Pll) (n : Nat) (s : State), s.clk.locked p = true →
    (n = match pllDie p with | none => 0x003 | some .a => 0x129 | some .b => 0x229) → s.silent n →
    ∃ t, exec (.pllLockLoss p) s = .next t ∧ t.clk.locked p = false ∧ (∀ q, q ≠ p → t.clk.locked q = s.clk.locked q) ∧
      t.clk.losses.toNat = min 255 (s.clk.losses.toNat + 1) ∧ t.captured n (cap none noMaster 0 0 (pllBit p)) ∧
      State.sameButHealth { t with clk := s.clk } s) ∧
  (∀ (p : Pll) (s : State), s.clk.locked p = false → s.pllMeant p = true → (∀ x ∈ s.slots, x.input = []) →
    ∃ t, exec (.pllRelock p) s = .next t ∧ t.clk.locked p = true ∧ (∀ q, q ≠ p → t.clk.locked q = s.clk.locked q) ∧
      t.clk.losses = s.clk.losses ∧ { t with clk := s.clk } = s)

/-- R370, R369.  The selected SYNC_IN edge captures device time to its 40 ns quarter and sets the captured bit, and overrun when a capture
was held; SYNC_OUT rises at the phase and falls at the width.
R339, R340, R341, R213.  A dialogue with the selected source records its offset; a locked clock slews an offset of at most 1 ms away; a
clock that has lost its lock is locked again by the eighth offset in a row within 1 µs, and the first lock steps device time forward to a source that is ahead; a failed dialogue starts the count again; a source that fails puts time into holdover and raises its source. -/
def Obligations.TimeFollowsItsSourceAndSyncPins : Prop :=
  (∀ (rising : Bool) (q : Nat) (s : State), q < 4 → s.time.now.toNat < 2 ^ 63 → bitW (s.reg oSyncCtl) 1 = true →
    (bitW (s.reg oSyncCtl) 2 != rising) = true →
    ((bitW (s.reg oSyncStatus) 0 = false ∧ s.syncInTime = 0) ∨ 1000 < s.time.now.toNat + 40 * q - s.syncInTime) →
    ∃ t, exec (.syncInEdge rising q) s = .next t ∧ t.syncInTime = s.time.now.toNat + 40 * q ∧
      bitW (t.reg oSyncStatus) 0 = true ∧ (bitW (s.reg oSyncStatus) 0 = true → bitW (t.reg oSyncStatus) 1 = true) ∧
      { t with regs := s.regs } = s ∧ ∀ o, o ≠ 0x230 → o ≠ 0x234 → o ≠ oSyncStatus → t.reg o = s.reg o) ∧
  (∀ s : State, bitW (s.reg oSyncCtl) 0 = true → s.syncPeriod ≠ 0 → s.syncWidth ≠ 0 → s.syncSince = 0 → s.pwr.phase = .mission →
    exec .syncOutRise s = .next { s with pins := { s.pins with syncOut := true } }) ∧
  (∀ s : State, s.pins.syncOut = true → s.syncWidth ≤ s.syncSince →
    exec .syncOutFall s = .next { s with pins := { s.pins with syncOut := false } }) ∧
  (∀ (p : HostPort) (o : Int) (s : State), s.timeSource = 2 + portPart p → (s.hport p).up = true → s.time.lock = 2 →
    o.natAbs ≤ 1000000 →
    ∃ t, exec (.ptmDialogue p (some o)) s = .next t ∧ t.time.offset = BitVec.ofInt 32 o ∧ t.time.slew = -o ∧ t.time.lock = 2 ∧
      t.time.now = s.time.now ∧ { t with time := s.time } = s) ∧
  (∀ (p : HostPort) (o : Int) (s : State), s.timeSource = 2 + portPart p → (s.hport p).up = true → s.time.lock ≠ 2 →
    s.time.everLocked = true → s.time.good = 7 → o.natAbs ≤ 1000 →
    ∃ t, exec (.ptmDialogue p (some o)) s = .next t ∧ t.time.lock = 2 ∧ t.time.slew = -o ∧ t.time.now = s.time.now ∧
      { t with time := s.time } = s) ∧
  (∀ (p : HostPort) (o : Int) (s : State), s.timeSource = 2 + portPart p → (s.hport p).up = true → s.time.lock ≠ 2 →
    s.time.everLocked = true → s.time.good < 7 → o.natAbs ≤ 1000 →
    ∃ t, exec (.ptmDialogue p (some o)) s = .next t ∧ t.time.lock = 1 ∧ t.time.good = s.time.good + 1 ∧ t.time.now = s.time.now ∧
      { t with time := s.time } = s) ∧
  (∀ (p : HostPort) (o : Int) (s : State), s.timeSource = 2 + portPart p → (s.hport p).up = true → s.time.lock ≠ 2 →
    s.time.everLocked = false → 0 < s.time.good → o.natAbs ≤ 1000 →
    ∃ t, exec (.ptmDialogue p (some o)) s = .next t ∧ { t with time := s.time } = s ∧ t.time.good = s.time.good + 1 ∧
      (s.time.good < 7 → t.time.lock = s.time.lock ∧ t.time.now = s.time.now) ∧
      (7 ≤ s.time.good → t.time.lock = 2 ∧ t.time.everLocked = true ∧
        (o < 0 → t.time.now = s.time.now + BitVec.ofInt 64 (-o) ∧ t.time.slew = 0) ∧
        (0 ≤ o → t.time.now = s.time.now ∧ t.time.slew = -o))) ∧
  (∀ (p : HostPort) (s : State), s.timeSource = 2 + portPart p → (s.hport p).up = true →
    exec (.ptmDialogue p none) s = .next { s with time := { s.time with good := 0 } }) ∧
  (∀ (e : Nat) (o : Int) (s : State), s.timeSource = 1 → fld (s.reg oTimeCtl) 3 2 = e → bitW (s.reg (oPortCtl (0x18 + e))) 0 = true →
    s.time.lock = 2 → o.natAbs ≤ 1000000 →
    ∃ t, exec (.gptpFrame e (some o)) s = .next t ∧ t.time.offset = BitVec.ofInt 32 o ∧ t.time.slew = -o ∧ t.time.lock = 2 ∧
      t.time.now = s.time.now ∧ { t with time := s.time } = s) ∧
  (∀ s : State, s.timeSource ≠ 0 → s.time.failed = false → s.silent 0x006 →
    ∃ t, exec .timeSourceFail s = .next t ∧ t.time = { s.time with lock := 3, good := 0, slew := 0, failed := true } ∧
      t.captured 0x006 (cap none noMaster 0 0 0) ∧ State.sameButHealth { t with time := s.time } s)

/-- R353.  The EEPROM answers reads at address 0x50 while the standby rail is up, byte by byte with the offset wrapping at 256, and
acknowledges nothing else. -/
def Obligations.EepromAnswersReadsOnly : Prop :=
  (∀ (off n : Nat) (s : State), s.supply.standby = true →
    ∃ t, exec (.smbusEepromRead 0x50#7 true off n) s = .next t ∧ t.sec.smbAck = true ∧ t.sec.smbData.length = n ∧
      (∀ i, i < n → t.sec.smbData.getD i 0 = s.sec.eeprom.getD ((off + i) % 256) 0) ∧
      { t with sec := s.sec } = s ∧ { t.sec with smbAck := s.sec.smbAck, smbData := s.sec.smbData } = s.sec) ∧
  (∀ (a : BitVec 7) (r : Bool) (off n : Nat) (s : State), (s.supply.standby = false ∨ a ≠ 0x50#7 ∨ r = false) →
    exec (.smbusEepromRead a r off n) s = .next { s with sec := { s.sec with smbAck := false, smbData := [] } })

/-! ### Host and supervisor ports -/

/-- R344, R346, R361, R371.  A lost host link downs its port and counts the loss, raises the port's link-down source, and returns the
functions of that port alone to their FLR values; PERST# does the same, and its release only moves the pin. -/
def Obligations.HostLinkLossResetsItsPort : Prop :=
  (∀ (p : HostPort) (s : State), (s.hport p).up = true → (∀ c ∈ s.ctxs, c.fn.port ≠ p) → s.timeSource ≠ 2 + portPart p →
    s.silent (0x18 + portPart p) → s.portS.up = false →
    ∃ t, exec (.hostLinkLoss p) s = .next t ∧ (t.hport p).up = false ∧ (t.hport p).numVfs = 0 ∧ (t.hport p).closing = false ∧
      (t.hport p).downCount.toNat = min 255 ((s.hport p).downCount.toNat + 1) ∧
      (t.hport p).recoveryCount = (s.hport p).recoveryCount ∧ t.captured (0x18 + portPart p) (cap none noMaster 0 0 0) ∧
      2 ∈ t.hasp.supPending ∧ (∀ f o, f.port = p → f.num < 32 → o < 0x1000 → t.fnReg f o = 0) ∧
      (∀ f o, f.port ≠ p → f.num < 32 → o < 0x1000 → t.fnReg f o = s.fnReg f o) ∧
      (∀ f, f.port = p → t.msix.enabled.contains (.fn f) = false) ∧ (∀ l ∈ t.latches, heldByPort p l = false) ∧
      State.sameButHealth { t with
        portA := s.portA, portB := s.portB, fnRegs := s.fnRegs, msix := s.msix, flrBusy := s.flrBusy,
        eventLost := s.eventLost, latches := s.latches } s ∧
      (∀ q, q ≠ p → t.hport q = s.hport q)) ∧
  (∀ (p : HostPort) (s : State), (s.hport p).up = false → s.pins.wakeN = false →
    ∃ t, exec (.perstAssert (asPort p)) s = .next t ∧ t.pins.perst (asPort p) = true ∧ { t with pins := s.pins } = s) ∧
  (∀ (p : HostPort) (s : State), (s.hport p).up = true →
    exec (.perstAssert (asPort p)) s = exec (.hostLinkLoss p) (s.setPerst (asPort p) true)) ∧
  (∀ (p : Port) (s : State), ∃ t, exec (.perstDeassert p) s = .next t ∧ t.pins.perst p = false ∧ { t with pins := s.pins } = s ∧
    (t.pins.anyPerst = false → t.pins.wakeN = false))

/-- R346, R342, R343.  A host link comes up 100 ms after power good with its functions at their FLR values; it is degraded below eight
lanes, 32 GT/s or a payload of 256 bytes, with the source raised once, and restored at full width; recoveries are counted. -/
def Obligations.HostLinkComesUpAndDegrades : Prop :=
  (∀ (p : HostPort) (w sp mps : Nat) (s : State), s.mayTrain (asPort p) = true → s.pwr.firmware = true → (s.hport p).up = false →
    8 ≤ w → 5 ≤ sp → 256 ≤ mps → s.portS.up = false →
    exec (.hostLinkUp p w sp mps false) s = .next { (s.modHport p (fun x =>
        { x with up := true, width := w, speed := sp, mps := mps, numVfs := 0, degraded := false })) with
      hasp := { s.hasp with supPending := addSet s.hasp.supPending 2 } }) ∧
  (∀ (p : HostPort) (w sp mps : Nat) (s : State), s.mayTrain (asPort p) = true → s.pwr.firmware = true → (s.hport p).up = false →
    (w < 8 ∨ sp < 5 ∨ mps < 256) → s.silent (0x1A + portPart p) → s.portS.up = false →
    ∃ t, exec (.hostLinkUp p w sp mps true) s = .next t ∧
      t.hport p = { s.hport p with up := true, width := w, speed := sp, mps := mps, numVfs := 0, degraded := true } ∧
      t.msix.enabled.contains (.fn { port := p, num := 0 }) = true ∧ 2 ∈ t.hasp.supPending ∧
      t.captured (0x1A + portPart p) (cap none noMaster 0 0 0) ∧ (∀ q, q ≠ p → t.hport q = s.hport q) ∧
      { t with portA := s.portA, portB := s.portB, hasp := s.hasp, msix := s.msix, regs := s.regs, ctr := s.ctr } = s) ∧
  (∀ (p : HostPort) (w sp mps : Nat) (s : State), (s.hport p).up = true → (s.hport p).degraded = true →
    (w < 8 ∨ sp < 5 ∨ mps < 256) →
    exec (.hostLinkDegraded p w sp mps) s = .next (s.modHport p (fun x => { x with width := w, speed := sp, mps := mps }))) ∧
  (∀ (p : HostPort) (w sp mps : Nat) (s : State), (s.hport p).up = true → (s.hport p).degraded = false →
    (w < 8 ∨ sp < 5 ∨ mps < 256) → s.silent (0x1A + portPart p) → s.portS.up = false →
    ∃ t, exec (.hostLinkDegraded p w sp mps) s = .next t ∧
      t.hport p = { s.hport p with width := w, speed := sp, mps := mps, degraded := true } ∧ 2 ∈ t.hasp.supPending ∧
      t.captured (0x1A + portPart p) (cap none noMaster 0 0 0) ∧ (∀ q, q ≠ p → t.hport q = s.hport q) ∧
      { t with portA := s.portA, portB := s.portB, hasp := s.hasp, regs := s.regs, ctr := s.ctr } = s) ∧
  (∀ (p : HostPort) (mps : Nat) (s : State), (s.hport p).up = true → (s.hport p).degraded = true → 256 ≤ mps →
    exec (.hostLinkRestored p mps) s = .next (s.modHport p (fun x => { x with width := 8, speed := 5, mps := mps, degraded := false }))) ∧
  (∀ (p : HostPort) (s : State), (s.hport p).up = true →
    ∃ t, exec (.hostLinkRecovery p) s = .next t ∧
      (t.hport p).recoveryCount.toNat = min 255 ((s.hport p).recoveryCount.toNat + 1) ∧
      { t.hport p with recoveryCount := (s.hport p).recoveryCount } = s.hport p ∧
      { t with portA := s.portA, portB := s.portB } = s ∧ ∀ q, q ≠ p → t.hport q = s.hport q)

/-- R348, R338.  The supervisor link's loss resets only the supervisor function and raises source 0x007, which is held until the link is up
again; at link-up the held vectors go out. -/
def Obligations.SupervisorLinkHoldsItsVectors : Prop :=
  (∀ s : State, s.portS.up = true → s.silent 0x007 →
    ∃ t, exec .supervisorLinkLoss s = .next t ∧ t.portS.up = false ∧ t.portS.downCount.toNat = min 255 (s.portS.downCount.toNat + 1) ∧
      t.msix.enabled.contains .sup = false ∧ 2 ∈ t.hasp.supPending ∧ t.captured 0x007 (cap none noMaster 0 0 0) ∧
      State.sameButHealth { t with portS := s.portS, msix := s.msix } s) ∧
  (∀ s : State, s.mayTrain .sup = true → (s.pwr.firmware = true ∨ s.pwr.recovery = true) → s.portS.up = false →
    s.msix.enabled.contains .sup = false →
    exec (.supervisorLinkUp false) s = .next { s with
      portS := { s.portS with up := true, width := 1, speed := 2 }, hasp := { s.hasp with supPending := [] } }) ∧
  (∀ s : State, s.mayTrain .sup = true → (s.pwr.firmware = true ∨ s.pwr.recovery = true) → s.portS.up = false →
    (∀ v ∈ 2 :: s.hasp.supPending, s.msix.unmasked.contains { fn := .sup, vector := v } = true) →
    ∃ t, exec (.supervisorLinkUp true) s = .next t ∧ t.portS = { s.portS with up := true, width := 1, speed := 2 } ∧
      t.msix.sent = s.msix.sent ++ (s.hasp.supPending ++ [2]).map (fun v => { fn := .sup, vector := v }) ∧
      t.msix.enabled.contains .sup = true ∧ t.hasp = { s.hasp with supPending := [] } ∧
      State.sameButCounters { t with portS := s.portS, msix := s.msix, hasp := s.hasp } s)

/-- R327, R328, R335, R336.  VF Enable makes VFs 1 to NumVFs exist; an FLR of a function without contexts returns its window to 0, frees its
latches and masks its vectors, and that of a PF takes its VFs too; after it the host may enable MSI-X again; a masked vector that is pending is sent when it is unmasked; a poisoned write is discarded and captured. -/
def Obligations.FunctionsResetAndVectors : Prop :=
  (∀ (p : HostPort) (n : Nat) (s : State), s.fnLive { port := p, num := 0 } = true → (s.hport p).numVfs = 0 → 1 ≤ n → n ≤ 31 →
    exec (.vfEnableSet p n false) s = .next (s.modHport p (fun x => { x with numVfs := n }))) ∧
  (∀ (p : HostPort) (n : Nat) (s : State), s.fnLive { port := p, num := 0 } = true → (s.hport p).numVfs = 0 → 1 ≤ n → n ≤ 31 →
    ∃ t, exec (.vfEnableSet p n true) s = .next t ∧ t.hport p = { s.hport p with numVfs := n } ∧
      (∀ k, 1 ≤ k → k ≤ n → t.msix.enabled.contains (.fn { port := p, num := k }) = true) ∧
      { t with portA := s.portA, portB := s.portB, msix := s.msix } = s) ∧
  (∀ (p : HostPort) (s : State), s.fnLive { port := p, num := 0 } = true → (∀ c ∈ s.ctxs, c.fn.port ≠ p) →
    ∃ t, exec (.vfEnableClear p) s = .next t ∧ (t.hport p).numVfs = 0 ∧
      (∀ n o, 1 ≤ n → n ≤ (s.hport p).numVfs → n < 32 → o < 0x1000 → t.fnReg { port := p, num := n } o = 0) ∧
      { t with portA := s.portA, portB := s.portB, fnRegs := s.fnRegs, msix := s.msix, eventLost := s.eventLost,
               latches := s.latches, flrBusy := s.flrBusy } = s) ∧
  (∀ (f : FnId) (s : State), s.fnLive f = true → f.num ≠ 0 → f.num < 32 → (∀ c ∈ s.ctxs, c.fn ≠ f) →
    ∃ t, exec (.flr f) s = .next t ∧ (∀ o, o < 0x1000 → t.fnReg f o = 0) ∧
      (∀ g o, g ≠ f → g.num < 32 → o < 0x1000 → t.fnReg g o = s.fnReg g o) ∧ f ∈ t.flrBusy ∧
      t.msix.enabled.contains (.fn f) = false ∧ (∀ l ∈ t.latches, l.2 ≠ .host f) ∧
      { t with fnRegs := s.fnRegs, msix := s.msix, eventLost := s.eventLost, latches := s.latches, flrBusy := s.flrBusy } = s) ∧
  (∀ (f : FnId) (s : State), s.fnLive f = true → f.num = 0 → (∀ c ∈ s.ctxs, c.fn.port ≠ f.port) →
    ∃ t, exec (.flr f) s = .next t ∧ (t.hport f.port).numVfs = 0 ∧ f ∈ t.flrBusy ∧ (∀ o, o < 0x1000 → t.fnReg f o = 0) ∧
      t.msix.enabled.contains (.fn f) = false ∧ (∀ l ∈ t.latches, l.2 ≠ .host f) ∧
      { t with portA := s.portA, portB := s.portB, fnRegs := s.fnRegs, msix := s.msix, eventLost := s.eventLost,
               latches := s.latches, flrBusy := s.flrBusy } = s) ∧
  (∀ (f : FnId) (m : Bool) (s : State), f ∈ s.flrBusy →
    ∃ t, exec (.flrComplete f m) s = .next t ∧ f ∉ t.flrBusy ∧ (∀ g, g ≠ f → (g ∈ t.flrBusy ↔ g ∈ s.flrBusy)) ∧
      (m = true → s.fnExists f = true → t.msix.enabled.contains (.fn f) = true) ∧ (m = false → t.msix = s.msix) ∧
      { t with flrBusy := s.flrBusy, msix := s.msix } = s) ∧
  (∀ (f : FnId) (m : Bool) (s : State), f ∉ s.flrBusy → exec (.flrComplete f m) s = .next s) ∧
  (∀ (f : IrqFn) (v : Nat) (s : State), s.irqLive f = true → v < irqVectors f →
    s.msix.pending.contains { fn := f, vector := v } = true → s.msix.enabled.contains f = true →
    ∃ t, exec (.msixVectorUnmask f v) s = .next t ∧ t.msix.sent = s.msix.sent ++ [{ fn := f, vector := v }] ∧
      t.msix.pending.contains { fn := f, vector := v } = false ∧ t.msix.unmasked.contains { fn := f, vector := v } = true ∧
      State.sameButCounters { t with msix := s.msix } s) ∧
  (∀ (f : FnId) (off : Nat) (s : State), s.fnExists f = true → s.silent (0x1C + portPart f.port) →
    ∃ t, exec (.poisonedBarWrite f off) s = .next t ∧ t.sameButHealth s ∧
      t.captured (0x1C + portPart f.port) (cap none (fnMaster f) 2 (BitVec.ofNat 64 off) 4))

/-! ### Boot -/

/-- R545, R371, R491, R498.  Once the boot checks pass, Keeper firmware runs, every Weft group is told to wake, links and GDDR6 train, the
identity key is there, WAKE_N is asserted while a PERST pin is, and a part in Returned runs in Bench; nothing else moves.
R493, R492.  In Owned and Field the first record copy that passes its checks is in force, the second where the first fails; in
Manufacture and Returned none is. -/
def Obligations.FirmwareWakesTheDiesUnderTheOwnerRecord : Prop :=
  (∀ s : State, s.pwr.phase = .mission → s.pwr.recovery = false → s.pwr.stage = 1 →
    ∃ t, exec .bootVerified s = .next t ∧
      t.pwr = { s.pwr with firmware := true, heartbeat := true, stage := 2 } ∧
      t.clk = { s.clk with fabric := true } ∧
      (∀ d g, (t.weft d).grp g = ((s.weft d).grp g).wake) ∧ (∀ d, ∀ c ∈ (t.weft d).chans, c.train = 1) ∧
      (∀ l ∈ t.links, l.state = 1) ∧ t.sec.idPk = s.sec.identityPk ∧
      t.pins = { s.pins with wakeN := s.pins.wakeN || s.pins.anyPerst } ∧
      (s.lifecycle = 3 → t.mode = 2 ∧ t.sec.owner = none) ∧ (s.lifecycle ≠ 3 → t.regs = s.regs) ∧
      t.sec.ownedFuse = s.sec.ownedFuse ∧ t.sec.returnedFuse = s.sec.returnedFuse ∧ t.sec.flashImage = s.sec.flashImage ∧
      { t with pwr := s.pwr, clk := s.clk, links := s.links, wa := s.wa, wb := s.wb, sec := s.sec, regs := s.regs,
               pins := s.pins } = s) ∧
  (∀ s : State, s.pwr.phase = .mission → s.pwr.recovery = false → s.pwr.stage = 1 →
    ∃ t, exec .bootVerified s = .next t ∧
      ((s.lifecycle = 0 ∨ s.lifecycle = 3) → t.sec.owner = none ∧ t.sec.owk = none) ∧
      ((s.lifecycle = 1 ∨ s.lifecycle = 2) →
        t.sec.owner = ((s.sec.ownerRecord s.sec.owner0).orElse (fun _ => s.sec.ownerRecord s.sec.owner1)).map (fun p => p.1) ∧
        t.sec.owk = ((s.sec.ownerRecord s.sec.owner0).orElse (fun _ => s.sec.ownerRecord s.sec.owner1)).map (fun p => p.2)))

/-- R254, R255.  Trained channels report ready; a channel that fails raises its die's source and takes the die's engines away; after zeroing
every data line of the die's GDDR6 is zero.
R442, R443, R444, R356.  A module-scope injection run that passes releases FAULT_N and starts ALIVE; failed checkers assert it, take
their dies out or mark the module, and the first of them in Keeper's order is reported; a die's or a unit's run that passes moves its
recovery on, and one that fails takes the die out, or has the unit isolated.
R379.  With the reference lost no injection run ends. -/
def Obligations.Gddr6IsZeroedAndInjectionAnswers : Prop :=
  (∀ (d : Weft) (s : State), (s.weft d).isTraining = true →
    ∃ t, exec (.gddr6TrainingDone d 0) s = .next t ∧ (∀ c ∈ (t.weft d).chans, c.train = 2) ∧ (t.weft d).trainFailed = false ∧
      t.weft (otherDie d) = s.weft (otherDie d) ∧ (t.weft d).gddr = (s.weft d).gddr ∧
      ((s.weft (otherDie d)).isTraining = false → t.pwr.stage = max s.pwr.stage 3) ∧
      { t with wa := s.wa, wb := s.wb, pwr := s.pwr, ladder := s.ladder } = s) ∧
  (∀ (d : Weft) (n : Nat) (s : State), (s.weft d).isTraining = true → n < 12 → (s.weft d).chans.length = 12 →
    s.silent (weftSrc d 0x23) → s.noLcAdmitted →
    ∃ t, exec (.gddr6TrainingDone d (BitVec.ofNat 12 (2 ^ n))) s = .next t ∧ (t.weft d).trainFailed = true ∧
      (∀ m, m < 12 → ((t.weft d).chans[m]?).map (fun c => c.train) = some (if m = n then 3#2 else 2#2)) ∧
      t.captured (weftSrc d 0x23) (cap none noMaster 0 0 0) ∧ t.weft (otherDie d) = s.weft (otherDie d) ∧
      State.sameButHealth { t with wa := s.wa, wb := s.wb, pwr := s.pwr, ladder := s.ladder, sched := { t.sched with retest := s.sched.retest } } s) ∧
  (∀ (d : Weft) (s : State), (s.weft d).isTraining = false → (s.weft d).zeroed = false → (∀ c ∈ (s.weft d).chans, c.train ≠ 0) →
    ∃ t, exec (.gddr6ZeroingDone d) s = .next t ∧ (∀ a, (t.weft d).gddr.read a = 0) ∧ (t.weft d).zeroed = true ∧
      (t.weft d).beam = (s.weft d).beam ∧ t.weft (otherDie d) = s.weft (otherDie d) ∧
      ((s.diePhase d).isSome = true → t.reg oInject = BitVec.ofNat 32 (1 + 4 * dieNo d) ∧ t.pwr = s.pwr) ∧
      (s.diePhase d = none → (s.weft (otherDie d)).zeroed = true → t.reg oInject = 1 ∧ t.pwr.stage = max s.pwr.stage 4) ∧
      (s.diePhase d = none → (s.weft (otherDie d)).zeroed = false → t.reg oInject = s.reg oInject ∧ t.pwr = s.pwr) ∧
      (∀ o, o ≠ oInject → t.reg o = s.reg o) ∧
      { t with wa := s.wa, wb := s.wb, pwr := s.pwr, ladder := s.ladder, regs := s.regs } = s) ∧
  (∀ s : State, s.pwr.firmware = true → s.pwr.injected = false → s.pwr.stage = 4 → s.pwr.refLost = false →
    ∃ t, exec (.injectionDone .module []) s = .next t ∧ t.pins = { s.pins with faultN := false, aliveRun := true } ∧
      t.pwr = { s.pwr with injected := true, stage := 5 } ∧ t.reg oInject = 2 ∧ (∀ o, o ≠ oInject → t.reg o = s.reg o) ∧
      { t with pins := s.pins, pwr := s.pwr, regs := s.regs } = s) ∧
  (∀ (fs : List InjectFailure) (s : State), s.pwr.firmware = true → s.pwr.injected = false → s.pwr.stage = 4 → s.pwr.refLost = false →
    fs ≠ [] → s.noLcAdmitted →
    ∃ t, exec (.injectionDone .module fs) s = .next t ∧ t.pins.faultN = true ∧ t.pins.alive = false ∧
      t.pwr.moduleInjectFailed = (s.pwr.moduleInjectFailed || fs.any (fun f => decide (f.die = .selvedge))) ∧
      t.wa = (if ∃ f ∈ fs, f.die = .weftA then { s.wa with injectFailed := true, inService := false } else s.wa) ∧
      t.wb = (if ∃ f ∈ fs, f.die = .weftB then { s.wb with injectFailed := true, inService := false } else s.wb) ∧
      (∃ f ∈ fs, (∀ g ∈ fs, injectedBefore g f = false) ∧
        t.reg oInject = BitVec.ofNat 32 (3 + 2 ^ 8 * (f.checker % 256) + 2 ^ 16 * (f.inst % 65536))) ∧
      (∀ o, o ≠ oInject → t.reg o = s.reg o) ∧
      (∀ d : Weft, t.pwr.startFailed.contains d = true ↔
        s.pwr.startFailed.contains d = true ∨ ∃ f ∈ fs, f.die = match d with | .a => .weftA | .b => .weftB) ∧
      { t with pins := s.pins, pwr := s.pwr, regs := s.regs, wa := s.wa, wb := s.wb, sched := { t.sched with retest := s.sched.retest } } = s) ∧
  (∀ (d : Weft) (s : State), s.diePhase d = some .injecting → s.pwr.refLost = false → (s.weft d).trainFailed = false →
    ∃ t, exec (.injectionDone (.die d) []) s = .next t ∧ t.diePhase d = some .linking ∧
      t.diePhase (otherDie d) = s.diePhase (otherDie d) ∧ t.pwr.startFailed.contains d = false ∧
      { t with ladder := s.ladder, regs := s.regs, pwr := { t.pwr with startFailed := s.pwr.startFailed } } = s) ∧
  (∀ (d : Weft) (s : State), s.diePhase d = some .injecting → s.pwr.refLost = false → (s.weft d).trainFailed = true → s.noLcAdmitted →
    ∃ t, exec (.injectionDone (.die d) []) s = .next t ∧ t.diePhase d = some .failed ∧
      t.diePhase (otherDie d) = s.diePhase (otherDie d) ∧ t.wa = s.wa ∧ t.wb = s.wb ∧ t.pins = s.pins) ∧
  (∀ (u : UnitId) (s : State), s.unitPhase u = some .injecting → s.pwr.refLost = false →
    ∃ t, exec (.injectionDone (.unit u) []) s = .next t ∧ t.unitPhase u = none ∧ { t with ladder := s.ladder, regs := s.regs } = s) ∧
  (∀ (d : Weft) (fs : List InjectFailure) (s : State), s.diePhase d = some .injecting → s.pwr.refLost = false → fs ≠ [] →
    s.noLcAdmitted →
    ∃ t, exec (.injectionDone (.die d) fs) s = .next t ∧ t.weft d = { s.weft d with injectFailed := true, inService := false } ∧
      t.weft (otherDie d) = s.weft (otherDie d) ∧ t.diePhase d = some .failed ∧ t.pins.faultN = true ∧ t.pins.alive = false ∧
      { t with wa := s.wa, wb := s.wb, pins := s.pins, regs := s.regs, ladder := s.ladder, sched := { t.sched with retest := s.sched.retest } } = s) ∧
  (∀ (u : UnitId) (fs : List InjectFailure) (s : State), s.unitPhase u = some .injecting → s.pwr.refLost = false → fs ≠ [] →
    ∃ t, exec (.injectionDone (.unit u) fs) s = .next t ∧ t.unitPhase u = some .isolating ∧ t.pins.faultN = true ∧
      t.pins.alive = false ∧ { t with ladder := s.ladder, pins := s.pins, regs := s.regs } = s) ∧
  (∀ (sc : InjectScope) (fs : List InjectFailure) (s : State), s.pwr.refLost = true → exec (.injectionDone sc fs) s = .next s)

/-- R549, R547, R548.  A passed boot proof puts its die in service and is counted; another verdict raises the proof source, asserts FAULT_N
and takes the die out; when both dies are settled and nothing is missing, ready is set, the time since power good is reported, and the
descriptors that the held doorbells cover are read. -/
def Obligations.BootProofAndReady : Prop :=
  (∀ (d : Weft) (s : State), s.pwr.injected = true → s.pwr.ready = false → (s.weft d).settled = false →
    ∃ t, exec (.bootProofVerdict d .passed) s = .next t ∧ (t.weft d).inService = true ∧
      t.weft (otherDie d) = s.weft (otherDie d) ∧ ((s.weft (otherDie d)).settled = true → t.pwr.stage = max s.pwr.stage 6) ∧
      State.sameButCounters { t with wa := s.wa, wb := s.wb, pwr := s.pwr } s) ∧
  (∀ (d : Weft) (v : ProofVerdict) (s : State), s.pwr.injected = true → s.pwr.ready = false → (s.weft d).settled = false →
    v ≠ .passed → s.silent (weftSrc d 0x26) → s.noLcAdmitted →
    ∃ t, exec (.bootProofVerdict d v) s = .next t ∧ (t.weft d).inService = false ∧ (t.weft d).injectFailed = true ∧
      t.pins.faultN = true ∧ t.pins.alive = false ∧
      t.captured (weftSrc d 0x26) (cap none noMaster 0 (BitVec.ofNat 64 s.frame.number) (proofDetail v)) ∧
      t.weft (otherDie d) = s.weft (otherDie d) ∧
      State.sameButHealth { t with wa := s.wa, wb := s.wb, pwr := s.pwr, pins := s.pins, sched := { t.sched with retest := s.sched.retest } } s) ∧
  (∀ s : State, s.mayBeReady = true → s.heldBells = [] → s.portS.up = false →
    ∃ t, exec (.ready []) s = .next t ∧ t.pwr.ready = true ∧ t.pwr.stage = 7 ∧
      t.pwr.readyMs = BitVec.ofNat 16 (min 0xFFFF ((s.time.now.toNat - s.pwr.bootT0.toNat) / 1000000)) ∧
      t.hasp = { s.hasp with supPending := addSet s.hasp.supPending 1 } ∧ { t with pwr := s.pwr, hasp := s.hasp } = s) ∧
  (∀ (b : HeldBell) (cx : Ctx) (r : Ring) (desc : List Byte) (s : State), s.mayBeReady = true → s.heldBells = [b] → s.portS.up = false →
    s.ctx? b.ctx = some cx → s.ring? b.ctx b.ring = some r → r.unread b.index = 1 →
    ∃ t d, exec (.ready [[desc]]) s = .next t ∧ t.pwr.ready = true ∧ t.heldBells = [] ∧ t.readQ = s.readQ ++ [d] ∧ d.ctx = b.ctx ∧
      d.ring = b.ring ∧ d.slot = r.read ∧ d.time = s.time.now ∧ d.bytes = sliceB desc 0 64 ∧
      t.ring? b.ctx b.ring = some { r with read := (r.read + 1) % r.size })

/-- R488, R485.  In Recovery a staged image that passes the checks is programmed, and the slot is invalid until that ends; one that fails a
check reports it and leaves the slot; a second install waits for the first.
R486.  A rollback commit takes the running image's index, and never lowers the count. -/
def Obligations.InstallAndRollback : Prop :=
  (∀ (ok : Bool) (s : State), s.portS.up = true → s.pwr.recovery = true → s.sec.installing = none →
    ∃ t, exec (.kprBootInstall ok) s = .next t ∧ (∀ o, o ≠ oBoot → t.reg o = s.reg o) ∧ { t with regs := s.regs, sec := s.sec } = s ∧
      (if imageCause s.sec s.stagedImage = 0 then
        fld (t.reg oBoot) 7 6 = 1 ∧ t.sec = { s.sec with flashImage := [], installing := some (s.stagedImage, ok) }
      else fld (t.reg oBoot) 7 6 = 2 ∧ t.sec = s.sec)) ∧
  (∀ (ok : Bool) (s : State), (s.portS.up = false ∨ s.pwr.recovery = false ∨ s.sec.installing ≠ none) →
    exec (.kprBootInstall ok) s = .next s) ∧
  (∀ s : State, s.portS.up = true → s.pwr.firmware = true → s.sec.rollbackFused < s.sec.manifest.rollback →
    exec .kprRollbackCommit s = .next { s with sec := { s.sec with rollbackFused := min 64 s.sec.manifest.rollback } }) ∧
  (∀ s : State, s.sec.manifest.rollback ≤ s.sec.rollbackFused → exec .kprRollbackCommit s = .next s)

/-! ### Power groups -/

/-- R383, R385, R387, R389, R398.  A wake request moves one group toward Run and is absorbed in Run; the end of a wake puts it in Run; the
end of an entry puts it in the state it was entering; nothing else of the die's groups moves.
R389, R386.  An idle group leaves for its idle target when that is deeper, and for Rest when rest_after_ms is set and the rules allow
Rest; a busy group stays, and so does every group once the reference is lost, or in Recovery (R379, R487), where only the Beam group of
Weft A wakes; a group idle since before the change into Bench waits for its next idle period (R398). -/
def Obligations.GroupsWakeAndSleep : Prop :=
  (∀ (d : Weft) (g : Grp) (s : State), s.pwr.phase = .mission → (s.pwr.recovery = false ∨ (d = .a ∧ g = .beam)) →
    ∃ t, exec (.wakeRequest d g) s = .next t ∧
      ((s.weft d).grp g = .at .run → (t.weft d).grp g = .at .run) ∧ g ∉ (t.weft d).benchIdle ∧
      (∀ h, h ≠ g → (h ∈ (t.weft d).benchIdle ↔ h ∈ (s.weft d).benchIdle)) ∧
      { t.weft d with benchIdle := (s.weft d).benchIdle }.sameButGroups (s.weft d) ∧ t.weft (otherDie d) = s.weft (otherDie d) ∧
      (∀ p, (s.weft d).grp g = .at p → p ≠ .run → (t.weft d).grp g = .waking p) ∧
      (∀ p q, (s.weft d).grp g = .entering p q → (t.weft d).grp g = .waking q) ∧
      (∀ e h, (e, h) ≠ (d, g) → (t.weft e).grp h = (s.weft e).grp h) ∧ { t with wa := s.wa, wb := s.wb } = s) ∧
  (∀ (d : Weft) (g : Grp) (s : State), s.pwr.recovery = true → (d, g) ≠ (.a, .beam) → exec (.wakeRequest d g) s = .next s) ∧
  (∀ (d : Weft) (g : Grp) (p : PState) (s : State), (s.weft d).grp g = .waking p → s.noSteps → s.bus.heldWrites = [] →
    s.wa.checks.phase ≠ .due → s.wb.checks.phase ≠ .due → (∀ x ∈ s.slots, x.input = []) →
    ∃ t, exec (.wakeComplete d g) s = .next t ∧ (t.weft d).grp g = .at .run ∧
      (∀ e h, (e, h) ≠ (d, g) → (t.weft e).grp h = (s.weft e).grp h) ∧
      (∀ q ∈ diePlls d, (pllGroups q).contains g = true → s.pllMeant q = false → t.clk.locked q = true) ∧
      (g = .beam → p = .rest → ∀ a, (t.weft d).beam.read a = 0) ∧ ((g ≠ .beam ∨ p ≠ .rest) → (t.weft d).beam = (s.weft d).beam) ∧
      { t with wa := s.wa, wb := s.wb, clk := s.clk, sched := s.sched } = s) ∧
  (∀ (d : Weft) (g : Grp) (p q : PState) (s : State), (s.weft d).grp g = .entering p q → q ≠ .rest →
    ∃ t, exec (.stateEntryDone d g) s = .next t ∧ (t.weft d).grp g = .at q ∧
      (∀ e h, (e, h) ≠ (d, g) → (t.weft e).grp h = (s.weft e).grp h) ∧
      (t.weft d).beam = (s.weft d).beam ∧ (t.weft d).pairs = (s.weft d).pairs ∧
      { t with wa := s.wa, wb := s.wb, clk := s.clk } = s) ∧
  (∀ (d : Weft) (p : PState) (s : State), (s.weft d).grp .beam = .entering p .rest →
    ∃ t, exec (.stateEntryDone d .beam) s = .next t ∧ (t.weft d).grp .beam = .at .rest ∧ (∀ a, (t.weft d).beam.read a = 0) ∧
      (t.weft d).gddr = (s.weft d).gddr ∧ t.weft (otherDie d) = s.weft (otherDie d) ∧
      { t with wa := s.wa, wb := s.wb, clk := s.clk } = s) ∧
  (∀ (d : Weft) (g : Grp) (p : PState) (s : State), (s.weft d).grp g = .at p → s.pwr.phase = .mission → s.grpBusy d g = false →
    s.pwr.refLost = false → s.pwr.recovery = false → p.depth < (s.idleTarget g).depth →
    ∃ t, exec (.idleTimeout d g) s = .next t ∧ (t.weft d).grp g = .entering p (s.idleTarget g) ∧
      (∀ e h, (e, h) ≠ (d, g) → (t.weft e).grp h = (s.weft e).grp h) ∧ { t with wa := s.wa, wb := s.wb } = s) ∧
  (∀ (d : Weft) (g : Grp) (p : PState) (s : State), (s.weft d).grp g = .at p → s.pwr.phase = .mission → s.grpBusy d g = false →
    s.pwr.refLost = false → s.pwr.recovery = false → g ∉ (s.weft d).benchIdle → p ≠ .rest → s.deepest g = 3 →
    fld (s.reg oPwrIdle) 31 18 ≠ 0 →
    ∃ t, exec (.restTimeout d g) s = .next t ∧ (t.weft d).grp g = .entering p .rest ∧
      (∀ e h, (e, h) ≠ (d, g) → (t.weft e).grp h = (s.weft e).grp h) ∧ { t with wa := s.wa, wb := s.wb } = s) ∧
  (∀ (d : Weft) (g : Grp) (s : State), (s.grpBusy d g = true ∨ s.pwr.refLost = true ∨ s.pwr.recovery = true) →
    exec (.idleTimeout d g) s = .next s ∧ exec (.restTimeout d g) s = .next s)

/-! ### Module frame, proof inputs and self-test -/

/-- R418.  The module frame in which device time lies begins on every die, with its number and its start from KPR_FRAME and
KPR_FRAME_PHASE; the check state of the frame before is cleared and the ages of the targets stay. -/
def Obligations.ModuleFrameBegins : Prop :=
  ∀ s : State, s.clk.fabric = true → s.pwr.phase = .mission → s.frame.running = false → s.frameUs ≠ 0 →
    fld (s.reg oFramePhase) 16 0 ≤ s.time.now.toNat / 1000 → s.time.now.toNat < 2 ^ 63 →
    ∃ t, exec .moduleFrameStart s = .next t ∧ t.frame.running = true ∧ t.frame.trips = [] ∧
      t.frame.number = (s.time.now.toNat / 1000 - fld (s.reg oFramePhase) 16 0) / s.frameUs ∧
      t.frame.start.toNat = (t.frame.number * s.frameUs + fld (s.reg oFramePhase) 16 0) * 1000 ∧
      t.frame.start.toNat ≤ s.time.now.toNat ∧
      (∀ d, (t.weft d).checks.phase = .idle ∧ (t.weft d).checks.slice = none ∧ (t.weft d).checks.sliceDone = false ∧
        (t.weft d).checks.passed = [] ∧ (t.weft d).checks.ages = (s.weft d).checks.ages ∧
        (t.weft d).checks.misses = (s.weft d).checks.misses) ∧
      { t with frame := s.frame, wa := s.wa, wb := s.wb } = s

/-- R433, R434, R435, R436, R391, R245.  A proof input that is due on an awake die at an operation boundary holds it and notes how late it
started; it waits for the boundary, and in Whole mode for the other die's; before its time, or where the die runs none, nothing happens; it
releases the die; its verdict is a pass, counted, or a miss, with PROOF_MISS and the proof source. -/
def Obligations.ProofInputRuns : Prop :=
  (∀ (d : Weft) (s : State), s.provable d = true → s.proofInTime = true → s.frameAt s.startUs ≤ s.time.now.toNat →
    ((s.weft d).checks.phase = .idle ∨ (s.weft d).checks.phase = .due) → s.dieRun d = true → s.clocked (.loom d) = true →
    (s.weft d).atBoundary = true → (s.weft d).checks.slice = none → (s.weft (otherDie d)).checks.phase ≠ .due →
    (s.weft d).benchIdle = [] → (s.mode = 0 ∨ s.provable (otherDie d) = false ∨ (s.weft (otherDie d)).checks.phase ≠ .idle) →
    ∃ t, exec (.proofDue d) s = .next t ∧ (t.weft d).checks.phase = .running ∧
      (t.weft d).checks.startOffset.toNat = min 0xFFFF ((s.time.now.toNat - s.frameAt s.startUs) / 1000) ∧
      (∀ k e, k < 4 → s.engineTakes (4 * weftNo d + k) = true → (s.weft d).engines[k]? = some e →
        (t.weft d).engines[k]? = some (e.proving (4 * weftNo d + k) s.frame.number)) ∧
      t.weft (otherDie d) = s.weft (otherDie d) ∧ (t.weft d).beam = (s.weft d).beam ∧ { t with wa := s.wa, wb := s.wb } = s) ∧
  (∀ (d : Weft) (s : State), s.provable d = true → s.proofInTime = true → s.frameAt s.startUs ≤ s.time.now.toNat → s.mode = 1 →
    ((s.weft d).checks.phase = .idle ∨ (s.weft d).checks.phase = .due) → (s.weft (otherDie d)).checks.phase = .due →
    (∀ e, s.dieRun e = true ∧ s.clocked (.loom e) = true ∧ (s.weft e).atBoundary = true ∧ (s.weft e).checks.slice = none) →
    s.proofCanEnter (otherDie d) = true →
    ∃ t, exec (.proofDue d) s = .next t ∧ (∀ e, (t.weft e).checks.phase = .running ∧ (t.weft e).beam = (s.weft e).beam) ∧
      { t with wa := s.wa, wb := s.wb } = s) ∧
  (∀ (d : Weft) (s : State), s.provable d = true → s.proofInTime = true → s.frameAt s.startUs ≤ s.time.now.toNat →
    (s.weft d).checks.phase = .idle → s.dieRun d = true → (s.weft d).atBoundary = false → (s.weft (otherDie d)).checks.phase ≠ .due →
    (s.weft d).benchIdle = [] →
    ∃ t, exec (.proofDue d) s = .next t ∧ t.weft d = { s.weft d with checks := { (s.weft d).checks with phase := .due } } ∧
      t.weft (otherDie d) = s.weft (otherDie d) ∧ { t with wa := s.wa, wb := s.wb } = s) ∧
  (∀ (d : Weft) (s : State), s.provable d = false ∨ s.proofInTime = false ∨ s.time.now.toNat < s.frameAt s.startUs →
    exec (.proofDue d) s = .next s) ∧
  (∀ (d : Weft) (s : State), (s.weft d).checks.phase = .running → s.noSteps → (s.weft d).beam.wf = true →
    (s.weft (otherDie d)).checks.phase ≠ .due →
    ∃ t, exec (.proofRelease d) s = .next t ∧ (t.weft d).checks = { (s.weft d).checks with phase := .released } ∧
      (∀ a, a < reservedAt ∨ reservedAt + 0x100000 ≤ a → (t.weft d).beam.read a = (s.weft d).beam.read a) ∧
      t.weft (otherDie d) = s.weft (otherDie d) ∧ { t with wa := s.wa, wb := s.wb } = s) ∧
  (∀ (d : Weft) (s : State), (s.weft d).checks.phase = .released →
    ∃ t, exec (.proofVerdict d .passed) s = .next t ∧
      (t.weft d).checks = { (s.weft d).checks with phase := .done, result := 1, firstProof := false } ∧
      ctrGet t.ctr.aon 10 = BitVec.ofNat 48 ((ctrGet s.ctr.aon 10).toNat + 1) ∧
      t.weft (otherDie d) = s.weft (otherDie d) ∧ State.sameButCounters { t with wa := s.wa, wb := s.wb } s) ∧
  (∀ (d : Weft) (v : ProofVerdict) (s : State), (s.weft d).checks.phase = .released → v ≠ .passed → s.silent (weftSrc d 0x26) →
    (∀ f ∈ allFns, bitW (s.fnReg f 0x60) 31 = false) →
    ∃ t, exec (.proofVerdict d v) s = .next t ∧ (t.weft d).checks.phase = .done ∧
      (t.weft d).checks.result = (if v = .none then 3 else 2) ∧
      (t.weft d).checks.misses.toNat = min 255 ((s.weft d).checks.misses.toNat + 1) ∧
      ctrGet t.ctr.aon 11 = BitVec.ofNat 48 ((ctrGet s.ctr.aon 11).toNat + 1) ∧
      t.captured (weftSrc d 0x26) (cap none noMaster 0 (BitVec.ofNat 64 s.frame.number) (proofDetail v)) ∧
      t.weft (otherDie d) = s.weft (otherDie d) ∧ State.sameButHealth { t with wa := s.wa, wb := s.wb } s)

/-- R438, R440.  A self-test slice tests, among the targets 0 to 3 that are not disabled, the one that passed longest ago and the lowest of
equals; a pass resets its age; the fallback timer lets it start at a boundary from half the frame on.
R439, R440.  An idle, enabled pair that no recovery holds and that has not passed in the frame is tested; a pass is noted for the frame; a failure disables the pair,
marks its target and raises the self-test source. -/
def Obligations.SelfTestRotatesAndIsolates : Prop :=
  (∀ (d : Weft) (k : Nat) (s : State), s.provable d = true → s.frame.running = true → (s.weft d).checks.phase = .done →
    (s.weft d).checks.sliceDone = false → s.arrayIdle d = true → s.time.now.toNat + 100000 ≤ s.frameEnd → s.dieRun d = true →
    s.clocked (.loom d) = true → k < 4 → s.targetOff d k = false →
    (∀ j, j < 4 → s.targetOff d j = false → (s.weft d).checks.age j ≤ (s.weft d).checks.age k) →
    (∀ j, j < k → s.targetOff d j = false → (s.weft d).checks.age j < (s.weft d).checks.age k) →
    ∃ t, exec (.selftestSliceStart d) s = .next t ∧ (t.weft d).checks.slice = some k ∧ (t.weft d).checks.lastTarget = k ∧
      t.weft (otherDie d) = s.weft (otherDie d) ∧ { t with wa := s.wa, wb := s.wb } = s) ∧
  (∀ (d : Weft) (k : Nat) (s : State), (s.weft d).checks.slice = some k → s.noSteps → s.wa.checks.phase ≠ .due →
    s.wb.checks.phase ≠ .due → k < (s.weft d).checks.ages.length →
    ∃ t, exec (.selftestSliceEnd d true) s = .next t ∧ (t.weft d).checks.slice = none ∧ (t.weft d).checks.sliceDone = true ∧
      (t.weft d).checks.age k = 0 ∧ (∀ j, j ≠ k → (t.weft d).checks.age j = (s.weft d).checks.age j) ∧
      (t.weft d).checks.passed.contains k = true ∧ (t.weft d).checks.failed = (s.weft d).checks.failed ∧
      t.weft (otherDie d) = s.weft (otherDie d) ∧ { t with wa := s.wa, wb := s.wb } = s) ∧
  (∀ (d : Weft) (s : State), s.frame.running = true → s.frame.start.toNat + s.frameUs * 500 ≤ s.time.now.toNat →
    (s.weft d).checks.phase = .done → (s.weft d).checks.sliceDone = false → (s.weft d).checks.slice = none →
    ∃ t, exec (.sliceFallbackTimer d) s = .next t ∧ (t.weft d).checks = { (s.weft d).checks with fallback := true } ∧
      t.weft (otherDie d) = s.weft (otherDie d) ∧ { t with wa := s.wa, wb := s.wb } = s) ∧
  (∀ (n : Nat) (p : Pair) (s : State), s.pair? n = some p → s.pwr.ready = true → s.mode ≠ 2 → (s.weft (weftOf n)).inService = true →
    s.frame.running = true → s.clocked (.shuttle (weftOf n)) = true → (s.weft (weftOf n)).shuttle = .at .run → s.pairOn n = true →
    s.unitUp (.pair n) = true → p.run = none → p.queued = [] → p.debugHalt = false → p.halted = false →
    s.targetOff (weftOf n) (4 + n % 4) = false → (s.weft (weftOf n)).checks.passed.contains (4 + n % 4) = false →
    ∃ t, exec (.pairTestStart n) s = .next t ∧ t.pair? n = some { p with testing := true } ∧
      (∀ m, m ≠ n → t.pair? m = s.pair? m) ∧ { t with wa := s.wa, wb := s.wb } = s) ∧
  (∀ (n : Nat) (p : Pair) (s : State), s.pair? n = some p → p.testing = true →
    ∃ t, exec (.pairTestDone n true) s = .next t ∧ t.pair? n = some { p with testing := false } ∧
      (t.weft (weftOf n)).checks.passed.contains (4 + n % 4) = true ∧ t.disabled = s.disabled ∧
      (∀ m, m ≠ n → t.pair? m = s.pair? m) ∧ { t with wa := s.wa, wb := s.wb } = s) ∧
  (∀ (n : Nat) (p : Pair) (s : State), s.pair? n = some p → p.testing = true → s.steps = [] →
    s.silent (weftSrc (weftOf n) 0x27) →
    ∃ t, exec (.pairTestDone n false) s = .next t ∧ t.isDisabled (.pair n) = true ∧
      (∀ m, m ≠ n → m < 8 → t.isDisabled (.pair m) = s.isDisabled (.pair m)) ∧
      (t.weft (weftOf n)).checks.failed.getLsbD (4 + n % 4) = true ∧
      t.captured (weftSrc (weftOf n) 0x27) (cap none noMaster 0 (BitVec.ofNat 64 s.frame.number) (4 + n % 4)) ∧
      State.sameButHealth { t with wa := s.wa, wb := s.wb, disabled := s.disabled, sched := s.sched } s)


/-! ### Settings -/

/-- R416, R417, R398, R468, R498, R506.  A write of the mode in force sets single_ok alone; a new mode is refused for a mode of 3, while steps
are under way, or on leaving Bench with a progress window of 0, and only the refused bit changes; in Returned every mode but Bench is
refused, the mode in force too; an accepted mode is in force.  Into Paired or Whole both dies owe a first proof, starvation counts from 0
while the order of the slices stays, and groups in Rest wake (but for a part in Recovery); into Bench no proof is due, and the groups that
are idle wait for their next idle period before they rest. -/
def Obligations.SafetyModeWrites : Prop :=
  (∀ (v : Word) (s : State), s.pwr.phase = .mission → fld v 1 0 = s.mode → (s.lifecycle ≠ 3 ∨ fld v 1 0 = 2) →
    ∃ t, exec (.kprSafetyWrite v) s = .next t ∧ t.sets s oSafety (v &&& 0x7#32)) ∧
  (∀ (v : Word) (s : State), s.pwr.phase = .mission →
    ((fld v 1 0 ≠ s.mode ∧ (fld v 1 0 = 3 ∨ s.quiet = false ∨ (s.mode = 2 ∧ s.zeroWindow = true))) ∨
      (s.lifecycle = 3 ∧ fld v 1 0 ≠ 2)) →
    ∃ t, exec (.kprSafetyWrite v) s = .next t ∧ t.sets s oSafety (setFld (s.reg oSafety) 31 31 1)) ∧
  (∀ (v : Word) (s : State), s.pwr.phase = .mission → fld v 1 0 ≠ s.mode → fld v 1 0 ≠ 3 → s.quiet = true →
    (s.lifecycle ≠ 3 ∨ fld v 1 0 = 2) → (s.mode ≠ 2 ∨ s.zeroWindow = false) →
    ∃ t, exec (.kprSafetyWrite v) s = .next t ∧ t.mode = fld v 1 0 ∧ t.singleOk = bitW v 2 ∧ bitW (t.reg oSafety) 31 = false ∧
      (fld v 1 0 = 2 → ∀ d, (∀ g, g ∈ (t.weft d).benchIdle ↔ s.grpBusy d g = false) ∧
        (t.weft d).checks = { (s.weft d).checks with
          phase := if (s.weft d).checks.phase = .due then .idle else (s.weft d).checks.phase, owed := false } ∧
        { t.weft d with benchIdle := (s.weft d).benchIdle, checks := (s.weft d).checks } = s.weft d) ∧
      (fld v 1 0 ≠ 2 → ∀ d, (t.weft d).checks.firstProof = true ∧ (∀ k, (t.weft d).checks.hunger k = 0) ∧
        (t.weft d).checks.ages = (s.weft d).checks.ages ∧ (t.weft d).checks.phase = (s.weft d).checks.phase ∧
        (s.pwr.recovery = false →
          ∀ g, (t.weft d).grp g = if ((s.weft d).grp g).depth = 3 then ((s.weft d).grp g).wake else (s.weft d).grp g)) ∧
      (∀ o, o ≠ oSafety → t.reg o = s.reg o) ∧ { t with regs := s.regs, wa := s.wa, wb := s.wb } = s)

/-- R401, R419, R441, R468.  The determinism bit, the frame, its phase, the proof slot, latent_frames and the progress windows take a value
that holds together with the others in force; otherwise the refused bit is set and nothing else changes. -/
def Obligations.FrameSettingsHoldTogether : Prop :=
  (∀ (v : Word) (s : State), s.pwr.phase = .mission → (bitW v 0 = s.det ∨ s.quiet = true) →
    ∃ t, exec (.hdlDeterminismWrite v) s = .next t ∧ t.sets s oDeterminism (v &&& 0x1#32)) ∧
  (∀ (v : Word) (s : State), s.pwr.phase = .mission → ¬(bitW v 0 = s.det ∨ s.quiet = true) →
    ∃ t, exec (.hdlDeterminismWrite v) s = .next t ∧ t.sets s oDeterminism (setFld (s.reg oDeterminism) 31 31 1)) ∧
  (∀ (v : Word) (s : State), s.pwr.phase = .mission → (s.lcBusy = false ∧ s.frameHolds (fld v 16 0) s.phaseUs s.slotUs s.startUs) →
    ∃ t, exec (.kprFrameWrite v) s = .next t ∧ t.sets s oFrame (v &&& 0x1FFFF#32)) ∧
  (∀ (v : Word) (s : State), s.pwr.phase = .mission → ¬(s.lcBusy = false ∧ s.frameHolds (fld v 16 0) s.phaseUs s.slotUs s.startUs) →
    ∃ t, exec (.kprFrameWrite v) s = .next t ∧ t.sets s oFrame (setFld (s.reg oFrame) 31 31 1)) ∧
  (∀ (v : Word) (s : State), s.pwr.phase = .mission → (s.lcBusy = false ∧ s.frameHolds s.frameUs (fld v 16 0) s.slotUs s.startUs) →
    ∃ t, exec (.kprFramePhaseWrite v) s = .next t ∧ t.sets s oFramePhase (v &&& 0x1FFFF#32)) ∧
  (∀ (v : Word) (s : State), s.pwr.phase = .mission → ¬(s.lcBusy = false ∧ s.frameHolds s.frameUs (fld v 16 0) s.slotUs s.startUs) →
    ∃ t, exec (.kprFramePhaseWrite v) s = .next t ∧ t.sets s oFramePhase (setFld (s.reg oFramePhase) 31 31 1)) ∧
  (∀ (v : Word) (s : State), s.pwr.phase = .mission → (s.lcBusy = false ∧ s.frameHolds s.frameUs s.phaseUs (fld v 10 0) (fld v 27 11)) →
    ∃ t, exec (.kprProofWrite v) s = .next t ∧ t.sets s oProof (v &&& 0xFFFFFFF#32)) ∧
  (∀ (v : Word) (s : State), s.pwr.phase = .mission → ¬(s.lcBusy = false ∧ s.frameHolds s.frameUs s.phaseUs (fld v 10 0) (fld v 27 11)) →
    ∃ t, exec (.kprProofWrite v) s = .next t ∧ t.sets s oProof (setFld (s.reg oProof) 31 31 1)) ∧
  (∀ (v : Word) (s : State), s.pwr.phase = .mission → (8 ≤ fld v 7 0) →
    ∃ t, exec (.kprStestWrite v) s = .next t ∧ t.sets s oStest (v &&& 0xFF#32)) ∧
  (∀ (v : Word) (s : State), s.pwr.phase = .mission → ¬(8 ≤ fld v 7 0) →
    ∃ t, exec (.kprStestWrite v) s = .next t ∧ t.sets s oStest (setFld (s.reg oStest) 31 31 1)) ∧
  (∀ (k : Nat) (v : Word) (s : State), s.pwr.phase = .mission → k < 5 → (s.windowOk k (fld v 15 0) = true) →
    ∃ t, exec (.hspProgWinWrite k v) s = .next t ∧ t.sets s (oProgWin k) (v &&& 0xFFFF#32)) ∧
  (∀ (k : Nat) (v : Word) (s : State), s.pwr.phase = .mission → k < 5 → ¬(s.windowOk k (fld v 15 0) = true) →
    ∃ t, exec (.hspProgWinWrite k v) s = .next t ∧ t.sets s (oProgWin k) (setFld (s.reg (oProgWin k)) 31 31 1)) ∧
  (∀ (k w : Nat) (s : State), s.windowOk k w = true → w ≤ s.frameUs / 8 ∧ (w = 0 → s.mode = 2))

/-- R275, R390.  A Loom share and floor are refused when the shares exceed 1,000, for a floor of 3, or when they change while the partition
has LC steps admitted; taken, they wake the groups that are deeper than a floor made shallower or at a share raised from 0, and apply to
admission at once when every group has reached the floor.
R245, R274, R280, R292.  Memory shares, quotas, latch ranges and the scheduler's gap and save settings are taken when the rules on them
hold, and refused otherwise. -/
def Obligations.PartitionSettings : Prop :=
  (∀ (p : Nat) (v : Word) (s : State), s.pwr.phase = .mission → p < 2 →
    fld v 9 0 + fld (s.reg (oPartLoom (1 - p))) 9 0 ≤ 1000 → fld v 11 10 ≠ 3 →
    ((fld v 9 0 = fld (s.reg (oPartLoom p)) 9 0 ∧ fld v 11 10 = fld (s.reg (oPartLoom p)) 11 10) ∨ s.admittedLc p = []) →
    ∃ t, exec (.hdlPartLoomWrite p v) s = .next t ∧ t.reg (oPartLoom p) = v &&& 0xFFF#32 ∧
      t.sched.effLoom = (if t.floorReached t.floor then [t.reg (oPartLoom 0), t.reg (oPartLoom 1)] else s.sched.effLoom) ∧
      (∀ n, t.floor = some n → s.pwr.recovery = false →
        (shallower t.floor s.floor = true ∨ (fld (s.reg (oPartLoom p)) 9 0 = 0 ∧ fld v 9 0 ≠ 0)) →
        ∀ d g, n < ((s.weft d).grp g).depth → (t.weft d).grp g = ((s.weft d).grp g).wake) ∧
      (∀ d g, (t.weft d).grp g = (s.weft d).grp g ∨ (t.weft d).grp g = ((s.weft d).grp g).wake) ∧
      (∀ o, o ≠ oPartLoom p → t.reg o = s.reg o) ∧
      { t with regs := s.regs, sched := { t.sched with effLoom := s.sched.effLoom }, wa := s.wa, wb := s.wb } = s) ∧
  (∀ (p : Nat) (v : Word) (s : State), s.pwr.phase = .mission → p < 2 →
    (1000 < fld v 9 0 + fld (s.reg (oPartLoom (1 - p))) 9 0 ∨ fld v 11 10 = 3 ∨
      ((fld v 9 0 ≠ fld (s.reg (oPartLoom p)) 9 0 ∨ fld v 11 10 ≠ fld (s.reg (oPartLoom p)) 11 10) ∧ s.admittedLc p ≠ [])) →
    ∃ t, exec (.hdlPartLoomWrite p v) s = .next t ∧ t.sets s (oPartLoom p) (setFld (s.reg (oPartLoom p)) 31 31 1)) ∧
  (∀ (p : Nat) (v : Word) (s : State), s.pwr.phase = .mission → p < 2 →
    (fld v 5 0 + fld (s.reg (oPartMem (1 - p))) 5 0 ≤ 63 ∧ fld v 13 8 + fld (s.reg (oPartMem (1 - p))) 13 8 ≤ 45 ∧
      (s.setReg (oPartMem p) (v &&& 0x3F3F#32)).sharesFit 0 = true ∧ (s.setReg (oPartMem p) (v &&& 0x3F3F#32)).sharesFit 1 = true) →
    ∃ t, exec (.hdlPartMemWrite p v) s = .next t ∧ t.sets s (oPartMem p) (v &&& 0x3F3F#32)) ∧
  (∀ (p : Nat) (v : Word) (s : State), s.pwr.phase = .mission → p < 2 →
    ¬(fld v 5 0 + fld (s.reg (oPartMem (1 - p))) 5 0 ≤ 63 ∧ fld v 13 8 + fld (s.reg (oPartMem (1 - p))) 13 8 ≤ 45 ∧
      (s.setReg (oPartMem p) (v &&& 0x3F3F#32)).sharesFit 0 = true ∧ (s.setReg (oPartMem p) (v &&& 0x3F3F#32)).sharesFit 1 = true) →
    ∃ t, exec (.hdlPartMemWrite p v) s = .next t ∧ t.sets s (oPartMem p) (setFld (s.reg (oPartMem p)) 31 31 1)) ∧
  (∀ (p : Nat) (v : Word) (s : State), s.pwr.phase = .mission → p < 2 →
    (fld v 12 0 + fld (s.reg (oPartQuota (1 - p))) 12 0 ≤ 4096 ∧ fld v 24 16 + fld (s.reg (oPartQuota (1 - p))) 24 16 ≤ 256 ∧
      (s.ctxs.filter (fun c => c.part == p)).length ≤ fld v 12 0 ∧ (s.drafts.filter (fun e => e.partition == p)).length ≤ fld v 24 16) →
    ∃ t, exec (.hdlPartQuotaWrite p v) s = .next t ∧ t.sets s (oPartQuota p) (v &&& 0x1FF1FFF#32)) ∧
  (∀ (p : Nat) (v : Word) (s : State), s.pwr.phase = .mission → p < 2 →
    ¬(fld v 12 0 + fld (s.reg (oPartQuota (1 - p))) 12 0 ≤ 4096 ∧ fld v 24 16 + fld (s.reg (oPartQuota (1 - p))) 24 16 ≤ 256 ∧
      (s.ctxs.filter (fun c => c.part == p)).length ≤ fld v 12 0 ∧ (s.drafts.filter (fun e => e.partition == p)).length ≤ fld v 24 16) →
    ∃ t, exec (.hdlPartQuotaWrite p v) s = .next t ∧ t.sets s (oPartQuota p) (setFld (s.reg (oPartQuota p)) 31 31 1)) ∧
  (∀ (p : Nat) (v : Word) (s : State), s.pwr.phase = .mission → p < 2 →
    (overlap (fld v 11 0) (fld v 24 12) (fld (s.reg (oPartLatch (1 - p))) 11 0) (fld (s.reg (oPartLatch (1 - p))) 24 12) = false ∧
      ∀ c ∈ s.ctxs, c.part = p → c.latchCount ≠ 0 → fld v 11 0 ≤ c.latchBase ∧ c.latchBase + c.latchCount ≤ fld v 11 0 + fld v 24 12) →
    ∃ t, exec (.hdlPartLatchWrite p v) s = .next t ∧ t.sets s (oPartLatch p) (v &&& 0x1FFFFFF#32)) ∧
  (∀ (p : Nat) (v : Word) (s : State), s.pwr.phase = .mission → p < 2 →
    ¬(overlap (fld v 11 0) (fld v 24 12) (fld (s.reg (oPartLatch (1 - p))) 11 0) (fld (s.reg (oPartLatch (1 - p))) 24 12) = false ∧
      ∀ c ∈ s.ctxs, c.part = p → c.latchCount ≠ 0 → fld v 11 0 ≤ c.latchBase ∧ c.latchBase + c.latchCount ≤ fld v 11 0 + fld v 24 12) →
    ∃ t, exec (.hdlPartLatchWrite p v) s = .next t ∧ t.sets s (oPartLatch p) (setFld (s.reg (oPartLatch p)) 31 31 1)) ∧
  (∀ (v : Word) (s : State), s.pwr.phase = .mission → (s.lcBusy = false) →
    ∃ t, exec (.hdlSchedGapWrite v) s = .next t ∧ t.sets s oSchedGap (v &&& 0x3FFF3FFF#32)) ∧
  (∀ (v : Word) (s : State), s.pwr.phase = .mission → ¬(s.lcBusy = false) →
    ∃ t, exec (.hdlSchedGapWrite v) s = .next t ∧ t.sets s oSchedGap (setFld (s.reg oSchedGap) 31 31 1)) ∧
  (∀ (v : Word) (s : State), s.pwr.phase = .mission → (s.lcBusy = false ∧ ∀ e ∈ s.heldEntries, e.draft.bounds.saveBytes ≤ fld v 15 0 * 65536) →
    ∃ t, exec (.hdlSchedSaveWrite v) s = .next t ∧ t.sets s oSchedSave (v &&& 0xFFFF#32)) ∧
  (∀ (v : Word) (s : State), s.pwr.phase = .mission → ¬(s.lcBusy = false ∧ ∀ e ∈ s.heldEntries, e.draft.bounds.saveBytes ≤ fld v 15 0 * 65536) →
    ∃ t, exec (.hdlSchedSaveWrite v) s = .next t ∧ t.sets s oSchedSave (setFld (s.reg oSchedSave) 31 31 1))

/-- R321, R540, R564, R565, R567.  A mirror binding, a gather group and an arbitration wheel are enabled only when the rules on them hold; a
clear of an enabled group always acts; a gather hold time is taken as written. -/
def Obligations.MirrorGatherAndWheelSettings : Prop :=
  (∀ (i : Nat) (v : Word) (s : State), s.pwr.phase = .mission → i < 64 → bitW v 31 = true →
    ∃ t, exec (.hdlMirrorWrite i v) s = .next t ∧
      t.sets s (oMirror i) (if s.mirrorOk i (fld v 11 0) (fld v 23 12) then v &&& 0x80FFFFFF#32 else setFld (s.reg (oMirror i)) 30 30 1)) ∧
  (∀ (i : Nat) (v : Word) (s : State), s.pwr.phase = .mission → i < 64 → bitW v 31 = false →
    ∃ t, exec (.hdlMirrorWrite i v) s = .next t ∧ bitW (t.reg (oMirror i)) 31 = false ∧ fld (t.reg (oMirror i)) 23 0 = fld v 23 0 ∧
      (∀ o, o ≠ oMirror i → t.reg o = s.reg o) ∧ { t with regs := s.regs } = s) ∧
  (∀ (v : Word) (s : State), s.pwr.phase = .mission → (fld v 15 0 ≠ 0 ∨ s.sched.windows = []) →
    ∃ t, exec (.hdlGatherCtlWrite v) s = .next t ∧ t.sets s oGatherCtl (v &&& 0xFFFF#32)) ∧
  (∀ (v : Word) (s : State), s.pwr.phase = .mission → fld v 15 0 = 0 →
    ∃ t, exec (.hdlGatherCtlWrite v) s = .next t ∧ t.reg oGatherCtl = v &&& 0xFFFF#32 ∧ (∀ o, o ≠ oGatherCtl → t.reg o = s.reg o) ∧
      (∀ w ∈ t.sched.windows, w.closed = true) ∧ (∀ d, ∃ l, (t.weft d).arrayQ = (s.weft d).arrayQ ++ l) ∧
      { t with regs := s.regs, wa := s.wa, wb := s.wb, sched := { t.sched with windows := s.sched.windows } } = s) ∧
  (∀ (g : Nat) (v : Word) (s : State), s.pwr.phase = .mission → g < 16 → bitW (s.reg (oGrp g)) 22 = true →
    ∃ t, exec (.hdlGatherGrpWrite g v) s = .next t ∧
      t.sets s (oGrp g) (if bitW v 22 then s.reg (oGrp g) else setFld (s.reg (oGrp g)) 22 22 0)) ∧
  (∀ (g : Nat) (v : Word) (s : State), s.pwr.phase = .mission → g < 16 → bitW (s.reg (oGrp g)) 22 = false → bitW v 22 = false →
    ∃ t, exec (.hdlGatherGrpWrite g v) s = .next t ∧ fld (t.reg (oGrp g)) 22 0 = fld v 22 0 ∧
      (∀ o, o ≠ oGrp g → t.reg o = s.reg o) ∧ { t with regs := s.regs } = s) ∧
  (∀ (g : Nat) (v : Word) (s : State), s.pwr.phase = .mission → g < 16 → bitW (s.reg (oGrp g)) 22 = false → bitW v 22 = true →
    s.groupErr g (fld v 7 0) (fld v 21 8) = 0 →
    ∃ t, exec (.hdlGatherGrpWrite g v) s = .next t ∧ t.sets s (oGrp g) (v &&& 0x7FFFFF#32)) ∧
  (∀ (g : Nat) (v : Word) (s : State), s.pwr.phase = .mission → g < 16 → bitW (s.reg (oGrp g)) 22 = false → bitW v 22 = true →
    s.groupErr g (fld v 7 0) (fld v 21 8) ≠ 0 →
    ∃ t, exec (.hdlGatherGrpWrite g v) s = .next t ∧ bitW (t.reg (oGrp g)) 22 = false ∧ bitW (t.reg (oGrp g)) 30 = true ∧
      fld (t.reg (oGrp g)) 26 24 = s.groupErr g (fld v 7 0) (fld v 21 8) ∧
      (∀ o, o ≠ oGrp g → t.reg o = s.reg o) ∧ { t with regs := s.regs } = s) ∧
  (∀ (l d h : Nat) (v : Word) (s : State), s.pwr.phase = .mission → l < 8 → d < 2 → h < 2 →
    wheelHolds v (s.reg (oWheel l d (1 - h))) → s.quiet = true →
    ∃ t, exec (.wrpWheelWrite l d h v) s = .next t ∧ t.reg (oWheel l d h) = v ∧ t.reg oWheelStatus = 0 ∧
      (∀ o, o ≠ oWheel l d h → o ≠ oWheelStatus → t.reg o = s.reg o) ∧ { t with regs := s.regs } = s) ∧
  (∀ (l d h : Nat) (v : Word) (s : State), s.pwr.phase = .mission → l < 8 → d < 2 → h < 2 →
    (¬wheelHolds v (s.reg (oWheel l d (1 - h))) ∨ s.quiet = false) →
    ∃ t, exec (.wrpWheelWrite l d h v) s = .next t ∧ t.sets s oWheelStatus 1) ∧
  (∀ (l d : Nat), l < 8 → d < 2 →
    wheelTurns (State.reset.reg (oWheel l d 0)) + wheelTurns (State.reset.reg (oWheel l d 1)) = if l < 4 then 8 else 12)

/-! ### Register accesses -/

/-- R11, R555.  A read answers the word the offset holds now and changes nothing but the bus, and for a register of a Weft die the counters
of its link traffic (R270); the low word of a 64-bit register latches the high word of the same moment, the next read of the high word
answers the latch and frees it, 0 where the function may read the counter no more (R521) or the die is in reset (R527); an unassigned offset of the supervisor view
answers 0 and raises the bad-access source.
R12, R555, R461.  A read of any view with a wrong width or alignment answers all ones, and a write is discarded, as is a write of an
unassigned offset of the supervisor view; the bad-access source carries the master and the address. -/
def Obligations.RegisterReadsAnswerOrRaiseBadAccess : Prop :=
  (∀ (v : View) (off : Nat) (w : Word) (s : State), s.viewLive v = true → off % 4 = 0 → ¬((v = .sup ∨ v = .keeper) ∧ off = 0x518) →
    lookupN s.bus.hiLatch (viewKey v off) = none → s.valueAt v off = some w →
    ∃ t, exec (.registerLowWordRead v off) s = .next t ∧ t.bus.data = w ∧ t.bus.heldWrites = s.bus.heldWrites ∧
      (isLow v off = true → lookupN t.bus.hiLatch (viewKey v (off + 4)) = some ((s.valueAt v (off + 4)).getD 0)) ∧
      (isLow v off = false → t.bus.hiLatch = s.bus.hiLatch) ∧ State.sameButReads { t with bus := s.bus } s ∧
      (s.regReaches v off = none → { t with bus := s.bus } = s)) ∧
  (∀ (v : View) (off : Nat) (w : Word) (s : State), s.viewLive v = true → off % 4 = 0 → ¬((v = .sup ∨ v = .keeper) ∧ off = 0x518) →
    lookupN s.bus.hiLatch (viewKey v off) = some w →
    ∃ t, exec (.registerLowWordRead v off) s = .next t ∧ t.bus.data = (if s.latchOpen v off then w else 0) ∧
      lookupN t.bus.hiLatch (viewKey v off) = none ∧
      { t with bus := s.bus } = s) ∧
  (∀ (v : View) (off : Nat) (s : State), (v = .sup ∨ v = .keeper) → s.pwr.phase = .mission → off % 4 = 0 → off ≠ 0x518 →
    lookupN s.bus.hiLatch (viewKey v off) = none → s.readSup off = none → s.silent 0x000 →
    ∃ t, exec (.registerLowWordRead v off) s = .next t ∧ t.bus.data = 0 ∧
      t.captured 0x000 (cap none (viewMaster v) 8 (BitVec.ofNat 64 off) 4) ∧ State.sameButHealth { t with bus := s.bus } s) ∧
  (∀ (v : View) (off : Nat) (s : State), (v = .sup ∨ v = .keeper) → s.pwr.phase = .mission → off % 4 = 0 →
    ((regDie off).map s.dieHeld).getD false = false →
    s.readSup off = none → s.silent 0x000 →
    ∃ t, exec (.badRegisterAccess v .write off 4) s = .next t ∧
      t.captured 0x000 (cap none (viewMaster v) 8 (BitVec.ofNat 64 off) 4) ∧ t.sameButHealth s) ∧
  (∀ (v : View) (off width : Nat) (s : State),
    ((v = .sup ∨ v = .keeper) ∧ ((regDie off).map s.dieHeld).getD false = false ∨ (∃ f, v = .fn f) ∧ fnAssigned off = true) →
    s.viewLive v = true → (width ≠ 4 ∨ off % 4 ≠ 0) → s.silent 0x000 →
    ∃ t, exec (.badRegisterAccess v .read off width) s = .next t ∧ t.bus.data = 0xFFFFFFFF#32 ∧
      t.captured 0x000 (cap none (viewMaster v) 8 (BitVec.ofNat 64 off) 4) ∧ State.sameButHealth { t with bus := s.bus } s) ∧
  (∀ (v : View) (off width : Nat) (s : State),
    ((v = .sup ∨ v = .keeper) ∧ ((regDie off).map s.dieHeld).getD false = false ∨ (∃ f, v = .fn f) ∧ fnAssigned off = true) →
    s.viewLive v = true → (width ≠ 4 ∨ off % 4 ≠ 0) → s.silent 0x000 →
    ∃ t, exec (.badRegisterAccess v .write off width) s = .next t ∧
      t.captured 0x000 (cap none (viewMaster v) 8 (BitVec.ofNat 64 off) 4) ∧ t.sameButHealth s) ∧
  (∀ (f : FnId) (off : Nat) (s : State), s.viewLive (.fn f) = true → fnAssigned off = false → off < 0x1010000 →
    ∃ t, exec (.badRegisterAccess (.fn f) .read off 4) s = .next t ∧ t.bus.data = 0 ∧ { t with bus := s.bus } = s)

/-- R13, R556, R369, R505, R331.  A write of the supervisor view sets the fields that software writes: debug addresses whole, SYNC_PHASE and
HSP_SRC_CFG by their bits; write-one-to-clear bits of SYNC_STATUS clear; a read-only register stays; a write through a function's window
keeps what the register only reports; the same store goes through the Keeper view (but for the master of the link traffic to a Weft die). -/
def Obligations.RegisterWritesFollowTheirFields : Prop :=
  (∀ (v : Word) (s : State), s.pwr.phase = .mission →
    (∃ t, exec (.registerWrite .sup 0x510 v) s = .next t ∧ t.sets s oDbgLo v) ∧
    (∃ t, exec (.registerWrite .sup 0x228 v) s = .next t ∧ t.sets s oSyncPhase (v &&& 0xFFFFF#32)) ∧
    (∃ t, exec (.registerWrite .sup 0x22C v) s = .next t ∧ t.sets s oSyncStatus (s.reg oSyncStatus &&& ~~~v)) ∧
    exec (.registerWrite .sup 0x000 v) s = .next s) ∧
  (∀ (n : Nat) (v : Word) (s : State), s.pwr.phase = .mission → n < 768 →
    ∃ t, exec (.registerWrite .sup (oSrcCfg n) v) s = .next t ∧ t.sets s (oSrcCfg n) (v &&& 0xFFFF7FFF#32)) ∧
  (∀ (off : Nat) (v : Word) (s : State), exec (.registerWrite .keeper off v) s = exec (.registerWrite .sup off v) s ∨
    s.readSup off = none ∨ (regDie off).isSome = true) ∧
  (∀ (f : FnId) (v : Word) (s : State), s.viewLive (.fn f) = true →
    ∃ t, exec (.registerWrite (.fn f) 0x1000060 v) s = .next t ∧
      t.fnReg f 0x60 = (v &&& 0x800FFFFF#32) ||| (s.fnReg f 0x60 &&& 0x7FF00000#32) ∧ { t with fnRegs := s.fnRegs } = s) ∧
  (∀ (off : Nat) (v : Word) (s : State), s.pwr.phase = .mission → s.pwr.recovery = true → off % 4 = 0 → off < 0x1000000 →
    s.wa.beam.wf = true →
    ∃ t, exec (.registerWrite .supStaging off v) s = .next t ∧
      (∀ a, t.wa.beam.read a = if off ≤ a ∧ a < off + 4 then (leBytes 4 v.toNat).getD (a - off) 0 else s.wa.beam.read a) ∧
      { t.wa with beam := s.wa.beam } = s.wa ∧ { t with wa := s.wa } = s)

/-- R499, R505, R502.  KPR_DBG_DATA reads 0 and discards writes below Open; at Open it reads the word that KPR_DBG_ADDR names and writes one of
Beam SRAM; lost data reads all ones (log entry 164), and so does a die whose group is not in Run, with access_err set; an address outside
the levels stops the block (the model's own stop, log entry 16); the level is only lowered.
R372, R499.  The debug header answers IDCODE at every level, and a scan answers a free word (log entry 168); beyond its level an operation
does nothing; a register of a sleeping die reads all ones with access_err set; at Open it halts and resumes a pair that answers, and reads a
register of it. -/
def Obligations.DebugAccessObeysTheLevel : Prop :=
  (∀ (chk : ReadChecks) (s : State), s.pwr.phase = .mission → s.debugLevel ≠ 2 →
    exec (.kprDbgDataRead chk) s = .next { s with bus := { s.bus with data := 0 } }) ∧
  (∀ (v : Word) (s : State), s.pwr.phase = .mission → s.debugLevel ≠ 2 → exec (.kprDbgDataWrite v) s = .next s) ∧
  (∀ (d : Weft) (l : Level) (o : Nat) (chk : ReadChecks) (s : State), s.pwr.phase = .mission → s.debugLevel = 2 →
    dbgPlace s.dbgAddr = some (d, l, o) → (s.weft d).beamGrp = .at .run → chk.hit = none →
    ∃ t, exec (.kprDbgDataRead chk) s = .next t ∧ t.bus.data = BitVec.ofNat 32 (((s.weft d).level l).readLe o 4) ∧
      State.sameButReads { t with bus := s.bus } s) ∧
  (∀ (d : Weft) (l : Level) (o : Nat) (chk : ReadChecks) (s : State), s.pwr.phase = .mission → s.debugLevel = 2 →
    dbgPlace s.dbgAddr = some (d, l, o) → (s.weft d).beamGrp = .at .run → chk.hit ≠ none →
    ∃ t, exec (.kprDbgDataRead chk) s = .next t ∧ t.bus.data = 0xFFFFFFFF#32) ∧
  (∀ (d : Weft) (l : Level) (o : Nat) (chk : ReadChecks) (s : State), s.pwr.phase = .mission → s.debugLevel = 2 →
    dbgPlace s.dbgAddr = some (d, l, o) → (s.weft d).beamGrp ≠ .at .run →
    ∃ t, exec (.kprDbgDataRead chk) s = .next t ∧ t.bus.data = 0xFFFFFFFF#32 ∧ bitW (t.reg oDebug) 2 = true ∧
      (∀ r, r ≠ oDebug → t.reg r = s.reg r) ∧ { t with bus := s.bus, regs := s.regs } = s) ∧
  (∀ (d : Weft) (o : Nat) (v : Word) (s : State), s.pwr.phase = .mission → s.debugLevel = 2 → dbgPlace s.dbgAddr = some (d, .beam, o) →
    (s.weft d).beamGrp = .at .run → (s.weft d).beam.wf = true →
    ∃ t, exec (.kprDbgDataWrite v) s = .next t ∧
      (∀ a, (t.weft d).beam.read a = if o ≤ a ∧ a < o + 4 then (leBytes 4 v.toNat).getD (a - o) 0 else (s.weft d).beam.read a) ∧
      { t.weft d with beam := (s.weft d).beam } = s.weft d ∧ t.weft (otherDie d) = s.weft (otherDie d) ∧
      State.sameButCounters { t with wa := s.wa, wb := s.wb, freshCtr := s.freshCtr } s) ∧
  (∀ (chk : ReadChecks) (v : Word) (s : State), s.pwr.phase = .mission → s.debugLevel = 2 → dbgPlace s.dbgAddr = none →
    exec (.kprDbgDataRead chk) s = .fault .debugOutsideLevel ∧ exec (.kprDbgDataWrite v) s = .fault .debugOutsideLevel) ∧
  (∀ (v : Word) (s : State), s.pwr.phase = .mission → ∃ t, exec (.kprDebugWrite v) s = .next t ∧ t.debugLevel = min s.debugLevel (fld v 1 0) ∧
    (bitW v 2 = true → bitW (t.reg oDebug) 2 = false) ∧ (∀ o, o ≠ oDebug → t.reg o = s.reg o) ∧ { t with regs := s.regs } = s) ∧
  (∀ (chk : ReadChecks) (s : State), exec (.jtagAccess .idcode chk) s = .next { s with bus := { s.bus with data := Config.idcode } } ∧
    exec (.jtagAccess .boundaryScan chk) s = .next { s with
      freshCtr := s.freshCtr + 1, bus := { s.bus with data := (Config.freeDword s.freshCtr).setWidth 32 } }) ∧
  (∀ (op : JtagOp) (chk : ReadChecks) (s : State), s.debugLevel = 0 → op ≠ .idcode → op ≠ .boundaryScan →
    exec (.jtagAccess op chk) s = .next s) ∧
  (∀ (off : Nat) (d : Weft) (chk : ReadChecks) (s : State), s.pwr.phase = .mission → off % 4 = 0 → off ≠ 0x518 → regDie off = some d →
    s.diePhase d = none →
    ((s.debugLevel = 1 ∧ s.controlAsleep d = true) ∨ (s.debugLevel = 2 ∧ (s.weft d).beamGrp ≠ .at .run)) →
    ∃ t, exec (.jtagAccess (.readReg off) chk) s = .next t ∧ t.bus.data = 0xFFFFFFFF#32 ∧ bitW (t.reg oDebug) 2 = true ∧
      (∀ r, r ≠ oDebug → t.reg r = s.reg r) ∧ { t with bus := s.bus, regs := s.regs } = s) ∧
  (∀ (n : Nat) (p : Pair) (chk : ReadChecks) (s : State), s.pwr.phase = .mission → s.debugLevel = 2 → s.pairAnswers n = true → s.pair? n = some p →
    (∃ t, exec (.jtagAccess (.haltPair n) chk) s = .next t ∧ t.pair? n = some { p with debugHalt := true, debugStep := false } ∧
      (∀ m, m ≠ n → t.pair? m = s.pair? m) ∧ { t with wa := s.wa, wb := s.wb } = s) ∧
    (∃ t, exec (.jtagAccess (.resumePair n) chk) s = .next t ∧ t.pair? n = some { p with debugHalt := false, debugStep := false } ∧
      (∀ m, m ≠ n → t.pair? m = s.pair? m) ∧ { t with wa := s.wa, wb := s.wb } = s) ∧
    (∀ r, r < 32 → exec (.jtagAccess (.inspectPair n r 0) chk) s = .next { s with
      bus := { s.bus with data := BitVec.ofNat 32 (p.getX r).toNat } }))

/-- R517, R514, R526, R557.  A programmable counter is enabled by a word that names an event of its die, refused otherwise with only the
refused bit set, and takes no other write while enabled; a write to a die whose control group sleeps waits; a watch slot is enabled with
results at 0, or refused with its reason. -/
def Obligations.CounterAndWatchSelection : Prop :=
  (∀ (i : Nat) (v : Word) (s : State), i < 32 → s.pwr.phase = .mission → bitW (s.reg (oCtrSel 0 i)) 31 = false → bitW v 31 = true →
    ∃ t, exec (.ctrSelWrite .selvedge i v) s = .next t ∧
      t.sets s (oCtrSel 0 i) (if ctrSelRefused 0 v then setFld (s.reg (oCtrSel 0 i)) 15 15 1 else v &&& 0xFFFF03FF#32)) ∧
  (∀ (i : Nat) (v : Word) (s : State), i < 32 → s.pwr.phase = .mission → bitW (s.reg (oCtrSel 0 i)) 31 = true →
    ∃ t, exec (.ctrSelWrite .selvedge i v) s = .next t ∧
      t.sets s (oCtrSel 0 i) (if bitW v 31 then s.reg (oCtrSel 0 i) else setFld (s.reg (oCtrSel 0 i)) 31 31 0)) ∧
  (∀ (i : Nat) (v : Word) (s : State), i < 32 → s.pwr.phase = .mission → s.diePhase .a = none → s.controlAsleep .a = true →
    exec (.ctrSelWrite .weftA i v) s = .next { s with
      bus := { s.bus with heldWrites := s.bus.heldWrites ++ [(0x500000 + 0x4000 + 0x20 * i, v)] } }) ∧
  (∀ (w : Nat) (v : Word) (s : State), w < 16 → s.pwr.phase = .mission → bitW v 20 = true →
    ∃ t, exec (.ctrWatchCfgWrite w v) s = .next t ∧
      ((s.watchErr w v = 0 ∧ t.reg (oWatchCfg w) = v &&& 0x1FFFFF#32 ∧ lookupN t.ctr.watch w = none ∧
          (∀ k, k ≠ w → lookupN t.ctr.watch k = lookupN s.ctr.watch k) ∧ { t with regs := s.regs, ctr := s.ctr } = s) ∨
        (s.watchErr w v ≠ 0 ∧ t.sets s (oWatchCfg w) (setFld (s.reg (oWatchCfg w)) 22 21 (s.watchErr w v)))))

/-! ### Fault reactions, acknowledgement and recovery -/

/-- R463, R464, R459, R379.  An expired grace timer fires the second set once, unless the reference is lost; an acknowledgement by a function clears its status, and the source
where the source allows it; HSP_RAISED acknowledges the sources written 1 and no others; HSP_FIRST is freed. -/
def Obligations.AcknowledgementEndsARaise : Prop :=
  (∀ (n : Nat) (s : State), lookupN s.hasp.grace n = some 0 → s.hasp.raised.contains n = true → s.hasp.secondFired.contains n = false →
    s.pwr.refLost = false → s.secondSet n = 64 →
    exec (.graceTimerExpiry n) s = .next { s with
      pins := { s.pins with faultN := true, alive := false, aliveRun := false }
      hasp := { s.hasp with secondFired := addSet s.hasp.secondFired n, grace := eraseN s.hasp.grace n } }) ∧
  (∀ (n : Nat) (s : State), (lookupN s.hasp.grace n ≠ some 0 ∨ s.pwr.refLost = true) → exec (.graceTimerExpiry n) s = .next s) ∧
  (∀ (f : FnId) (s : State), s.fnLive f = true → bitW (s.fnReg f 0x74) 31 = true →
    lookupN s.hasp.grace (fld (s.fnReg f 0x74) 9 0) ≠ some 0 →
    ∃ t, exec (.faultStatusAck f) s = .next t ∧ bitW (t.fnReg f 0x74) 31 = false ∧ fld (t.fnReg f 0x74) 29 23 = 0 ∧
      (bitW (s.reg (oSrcCfg (fld (s.fnReg f 0x74) 9 0))) 14 = true → t.hasp.raised.contains (fld (s.fnReg f 0x74) 9 0) = false ∧
        lookupN t.hasp.grace (fld (s.fnReg f 0x74) 9 0) = none) ∧
      (bitW (s.reg (oSrcCfg (fld (s.fnReg f 0x74) 9 0))) 14 = false → t.hasp = s.hasp) ∧
      { t with fnRegs := s.fnRegs, hasp := s.hasp } = s) ∧
  (∀ (i : Nat) (v : Word) (s : State), i < 24 → s.pwr.phase = .mission → (∀ n, lookupN s.hasp.grace n ≠ some 0) →
    ∃ t, exec (.hspRaisedAck i v) s = .next t ∧
      (∀ n, t.hasp.raised.contains n = (s.hasp.raised.contains n && !(decide (n / 32 = i) && v.getLsbD (n % 32)))) ∧
      (∀ n, s.hasp.raised.contains n = true → t.hasp.raised.contains n = false → lookupN t.hasp.grace n = none) ∧
      { t with hasp := s.hasp } = s) ∧
  (∀ s : State, s.pwr.phase = .mission →
    ∃ t, exec .hspFirstClear s = .next t ∧ t.sets s oFirst (setFld (s.reg oFirst) 31 31 0))

/-- R470, R467, R481, R472.  A progress trip of an engine under a self-test slice resets that engine and captures its source with the counter
value; a trip of a context kills its started step and captures source 0x013; a monitor whose window is 0 never trips, and none once the reference
is lost (R379). -/
def Obligations.ProgressTripsActOnTheInstance : Prop :=
  (∀ (n ring : Nat) (c : Dword) (cs : List Nat) (s : State), s.progWindow .engine ≠ 0 → s.armed .engine n ring cs = true →
    s.pwr.refLost = false → (s.weft (weftOf n)).checks.slice.isSome = true → s.silent (weftSrc (weftOf n) (8 + n % 4)) →
    ∃ t, exec (.progressMonitorTrip .engine n ring c cs) s = .next t ∧ t.unitPhase (.engine n) = some .resetting ∧
      (∀ u, u ≠ .engine n → t.unitPhase u = s.unitPhase u) ∧ (t.weft (weftOf n)).checks.slice = none ∧
      t.captured (weftSrc (weftOf n) (8 + n % 4)) (cap none (BitVec.ofNat 8 (0x70 + n)) 7
        (BitVec.ofNat 64 (s.progressOf (monKey .engine n ring))) n) ∧ t.steps = s.steps ∧
      State.sameButHealth { t with ladder := s.ladder, wa := s.wa, wb := s.wb } s) ∧
  (∀ (x ring : Nat) (c : Dword) (cs : List Nat) (s : State), s.progWindow .context ≠ 0 → s.armed .context x ring cs = true →
    s.pwr.refLost = false → s.silent 0x013 →
    ∃ t, exec (.progressMonitorTrip .context x ring c cs) s = .next t ∧ lookupN t.ladder.kills x = some 3 ∧
      t.captured 0x013 (cap (some x) noMaster 7 (BitVec.ofNat 64 (s.progressOf (monKey .context x ring))) 0) ∧ t.steps = s.steps ∧ t.ctxs = s.ctxs ∧ t.hostMemA = s.hostMemA ∧
      t.hostMemB = s.hostMemB ∧ t.drafts = s.drafts) ∧
  (∀ (k : MonKind) (n ring : Nat) (c : Dword) (cs : List Nat) (s : State), (s.progWindow k = 0 ∨ s.pwr.refLost = true) →
    exec (.progressMonitorTrip k n ring c cs) s = .next s)

/-- R474, R442, R475, R388, R461.  A unit reset that ends runs the unit's injection; one that misses its deadline raises reset-hang and goes to
isolation, on Selvedge to a module reset; isolation disables the unit; a die reset or a module reset that hangs raises reset-hang and takes
the next rung; no deadline passes once the reference is lost (R379).
R478, R388.  A die whose training and injection passed is in service again, and every link that joins it to a die out of reset is up with
both modules, unless it is disabled.
R276.  Its groups, as those of the other die, that are deeper than the floor in force are told to wake. -/
def Obligations.RecoveryLadderClimbs : Prop :=
  (∀ (u : UnitId) (s : State), s.unitPhase u = some .resetting → u ≠ .creel → u ≠ .heddle →
    ∃ t, exec (.unitResetDone u) s = .next t ∧ t.unitPhase u = some .injecting ∧ (∀ w, w ≠ u → t.unitPhase w = s.unitPhase w) ∧
      t.reg oInject = 13 ∧ (∀ o, o ≠ oInject → t.reg o = s.reg o) ∧ { t with ladder := s.ladder, regs := s.regs } = s) ∧
  (∀ (u : UnitId) (s : State), s.unitPhase u = some .resetting → (u = .creel ∨ u = .heddle) → s.noSteps → s.wa.checks.phase ≠ .due →
    s.wb.checks.phase ≠ .due →
    ∃ t, exec (.unitResetDone u) s = .next t ∧ t.unitPhase u = none ∧ { t with ladder := s.ladder } = s) ∧
  (∀ (u : UnitId) (s : State), s.unitPhase u = some .resetting → u ≠ .creel → u ≠ .heddle → s.pwr.refLost = false →
    s.silent 0x00E →
    ∃ t, exec (.rungDeadlineExpiry (.unit u)) s = .next t ∧ t.unitPhase u = some .isolating ∧
      t.captured 0x00E (cap none noMaster 0 0 (unitCode u)) ∧ State.sameButHealth { t with ladder := s.ladder } s) ∧
  (∀ (u : UnitId) (s : State), s.unitPhase u = some .resetting → (u = .creel ∨ u = .heddle) → s.pwr.refLost = false →
    s.pwr.phase = .mission → s.hasp.raised.contains 0x00E = false →
    ∃ t, exec (.rungDeadlineExpiry (.unit u)) s = .next t ∧ t.pwr.phase = .powerUp ∧ t.ladder.module = true ∧
      t.pins.faultN = true ∧ t.captured 0x00E (cap none noMaster 0 0 (unitCode u)) ∧ t.ctxs = [] ∧ t.wa = WeftDie.reset ∧
      t.wb = WeftDie.reset) ∧
  (∀ (d : Weft) (s : State), (s.diePhase d).isSome = true → s.pwr.phase = .mission → s.pwr.refLost = false → s.silent 0x00E →
    ∃ t, exec (.rungDeadlineExpiry (.die d)) s = .next t ∧ t.pwr.phase = .powerUp ∧ t.pins.faultN = true ∧ t.ladder.module = true ∧
      t.captured 0x00E (cap none noMaster 0 0 0xFF) ∧ t.ctxs = [] ∧ t.drafts = [] ∧ t.wa = WeftDie.reset ∧ t.wb = WeftDie.reset) ∧
  (∀ s : State, s.ladder.module = true → s.pwr.refLost = false → s.silent 0x00E → s.portA.up = false → s.portB.up = false → s.portS.up = false →
    ∃ t, exec (.rungDeadlineExpiry .module) s = .next t ∧ t.pwr.phase = .powerDown ∧ t.pwr.lockout = .ladder ∧ t.pins.faultN = true ∧
      t.captured 0x00E (cap none noMaster 0 0 0xFF)) ∧
  (∀ (u : UnitId) (s : State), s.unitPhase u = some .isolating → u.wf = true → u ≠ .creel → u ≠ .heddle → s.noSteps →
    s.wa.checks.phase ≠ .due → s.wb.checks.phase ≠ .due →
    ∃ t, exec (.isolationConfirmed u) s = .next t ∧ t.unitPhase u = none ∧ t.isDisabled u = true ∧
      t.sched = { s.sched with retest := false } ∧
      { t with ladder := s.ladder, disabled := s.disabled, links := s.links, sched := s.sched } = s) ∧
  (∀ (d : Weft) (s : State), s.diePhase d = some .linking → (s.weft d).trainFailed = false → (s.weft d).injectFailed = false →
    s.noSteps → s.wa.checks.phase ≠ .due → s.wb.checks.phase ≠ .due →
    ∃ t, exec (.dieInService d) s = .next t ∧ (t.weft d).inService = true ∧ t.diePhase d = none ∧
      t.diePhase (otherDie d) = s.diePhase (otherDie d) ∧ (t.weft d).sameButGroups { s.weft d with inService := true } ∧
      (t.weft (otherDie d)).sameButGroups (s.weft (otherDie d)) ∧
      (∀ e g, (t.weft e).grp g =
        if ∃ n, s.floor = some n ∧ n < ((s.weft e).grp g).depth then ((s.weft e).grp g).wake else (s.weft e).grp g) ∧
      (∀ (l : Nat) (x : Link), s.links[l]? = some x → t.links[l]? = some (if linkOn l d &&
          !(linkOn l (otherDie d) && (s.diePhase (otherDie d)).isSome) && decide (x.state ≠ 3)
        then { x with state := 2, modulesUp := 3 } else x)) ∧
      { t with wa := s.wa, wb := s.wb, ladder := s.ladder, links := s.links } = s) ∧
  (∀ (r : RungId) (s : State), s.pwr.refLost = true → exec (.rungDeadlineExpiry r) s = .next s)

/-- R472, R473, R474, R475, R478, R480.  HSP_ACTION: a kill drops the started step's work from every queue of both dies, tells the units with
work of its context to flush, and releases its latches,
and its record comes with the kill's completion; a unit reset clears an idle unit and no other; a die reset returns the die to its initial
state and empties the draft table; a module reset closes everything. -/
def Obligations.ActionsKillAndReset : Prop :=
  (∀ (c : Nat) (x : Step) (s : State), s.pwr.phase = .mission → s.begunStep c = some x → lookupN s.ladder.kills c = none →
    ∃ t, exec (.hspActionKill c) s = .next t ∧ lookupN t.ladder.kills c = some 3 ∧ t.ladder.action = .kill c ∧
      (∀ d, ∀ o ∈ (t.weft d).ops, ∀ m ∈ o.members, m.step ≠ x.id) ∧ (∀ l ∈ t.latches, l.2 ≠ .program c) ∧ t.steps = s.steps ∧
      (x.stage ≠ .delivering → t.hostMemA = s.hostMemA ∧ t.hostMemB = s.hostMemB) ∧
      (∀ k u, (k, u) ∈ t.ladder.flush ↔ (k, u) ∈ s.ladder.flush ∨ (k = c ∧ (k, u) ∈ s.flushUnits c)) ∧
      State.sameButCounters { t with
        ladder := s.ladder, wa := s.wa, wb := s.wb, freshCtr := s.freshCtr, latches := s.latches, sched := s.sched
        hostMemA := s.hostMemA, hostMemB := s.hostMemB } s) ∧
  (∀ (c : Nat) (s : State), s.pwr.phase = .mission → s.begunStep c = none →
    exec (.hspActionKill c) s = .next { s with ladder := { s.ladder with action := .kill c } }) ∧
  (∀ (n : Nat) (s : State), s.pwr.phase = .mission → s.unitHeld (.engine n) = false → s.unitCtxs (.engine n) = [] →
    s.sched.retest = false →
    ∃ t, exec (.hspActionUnitReset (.engine n)) s = .next t ∧ t.unitPhase (.engine n) = some .resetting ∧
      (∀ u, u ≠ .engine n → t.unitPhase u = s.unitPhase u) ∧ t.ladder.action = .unit (.engine n) ∧
      t.weft (otherDie (weftOf n)) = s.weft (otherDie (weftOf n)) ∧ (t.weft (weftOf n)).pairs = (s.weft (weftOf n)).pairs ∧
      (t.weft (weftOf n)).beam = (s.weft (weftOf n)).beam ∧ { t with ladder := s.ladder, wa := s.wa, wb := s.wb } = s) ∧
  (∀ (d : Weft) (s : State), s.pwr.phase = .mission → s.diePhase d = none → s.steps = [] → s.posted = [] →
    s.loadBusy = none → (∀ f ∈ allFns, bitW (s.fnReg f 0x60) 31 = false) →
    ∃ t, exec (.hspActionDieReset d) s = .next t ∧ t.diePhase d = some .training ∧ t.drafts = [] ∧ (t.weft d).inService = false ∧
      (∀ a, (t.weft d).beam.read a = 0) ∧ (∀ a, (t.weft d).gddr.read a = 0) ∧
      (s.drafts = [] → (t.weft (otherDie d)).beam = (s.weft (otherDie d)).beam ∧
        (t.weft (otherDie d)).gddr = (s.weft (otherDie d)).gddr) ∧ (t.weft (otherDie d)).codebooks = [] ∧ t.ctxs = s.ctxs ∧
      t.hostMemA = s.hostMemA ∧ t.hostMemB = s.hostMemB ∧ t.pins = s.pins ∧ t.pwr = s.pwr) ∧
  (∀ s : State, s.pwr.phase = .mission →
    ∃ t, exec .hspActionModuleReset s = .next t ∧ t.pwr.phase = .powerUp ∧ t.ladder.module = true ∧ t.ctxs = [] ∧ t.rings = [] ∧
      t.steps = [] ∧ t.drafts = [] ∧ t.recipes = [] ∧ t.wa = WeftDie.reset ∧ t.wb = WeftDie.reset ∧ t.pins.faultN = s.pins.faultN ∧
      ((∀ x ∈ s.steps, x.stage ≠ .delivering) → t.hostMemA = s.hostMemA ∧ t.hostMemB = s.hostMemB) ∧ t.sec.ownedFuse = s.sec.ownedFuse)

/-! ### Tumbler -/

/-- R500, R501, R502, R506, R503.  A nonce is written at mailbox offset 0 and kept; a token consumes it whatever the result, reports the first
check that fails, and where all pass raises the level, moves the life cycle, or returns the part; none passes before start-up injection
did, or in Recovery.
R483.  A command that comes while Tumbler works on one is ignored; one that comes during a draft load waits for its end. -/
def Obligations.TokensConsumeTheNonce : Prop :=
  (∀ s : State, s.tumblerFree → s.sec.mailbox.wf = true →
    ∃ t, exec .tmbNonce s = .next t ∧ t.sec.nonce = some (BitVec.ofNat 128 (leNat (t.mail 0 16))) ∧ t.sec.tmbResult = 0 ∧
      (∀ a, 16 ≤ a → t.sec.mailbox.read a = s.sec.mailbox.read a) ∧ State.sameButCounters { t with sec := s.sec, freshCtr := s.freshCtr } s ∧
      { t.sec with mailbox := s.sec.mailbox, nonce := s.sec.nonce, tmbResult := s.sec.tmbResult } = s.sec) ∧
  (∀ s : State, s.tumblerFree →
    ∃ t, exec .tmbToken s = .next t ∧ t.sec.nonce = none ∧ t.sec.tmbResult = BitVec.ofNat 8 s.tokenErr ∧
      (s.tokenErr ≠ 0 → t.sameButCounters { s with sec := { s.sec with nonce := none, tmbResult := BitVec.ofNat 8 s.tokenErr } }) ∧
      (s.tokenErr = 0 →
        (leAt (s.mail 0 128) 6 1 = 1 → t.debugLevel = max s.debugLevel 1 ∧ t.steps = s.steps) ∧
        (leAt (s.mail 0 128) 6 1 = 2 → t.debugLevel = 2 ∧ ∀ x ∈ t.steps, x.stage ≠ .waiting → x.unqualified = true) ∧
        (leAt (s.mail 0 128) 6 1 = 16 ∨ leAt (s.mail 0 128) 6 1 = 17 →
          t.sec.toggles.toNat = s.sec.toggles.toNat + 1 ∧ t.debugLevel = 0 ∧ t.steps = s.steps) ∧
        (leAt (s.mail 0 128) 6 1 = 18 →
          t.sec.returnedFuse = true ∧ t.debugLevel = 0 ∧ t.sec.draftKeys = [] ∧ t.sec.owner = none ∧ t.mode = 2) ∧
        (leAt (s.mail 0 128) 6 1 ≠ 18 → t.sec.returnedFuse = s.sec.returnedFuse ∧ t.sec.draftKeys = s.sec.draftKeys ∧
          t.sec.owner = s.sec.owner) ∧
        t.sec.mailbox = s.sec.mailbox ∧ t.sec.rollbackFused = s.sec.rollbackFused ∧ t.ctxs = s.ctxs ∧ t.pins = s.pins)) ∧
  (∀ s : State, (s.pwr.recovery = true ∨ s.pwr.injected = false ∨ s.pwr.moduleInjectFailed = true ∨ s.pwr.startFailed ≠ []) →
    s.tokenErr = 6) ∧
  (∀ (c : Instr) (k : Nat) (s : State),
    (c = .tmbNonce ∨ c = .tmbToken ∨ c = .tmbAttest ∨ c = .tmbLoadDraftKey ∨ c = .tmbEraseDraftKey k ∨ c = .tmbEnrol) →
    (s.tumblerOn = false ∨ s.tumblerBusy = true) → exec c s = .next s) ∧
  (∀ (op k : Nat) (c : Instr) (s : State), s.tumblerOn = true → s.tumblerBusy = false → s.loadHasTumbler = true → k < 128 →
    ((c = .tmbNonce ∧ op = 1 ∧ k = 0) ∨ (c = .tmbToken ∧ op = 2 ∧ k = 0) ∨ (c = .tmbAttest ∧ op = 3 ∧ k = 0) ∨
      (c = .tmbLoadDraftKey ∧ op = 4 ∧ k = 0) ∨ (c = .tmbEraseDraftKey k ∧ op = 5) ∨ (c = .tmbEnrol ∧ op = 6 ∧ k = 0)) →
    ∃ t w, exec c s = .next t ∧ t = { s with sec := { s.sec with tmbWaiting := some w } } ∧ fld w 3 0 = op ∧ fld w 22 16 = k)

/-- R496, R512, R509, R511, R494, R497.  A draft key loads only under an owner record, with a tag that verifies and a number in 1 to 64 that no
loaded draft uses, and is erased only when unused; a report starts with its magic and the caller's nonce; an accepted owner record goes to
the first flash copy and the enrolment stays in progress, and one that fails a check leaves its result.  Where R496 gives no code the
result is free (log entry 9). -/
def Obligations.TumblerKeysReportsAndEnrolment : Prop :=
  (∀ (key : BitVec 256) (s : State), s.tumblerFree → s.mailKey = some key → 1 ≤ leNat (s.mail 0 2) → leNat (s.mail 0 2) ≤ 64 →
    (lookupN s.sec.draftKeys (leNat (s.mail 0 2)) = none ∨ s.keyUsed (leNat (s.mail 0 2)) = false) →
    ∃ t, exec .tmbLoadDraftKey s = .next t ∧ t.sec.tmbResult = 0 ∧
      (∀ k, lookupN t.sec.draftKeys k = if k = leNat (s.mail 0 2) then some key else lookupN s.sec.draftKeys k) ∧
      State.sameButCounters { t with sec := s.sec } s ∧ { t.sec with tmbResult := s.sec.tmbResult, draftKeys := s.sec.draftKeys } = s.sec) ∧
  (∀ s : State, s.tumblerFree →
    (s.sec.owk = none ∨ s.mailKey = none ∨ leNat (s.mail 0 2) = 0 ∨ 64 < leNat (s.mail 0 2) ∨
      ((lookupN s.sec.draftKeys (leNat (s.mail 0 2))).isSome = true ∧ s.keyUsed (leNat (s.mail 0 2)) = true)) →
    ∃ t, exec .tmbLoadDraftKey s = .next t ∧ State.sameButCounters { t with sec := s.sec, freshCtr := s.freshCtr } s ∧
      { t.sec with tmbResult := s.sec.tmbResult } = s.sec ∧ (s.sec.owk = none → t.sec.tmbResult = 0x12) ∧
      (s.sec.owk ≠ none → s.mailKey = none → t.sec.tmbResult = 0x10)) ∧
  (∀ (k : Nat) (s : State), s.tumblerFree → k < 128 → s.keyUsed k = false →
    ∃ t, exec (.tmbEraseDraftKey k) s = .next t ∧ t.sec.tmbResult = 0 ∧
      (∀ j, lookupN t.sec.draftKeys j = if j = k then none else lookupN s.sec.draftKeys j) ∧
      State.sameButCounters { t with sec := s.sec } s ∧ { t.sec with tmbResult := s.sec.tmbResult, draftKeys := s.sec.draftKeys } = s.sec) ∧
  (∀ (k : Nat) (s : State), s.tumblerFree → k < 128 → s.keyUsed k = true →
    ∃ t, exec (.tmbEraseDraftKey k) s = .next t ∧ t.sameButCounters { s with sec := { s.sec with tmbResult := 6 } }) ∧
  (∀ s : State, s.tumblerFree → s.pwr.recovery = false → s.pwr.firmware = true → s.sec.mailbox.wf = true →
    ∃ t, exec .tmbAttest s = .next t ∧ t.sec.tmbResult = 0 ∧ t.mail 0 4 = [0x41, 0x54, 0x54, 0x52] ∧ t.mail 8 32 = s.mail 0 32 ∧
      t.mail 40 32 = leBytes 32 s.sec.idPk.toNat ∧
      State.sameButCounters { t with sec := s.sec, freshCtr := s.freshCtr } s ∧
      { t.sec with tmbResult := s.sec.tmbResult, mailbox := s.sec.mailbox } = s.sec) ∧
  (∀ s : State, s.tumblerFree → (s.pwr.recovery = true ∨ s.pwr.firmware = false) →
    ∃ t, exec .tmbAttest s = .next t ∧ t.sameButCounters { s with sec := { s.sec with tmbResult := 0x12 } }) ∧
  (∀ s : State, s.tumblerFree →
    ∃ t, exec .tmbEnrol s = .next t ∧
      t.sameButCounters { s with sec := if s.enrolErr (s.mail 0 8304) = 0
        then { s.sec with owner0 := s.mail 0 8304, enrolling := some (s.mail 0 8304) }
        else { s.sec with tmbResult := BitVec.ofNat 8 (s.enrolErr (s.mail 0 8304)) } })

/-! ### Contexts, rings, latches and doorbells -/

/-- R300, R301, R302, R307, R473.  An open that passes its checks makes a context of a free ID at the highest version offered; one that fails
leaves none and reports the status; a close stops the context's reads and, once its kill is complete, takes away its rings, latches and
descriptors and frees its ID; a kill that completes ends the step with its status, whose record waits while its ring is full, and units that did not
confirm the flush stay as they are. -/
def Obligations.ContextsOpenAndClose : Prop :=
  (∀ (f : FnId) (w : Word) (s : State), s.fnLive f = true → bitW w 31 = true → s.openStatus f w = 0 → (∃ i, i < 4096 ∧ s.ctx? i = none) →
    ∃ t c, exec (.hdlFnCtxOpenGo f w) s = .next t ∧ t.ctxs = s.ctxs ++ [c] ∧ s.ctx? c.id = none ∧ c.id < 4096 ∧ c.fn = f ∧
      c.lc = bitW w 2 ∧ (c.role = .mirrorTarget ↔ bitW w 3 = true) ∧ c.version = (if bitW w 1 then 3 else 2) ∧ c.stepCounter = 0 ∧
      c.closing = false ∧ c.bound = [] ∧ t.fnReg f 0x14 = openResult c.id c.version 0 ∧
      (∀ g o, g.num < 32 → f.num < 32 → o < 0x1000 → (g ≠ f ∨ (o ≠ 0x00 ∧ o ≠ 0x14)) → t.fnReg g o = s.fnReg g o) ∧
      { t with ctxs := s.ctxs, fnRegs := s.fnRegs, wa := s.wa, wb := s.wb, freshCtr := s.freshCtr } = s) ∧
  (∀ (f : FnId) (w : Word) (s : State), s.fnLive f = true → bitW w 31 = true → s.openStatus f w ≠ 0 →
    exec (.hdlFnCtxOpenGo f w) s = .next ((s.setFnReg f 0x00 (w &&& 0x001FFFFF#32)).setFnReg f 0x14 (openResult 0 0 (s.openStatus f w)))) ∧
  (∀ (f : FnId) (w : Word) (c : Ctx) (s : State), s.fnLive f = true → bitW w 31 = true → s.ctx? (fld w 11 0) = some c → c.fn = f →
    c.closing = false → s.begunStep c.id = none →
    ∃ t, exec (.hdlFnCtxCloseGo f w) s = .next t ∧ t.ctx? c.id = some { c with closing := true } ∧
      (∀ x ∈ s.ctxs, x.id ≠ c.id → x ∈ t.ctxs) ∧ (∀ b ∈ t.heldBells, b.ctx ≠ c.id) ∧
      { t with ctxs := s.ctxs, heldBells := s.heldBells, fnRegs := s.fnRegs } = s) ∧
  (∀ (f : FnId) (w : Word) (c : Ctx) (x : Step) (s : State), s.fnLive f = true → bitW w 31 = true → s.ctx? (fld w 11 0) = some c → c.fn = f →
    c.closing = false → s.begunStep c.id = some x → lookupN s.ladder.kills c.id = none →
    ∃ t, exec (.hdlFnCtxCloseGo f w) s = .next t ∧ t.ctx? c.id = some { c with closing := true } ∧ lookupN t.ladder.kills c.id = some 3 ∧
      t.steps = s.steps ∧ t.rings = s.rings) ∧
  (∀ (c : Ctx) (s : State), s.ctx? c.id = some c → c.closing = true → s.begunStep c.id = none → lookupN s.ladder.kills c.id = none →
    (∀ x ∈ s.steps, x.ctx = c.id) → s.sched.running = none → s.sched.nextStart = none → s.loadBusy = none →
    (∀ r ∈ s.rings, ∀ h ∈ r.held, h.owner.bind s.step? = none) →
    ∃ t, exec (.contextCloseDone c.id) s = .next t ∧ t.ctx? c.id = none ∧ (∀ x ∈ s.ctxs, x.id ≠ c.id → x ∈ t.ctxs) ∧
      (∀ r ∈ t.rings, r.ctx ≠ c.id) ∧ (∀ l ∈ t.latches, l.2 ≠ .program c.id) ∧ t.steps = [] ∧ (∀ d ∈ t.readQ, d.ctx ≠ c.id) ∧
      (∀ d ∈ t.posted, d.ctx ≠ c.id) ∧ (∀ i, i < 64 → bitW (t.reg (oMirror i)) 31 = true →
        fld (t.reg (oMirror i)) 11 0 ≠ c.id ∧ fld (t.reg (oMirror i)) 23 12 ≠ c.id) ∧ t.recipes = s.recipes ∧
      t.pins = s.pins ∧ t.sec = s.sec ∧ t.pwr = s.pwr) ∧
  (∀ (c : Nat) (st : Nat) (stuck : List UnitId) (s : State), lookupN s.ladder.kills c = some st → s.begunStep c = none →
    ∃ t, exec (.killComplete c stuck) s = .next t ∧ (∀ x, lookupN t.ladder.kills x = if x = c then none else lookupN s.ladder.kills x) ∧
      (∀ u, u ∈ t.ladder.stuck ↔ u ∈ s.ladder.stuck ∨ (u ∈ stuck ∧ (c, u) ∈ s.ladder.flush)) ∧ (∀ u, (c, u) ∉ t.ladder.flush) ∧
      { t with ladder := s.ladder } = s) ∧
  (∀ (c : Nat) (st : Nat) (stuck : List UnitId) (cx : Ctx) (x : Step) (s : State), lookupN s.ladder.kills c = some st → 1 < st → s.begunStep c = some x →
    s.ctx? c = some cx → cx.closing = false → x.stage.ended = false → x.mirror = false → s.recordHeld x.id = false →
    s.recordBlocked x = false → s.steps = [x] → s.sched.running = some x.id → s.sched.nextStart = none →
    s.wa.checks.phase ≠ .due → s.wb.checks.phase ≠ .due →
    ∃ t, exec (.killComplete c stuck) s = .next t ∧ t.steps = [] ∧ t.sched.running = none ∧ lookupN t.ladder.kills c = none ∧
      (x.record = false → t.recordDue s cx (s.ranRecord x st 0 false)) ∧
      (∀ l ∈ t.latches, l.2 ≠ .program x.ctx) ∧ t.ctxs = s.ctxs ∧ t.drafts = s.drafts ∧ t.pins = s.pins) ∧
  (∀ (c : Nat) (st : Nat) (stuck : List UnitId) (cx : Ctx) (x : Step) (s : State), lookupN s.ladder.kills c = some st → 1 < st → s.begunStep c = some x →
    s.ctx? c = some cx → cx.closing = false → x.stage.ended = false → x.mirror = false → s.recordBlocked x = true →
    (s.hport cx.fn.port).carries = true → s.steps = [x] → s.sched.running = some x.id →
    s.wa.checks.phase ≠ .due → s.wb.checks.phase ≠ .due →
    ∃ t, exec (.killComplete c stuck) s = .next t ∧ t.steps = [{ x with stage := .due st }] ∧ t.sched.running = none ∧
      lookupN t.ladder.kills c = none ∧ t.recordDue s cx (s.ranRecord x st 0 false) ∧ (∀ l ∈ t.latches, l.2 ≠ .program x.ctx) ∧
      t.ctxs = s.ctxs ∧ t.drafts = s.drafts ∧ t.pins = s.pins)

/-- R303, R305, R306, R324, R292, R304, R307, R309, R310.  Rings are made and destroyed as RING_CMD's results say; a host takes a free latch of
its grant and releases only what it holds; a doorbell moves the ring's index and has the covered descriptors read in order; a bad one
changes no ring and raises the bad-doorbell source. -/
def Obligations.RingsLatchesAndDoorbells : Prop :=
  (∀ (f : FnId) (s : State), s.fnLive f = true → s.createResult f = 0 →
    ∃ t r, exec (.ringCreate f) s = .next t ∧ t.rings = s.rings ++ [r] ∧ (r.ctx, r.index, r.completion) = s.ringSel f ∧
      r.base = (s.fnReg f 0x44).toNat + 2 ^ 32 * (s.fnReg f 0x48).toNat ∧ r.log2 = fld (s.fnReg f 0x4C) 4 0 ∧
      r.cq = fld (s.fnReg f 0x4C) 15 8 ∧ r.vector = fld (s.fnReg f 0x4C) 26 16 ∧ r.head = 0 ∧ r.tail = 0 ∧ r.phase = true ∧
      r.held = [] ∧ { t with rings := s.rings, fnRegs := s.fnRegs } = s) ∧
  (∀ (f : FnId) (s : State), s.fnLive f = true → s.createResult f ≠ 0 →
    exec (.ringCreate f) s = .next (s.setFnReg f 0x50 (BitVec.ofNat 32 (2 ^ 8 * s.createResult f)))) ∧
  (∀ (f : FnId) (s : State), s.fnLive f = true → s.destroyResult f = 0 →
    ∃ t, exec (.ringDestroy f) s = .next t ∧ t.ring? (s.ringSel f).1 (s.ringSel f).2.1 = none ∧
      (∀ r ∈ s.rings, (r.ctx ≠ (s.ringSel f).1 ∨ r.index ≠ (s.ringSel f).2.1) → r ∈ t.rings) ∧
      { t with rings := s.rings, heldBells := s.heldBells, fnRegs := s.fnRegs } = s) ∧
  (∀ (f : FnId) (s : State), s.fnLive f = true → s.destroyResult f ≠ 0 →
    exec (.ringDestroy f) s = .next (s.setFnReg f 0x50 (BitVec.ofNat 32 (2 ^ 8 * s.destroyResult f)))) ∧
  (∀ (f : FnId) (l : Nat) (s : State), s.fnLive f = true → s.fnGrant f l = true → lookupN s.latches l = none →
    exec (.latchTake f l) s = .next ({ s with latches := insertN s.latches l (.host f) }.setFnReg f 0x80 (latchWord l true false))) ∧
  (∀ (f : FnId) (l : Nat) (s : State), s.fnLive f = true → s.fnGrant f l = true → (lookupN s.latches l).isSome = true →
    exec (.latchTake f l) s = .next (s.setFnReg f 0x80 (latchWord l false false))) ∧
  (∀ (f : FnId) (l : Nat) (s : State), s.fnLive f = true → s.fnGrant f l = false →
    exec (.latchTake f l) s = .next (s.setFnReg f 0x80 (latchWord l false true))) ∧
  (∀ (f : FnId) (l : Nat) (s : State), s.fnLive f = true → s.fnGrant f l = true →
    ∃ t, exec (.latchRelease f l) s = .next t ∧ (l, LatchHolder.host f) ∉ t.latches ∧
      (∀ x, x ≠ (l, LatchHolder.host f) → (x ∈ t.latches ↔ x ∈ s.latches)) ∧ { t with latches := s.latches, fnRegs := s.fnRegs } = s) ∧
  (∀ (f : FnId) (page : Nat) (v : Word) (descs : List (List Byte)) (cx : Ctx) (r : Ring) (s : State), s.fnLive f = true →
    s.ctx? page = some cx → cx.fn = f → cx.closing = false → s.ring? page (fld v 31 24) = some r → r.completion = false →
    fld v 15 0 < r.size → r.tail < r.size → r.read = r.tail → (fld v 15 0 + r.size - r.tail) % r.size = 1 → r.used + 1 < r.size → s.pwr.ready = true →
    ∃ t d, exec (.doorbellTail f page v descs) s = .next t ∧ t.readQ = s.readQ ++ [d] ∧ d.ctx = page ∧ d.ring = r.index ∧
      d.slot = r.tail ∧ d.time = s.time.now ∧ d.bytes = sliceB (descs.headD []) 0 64 ∧
      t.ring? page (fld v 31 24) = some { r with tail := fld v 15 0, read := (r.tail + 1) % r.size } ∧
      State.sameButCounters { t with rings := s.rings, readQ := s.readQ, sched := s.sched } s ∧
      t.sched = { s.sched with nextId := s.sched.nextId + 1 }) ∧
  (∀ (f : FnId) (page : Nat) (v : Word) (cx : Ctx) (r : Ring) (s : State), s.fnLive f = true → s.ctx? page = some cx → cx.fn = f →
    cx.closing = false → s.ring? page (fld v 31 24) = some r → r.completion = true → r.held = [] → fld v 15 0 < r.size →
    (fld v 15 0 + r.size - r.head) % r.size ≤ r.used → fld v 15 0 ≠ r.head →
    ∃ t, exec (.doorbellHead f page v) s = .next t ∧ t.ring? page (fld v 31 24) = some { r with head := fld v 15 0 } ∧
      State.sameButCounters { t with rings := s.rings } s) ∧
  (∀ (f : FnId) (page : Nat) (v : Word) (descs : List (List Byte)) (cx : Ctx) (r : Ring) (s : State), s.fnLive f = true →
    s.ctx? page = some cx → cx.fn = f → s.ring? page (fld v 31 24) = some r → fld v 15 0 < r.size →
    (fld v 15 0 = (if r.completion then r.head else r.tail) ∨ cx.closing = true) →
    exec (.doorbellTail f page v descs) s = .next s ∧ exec (.doorbellHead f page v) s = .next s) ∧
  (∀ (f : FnId) (page : Nat) (v : Word) (descs : List (List Byte)) (s : State), s.fnLive f = true →
    ((∀ cx, s.ctx? page = some cx → cx.fn ≠ f) ∨
      ((∀ cx, s.ctx? page = some cx → cx.closing = false) ∧ (s.ring? page (fld v 31 24) = none ∨
        ∃ r, s.ring? page (fld v 31 24) = some r ∧ (r.size ≤ fld v 15 0 ∨
          (r.completion = false ∧ r.size - 1 - r.used < (fld v 15 0 + r.size - r.tail) % r.size) ∨
          (r.completion = true ∧ r.used < (fld v 15 0 + r.size - r.head) % r.size))))) → s.silent 0x010 →
    ∃ t, exec (.doorbellTail f page v descs) s = .next t ∧ exec (.doorbellHead f page v) s = .next t ∧ t.sameButHealth s ∧
      t.captured 0x010 (cap none (fnMaster f) 2 (BitVec.ofNat 64 (page * 4096)) v.toNat))

/-! ### Descriptors -/

/-- R304, R307, R315, R316, R317, R320, R322.  A NOP completes OK, or waits behind its fence; an unknown type completes INVALID with 0x0040;
a RECEIVE and a legal TRANSFER wait, which tells Beam groups in Cool or Rest to wake (R26, R386); a TRANSFER copies the tensor's bytes once
they are open, and completes OK, or ECC_FAIL with its level's source raised. -/
def Obligations.NopReceiveAndTransferDescriptors : Prop :=
  (∀ (c : Nat) (cx : Ctx) (d : ReadDesc) (s : State), s.nextDesc c = some (cx, d) → d.type = 0 →
    (bitN d.flags 0 = false ∨ s.earlierOpen d = false) →
    ∃ t, exec (.nop c) s = .next t ∧ t.readQ = s.readQ.filter (fun x => decide (x ≠ d)) ∧ t.recordDue s cx (d.completion 0 0) ∧
      State.sameButRecords { t with readQ := s.readQ } s) ∧
  (∀ (c : Nat) (cx : Ctx) (d : ReadDesc) (s : State), s.nextDesc c = some (cx, d) → d.type = 0 → bitN d.flags 0 = true →
    s.earlierOpen d = true →
    exec (.nop c) s = .next { s with readQ := s.readQ.filter (fun x => decide (x ≠ d)), posted := s.posted ++ [d] }) ∧
  (∀ (c : Nat) (cx : Ctx) (d : ReadDesc) (s : State), s.nextDesc c = some (cx, d) → 9 ≤ d.type →
    ∃ t, exec (.nop c) s = .next t ∧ t.readQ = s.readQ.filter (fun x => decide (x ≠ d)) ∧ t.recordDue s cx (d.completion 0x13 0x40) ∧
      State.sameButRecords { t with readQ := s.readQ } s) ∧
  (∀ (c : Nat) (cx : Ctx) (d : ReadDesc) (s : State), s.ctx? c = some cx → s.postedOf c 0 = some d → s.earlierOpen d = false →
    ∃ t, exec (.nopFenceRelease c) s = .next t ∧ t.posted = s.posted.filter (fun x => decide (x ≠ d)) ∧
      t.recordDue s cx (d.completion 0 0) ∧ State.sameButRecords { t with posted := s.posted } s) ∧
  (∀ (c : Nat) (d : ReadDesc) (s : State), s.postedOf c 0 = some d → s.earlierOpen d = true → exec (.nopFenceRelease c) s = .next s) ∧
  (∀ (c : Nat) (cx : Ctx) (d : ReadDesc) (s : State), s.nextDesc c = some (cx, d) → d.type = 8 → commonCheck cx d = none →
    exec (.receive c) s = .next { s with readQ := s.readQ.filter (fun x => decide (x ≠ d)), posted := s.posted ++ [d] }) ∧
  (∀ (c : Nat) (cx : Ctx) (d : ReadDesc) (e : Entry) (s : State), s.nextDesc c = some (cx, d) → d.type = 7 → commonCheck cx d = none →
    s.entry? (leAt d.bytes 2 1) = some e → e.state = .loaded → e.partition = cx.part → leAt d.bytes 20 2 < e.draft.tensors.length →
    (e.draft.tensor (leAt d.bytes 20 2)).weight = false →
    leAt d.bytes 24 4 + leAt d.bytes 16 4 ≤ (e.draft.tensor (leAt d.bytes 20 2)).bytes →
    ∃ t, exec (.transfer c) s = .next t ∧ t.readQ = s.readQ.filter (fun x => decide (x ≠ d)) ∧ t.posted = s.posted ++ [d] ∧
      (∀ w, (s.weft w).inService = true → (s.weft w).beamGrp.deep = true → s.pwr.recovery = false →
        (t.weft w).beamGrp = (s.weft w).beamGrp.wake) ∧
      { t with readQ := s.readQ, posted := s.posted, wa := s.wa, wb := s.wb } = s) ∧
  (∀ (c : Nat) (cx : Ctx) (d : ReadDesc) (s : State), s.nextDesc c = some (cx, d) → d.type = 7 → commonCheck cx d = none →
    s.entry? (leAt d.bytes 2 1) = none →
    ∃ t, exec (.transfer c) s = .next t ∧ t.recordDue s cx (d.completion 0x13 0x4B) ∧ State.sameButRecords { t with readQ := s.readQ } s) ∧
  (∀ (c : Nat) (cx : Ctx) (d : ReadDesc) (e : Entry) (fs : List DataAt) (s : State), s.ctx? c = some cx → s.postedOf c 7 = some d →
    s.beamsOpen = true → s.noSteps → s.entry? (leAt d.bytes 2 1) = some e → (s.hport cx.fn.port).carries = true →
    (s.hostMem cx.fn.port).wf = true →
    ∃ t u, exec (.transferDone c { fixed := fs, hit := none }) s = .next t ∧ t.recordDue u cx (d.completion 0 0) ∧
      (u.hostMem cx.fn.port).readBytes (leAt d.bytes 8 8) (leAt d.bytes 16 4) = (List.range (leAt d.bytes 16 4)).map
        (fun i => s.homeByte e cx (leAt d.bytes 20 2) (leAt d.bytes 24 4 + i)) ∧
      (∀ a, a < leAt d.bytes 8 8 ∨ leAt d.bytes 8 8 + leAt d.bytes 16 4 ≤ a →
        (u.hostMem cx.fn.port).read a = (s.hostMem cx.fn.port).read a) ∧
      t.posted = s.posted.filter (fun x => decide (x ≠ d)) ∧ u.rings = s.rings ∧
      State.sameButReads { u with hostMemA := s.hostMemA, hostMemB := s.hostMemB, posted := s.posted } s ∧
      State.sameButReads { t with rings := s.rings, hostMemA := s.hostMemA, hostMemB := s.hostMemB, msix := s.msix, posted := s.posted } s) ∧
  (∀ (c a : Nat) (w : Weft) (m : Byte) (cx : Ctx) (d : ReadDesc) (e : Entry) (fs : List DataAt) (s : State), s.ctx? c = some cx →
    s.postedOf c 7 = some d → s.beamsOpen = true → s.noSteps → s.entry? (leAt d.bytes 2 1) = some e → s.silent (weftSrc w 0x22) →
    ∃ t, exec (.transferDone c { fixed := fs, hit := some { place := .gddr w a, master := m } }) s = .next t ∧
      t.recordDue s cx (d.completion 2 0) ∧ t.posted = s.posted.filter (fun x => decide (x ≠ d)) ∧
      t.captured (weftSrc w 0x22) (cap ((ownerCtx (s.gddrOwner w a)).or (some c)) m 1 (BitVec.ofNat 64 a) 1)) ∧
  (∀ (c a : Nat) (w : Weft) (m : Byte) (cx : Ctx) (d : ReadDesc) (e : Entry) (fs : List DataAt) (s : State), s.ctx? c = some cx →
    s.postedOf c 7 = some d → s.beamsOpen = true → s.noSteps → s.entry? (leAt d.bytes 2 1) = some e → s.silent (weftSrc w 0x20) →
    ∃ t, exec (.transferDone c { fixed := fs, hit := some { place := .beam w a, master := m } }) s = .next t ∧
      t.recordDue s cx (d.completion 2 0) ∧ t.posted = s.posted.filter (fun x => decide (x ≠ d)) ∧
      t.captured (weftSrc w 0x20) (cap ((ownerCtx (s.beamOwner w a)).or (some c)) m 1 (BitVec.ofNat 64 a) 0)) ∧
  (∀ (c a : Nat) (m : Byte) (cx : Ctx) (d : ReadDesc) (e : Entry) (s : State), s.ctx? c = some cx →
    s.postedOf c 7 = some d → s.beamsOpen = true → s.noSteps → s.entry? (leAt d.bytes 2 1) = some e → s.silent (0x1E + cx.part) →
    ∃ t, exec (.transferDone c { fixed := [], hit := some { place := .host c a, master := m } }) s = .next t ∧
      t.recordDue s cx (d.completion 2 0) ∧ t.captured (0x1E + cx.part) (cap (some c) m 1 (BitVec.ofNat 64 a) 2)) ∧
  (∀ (c : Nat) (cx : Ctx) (d : ReadDesc) (e : Entry) (chk : ReadChecks) (s : State), s.ctx? c = some cx → s.postedOf c 7 = some d →
    s.steps = [] → s.entry? (leAt d.bytes 2 1) = some e → (e.draft.place (leAt d.bytes 20 2)).home ≠ 2 → s.beamsOpen = false →
    exec (.transferDone c chk) s = .next s.wakeBeams)

/-- R167, R168, R169, R170, R316, R335, R399, R483.  A draft load takes the lowest free entry when no load is in progress, none arrived before
it and Tumbler is free; it ends with the draft in that entry and its codebooks on both dies, or with the first failed check, or a failed
read (log entry 138), and nothing changed; it waits for Beam groups that are not open (R26, R386), and with determinism on while a step
holds the array; an unload refuses new work at once, keeps a loss of the entry's weights in mind (R265), and frees the entry when earlier
steps have completed. -/
def Obligations.DraftsLoadAndUnload : Prop :=
  (∀ (c : Nat) (cx : Ctx) (d : ReadDesc) (s : State), s.nextDesc c = some (cx, d) → d.type = 2 → commonCheck cx d = none →
    (s.loadBusy.isSome = true ∨ ((∀ x ∈ s.posted, x.isLoad = false) ∧ (∀ x ∈ s.readQ, x ≠ d → x.isLoad = true → d.seq < x.seq) ∧
      s.tumblerBusy = true)) →
    exec (.draftLoad c) s = .next { s with readQ := s.readQ.filter (fun x => decide (x ≠ d)), posted := s.posted ++ [d] }) ∧
  (∀ (c : Nat) (cx : Ctx) (d : ReadDesc) (i : Nat) (s : State), s.nextDesc c = some (cx, d) → d.type = 2 → commonCheck cx d = none →
    s.loadBusy = none → s.tumblerBusy = false → (∀ x ∈ s.posted, x.isLoad = false) →
    (∀ x ∈ s.readQ, x ≠ d → x.isLoad = true → d.seq < x.seq) → s.freeEntry cx.part = some i →
    ∃ t e, exec (.draftLoad c) s = .next t ∧ t.loadBusy = some d ∧ t.posted = s.posted ∧ t.drafts = s.drafts ++ [e] ∧ e.index = i ∧
      e.state = .loading ∧ e.partition = cx.part ∧ t.readQ = s.readQ.filter (fun x => decide (x ≠ d)) ∧
      (∀ w, (s.weft w).inService = true → (s.weft w).beamGrp.deep = true → s.pwr.recovery = false →
        (t.weft w).beamGrp = (s.weft w).beamGrp.wake) ∧
      State.sameButCounters { t with loadBusy := s.loadBusy, drafts := s.drafts, readQ := s.readQ, wa := s.wa, wb := s.wb } s) ∧
  (∀ (c : Nat) (cx : Ctx) (d x : ReadDesc) (s : State), s.nextDesc c = some (cx, d) → d.type = 2 → commonCheck cx d = none →
    s.loadBusy = none → (∀ y ∈ s.posted, y.isLoad = false) → x ∈ s.readQ → x.isLoad = true → x.seq < d.seq → s.ctxOpen x.ctx = true →
    exec (.draftLoad c) s = .next { s with readQ := s.readQ.filter (fun x => decide (x ≠ d)), posted := s.posted ++ [d] }) ∧
  (∀ (c i : Nat) (cx : Ctx) (d : ReadDesc) (img : List Byte) (s u : State), s.loadBusy = some d → s.ctx? c = some cx →
    cx.closing = false → d.ctx = c → d.type = 2 → (∀ x ∈ s.posted, x.isLoad = false) → s.beamsOpen = true →
    (s.det = false ∨ s.sched.running = none) →
    u = { s with loadBusy := none, drafts := s.drafts.filter (fun e => decide (e.state ≠ .loading)) } → u.freeEntry cx.part = some i →
    ∃ t, exec (.draftLoadDone c img false) s = .next t ∧ t.loadBusy = none ∧
      (∀ e, draftResult u cx.part img (leAt d.bytes 16 4) = some e →
        t.recordDue s cx (d.completion (if e = 2 then 0x11 else 0x13) e) ∧ t.drafts = u.drafts ∧ t.wa = s.wa ∧ t.wb = s.wb) ∧
      (draftResult u cx.part img (leAt d.bytes 16 4) = none → t.recordDue s cx { d.completion 0 0 with entry := i } ∧
        (∃ e, t.drafts = u.drafts ++ [e] ∧ e.index = i ∧ e.state = .loaded ∧ e.partition = cx.part ∧
          e.draft = imageDraft s.sec.draftKeys img) ∧
        (∀ n, (∀ x ∈ (imageDraft s.sec.draftKeys img).codebooks, x.1 ≠ n) → lookupN t.wa.codebooks n = lookupN s.wa.codebooks n ∧
          lookupN t.wb.codebooks n = lookupN s.wb.codebooks n) ∧
        (((imageDraft s.sec.draftKeys img).codebooks.map (fun x => x.1)).Nodup → ∀ x ∈ (imageDraft s.sec.draftKeys img).codebooks,
          lookupN t.wa.codebooks x.1 = some x.2 ∧ lookupN t.wb.codebooks x.1 = some x.2)) ∧
      State.sameButRecords { t with loadBusy := s.loadBusy, drafts := s.drafts, wa := s.wa, wb := s.wb, freshCtr := s.freshCtr } s) ∧
  (∀ (c e : Nat) (cx : Ctx) (d : ReadDesc) (img : List Byte) (s u : State), s.loadBusy = some d → s.ctx? c = some cx →
    cx.closing = false → d.ctx = c → d.type = 2 → (∀ x ∈ s.posted, x.isLoad = false) →
    u = { s with loadBusy := none, drafts := s.drafts.filter (fun e => decide (e.state ≠ .loading)) } →
    draftResult u cx.part img (leAt d.bytes 16 4) = some e →
    ∃ t, exec (.draftLoadDone c img false) s = .next t ∧ t.recordDue s cx (d.completion (if e = 2 then 0x11 else 0x13) e) ∧
      t.drafts = u.drafts ∧ t.loadBusy = none ∧ State.sameButRecords { t with loadBusy := s.loadBusy, drafts := s.drafts } s) ∧
  (∀ (c : Nat) (cx : Ctx) (d : ReadDesc) (img : List Byte) (s u : State), s.loadBusy = some d → s.ctx? c = some cx →
    cx.closing = false → d.ctx = c → d.type = 2 → (∀ x ∈ s.posted, x.isLoad = false) →
    (s.beamsOpen = false ∨ (s.det = true ∧ s.sched.running.isSome = true)) →
    u = { s with loadBusy := none, drafts := s.drafts.filter (fun e => decide (e.state ≠ .loading)) } →
    ∃ t, exec (.draftLoadDone c img false) s = .next t ∧ (draftResult u cx.part img (leAt d.bytes 16 4) = none → t = s.wakeBeams) ∧
      (draftResult u cx.part img (leAt d.bytes 16 4) ≠ none → t.loadBusy = none)) ∧
  (∀ (c : Nat) (cx : Ctx) (d : ReadDesc) (img : List Byte) (s : State), s.loadBusy = some d → s.ctx? c = some cx →
    cx.closing = false → d.ctx = c → d.type = 2 → (∀ x ∈ s.posted, x.isLoad = false) → s.silent (0x1E + cx.part) →
    ∃ t, exec (.draftLoadDone c img true) s = .next t ∧ t.loadBusy = none ∧
      t.drafts = s.drafts.filter (fun e => decide (e.state ≠ .loading)) ∧ t.recordDue s cx (d.completion 2 0) ∧
      t.captured (0x1E + cx.part) (cap (some c) (fnMaster cx.fn) 1 (BitVec.ofNat 64 (leAt d.bytes 8 8)) 2)) ∧
  (∀ (c : Nat) (cx : Ctx) (d x : ReadDesc) (e : Entry) (s : State), s.nextDesc c = some (cx, d) → d.type = 3 → commonCheck cx d = none →
    s.entry? (leAt d.bytes 2 1) = some e → (e.state = .loaded ∨ e.state = .failed) → e.partition = cx.part → s.loadBusy = some x →
    exec (.draftUnload c) s = .next { s with
      readQ := s.readQ.filter (fun x => decide (x ≠ d)), posted := s.posted ++ [d],
      drafts := s.drafts.map (fun (y : Entry) =>
        if y.index = leAt d.bytes 2 1 then { y with state := .unloading, lost := decide (e.state = .failed) } else y) }) ∧
  (∀ (c : Nat) (cx : Ctx) (d : ReadDesc) (s : State), s.nextDesc c = some (cx, d) → d.type = 3 → commonCheck cx d = none →
    s.loadBusy.isSome = true → s.entry? (leAt d.bytes 2 1) = none →
    ∃ t, exec (.draftUnload c) s = .next t ∧ t.recordDue s cx (d.completion 0x13 0x4B) ∧ State.sameButRecords { t with readQ := s.readQ } s) ∧
  (∀ (c i : Nat) (cx : Ctx) (d : ReadDesc) (e : Entry) (s : State), s.loadBusy = some d → s.ctx? c = some cx → d.ctx = c → d.type = 3 →
    cx.closing = false → i = leAt d.bytes 2 1 → s.entryBusy i d.seq = false → s.entry? i = some e → e.state = .unloading → e.gone = [] →
    (∀ x ∈ s.posted, x.isLoad = false) → s.beamsOpen = true → s.wa.memWf = true → s.wb.memWf = true →
    ∃ t, exec (.draftUnloadDone c) s = .next t ∧ t.entry? i = none ∧ (∀ x ∈ s.drafts, x.index ≠ i → x ∈ t.drafts) ∧ t.loadBusy = none ∧
      t.recordDue s cx { d.completion 0 0 with entry := i } ∧
      (∀ a, e.baseA ≤ a → a < e.baseA + e.draft.bounds.gddrA → t.wa.gddr.read a = 0) ∧
      (∀ a, e.baseB ≤ a → a < e.baseB + e.draft.bounds.gddrB → t.wb.gddr.read a = 0) ∧
      (∀ x ∈ s.wa.codebooks, (∃ y ∈ s.drafts, y.index ≠ i ∧ y.draft.usesCodebook x.1 = true) → x ∈ t.wa.codebooks) ∧
      (∀ w, w < 16 → bitW (t.reg (oWatchCfg w)) 20 = true → fld (t.reg (oWatchCfg w)) 19 12 ≠ i) ∧ t.steps = s.steps ∧ t.ctxs = s.ctxs) ∧
  (∀ (c : Nat) (d : ReadDesc) (s : State), s.loadBusy = some d → (s.entryBusy (leAt d.bytes 2 1) d.seq = true ∨ s.beamsOpen = false) →
    exec (.draftUnloadDone c) s = .next s)

/-- R220, R221, R233, R235, R316, R335.  A recipe that passes its checks fills its slot for its partition, one that fails changes nothing and
reports the check; a slot in use stays; an INJECT waits while Creel does not work (R380, R474), and starts its stream's sample, corrupt where the header is faulty, and completes when its
container is read, whose payload may wait in the slot's input queue (R217), an image of h_in lines being good and a shorter one corrupt; a container too wide or too high completes CORRUPT_INPUT
and no sample starts; a failed read completes with ECC_FAIL (log entry 138) and raises the host read error. -/
def Obligations.RecipesAndInjection : Prop :=
  (∀ (c : Nat) (cx : Ctx) (d : ReadDesc) (img : List Byte) (s : State), s.nextDesc c = some (cx, d) → d.type = 4 → commonCheck cx d = none →
    s.recipeOther (leAt d.bytes 2 2 % 64) cx.part = false → s.recipeResult (leAt d.bytes 2 2 % 64) img (leAt d.bytes 16 4) = none →
    ∃ t r, exec (.recipeLoad c img false) s = .next t ∧ t.recipes = s.recipes.filter (fun x => x.slot != leAt d.bytes 2 2 % 64) ++ [r] ∧
      r.slot = leAt d.bytes 2 2 % 64 ∧ r.partition = cx.part ∧ r.recipe = parseRecipe img ∧ r.digest = sha256 img ∧ r.bytes = img.length ∧
      t.recordDue s cx (d.completion 0 0) ∧
      State.sameButRecords { t with readQ := s.readQ, recipes := s.recipes } s) ∧
  (∀ (c e : Nat) (cx : Ctx) (d : ReadDesc) (img : List Byte) (s : State), s.nextDesc c = some (cx, d) → d.type = 4 → commonCheck cx d = none →
    s.recipeOther (leAt d.bytes 2 2 % 64) cx.part = false → s.recipeResult (leAt d.bytes 2 2 % 64) img (leAt d.bytes 16 4) = some e →
    ∃ t, exec (.recipeLoad c img false) s = .next t ∧ t.recordDue s cx (d.completion 0x13 e) ∧ State.sameButRecords { t with readQ := s.readQ } s) ∧
  (∀ (c : Nat) (cx : Ctx) (d : ReadDesc) (img : List Byte) (s : State), s.nextDesc c = some (cx, d) → d.type = 4 → commonCheck cx d = none →
    s.recipeOther (leAt d.bytes 2 2 % 64) cx.part = true →
    ∃ t, exec (.recipeLoad c img false) s = .next t ∧ t.recordDue s cx (d.completion 0x13 0x4B) ∧ State.sameButRecords { t with readQ := s.readQ } s) ∧
  (∀ (c : Nat) (cx : Ctx) (d : ReadDesc) (img : List Byte) (s : State), s.nextDesc c = some (cx, d) → d.type = 4 → commonCheck cx d = none →
    s.recipeOther (leAt d.bytes 2 2 % 64) cx.part = false → s.silent (0x1E + cx.part) →
    ∃ t, exec (.recipeLoad c img true) s = .next t ∧ t.recipes = s.recipes ∧ t.recordDue s cx (d.completion 2 0) ∧
      t.captured (0x1E + cx.part) (cap (some c) (fnMaster cx.fn) 1 (BitVec.ofNat 64 (leAt d.bytes 8 8)) 2)) ∧
  (∀ (c : Nat) (cx : Ctx) (d : ReadDesc) (s : State), s.nextDesc c = some (cx, d) → d.type = 5 → commonCheck cx d = none →
    (s.recipe? (leAt d.bytes 2 2 % 64) = none ∨ s.recipeOther (leAt d.bytes 2 2 % 64) cx.part = true) →
    ∃ t, exec (.recipeUnload c) s = .next t ∧ t.recordDue s cx (d.completion 0x13 0x4B) ∧ State.sameButRecords { t with readQ := s.readQ } s) ∧
  (∀ (c : Nat) (cx : Ctx) (d : ReadDesc) (s : State), s.nextDesc c = some (cx, d) → d.type = 5 → commonCheck cx d = none →
    (s.recipe? (leAt d.bytes 2 2 % 64)).isSome = true → s.recipeOther (leAt d.bytes 2 2 % 64) cx.part = false →
    (s.recipeBound (leAt d.bytes 2 2 % 64) = false → ∃ t, exec (.recipeUnload c) s = .next t ∧
      t.recipes = s.recipes.filter (fun x => x.slot != leAt d.bytes 2 2 % 64) ∧ t.recordDue s cx (d.completion 0 0) ∧
      State.sameButRecords { t with readQ := s.readQ, recipes := s.recipes } s) ∧
    (s.recipeBound (leAt d.bytes 2 2 % 64) = true → ∃ t, exec (.recipeUnload c) s = .next t ∧ t.recordDue s cx (d.completion 0x13 0x27) ∧
      State.sameButRecords { t with readQ := s.readQ } s)) ∧
  (∀ (c k : Nat) (cx : Ctx) (d : ReadDesc) (rec : Recipe) (h : List Byte) (s : State), s.nextDesc c = some (cx, d) → d.type = 6 →
    commonCheck cx d = none → s.injSlot cx.fn.port (leAt d.bytes 2 2) = some k → s.slotRec k = some rec →
    s.batchOwner (s.slotBatch k) = cx.part → headerRejected h rec = false → s.creelOn = true → (s.slot k).input = [] →
    s.silent 0x020 →
    ∃ t n, exec (.inject c h false) s = .next t ∧ t.posted = s.posted ++ [{ d with bytes := d.bytes ++ sliceB h 0 64 ++ leBytes 8 n }] ∧
      t.readQ = s.readQ.filter (fun x => decide (x ≠ d)) ∧ t.steps = s.steps ∧ t.ctxs = s.ctxs ∧ t.drafts = s.drafts ∧ t.recipes = s.recipes) ∧
  (∀ (c k : Nat) (cx : Ctx) (d : ReadDesc) (rec : Recipe) (h : List Byte) (s : State), s.nextDesc c = some (cx, d) → d.type = 6 →
    commonCheck cx d = none → s.injSlot cx.fn.port (leAt d.bytes 2 2) = some k → s.slotRec k = some rec →
    s.batchOwner (s.slotBatch k) = cx.part → headerRejected h rec = true →
    ∃ t, exec (.inject c h false) s = .next t ∧ t.recordDue s cx (d.completion 0x12 0) ∧ State.sameButRecords { t with readQ := s.readQ } s) ∧
  (∀ (c k q : Nat) (cx : Ctx) (d : ReadDesc) (rec : Recipe) (h : List Byte) (s : State), s.nextDesc c = some (cx, d) → d.type = 6 →
    commonCheck cx d = none → s.injSlot cx.fn.port (leAt d.bytes 2 2) = some k → s.slotRec k = some rec →
    s.batchOwner (s.slotBatch k) = cx.part → headerRejected h rec = false → headerOk h rec = true → rec.points = false →
    s.creelOn = true → (s.slot k).input = [] → k < s.slots.length → (s.slot k).phase = .idle → s.openFor k = some q → (s.recipeCb rec).isSome = true →
    ∃ t sm, exec (.inject c h false) s = .next t ∧ (t.slot k).phase = .open sm ∧ sm.time = BitVec.ofNat 64 (leAt h 8 8) ∧ sm.counter = q ∧
      sm.position = s.slotPos k ∧ sm.lines = [] ∧ sm.sat = 0 ∧ (t.slot k).sequence = BitVec.ofNat 32 (leAt h 28 4) ∧
      (∀ j, j ≠ k → t.slot j = s.slot j) ∧ t.readQ = s.readQ.filter (fun x => decide (x ≠ d)) ∧
      t.posted = s.posted ++ [{ d with bytes := d.bytes ++ sliceB h 0 64 ++ leBytes 8 q }] ∧
      { t with slots := s.slots, posted := s.posted, readQ := s.readQ } = s) ∧
  (∀ (c k q : Nat) (cx : Ctx) (d : ReadDesc) (rec : Recipe) (h : List Byte) (s : State), s.nextDesc c = some (cx, d) → d.type = 6 →
    commonCheck cx d = none → s.injSlot cx.fn.port (leAt d.bytes 2 2) = some k → s.slotRec k = some rec →
    s.batchOwner (s.slotBatch k) = cx.part → headerRejected h rec = false → headerOk h rec = false →
    s.creelOn = true → (s.slot k).input = [] → k < s.slots.length → (s.slot k).phase = .idle → s.openFor k = some q → (s.recipeCb rec).isSome = true →
    ∃ t, exec (.inject c h false) s = .next t ∧ (t.slot k).phase = .late ∧ (t.slot k).corrupt = inc32 (s.slot k).corrupt ∧
      t.steps = s.steps ∧ t.ctxs = s.ctxs) ∧
  (∀ (c : Nat) (cx : Ctx) (d : ReadDesc) (h : List Byte) (f : Bool) (s : State), s.nextDesc c = some (cx, d) → d.type = 6 →
    commonCheck cx d = none → (∀ k, s.injSlot cx.fn.port (leAt d.bytes 2 2) = some k → s.batchOwner (s.slotBatch k) ≠ cx.part) →
    ∃ t, exec (.inject c h f) s = .next t ∧ t.recordDue s cx (d.completion 0x13 0x4B) ∧ State.sameButRecords { t with readQ := s.readQ } s) ∧
  (∀ (c k : Nat) (cx : Ctx) (d : ReadDesc) (rec : Recipe) (h : List Byte) (s : State), s.nextDesc c = some (cx, d) → d.type = 6 →
    commonCheck cx d = none → s.injSlot cx.fn.port (leAt d.bytes 2 2) = some k → s.slotRec k = some rec →
    s.batchOwner (s.slotBatch k) = cx.part → s.silent (0x1E + cx.part) →
    ∃ t, exec (.inject c h true) s = .next t ∧ t.slots = s.slots ∧ t.batches = s.batches ∧ t.posted = s.posted ∧
      t.recordDue s cx (d.completion 2 0) ∧
      t.captured (0x1E + cx.part) (cap (some c) (fnMaster cx.fn) 1 (BitVec.ofNat 64 (leAt d.bytes 8 8)) 2)) ∧
  (∀ (c : Nat) (cx : Ctx) (d : ReadDesc) (h : List Byte) (rec : Recipe) (k : Nat) (s : State), s.nextDesc c = some (cx, d) → d.type = 6 →
    commonCheck cx d = none → s.injSlot cx.fn.port (leAt d.bytes 2 2) = some k → s.slotRec k = some rec →
    s.batchOwner (s.slotBatch k) = cx.part → headerRejected h rec = false → s.creelOn = false → exec (.inject c h false) s = .next s) ∧
  (∀ (c k : Nat) (cx : Ctx) (d : ReadDesc) (p : List Byte) (rec : Recipe) (cs : List RowCheck) (s : State), s.ctx? c = some cx →
    s.postedOf c 6 = some d → s.injSlot cx.fn.port (leAt d.bytes 2 2) = some k → s.slotRec k = some rec → s.creelOn = true →
    k < s.slots.length →
    ∃ t, exec (.injectReadDone c p false cs true) s = .next t ∧ t.posted = s.posted.filter (fun x => decide (x ≠ d)) ∧
      (t.slot k).input = (s.slot k).input ++ [(s.time.now, .inject d.bytes p cs)] ∧ (∀ j, j ≠ k → t.slot j = s.slot j) ∧
      t.recordDue s cx (d.completion 0 0) ∧ State.sameButRecords { t with posted := s.posted, slots := s.slots } s) ∧
  (∀ (c k : Nat) (cx : Ctx) (d : ReadDesc) (p : List Byte) (rec : Recipe) (s : State), s.ctx? c = some cx → s.postedOf c 6 = some d →
    s.injSlot cx.fn.port (leAt d.bytes 2 2) = some k → s.slotRec k = some rec → s.creelOn = true → (s.slot k).input = [] →
    s.injectOpen k d.bytes = true →
    ∃ t, exec (.injectReadDone c p false [] false) s = .next t ∧ t.posted = s.posted.filter (fun x => decide (x ≠ d)) ∧
      (∀ sm, (t.slot k).phase ≠ .open sm) ∧ t.steps = s.steps ∧ t.ctxs = s.ctxs ∧ t.recipes = s.recipes ∧
      (bitW (s.fnReg { port := partPort (s.batchOwner (s.slotBatch k)), num := 0 } 0x60) 31 = false → t.recordDue s cx (d.completion 0 0))) ∧
  (∀ (c k : Nat) (cx : Ctx) (d : ReadDesc) (p : List Byte) (rec : Recipe) (sm : Sample) (s : State), s.ctx? c = some cx →
    s.postedOf c 6 = some d → s.injSlot cx.fn.port (leAt d.bytes 2 2) = some k → s.slotRec k = some rec → s.creelOn = true →
    (s.slot k).input = [] → s.injectOpen k d.bytes = true → rec.points = false → (s.slot k).phase = .open sm → sm.lines = [] →
    (s.recipeCb rec).isSome = true → (s.inst? (s.slotBatch k) sm.counter).isSome = true →
    ∃ t n, exec (.injectReadDone c p false [] false) s = .next t ∧
      n = (payloadLines rec (leAt d.bytes 71 1) (p.take (leAt d.bytes 88 4))).length ∧
      (n = rec.hIn → (t.slot k).good = inc32 (s.slot k).good ∧ (t.slot k).corrupt = (s.slot k).corrupt) ∧
      (n ≠ rec.hIn → (t.slot k).corrupt = inc32 (s.slot k).corrupt ∧ (t.slot k).good = (s.slot k).good)) ∧
  (∀ (c k : Nat) (cx : Ctx) (d : ReadDesc) (p : List Byte) (rec : Recipe) (cs : List RowCheck) (w : Bool) (s : State), s.ctx? c = some cx →
    s.postedOf c 6 = some d → s.injSlot cx.fn.port (leAt d.bytes 2 2) = some k → s.slotRec k = some rec → s.creelOn = true →
    s.injectOpen k d.bytes = true → s.silent (0x1E + cx.part) →
    ∃ t, exec (.injectReadDone c p true cs w) s = .next t ∧ t.posted = s.posted.filter (fun x => decide (x ≠ d)) ∧
      (t.slot k).phase = .idle ∧ (t.slot k).corrupt = inc32 (s.slot k).corrupt ∧ t.steps = s.steps ∧
      t.captured (0x1E + cx.part) (cap (some c) (fnMaster cx.fn) 1 (BitVec.ofNat 64 (leAt d.bytes 8 8)) 2)) ∧
  (∀ (c : Nat) (cx : Ctx) (d : ReadDesc) (p : List Byte) (cs : List RowCheck) (w : Bool) (s : State), s.ctx? c = some cx →
    s.postedOf c 6 = some d → s.creelOn = true → s.injSlot cx.fn.port (leAt d.bytes 2 2) = none →
    ∃ t, exec (.injectReadDone c p false cs w) s = .next t ∧ t.posted = s.posted.filter (fun x => decide (x ≠ d)) ∧
      t.recordDue s cx (d.completion 0 0) ∧ State.sameButRecords { t with posted := s.posted } s)

/-- R282, R283, R288, R312, R313, R314, R320, R335, R431.  A STEP that passes its checks waits as the step its fields ask for, bound to its
batch instance; one that fails completes with its check, a replay whose record cannot be read with ECC_FAIL; an admitted step takes the context's next step counter (a replay keeps its own); a refused one completes with the reason and step
counter 0; a step whose instance does not open in 64 frames completes with 0x0009. -/
def Obligations.StepsAreBoundAndAdmitted : Prop :=
  (∀ (c : Nat) (cx : Ctx) (d : ReadDesc) (rec : List Byte) (f : Bool) (s : State), s.nextDesc c = some (cx, d) → d.type = 1 → commonCheck cx d = none →
    (f = true → bitN d.flags 1 = false) → s.stepCheck cx d rec = none → bitN d.flags 3 = false → (s.submitDraft (leAt d.bytes 2 1) cx.part d.seq).isSome = true →
    ∃ t x, exec (.step c rec f) s = .next t ∧ t.steps = s.steps ++ [x] ∧ x.id = d.seq ∧ x.ctx = c ∧ x.fn = cx.fn ∧ x.lc = cx.lc ∧
      x.stage = .waiting ∧ x.entry = leAt d.bytes 2 1 ∧ x.tag = leAt d.bytes 4 4 ∧ x.deadlineUs = leAt d.bytes 8 4 ∧
      x.ageUs = leAt d.bytes 12 4 ∧ x.resultAddr = leAt d.bytes 16 8 ∧ x.resultLen = leAt d.bytes 24 4 ∧
      x.recordAddr = leAt d.bytes 32 8 ∧ x.mirror = bitN d.flags 0 ∧ x.replay = bitN d.flags 1 ∧ x.record = bitN d.flags 2 ∧
      x.batch = false ∧ x.irq = bitN d.flags 4 ∧ x.bellTime = d.time ∧
      x.seed = BitVec.ofNat 64 (if bitN d.flags 1 then leAt rec 24 8 else leAt d.bytes 40 8) ∧
      { t with steps := s.steps, readQ := s.readQ } = s ∧ t.readQ = s.readQ.filter (fun x => decide (x ≠ d))) ∧
  (∀ (c : Nat) (cx : Ctx) (d : ReadDesc) (rec : List Byte) (f : Bool) (s : State), s.nextDesc c = some (cx, d) → d.type = 1 → commonCheck cx d = none →
    (f = true → bitN d.flags 1 = false) → s.stepCheck cx d rec = none → bitN d.flags 3 = true → (s.submitDraft (leAt d.bytes 2 1) cx.part d.seq).isSome = true →
    s.members (leAt d.bytes 3 1 % 32) ≠ [] →
    ∃ t x, exec (.step c rec f) s = .next t ∧ t.steps = s.steps ++ [x] ∧ x.batch = true ∧ x.batchIndex = leAt d.bytes 3 1 % 32 ∧
      (leAt d.bytes 48 8 ≠ 0 → x.inst = leAt d.bytes 48 8) ∧
      (leAt d.bytes 48 8 = 0 → cx.bound.contains (leAt d.bytes 3 1 % 32, x.inst) = false ∧
        ((∃ i ∈ (s.batch (leAt d.bytes 3 1 % 32)).instances, i.counter = x.inst ∧ s.bindable i = true) ∨
          (s.batch (leAt d.bytes 3 1 % 32)).counter < x.inst)) ∧
      { t with steps := s.steps, readQ := s.readQ, ctxs := s.ctxs } = s) ∧
  (∀ (c e : Nat) (cx : Ctx) (d : ReadDesc) (rec : List Byte) (f : Bool) (s : State), s.nextDesc c = some (cx, d) → d.type = 1 → commonCheck cx d = none →
    (f = true → bitN d.flags 1 = false) → s.stepCheck cx d rec = some e →
    ∃ t, exec (.step c rec f) s = .next t ∧ t.recordDue s cx (d.completion 0x13 e) ∧
      State.sameButRecords { t with readQ := s.readQ, batches := s.batches } s) ∧
  (∀ (c : Nat) (cx : Ctx) (d : ReadDesc) (rec : List Byte) (f : Bool) (s : State), s.nextDesc c = some (cx, d) → d.type = 1 → commonCheck cx d = none →
    (f = true → bitN d.flags 1 = false) → s.stepCheck cx d rec = none → bitN d.flags 3 = false → s.submitDraft (leAt d.bytes 2 1) cx.part d.seq = none →
    (∀ x ∈ s.steps, x.id ≠ d.seq) →
    ∃ t, exec (.step c rec f) s = .next t ∧ t.recordDue s cx (d.completion 0x10 1) ∧
      State.sameButRecords { t with readQ := s.readQ, batches := s.batches } s) ∧
  (∀ (c n : Nat) (cx : Ctx) (d : ReadDesc) (rec : List Byte) (f : Bool) (s : State), s.nextDesc c = some (cx, d) → d.type = 1 →
    commonCheck cx d = none → (f = true → bitN d.flags 1 = false) → s.stepCheck cx d rec = none → bitN d.flags 3 = true →
    (s.submitDraft (leAt d.bytes 2 1) cx.part d.seq).isSome = true → n = s.bindTo cx (leAt d.bytes 3 1 % 32) (leAt d.bytes 48 8) →
    s.inst? (leAt d.bytes 3 1 % 32) n = none → s.members (leAt d.bytes 3 1 % 32) = [] → (∀ x ∈ s.steps, x.id ≠ d.seq) →
    ∃ t, exec (.step c rec f) s = .next t ∧ t.recordDue s cx (d.completion 0x10 9) ∧
      State.sameButRecords { t with readQ := s.readQ, batches := s.batches, ctxs := s.ctxs } s) ∧
  (∀ (c : Nat) (cx : Ctx) (d : ReadDesc) (rec : List Byte) (s : State), s.nextDesc c = some (cx, d) → d.type = 1 → commonCheck cx d = none →
    bitN d.flags 1 = true → s.silent (0x1E + cx.part) →
    ∃ t, exec (.step c rec true) s = .next t ∧ t.recordDue s cx (d.completion 2 0) ∧ t.steps = s.steps ∧
      t.captured (0x1E + cx.part) (cap (some c) (fnMaster cx.fn) 1 (BitVec.ofNat 64 (leAt d.bytes 32 8)) 2)) ∧
  (∀ (c : Nat) (cx : Ctx) (x y : Step) (s : State), s.atTa c = some x → s.ctx? c = some cx → cx.closing = false → s.heddleOn = true →
    y = { x with deadline := s.deadlineOf x, cost := s.cost (portPart x.fn.port) s.holdUs (s.stepDraft x) } → s.refusal y = none →
    s.sched.running.isSome = true → (x.lc = true → x.ageUs = 0) →
    ∃ t z, exec (.stepAdmission c false) s = .next t ∧ z ∈ t.steps ∧ z.id = x.id ∧ z.stage = .admitted ∧ z.admitTime = s.time.now ∧
      z.deadline = y.deadline ∧ z.cost = y.cost ∧ z.counter = (if x.replay then x.counter else cx.stepCounter + 1) ∧
      (t.ctx? c).map (fun w => w.stepCounter) = some (if x.replay then cx.stepCounter else cx.stepCounter + 1) ∧
      t.sched = s.sched ∧ t.drafts = s.drafts ∧ t.kappas = s.kappas ∧ t.rings = s.rings ∧ t.hostMemA = s.hostMemA ∧ t.hostMemB = s.hostMemB) ∧
  (∀ (c : Nat) (cx : Ctx) (x y : Step) (s : State), s.atTa c = some x → s.ctx? c = some cx → cx.closing = false → s.heddleOn = true →
    y = { x with deadline := s.deadlineOf x, cost := s.cost (portPart x.fn.port) s.holdUs (s.stepDraft x) } → s.refusal y = none →
    s.sched.running = none → s.sched.nextStart = none → s.unitPhase .heddle = none → s.steps = [x] → s.posted = [] → x.batch = false →
    (x.lc = true → x.ageUs = 0) → s.groupsReady (s.stepDraft x).whole = true → s.inputLost x = false →
    ∃ t z, exec (.stepAdmission c false) s = .next t ∧ t.steps = [z] ∧ z.id = x.id ∧ z.stage = .running ∧ z.started = true ∧
      z.onA = s.needs (s.stepDraft x).whole .a ∧ z.onB = s.needs (s.stepDraft x).whole .b ∧ t.sched.running = some x.id ∧
      (∀ pg n p, z.onA = true → (s.stepDraft x).programs[(s.stepDraft x).seqA]? = some pg → s.lowestPair .a = some n →
        s.pair? n = some p → p.run = none → p.queued = [] → ∃ q, t.pair? n = some q ∧ q.pc = BitVec.ofNat 64 pg.entry ∧
          q.run.map (fun r => (r.step, r.program)) = some (x.id, (s.stepDraft x).seqA)) ∧
      (∀ pg n p, z.onB = true → (s.stepDraft x).programs[(s.stepDraft x).seqB]? = some pg → s.lowestPair .b = some n →
        s.pair? n = some p → p.run = none → p.queued = [] → ∃ q, t.pair? n = some q ∧ q.pc = BitVec.ofNat 64 pg.entry ∧
          q.run.map (fun r => (r.step, r.program)) = some (x.id, (s.stepDraft x).seqB))) ∧
  (∀ (c st r : Nat) (cx : Ctx) (x y : Step) (s : State), s.atTa c = some x → s.ctx? c = some cx → cx.closing = false → s.heddleOn = true →
    y = { x with deadline := s.deadlineOf x, cost := s.cost (portPart x.fn.port) s.holdUs (s.stepDraft x) } → s.refusal y = some (st, r) →
    x.kept = none → (st = 0x10 ∨ x.record = false) →
    (s.sched.running.isSome = true ∨ (s.steps = [x] ∧ s.sched.nextStart = none)) →
    ∃ t, exec (.stepAdmission c false) s = .next t ∧ t.recordDue s cx (s.unrunRecord x st r) ∧ (∀ z ∈ t.steps, z.id ≠ x.id) ∧
      (∀ z ∈ s.steps, z.id ≠ x.id → z ∈ t.steps) ∧
      State.sameButRecords { t with batches := s.batches, steps := s.steps } s) ∧
  (∀ (c st r : Nat) (cx : Ctx) (x y : Step) (s : State), s.atTa c = some x → s.ctx? c = some cx → cx.closing = false → s.heddleOn = true → x.lc = true →
    y = { x with deadline := s.deadlineOf x, cost := s.cost (portPart x.fn.port) s.holdUs (s.stepDraft x) } → s.refusal y = some (st, r) →
    x.kept = none → (st = 0x10 ∨ x.record = false) →
    (s.sched.running.isSome = true ∨ (s.steps = [x] ∧ s.sched.nextStart = none)) →
    s.silent 0x008 →
    ∃ t, exec (.stepAdmission c true) s = .next t ∧ t.recordDue s cx (s.unrunRecord x 0x10 8) ∧ (∀ z ∈ t.steps, z.id ≠ x.id) ∧
      t.captured 0x008 (cap (some c) noMaster 0 0 0)) ∧
  (∀ (c : Nat) (cx : Ctx) (x : Step) (s : State), s.ctx? c = some cx → cx.closing = false → s.steps = [x] → x.ctx = c → s.waitsOpen x = true → s.sched.nextStart = none → x.kept = none →
    x.bellTime.toNat + 64 * s.frameUs * 1000 ≤ s.time.now.toNat →
    ∃ t, exec (.batchWaitTimeout c) s = .next t ∧ t.recordDue s cx (s.unrunRecord x 0x10 9) ∧ t.steps = [] ∧
      State.sameButRecords { t with batches := s.batches, steps := s.steps } s) ∧
  (∀ (c : Nat) (x : Step) (s : State), s.steps = [x] → s.time.now.toNat < x.bellTime.toNat + 64 * s.frameUs * 1000 →
    exec (.batchWaitTimeout c) s = .next s)

/-! ### Shuttle pairs -/

/-- R109, R110, R111, R112, R113, R114, R115, R116, R118.  The instruction at the pc retires with what the standard gives it (log entry 12) where no
error strikes a core: the registers, its loads and its stores.  Given for any instruction without stores, and for add, ld, sd, a window store, fadd.d under
frm and the read of vlenb in full.  A struck instruction halts the pair; that, a fault, an error in pair memory, lost data of the step or a spent budget
ends the context's step with its source raised; rdtime reads device time; ecall with a7 = 0 ends the program and completes its ticket.  No budget runs
while a pair stalls on tickets.  An instruction with a row of its own is left to it (the model's choice, log entry 12). -/
def Obligations.ShuttleCoresRetire : Prop :=
  (∀ (n : Nat) (p : Pair) (r : Running) (x : Step) (st : Option CoreStrike) (k len w : Nat) (o : RvOut) (s : State), s.executes n p r x → s.live x.id = true →
    p.fetch = some (len, w) → rowOf n Move.none (BitVec.ofNat 32 w) = none → s.coreStep n p x r len w = some o → o.stores = [] → o.loads = [] →
    st.any o.struck = false →
    ∃ t q, exec (.rv64Instruction n st false k { fixed := [], hit := none }) s = .next t ∧ State.onlyPair { t with freshCtr := s.freshCtr } s n p q ∧
      q.x = o.pair.x ∧ q.f = o.pair.f ∧ q.v = o.pair.v ∧ q.pc = o.pair.pc ∧ q.frm = o.pair.frm ∧ q.fflags = o.pair.fflags ∧
      q.vcsr = o.pair.vcsr ∧ q.resv = o.pair.resv ∧ q.run = some { r with clocks := r.clocks + k, instrs := r.instrs + 1 } ∧
      { q with x := p.x, f := p.f, v := p.v, pc := p.pc, frm := p.frm, fflags := p.fflags, vcsr := p.vcsr, resv := p.resv,
               debugStep := p.debugStep, run := p.run } = p) ∧
  (∀ (n : Nat) (p : Pair) (r : Running) (x : Step) (k d a b : Nat) (s : State), s.executes n p r x → s.live x.id = true → d < 32 → a < 32 → b < 32 →
    p.fetch = some (4, encR 0 b a 0 d 0x33) →
    ∃ t q, exec (.rv64Instruction n none false k { fixed := [], hit := none }) s = .next t ∧ t.onlyPair s n p q ∧ q.wrote p d (p.getX a + p.getX b)) ∧
  (∀ (n : Nat) (p : Pair) (r : Running) (x : Step) (k d a m v : Nat) (s : State), s.executes n p r x → s.live x.id = true → d < 32 → a < 32 → m < 2048 →
    p.fetch = some (4, encI m a 3 d 0x03) → s.loadAt n x r (p.getX a + BitVec.ofNat 64 m).toNat 8 = some v →
    ∃ t q, exec (.rv64Instruction n none false k { fixed := [], hit := none }) s = .next t ∧ t.onlyPair s n p q ∧ q.wrote p d (BitVec.ofNat 64 v) ∧
      (∀ o, placeOf (p.getX a + BitVec.ofNat 64 m).toNat 8 = .dmem o → v = p.dmem.readLe o 8)) ∧
  (∀ (n : Nat) (p : Pair) (r : Running) (x : Step) (k a b m o : Nat) (s : State), s.executes n p r x → s.live x.id = true → a < 32 → b < 32 → m < 2048 →
    p.fetch = some (4, encS m b a 3 0x23) → placeOf (p.getX a + BitVec.ofNat 64 m).toNat 8 = .dmem o → p.dmem.wf = true →
    ∃ t q, exec (.rv64Instruction n none false k { fixed := [], hit := none }) s = .next t ∧ t.onlyPair s n p q ∧ Pair.wrote { q with dmem := p.dmem } p 0 0 ∧
      ∀ i, q.dmem.read i = if o ≤ i ∧ i < o + 8 then BitVec.ofNat 8 ((p.getX b).toNat / 256 ^ (i - o)) else p.dmem.read i) ∧
  (∀ (n : Nat) (p : Pair) (r : Running) (x : Step) (k a b m y o j : Nat) (e : Env) (s : State), s.executes n p r x → s.live x.id = true → a < 32 → b < 32 → m < 2048 →
    p.fetch = some (4, encS m b a 2 0x23) → placeOf (p.getX a + BitVec.ofNat 64 m).toNat 4 = .window y o → s.window r y = some (j, true) →
    (s.env x (weftOf n)).winWrite j o 4 ((p.getX b).toNat % 2 ^ 32) = some (e, 0) →
    ∃ t q, exec (.rv64Instruction n none false k { fixed := [], hit := none }) s = .next t ∧ t.pair? n = some q ∧ q.wrote p 0 0 ∧
      t.wa.beam = e.ma ∧ t.wb.beam = e.mb ∧ State.sameButCounters { t with wa := s.wa, wb := s.wb } s) ∧
  (∀ (n : Nat) (p : Pair) (r : Running) (x : Step) (k d a b : Nat) (z : Nat × FFlags) (s : State), s.executes n p r x → s.live x.id = true → d < 32 → a < 32 → b < 32 →
    p.fetch = some (4, encR 1 b a 7 d 0x53) → p.frm.toNat ≤ 4 → p.f.length = 32 →
    addF 64 p.frm.toNat (unpackF 64 (p.f.getD a 0).toNat) (unpackF 64 (p.f.getD b 0).toNat) = z →
    ∃ t q, exec (.rv64Instruction n none false k { fixed := [], hit := none }) s = .next t ∧ t.onlyPair s n p q ∧
      (∀ i, i < 32 → q.f.getD i 0 = if i = d then BitVec.ofNat 64 z.1 else p.f.getD i 0) ∧ q.fflags = (p.fflags ||| BitVec.ofNat 5 z.2) ∧
      Pair.wrote { q with f := p.f, fflags := p.fflags } p 0 0) ∧
  (∀ (n : Nat) (p : Pair) (r : Running) (x : Step) (k d : Nat) (s : State), s.executes n p r x → s.live x.id = true → d < 32 → p.fetch = some (4, encI 0xC22 0 2 d 0x73) →
    ∃ t q, exec (.rv64Instruction n none false k { fixed := [], hit := none }) s = .next t ∧ State.onlyPair { t with freshCtr := s.freshCtr } s n p q ∧ q.wrote p d 32) ∧
  (∀ (n : Nat) (p : Pair) (r : Running) (x : Step) (st : CoreStrike) (k len w : Nat) (o : RvOut) (c : ReadChecks) (s : State), s.executes n p r x →
    p.fetch = some (len, w) → rowOf n Move.none (BitVec.ofNat 32 w) = none → s.coreStep n p x r len w = some o → st.mask ≠ 0 →
    (st.place = .pc ∨ st.place = .dest ∧ o.writes = true ∨ (st.place = .storeAddr ∨ st.place = .storeData) ∧ o.stores ≠ []) →
    s.killable x (weftSrc (weftOf n) (0x10 + n % 4)) →
    ∃ t, exec (.rv64Instruction n (some st) false k c) s = .next t ∧ (t.pair? n).map (fun q => q.halted) = some true ∧
      t.killed s x 3 (weftSrc (weftOf n) (0x10 + n % 4)) (cap (some x.ctx) (pairMaster n) 0 p.pc r.program)) ∧
  (∀ (n : Nat) (p : Pair) (r : Running) (x : Step) (st : CoreStrike) (k len w : Nat) (c : ReadChecks) (s : State), s.executes n p r x → p.fetch = some (len, w) →
    rowOf n Move.none (BitVec.ofNat 32 w) ≠ none → st.mask ≠ 0 → (st.place = .pc ∨ st.place = .loomOperands ∧ w % 128 = 0x0B) →
    s.killable x (weftSrc (weftOf n) (0x10 + n % 4)) → exec (.rv64Instruction n none false k c) s = .next s ∧
    ∃ t, exec (.rv64Instruction n (some st) false k c) s = .next t ∧ (t.pair? n).map (fun q => q.halted) = some true ∧
      t.killed s x 3 (weftSrc (weftOf n) (0x10 + n % 4)) (cap (some x.ctx) (pairMaster n) 0 p.pc r.program)) ∧
  (∀ (n : Nat) (p : Pair) (r : Running) (x : Step) (st : Option CoreStrike) (k : Nat) (c : ReadChecks) (s : State), s.executes n p r x →
    (p.fetch = none ∨ ∃ len w, p.fetch = some (len, w) ∧ rowOf n Move.none (BitVec.ofNat 32 w) = none ∧ s.coreStep n p x r len w = none) →
    s.killable x (weftSrc (weftOf n) (0x14 + n % 4)) →
    ∃ t, exec (.rv64Instruction n st false k c) s = .next t ∧
      t.killed s x 3 (weftSrc (weftOf n) (0x14 + n % 4)) (cap (some x.ctx) (pairMaster n) 0 p.pc r.program)) ∧
  (∀ (n : Nat) (p : Pair) (r : Running) (x : Step) (k a b m : Nat) (s : State), s.executes n p r x → s.live x.id = true → a < 32 → b < 32 → m < 2048 →
    p.fetch = some (4, encS m b a 3 0x23) →
    ((∃ o, placeOf (p.getX a + BitVec.ofNat 64 m).toNat 8 = .imem o) ∨ placeOf (p.getX a + BitVec.ofNat 64 m).toNat 8 = .outside) →
    s.killable x (weftSrc (weftOf n) (0x14 + n % 4)) →
    ∃ t, exec (.rv64Instruction n none false k { fixed := [], hit := none }) s = .next t ∧
      t.killed s x 3 (weftSrc (weftOf n) (0x14 + n % 4)) (cap (some x.ctx) (pairMaster n) 0 p.pc r.program)) ∧
  (∀ (n : Nat) (p : Pair) (r : Running) (x : Step) (st : Option CoreStrike) (k : Nat) (c : ReadChecks) (s : State), s.executes n p r x →
    s.killable x (weftSrc (weftOf n) (0x14 + n % 4)) →
    ∃ t, exec (.rv64Instruction n st true k c) s = .next t ∧
      t.killed s x 2 (weftSrc (weftOf n) (0x14 + n % 4)) (cap (some x.ctx) (pairMaster n) 0 p.pc r.program)) ∧
  (∀ (n : Nat) (p : Pair) (r : Running) (x : Step) (k len w a : Nat) (y : Weft) (b : Byte) (o : RvOut) (s : State), s.executes n p r x → p.fetch = some (len, w) →
    rowOf n Move.none (BitVec.ofNat 32 w) = none → s.coreStep n p x r len w = some o → s.beamOwner y a = .step x.ctx → s.killable x (weftSrc y 0x20) →
    ∃ t, exec (.rv64Instruction n none false k { fixed := [], hit := some { place := .beam y a, master := b } }) s = .next t ∧
      t.killed s x 2 (weftSrc y 0x20) (cap (some x.ctx) b 1 (BitVec.ofNat 64 a) 0)) ∧
  (∀ (n rd : Nat) (p : Pair) (r : Running) (x : Step) (s : State), s.performs n p r x Move.none (.rdtime n rd) →
    ∃ t q, exec (.rdtime n rd) s = .next t ∧ t.onlyPair s n p q ∧ q.wrote p rd s.time.now) ∧
  (∀ (n : Nat) (p : Pair) (r : Running) (x : Step) (s : State), s.performs n p r x Move.none (.ecall n) → p.getX 17 = 0 → p.queued = [] →
    (∀ d, ∀ y ∈ (s.weft d).pairs, ∀ h, y.stall ≠ some (.hinge h)) →
    ∃ t q, exec (.ecall n) s = .next t ∧ t.pair? n = some q ∧ q.run = none ∧ q.stall = none ∧
      (∀ k, r.ticket = some k → (t.weft (weftOf n)).tickets.contains k = false) ∧ t.steps = s.steps ∧
      State.sameButCounters { t with wa := s.wa, wb := s.wb } s) ∧
  (∀ (n : Nat) (p : Pair) (r : Running) (x : Step) (s : State), s.performs n p r x Move.none (.ecall n) → p.getX 17 ≠ 0 →
    s.killable x (weftSrc (weftOf n) (0x14 + n % 4)) →
    ∃ t, exec (.ecall n) s = .next t ∧
      t.killed s x 3 (weftSrc (weftOf n) (0x14 + n % 4)) (cap (some x.ctx) (pairMaster n) 0 p.pc r.program)) ∧
  (∀ (n : Nat) (p : Pair) (r : Running) (x : Step) (s : State), s.performs n p r x Move.none (.ebreak n) →
    s.killable x (weftSrc (weftOf n) (0x14 + n % 4)) → ∃ t, exec (.ebreak n) s = .next t ∧
      t.killed s x 3 (weftSrc (weftOf n) (0x14 + n % 4)) (cap (some x.ctx) (pairMaster n) 0 p.pc r.program)) ∧
  (∀ (n : Nat) (p : Pair) (r : Running) (x : Step) (s : State), s.pair? n = some p → p.watched = some r → s.step? r.step = some x →
    s.clocked (.shuttle (weftOf n)) = true → s.pairOn n = true → s.unitUp (.pair n) = true →
    s.killable x (weftSrc (weftOf n) (0x18 + n % 4)) →
    ∃ t, exec (.shuttleBudgetExpiry n) s = .next t ∧
      t.killed s x 3 (weftSrc (weftOf n) (0x18 + n % 4)) (cap (some x.ctx) (pairMaster n) 0 p.pc r.program)) ∧
  (∀ (n : Nat) (p : Pair) (s : State), s.pair? n = some p → (p.stall = some .all ∨ ∃ k, p.stall = some (.ticket k)) →
    exec (.shuttleBudgetExpiry n) s = .next s)

/-- R118, R119, R123, R257.  An operation is queued with a ticket that no operation in flight on the die bears; at 64 tickets or a full queue
the pair stalls and nothing else changes; a layer, copy, count or program that does not exist is a program fault; funct7 tells the
instructions apart.  That lm.dec and lm.enc carry what
they move beside their registers, and that the free ticket is any, is the model's choice (log entries 33 and 34). -/
def Obligations.LoomInstructionsIssue : Prop :=
  (∀ (n rd rs1 l : Nat) (p : Pair) (r : Running) (x : Step) (s : State), s.executes n p r x → l = (p.getX rs1).toNat % 2 ^ 14 →
    l < (s.stepDraft x).layers.length → s.pairTickets n < 64 → (∃ k, k < 256 ∧ (s.weft (weftOf n)).tickets.contains k = false) →
    (((s.stepDraft x).layer l).unit = .reed → s.queueFull (weftOf n) .reed = false → p.spells n Move.none (.lmReed n rd rs1) = true →
      ∃ t, exec (.lmReed n rd rs1) s = .next t ∧
      t.issued s n p rd (fun k u => (u.weft (weftOf n)).reedQ = (s.weft (weftOf n)).reedQ ++ [x.opOf n (.layer l) ((s.stepDraft x).layer l).m k] ∧
        State.sameButCounters { u with wa := s.wa, wb := s.wb, freshCtr := s.freshCtr } s)) ∧
    (((s.stepDraft x).layer l).unit = .finish → s.queueFull (weftOf n) .finish = false → p.spells n Move.none (.lmFin n rd rs1) = true →
      ∃ t, exec (.lmFin n rd rs1) s = .next t ∧
      t.issued s n p rd (fun k u => (u.weft (weftOf n)).finishQ = (s.weft (weftOf n)).finishQ ++ [x.opOf n (.layer l) ((s.stepDraft x).layer l).m k] ∧
        State.sameButCounters { u with wa := s.wa, wb := s.wb, freshCtr := s.freshCtr } s)) ∧
    (((s.stepDraft x).layer l).unit = .array → s.queueFull (weftOf n) .array = false →
      (((s.stepDraft x).layer l).gatherable = false ∨ x.on (otherDie (weftOf n)) = false ∧ (s.holdUs = 0 ∨
        (s.stepDraft x).gatherTarget ((s.stepDraft x).layer l) ≤ ((s.stepDraft x).layer l).m)) →
      p.spells n Move.none (.lmOp n rd rs1) = true → ∃ t, exec (.lmOp n rd rs1) s = .next t ∧
      t.issued s n p rd (fun k u => (u.weft (weftOf n)).arrayQ = (s.weft (weftOf n)).arrayQ ++ [x.opOf n (.layer l) ((s.stepDraft x).layer l).m k] ∧
        State.sameButCounters { u with wa := s.wa, wb := s.wb, freshCtr := s.freshCtr } s)) ∧
    (((s.stepDraft x).layer l).unit = .array → s.queueFull (weftOf n) .array = false → s.holdUs ≠ 0 → s.det = false →
      ((s.stepDraft x).layer l).gatherable = true →
      ((s.stepDraft x).layer l).m < (s.stepDraft x).gatherTarget ((s.stepDraft x).layer l) → s.sched.windows = [] → p.spells n Move.none (.lmOp n rd rs1) = true →
      ∃ t, exec (.lmOp n rd rs1) s = .next t ∧
      t.issued s n p rd (fun k u => (u.weft (weftOf n)).arrayQ = (s.weft (weftOf n)).arrayQ ∧ u.sched.windows =
          [{ entry := x.entry, layer := l, lc := x.lc, group := none, openTime := s.time.now, limitUs := if x.lc then min s.holdUs x.holdUs else s.holdUs,
             members := [{ step := x.id, pair := n, ticket := k, rows := ((s.stepDraft x).layer l).m }],
             asked := [(weftOf n, { step := x.id, pair := n, ticket := k, rows := ((s.stepDraft x).layer l).m })] }] ∧
        State.sameButCounters { u with wa := s.wa, wb := s.wb, sched := s.sched, freshCtr := s.freshCtr } s))) ∧
  (∀ (n rd rs1 : Nat) (i : Instr) (p : Pair) (r : Running) (x : Step) (s : State),
    i = .lmOp n rd rs1 ∨ i = .lmReed n rd rs1 ∨ i = .lmFin n rd rs1 → s.performs n p r x Move.none i →
    (s.stepDraft x).layers.length ≤ (p.getX rs1).toNat % 2 ^ 14 → s.killable x (weftSrc (weftOf n) (0x14 + n % 4)) →
    ∃ t, exec i s = .next t ∧
      t.killed s x 3 (weftSrc (weftOf n) (0x14 + n % 4)) (cap (some x.ctx) (pairMaster n) 0 p.pc r.program)) ∧
  (∀ (n rd rs1 l : Nat) (p : Pair) (r : Running) (x : Step) (u : OpUnit) (s : State), s.executes n p r x → l = (p.getX rs1).toNat % 2 ^ 14 →
    l < (s.stepDraft x).layers.length → ((s.stepDraft x).layer l).unit = u →
    (64 ≤ s.pairTickets n ∨ s.queueFull (weftOf n) u = true) →
    (u = .array → p.spells n Move.none (.lmOp n rd rs1) = true → ∃ t, exec (.lmOp n rd rs1) s = .next t ∧ State.sameButCounters { t with freshCtr := s.freshCtr } s) ∧
    (u = .reed → p.spells n Move.none (.lmReed n rd rs1) = true → ∃ t, exec (.lmReed n rd rs1) s = .next t ∧ State.sameButCounters { t with freshCtr := s.freshCtr } s) ∧
    (u = .finish → p.spells n Move.none (.lmFin n rd rs1) = true → ∃ t, exec (.lmFin n rd rs1) s = .next t ∧ State.sameButCounters { t with freshCtr := s.freshCtr } s)) ∧
  (∀ (n rd rs1 rs2 pl part key : Nat) (pr : Placement) (p : Pair) (r : Running) (x : Step) (s : State), s.executes n p r x →
    pl = (p.getX rs1).toNat → part = (p.getX rs2).toNat → (s.stepDraft x).placements[pl]? = some pr → part < pr.parts →
    key = 2 * pl + dieNo (weftOf n) - 1 → s.pairTickets n < 64 → s.queueFull (weftOf n) .stage = false →
    (∃ k, k < 256 ∧ (s.weft (weftOf n)).tickets.contains k = false) →
    (useCount x.stagesUsed key < pr.stages → p.spells n Move.none (.lmStage n rd rs1 rs2) = true → ∃ t, exec (.lmStage n rd rs1 rs2) s = .next t ∧
      t.issued s n p rd (fun k u => (u.weft (weftOf n)).stageQ = (s.weft (weftOf n)).stageQ ++ [x.opOf n (.stage pl part) 0 k] ∧
        (u.step? x.id).map (fun y => useCount y.stagesUsed key) = some (useCount x.stagesUsed key + 1) ∧
        State.sameButCounters { u with wa := s.wa, wb := s.wb, steps := s.steps, freshCtr := s.freshCtr } s)) ∧
    (useCount x.evictsUsed key < pr.evicts → p.spells n Move.none (.lmEvict n rd rs1 rs2) = true → ∃ t, exec (.lmEvict n rd rs1 rs2) s = .next t ∧
      t.issued s n p rd (fun k u => (u.weft (weftOf n)).stageQ = (s.weft (weftOf n)).stageQ ++ [x.opOf n (.evict pl part) 0 k] ∧
        (u.step? x.id).map (fun y => useCount y.evictsUsed key) = some (useCount x.evictsUsed key + 1) ∧
        State.sameButCounters { u with wa := s.wa, wb := s.wb, steps := s.steps, freshCtr := s.freshCtr } s))) ∧
  (∀ (n rd rs1 rs2 : Nat) (i : Instr) (p : Pair) (r : Running) (x : Step) (s : State),
    i = .lmStage n rd rs1 rs2 ∨ i = .lmEvict n rd rs1 rs2 → s.performs n p r x Move.none i →
    ((s.stepDraft x).placements.getD (p.getX rs1).toNat Placement.zero).parts ≤ (p.getX rs2).toNat →
    s.killable x (weftSrc (weftOf n) (0x14 + n % 4)) →
    ∃ t, exec i s = .next t ∧
      t.killed s x 3 (weftSrc (weftOf n) (0x14 + n % 4)) (cap (some x.ctx) (pairMaster n) 0 p.pc r.program)) ∧
  (∀ (n rd rs1 rs2 j row m ch : Nat) (p : Pair) (r : Running) (x : Step) (s : State), s.executes n p r x →
    1 ≤ m → m ≤ 4096 → 1 ≤ ch → ch ≤ 4096 → j < (s.stepDraft x).tensors.length →
    ((s.stepDraft x).tensor j).type = 0 → row + m ≤ ((s.stepDraft x).tensor j).rows → ch ≤ ((s.stepDraft x).tensor j).rowLen →
    (p.getX rs2).toNat + 4 * m * ch ≤ 131072 → s.pairTickets n < 64 → s.queueFull (weftOf n) .reed = false →
    (∃ k, k < 256 ∧ (s.weft (weftOf n)).tickets.contains k = false) →
    (p.spells n { tensor := j, row := row, count := m, channels := ch }
        (.lmDec n rd rs1 rs2 { tensor := j, row := row, count := m, channels := ch }) = true →
      ∃ t, exec (.lmDec n rd rs1 rs2 { tensor := j, row := row, count := m, channels := ch }) s = .next t ∧
      t.issued s n p rd (fun k u => (u.weft (weftOf n)).reedQ = (s.weft (weftOf n)).reedQ ++
        [x.opOf n (.dec j row m ch (p.getX rs2).toNat) m k] ∧ State.sameButCounters { u with wa := s.wa, wb := s.wb, freshCtr := s.freshCtr } s)) ∧
    (p.spells n { tensor := j, row := row, count := m, channels := ch }
        (.lmEnc n rd rs1 rs2 { tensor := j, row := row, count := m, channels := ch }) = true →
      ∃ t, exec (.lmEnc n rd rs1 rs2 { tensor := j, row := row, count := m, channels := ch }) s = .next t ∧
      t.issued s n p rd (fun k u => (u.weft (weftOf n)).reedQ = (s.weft (weftOf n)).reedQ ++
        [x.opOf n (.enc j row m ch (p.getX rs2).toNat) m k] ∧ State.sameButCounters { u with wa := s.wa, wb := s.wb, freshCtr := s.freshCtr } s))) ∧
  (∀ (n rd rs1 rs2 : Nat) (mv : Move) (i : Instr) (p : Pair) (r : Running) (x : Step) (s : State),
    i = .lmDec n rd rs1 rs2 mv ∨ i = .lmEnc n rd rs1 rs2 mv → s.performs n p r x mv i →
    (mv.count = 0 ∨ mv.channels = 0) → s.killable x (weftSrc (weftOf n) (0x14 + n % 4)) →
    ∃ t, exec i s = .next t ∧
      t.killed s x 3 (weftSrc (weftOf n) (0x14 + n % 4)) (cap (some x.ctx) (pairMaster n) 0 p.pc r.program)) ∧
  (∀ (n rd rs1 rs2 m : Nat) (p y : Pair) (r : Running) (x : Step) (pg : Program) (s : State), s.performs n p r x Move.none (.lmSpawn n rd rs1 rs2) →
    (s.stepDraft x).programs[(p.getX rs1).toNat % 256]? = some pg → s.nextPair n = m → m ≠ n → s.pair? m = some y → y.run = none →
    y.queued = [] → s.pairTickets n < 64 → (∃ k, k < 256 ∧ (s.weft (weftOf n)).tickets.contains k = false) →
    ∃ t, exec (.lmSpawn n rd rs1 rs2) s = .next t ∧ t.issued s n p rd (fun k u => ∃ q, u.pair? m = some q ∧ q.pc = BitVec.ofNat 64 pg.entry ∧
      q.run = some { step := x.id, program := (p.getX rs1).toNat % 256, tickets := [], clocks := 0, instrs := 0, ticket := some k,
                     arg := p.getX rs2, start := pg.entry, parent := n } ∧
      (∀ i, q.getX i = if i % 32 = 10 then p.getX rs2 else 0) ∧ q.dmem = Memory.writeBytes [] 0 pg.data ∧
      q.imem = Memory.writeBytes [] 0 pg.text ∧
      State.sameButCounters { u with wa := s.wa, wb := s.wb, freshCtr := s.freshCtr } s)) ∧
  (∀ (n rd rs1 rs2 : Nat) (p : Pair) (r : Running) (x : Step) (s : State), s.performs n p r x Move.none (.lmSpawn n rd rs1 rs2) →
    (s.stepDraft x).programs.length ≤ (p.getX rs1).toNat % 256 → s.killable x (weftSrc (weftOf n) (0x14 + n % 4)) →
    ∃ t, exec (.lmSpawn n rd rs1 rs2) s = .next t ∧
      t.killed s x 3 (weftSrc (weftOf n) (0x14 + n % 4)) (cap (some x.ctx) (pairMaster n) 0 p.pc r.program)) ∧
  (∀ (n rd a b f : Nat) (mv : Move) (w : BitVec 32), rd < 32 → a < 32 → b < 32 → f < 128 →
    w = BitVec.ofNat 32 (f * 2 ^ 25 + b * 2 ^ 20 + a * 2 ^ 15 + rd * 2 ^ 7 + 0x0B) →
    isLoomWord w = true ∧ decodeLoom n mv w = rowOf n mv w ∧ decodeLoom n mv w = ([.lmOp n rd a, .lmReed n rd a, .lmFin n rd a, .lmStage n rd a b, .lmEvict n rd a b,
      .lmSpawn n rd a b, .lmWait n a, .lmSync n, .lmHinge n a, .lmDec n rd a b mv, .lmEnc n rd a b mv, .lmLacq n rd a, .lmLrel n a,
      .lmRd n rd b] : List Instr)[f]?)

/-- R118, R119, R121, R122.  lm.wait and lm.sync stall until tickets complete and pass when none is in flight; lm.lacq takes a free latch of the
grant, lm.lrel frees it and does
nothing to a latch held elsewhere or by none, and outside the grant both are program faults; lm.rd reads the step's attributes; lm.hinge waits for the choice
point with every register intact, or kills a context that holds a latch. -/
def Obligations.LoomInstructionsWaitAndRead : Prop :=
  (∀ (n rs1 : Nat) (p : Pair) (r : Running) (x : Step) (s : State), s.performs n p r x Move.none (.lmWait n rs1) →
    (s.weft (weftOf n)).tickets.contains ((p.getX rs1).toNat % 256) = false →
    ∃ t q, exec (.lmWait n rs1) s = .next t ∧ t.onlyPair s n p q ∧ q.wrote p 0 0) ∧
  (∀ (n rs1 : Nat) (p : Pair) (r : Running) (x : Step) (s : State), s.performs n p r x Move.none (.lmWait n rs1) →
    (s.weft (weftOf n)).tickets.contains ((p.getX rs1).toNat % 256) = true →
    ∃ t q, exec (.lmWait n rs1) s = .next t ∧ State.onlyPair { t with freshCtr := s.freshCtr } s n p q ∧
      q.stall = some (.ticket ((p.getX rs1).toNat % 256)) ∧ Pair.wrote { q with stall := p.stall } p 0 0) ∧
  (∀ (n : Nat) (p : Pair) (r : Running) (x : Step) (s : State), s.performs n p r x Move.none (.lmSync n) → r.tickets = [] →
    ∃ t q, exec (.lmSync n) s = .next t ∧ t.onlyPair s n p q ∧ q.wrote p 0 0) ∧
  (∀ (n : Nat) (p : Pair) (r : Running) (x : Step) (s : State), s.performs n p r x Move.none (.lmSync n) → r.tickets ≠ [] →
    ∃ t q, exec (.lmSync n) s = .next t ∧ State.onlyPair { t with freshCtr := s.freshCtr } s n p q ∧ q.stall = some .all ∧
      Pair.wrote { q with stall := p.stall } p 0 0) ∧
  (∀ (n rd rs1 l : Nat) (p : Pair) (r : Running) (x : Step) (s : State), s.executes n p r x → l = (p.getX rs1).toNat % 2 ^ 12 →
    s.latchGrant x r l = true →
    (lookupN s.latches l = none → p.spells n Move.none (.lmLacq n rd rs1) = true →
      ∃ t q, exec (.lmLacq n rd rs1) s = .next t ∧ State.onlyPair { t with latches := s.latches } s n p q ∧
      q.wrote p rd 1 ∧ ∀ i, lookupN t.latches i = if i = l then some (.program x.ctx) else lookupN s.latches i) ∧
    (lookupN s.latches l = some (.program x.ctx) → p.spells n Move.none (.lmLacq n rd rs1) = true →
      ∃ t q, exec (.lmLacq n rd rs1) s = .next t ∧ t.onlyPair s n p q ∧ q.wrote p rd 1) ∧
    (∀ h, lookupN s.latches l = some h → h ≠ .program x.ctx → p.spells n Move.none (.lmLacq n rd rs1) = true →
      ∃ t q, exec (.lmLacq n rd rs1) s = .next t ∧ t.onlyPair s n p q ∧ q.wrote p rd 0) ∧
    (lookupN s.latches l ≠ some (.program x.ctx) → p.spells n Move.none (.lmLrel n rs1) = true →
      ∃ t q, exec (.lmLrel n rs1) s = .next t ∧ t.onlyPair s n p q ∧ q.wrote p 0 0) ∧
    (lookupN s.latches l = some (.program x.ctx) → p.spells n Move.none (.lmLrel n rs1) = true →
      ∃ t q, exec (.lmLrel n rs1) s = .next t ∧
      State.onlyPair { t with latches := s.latches } s n p q ∧ q.wrote p 0 0 ∧
      ∀ i, lookupN t.latches i = if i = l then none else lookupN s.latches i)) ∧
  (∀ (n rd rs1 : Nat) (i : Instr) (p : Pair) (r : Running) (x : Step) (s : State), i = .lmLacq n rd rs1 ∨ i = .lmLrel n rs1 →
    s.performs n p r x Move.none i → s.latchGrant x r ((p.getX rs1).toNat % 2 ^ 12) = false → s.killable x (weftSrc (weftOf n) (0x14 + n % 4)) →
    ∃ t, exec i s = .next t ∧
      t.killed s x 3 (weftSrc (weftOf n) (0x14 + n % 4)) (cap (some x.ctx) (pairMaster n) 0 p.pc r.program)) ∧
  (∀ (n rd sel : Nat) (p : Pair) (r : Running) (x : Step) (s : State), s.performs n p r x Move.none (.lmRd n rd sel) →
    ∃ t q v, exec (.lmRd n rd sel) s = .next t ∧ t.onlyPair s n p q ∧ q.wrote p rd v ∧ (sel = 0 → v = BitVec.ofNat 64 x.ctx) ∧
      (sel = 1 → v = x.counter) ∧ (sel = 2 → x.batch = true → v = BitVec.ofNat 64 x.batchIndex) ∧ (sel = 4 → v = x.seed) ∧
      (sel = 3 → v = BitVec.ofNat 64 (s.stepSubst x)) ∧ (sel = 5 → v = BitVec.ofNat 64 s.mode) ∧ (sel = 6 → v = if weftOf n = .a then 0 else 1) ∧ (7 ≤ sel → v = 0)) ∧
  (∀ (n rs1 : Nat) (p : Pair) (r : Running) (x : Step) (s : State), s.performs n p r x Move.none (.lmHinge n rs1) → x.stage = .running → s.steps = [x] →
    (p.getX rs1).toNat % 2 ^ 14 < (s.stepDraft x).hinges.length → (∀ l ∈ s.latches, l.2 ≠ .program x.ctx) →
    ∃ t q, exec (.lmHinge n rs1) s = .next t ∧ t.pair? n = some q ∧ Pair.wrote { q with stall := p.stall } p 0 0 ∧
      (q.stall = none ∨ q.stall = some (.hinge ((p.getX rs1).toNat % 2 ^ 14))) ∧ t.steps = s.steps ∧
      State.sameButCounters { t with wa := s.wa, wb := s.wb } s) ∧
  (∀ (n rs1 : Nat) (p : Pair) (r : Running) (x : Step) (s : State), s.performs n p r x Move.none (.lmHinge n rs1) →
    (p.getX rs1).toNat % 2 ^ 14 < (s.stepDraft x).hinges.length → (∃ l ∈ s.latches, l.2 = .program x.ctx) →
    s.killable x (weftSrc (weftOf n) 0x1E) →
    ∃ t, exec (.lmHinge n rs1) s = .next t ∧ t.killed s x 3 (weftSrc (weftOf n) 0x1E) (cap (some x.ctx) (pairMaster n) 0 0 0)) ∧
  (∀ (n rs1 : Nat) (p : Pair) (r : Running) (x : Step) (s : State), s.performs n p r x Move.none (.lmHinge n rs1) →
    (s.stepDraft x).hinges.length ≤ (p.getX rs1).toNat % 2 ^ 14 → s.killable x (weftSrc (weftOf n) (0x14 + n % 4)) →
    ∃ t, exec (.lmHinge n rs1) s = .next t ∧
      t.killed s x 3 (weftSrc (weftOf n) (0x14 + n % 4)) (cap (some x.ctx) (pairMaster n) 0 p.pc r.program))

/-! ### Queued operations -/

/-- R94, R98, R101, R102, R105, R106, R107, R119, R120, R132, R429.  A unit starts the front of its queue when it is free and nothing holds
it, unless the operation touches a region being written; a gather window runs when its hold passes, each member at its rows; the residue
check detects an error unless it is a multiple of 7, which stays in the operation, and a checker that fires ends its context; both dies of
a Whole draft meet at the barrier, where their rows are written, and a mismatch ends the step on both. -/
def Obligations.QueuedOperationsStart : Prop :=
  (∀ (d : Weft) (u : OpUnit) (o : Op) (rest : List Op) (s : State), (s.weft d).queue u = o :: rest → s.unitFree d u = true →
    (s.weft d).runOf u = none → s.opHeld d u o = false → s.hazard d o = false →
    ∃ t, exec (.queuedOpStart d u .ok) s = .next t ∧ (t.weft d).queue u = rest ∧ (t.weft d).runOf u = some o ∧
      (∀ v, v ≠ u → (t.weft d).queue v = (s.weft d).queue v ∧ (t.weft d).runOf v = (s.weft d).runOf v) ∧
      (u = .array → (t.weft d).engines = s.startEngines d o ∧ ∀ k, ((t.weft d).engines[k]?).map (fun g => g.op) =
        ((s.weft d).engines[k]?).map (fun g => if s.engineTakes (4 * weftNo d + k) then some o else g.op)) ∧
      (u ≠ .array → (t.weft d).engines = (s.weft d).engines) ∧ (t.weft d).beam = (s.weft d).beam ∧ (t.weft d).pairs = (s.weft d).pairs ∧
      t.weft (otherDie d) = s.weft (otherDie d) ∧ { t with wa := s.wa, wb := s.wb } = s) ∧
  (∀ (d : Weft) (u : OpUnit) (o : Op) (rest : List Op) (m : OpMember) (x : Step) (k : OpCheck) (s : State),
    (s.weft d).queue u = o :: rest → s.unitFree d u = true → (s.weft d).runOf u = none → s.opHeld d u o = false → s.hazard d o = true →
    o.members = [m] → s.step? m.step = some x → s.killable x (weftSrc d 0x1C) →
    ∃ t, exec (.queuedOpStart d u k) s = .next t ∧
      t.killed s x 3 (weftSrc d 0x1C) (cap (some x.ctx) (unitMaster d u o) 0 0 0)) ∧
  (∀ (d : Weft) (o : Op) (rest : List Op) (m : OpMember) (x : Step) (l e cube col row chan n : Nat) (delta : Int) (k : OpCheck)
    (f : Layer → Env → Strike) (s : State), (s.weft d).arrayQ = o :: rest → s.unitFree d .array = true → (s.weft d).arrayRun = none →
    s.opHeld d .array o = false → s.hazard d o = false → o.members = [m] → m.base = 0 → row < m.rows → s.step? m.step = some x →
    o.kind = .layer l → ((s.stepDraft x).layer l).batches ≤ 1 →
    ((k = .product row chan n delta ∧ f = fun y v => v.strikeCube y n) ∨ (k = .lane row chan n delta ∧ f = fun y v => v.strikeLane y n) ∨
      (1 < ((s.stepDraft x).layer l).ks ∧ k = .combined row chan n delta ∧ f = fun y v => v.strikeSum y n)) →
    (s.strike d x ((s.stepDraft x).layer l) o row row chan (f ((s.stepDraft x).layer l)) delta = .reported e cube col →
      s.killable x (weftSrc d (e % 4)) →
      ∃ t, exec (.queuedOpStart d .array k) s = .next t ∧ t.killed s x 3 (weftSrc d (e % 4))
        (cap (some x.ctx) (BitVec.ofNat 8 (0x70 + e)) 4 (BitVec.ofNat 64 row) (e + 256 * cube + 65536 * col))) ∧
    (∀ u, s.strike d x ((s.stepDraft x).layer l) o row row chan (f ((s.stepDraft x).layer l)) delta = .silent u →
      ∃ t, exec (.queuedOpStart d .array k) s = .next t ∧ (t.weft d).arrayRun = some { o with upsets := u :: o.upsets } ∧
        t.hasp = s.hasp ∧ t.steps = s.steps ∧ t.ladder = s.ladder)) ∧
  (∀ (ca cw : Codebook) (as ws : List Nat) (delta : Int), mismatch ca cw as ws delta = false ↔ (7 : Int) ∣ delta) ∧
  (∀ (d : Weft) (o : Op) (rest : List Op) (m : OpMember) (x : Step) (e row : Nat) (s : State), (s.weft d).arrayQ = o :: rest →
    s.unitFree d .array = true → (s.weft d).arrayRun = none → s.opHeld d .array o = false → s.hazard d o = false → o.members = [m] →
    m.base = 0 → row < m.rows → s.step? m.step = some x → (enginesOf d).contains e = true → s.engineTakes e = true →
    s.killable x (weftSrc d (4 + e % 4)) →
    ∃ t, exec (.queuedOpStart d .array (.coder e row)) s = .next t ∧ t.killed s x 3 (weftSrc d (4 + e % 4))
      (cap (some x.ctx) (BitVec.ofNat 8 (0x70 + e)) 4 (BitVec.ofNat 64 row) e)) ∧
  (∀ (d : Weft) (o : Op) (rest : List Op) (m : OpMember) (x : Step) (row : Nat) (s : State), (s.weft d).reedQ = o :: rest →
    s.unitFree d .reed = true → (s.weft d).reedRun = none → s.opHeld d .reed o = false → s.hazard d o = false → o.members = [m] →
    s.step? m.step = some x →
    (s.killable x (weftSrc d 0x0D) → ∃ t, exec (.queuedOpStart d .reed (.coder 8 row)) s = .next t ∧
      t.killed s x 3 (weftSrc d 0x0D) (cap (some x.ctx) (unitMaster d .reed o) 5 (BitVec.ofNat 64 row) 8)) ∧
    (s.killable x (weftSrc d 0x0C) → ∃ t, exec (.queuedOpStart d .reed .reedIntegrity) s = .next t ∧
      t.killed s x 3 (weftSrc d 0x0C) (cap (some x.ctx) (unitMaster d .reed o) 5 0 0))) ∧
  (∀ (d : Weft) (u : OpUnit) (o : Op) (rest : List Op) (k : OpCheck) (s : State), (s.weft d).queue u = o :: rest →
    ((s.weft d).runOf u ≠ none ∨ s.unitFree d u = false ∨ s.opHeld d u o = true) → exec (.queuedOpStart d u k) s = .next s) ∧
  (∀ (d : Weft) (w : Window) (s : State), s.sched.windows = [w] → w.closed = false → w.sent = [] → w.members ≠ [] →
    (w.members.map (fun m => m.step)).Nodup → w.asked = w.members.map (fun m => (d, m)) → (∀ m ∈ w.members, s.memberOn d m = true) →
    w.openTime.toNat + w.limitUs * 1000 ≤ s.time.now.toNat →
    ∃ t ms n, exec (.gatherHoldExpiry w.entry w.layer) s = .next t ∧
      (w.group = none → ms = placeRows 0 w.members ∧ n = 0) ∧
      (∀ g, w.group = some g → ms = s.placeGroup w.members 0 (s.groupRows g) ∧
        n = (s.groupRows g).foldl (fun (a : Nat) (y : Nat × Nat) => a + y.2) 0) ∧
      (t.weft d).arrayQ = (s.weft d).arrayQ ++ [{ entry := w.entry, kind := .layer w.layer, pass := 0, members := ms, rows := n }] ∧
      ((∀ m ∈ w.members, s.memberOn (otherDie d) m = false) → t.sched.windows = []) ∧
      ((∃ m ∈ w.members, s.memberOn (otherDie d) m = true) → w.group = none →
        t.sched.windows = [{ w with closed := true, members := ms, sent := [d] }]) ∧
      t.weft (otherDie d) = s.weft (otherDie d) ∧ { t with wa := s.wa, wb := s.wb, sched := s.sched } = s) ∧
  (∀ (e l : Nat) (s : State), (∀ w ∈ s.sched.windows, s.time.now.toNat < w.openTime.toNat + w.limitUs * 1000) →
    exec (.gatherHoldExpiry e l) s = .next s) ∧
  (∀ (a b : Op) (s : State), s.wa.arrayRun = some a → s.wb.arrayRun = some b → s.wa.barrier = none → s.wb.barrier = none →
    s.opWhole a = true → s.opWhole b = true → a.kind = b.kind → a.pass = b.pass → s.opLast a = false →
    exec .wholeBarrier s = .next { s with wa := { s.wa with barrier := some a.pass }, wb := { s.wb with barrier := some b.pass } }) ∧
  (∀ (a b : Op) (m n : OpMember) (l : Nat) (x : Step) (s : State), s.wa.arrayRun = some a → s.wb.arrayRun = some b → s.wa.barrier = none →
    s.wb.barrier = none → s.opWhole a = true → s.opWhole b = true → a.kind = .layer l → b.kind = .layer l → a.pass = b.pass →
    s.opLast a = true → a.members = [m] → b.members = [n] → s.steps = [x] → m.step = x.id → n.step = x.id →
    s.silent (weftSrc .a 0x25) → s.silent (weftSrc .b 0x25) →
    ∃ t y, exec .wholeBarrier s = .next t ∧ t.wa.barrier = some a.pass ∧ t.wb.barrier = some b.pass ∧ t.wa.arrayRun = some a ∧
      t.wb.arrayRun = some b ∧ t.steps = [y] ∧ y.id = x.id ∧ y.stage = x.stage ∧ l ∈ y.workA.layersDone ∧ l ∈ y.workB.layersDone ∧
      t.ctxs = s.ctxs ∧ t.rings = s.rings ∧ t.hostMemA = s.hostMemA ∧ t.hostMemB = s.hostMemB) ∧
  (∀ (a b : Op) (m n : OpMember) (x : Step) (s : State), s.wa.arrayRun = some a → s.wb.arrayRun = some b → s.wa.barrier = none →
    s.wb.barrier = none → s.opWhole a = true → s.opWhole b = true → a.kind ≠ b.kind → a.members = [m] → b.members = [n] →
    s.step? m.step = some x → s.step? n.step = some x → s.killable x (weftSrc .a 0x1D) → s.silent (weftSrc .b 0x1D) →
    ∃ t, exec .wholeBarrier s = .next t ∧ t.killed s x 3 (weftSrc .a 0x1D) (cap (some x.ctx) noMaster 0 0 0) ∧
      t.captured (weftSrc .b 0x1D) (cap (some x.ctx) noMaster 0 0 0))

/-- R99, R118, R133, R191, R248, R251, R257, R265, R297.  When an operation of a step that is alone retires, its unit is free, its ticket completes and its
layer is done on the die; a batched layer's next operation goes back to the front of the queue; a staging copy has moved its part from GDDR6
to Beam SRAM; nothing retires while its clock stands; a corrected GDDR6 error is counted in its channel, and lost data of the step ends it with ECC_FAIL. -/
def Obligations.OperationsRetire : Prop :=
  (∀ (d : Weft) (n l : Nat) (f : Freezes) (fs : List DataAt) (o : Op) (m : OpMember) (x : Step) (s : State), s.clocked (.loom d) = true → (s.weft d).arrayRun = some o →
    o.members = [m] →
    o.kind = .layer l → s.steps = [x] → m.step = x.id → x.stage = .running → s.opWhole o = false → s.opLast o = true →
    s.silent (weftSrc d 0x25) → s.wa.checks.phase ≠ .due → s.wb.checks.phase ≠ .due →
    ∃ t y, exec (.arrayOpRetire d n f { fixed := fs, hit := none }) s = .next t ∧ (t.weft d).arrayRun = none ∧ (t.weft d).barrier = none ∧
      (t.weft d).engines = s.endEngines d o ∧ (∀ g ∈ (t.weft d).engines, g.op = none ∧ g.tiles = []) ∧ (t.weft d).tickets = (s.weft d).tickets.filter (fun k => k != m.ticket) ∧
      t.steps = [y] ∧ y.id = x.id ∧ y.stage = .running ∧ l ∈ (y.work d).layersDone ∧
      y.measured = x.measured + (if s.sched.running = some x.id then n else 0) ∧ (t.weft d).arrayQ = (s.weft d).arrayQ ∧
      t.ctxs = s.ctxs ∧ t.rings = s.rings ∧ t.drafts = s.drafts ∧ t.hostMemA = s.hostMemA ∧ t.hostMemB = s.hostMemB) ∧
  (∀ (d : Weft) (n : Nat) (f : Freezes) (fs : List DataAt) (o : Op) (m : OpMember) (x : Step) (s : State), (s.weft d).arrayRun = some o →
    s.clocked (.loom d) = true → o.members = [m] → s.steps = [x] → m.step = x.id → (s.opWhole o = true → (s.weft d).barrier.isSome = true) → s.opLast o = false → s.wa.checks.phase ≠ .due →
    s.wb.checks.phase ≠ .due →
    ∃ t, exec (.arrayOpRetire d n f { fixed := fs, hit := none }) s = .next t ∧ (t.weft d).arrayRun = none ∧ (t.weft d).barrier = none ∧
      (t.weft d).arrayQ = { o with pass := o.pass + 1 } :: (s.weft d).arrayQ ∧ (t.weft d).tickets = (s.weft d).tickets ∧
      (t.weft d).beam = (s.weft d).beam ∧ t.hostMemA = s.hostMemA ∧ t.hostMemB = s.hostMemB) ∧
  (∀ (d : Weft) (n : Nat) (f : Freezes) (k : ReadChecks) (o : Op) (s : State), (s.weft d).arrayRun = some o →
    (s.opWhole o = true ∧ (s.weft d).barrier = none ∨ s.clocked (.loom d) = false) → exec (.arrayOpRetire d n f k) s = .next s) ∧
  (∀ (d w : Weft) (n a : Nat) (f : Freezes) (b : Byte) (o : Op) (x : Step) (s : State), (s.weft d).arrayRun = some o → s.opWhole o = false →
    s.clocked (.loom d) = true → o.members.map (fun m => m.step) = [x.id] → s.steps = [x] → s.beamOwner w a = .step x.ctx → s.killable x (weftSrc w 0x20) →
    ∃ t, exec (.arrayOpRetire d n f { fixed := [], hit := some { place := .beam w a, master := b } }) s = .next t ∧
      (t.weft d).arrayRun = none ∧ lookupN t.ladder.kills x.ctx = some 2 ∧
      t.captured (weftSrc w 0x20) (cap (some x.ctx) b 1 (BitVec.ofNat 64 a) 0) ∧ (∀ y ∈ t.steps, x.id = y.id ∧ (y.work d).layersDone = (x.work d).layersDone) ∧
      (x.stage ≠ .delivering → t.hostMemA = s.hostMemA ∧ t.hostMemB = s.hostMemB)) ∧
  (∀ (d : Weft) (n l : Nat) (fs : List DataAt) (o : Op) (m : OpMember) (x : Step) (s : State), (s.weft d).reedRun = some o → o.members = [m] →
    s.clocked (.loom d) = true → o.kind = .layer l → s.steps = [x] → m.step = x.id → x.stage = .running → s.silent (weftSrc d 0x25) → s.wa.checks.phase ≠ .due →
    s.wb.checks.phase ≠ .due →
    ∃ t y, exec (.reedOpRetire d n { fixed := fs, hit := none }) s = .next t ∧ (t.weft d).reedRun = none ∧
      (t.weft d).tickets = (s.weft d).tickets.filter (fun k => k != m.ticket) ∧ t.steps = [y] ∧ y.id = x.id ∧ y.stage = .running ∧
      l ∈ (y.work d).layersDone ∧ y.measured = x.measured + (if s.sched.running = some x.id then n else 0) ∧
      (t.weft d).reedQ = (s.weft d).reedQ ∧ t.ctxs = s.ctxs ∧ t.rings = s.rings ∧ t.drafts = s.drafts) ∧
  (∀ (d : Weft) (n l : Nat) (fs : List DataAt) (o : Op) (m : OpMember) (x : Step) (s : State), (s.weft d).finishRun = some o → o.members = [m] →
    s.clocked (.loom d) = true → o.kind = .layer l → s.steps = [x] → m.step = x.id → x.stage = .running → s.silent (weftSrc d 0x25) → s.wa.checks.phase ≠ .due →
    s.wb.checks.phase ≠ .due →
    ∃ t y, exec (.finishOpRetire d n { fixed := fs, hit := none }) s = .next t ∧ (t.weft d).finishRun = none ∧
      (t.weft d).tickets = (s.weft d).tickets.filter (fun k => k != m.ticket) ∧ t.steps = [y] ∧ y.id = x.id ∧ y.stage = .running ∧
      l ∈ (y.work d).layersDone ∧ (((s.stepDraft x).layer l).op = 0x16 → (y.work d).set.isSome = true) ∧
      (t.weft d).finishQ = (s.weft d).finishQ ∧ t.ctxs = s.ctxs ∧ t.rings = s.rings ∧ t.drafts = s.drafts) ∧
  (∀ (d : Weft) (pl part : Nat) (fs : List DataAt) (o : Op) (m : OpMember) (x : Step) (e : Entry) (cx : Ctx) (pr : Placement) (s : State),
    s.clocked (.weftFabric d) = true → (s.weft d).stageRun = some o → o.members = [m] → o.kind = .stage pl part → s.steps = [x] → m.step = x.id → x.stage = .running →
    s.stepEntry x = some e → s.ctx? x.ctx = some cx → pr = e.draft.placements.getD pl Placement.zero → pr.home = 1 →
    (s.weft d).memWf = true → s.wa.checks.phase ≠ .due → s.wb.checks.phase ≠ .due →
    ∃ t, exec (.stageCopyDone d { fixed := fs, hit := none }) s = .next t ∧ (t.weft d).stageRun = none ∧
      (t.weft d).tickets = (s.weft d).tickets.filter (fun k => k != m.ticket) ∧
      (t.weft d).beam.readBytes (pr.partAt d part) (e.draft.partLen pl part) =
        (s.weft d).gddr.readBytes ((if d = .a then e.baseA else e.baseB) + (pr.homeOff + part * pr.partBytes)) (e.draft.partLen pl part) ∧
      (∀ a, (a < pr.partAt d part ∨ pr.partAt d part + e.draft.partLen pl part ≤ a) →
        (t.weft d).beam.read a = (s.weft d).beam.read a) ∧ (t.weft d).gddr = (s.weft d).gddr ∧ t.steps = [x] ∧ t.ctxs = s.ctxs ∧
      t.hostMemA = s.hostMemA ∧ t.hostMemB = s.hostMemB ∧
      (∀ a, fs = [.gddr d a] → ∀ k, (t.weft d).chans[k]? = ((s.weft d).chans[k]?).map (fun y => if k = a / 256 % 12 then
        { y with corrected := BitVec.ofNat 16 (min 0xFFFF (y.corrected.toNat + 1)) } else y))) ∧
  (∀ (d w : Weft) (a : Nat) (c : Byte) (o : Op) (x : Step) (s : State), (s.weft d).stageRun = some o → s.gddrOwner w a = .step x.ctx →
    s.clocked (.weftFabric d) = true → o.members.map (fun m => m.step) = [x.id] → s.killable x (weftSrc w 0x22) →
    ∃ t, exec (.stageCopyDone d { fixed := [], hit := some { place := .gddr w a, master := c } }) s = .next t ∧
      t.killed s x 2 (weftSrc w 0x22) (cap (some x.ctx) c 1 (BitVec.ofNat 64 a) 1))

/-- R121, R156, R157, R26, R260, R265, R289.  At the end of a save each die's GDDR6 holds the step's live ranges in its context's save area
and the step gives up its pairs; at the end of a restore it holds the array and its program restarts at the hinge's resume entry with
a0 = hinge index, its clocks and its live range of data memory, once the groups it needs are in Run; lost data of the save area ends it. -/
def Obligations.HingesSaveAndRestore : Prop :=
  (∀ (h : Nat) (x : Step) (g : Hinge) (cx : Ctx) (fs : List DataAt) (bs : Weft → List Byte) (s : State), s.steps = [x] → x.stage = .saving →
    s.live x.id = true → x.hinge = some h → (s.stepDraft x).hinges[h]? = some g → g.lrCount ≠ 0 → s.ctx? x.ctx = some cx →
    (∀ d, ∀ p ∈ (s.weft d).pairs, p.queued = []) → s.wa.memWf = true → s.wb.memWf = true →
    bs = (fun d => if x.on d then (s.env x d).saveBytes g (s.progDmem x.id d) d else []) →
    ∃ t y, exec (.hingeSaveDone { fixed := fs, hit := none }) s = .next t ∧ t.steps = [y] ∧ y.id = x.id ∧
      (y.stage = .preempted ∨ y.stage = .restoring) ∧ y.saved = some ((bs .a).length, (bs .b).length) ∧
      (∀ d, (t.weft d).gddr.readBytes (cx.saveAt d) (bs d).length = bs d) ∧
      (∀ d a, a < cx.saveAt d ∨ cx.saveAt d + (bs d).length ≤ a → (t.weft d).gddr.read a = (s.weft d).gddr.read a) ∧
      y.hinge = some h ∧ y.resumeA = x.resumeA ∧ y.resumeB = x.resumeB ∧ y.measured = x.measured ∧
      (∀ d, ∀ p ∈ (t.weft d).pairs, p.run.map (fun r => r.step) ≠ some x.id) ∧ t.ctxs = s.ctxs ∧ t.drafts = s.drafts ∧
      t.wa.beam = s.wa.beam ∧ t.wb.beam = s.wb.beam) ∧
  (∀ (h n c : Nat) (d : Weft) (x : Step) (g : Hinge) (pg : Program) (p : Pair) (fs : List DataAt) (s : State), s.steps = [x] →
    x.stage = .restoring → s.live x.id = true → s.groupsReady (s.stepDraft x).whole = true →
    x.hinge = some h → (s.stepDraft x).hinges[h]? = some g → (s.stepDraft x).programs[g.program]? = some pg →
    (if d = .a then x.resumeA else x.resumeB) = some c → s.lowestPair d = some n → s.pair? n = some p → p.run = none → p.queued = [] →
    ∃ t y q, exec (.hingeRestoreDone { fixed := fs, hit := none }) s = .next t ∧ t.steps = [y] ∧ y.id = x.id ∧ y.stage = .running ∧
      y.hinge = none ∧ y.saved = none ∧ t.sched.running = some x.id ∧ t.pair? n = some q ∧ q.pc = BitVec.ofNat 64 g.resume ∧
      q.getX 10 = BitVec.ofNat 64 h ∧ q.run.map (fun r => (r.step, r.program, r.clocks)) = some (x.id, g.program, c) ∧
      (∀ (r : LiveRange) (cx : Ctx) (l : Nat × Nat), (s.stepDraft x).ranges g = [r] → r.tensor = 0xFFFE → bitN r.dies (weftNo d) = true →
        x.on d = true → s.ctx? x.ctx = some cx → x.saved = some l → (if d = .a then l.1 else l.2) = r.length →
        q.dmem.readBytes r.start r.length = (s.weft d).gddr.readBytes (cx.saveAt d) r.length) ∧
      t.ctxs = s.ctxs ∧ t.drafts = s.drafts ∧ t.wa.gddr = s.wa.gddr ∧ t.wb.gddr = s.wb.gddr) ∧
  (∀ (x : Step) (fs : List DataAt) (s : State), s.steps = [x] → x.stage = .restoring → s.live x.id = true →
    s.groupsReady (s.stepDraft x).whole = false →
    ∃ t, exec (.hingeRestoreDone { fixed := fs, hit := none }) s = .next t ∧ t.steps = s.steps ∧ t.sched = s.sched ∧ t.ctxs = s.ctxs ∧
      t.wa.gddr = s.wa.gddr ∧ t.wb.gddr = s.wb.gddr) ∧
  (∀ (w : Weft) (a : Nat) (b : Byte) (x : Step) (s : State), s.steps = [x] → s.gddrOwner w a = .step x.ctx → s.killable x (weftSrc w 0x22) →
    (x.stage = .restoring → ∃ t, exec (.hingeRestoreDone { fixed := [], hit := some { place := .gddr w a, master := b } }) s = .next t ∧
      t.killed s x 2 (weftSrc w 0x22) (cap (some x.ctx) b 1 (BitVec.ofNat 64 a) 1)) ∧
    (x.stage = .saving → ∃ t, exec (.hingeSaveDone { fixed := [], hit := some { place := .gddr w a, master := b } }) s = .next t ∧
      t.killed s x 2 (weftSrc w 0x22) (cap (some x.ctx) b 1 (BitVec.ofNat 64 a) 1)))

/-! ### Ward, delivery and monitors -/

/-- R423, R424, R425, R427, R428.  A packed Paired step's die sends Ward its summary, and the step waits for both; equal summaries deliver it;
different ones, or comparators that disagree, end it with KILLED and Ward's source; a step that Ward does not compare goes to delivery. -/
def Obligations.WardComparesSummaries : Prop :=
  (∀ (d : Weft) (x : Step) (set : List Byte) (s : State), s.sched.running = some x.id → s.steps = [x] → x.stage = .running →
    lookupN s.ladder.kills x.ctx = none → x.on d = true → (x.work d).summarised = false → (x.work d).set = some set → s.warded x = false →
    ∃ t y, exec (.stepFinish d) s = .next t ∧ t.steps = [y] ∧ y.id = x.id ∧ y.stage = .delivering ∧ { t with steps := s.steps } = s) ∧
  (∀ (d : Weft) (x : Step) (set : List Byte) (s : State), s.sched.running = some x.id → s.steps = [x] → x.stage = .running →
    lookupN s.ladder.kills x.ctx = none → x.onA = true → x.onB = true → (x.work d).summarised = false → (x.work d).set = some set →
    s.warded x = true → fld (s.reg oWrdCtl) 15 0 = 0 →
    ∃ t y m, exec (.stepFinish d) s = .next t ∧ t.steps = [y] ∧ y.id = x.id ∧ (y.work d).summarised = true ∧
      y.stage = (if (x.work (otherDie d)).summarised then .packed else .running) ∧ t.ward.summaries = s.ward.summaries ++ [m] ∧
      m.die = d ∧ m.step = x.id ∧ m.layersDone = (x.work d).layersDone.length ∧ m.stepDigest = leAt set 24 4 ∧
      m.totalBytes = leAt set 4 4 ∧ m.setCrc = (crc32c set).toNat ∧ m.time = s.time.now ∧
      { t with steps := s.steps, ward := s.ward } = s) ∧
  (∀ (x : Step) (a b : Summary) (s : State), s.atWard = some x → s.summary? x.id .a = some a → s.summary? x.id .b = some b →
    x.onA = true → x.onB = true → a.mask b = 0 →
    ∃ t, exec (.wardVerdict true) s = .next t ∧ t.ward.agree.toNat = min 0xFFFF (s.ward.agree.toNat + 1) ∧
      t.ward.disagree = s.ward.disagree ∧ t.ward.summaries = s.ward.summaries ∧ (t.step? x.id).map (fun y => y.stage) = some .delivering ∧
      { t with steps := s.steps, ward := s.ward } = s) ∧
  (∀ (x : Step) (a b : Summary) (s : State), s.atWard = some x → s.summary? x.id .a = some a → s.summary? x.id .b = some b →
    x.onA = true → x.onB = true → a.mask b ≠ 0 → s.killable x 0x00A →
    ∃ t, exec (.wardVerdict true) s = .next t ∧ t.ward.disagree.toNat = min 0xFFFF (s.ward.disagree.toNat + 1) ∧
      t.ward.agree = s.ward.agree ∧ t.killed s x 3 0x00A (cap (some x.ctx) noMaster 0 x.counter (a.mask b))) ∧
  (∀ (x : Step) (a b : Summary) (s : State), s.atWard = some x → s.summary? x.id .a = some a → s.summary? x.id .b = some b →
    x.onA = true → x.onB = true → s.killable x 0x00C →
    ∃ t, exec (.wardVerdict false) s = .next t ∧ t.ward = s.ward ∧
      t.killed s x 3 0x00C (cap (some x.ctx) noMaster 0 x.counter (a.mask b))) ∧
  (∀ (x : Step) (v : Bool) (s : State), s.atWard = some x → (x.onA && x.onB) = false →
    ∃ t, exec (.wardVerdict v) s = .next t ∧ (t.step? x.id).map (fun y => y.stage) = some .delivering ∧ { t with steps := s.steps } = s)

/-- R29, R30, R137, R265, R294, R295, R296, R297, R307, R317, R319.  Delivery writes the result set, then the record: OK with the measured time, or
LATE after the deadline, when the deadline source is raised; a record that its full ring holds keeps the step until it is written, with the
status and the age of that moment; a result set whose lines are lost is not delivered; a monitor that expires raises its source once and marks the step. -/
def Obligations.StepsAreDelivered : Prop :=
  (∀ (x : Step) (set : List Byte) (cx : Ctx) (fs : List DataAt) (s : State), s.steps = [x] → x.stage = .delivering → lookupN s.ladder.kills x.ctx = none →
    x.resultSet = some set → s.ctx? x.ctx = some cx → cx.fn = x.fn → cx.closing = false → s.recordBlocked x = false →
    s.recordHeld x.id = false → x.mirror = false → x.record = false →
    (s.hport x.fn.port).carries = true → (s.hostMem x.fn.port).wf = true → s.sched.running = some x.id → s.sched.nextStart = none →
    (∀ a, x.deadline = some a → s.time.now.toNat ≤ a) → (x.lc = true → x.deadline ≠ none) →
    (∀ a, x.ageAt = some a → s.time.now.toNat ≤ a) →
    ∃ t u, exec (.resultWritesDone x.ctx { fixed := fs, hit := none }) s = .next t ∧ (u.hostMem x.fn.port).readBytes x.resultAddr (set.take 28 ++ leBytes 4 0 ++ set.drop 32).length =
        set.take 28 ++ leBytes 4 (b2n (s.stepSubst x != 0) + 2 * b2n x.unqualified + 4 * b2n x.singleChannel) ++ set.drop 32 ∧
      (∀ a, a < x.resultAddr ∨ x.resultAddr + (set.take 28 ++ leBytes 4 0 ++ set.drop 32).length ≤ a →
        (u.hostMem x.fn.port).read a = (s.hostMem x.fn.port).read a) ∧
      t.recordDue u cx (s.ranRecord x 0 (ceilDiv (s.time.now.toNat - (s.ageAnchor x).toNat) 1000) false) ∧ u.rings = s.rings ∧
      t.steps = [] ∧ t.sched.running = none ∧ t.ctxs = s.ctxs ∧ t.drafts = s.drafts ∧ t.pins = s.pins ∧ t.hasp = s.hasp ∧
      (∀ l ∈ t.latches, l.2 ≠ .program x.ctx)) ∧
  (∀ (x : Step) (set : List Byte) (cx : Ctx) (a : Nat) (fs : List DataAt) (s : State), s.steps = [x] → x.stage = .delivering →
    lookupN s.ladder.kills x.ctx = none → x.resultSet = some set → s.ctx? x.ctx = some cx → cx.fn = x.fn → cx.closing = false →
    s.recordBlocked x = false → s.recordHeld x.id = false → x.mirror = false → x.record = false → (s.hport x.fn.port).carries = true → s.sched.running = some x.id → s.sched.nextStart = none →
    x.deadline = some a → a < s.time.now.toNat → x.lc = true → x.deadlineFault = false → x.ageAt = none → s.silent 0x011 →
    ∃ t u, exec (.resultWritesDone x.ctx { fixed := fs, hit := none }) s = .next t ∧
      t.recordDue u cx (s.ranRecord x 1 (ceilDiv (s.time.now.toNat - (s.ageAnchor x).toNat) 1000) false) ∧ u.rings = s.rings ∧
      t.captured 0x011 (cap (some x.ctx) noMaster 7 x.counter 0) ∧ t.steps = [] ∧ t.sched.running = none ∧ t.ctxs = s.ctxs ∧
      t.drafts = s.drafts) ∧
  (∀ (x : Step) (set : List Byte) (cx : Ctx) (fs : List DataAt) (s : State), s.steps = [x] → x.stage = .delivering → lookupN s.ladder.kills x.ctx = none →
    x.resultSet = some set → s.ctx? x.ctx = some cx → cx.fn = x.fn → cx.closing = false → s.recordBlocked x = true → x.mirror = false →
    (s.hport x.fn.port).carries = true → s.sched.running = some x.id → (∀ a, x.deadline = some a → s.time.now.toNat ≤ a) →
    (x.lc = true → x.deadline ≠ none) → (∀ a, x.ageAt = some a → s.time.now.toNat ≤ a) →
    ∃ t u, exec (.resultWritesDone x.ctx { fixed := fs, hit := none }) s = .next t ∧ t.steps = [{ x with stage := .due 0 }] ∧ t.sched.running = none ∧
      t.recordDue u cx (s.ranRecord x 0 (ceilDiv (s.time.now.toNat - (s.ageAnchor x).toNat) 1000) false) ∧ u.rings = s.rings ∧
      t.ctxs = s.ctxs ∧ t.drafts = s.drafts ∧ t.hasp = s.hasp) ∧
  (∀ (w : Weft) (a : Nat) (b : Byte) (x : Step) (s : State), s.steps = [x] → x.stage = .delivering → s.beamOwner w a = .step x.ctx →
    s.killable x (weftSrc w 0x20) →
    ∃ t, exec (.resultWritesDone x.ctx { fixed := [], hit := some { place := .beam w a, master := b } }) s = .next t ∧
      t.killed s x 2 (weftSrc w 0x20) (cap (some x.ctx) b 1 (BitVec.ofNat 64 a) 0)) ∧
  (∀ (f : FnId) (v : Word) (a : Nat) (x : Step) (cx : Ctx) (r q : Ring) (c : Completion) (s : State), s.fnLive f = true →
    s.ctx? x.ctx = some cx → cx.fn = f → cx.closing = false → s.ring? x.ctx (fld v 31 24) = some r → r.completion = true →
    fld v 15 0 < r.size → (fld v 15 0 + r.size - r.head) % r.size ≤ r.used → fld v 15 0 ≠ r.head → r.head < r.size → r.held = [c] →
    c.owner = some x.id → c.mirrorCopy = false → c.event = false → (∀ y ∈ s.rings, ∀ h ∈ y.held, h.owner = some x.id → y = r) →
    s.ring? x.ctx c.ring = some q → q.completion = false → s.steps = [x] → x.stage = .due 0 → x.record = false → s.live x.id = true → x.lc = true →
    x.deadline = some a → a < s.time.now.toNat → x.deadlineFault = false → x.ageAt = none → s.sched.nextStart = none → s.silent 0x011 →
    (s.hport f.port).carries = true → (s.hostMem f.port).wf = true →
    ∃ t, exec (.doorbellHead f x.ctx v) s = .next t ∧ t.steps = [] ∧ t.captured 0x011 (cap (some x.ctx) noMaster 7 x.counter 0) ∧
      (t.ring? x.ctx (fld v 31 24)).map (fun y => (y.head, y.tail, y.held)) = some (fld v 15 0, (r.tail + 1) % r.size, []) ∧
      (t.hostMem f.port).readBytes (r.base + 32 * r.tail) 32 = recordBytes { c with
        status := 1, ageUs := ceilDiv (s.time.now.toNat - (s.ageAnchor x).toNat) 1000, ageFault := x.ageFault } r.phase (q.complete c.slot).head) ∧
  (∀ (c n : Nat) (x : Step) (s : State), s.monitored c n = some x → x.deadline.getD 0 ≤ s.time.now.toNat → x.deadlineFault = false →
    s.silent 0x011 →
    ∃ t, exec (.deadlineMonitorExpiry c n) s = .next t ∧ t.captured 0x011 (cap (some x.ctx) noMaster 7 x.counter 0) ∧
      (t.step? x.id).map (fun y => y.deadlineFault) = some true ∧ State.sameButHealth { t with steps := s.steps } s) ∧
  (∀ (c n : Nat) (x : Step) (s : State), s.monitored c n = some x → (s.time.now.toNat < x.deadline.getD 0 ∨ x.deadlineFault = true) →
    exec (.deadlineMonitorExpiry c n) s = .next s) ∧
  (∀ (c n a : Nat) (x : Step) (s : State), s.monitored c n = some x → x.ageAt = some a → a ≤ s.time.now.toNat → x.ageFault = false →
    s.silent 0x012 →
    ∃ t, exec (.ageMonitorExpiry c n) s = .next t ∧ t.captured 0x012 (cap (some x.ctx) noMaster 7 x.counter 0) ∧
      (t.step? x.id).map (fun y => y.ageFault) = some true ∧ State.sameButHealth { t with steps := s.steps } s) ∧
  (∀ (c n a : Nat) (x : Step) (s : State), s.monitored c n = some x → x.ageAt = some a → (s.time.now.toNat < a ∨ x.ageFault = true) →
    exec (.ageMonitorExpiry c n) s = .next s)

/-! ### Memory errors and Warp links -/

/-- R246, R248, R249, R250, R252, R253, R262, R265.  A Beam SRAM address is its bank group, bank and line; the scrubber moves line by line and counts a pass after line 2,047; a corrected error is only counted; an
uncorrectable one ends the steps of its owner with ECC_FAIL, or marks the batch instance or the draft, and raises the level's source; the first three failures of a GDDR6 burst are only
counted; an access open for 100 µs is uncorrectable. -/
def Obligations.MemoryErrorsEndTheirOwners : Prop :=
  (∀ (d : Weft) (s : State), s.beamAwake d = true →
    ∃ t, exec (.scrubLine d { fixed := [], bad := [] }) s = .next t ∧ (t.weft d).scrubLine.toNat = ((s.weft d).scrubLine.toNat + 1) % 2048 ∧
      (t.weft d).scrubPasses.toNat =
        (if (s.weft d).scrubLine.toNat = 2047 then min 0xFFFF ((s.weft d).scrubPasses.toNat + 1) else (s.weft d).scrubPasses.toNat) ∧
      { t.weft d with scrubLine := (s.weft d).scrubLine, scrubPasses := (s.weft d).scrubPasses } = s.weft d ∧
      t.weft (otherDie d) = s.weft (otherDie d) ∧ State.sameButCounters { t with wa := s.wa, wb := s.wb } s) ∧
  (∀ (d : Weft) (os : List Nat) (s : State), s.beamAwake d = true →
    ∃ t u, exec (.scrubLine d { fixed := os, bad := [] }) s = .next t ∧ exec (.scrubLine d { fixed := [], bad := [] }) s = .next u ∧ t.sameButCounters u) ∧
  (∀ (d : Weft) (f : ScrubFinding) (s : State), s.beamAwake d = false → exec (.scrubLine d f) s = .next s) ∧
  (∀ (d : Weft) (n a : Nat) (os : List Nat) (s : State), s.beamAwake d = true → a = s.lineAddr d (n / 64) (n % 64) (s.weft d).scrubLine.toNat →
    s.beamOwner d a = .nothing → s.silent (weftSrc d 0x21) →
    ∃ t u, exec (.scrubLine d { fixed := os, bad := [n] }) s = .next t ∧ exec (.scrubLine d { fixed := [], bad := [] }) s = .next u ∧ t.sameButHealth u ∧
      t.captured (weftSrc d 0x21) (cap none noMaster 1 (BitVec.ofNat 64 a) 0)) ∧
  (∀ (d : Weft) (n a : Nat) (os : List Nat) (x : Step) (s : State), s.beamAwake d = true → a = s.lineAddr d (n / 64) (n % 64) (s.weft d).scrubLine.toNat →
    s.beamOwner d a = .step x.ctx → s.killable x (weftSrc d 0x20) →
    ∃ t, exec (.scrubLine d { fixed := os, bad := [n] }) s = .next t ∧ t.killed s x 2 (weftSrc d 0x20) (cap (some x.ctx) noMaster 1 (BitVec.ofNat 64 a) 0)) ∧
  (∀ (d : Weft) (n a e : Nat) (os : List Nat) (s : State), s.beamAwake d = true → a = s.lineAddr d (n / 64) (n % 64) (s.weft d).scrubLine.toNat →
    s.beamOwner d a = .entry e → s.steps = [] → s.silent (weftSrc d 0x20) →
    ∃ t, exec (.scrubLine d { fixed := os, bad := [n] }) s = .next t ∧
      t.drafts = s.drafts.map (fun (y : Entry) => if y.index = e then y.lose else y) ∧
      t.captured (weftSrc d 0x20) (cap none noMaster 1 (BitVec.ofNat 64 a) 0)) ∧
  (∀ (d : Weft) (n a b c : Nat) (os : List Nat) (i : Instance) (s : State), s.beamAwake d = true →
    a = s.lineAddr d (n / 64) (n % 64) (s.weft d).scrubLine.toNat → s.beamOwner d a = .batch b c → s.inst? b c = some i → s.steps = [] →
    s.silent (weftSrc d 0x20) →
    ∃ t, exec (.scrubLine d { fixed := os, bad := [n] }) s = .next t ∧ t.inst? b c = some { i with eccFail := true } ∧
      t.captured (weftSrc d 0x20) (cap none noMaster 1 (BitVec.ofNat 64 a) 0)) ∧
  (∀ (d : Weft) (g b l : Nat) (s : State), g < 8 → b < 64 → l < 2048 →
    s.bankOf d (s.lineAddr d g b l) = (g, b, l) ∧ s.lineAddr d g b l < 2 ^ 26 ∧
      (s.diverse d = false → s.lineAddr d g b l = g * 2 ^ 23 + l * 2 ^ 12 + b * 2 ^ 6)) ∧
  (∀ (d : Weft) (c : Nat) (s : State), s.beamAwake d = true →
    ∃ t, exec (.gddr6Refresh d c) s = .next t ∧ State.sameButCounters { t with freshCtr := s.freshCtr } s) ∧
  (∀ (d : Weft) (off n k : Nat) (c : Chan) (b : Byte) (s : State), n = off / 256 % 12 → (s.weft d).chans[n]? = some c → k < 4 →
    ∃ t, exec (.gddr6EdcFail d off k b) s = .next t ∧
      (t.weft d).chans[n]? = some { c with edc := if c.edc = 0xFF#8 then 0xFF#8 else c.edc + 1 } ∧
      (∀ m, m ≠ n → (t.weft d).chans[m]? = (s.weft d).chans[m]?) ∧ { t.weft d with chans := (s.weft d).chans } = s.weft d ∧
      t.weft (otherDie d) = s.weft (otherDie d) ∧ State.sameButCounters { t with wa := s.wa, wb := s.wb } s) ∧
  (∀ (d : Weft) (off k : Nat) (b : Byte) (x : Step) (s : State), 4 ≤ k → s.gddrOwner d off = .step x.ctx → s.killable x (weftSrc d 0x22) →
    ∃ t, exec (.gddr6EdcFail d off k b) s = .next t ∧
      t.killed s x 2 (weftSrc d 0x22) (cap (some x.ctx) b 1 (BitVec.ofNat 64 off) 1)) ∧
  (∀ (d w : Weft) (n a c : Nat) (b : Byte) (x : Step) (s : State), n < 3 → s.pwr.refLost = false → s.killable x (weftSrc d 0x24) →
    (s.gddrOwner w a = .step x.ctx → ∃ t, exec (.transactionTimeout d n { place := .gddr w a, master := b }) s = .next t ∧
      t.killed s x 2 (weftSrc d 0x24) (cap (some x.ctx) b 1 (BitVec.ofNat 64 a) 1)) ∧
    (c = x.ctx → ∃ t, exec (.transactionTimeout d n { place := .host c a, master := b }) s = .next t ∧
      t.killed s x 2 (weftSrc d 0x24) (cap (some x.ctx) b 1 (BitVec.ofNat 64 a) 2))) ∧
  (∀ (d w : Weft) (n a : Nat) (b : Byte) (s : State), n < 3 → s.pwr.refLost = false → s.gddrOwner w a = .nothing → s.silent (weftSrc d 0x24) →
    ∃ t, exec (.transactionTimeout d n { place := .gddr w a, master := b }) s = .next t ∧ t.sameButHealth s ∧
      t.captured (weftSrc d 0x24) (cap none b 1 (BitVec.ofNat 64 a) 1)) ∧
  (∀ (d : Weft) (n : Nat) (h : EccHit) (s : State), 3 ≤ n ∨ s.pwr.refLost = true → exec (.transactionTimeout d n h) s = .next s)

/-- R263, R264, R266, R271.  A flit retry is counted, and the 33rd in a millisecond marks the link degraded and raises its source; an end-to-end
error ends its owner; a link that goes down retrains, and the last link of a die to Selvedge, or of the pair of dies in Whole mode, takes the die
or the steps with it; a retrained link is up; one that does not retrain is disabled. -/
def Obligations.WarpLinksFailAndRetrain : Prop :=
  (∀ (l : Nat) (x : Link) (s : State), s.links[l]? = some x → x.state = 2 →
    (x.recent.filter (fun t => decide (s.time.now.toNat < t.toNat + 1000000))).length < 32 →
    ∃ t y, exec (.warpFlitCrcFail l) s = .next t ∧ t.links[l]? = some y ∧ y.state = 2 ∧ y.degraded = x.degraded ∧
      y.recent = x.recent.filter (fun t => decide (s.time.now.toNat < t.toNat + 2000000)) ++ [s.time.now] ∧
      (∀ k, k ≠ l → t.links[k]? = s.links[k]?) ∧ State.sameButCounters { t with links := s.links } s) ∧
  (∀ (l : Nat) (x : Link) (s : State), s.links[l]? = some x → x.state = 2 →
    32 ≤ (x.recent.filter (fun t => decide (s.time.now.toNat < t.toNat + 1000000))).length → s.silent (linkSrc l 1) →
    ∃ t, exec (.warpFlitCrcFail l) s = .next t ∧ (t.links[l]?).map (fun y => (y.state, y.degraded)) = some (2, true) ∧
      (∀ k, k ≠ l → t.links[k]? = s.links[k]?) ∧ t.captured (linkSrc l 1) (cap none (linkMaster l) 6 0 0) ∧
      State.sameButHealth { t with links := s.links } s) ∧
  (∀ (l a : Nat) (w : Weft) (b : Byte) (x : Step) (s : State), s.linkUp l = true → s.killable x (linkSrc l 2) →
    (s.beamOwner w a = .step x.ctx → ∃ t, exec (.warpE2eMismatch l { place := .beam w a, master := b }) s = .next t ∧
      t.killed s x 2 (linkSrc l 2) (cap (some x.ctx) b 6 (BitVec.ofNat 64 a) 0)) ∧
    (s.gddrOwner w a = .step x.ctx → ∃ t, exec (.warpE2eMismatch l { place := .gddr w a, master := b }) s = .next t ∧
      t.killed s x 2 (linkSrc l 2) (cap (some x.ctx) b 6 (BitVec.ofNat 64 a) 1))) ∧
  (∀ (l : Nat) (x : Link) (s : State), s.links[l]? = some x → x.state = 2 → s.steps = [] → s.silent (linkSrc l 0) →
    (∀ k, k < 4 → k ≠ l → s.linkUp k = true) →
    ∃ t, exec (.warpLinkDown l) s = .next t ∧ t.links[l]? = some { x with state := 1, modulesUp := 0 } ∧
      (∀ k, k ≠ l → t.links[k]? = s.links[k]?) ∧ t.captured (linkSrc l 0) (cap none (linkMaster l) 6 0 0) ∧
      State.sameButHealth { t with links := s.links, sched := s.sched } s ∧ t.sched = { s.sched with retest := false }) ∧
  (∀ (d : Weft) (l k : Nat) (s : State), (d = .a → l < 2 ∧ k = 1 - l) → (d = .b → 2 ≤ l ∧ l < 4 ∧ k = 5 - l) → s.linkUp l = true →
    s.linkUp k = false → s.silent (linkSrc l 0) → s.steps = [] → s.posted = [] → s.loadBusy = none → s.diePhase d = none →
    (∀ f ∈ allFns, bitW (s.fnReg f 0x60) 31 = false) →
    ∃ t, exec (.warpLinkDown l) s = .next t ∧ t.diePhase d = some .training ∧ (t.weft d).inService = false ∧
      t.hasp.raised.contains (linkSrc l 0) = true ∧ t.ctxs = s.ctxs) ∧
  (∀ (l : Nat) (x : Step) (s : State), 4 ≤ l → s.linkUp l = true → (∀ k, 4 ≤ k → k ≠ l → s.linkUp k = false) → s.mode = 1 →
    s.steps = [x] → x.lc = false → x.stage.begun = true → lookupN s.ladder.kills x.ctx = none → s.silent (linkSrc l 0) →
    ∃ t, exec (.warpLinkDown l) s = .next t ∧ lookupN t.ladder.kills x.ctx = some 4 ∧ t.steps = s.steps ∧ t.ctxs = s.ctxs ∧
      t.captured (linkSrc l 0) (cap none (linkMaster l) 6 0 0)) ∧
  (∀ (l : Nat) (x : Link) (s : State), s.links[l]? = some x →
    ∃ t, exec (.warpLinkRetrainDone l) s = .next t ∧
      t.links[l]? = some (if x.state = 1 then { x with state := 2, modulesUp := 3 } else x) ∧ (∀ k, k ≠ l → t.links[k]? = s.links[k]?) ∧
      { t with links := s.links } = s) ∧
  (∀ (l : Nat) (x : Link) (s : State), s.links[l]? = some x → x.state = 1 → s.pwr.refLost = false → l < 8 → s.steps = [] →
    ∃ t, exec (.warpRetrainTimeout l) s = .next t ∧ t.links[l]? = some { x with state := 3, modulesUp := 0 } ∧ t.isDisabled (.link l) = true ∧
      (∀ k, k ≠ l → t.links[k]? = s.links[k]?) ∧ (∀ u, u ≠ .link l → u.wf = true → t.isDisabled u = s.isDisabled u) ∧
      { t with links := s.links, disabled := s.disabled, sched := s.sched } = s ∧ t.sched = { s.sched with retest := false }) ∧
  (∀ (l : Nat) (s : State), (∀ x, s.links[l]? = some x → x.state ≠ 1) ∨ s.pwr.refLost = true → exec (.warpRetrainTimeout l) s = .next s)

/-! ### Sensor intake and batches -/

/-- R20, R211, R212, R217, R223, R238, R239, R243, R245, R430, R573.  A frame opens a sample in the oldest instance that lacks it, or is dropped whole with the
overrun source when no buffer is free; a good line joins the sample; a bad line, a header error or a lost link makes it corrupt, an overflow or a
lane difference also raises its source, and so does an uncorrectable error of the intake SRAM; a frame of h_in lines completes the sample, a
shorter one corrupts it; a corrected header is counted; a recipe or tone table that cannot be read is a Creel integrity error (log entry 162); what
follows a corrupt sample is late.  A packet that Creel cannot take yet waits, and its sample has the time at
which it was received. -/
def Obligations.ImageSamplesArrive : Prop :=
  (∀ (p vc k c : Nat) (rec : Recipe) (s : State), s.slotOf p vc = some k → s.creelOn = true → s.portOn p = true →
    (s.slot k).input = [] → (s.slot k).phase = .idle → k < s.slots.length → s.slotRec k = some rec → rec.points = false → s.openFor k = some c →
    (s.recipeCb rec).isSome = true →
    ∃ t sm, exec (.csi2FrameStart p vc false) s = .next t ∧ (t.slot k).phase = .open sm ∧ sm.time = s.time.now ∧ sm.counter = c ∧
      sm.position = s.slotPos k ∧ sm.lines = [] ∧ sm.sat = 0 ∧ (∀ j, j ≠ k → t.slot j = s.slot j) ∧ { t with slots := s.slots } = s) ∧
  (∀ (p vc k : Nat) (rec : Recipe) (s : State), s.slotOf p vc = some k → s.creelOn = true → s.portOn p = true →
    (s.slot k).input = [] → (s.slot k).phase = .idle → k < s.slots.length → s.slotRec k = some rec → s.openFor k = none →
    s.openInst (s.slotBatch k) s.time.now = none → s.silent 0x020 →
    ∃ t, exec (.csi2FrameStart p vc false) s = .next t ∧ t.slot k = { s.slot k with dropped := inc32 (s.slot k).dropped, phase := .dropping } ∧
      t.captured 0x020 (cap none (slotMaster k) 0 (Config.freeDword s.freshCtr) k) ∧ (∀ j, j ≠ k → t.slot j = s.slot j) ∧
      State.sameButHealth { t with slots := s.slots, freshCtr := s.freshCtr } s) ∧
  (∀ (p vc k ty : Nat) (bs : List Byte) (sm : Sample) (rec : Recipe) (s : State), s.slotOf p vc = some k → s.creelOn = true →
    s.portOn p = true → (s.slot k).input = [] → (s.slot k).phase = .open sm → s.slotRec k = some rec → isImageType ty = true → ty ≠ 0x12 → ty = rec.dataType →
    bs.length = lineBytes rec.dataType rec.wIn → sm.lines.length < rec.hIn → (s.recipeCb rec).isSome = true →
    (s.inst? (s.slotBatch k) sm.counter).isSome = true →
    ∃ t n, exec (.csi2LongPacket p vc ty bs true true false { fixed := [], hit := none } false false) s = .next t ∧ (t.slot k).phase = .open n ∧
      n.lines = sm.lines ++ [rec.planes sm.lines.length (unpackLine ty bs)] ∧ n.counter = sm.counter ∧ n.position = sm.position ∧
      n.time = sm.time ∧ State.sameButCounters { t with slots := s.slots, wa := s.wa, wb := s.wb, freshCtr := s.freshCtr } s) ∧
  (∀ (p vc k ty : Nat) (bs : List Byte) (sm : Sample) (rec : Recipe) (s : State), s.slotOf p vc = some k → s.creelOn = true →
    s.portOn p = true → (s.slot k).input = [] → (s.slot k).phase = .open sm → s.slotRec k = some rec → isImageType ty = true → ty ≠ 0x12 →
    (∃ t, exec (.csi2LongPacket p vc ty bs false true false { fixed := [], hit := none } false false) s = .next t ∧ (t.slot k).phase = .late ∧
      (t.slot k).corrupt = inc32 (s.slot k).corrupt ∧ t.steps = s.steps ∧ t.ctxs = s.ctxs ∧ t.hasp = s.hasp) ∧
    (s.silent 0x021 → ∃ t, exec (.csi2LongPacket p vc ty bs true true true { fixed := [], hit := none } false false) s = .next t ∧ (t.slot k).phase = .late ∧
      t.captured 0x021 (cap none (slotMaster k) 0 (BitVec.ofNat 64 sm.counter) k) ∧ t.steps = s.steps) ∧
    (s.silent 0x022 → ty = rec.dataType → bs.length = lineBytes rec.dataType rec.wIn → sm.lines.length < rec.hIn →
      ∀ l r : Bool, (l && !r) = false →
      ∃ t, exec (.csi2LongPacket p vc ty bs true l false { fixed := [], hit := none, recipe := r } false false) s = .next t ∧ (t.slot k).phase = .late ∧
      t.captured 0x022 (cap none (slotMaster k) 0 (BitVec.ofNat 64 sm.counter) k) ∧ t.steps = s.steps) ∧
    (∀ (a : Nat) (os : List Nat), s.silent 0x00D → ty = rec.dataType → bs.length = lineBytes rec.dataType rec.wIn → sm.lines.length < rec.hIn →
      ∃ t, exec (.csi2LongPacket p vc ty bs true true false { fixed := os, hit := some a } false false) s = .next t ∧
        (t.slot k).phase = .late ∧ (t.slot k).corrupt = inc32 (s.slot k).corrupt ∧
        t.captured 0x00D (cap none (slotMaster k) 1 (BitVec.ofNat 64 a) 3) ∧ t.steps = s.steps)) ∧
  (∀ (p vc k ty : Nat) (bs : List Byte) (sm : Sample) (s : State), s.slotOf p vc = some k → s.creelOn = true → s.portOn p = true →
    (s.slot k).input = [] → (s.slot k).phase = .open sm → ty ≠ 0x12 → isImageType ty = false →
    ∃ t, exec (.csi2LongPacket p vc ty bs false true false { fixed := [], hit := none } false false) s = .next t ∧ (t.slot k).phase = .late ∧
      (t.slot k).dropped = inc32 (s.slot k).dropped ∧ (t.slot k).corrupt = inc32 (s.slot k).corrupt ∧ t.steps = s.steps) ∧
  (∀ (p vc k ty : Nat) (bs : List Byte) (s : State), s.slotOf p vc = some k → s.creelOn = true → s.portOn p = true →
    (s.slot k).input = [] → (s.slotRec k).isSome = true → k < s.slots.length → isImageType ty = true → ty ≠ 0x12 →
    ((s.slot k).phase = .late →
      (∃ t, exec (.csi2LongPacket p vc ty bs true true false { fixed := [], hit := none } false false) s = .next t ∧
        t.slot k = { s.slot k with late := inc32 (s.slot k).late } ∧ State.sameButCounters { t with slots := s.slots } s) ∧
      (∃ t, exec (.csi2FrameEnd p vc false) s = .next t ∧
        t.slot k = { s.slot k with late := inc32 (s.slot k).late, phase := .idle } ∧ { t with slots := s.slots } = s)) ∧
    ((s.slot k).phase = .dropping →
      (∃ t, exec (.csi2LongPacket p vc ty bs true true false { fixed := [], hit := none } false false) s = .next t ∧ t.slot k = s.slot k ∧
        State.sameButCounters { t with slots := s.slots } s) ∧
      (∃ t, exec (.csi2FrameEnd p vc false) s = .next t ∧ t.slot k = { s.slot k with phase := .idle } ∧ { t with slots := s.slots } = s)) ∧
    ((s.slot k).phase = .idle →
      (∃ t, exec (.csi2LongPacket p vc ty bs true true false { fixed := [], hit := none } false false) s = .next t ∧
        t.slot k = { s.slot k with dropped := inc32 (s.slot k).dropped } ∧ State.sameButCounters { t with slots := s.slots } s) ∧
      (∃ t, exec (.csi2FrameEnd p vc false) s = .next t ∧ t.slot k = { s.slot k with dropped := inc32 (s.slot k).dropped } ∧
        { t with slots := s.slots } = s))) ∧
  (∀ (p vc k ty : Nat) (bs : List Byte) (crc lanes ovf fixed waits : Bool) (ecc : IntakeCheck) (s : State), s.slotOf p vc = some k →
    s.portOn p = true → s.intakeOn = true → k < s.slots.length → (waits = true ∨ s.creelOn = false) →
    ∃ t, exec (.csi2LongPacket p vc ty bs crc lanes ovf ecc fixed waits) s = .next t ∧
      t.slot k = { s.slot k with input := (s.slot k).input ++ [(s.time.now, .line ty bs crc lanes ovf ecc)],
                                 headerFixed := if fixed then inc32 (s.slot k).headerFixed else (s.slot k).headerFixed } ∧
      (∀ j, j ≠ k → t.slot j = s.slot j) ∧ { t with slots := s.slots } = s) ∧
  (∀ (p vc k c : Nat) (tm : Dword) (rec : Recipe) (s : State), s.slotOf p vc = some k → s.creelOn = true → s.portOn p = true →
    (s.slot k).input = [(tm, .frameStart)] → (s.slot k).phase = .idle → k < s.slots.length → s.slotRec k = some rec → rec.points = false →
    s.openFor k = some c → (s.recipeCb rec).isSome = true →
    ∃ t sm, exec (.csi2PacketDiscard p vc 0x12 false false) s = .next t ∧ (t.slot k).input = [] ∧ (t.slot k).phase = .open sm ∧ sm.time = tm ∧
      sm.counter = c ∧ (∀ j, j ≠ k → t.slot j = s.slot j) ∧ { t with slots := s.slots } = s) ∧
  (∀ (p vc ty : Nat) (bs : List Byte) (b c d e f h : Bool) (ecc : IntakeCheck) (s : State), (s.slotOf p vc = none ∨ s.portOn p = false) →
    exec (.csi2FrameStart p vc f) s = .next s ∧ exec (.csi2FrameEnd p vc f) s = .next s ∧ exec (.csi2PacketDiscard p vc ty e f) s = .next s ∧
      exec (.csi2LongPacket p vc ty bs b c d ecc f h) s = .next s) ∧
  (∀ (p vc k : Nat) (sm : Sample) (rec : Recipe) (i : Instance) (q : Pos) (s : State), s.slotOf p vc = some k → s.creelOn = true →
    s.portOn p = true → (s.slot k).input = [] → (s.slot k).phase = .open sm → s.slotRec k = some rec → sm.lines.length = rec.hIn →
    s.inst? (s.slotBatch k) sm.counter = some i → i.pos[sm.position]? = some q →
    ∃ t, exec (.csi2FrameEnd p vc false) s = .next t ∧ (t.slot k).phase = .idle ∧ (t.slot k).good = inc32 (s.slot k).good ∧
      (t.inst? (s.slotBatch k) sm.counter).map (fun j => j.pos[sm.position]?) =
        some (some { q with state := .received, cause := 0, sat := sm.sat, time := sm.time }) ∧
      State.sameButCounters { t with slots := s.slots, batches := s.batches, wa := s.wa, wb := s.wb, freshCtr := s.freshCtr } s) ∧
  (∀ (p vc k : Nat) (sm : Sample) (rec : Recipe) (s : State), s.slotOf p vc = some k → s.creelOn = true → s.portOn p = true →
    (s.slot k).input = [] → (s.slot k).phase = .open sm → s.slotRec k = some rec → sm.lines.length ≠ rec.hIn →
    ∃ t, exec (.csi2FrameEnd p vc false) s = .next t ∧ (t.slot k).phase = .idle ∧ (t.slot k).corrupt = inc32 (s.slot k).corrupt ∧
      t.steps = s.steps ∧ t.ctxs = s.ctxs ∧ t.hasp = s.hasp) ∧
  (∀ (p vc k : Nat) (sm : Sample) (ty : Nat) (fx : Bool) (s : State), s.slotOf p vc = some k → s.creelOn = true → s.portOn p = true →
    (s.slot k).input = [] → (s.slot k).phase = .open sm →
    ∃ t, exec (.csi2PacketDiscard p vc ty true fx) s = .next t ∧ (t.slot k).phase = .late ∧
      (t.slot k).dropped = inc32 (s.slot k).dropped ∧ (t.slot k).corrupt = inc32 (s.slot k).corrupt ∧ t.steps = s.steps) ∧
  (∀ (p vc k ty : Nat) (fx : Bool) (s : State), s.slotOf p vc = some k → s.creelOn = true → s.portOn p = true →
    (s.slot k).input = [] → 4 ≤ ty → ty ≠ 0x12 →
    isImageType ty = false → k < s.slots.length →
    ∃ t, exec (.csi2PacketDiscard p vc ty false fx) s = .next t ∧ t.slot k = { s.slot k with
        dropped := inc32 (s.slot k).dropped, headerFixed := if fx then inc32 (s.slot k).headerFixed else (s.slot k).headerFixed } ∧
      (∀ j, j ≠ k → t.slot j = s.slot j) ∧ { t with slots := s.slots } = s) ∧
  (∀ (p k : Nat) (s : State), p < 0x18 → s.intakeOn = true → s.creelOn = false → s.portOn p = true → k < s.slots.length →
    (List.range 32).filter (fun k => s.slotOn k && s.slotPort k == p) = [k] →
    ∃ t, exec (.phyLinkLoss p) s = .next t ∧ t.slot k = { s.slot k with input := (s.slot k).input ++ [(s.time.now, .linkLoss)] } ∧
      (∀ j, j ≠ k → t.slot j = s.slot j) ∧ { t with slots := s.slots } = s) ∧
  (∀ (p k : Nat) (sm : Sample) (s : State), p < 0x18 → s.creelOn = true → s.portOn p = true →
    (List.range 32).filter (fun k => s.slotOn k && s.slotPort k == p) = [k] → (s.slot k).phase = .open sm → (s.slot k).input = [] →
    ∃ t, exec (.phyLinkLoss p) s = .next t ∧ (t.slot k).phase = .late ∧ (t.slot k).corrupt = inc32 (s.slot k).corrupt ∧ t.steps = s.steps ∧
      t.ctxs = s.ctxs ∧ t.hasp = s.hasp)

/-- R213, R214, R215, R21, R31, R239, R240, R241, R242.  A frame without its checksums is discarded and counted; the first packet of a sweep opens a
sample; a finished copy turns the hold half or fills its position; a position empty at the close time is substituted with cause 2; a full
instance becomes ready with its manifest behind its tensor.  What lost lines leave of a copy is the model's choice (log entry 163). -/
def Obligations.SweepsCopiesAndBatches : Prop :=
  (∀ (e k : Nat) (f ip udp : List Byte) (lanes waits : Bool) (ecc : IntakeCheck) (s : State), s.intakeOn = true → s.portOn (0x18 + e) = true → ipv4Of f = some ip →
    udpOf ip = some udp → s.udpSlots e (beAt udp 2 2) = [k] → 
    (9022 < f.length ∨ sumsOk ip udp = false ∨ fld (s.reg (oSlotSel k)) 15 0 ≠ leAt (udp.drop 8) 6 2) → k < s.slots.length →
    ∃ t, exec (.ethernetFrame e f lanes ecc waits) s = .next t ∧ t.slot k = { s.slot k with dropped := inc32 (s.slot k).dropped } ∧
      (∀ j, j ≠ k → t.slot j = s.slot j) ∧ { t with slots := s.slots } = s) ∧
  (∀ (e : Nat) (f : List Byte) (lanes waits : Bool) (ecc : IntakeCheck) (s : State), ipv4Of f = none → exec (.ethernetFrame e f lanes ecc waits) s = .next s) ∧
  (∀ (e k c : Nat) (f ip udp bs : List Byte) (rec : Recipe) (s : State), s.creelOn = true → s.portOn (0x18 + e) = true →
    ipv4Of f = some ip → udpOf ip = some udp → s.udpSlots e (beAt udp 2 2) = [k] → f.length ≤ 9022 → sumsOk ip udp = true →
    bs = udp.drop 8 → fld (s.reg (oSlotSel k)) 15 0 = leAt bs 6 2 → s.slotRec k = some rec → rec.points = true → packetOk bs = true →
    bitN (leAt bs 5 1) 0 = true → bitN (leAt bs 5 1) 1 = false → leAt bs 12 2 = 0 → (s.slot k).input = [] →
    (s.slot k).phase = .idle → k < s.slots.length →
    s.openFor k = some c → (s.recipeCb rec).isSome = true →
    ∃ t sm, exec (.ethernetFrame e f true { fixed := [], hit := none } false) s = .next t ∧ (t.slot k).phase = .open sm ∧ sm.time = s.time.now ∧ sm.counter = c ∧
      sm.sweep = leAt bs 8 4 ∧ sm.nextSeq = 1 ∧ (t.slot k).sensorTime = BitVec.ofNat 64 (leAt bs 16 8) ∧ State.sameButCounters { t with slots := s.slots, wa := s.wa, wb := s.wb, freshCtr := s.freshCtr } s) ∧
  (∀ (k : Nat) (h : Hold) (fs : List DataAt) (s : State), (s.slot k).copying = some h →
    ∃ t, exec (.holdCopyDone k { fixed := fs, hit := none }) s = .next t ∧ t.slot k = { s.slot k with hold := some h, half := !(s.slot k).half, copying := none } ∧
      (∀ j, j ≠ k → t.slot j = s.slot j) ∧ State.sameButReads { t with slots := s.slots } s) ∧
  (∀ (k a : Nat) (h : Hold) (w : Weft) (m : Byte) (s : State), (s.slot k).copying = some h → s.steps = [] → s.silent (weftSrc w 0x20) →
    ∃ t, exec (.holdCopyDone k { fixed := [], hit := some { place := .beam w a, master := m } }) s = .next t ∧
      t.slot k = { s.slot k with copying := none } ∧ (∀ j, j ≠ k → t.slot j = s.slot j) ∧ t.hasp.raised.contains (weftSrc w 0x20) = true) ∧
  (∀ (b c : Nat) (i : Instance) (p : Pos) (rec : Recipe) (s : State), s.inst? b c = some i → i.ready = false → i.discarded = false →
    i.pos = [p] → p.state = .empty → s.slotRec p.stream = some rec → i.openTime.toNat + rec.closeUs * 1000 ≤ s.time.now.toNat →
    p.stream < s.slots.length → (rec.lastGood = false ∨ (s.slot p.stream).hold = none) →
    ∃ t, exec (.batchCloseTimeout b c) s = .next t ∧ (t.inst? b c).map (fun j => j.pos) =
        some [{ p with state := .zeroSub, cause := 2, sat := 0, time := i.openTime, corrupt := false }] ∧
      (t.slot p.stream).substituted = inc32 (s.slot p.stream).substituted ∧
      (∀ sm, (s.slot p.stream).phase = .open sm → sm.counter = c → (t.slot p.stream).phase = .late) ∧
      State.sameButCounters { t with slots := s.slots, batches := s.batches, wa := s.wa, wb := s.wb, freshCtr := s.freshCtr } s) ∧
  (∀ (b c : Nat) (i : Instance) (p : Pos) (rec : Recipe) (h : Hold) (s : State), s.inst? b c = some i → i.ready = false →
    i.discarded = false → i.pos = [p] → p.state = .empty → s.slotRec p.stream = some rec →
    i.openTime.toNat + rec.closeUs * 1000 ≤ s.time.now.toNat → p.stream < s.slots.length → rec.lastGood = true →
    (s.slot p.stream).hold = some h → s.time.now.toNat - h.time.toNat ≤ rec.maxAgeUs * 1000 →
    ∃ t, exec (.batchCloseTimeout b c) s = .next t ∧ (t.inst? b c).map (fun j => j.pos) =
        some [{ p with state := .copying, cause := 2, sat := h.sat, time := h.time, corrupt := false }] ∧
      State.sameButCounters { t with slots := s.slots, batches := s.batches, wa := s.wa, wb := s.wb, freshCtr := s.freshCtr } s) ∧
  (∀ (k : Nat) (chk : ReadChecks) (s : State), (s.slot k).copying = none → exec (.holdCopyDone k chk) s = .next s) ∧
  (∀ (b c q : Nat) (i : Instance) (p : Pos) (fs : List DataAt) (s : State), s.inst? b c = some i → i.pos[q]? = some p →
    ∃ t, exec (.substituteCopyDone b c q { fixed := fs, hit := none }) s = .next t ∧ (t.inst? b c).map (fun j => j.pos[q]?) =
        some (some (if p.state = .copying then { p with state := .lastGood } else p)) ∧ State.sameButReads { t with batches := s.batches } s) ∧
  (∀ (b c q a : Nat) (i : Instance) (p : Pos) (w : Weft) (m : Byte) (s : State), s.inst? b c = some i → i.pos[q]? = some p → p.state = .copying →
    s.steps = [] → s.silent (weftSrc w 0x20) →
    ∃ t, exec (.substituteCopyDone b c q { fixed := [], hit := some { place := .beam w a, master := m } }) s = .next t ∧
      (t.inst? b c).map (fun j => (j.eccFail, j.pos[q]?)) = some (true, some { p with state := .lastGood }) ∧
      t.hasp.raised.contains (weftSrc w 0x20) = true) ∧
  (∀ (b c : Nat) (i : Instance) (bs : List Byte) (s : State), s.inst? b c = some i → i.full = true → i.ready = false → i.discarded = false →
    i.released = false → (∀ x ∈ s.steps, x.uses b c = false) → (∀ j ∈ (s.batch b).instances, j.counter ≤ c) → i.started = false → s.wa.memWf = true →
    s.wb.memWf = true → bs = Instance.manifest { i with ready := true, readyTime := s.time.now } b →
    ∃ t, exec (.batchReady b c) s = .next t ∧ t.inst? b c = some { i with ready := true, readyTime := s.time.now } ∧
      t.wa.beam.readBytes (i.baseA + i.tensorBytes) bs.length = bs ∧ t.wb.beam.readBytes (i.baseB + i.tensorBytes) bs.length = bs ∧
      State.sameButCounters { t with batches := s.batches, wa := s.wa, wb := s.wb, freshCtr := s.freshCtr } s) ∧
  (∀ (b c : Nat) (i : Instance) (s : State), s.inst? b c = some i → i.full = false → exec (.batchReady b c) s = .next s)

/-- R216, R236, R237, R240, R243, R283, R382, R386, R556.  A stream slot or batch index is enabled when its checks pass, with fresh counts, and a
Beam group in Cool or Rest wakes for a batch; a refused enable
changes err alone; a disabled slot discards its sample; a batch index is disabled only without enabled members, and then its waiting steps go;
on an enabled one an enable changes nothing. -/
def Obligations.SlotsAndBatchesAreConfigured : Prop :=
  (∀ (k : Nat) (v : Word) (x : RecipeSlot) (s : State), k < 32 → s.missionOn = true → s.slotOn k = false → s.slotErr k v = 0 →
    s.recipe? (fld v 13 8) = some x → k < s.slots.length →
    ∃ t, exec (.crlSlotEnable k v) s = .next t ∧ t.slotOn k = true ∧ t.slotPort k = fld v 5 0 ∧ t.slotRecipe k = fld v 13 8 ∧
      t.slotBatch k = fld v 20 16 ∧ t.slotPos k = fld v 25 21 ∧ (t.slot k).phase = .idle ∧ (t.slot k).good = 0 ∧
      (t.slot k).substituted = 0 ∧ (t.slot k).corrupt = 0 ∧ (t.slot k).late = 0 ∧ (t.slot k).dropped = 0 ∧
      (t.slot k).holdBytes = (if x.recipe.lastGood then x.recipe.holdBytes else 0) ∧ (∀ j, j ≠ k → t.slot j = s.slot j) ∧
      (∀ o, o ≠ oSlotBind k → t.reg o = s.reg o) ∧ t.clk = { s.clk with creel := if s.anySlot then s.clk.creel else true } ∧
      { t with slots := s.slots, regs := s.regs, clk := s.clk } = s) ∧
  (∀ (k : Nat) (v : Word) (s : State), k < 32 → s.missionOn = true → s.slotOn k = false → s.slotErr k v ≠ 0 →
    exec (.crlSlotEnable k v) s = .next (s.setReg (oSlotBind k) (setFld (s.reg (oSlotBind k)) 31 29 (s.slotErr k v)))) ∧
  (∀ (k : Nat) (v : Word) (s : State), s.slotOn k = true → exec (.crlSlotEnable k v) s = .next s) ∧
  (∀ (k : Nat) (v : Word) (s : State), k < 32 → s.missionOn = true → s.slotOn k = true → s.steps = [] →
    ∃ t, exec (.crlSlotDisable k v) s = .next t ∧ t.slotOn k = false ∧ (t.slot k).phase = .idle ∧ (t.slot k).hold = none ∧
      (t.slot k).holdBytes = 0 ∧ (t.slot k).input = [] ∧ t.slotPort k = s.slotPort k ∧ t.slotBatch k = s.slotBatch k ∧
      t.recipes = s.recipes ∧ t.ctxs = s.ctxs ∧ t.hasp = s.hasp ∧
      ((∀ j, j < 32 → j ≠ k → s.slotOn j = false) → t.clk = { s.clk with creel := false }) ∧
      (∀ j, j < 32 → j ≠ k → s.slotOn j = true → t.clk = s.clk)) ∧
  (∀ (k : Nat) (v : Word) (s : State), k < 32 → s.missionOn = true → s.slotOn k = false →
    ∃ t, exec (.crlSlotDisable k v) s = .next t ∧
      t.sets s (oSlotBind k) ((v &&& 0x03FF3F3F#32) ||| (s.reg (oSlotBind k) &&& 0xE0000000#32))) ∧
  (∀ (b : Nat) (v : Word) (s : State), b < 32 → s.missionOn = true → s.batchOn b = false → s.batchErr b v = 0 →
    ∃ t u : State, exec (.crlBatchEnable b v) s = .next t ∧ u.sets s (oBatchCtl b) ((v &&& 0x1FF#32) ||| 0x10000#32) ∧ t.batchOn b = true ∧
      t.batchB b = fld v 5 0 ∧ { t with wa := u.wa, wb := u.wb } = u ∧
      (∀ d, { t.weft d with beamGrp := (s.weft d).beamGrp, benchIdle := (s.weft d).benchIdle } = s.weft d) ∧
      (∀ d q, s.pwr.recovery = false → (s.weft d).inService = true → (s.weft d).beamGrp = .at q → (q = .cool ∨ q = .rest) →
        (t.weft d).beamGrp = .waking q) ∧
      (∀ d, (s.weft d).beamGrp.deep = false → (t.weft d).beamGrp = (s.weft d).beamGrp)) ∧
  (∀ (b : Nat) (v : Word) (s : State), b < 32 → s.missionOn = true → s.batchOn b = false → s.batchErr b v ≠ 0 →
    exec (.crlBatchEnable b v) s = .next (s.setReg (oBatchCtl b) (setFld (s.reg (oBatchCtl b)) 18 17 (s.batchErr b v)))) ∧
  (∀ (b : Nat) (v : Word) (s : State), s.batchOn b = true → exec (.crlBatchEnable b v) s = .next s) ∧
  (∀ (b : Nat) (v : Word) (s : State), b < 32 → s.missionOn = true → s.batchOn b = true → s.members b ≠ [] →
    exec (.crlBatchDisable b v) s = .next (s.setReg (oBatchCtl b) (setFld (s.reg (oBatchCtl b)) 18 17 3))) ∧
  (∀ (b : Nat) (v : Word) (s : State), b < 32 → s.missionOn = true → s.batchOn b = true → s.members b = [] → s.steps = [] →
    ∃ t, exec (.crlBatchDisable b v) s = .next t ∧ t.batchOn b = false ∧ (t.batch b).instances = [] ∧
      (t.batch b).counter = (s.batch b).counter ∧ (∀ o, o ≠ oBatchCtl b → t.reg o = s.reg o) ∧
      t.sched.running = s.sched.running ∧ { t with batches := s.batches, regs := s.regs, sched := s.sched } = s) ∧
  (∀ (b : Nat) (v : Word) (s : State), b < 32 → s.missionOn = true → s.batchOn b = false →
    ∃ t, exec (.crlBatchDisable b v) s = .next t ∧
      t.sets s (oBatchCtl b) ((v &&& 0x1FF#32) ||| (s.reg (oBatchCtl b) &&& 0x60000#32))) ∧
  (∀ (b : Nat) (cx : Ctx) (v : Word) (x : Step) (s : State), b < 32 → s.missionOn = true → s.batchOn b = true → s.members b = [] →
    s.steps = [x] → s.ctx? x.ctx = some cx → cx.closing = false → x.batchIndex = b → s.waitsOpen x = true →
    ∃ t, exec (.crlBatchDisable b v) s = .next t ∧ t.steps = [] ∧ t.recordDue s cx (s.unrunRecord x 0x10 9) ∧ t.batchOn b = false)

/-! ### The machine as a whole -/

/-- R482, R486, R497, R501.  No step takes back a one-way fact of the part: blown fuses stay blown, a revoked root key stays revoked, and
the fused rollback index and the debug toggles never fall. -/
def Obligations.FusesOnlyBlow : Prop :=
  ∀ (s t : State) (owned returned : Bool) (rollback toggles : Nat) (revoked : BitVec 4), step s = .next t →
    s.sec.fusesKept owned returned rollback toggles revoked → t.sec.fusesKept owned returned rollback toggles revoked

/-- Every step keeps every byte memory of the block canonical (the model's representation of memory, log entry 8), so that equal contents
are equal data. -/
def Obligations.MemoryStaysCanonical : Prop :=
  ∀ s t : State, step s = .next t → s.memWf = true → t.memWf = true

/-- Reset meets both invariants: no fuse is blown (log entry 5: the part as the model starts it), and no memory lists a byte. -/
def Obligations.ResetMeetsTheInvariants : Prop :=
  State.reset.sec.fusesKept false false 0 0 0 ∧ State.reset.memWf = true ∧ State.reset.pending = []

/-- The block takes every command in every state: none is refused, and none stops but a debug access to an address outside the memories
(log entry 16).
A command changes no waiting command: what its run leaves in the queue is the queue's rest. -/
def Obligations.CommandsAnswerAndLeaveTheQueue : Prop :=
  (∀ (c : Instr) (s : State) (r : Refusal), exec c s ≠ .refused r) ∧
  (∀ (c : Instr) (s : State), Completes c s ∨
    (exec c s = .fault .debugOutsideLevel ∧ s.debugLevel = 2 ∧
      ((∃ k, c = .kprDbgDataRead k) ∨ (∃ v, c = .kprDbgDataWrite v) ∨ (∃ op k, c = .jtagAccess op k) ∨
        (∃ w, c = .registerLowWordRead w 0x518) ∨ ∃ w v, c = .registerWrite w 0x518 v))) ∧
  (∀ (c : Instr) (s t : State), exec c s = .next t → t.pending = s.pending)
end
end

