-- ==== Sys2Proof/Laws/Bits.lean ====
section
/-! SUPPORT. Laws of association lists and sets. -/

namespace Sys2Proof

namespace Machine

theorem lookupN_insertN {β : Type} (l : List (Nat × β)) (k j : Nat) (v : β) :
    lookupN (insertN l k v) j = if k = j then some v else lookupN l j := by
  induction l with
  | nil => simp [insertN, lookupN]
  | cons p t ih =>
    obtain ⟨a, b⟩ := p
    simp only [insertN]
    split
    · simp [lookupN]
    · split
      · subst_vars; by_cases h : a = j <;> simp [lookupN, h]
      · simp only [lookupN, ih]
        split <;> split <;> simp_all

@[simp] theorem lookupN_insertN_self {β : Type} (l : List (Nat × β)) (k : Nat) (v : β) :
    lookupN (insertN l k v) k = some v := by simp [lookupN_insertN]

theorem lookupN_eraseN {β : Type} (l : List (Nat × β)) (k j : Nat) :
    lookupN (eraseN l k) j = if k = j then none else lookupN l j := by
  unfold eraseN
  induction l with
  | nil => simp [lookupN]
  | cons p t ih =>
    obtain ⟨a, b⟩ := p
    by_cases h : a = k
    · subst h
      simp only [List.filter_cons, bne_self_eq_false, Bool.false_eq_true, if_false, ih, lookupN]
      split <;> simp_all
    · simp only [List.filter_cons, bne_iff_ne, ne_eq, h, not_false_eq_true, if_true, lookupN, ih]
      split <;> split <;> simp_all

@[simp] theorem mem_addSet {α : Type} [DecidableEq α] (l : List α) (a b : α) : b ∈ addSet l a ↔ b ∈ l ∨ b = a := by
  unfold addSet
  split <;> simp_all

@[simp] theorem mem_delSet {α : Type} [DecidableEq α] (l : List α) (a b : α) : b ∈ delSet l a ↔ b ∈ l ∧ b ≠ a := by
  simp [delSet]

end Machine

end Sys2Proof
end

