-- ==== Sys2Proof/Laws/Regs.lean ====
section
/-! SUPPORT. Laws of the register file and of the function windows: a read after a write, and everything else unchanged. -/

namespace Sys2Proof

namespace Machine

theorem regRead_regWrite (l : List (Nat × Word)) (o p : Nat) (w : Word) :
    regRead (regWrite l o w) p = if o = p then w else regRead l p := by
  by_cases hw : w = regReset o
  · simp only [regRead, regWrite, if_pos hw, lookupN_eraseN]
    by_cases h : o = p
    · subst h; simp [hw]
    · simp [h]
  · simp only [regRead, regWrite, if_neg hw, lookupN_insertN]
    by_cases h : o = p <;> simp [h]

theorem State.reg_setReg (s : State) (o p : Nat) (w : Word) : (s.setReg o w).reg p = if o = p then w else s.reg p :=
  regRead_regWrite s.regs o p w

@[simp] theorem State.reg_setReg_self (s : State) (o : Nat) (w : Word) : (s.setReg o w).reg o = w := by simp [State.reg_setReg]

theorem State.fnReg_setFnReg (s : State) (f g : FnId) (o p : Nat) (w : Word) :
    (s.setFnReg f o w).fnReg g p = if fnKey f o = fnKey g p then w else s.fnReg g p := by
  by_cases hw : w = 0
  · simp only [State.fnReg, State.setFnReg, if_pos hw, lookupN_eraseN]
    by_cases h : fnKey f o = fnKey g p
    · simp [h, hw]
    · simp [h]
  · simp only [State.fnReg, State.setFnReg, if_neg hw, lookupN_insertN]
    by_cases h : fnKey f o = fnKey g p <;> simp [h]

/-- A wake request changes one die alone. -/
theorem State.wake_frame (s : State) (d : Weft) (g : Grp) : { s.wake d g with wa := s.wa, wb := s.wb } = s := by
  unfold State.wake
  split
  · rfl
  · cases d <;> rfl

/-- New work on the Beam groups changes nothing but the dies. -/
theorem State.wakeBeams_frame (s : State) : { s.wakeBeams with wa := s.wa, wb := s.wb } = s := by
  have one : ∀ (t : State) (d : Weft), { (let u := t.modWeft d (fun w => { w with benchIdle := w.benchIdle.filter (fun x => x != Grp.beam) })
      if (t.weft d).inService && (t.weft d).beamGrp.deep then u.wake d .beam else u) with wa := s.wa, wb := s.wb } =
      { t with wa := s.wa, wb := s.wb } := by
    intro t d
    dsimp only
    split
    · have h := State.wake_frame (t.modWeft d (fun w => { w with benchIdle := w.benchIdle.filter (fun x => x != Grp.beam) })) d .beam
      have h' := congrArg (fun u : State => { u with wa := s.wa, wb := s.wb }) h
      exact h'.trans (by cases d <;> rfl)
    · cases d <;> rfl
  exact (one _ .b).trans (one s .a)

end Machine

end Sys2Proof
end

