-- ==== Sys2Proof/Laws/State.lean ====
section
/-! SUPPORT. The named updates of State, field by field: one lemma for each field that an update leaves, and its own field. -/

namespace Sys2Proof

namespace Machine

section setReg
variable (s : State) (o : Nat) (w : Word)

@[simp] theorem State.setReg_pending : (s.setReg o w).pending = s.pending := rfl
@[simp] theorem State.setReg_pins : (s.setReg o w).pins = s.pins := rfl
@[simp] theorem State.setReg_supply : (s.setReg o w).supply = s.supply := rfl
@[simp] theorem State.setReg_pwr : (s.setReg o w).pwr = s.pwr := rfl
@[simp] theorem State.setReg_time : (s.setReg o w).time = s.time := rfl
@[simp] theorem State.setReg_clk : (s.setReg o w).clk = s.clk := rfl
@[simp] theorem State.setReg_regs : (s.setReg o w).regs = regWrite s.regs o w := rfl
@[simp] theorem State.setReg_fnRegs : (s.setReg o w).fnRegs = s.fnRegs := rfl
@[simp] theorem State.setReg_bus : (s.setReg o w).bus = s.bus := rfl
@[simp] theorem State.setReg_sec : (s.setReg o w).sec = s.sec := rfl
@[simp] theorem State.setReg_hasp : (s.setReg o w).hasp = s.hasp := rfl
@[simp] theorem State.setReg_ladder : (s.setReg o w).ladder = s.ladder := rfl
@[simp] theorem State.setReg_disabled : (s.setReg o w).disabled = s.disabled := rfl
@[simp] theorem State.setReg_portA : (s.setReg o w).portA = s.portA := rfl
@[simp] theorem State.setReg_portB : (s.setReg o w).portB = s.portB := rfl
@[simp] theorem State.setReg_portS : (s.setReg o w).portS = s.portS := rfl
@[simp] theorem State.setReg_flrBusy : (s.setReg o w).flrBusy = s.flrBusy := rfl
@[simp] theorem State.setReg_msix : (s.setReg o w).msix = s.msix := rfl
@[simp] theorem State.setReg_hostMemA : (s.setReg o w).hostMemA = s.hostMemA := rfl
@[simp] theorem State.setReg_hostMemB : (s.setReg o w).hostMemB = s.hostMemB := rfl
@[simp] theorem State.setReg_ctxs : (s.setReg o w).ctxs = s.ctxs := rfl
@[simp] theorem State.setReg_rings : (s.setReg o w).rings = s.rings := rfl
@[simp] theorem State.setReg_readQ : (s.setReg o w).readQ = s.readQ := rfl
@[simp] theorem State.setReg_posted : (s.setReg o w).posted = s.posted := rfl
@[simp] theorem State.setReg_heldBells : (s.setReg o w).heldBells = s.heldBells := rfl
@[simp] theorem State.setReg_latches : (s.setReg o w).latches = s.latches := rfl
@[simp] theorem State.setReg_eventLost : (s.setReg o w).eventLost = s.eventLost := rfl
@[simp] theorem State.setReg_loadBusy : (s.setReg o w).loadBusy = s.loadBusy := rfl
@[simp] theorem State.setReg_drafts : (s.setReg o w).drafts = s.drafts := rfl
@[simp] theorem State.setReg_kappas : (s.setReg o w).kappas = s.kappas := rfl
@[simp] theorem State.setReg_recipes : (s.setReg o w).recipes = s.recipes := rfl
@[simp] theorem State.setReg_steps : (s.setReg o w).steps = s.steps := rfl
@[simp] theorem State.setReg_sched : (s.setReg o w).sched = s.sched := rfl
@[simp] theorem State.setReg_ward : (s.setReg o w).ward = s.ward := rfl
@[simp] theorem State.setReg_wa : (s.setReg o w).wa = s.wa := rfl
@[simp] theorem State.setReg_wb : (s.setReg o w).wb = s.wb := rfl
@[simp] theorem State.setReg_links : (s.setReg o w).links = s.links := rfl
@[simp] theorem State.setReg_slots : (s.setReg o w).slots = s.slots := rfl
@[simp] theorem State.setReg_batches : (s.setReg o w).batches = s.batches := rfl
@[simp] theorem State.setReg_frame : (s.setReg o w).frame = s.frame := rfl
@[simp] theorem State.setReg_ctr : (s.setReg o w).ctr = s.ctr := rfl
@[simp] theorem State.setReg_freshCtr : (s.setReg o w).freshCtr = s.freshCtr := rfl
@[simp] theorem State.setReg_mon : (s.setReg o w).mon = s.mon := rfl

end setReg

section modCtx
variable (s : State) (k : Nat) (f : Ctx → Ctx)

@[simp] theorem State.modCtx_pending : (s.modCtx k f).pending = s.pending := rfl
@[simp] theorem State.modCtx_pins : (s.modCtx k f).pins = s.pins := rfl
@[simp] theorem State.modCtx_supply : (s.modCtx k f).supply = s.supply := rfl
@[simp] theorem State.modCtx_pwr : (s.modCtx k f).pwr = s.pwr := rfl
@[simp] theorem State.modCtx_time : (s.modCtx k f).time = s.time := rfl
@[simp] theorem State.modCtx_clk : (s.modCtx k f).clk = s.clk := rfl
@[simp] theorem State.modCtx_regs : (s.modCtx k f).regs = s.regs := rfl
@[simp] theorem State.modCtx_fnRegs : (s.modCtx k f).fnRegs = s.fnRegs := rfl
@[simp] theorem State.modCtx_bus : (s.modCtx k f).bus = s.bus := rfl
@[simp] theorem State.modCtx_sec : (s.modCtx k f).sec = s.sec := rfl
@[simp] theorem State.modCtx_hasp : (s.modCtx k f).hasp = s.hasp := rfl
@[simp] theorem State.modCtx_ladder : (s.modCtx k f).ladder = s.ladder := rfl
@[simp] theorem State.modCtx_disabled : (s.modCtx k f).disabled = s.disabled := rfl
@[simp] theorem State.modCtx_portA : (s.modCtx k f).portA = s.portA := rfl
@[simp] theorem State.modCtx_portB : (s.modCtx k f).portB = s.portB := rfl
@[simp] theorem State.modCtx_portS : (s.modCtx k f).portS = s.portS := rfl
@[simp] theorem State.modCtx_flrBusy : (s.modCtx k f).flrBusy = s.flrBusy := rfl
@[simp] theorem State.modCtx_msix : (s.modCtx k f).msix = s.msix := rfl
@[simp] theorem State.modCtx_hostMemA : (s.modCtx k f).hostMemA = s.hostMemA := rfl
@[simp] theorem State.modCtx_hostMemB : (s.modCtx k f).hostMemB = s.hostMemB := rfl
@[simp] theorem State.modCtx_rings : (s.modCtx k f).rings = s.rings := rfl
@[simp] theorem State.modCtx_readQ : (s.modCtx k f).readQ = s.readQ := rfl
@[simp] theorem State.modCtx_posted : (s.modCtx k f).posted = s.posted := rfl
@[simp] theorem State.modCtx_heldBells : (s.modCtx k f).heldBells = s.heldBells := rfl
@[simp] theorem State.modCtx_latches : (s.modCtx k f).latches = s.latches := rfl
@[simp] theorem State.modCtx_eventLost : (s.modCtx k f).eventLost = s.eventLost := rfl
@[simp] theorem State.modCtx_loadBusy : (s.modCtx k f).loadBusy = s.loadBusy := rfl
@[simp] theorem State.modCtx_drafts : (s.modCtx k f).drafts = s.drafts := rfl
@[simp] theorem State.modCtx_kappas : (s.modCtx k f).kappas = s.kappas := rfl
@[simp] theorem State.modCtx_recipes : (s.modCtx k f).recipes = s.recipes := rfl
@[simp] theorem State.modCtx_steps : (s.modCtx k f).steps = s.steps := rfl
@[simp] theorem State.modCtx_sched : (s.modCtx k f).sched = s.sched := rfl
@[simp] theorem State.modCtx_ward : (s.modCtx k f).ward = s.ward := rfl
@[simp] theorem State.modCtx_wa : (s.modCtx k f).wa = s.wa := rfl
@[simp] theorem State.modCtx_wb : (s.modCtx k f).wb = s.wb := rfl
@[simp] theorem State.modCtx_links : (s.modCtx k f).links = s.links := rfl
@[simp] theorem State.modCtx_slots : (s.modCtx k f).slots = s.slots := rfl
@[simp] theorem State.modCtx_batches : (s.modCtx k f).batches = s.batches := rfl
@[simp] theorem State.modCtx_frame : (s.modCtx k f).frame = s.frame := rfl
@[simp] theorem State.modCtx_ctr : (s.modCtx k f).ctr = s.ctr := rfl
@[simp] theorem State.modCtx_freshCtr : (s.modCtx k f).freshCtr = s.freshCtr := rfl
@[simp] theorem State.modCtx_mon : (s.modCtx k f).mon = s.mon := rfl

end modCtx

section modRing
variable (s : State) (k r : Nat) (f : Ring → Ring)

@[simp] theorem State.modRing_pending : (s.modRing k r f).pending = s.pending := rfl
@[simp] theorem State.modRing_pins : (s.modRing k r f).pins = s.pins := rfl
@[simp] theorem State.modRing_supply : (s.modRing k r f).supply = s.supply := rfl
@[simp] theorem State.modRing_pwr : (s.modRing k r f).pwr = s.pwr := rfl
@[simp] theorem State.modRing_time : (s.modRing k r f).time = s.time := rfl
@[simp] theorem State.modRing_clk : (s.modRing k r f).clk = s.clk := rfl
@[simp] theorem State.modRing_regs : (s.modRing k r f).regs = s.regs := rfl
@[simp] theorem State.modRing_fnRegs : (s.modRing k r f).fnRegs = s.fnRegs := rfl
@[simp] theorem State.modRing_bus : (s.modRing k r f).bus = s.bus := rfl
@[simp] theorem State.modRing_sec : (s.modRing k r f).sec = s.sec := rfl
@[simp] theorem State.modRing_hasp : (s.modRing k r f).hasp = s.hasp := rfl
@[simp] theorem State.modRing_ladder : (s.modRing k r f).ladder = s.ladder := rfl
@[simp] theorem State.modRing_disabled : (s.modRing k r f).disabled = s.disabled := rfl
@[simp] theorem State.modRing_portA : (s.modRing k r f).portA = s.portA := rfl
@[simp] theorem State.modRing_portB : (s.modRing k r f).portB = s.portB := rfl
@[simp] theorem State.modRing_portS : (s.modRing k r f).portS = s.portS := rfl
@[simp] theorem State.modRing_flrBusy : (s.modRing k r f).flrBusy = s.flrBusy := rfl
@[simp] theorem State.modRing_msix : (s.modRing k r f).msix = s.msix := rfl
@[simp] theorem State.modRing_hostMemA : (s.modRing k r f).hostMemA = s.hostMemA := rfl
@[simp] theorem State.modRing_hostMemB : (s.modRing k r f).hostMemB = s.hostMemB := rfl
@[simp] theorem State.modRing_ctxs : (s.modRing k r f).ctxs = s.ctxs := rfl
@[simp] theorem State.modRing_readQ : (s.modRing k r f).readQ = s.readQ := rfl
@[simp] theorem State.modRing_posted : (s.modRing k r f).posted = s.posted := rfl
@[simp] theorem State.modRing_heldBells : (s.modRing k r f).heldBells = s.heldBells := rfl
@[simp] theorem State.modRing_latches : (s.modRing k r f).latches = s.latches := rfl
@[simp] theorem State.modRing_eventLost : (s.modRing k r f).eventLost = s.eventLost := rfl
@[simp] theorem State.modRing_loadBusy : (s.modRing k r f).loadBusy = s.loadBusy := rfl
@[simp] theorem State.modRing_drafts : (s.modRing k r f).drafts = s.drafts := rfl
@[simp] theorem State.modRing_kappas : (s.modRing k r f).kappas = s.kappas := rfl
@[simp] theorem State.modRing_recipes : (s.modRing k r f).recipes = s.recipes := rfl
@[simp] theorem State.modRing_steps : (s.modRing k r f).steps = s.steps := rfl
@[simp] theorem State.modRing_sched : (s.modRing k r f).sched = s.sched := rfl
@[simp] theorem State.modRing_ward : (s.modRing k r f).ward = s.ward := rfl
@[simp] theorem State.modRing_wa : (s.modRing k r f).wa = s.wa := rfl
@[simp] theorem State.modRing_wb : (s.modRing k r f).wb = s.wb := rfl
@[simp] theorem State.modRing_links : (s.modRing k r f).links = s.links := rfl
@[simp] theorem State.modRing_slots : (s.modRing k r f).slots = s.slots := rfl
@[simp] theorem State.modRing_batches : (s.modRing k r f).batches = s.batches := rfl
@[simp] theorem State.modRing_frame : (s.modRing k r f).frame = s.frame := rfl
@[simp] theorem State.modRing_ctr : (s.modRing k r f).ctr = s.ctr := rfl
@[simp] theorem State.modRing_freshCtr : (s.modRing k r f).freshCtr = s.freshCtr := rfl
@[simp] theorem State.modRing_mon : (s.modRing k r f).mon = s.mon := rfl

end modRing

section modStep
variable (s : State) (k : Nat) (f : Step → Step)

@[simp] theorem State.modStep_pending : (s.modStep k f).pending = s.pending := rfl
@[simp] theorem State.modStep_pins : (s.modStep k f).pins = s.pins := rfl
@[simp] theorem State.modStep_supply : (s.modStep k f).supply = s.supply := rfl
@[simp] theorem State.modStep_pwr : (s.modStep k f).pwr = s.pwr := rfl
@[simp] theorem State.modStep_time : (s.modStep k f).time = s.time := rfl
@[simp] theorem State.modStep_clk : (s.modStep k f).clk = s.clk := rfl
@[simp] theorem State.modStep_regs : (s.modStep k f).regs = s.regs := rfl
@[simp] theorem State.modStep_fnRegs : (s.modStep k f).fnRegs = s.fnRegs := rfl
@[simp] theorem State.modStep_bus : (s.modStep k f).bus = s.bus := rfl
@[simp] theorem State.modStep_sec : (s.modStep k f).sec = s.sec := rfl
@[simp] theorem State.modStep_hasp : (s.modStep k f).hasp = s.hasp := rfl
@[simp] theorem State.modStep_ladder : (s.modStep k f).ladder = s.ladder := rfl
@[simp] theorem State.modStep_disabled : (s.modStep k f).disabled = s.disabled := rfl
@[simp] theorem State.modStep_portA : (s.modStep k f).portA = s.portA := rfl
@[simp] theorem State.modStep_portB : (s.modStep k f).portB = s.portB := rfl
@[simp] theorem State.modStep_portS : (s.modStep k f).portS = s.portS := rfl
@[simp] theorem State.modStep_flrBusy : (s.modStep k f).flrBusy = s.flrBusy := rfl
@[simp] theorem State.modStep_msix : (s.modStep k f).msix = s.msix := rfl
@[simp] theorem State.modStep_hostMemA : (s.modStep k f).hostMemA = s.hostMemA := rfl
@[simp] theorem State.modStep_hostMemB : (s.modStep k f).hostMemB = s.hostMemB := rfl
@[simp] theorem State.modStep_ctxs : (s.modStep k f).ctxs = s.ctxs := rfl
@[simp] theorem State.modStep_rings : (s.modStep k f).rings = s.rings := rfl
@[simp] theorem State.modStep_readQ : (s.modStep k f).readQ = s.readQ := rfl
@[simp] theorem State.modStep_posted : (s.modStep k f).posted = s.posted := rfl
@[simp] theorem State.modStep_heldBells : (s.modStep k f).heldBells = s.heldBells := rfl
@[simp] theorem State.modStep_latches : (s.modStep k f).latches = s.latches := rfl
@[simp] theorem State.modStep_eventLost : (s.modStep k f).eventLost = s.eventLost := rfl
@[simp] theorem State.modStep_loadBusy : (s.modStep k f).loadBusy = s.loadBusy := rfl
@[simp] theorem State.modStep_drafts : (s.modStep k f).drafts = s.drafts := rfl
@[simp] theorem State.modStep_kappas : (s.modStep k f).kappas = s.kappas := rfl
@[simp] theorem State.modStep_recipes : (s.modStep k f).recipes = s.recipes := rfl
@[simp] theorem State.modStep_sched : (s.modStep k f).sched = s.sched := rfl
@[simp] theorem State.modStep_ward : (s.modStep k f).ward = s.ward := rfl
@[simp] theorem State.modStep_wa : (s.modStep k f).wa = s.wa := rfl
@[simp] theorem State.modStep_wb : (s.modStep k f).wb = s.wb := rfl
@[simp] theorem State.modStep_links : (s.modStep k f).links = s.links := rfl
@[simp] theorem State.modStep_slots : (s.modStep k f).slots = s.slots := rfl
@[simp] theorem State.modStep_batches : (s.modStep k f).batches = s.batches := rfl
@[simp] theorem State.modStep_frame : (s.modStep k f).frame = s.frame := rfl
@[simp] theorem State.modStep_ctr : (s.modStep k f).ctr = s.ctr := rfl
@[simp] theorem State.modStep_freshCtr : (s.modStep k f).freshCtr = s.freshCtr := rfl
@[simp] theorem State.modStep_mon : (s.modStep k f).mon = s.mon := rfl

end modStep

section modSlot
variable (s : State) (k : Nat) (f : Slot → Slot)

@[simp] theorem State.modSlot_pending : (s.modSlot k f).pending = s.pending := rfl
@[simp] theorem State.modSlot_pins : (s.modSlot k f).pins = s.pins := rfl
@[simp] theorem State.modSlot_supply : (s.modSlot k f).supply = s.supply := rfl
@[simp] theorem State.modSlot_pwr : (s.modSlot k f).pwr = s.pwr := rfl
@[simp] theorem State.modSlot_time : (s.modSlot k f).time = s.time := rfl
@[simp] theorem State.modSlot_clk : (s.modSlot k f).clk = s.clk := rfl
@[simp] theorem State.modSlot_regs : (s.modSlot k f).regs = s.regs := rfl
@[simp] theorem State.modSlot_fnRegs : (s.modSlot k f).fnRegs = s.fnRegs := rfl
@[simp] theorem State.modSlot_bus : (s.modSlot k f).bus = s.bus := rfl
@[simp] theorem State.modSlot_sec : (s.modSlot k f).sec = s.sec := rfl
@[simp] theorem State.modSlot_hasp : (s.modSlot k f).hasp = s.hasp := rfl
@[simp] theorem State.modSlot_ladder : (s.modSlot k f).ladder = s.ladder := rfl
@[simp] theorem State.modSlot_disabled : (s.modSlot k f).disabled = s.disabled := rfl
@[simp] theorem State.modSlot_portA : (s.modSlot k f).portA = s.portA := rfl
@[simp] theorem State.modSlot_portB : (s.modSlot k f).portB = s.portB := rfl
@[simp] theorem State.modSlot_portS : (s.modSlot k f).portS = s.portS := rfl
@[simp] theorem State.modSlot_flrBusy : (s.modSlot k f).flrBusy = s.flrBusy := rfl
@[simp] theorem State.modSlot_msix : (s.modSlot k f).msix = s.msix := rfl
@[simp] theorem State.modSlot_hostMemA : (s.modSlot k f).hostMemA = s.hostMemA := rfl
@[simp] theorem State.modSlot_hostMemB : (s.modSlot k f).hostMemB = s.hostMemB := rfl
@[simp] theorem State.modSlot_ctxs : (s.modSlot k f).ctxs = s.ctxs := rfl
@[simp] theorem State.modSlot_rings : (s.modSlot k f).rings = s.rings := rfl
@[simp] theorem State.modSlot_readQ : (s.modSlot k f).readQ = s.readQ := rfl
@[simp] theorem State.modSlot_posted : (s.modSlot k f).posted = s.posted := rfl
@[simp] theorem State.modSlot_heldBells : (s.modSlot k f).heldBells = s.heldBells := rfl
@[simp] theorem State.modSlot_latches : (s.modSlot k f).latches = s.latches := rfl
@[simp] theorem State.modSlot_eventLost : (s.modSlot k f).eventLost = s.eventLost := rfl
@[simp] theorem State.modSlot_loadBusy : (s.modSlot k f).loadBusy = s.loadBusy := rfl
@[simp] theorem State.modSlot_drafts : (s.modSlot k f).drafts = s.drafts := rfl
@[simp] theorem State.modSlot_kappas : (s.modSlot k f).kappas = s.kappas := rfl
@[simp] theorem State.modSlot_recipes : (s.modSlot k f).recipes = s.recipes := rfl
@[simp] theorem State.modSlot_steps : (s.modSlot k f).steps = s.steps := rfl
@[simp] theorem State.modSlot_sched : (s.modSlot k f).sched = s.sched := rfl
@[simp] theorem State.modSlot_ward : (s.modSlot k f).ward = s.ward := rfl
@[simp] theorem State.modSlot_wa : (s.modSlot k f).wa = s.wa := rfl
@[simp] theorem State.modSlot_wb : (s.modSlot k f).wb = s.wb := rfl
@[simp] theorem State.modSlot_links : (s.modSlot k f).links = s.links := rfl
@[simp] theorem State.modSlot_slots : (s.modSlot k f).slots = modAt s.slots k f := rfl
@[simp] theorem State.modSlot_batches : (s.modSlot k f).batches = s.batches := rfl
@[simp] theorem State.modSlot_frame : (s.modSlot k f).frame = s.frame := rfl
@[simp] theorem State.modSlot_ctr : (s.modSlot k f).ctr = s.ctr := rfl
@[simp] theorem State.modSlot_freshCtr : (s.modSlot k f).freshCtr = s.freshCtr := rfl
@[simp] theorem State.modSlot_mon : (s.modSlot k f).mon = s.mon := rfl

end modSlot

section modBatch
variable (s : State) (k : Nat) (f : Batch → Batch)

@[simp] theorem State.modBatch_pending : (s.modBatch k f).pending = s.pending := rfl
@[simp] theorem State.modBatch_pins : (s.modBatch k f).pins = s.pins := rfl
@[simp] theorem State.modBatch_supply : (s.modBatch k f).supply = s.supply := rfl
@[simp] theorem State.modBatch_pwr : (s.modBatch k f).pwr = s.pwr := rfl
@[simp] theorem State.modBatch_time : (s.modBatch k f).time = s.time := rfl
@[simp] theorem State.modBatch_clk : (s.modBatch k f).clk = s.clk := rfl
@[simp] theorem State.modBatch_regs : (s.modBatch k f).regs = s.regs := rfl
@[simp] theorem State.modBatch_fnRegs : (s.modBatch k f).fnRegs = s.fnRegs := rfl
@[simp] theorem State.modBatch_bus : (s.modBatch k f).bus = s.bus := rfl
@[simp] theorem State.modBatch_sec : (s.modBatch k f).sec = s.sec := rfl
@[simp] theorem State.modBatch_hasp : (s.modBatch k f).hasp = s.hasp := rfl
@[simp] theorem State.modBatch_ladder : (s.modBatch k f).ladder = s.ladder := rfl
@[simp] theorem State.modBatch_disabled : (s.modBatch k f).disabled = s.disabled := rfl
@[simp] theorem State.modBatch_portA : (s.modBatch k f).portA = s.portA := rfl
@[simp] theorem State.modBatch_portB : (s.modBatch k f).portB = s.portB := rfl
@[simp] theorem State.modBatch_portS : (s.modBatch k f).portS = s.portS := rfl
@[simp] theorem State.modBatch_flrBusy : (s.modBatch k f).flrBusy = s.flrBusy := rfl
@[simp] theorem State.modBatch_msix : (s.modBatch k f).msix = s.msix := rfl
@[simp] theorem State.modBatch_hostMemA : (s.modBatch k f).hostMemA = s.hostMemA := rfl
@[simp] theorem State.modBatch_hostMemB : (s.modBatch k f).hostMemB = s.hostMemB := rfl
@[simp] theorem State.modBatch_ctxs : (s.modBatch k f).ctxs = s.ctxs := rfl
@[simp] theorem State.modBatch_rings : (s.modBatch k f).rings = s.rings := rfl
@[simp] theorem State.modBatch_readQ : (s.modBatch k f).readQ = s.readQ := rfl
@[simp] theorem State.modBatch_posted : (s.modBatch k f).posted = s.posted := rfl
@[simp] theorem State.modBatch_heldBells : (s.modBatch k f).heldBells = s.heldBells := rfl
@[simp] theorem State.modBatch_latches : (s.modBatch k f).latches = s.latches := rfl
@[simp] theorem State.modBatch_eventLost : (s.modBatch k f).eventLost = s.eventLost := rfl
@[simp] theorem State.modBatch_loadBusy : (s.modBatch k f).loadBusy = s.loadBusy := rfl
@[simp] theorem State.modBatch_drafts : (s.modBatch k f).drafts = s.drafts := rfl
@[simp] theorem State.modBatch_kappas : (s.modBatch k f).kappas = s.kappas := rfl
@[simp] theorem State.modBatch_recipes : (s.modBatch k f).recipes = s.recipes := rfl
@[simp] theorem State.modBatch_steps : (s.modBatch k f).steps = s.steps := rfl
@[simp] theorem State.modBatch_sched : (s.modBatch k f).sched = s.sched := rfl
@[simp] theorem State.modBatch_ward : (s.modBatch k f).ward = s.ward := rfl
@[simp] theorem State.modBatch_wa : (s.modBatch k f).wa = s.wa := rfl
@[simp] theorem State.modBatch_wb : (s.modBatch k f).wb = s.wb := rfl
@[simp] theorem State.modBatch_links : (s.modBatch k f).links = s.links := rfl
@[simp] theorem State.modBatch_slots : (s.modBatch k f).slots = s.slots := rfl
@[simp] theorem State.modBatch_batches : (s.modBatch k f).batches = modAt s.batches k f := rfl
@[simp] theorem State.modBatch_frame : (s.modBatch k f).frame = s.frame := rfl
@[simp] theorem State.modBatch_ctr : (s.modBatch k f).ctr = s.ctr := rfl
@[simp] theorem State.modBatch_freshCtr : (s.modBatch k f).freshCtr = s.freshCtr := rfl
@[simp] theorem State.modBatch_mon : (s.modBatch k f).mon = s.mon := rfl

end modBatch

section modLink
variable (s : State) (k : Nat) (f : Link → Link)

@[simp] theorem State.modLink_pending : (s.modLink k f).pending = s.pending := rfl
@[simp] theorem State.modLink_pins : (s.modLink k f).pins = s.pins := rfl
@[simp] theorem State.modLink_supply : (s.modLink k f).supply = s.supply := rfl
@[simp] theorem State.modLink_pwr : (s.modLink k f).pwr = s.pwr := rfl
@[simp] theorem State.modLink_time : (s.modLink k f).time = s.time := rfl
@[simp] theorem State.modLink_clk : (s.modLink k f).clk = s.clk := rfl
@[simp] theorem State.modLink_regs : (s.modLink k f).regs = s.regs := rfl
@[simp] theorem State.modLink_fnRegs : (s.modLink k f).fnRegs = s.fnRegs := rfl
@[simp] theorem State.modLink_bus : (s.modLink k f).bus = s.bus := rfl
@[simp] theorem State.modLink_sec : (s.modLink k f).sec = s.sec := rfl
@[simp] theorem State.modLink_hasp : (s.modLink k f).hasp = s.hasp := rfl
@[simp] theorem State.modLink_ladder : (s.modLink k f).ladder = s.ladder := rfl
@[simp] theorem State.modLink_disabled : (s.modLink k f).disabled = s.disabled := rfl
@[simp] theorem State.modLink_portA : (s.modLink k f).portA = s.portA := rfl
@[simp] theorem State.modLink_portB : (s.modLink k f).portB = s.portB := rfl
@[simp] theorem State.modLink_portS : (s.modLink k f).portS = s.portS := rfl
@[simp] theorem State.modLink_flrBusy : (s.modLink k f).flrBusy = s.flrBusy := rfl
@[simp] theorem State.modLink_msix : (s.modLink k f).msix = s.msix := rfl
@[simp] theorem State.modLink_hostMemA : (s.modLink k f).hostMemA = s.hostMemA := rfl
@[simp] theorem State.modLink_hostMemB : (s.modLink k f).hostMemB = s.hostMemB := rfl
@[simp] theorem State.modLink_ctxs : (s.modLink k f).ctxs = s.ctxs := rfl
@[simp] theorem State.modLink_rings : (s.modLink k f).rings = s.rings := rfl
@[simp] theorem State.modLink_readQ : (s.modLink k f).readQ = s.readQ := rfl
@[simp] theorem State.modLink_posted : (s.modLink k f).posted = s.posted := rfl
@[simp] theorem State.modLink_heldBells : (s.modLink k f).heldBells = s.heldBells := rfl
@[simp] theorem State.modLink_latches : (s.modLink k f).latches = s.latches := rfl
@[simp] theorem State.modLink_eventLost : (s.modLink k f).eventLost = s.eventLost := rfl
@[simp] theorem State.modLink_loadBusy : (s.modLink k f).loadBusy = s.loadBusy := rfl
@[simp] theorem State.modLink_drafts : (s.modLink k f).drafts = s.drafts := rfl
@[simp] theorem State.modLink_kappas : (s.modLink k f).kappas = s.kappas := rfl
@[simp] theorem State.modLink_recipes : (s.modLink k f).recipes = s.recipes := rfl
@[simp] theorem State.modLink_steps : (s.modLink k f).steps = s.steps := rfl
@[simp] theorem State.modLink_sched : (s.modLink k f).sched = s.sched := rfl
@[simp] theorem State.modLink_ward : (s.modLink k f).ward = s.ward := rfl
@[simp] theorem State.modLink_wa : (s.modLink k f).wa = s.wa := rfl
@[simp] theorem State.modLink_wb : (s.modLink k f).wb = s.wb := rfl
@[simp] theorem State.modLink_links : (s.modLink k f).links = modAt s.links k f := rfl
@[simp] theorem State.modLink_slots : (s.modLink k f).slots = s.slots := rfl
@[simp] theorem State.modLink_batches : (s.modLink k f).batches = s.batches := rfl
@[simp] theorem State.modLink_frame : (s.modLink k f).frame = s.frame := rfl
@[simp] theorem State.modLink_ctr : (s.modLink k f).ctr = s.ctr := rfl
@[simp] theorem State.modLink_freshCtr : (s.modLink k f).freshCtr = s.freshCtr := rfl
@[simp] theorem State.modLink_mon : (s.modLink k f).mon = s.mon := rfl

end modLink

section stageTo
variable (s : State) (n : Nat)

@[simp] theorem State.stageTo_pending : (s.stageTo n).pending = s.pending := rfl
@[simp] theorem State.stageTo_pins : (s.stageTo n).pins = s.pins := rfl
@[simp] theorem State.stageTo_supply : (s.stageTo n).supply = s.supply := rfl
@[simp] theorem State.stageTo_time : (s.stageTo n).time = s.time := rfl
@[simp] theorem State.stageTo_clk : (s.stageTo n).clk = s.clk := rfl
@[simp] theorem State.stageTo_regs : (s.stageTo n).regs = s.regs := rfl
@[simp] theorem State.stageTo_fnRegs : (s.stageTo n).fnRegs = s.fnRegs := rfl
@[simp] theorem State.stageTo_bus : (s.stageTo n).bus = s.bus := rfl
@[simp] theorem State.stageTo_sec : (s.stageTo n).sec = s.sec := rfl
@[simp] theorem State.stageTo_hasp : (s.stageTo n).hasp = s.hasp := rfl
@[simp] theorem State.stageTo_ladder : (s.stageTo n).ladder = s.ladder := rfl
@[simp] theorem State.stageTo_disabled : (s.stageTo n).disabled = s.disabled := rfl
@[simp] theorem State.stageTo_portA : (s.stageTo n).portA = s.portA := rfl
@[simp] theorem State.stageTo_portB : (s.stageTo n).portB = s.portB := rfl
@[simp] theorem State.stageTo_portS : (s.stageTo n).portS = s.portS := rfl
@[simp] theorem State.stageTo_flrBusy : (s.stageTo n).flrBusy = s.flrBusy := rfl
@[simp] theorem State.stageTo_msix : (s.stageTo n).msix = s.msix := rfl
@[simp] theorem State.stageTo_hostMemA : (s.stageTo n).hostMemA = s.hostMemA := rfl
@[simp] theorem State.stageTo_hostMemB : (s.stageTo n).hostMemB = s.hostMemB := rfl
@[simp] theorem State.stageTo_ctxs : (s.stageTo n).ctxs = s.ctxs := rfl
@[simp] theorem State.stageTo_rings : (s.stageTo n).rings = s.rings := rfl
@[simp] theorem State.stageTo_readQ : (s.stageTo n).readQ = s.readQ := rfl
@[simp] theorem State.stageTo_posted : (s.stageTo n).posted = s.posted := rfl
@[simp] theorem State.stageTo_heldBells : (s.stageTo n).heldBells = s.heldBells := rfl
@[simp] theorem State.stageTo_latches : (s.stageTo n).latches = s.latches := rfl
@[simp] theorem State.stageTo_eventLost : (s.stageTo n).eventLost = s.eventLost := rfl
@[simp] theorem State.stageTo_loadBusy : (s.stageTo n).loadBusy = s.loadBusy := rfl
@[simp] theorem State.stageTo_drafts : (s.stageTo n).drafts = s.drafts := rfl
@[simp] theorem State.stageTo_kappas : (s.stageTo n).kappas = s.kappas := rfl
@[simp] theorem State.stageTo_recipes : (s.stageTo n).recipes = s.recipes := rfl
@[simp] theorem State.stageTo_steps : (s.stageTo n).steps = s.steps := rfl
@[simp] theorem State.stageTo_sched : (s.stageTo n).sched = s.sched := rfl
@[simp] theorem State.stageTo_ward : (s.stageTo n).ward = s.ward := rfl
@[simp] theorem State.stageTo_wa : (s.stageTo n).wa = s.wa := rfl
@[simp] theorem State.stageTo_wb : (s.stageTo n).wb = s.wb := rfl
@[simp] theorem State.stageTo_links : (s.stageTo n).links = s.links := rfl
@[simp] theorem State.stageTo_slots : (s.stageTo n).slots = s.slots := rfl
@[simp] theorem State.stageTo_batches : (s.stageTo n).batches = s.batches := rfl
@[simp] theorem State.stageTo_frame : (s.stageTo n).frame = s.frame := rfl
@[simp] theorem State.stageTo_ctr : (s.stageTo n).ctr = s.ctr := rfl
@[simp] theorem State.stageTo_freshCtr : (s.stageTo n).freshCtr = s.freshCtr := rfl
@[simp] theorem State.stageTo_mon : (s.stageTo n).mon = s.mon := rfl

end stageTo

section assertFault
variable (s : State)

@[simp] theorem State.assertFault_pending : (s.assertFault).pending = s.pending := rfl
@[simp] theorem State.assertFault_pins : (s.assertFault).pins = { s.pins with faultN := true, alive := false, aliveRun := false } := rfl
@[simp] theorem State.assertFault_supply : (s.assertFault).supply = s.supply := rfl
@[simp] theorem State.assertFault_pwr : (s.assertFault).pwr = s.pwr := rfl
@[simp] theorem State.assertFault_time : (s.assertFault).time = s.time := rfl
@[simp] theorem State.assertFault_clk : (s.assertFault).clk = s.clk := rfl
@[simp] theorem State.assertFault_regs : (s.assertFault).regs = s.regs := rfl
@[simp] theorem State.assertFault_fnRegs : (s.assertFault).fnRegs = s.fnRegs := rfl
@[simp] theorem State.assertFault_bus : (s.assertFault).bus = s.bus := rfl
@[simp] theorem State.assertFault_sec : (s.assertFault).sec = s.sec := rfl
@[simp] theorem State.assertFault_hasp : (s.assertFault).hasp = s.hasp := rfl
@[simp] theorem State.assertFault_ladder : (s.assertFault).ladder = s.ladder := rfl
@[simp] theorem State.assertFault_disabled : (s.assertFault).disabled = s.disabled := rfl
@[simp] theorem State.assertFault_portA : (s.assertFault).portA = s.portA := rfl
@[simp] theorem State.assertFault_portB : (s.assertFault).portB = s.portB := rfl
@[simp] theorem State.assertFault_portS : (s.assertFault).portS = s.portS := rfl
@[simp] theorem State.assertFault_flrBusy : (s.assertFault).flrBusy = s.flrBusy := rfl
@[simp] theorem State.assertFault_msix : (s.assertFault).msix = s.msix := rfl
@[simp] theorem State.assertFault_hostMemA : (s.assertFault).hostMemA = s.hostMemA := rfl
@[simp] theorem State.assertFault_hostMemB : (s.assertFault).hostMemB = s.hostMemB := rfl
@[simp] theorem State.assertFault_ctxs : (s.assertFault).ctxs = s.ctxs := rfl
@[simp] theorem State.assertFault_rings : (s.assertFault).rings = s.rings := rfl
@[simp] theorem State.assertFault_readQ : (s.assertFault).readQ = s.readQ := rfl
@[simp] theorem State.assertFault_posted : (s.assertFault).posted = s.posted := rfl
@[simp] theorem State.assertFault_heldBells : (s.assertFault).heldBells = s.heldBells := rfl
@[simp] theorem State.assertFault_latches : (s.assertFault).latches = s.latches := rfl
@[simp] theorem State.assertFault_eventLost : (s.assertFault).eventLost = s.eventLost := rfl
@[simp] theorem State.assertFault_loadBusy : (s.assertFault).loadBusy = s.loadBusy := rfl
@[simp] theorem State.assertFault_drafts : (s.assertFault).drafts = s.drafts := rfl
@[simp] theorem State.assertFault_kappas : (s.assertFault).kappas = s.kappas := rfl
@[simp] theorem State.assertFault_recipes : (s.assertFault).recipes = s.recipes := rfl
@[simp] theorem State.assertFault_steps : (s.assertFault).steps = s.steps := rfl
@[simp] theorem State.assertFault_sched : (s.assertFault).sched = s.sched := rfl
@[simp] theorem State.assertFault_ward : (s.assertFault).ward = s.ward := rfl
@[simp] theorem State.assertFault_wa : (s.assertFault).wa = s.wa := rfl
@[simp] theorem State.assertFault_wb : (s.assertFault).wb = s.wb := rfl
@[simp] theorem State.assertFault_links : (s.assertFault).links = s.links := rfl
@[simp] theorem State.assertFault_slots : (s.assertFault).slots = s.slots := rfl
@[simp] theorem State.assertFault_batches : (s.assertFault).batches = s.batches := rfl
@[simp] theorem State.assertFault_frame : (s.assertFault).frame = s.frame := rfl
@[simp] theorem State.assertFault_ctr : (s.assertFault).ctr = s.ctr := rfl
@[simp] theorem State.assertFault_freshCtr : (s.assertFault).freshCtr = s.freshCtr := rfl
@[simp] theorem State.assertFault_mon : (s.assertFault).mon = s.mon := rfl

end assertFault

section answer
variable (s : State) (w : Word)

@[simp] theorem State.answer_pending : (s.answer w).pending = s.pending := rfl
@[simp] theorem State.answer_pins : (s.answer w).pins = s.pins := rfl
@[simp] theorem State.answer_supply : (s.answer w).supply = s.supply := rfl
@[simp] theorem State.answer_pwr : (s.answer w).pwr = s.pwr := rfl
@[simp] theorem State.answer_time : (s.answer w).time = s.time := rfl
@[simp] theorem State.answer_clk : (s.answer w).clk = s.clk := rfl
@[simp] theorem State.answer_regs : (s.answer w).regs = s.regs := rfl
@[simp] theorem State.answer_fnRegs : (s.answer w).fnRegs = s.fnRegs := rfl
@[simp] theorem State.answer_bus : (s.answer w).bus = { s.bus with data := w } := rfl
@[simp] theorem State.answer_sec : (s.answer w).sec = s.sec := rfl
@[simp] theorem State.answer_hasp : (s.answer w).hasp = s.hasp := rfl
@[simp] theorem State.answer_ladder : (s.answer w).ladder = s.ladder := rfl
@[simp] theorem State.answer_disabled : (s.answer w).disabled = s.disabled := rfl
@[simp] theorem State.answer_portA : (s.answer w).portA = s.portA := rfl
@[simp] theorem State.answer_portB : (s.answer w).portB = s.portB := rfl
@[simp] theorem State.answer_portS : (s.answer w).portS = s.portS := rfl
@[simp] theorem State.answer_flrBusy : (s.answer w).flrBusy = s.flrBusy := rfl
@[simp] theorem State.answer_msix : (s.answer w).msix = s.msix := rfl
@[simp] theorem State.answer_hostMemA : (s.answer w).hostMemA = s.hostMemA := rfl
@[simp] theorem State.answer_hostMemB : (s.answer w).hostMemB = s.hostMemB := rfl
@[simp] theorem State.answer_ctxs : (s.answer w).ctxs = s.ctxs := rfl
@[simp] theorem State.answer_rings : (s.answer w).rings = s.rings := rfl
@[simp] theorem State.answer_readQ : (s.answer w).readQ = s.readQ := rfl
@[simp] theorem State.answer_posted : (s.answer w).posted = s.posted := rfl
@[simp] theorem State.answer_heldBells : (s.answer w).heldBells = s.heldBells := rfl
@[simp] theorem State.answer_latches : (s.answer w).latches = s.latches := rfl
@[simp] theorem State.answer_eventLost : (s.answer w).eventLost = s.eventLost := rfl
@[simp] theorem State.answer_loadBusy : (s.answer w).loadBusy = s.loadBusy := rfl
@[simp] theorem State.answer_drafts : (s.answer w).drafts = s.drafts := rfl
@[simp] theorem State.answer_kappas : (s.answer w).kappas = s.kappas := rfl
@[simp] theorem State.answer_recipes : (s.answer w).recipes = s.recipes := rfl
@[simp] theorem State.answer_steps : (s.answer w).steps = s.steps := rfl
@[simp] theorem State.answer_sched : (s.answer w).sched = s.sched := rfl
@[simp] theorem State.answer_ward : (s.answer w).ward = s.ward := rfl
@[simp] theorem State.answer_wa : (s.answer w).wa = s.wa := rfl
@[simp] theorem State.answer_wb : (s.answer w).wb = s.wb := rfl
@[simp] theorem State.answer_links : (s.answer w).links = s.links := rfl
@[simp] theorem State.answer_slots : (s.answer w).slots = s.slots := rfl
@[simp] theorem State.answer_batches : (s.answer w).batches = s.batches := rfl
@[simp] theorem State.answer_frame : (s.answer w).frame = s.frame := rfl
@[simp] theorem State.answer_ctr : (s.answer w).ctr = s.ctr := rfl
@[simp] theorem State.answer_freshCtr : (s.answer w).freshCtr = s.freshCtr := rfl
@[simp] theorem State.answer_mon : (s.answer w).mon = s.mon := rfl

end answer

section tmbDone
variable (s : State) (n : Nat)

@[simp] theorem State.tmbDone_pending : (s.tmbDone n).pending = s.pending := rfl
@[simp] theorem State.tmbDone_pins : (s.tmbDone n).pins = s.pins := rfl
@[simp] theorem State.tmbDone_supply : (s.tmbDone n).supply = s.supply := rfl
@[simp] theorem State.tmbDone_pwr : (s.tmbDone n).pwr = s.pwr := rfl
@[simp] theorem State.tmbDone_time : (s.tmbDone n).time = s.time := rfl
@[simp] theorem State.tmbDone_clk : (s.tmbDone n).clk = s.clk := rfl
@[simp] theorem State.tmbDone_regs : (s.tmbDone n).regs = s.regs := rfl
@[simp] theorem State.tmbDone_fnRegs : (s.tmbDone n).fnRegs = s.fnRegs := rfl
@[simp] theorem State.tmbDone_bus : (s.tmbDone n).bus = s.bus := rfl
@[simp] theorem State.tmbDone_hasp : (s.tmbDone n).hasp = s.hasp := rfl
@[simp] theorem State.tmbDone_ladder : (s.tmbDone n).ladder = s.ladder := rfl
@[simp] theorem State.tmbDone_disabled : (s.tmbDone n).disabled = s.disabled := rfl
@[simp] theorem State.tmbDone_portA : (s.tmbDone n).portA = s.portA := rfl
@[simp] theorem State.tmbDone_portB : (s.tmbDone n).portB = s.portB := rfl
@[simp] theorem State.tmbDone_portS : (s.tmbDone n).portS = s.portS := rfl
@[simp] theorem State.tmbDone_flrBusy : (s.tmbDone n).flrBusy = s.flrBusy := rfl
@[simp] theorem State.tmbDone_msix : (s.tmbDone n).msix = s.msix := rfl
@[simp] theorem State.tmbDone_hostMemA : (s.tmbDone n).hostMemA = s.hostMemA := rfl
@[simp] theorem State.tmbDone_hostMemB : (s.tmbDone n).hostMemB = s.hostMemB := rfl
@[simp] theorem State.tmbDone_ctxs : (s.tmbDone n).ctxs = s.ctxs := rfl
@[simp] theorem State.tmbDone_rings : (s.tmbDone n).rings = s.rings := rfl
@[simp] theorem State.tmbDone_readQ : (s.tmbDone n).readQ = s.readQ := rfl
@[simp] theorem State.tmbDone_posted : (s.tmbDone n).posted = s.posted := rfl
@[simp] theorem State.tmbDone_heldBells : (s.tmbDone n).heldBells = s.heldBells := rfl
@[simp] theorem State.tmbDone_latches : (s.tmbDone n).latches = s.latches := rfl
@[simp] theorem State.tmbDone_eventLost : (s.tmbDone n).eventLost = s.eventLost := rfl
@[simp] theorem State.tmbDone_loadBusy : (s.tmbDone n).loadBusy = s.loadBusy := rfl
@[simp] theorem State.tmbDone_drafts : (s.tmbDone n).drafts = s.drafts := rfl
@[simp] theorem State.tmbDone_kappas : (s.tmbDone n).kappas = s.kappas := rfl
@[simp] theorem State.tmbDone_recipes : (s.tmbDone n).recipes = s.recipes := rfl
@[simp] theorem State.tmbDone_steps : (s.tmbDone n).steps = s.steps := rfl
@[simp] theorem State.tmbDone_sched : (s.tmbDone n).sched = s.sched := rfl
@[simp] theorem State.tmbDone_ward : (s.tmbDone n).ward = s.ward := rfl
@[simp] theorem State.tmbDone_wa : (s.tmbDone n).wa = s.wa := rfl
@[simp] theorem State.tmbDone_wb : (s.tmbDone n).wb = s.wb := rfl
@[simp] theorem State.tmbDone_links : (s.tmbDone n).links = s.links := rfl
@[simp] theorem State.tmbDone_slots : (s.tmbDone n).slots = s.slots := rfl
@[simp] theorem State.tmbDone_batches : (s.tmbDone n).batches = s.batches := rfl
@[simp] theorem State.tmbDone_frame : (s.tmbDone n).frame = s.frame := rfl
@[simp] theorem State.tmbDone_ctr : (s.tmbDone n).ctr = s.ctr := rfl
@[simp] theorem State.tmbDone_freshCtr : (s.tmbDone n).freshCtr = s.freshCtr := rfl
@[simp] theorem State.tmbDone_mon : (s.tmbDone n).mon = s.mon := rfl

end tmbDone

section setFnReg
variable (s : State) (g : FnId) (o : Nat) (w : Word)

@[simp] theorem State.setFnReg_pending : (s.setFnReg g o w).pending = s.pending := rfl
@[simp] theorem State.setFnReg_pins : (s.setFnReg g o w).pins = s.pins := rfl
@[simp] theorem State.setFnReg_supply : (s.setFnReg g o w).supply = s.supply := rfl
@[simp] theorem State.setFnReg_pwr : (s.setFnReg g o w).pwr = s.pwr := rfl
@[simp] theorem State.setFnReg_time : (s.setFnReg g o w).time = s.time := rfl
@[simp] theorem State.setFnReg_clk : (s.setFnReg g o w).clk = s.clk := rfl
@[simp] theorem State.setFnReg_regs : (s.setFnReg g o w).regs = s.regs := rfl
@[simp] theorem State.setFnReg_bus : (s.setFnReg g o w).bus = s.bus := rfl
@[simp] theorem State.setFnReg_sec : (s.setFnReg g o w).sec = s.sec := rfl
@[simp] theorem State.setFnReg_hasp : (s.setFnReg g o w).hasp = s.hasp := rfl
@[simp] theorem State.setFnReg_ladder : (s.setFnReg g o w).ladder = s.ladder := rfl
@[simp] theorem State.setFnReg_disabled : (s.setFnReg g o w).disabled = s.disabled := rfl
@[simp] theorem State.setFnReg_portA : (s.setFnReg g o w).portA = s.portA := rfl
@[simp] theorem State.setFnReg_portB : (s.setFnReg g o w).portB = s.portB := rfl
@[simp] theorem State.setFnReg_portS : (s.setFnReg g o w).portS = s.portS := rfl
@[simp] theorem State.setFnReg_flrBusy : (s.setFnReg g o w).flrBusy = s.flrBusy := rfl
@[simp] theorem State.setFnReg_msix : (s.setFnReg g o w).msix = s.msix := rfl
@[simp] theorem State.setFnReg_hostMemA : (s.setFnReg g o w).hostMemA = s.hostMemA := rfl
@[simp] theorem State.setFnReg_hostMemB : (s.setFnReg g o w).hostMemB = s.hostMemB := rfl
@[simp] theorem State.setFnReg_ctxs : (s.setFnReg g o w).ctxs = s.ctxs := rfl
@[simp] theorem State.setFnReg_rings : (s.setFnReg g o w).rings = s.rings := rfl
@[simp] theorem State.setFnReg_readQ : (s.setFnReg g o w).readQ = s.readQ := rfl
@[simp] theorem State.setFnReg_posted : (s.setFnReg g o w).posted = s.posted := rfl
@[simp] theorem State.setFnReg_heldBells : (s.setFnReg g o w).heldBells = s.heldBells := rfl
@[simp] theorem State.setFnReg_latches : (s.setFnReg g o w).latches = s.latches := rfl
@[simp] theorem State.setFnReg_eventLost : (s.setFnReg g o w).eventLost = s.eventLost := rfl
@[simp] theorem State.setFnReg_loadBusy : (s.setFnReg g o w).loadBusy = s.loadBusy := rfl
@[simp] theorem State.setFnReg_drafts : (s.setFnReg g o w).drafts = s.drafts := rfl
@[simp] theorem State.setFnReg_kappas : (s.setFnReg g o w).kappas = s.kappas := rfl
@[simp] theorem State.setFnReg_recipes : (s.setFnReg g o w).recipes = s.recipes := rfl
@[simp] theorem State.setFnReg_steps : (s.setFnReg g o w).steps = s.steps := rfl
@[simp] theorem State.setFnReg_sched : (s.setFnReg g o w).sched = s.sched := rfl
@[simp] theorem State.setFnReg_ward : (s.setFnReg g o w).ward = s.ward := rfl
@[simp] theorem State.setFnReg_wa : (s.setFnReg g o w).wa = s.wa := rfl
@[simp] theorem State.setFnReg_wb : (s.setFnReg g o w).wb = s.wb := rfl
@[simp] theorem State.setFnReg_links : (s.setFnReg g o w).links = s.links := rfl
@[simp] theorem State.setFnReg_slots : (s.setFnReg g o w).slots = s.slots := rfl
@[simp] theorem State.setFnReg_batches : (s.setFnReg g o w).batches = s.batches := rfl
@[simp] theorem State.setFnReg_frame : (s.setFnReg g o w).frame = s.frame := rfl
@[simp] theorem State.setFnReg_ctr : (s.setFnReg g o w).ctr = s.ctr := rfl
@[simp] theorem State.setFnReg_freshCtr : (s.setFnReg g o w).freshCtr = s.freshCtr := rfl
@[simp] theorem State.setFnReg_mon : (s.setFnReg g o w).mon = s.mon := rfl

end setFnReg

section bumpPart
variable (s : State) (p k : Nat)

@[simp] theorem bumpPart_pending : (bumpPart s p k).pending = s.pending := rfl
@[simp] theorem bumpPart_pins : (bumpPart s p k).pins = s.pins := rfl
@[simp] theorem bumpPart_supply : (bumpPart s p k).supply = s.supply := rfl
@[simp] theorem bumpPart_pwr : (bumpPart s p k).pwr = s.pwr := rfl
@[simp] theorem bumpPart_time : (bumpPart s p k).time = s.time := rfl
@[simp] theorem bumpPart_clk : (bumpPart s p k).clk = s.clk := rfl
@[simp] theorem bumpPart_regs : (bumpPart s p k).regs = s.regs := rfl
@[simp] theorem bumpPart_fnRegs : (bumpPart s p k).fnRegs = s.fnRegs := rfl
@[simp] theorem bumpPart_bus : (bumpPart s p k).bus = s.bus := rfl
@[simp] theorem bumpPart_sec : (bumpPart s p k).sec = s.sec := rfl
@[simp] theorem bumpPart_hasp : (bumpPart s p k).hasp = s.hasp := rfl
@[simp] theorem bumpPart_ladder : (bumpPart s p k).ladder = s.ladder := rfl
@[simp] theorem bumpPart_disabled : (bumpPart s p k).disabled = s.disabled := rfl
@[simp] theorem bumpPart_portA : (bumpPart s p k).portA = s.portA := rfl
@[simp] theorem bumpPart_portB : (bumpPart s p k).portB = s.portB := rfl
@[simp] theorem bumpPart_portS : (bumpPart s p k).portS = s.portS := rfl
@[simp] theorem bumpPart_flrBusy : (bumpPart s p k).flrBusy = s.flrBusy := rfl
@[simp] theorem bumpPart_msix : (bumpPart s p k).msix = s.msix := rfl
@[simp] theorem bumpPart_hostMemA : (bumpPart s p k).hostMemA = s.hostMemA := rfl
@[simp] theorem bumpPart_hostMemB : (bumpPart s p k).hostMemB = s.hostMemB := rfl
@[simp] theorem bumpPart_ctxs : (bumpPart s p k).ctxs = s.ctxs := rfl
@[simp] theorem bumpPart_rings : (bumpPart s p k).rings = s.rings := rfl
@[simp] theorem bumpPart_readQ : (bumpPart s p k).readQ = s.readQ := rfl
@[simp] theorem bumpPart_posted : (bumpPart s p k).posted = s.posted := rfl
@[simp] theorem bumpPart_heldBells : (bumpPart s p k).heldBells = s.heldBells := rfl
@[simp] theorem bumpPart_latches : (bumpPart s p k).latches = s.latches := rfl
@[simp] theorem bumpPart_eventLost : (bumpPart s p k).eventLost = s.eventLost := rfl
@[simp] theorem bumpPart_loadBusy : (bumpPart s p k).loadBusy = s.loadBusy := rfl
@[simp] theorem bumpPart_drafts : (bumpPart s p k).drafts = s.drafts := rfl
@[simp] theorem bumpPart_kappas : (bumpPart s p k).kappas = s.kappas := rfl
@[simp] theorem bumpPart_recipes : (bumpPart s p k).recipes = s.recipes := rfl
@[simp] theorem bumpPart_steps : (bumpPart s p k).steps = s.steps := rfl
@[simp] theorem bumpPart_sched : (bumpPart s p k).sched = s.sched := rfl
@[simp] theorem bumpPart_ward : (bumpPart s p k).ward = s.ward := rfl
@[simp] theorem bumpPart_wa : (bumpPart s p k).wa = s.wa := rfl
@[simp] theorem bumpPart_wb : (bumpPart s p k).wb = s.wb := rfl
@[simp] theorem bumpPart_links : (bumpPart s p k).links = s.links := rfl
@[simp] theorem bumpPart_slots : (bumpPart s p k).slots = s.slots := rfl
@[simp] theorem bumpPart_batches : (bumpPart s p k).batches = s.batches := rfl
@[simp] theorem bumpPart_frame : (bumpPart s p k).frame = s.frame := rfl
@[simp] theorem bumpPart_freshCtr : (bumpPart s p k).freshCtr = s.freshCtr := rfl
@[simp] theorem bumpPart_mon : (bumpPart s p k).mon = s.mon := rfl

end bumpPart

section modWeft
variable (s : State) (d : Weft) (f : WeftDie → WeftDie)

@[simp] theorem State.modWeft_pending : (s.modWeft d f).pending = s.pending := by cases d <;> rfl
@[simp] theorem State.modWeft_pins : (s.modWeft d f).pins = s.pins := by cases d <;> rfl
@[simp] theorem State.modWeft_supply : (s.modWeft d f).supply = s.supply := by cases d <;> rfl
@[simp] theorem State.modWeft_pwr : (s.modWeft d f).pwr = s.pwr := by cases d <;> rfl
@[simp] theorem State.modWeft_time : (s.modWeft d f).time = s.time := by cases d <;> rfl
@[simp] theorem State.modWeft_clk : (s.modWeft d f).clk = s.clk := by cases d <;> rfl
@[simp] theorem State.modWeft_regs : (s.modWeft d f).regs = s.regs := by cases d <;> rfl
@[simp] theorem State.modWeft_fnRegs : (s.modWeft d f).fnRegs = s.fnRegs := by cases d <;> rfl
@[simp] theorem State.modWeft_bus : (s.modWeft d f).bus = s.bus := by cases d <;> rfl
@[simp] theorem State.modWeft_sec : (s.modWeft d f).sec = s.sec := by cases d <;> rfl
@[simp] theorem State.modWeft_hasp : (s.modWeft d f).hasp = s.hasp := by cases d <;> rfl
@[simp] theorem State.modWeft_ladder : (s.modWeft d f).ladder = s.ladder := by cases d <;> rfl
@[simp] theorem State.modWeft_disabled : (s.modWeft d f).disabled = s.disabled := by cases d <;> rfl
@[simp] theorem State.modWeft_portA : (s.modWeft d f).portA = s.portA := by cases d <;> rfl
@[simp] theorem State.modWeft_portB : (s.modWeft d f).portB = s.portB := by cases d <;> rfl
@[simp] theorem State.modWeft_portS : (s.modWeft d f).portS = s.portS := by cases d <;> rfl
@[simp] theorem State.modWeft_flrBusy : (s.modWeft d f).flrBusy = s.flrBusy := by cases d <;> rfl
@[simp] theorem State.modWeft_msix : (s.modWeft d f).msix = s.msix := by cases d <;> rfl
@[simp] theorem State.modWeft_hostMemA : (s.modWeft d f).hostMemA = s.hostMemA := by cases d <;> rfl
@[simp] theorem State.modWeft_hostMemB : (s.modWeft d f).hostMemB = s.hostMemB := by cases d <;> rfl
@[simp] theorem State.modWeft_ctxs : (s.modWeft d f).ctxs = s.ctxs := by cases d <;> rfl
@[simp] theorem State.modWeft_rings : (s.modWeft d f).rings = s.rings := by cases d <;> rfl
@[simp] theorem State.modWeft_readQ : (s.modWeft d f).readQ = s.readQ := by cases d <;> rfl
@[simp] theorem State.modWeft_posted : (s.modWeft d f).posted = s.posted := by cases d <;> rfl
@[simp] theorem State.modWeft_heldBells : (s.modWeft d f).heldBells = s.heldBells := by cases d <;> rfl
@[simp] theorem State.modWeft_latches : (s.modWeft d f).latches = s.latches := by cases d <;> rfl
@[simp] theorem State.modWeft_eventLost : (s.modWeft d f).eventLost = s.eventLost := by cases d <;> rfl
@[simp] theorem State.modWeft_loadBusy : (s.modWeft d f).loadBusy = s.loadBusy := by cases d <;> rfl
@[simp] theorem State.modWeft_drafts : (s.modWeft d f).drafts = s.drafts := by cases d <;> rfl
@[simp] theorem State.modWeft_kappas : (s.modWeft d f).kappas = s.kappas := by cases d <;> rfl
@[simp] theorem State.modWeft_recipes : (s.modWeft d f).recipes = s.recipes := by cases d <;> rfl
@[simp] theorem State.modWeft_steps : (s.modWeft d f).steps = s.steps := by cases d <;> rfl
@[simp] theorem State.modWeft_sched : (s.modWeft d f).sched = s.sched := by cases d <;> rfl
@[simp] theorem State.modWeft_ward : (s.modWeft d f).ward = s.ward := by cases d <;> rfl
@[simp] theorem State.modWeft_links : (s.modWeft d f).links = s.links := by cases d <;> rfl
@[simp] theorem State.modWeft_slots : (s.modWeft d f).slots = s.slots := by cases d <;> rfl
@[simp] theorem State.modWeft_batches : (s.modWeft d f).batches = s.batches := by cases d <;> rfl
@[simp] theorem State.modWeft_frame : (s.modWeft d f).frame = s.frame := by cases d <;> rfl
@[simp] theorem State.modWeft_ctr : (s.modWeft d f).ctr = s.ctr := by cases d <;> rfl
@[simp] theorem State.modWeft_freshCtr : (s.modWeft d f).freshCtr = s.freshCtr := by cases d <;> rfl
@[simp] theorem State.modWeft_mon : (s.modWeft d f).mon = s.mon := by cases d <;> rfl
@[simp] theorem State.modWeft_a_wa : (s.modWeft .a f).wa = f s.wa := rfl
@[simp] theorem State.modWeft_a_wb : (s.modWeft .a f).wb = s.wb := rfl
@[simp] theorem State.modWeft_b_wa : (s.modWeft .b f).wa = s.wa := rfl
@[simp] theorem State.modWeft_b_wb : (s.modWeft .b f).wb = f s.wb := rfl
@[simp] theorem State.weft_modWeft : (s.modWeft d f).weft d = f (s.weft d) := by cases d <;> rfl
@[simp] theorem State.weft_modWeft_other : (s.modWeft d f).weft (otherDie d) = s.weft (otherDie d) := by cases d <;> rfl

end modWeft

section modHport
variable (s : State) (p : HostPort) (f : PortSt → PortSt)

@[simp] theorem State.modHport_pending : (s.modHport p f).pending = s.pending := by cases p <;> rfl
@[simp] theorem State.modHport_pins : (s.modHport p f).pins = s.pins := by cases p <;> rfl
@[simp] theorem State.modHport_supply : (s.modHport p f).supply = s.supply := by cases p <;> rfl
@[simp] theorem State.modHport_pwr : (s.modHport p f).pwr = s.pwr := by cases p <;> rfl
@[simp] theorem State.modHport_time : (s.modHport p f).time = s.time := by cases p <;> rfl
@[simp] theorem State.modHport_clk : (s.modHport p f).clk = s.clk := by cases p <;> rfl
@[simp] theorem State.modHport_regs : (s.modHport p f).regs = s.regs := by cases p <;> rfl
@[simp] theorem State.modHport_fnRegs : (s.modHport p f).fnRegs = s.fnRegs := by cases p <;> rfl
@[simp] theorem State.modHport_bus : (s.modHport p f).bus = s.bus := by cases p <;> rfl
@[simp] theorem State.modHport_sec : (s.modHport p f).sec = s.sec := by cases p <;> rfl
@[simp] theorem State.modHport_hasp : (s.modHport p f).hasp = s.hasp := by cases p <;> rfl
@[simp] theorem State.modHport_ladder : (s.modHport p f).ladder = s.ladder := by cases p <;> rfl
@[simp] theorem State.modHport_disabled : (s.modHport p f).disabled = s.disabled := by cases p <;> rfl
@[simp] theorem State.modHport_portS : (s.modHport p f).portS = s.portS := by cases p <;> rfl
@[simp] theorem State.modHport_flrBusy : (s.modHport p f).flrBusy = s.flrBusy := by cases p <;> rfl
@[simp] theorem State.modHport_msix : (s.modHport p f).msix = s.msix := by cases p <;> rfl
@[simp] theorem State.modHport_hostMemA : (s.modHport p f).hostMemA = s.hostMemA := by cases p <;> rfl
@[simp] theorem State.modHport_hostMemB : (s.modHport p f).hostMemB = s.hostMemB := by cases p <;> rfl
@[simp] theorem State.modHport_ctxs : (s.modHport p f).ctxs = s.ctxs := by cases p <;> rfl
@[simp] theorem State.modHport_rings : (s.modHport p f).rings = s.rings := by cases p <;> rfl
@[simp] theorem State.modHport_readQ : (s.modHport p f).readQ = s.readQ := by cases p <;> rfl
@[simp] theorem State.modHport_posted : (s.modHport p f).posted = s.posted := by cases p <;> rfl
@[simp] theorem State.modHport_heldBells : (s.modHport p f).heldBells = s.heldBells := by cases p <;> rfl
@[simp] theorem State.modHport_latches : (s.modHport p f).latches = s.latches := by cases p <;> rfl
@[simp] theorem State.modHport_eventLost : (s.modHport p f).eventLost = s.eventLost := by cases p <;> rfl
@[simp] theorem State.modHport_loadBusy : (s.modHport p f).loadBusy = s.loadBusy := by cases p <;> rfl
@[simp] theorem State.modHport_drafts : (s.modHport p f).drafts = s.drafts := by cases p <;> rfl
@[simp] theorem State.modHport_kappas : (s.modHport p f).kappas = s.kappas := by cases p <;> rfl
@[simp] theorem State.modHport_recipes : (s.modHport p f).recipes = s.recipes := by cases p <;> rfl
@[simp] theorem State.modHport_steps : (s.modHport p f).steps = s.steps := by cases p <;> rfl
@[simp] theorem State.modHport_sched : (s.modHport p f).sched = s.sched := by cases p <;> rfl
@[simp] theorem State.modHport_ward : (s.modHport p f).ward = s.ward := by cases p <;> rfl
@[simp] theorem State.modHport_wa : (s.modHport p f).wa = s.wa := by cases p <;> rfl
@[simp] theorem State.modHport_wb : (s.modHport p f).wb = s.wb := by cases p <;> rfl
@[simp] theorem State.modHport_links : (s.modHport p f).links = s.links := by cases p <;> rfl
@[simp] theorem State.modHport_slots : (s.modHport p f).slots = s.slots := by cases p <;> rfl
@[simp] theorem State.modHport_batches : (s.modHport p f).batches = s.batches := by cases p <;> rfl
@[simp] theorem State.modHport_frame : (s.modHport p f).frame = s.frame := by cases p <;> rfl
@[simp] theorem State.modHport_ctr : (s.modHport p f).ctr = s.ctr := by cases p <;> rfl
@[simp] theorem State.modHport_freshCtr : (s.modHport p f).freshCtr = s.freshCtr := by cases p <;> rfl
@[simp] theorem State.modHport_mon : (s.modHport p f).mon = s.mon := by cases p <;> rfl
@[simp] theorem State.hport_modHport : (s.modHport p f).hport p = f (s.hport p) := by cases p <;> rfl

end modHport

end Machine

end Sys2Proof
end

