-- ==== Sys2Proof/Laws/Counters.lean ====
section
/-! SUPPORT. Counting changes counter values and sticky overflow registers, and nothing else. -/

namespace Sys2Proof

namespace Machine

/-- One register write sets that register and nothing else. -/
theorem State.sets_setReg (s : State) (o : Nat) (w : Word) : (s.setReg o w).sets s o w :=
  ⟨State.reg_setReg_self s o w, fun p hp => by simp [State.reg_setReg, Ne.symm hp], rfl⟩

theorem State.sameButCounters.refl (s : State) : s.sameButCounters s := ⟨rfl, fun _ _ => rfl⟩

theorem State.sameButCounters.trans {a b c : State} (h : a.sameButCounters b) (k : b.sameButCounters c) : a.sameButCounters c := by
  refine ⟨?_, fun o ho => (h.2 o ho).trans (k.2 o ho)⟩
  obtain ⟨h, -⟩ := h
  obtain ⟨k, -⟩ := k
  rw [← k, ← h]

theorem State.sameButCounters.of_ctr (s : State) (x : Counters) : State.sameButCounters { s with ctr := x } s :=
  ⟨rfl, fun _ _ => rfl⟩

theorem State.sameButCounters.of_setReg (s : State) (o : Nat) (w : Word) (ho : isOverflowReg o = true) :
    (s.setReg o w).sameButCounters s := by
  refine ⟨rfl, fun p hp => ?_⟩
  have : o ≠ p := by rintro rfl; simp_all
  simp [State.reg_setReg, this]

theorem isOverflowReg_prog (d : Nat) (hd : d < 3) : isOverflowReg (oCtrOvf d) = true := by
  interval_cases d <;> decide

theorem isOverflowReg_aon (d : Nat) (hd : d < 3) : isOverflowReg (oCtrOvfAon d) = true := by
  interval_cases d <;> decide

theorem bumpProg_onlyCounters (s : State) (d i n : Nat) (hd : d < 3) : (bumpProg s d i n).sameButCounters s := by
  simp only [bumpProg]
  split
  · exact .of_ctr _ _
  · exact .trans (.of_setReg _ _ _ (isOverflowReg_prog d hd)) (.of_ctr _ _)

theorem bumpAon_onlyCounters (s : State) (d j n : Nat) (hd : d < 3) : (bumpAon s d j n).sameButCounters s := by
  simp only [bumpAon]
  split
  · exact .of_ctr _ _
  · exact .trans (.of_setReg _ _ _ (isOverflowReg_aon d hd)) (.of_ctr _ _)

theorem bumpPart_onlyCounters (s : State) (p k : Nat) : (bumpPart s p k).sameButCounters s := .of_ctr _ _

/-- A fold of steps that keep everything but counters keeps everything but counters. -/
theorem State.sameButCounters.foldl {α : Type} (f : State → α → State) (l : List α) (h : ∀ t x, (f t x).sameButCounters t) :
    ∀ s, (l.foldl f s).sameButCounters s := by
  induction l with
  | nil => exact fun s => .refl s
  | cons a t ih => exact fun s => .trans (ih (f s a)) (h s a)

theorem countEv_onlyCounters (s : State) (e : Ev) (he : e.die < 3) : (countEv s e).sameButCounters s := by
  unfold countEv
  refine State.sameButCounters.foldl _ _ (fun t i => ?_) s
  split
  · exact bumpProg_onlyCounters t _ _ _ he
  · exact .refl t

/-- What only counters separate: the one state with the other's counters, progress counters and registers. -/
theorem State.sameButCounters.eq {a b : State} (h : a.sameButCounters b) : a = { b with regs := a.regs, ctr := a.ctr, mon := a.mon } := by
  have := h.1; rw [← this]

@[simp] theorem ctrGet_ctrPut (l : List (Nat × BitVec 48)) (k : Nat) (v : BitVec 48) : ctrGet (ctrPut l k v) k = v := by
  unfold ctrGet ctrPut
  split
  · simp [lookupN_eraseN, *]
  · simp

/-- The value of an always-on counter after an addition (R514). -/
theorem bumpAon_value (s : State) (d j n : Nat) :
    ctrGet (bumpAon s d j n).ctr.aon (16 * d + j) = BitVec.ofNat 48 ((ctrGet s.ctr.aon (16 * d + j)).toNat + n) := by
  simp only [bumpAon]
  split <;> simp

/-- The Loom clocks of a Tick clock change only counters. -/
theorem loomRun_onlyCounters (s : State) (d : Weft) : (loomRun s d).sameButCounters s := by
  have hd : dieNo d < 3 := by cases d <;> decide
  simp only [loomRun]
  split
  all_goals
    split
    · exact .trans (bumpAon_onlyCounters _ _ _ _ hd) (countEv_onlyCounters _ _ hd)
    · exact .refl _

end Machine

end Sys2Proof
end

