-- ==== Sys2Proof/Laws/Hasp.lean ====
section
/-! SUPPORT. What raising a source does when its reaction sets are empty: a capture, and nothing outside Hasp and the counters. -/

namespace Sys2Proof

namespace Machine

theorem State.sameButHealth.refl (s : State) : s.sameButHealth s := ⟨rfl, fun _ _ _ => rfl⟩

theorem State.sameButHealth.trans {a b c : State} (h : a.sameButHealth b) (k : b.sameButHealth c) : a.sameButHealth c := by
  refine ⟨?_, fun o ho hf => (h.2 o ho hf).trans (k.2 o ho hf)⟩
  obtain ⟨h, -⟩ := h
  obtain ⟨k, -⟩ := k
  rw [← k, ← h]

theorem State.sameButHealth.of_counters {a b : State} (h : a.sameButCounters b) : a.sameButHealth b := by
  refine ⟨?_, fun o ho _ => h.2 o ho⟩
  obtain ⟨h, -⟩ := h
  rw [← h]

theorem State.sameButHealth.of_hasp (s : State) (x : Hasp) : State.sameButHealth { s with hasp := x } s := ⟨rfl, fun _ _ _ => rfl⟩

/-- What only Hasp and counters separate. -/
theorem State.sameButHealth.eq {a b : State} (h : a.sameButHealth b) : a = { b with hasp := a.hasp, regs := a.regs, ctr := a.ctr, mon := a.mon } := by
  have := h.1; rw [← this]

theorem State.noteFirst_frame (s : State) (n : Nat) : (s.noteFirst n).sameButHealth s := by
  simp only [State.noteFirst]
  split
  · refine ⟨rfl, fun o _ ho => ?_⟩
    rw [State.reg_setReg, if_neg (Ne.symm ho)]
    rfl
  · exact .refl s

theorem State.sameButCounters.hasp {a b : State} (h : a.sameButCounters b) : a.hasp = b.hasp := by
  have := h.1; rw [← this]

theorem State.sameButCounters.time {a b : State} (h : a.sameButCounters b) : a.time = b.time := by
  have := h.1; rw [← this]

theorem oSrcCfg_plain (n : Nat) (h : n < 768) : isOverflowReg (oSrcCfg n) = false ∧ oSrcCfg n ≠ oFirst := by
  have : ∀ n, n < 768 → isOverflowReg (oSrcCfg n) = false ∧ oSrcCfg n ≠ oFirst := by
    intro n hn
    simp only [isOverflowReg, oSrcCfg, oFirst, oCtrOvf, oCtrOvfAon]
    refine ⟨?_, by omega⟩
    simp
    omega
  exact this n h

/-- Firing an empty reaction set does nothing (R462). -/
@[simp] theorem State.fire_none (s : State) (n : Nat) : s.fire n 0 = s := by
  simp [State.fire, State.fireReset, bitN]

theorem State.sameButHealth.reg {a b : State} (h : a.sameButHealth b) (o : Nat) (ho : isOverflowReg o = false) (hf : o ≠ oFirst) :
    a.reg o = b.reg o := h.2 o ho hf

/-- Raising a silent source captures it now and changes nothing but Hasp, HSP_FIRST and counters (R459, R460). -/
theorem State.raise_silent (s : State) (n : Nat) (c : Capture) (h : s.silent n) :
    (s.raise n c).sameButHealth s ∧ (s.raise n c).captured n c ∧
      ∀ m, m ≠ n → (s.raise n c).hasp.raised.contains m = s.hasp.raised.contains m := by
  obtain ⟨hn, hr, hc⟩ := h
  have hset : s.firstSet n = 0 := by simp [State.firstSet, hc, fld, bitsN]
  have hset2 : s.secondSet n = 0 := by simp [State.secondSet, hc, fld, bitsN]
  have hgr : s.graceTicks n = 0 := by simp [State.graceTicks, hc, fld, bitsN, ceilDiv]
  simp only [State.raise, hr, Bool.false_eq_true, if_false, hset, hset2, hgr, State.fire_none, if_true]
  set s1 := s.noteFirst n with hs1
  set s2 : State := { s1 with hasp := { s1.hasp with
      caps := insertN s1.hasp.caps n { c with time := s.time.now, count := 0 }
      raised := addSet s1.hasp.raised n
      secondFired := delSet s1.hasp.secondFired n } } with hs2
  set s3 := bumpAon (countEv s2 (Ev.plain 0 0x0C1 (some (n / 256)) 1)) 0 12 1 with hs3
  have f1 : s1.sameButHealth s := State.noteFirst_frame s n
  have f2 : s2.sameButHealth s1 := .of_hasp _ _
  have g3 : s3.sameButCounters s2 :=
    .trans (bumpAon_onlyCounters _ _ _ _ (by decide)) (countEv_onlyCounters _ _ (by simp [Ev.plain]))
  have f3 : s3.sameButHealth s := .trans (.of_counters g3) (.trans f2 f1)
  have hh1 : s1.hasp.raised = s.hasp.raised := by
    rw [hs1]; simp only [State.noteFirst]; split <;> simp
  have ht : s3.time = s.time := by have := f3.1; rw [← this]
  have hh3 : s3.hasp = s2.hasp := g3.hasp
  have hnot : s3.hasp.secondFired.contains n = false := by
    rw [hh3]; simp [hs2]
  simp only [State.fireNext, hnot, Bool.false_eq_true, if_false, State.fire_none]
  refine ⟨.trans (.of_hasp _ _) f3, ⟨?_, ?_⟩, ?_⟩
  · simp [hh3, hs2]
  · simp [hh3, hs2, ht]
  · intro m hm
    simp [hh3, hs2, hh1, hm]

end Machine

end Sys2Proof
end

