-- ==== Sys2Proof/Laws/Memory.lean ====
section
/-! SUPPORT. Laws of byte memories: every operation keeps the canonical form, a read after a write gives the byte, and every other byte
stays. -/

namespace Sys2Proof

namespace Machine

theorem Memory.wf_cons (c : Host.Cell) (m : Memory) :
    Memory.wf (c :: m) = (c.2 != 0 && (match m with | [] => true | d :: _ => decide (c.1 < d.1)) && Memory.wf m) := by
  cases m <;> simp [Memory.wf, Bool.and_assoc]

theorem Memory.wf_tail (c : Host.Cell) (m : Memory) (h : Memory.wf (c :: m) = true) : Memory.wf m = true := by
  rw [Memory.wf_cons] at h; simp_all

/-- In a canonical memory every entry lies above the first. -/
theorem Memory.wf_above (c : Host.Cell) (m : Memory) (h : Memory.wf (c :: m) = true) : ∀ d ∈ m, c.1 < d.1 := by
  induction m generalizing c with
  | nil => simp
  | cons e t ih =>
    intro d hd
    have hw := Memory.wf_tail _ _ h
    rw [Memory.wf_cons] at h
    simp at h
    rcases List.mem_cons.mp hd with rfl | hd
    · exact h.1.2
    · exact lt_trans h.1.2 (ih e hw d hd)

theorem Memory.wf_cons_of (c : Host.Cell) (m : Memory) (h0 : c.2 ≠ 0) (h : Memory.wf m = true) (hl : ∀ d ∈ m, c.1 < d.1) :
    Memory.wf (c :: m) = true := by
  rw [Memory.wf_cons]
  have hb : (c.2 != 0) = true := bne_iff_ne.mpr h0
  cases m with
  | nil => rw [hb]; rfl
  | cons e t => rw [hb, h]; simp [hl e]

theorem Memory.write_keys (m : Memory) (a : Nat) (b : Byte) : ∀ d ∈ Memory.write m a b, d.1 = a ∨ ∃ e ∈ m, e.1 = d.1 := by
  induction m with
  | nil => intro d; simp only [Memory.write]; split <;> simp_all
  | cons c t ih =>
    intro d hd
    simp only [Memory.write] at hd
    split_ifs at hd
    · exact Or.inr ⟨d, hd, rfl⟩
    · rcases List.mem_cons.mp hd with rfl | hd
      · exact Or.inl rfl
      · exact Or.inr ⟨d, hd, rfl⟩
    · exact Or.inr ⟨d, List.mem_cons_of_mem _ hd, rfl⟩
    · rcases List.mem_cons.mp hd with rfl | hd
      · exact Or.inl rfl
      · exact Or.inr ⟨d, List.mem_cons_of_mem _ hd, rfl⟩
    · rcases List.mem_cons.mp hd with rfl | hd
      · exact Or.inr ⟨d, List.mem_cons_self, rfl⟩
      · rcases ih d hd with h | ⟨e, he, h⟩
        · exact Or.inl h
        · exact Or.inr ⟨e, List.mem_cons_of_mem _ he, h⟩

/-- A byte write keeps the canonical form. -/
theorem Memory.wf_write (m : Memory) (a : Nat) (b : Byte) (h : Memory.wf m = true) : Memory.wf (Memory.write m a b) = true := by
  induction m with
  | nil => simp only [Memory.write]; split <;> simp_all [Memory.wf]
  | cons c t ih =>
    have hab := Memory.wf_above c t h
    have ht := Memory.wf_tail c t h
    have h0 : c.2 ≠ 0 := by rw [Memory.wf_cons] at h; simp_all
    simp only [Memory.write]
    split_ifs with h1 h2 h3 h4
    · exact h
    · refine Memory.wf_cons_of _ _ h2 h ?_
      intro d hd
      rcases List.mem_cons.mp hd with rfl | hd
      · exact h1
      · exact lt_trans h1 (hab d hd)
    · exact ht
    · exact Memory.wf_cons_of _ _ h4 ht (by rw [h3]; exact hab)
    · refine Memory.wf_cons_of _ _ h0 (ih ht) ?_
      intro d hd
      rcases Memory.write_keys t a b d hd with hk | ⟨e, he, hk⟩
      · rw [hk]; omega
      · rw [← hk]; exact hab e he

/-- Writing bytes keeps the canonical form. -/
theorem Memory.wf_writeBytes (bs : List Byte) (m : Memory) (a : Nat) (h : Memory.wf m = true) :
    Memory.wf (Memory.writeBytes m a bs) = true := by
  induction bs generalizing m a with
  | nil => exact h
  | cons b t ih => exact ih _ _ (Memory.wf_write m a b h)

/-- Any selection of a canonical memory is canonical. -/
theorem Memory.wf_filter (p : Host.Cell → Bool) (m : Memory) (h : Memory.wf m = true) : Memory.wf (m.filter p) = true := by
  induction m with
  | nil => rfl
  | cons c t ih =>
    have ht := ih (Memory.wf_tail c t h)
    by_cases hp : p c = true
    · rw [List.filter_cons_of_pos hp]
      have h0 : c.2 ≠ 0 := by rw [Memory.wf_cons] at h; simp_all
      exact Memory.wf_cons_of _ _ h0 ht (fun d hd => Memory.wf_above c t h d (List.mem_filter.mp hd).1)
    · rw [List.filter_cons_of_neg hp]; exact ht

/-- Zeroing keeps the canonical form. -/
theorem Memory.wf_zero (m : Memory) (a n : Nat) (h : Memory.wf m = true) : Memory.wf (Memory.zero m a n) = true :=
  Memory.wf_filter _ m h

theorem Memory.read_none (m : Memory) (a : Nat) (h : ∀ d ∈ m, d.1 ≠ a) : Memory.read m a = 0 := by
  induction m with
  | nil => rfl
  | cons c t ih =>
    have hc : c.1 ≠ a := h c List.mem_cons_self
    have ht := ih (fun d hd => h d (List.mem_cons_of_mem _ hd))
    simp [Memory.read, hc, ht]

/-- A read after a byte write of a canonical memory: the byte written, and every other byte as before. -/
theorem Memory.read_write (m : Memory) (a : Nat) (b : Byte) (x : Nat) (h : Memory.wf m = true) :
    Memory.read (Memory.write m a b) x = if x = a then b else Memory.read m x := by
  induction m with
  | nil =>
    by_cases hb : b = 0
    · subst hb; simp [Memory.write, Memory.read]
    · simp only [Memory.write, hb, if_false, Memory.read]
      by_cases hx : x = a
      · simp [hx]
      · simp [hx, Ne.symm hx]
  | cons c t ih =>
    have hab := Memory.wf_above c t h
    have ih := ih (Memory.wf_tail c t h)
    have hlow : ∀ y, y < c.1 → Memory.read (c :: t) y = 0 := by
      intro y hy
      refine Memory.read_none _ _ (fun d hd => ?_)
      rcases List.mem_cons.mp hd with rfl | hd
      · omega
      · have := hab d hd; omega
    have hn : Memory.read t c.1 = 0 := Memory.read_none _ _ (fun d hd => by have := hab d hd; omega)
    simp only [Memory.write]
    rcases lt_trichotomy a c.1 with h1 | h1 | h1
    · rw [if_pos h1]
      by_cases hx : x = a
      · subst hx
        rw [if_pos rfl]
        split
        · rw [hlow x h1]; exact Eq.symm ‹b = 0›
        · simp [Memory.read]
      · rw [if_neg hx]
        split
        · rfl
        · simp [Memory.read, Ne.symm hx]
    · subst h1
      rw [if_neg (Nat.lt_irrefl _), if_pos rfl]
      by_cases hx : x = c.1
      · subst hx
        rw [if_pos rfl]
        split
        · rw [hn]; exact Eq.symm ‹b = 0›
        · simp [Memory.read]
      · rw [if_neg hx]
        split <;> simp [Memory.read, Ne.symm hx]
    · rw [if_neg (by omega), if_neg (by omega)]
      simp only [Memory.read, ih]
      by_cases hx : c.1 = x
      · simp [hx, show ¬ x = a by omega]
      · simp [hx]

/-- A read after writing bytes: inside the range the byte written, outside it the old one. -/
theorem Memory.read_writeBytes (bs : List Byte) (m : Memory) (a x : Nat) (h : Memory.wf m = true) :
    Memory.read (Memory.writeBytes m a bs) x = if a ≤ x ∧ x < a + bs.length then bs.getD (x - a) 0 else Memory.read m x := by
  induction bs generalizing m a with
  | nil => simp [Memory.writeBytes]
  | cons b t ih =>
    simp only [Memory.writeBytes]
    rw [ih _ _ (Memory.wf_write m a b h), Memory.read_write m a b x h]
    by_cases hx : x = a
    · subst hx; simp
    · simp only [hx, if_false, List.length_cons]
      by_cases hr : a + 1 ≤ x ∧ x < a + 1 + t.length
      · rw [if_pos hr, if_pos (by omega)]
        obtain ⟨k, hk⟩ : ∃ k, x = a + 1 + k := ⟨x - (a + 1), by omega⟩
        subst hk
        simp [show a + 1 + k - a = k + 1 by omega]
      · rw [if_neg hr, if_neg (by omega)]

/-- A read after zeroing a range. -/
theorem Memory.read_zero (m : Memory) (a n x : Nat) (h : Memory.wf m = true) :
    Memory.read (Memory.zero m a n) x = if a ≤ x ∧ x < a + n then 0 else Memory.read m x := by
  unfold Memory.zero
  induction m with
  | nil => simp [Memory.read]
  | cons c t ih =>
    have ih := ih (Memory.wf_tail c t h)
    by_cases hc : a ≤ c.1 ∧ c.1 < a + n
    · rw [List.filter_cons_of_neg (by simp [hc]), ih]
      split
      · rfl
      · rename_i hx
        have : c.1 ≠ x := by rintro rfl; exact hx hc
        simp [Memory.read, this]
    · rw [List.filter_cons_of_pos (by simp; omega)]
      simp only [Memory.read, ih]
      split
      · rename_i h1; subst h1; simp [hc]
      · rfl

end Machine

end Sys2Proof
end

