-- ==== Sys2Proof/Laws/Sched.lean ====
section
/-! SUPPORT. Choice points and checks with nothing to choose. -/

namespace Sys2Proof

namespace Machine

theorem State.pick_nil (s : State) (h : s.steps = []) : s.pick = none := by
  simp [State.pick, State.lcChoices, State.firstBe, earliest, h]

theorem State.chooseN_noSteps (n : Nat) (s : State) (h : s.noSteps) : s.chooseN n = s := by
  obtain ⟨h1, h2, h3⟩ := h
  cases n with
  | zero => rfl
  | succ n =>
    have key : { s with sched := { s.sched with nextStart := none } } = s := by conv_lhs => rw [← h3]
    simpa [State.chooseN, h2, State.pick_nil s h1] using key

/-- A choice point without steps does nothing. -/
theorem State.choose_noSteps (s : State) (h : s.noSteps) : s.choose = s := by
  unfold State.choose
  split
  · exact State.chooseN_noSteps _ s h
  · rfl

/-- No proof input enters where none is due. -/
theorem State.proofEnter_none (s : State) (ha : s.wa.checks.phase ≠ .due) (hb : s.wb.checks.phase ≠ .due) : s.proofEnter = s := by
  have ca : s.proofCanEnter .a = false := by simp [State.proofCanEnter, State.weft, ha]
  have cb : s.proofCanEnter .b = false := by simp [State.proofCanEnter, State.weft, hb]
  simp [State.proofEnter, ca, cb]

theorem State.afterChecks_none (s : State) (h : s.noSteps) (ha : s.wa.checks.phase ≠ .due) (hb : s.wb.checks.phase ≠ .due) :
    s.afterChecks = s := by
  simp [State.afterChecks, State.proofEnter_none s ha hb, h.2.1, State.choose_noSteps s h]

/-- Recomputation without steps does nothing (R288). -/
theorem State.recompute_noSteps (s : State) (h : s.steps = []) : s.recompute = { s with sched := { s.sched with retest := false } } := by
  have h1 : s.recost = s := by
    have h2 : { s with steps := ([] : List Step) } = s := by rw [← h]
    simpa [State.recost, h] using h2
  simp [State.recompute, h1, State.failing, State.admittedLc, failingRows, h]

/-- A retest that nothing asked for does nothing. -/
@[simp] theorem State.retestNow_of_not (s : State) (h : s.sched.retest = false) : s.retestNow = s := by
  simp [State.retestNow, h]

/-- A step that is not being delivered spoils nothing. -/
theorem State.spoil_of_ne (s : State) (t : Step) (h : t.stage ≠ .delivering) : s.spoil t = s := by
  simp [State.spoil, h]

/-- Where no step is being delivered, nothing is spoilt. -/
theorem State.spoilAll_of_none (s : State) (h : ∀ x ∈ s.steps, x.stage ≠ .delivering) : s.spoilAll = s := by
  have key : ∀ l : List Step, (∀ x ∈ l, x.stage ≠ .delivering) → l.foldl State.spoil s = s := by
    intro l
    induction l with
    | nil => intro _; rfl
    | cons x l ih =>
      intro hl
      rw [List.foldl_cons, State.spoil_of_ne s x (hl x List.mem_cons_self)]
      exact ih fun y hy => hl y (List.mem_cons_of_mem x hy)
  exact key s.steps h

/-- A delivery cut short writes to the hosts' memories and draws free values; it leaves everything else. -/
theorem State.spoil_frame (s : State) (t : Step) :
    { s.spoil t with hostMemA := s.hostMemA, hostMemB := s.hostMemB, freshCtr := s.freshCtr } = s := by
  have one : ∀ (u : State) (p : HostPort) (a n : Nat),
      { u.spoilHost p a n with hostMemA := u.hostMemA, hostMemB := u.hostMemB, freshCtr := u.freshCtr } = u := by
    intro u p a n; cases p <;> rfl
  have two : ∀ (u : State) (p q : HostPort) (a b n m : Nat),
      { (u.spoilHost p a n).spoilHost q b m with hostMemA := u.hostMemA, hostMemB := u.hostMemB, freshCtr := u.freshCtr } = u := by
    intro u p q a b n m; cases p <;> cases q <;> rfl
  unfold State.spoil
  split
  · rfl
  · dsimp only
    split
    · split
      · exact two ..
      · exact one ..
    · exact one ..

end Machine

end Sys2Proof
end

