-- ==== Sys2Proof/Laws/Settings.lean ====
section
/-! SUPPORT. The acceptance checks of the frame settings and of the arbitration wheels decide the rules they stand for. -/

namespace Sys2Proof

namespace Machine

theorem frameOk_iff (s : State) (frame phase slot start : Nat) :
    s.frameOk frame phase slot start = true ↔ s.frameHolds frame phase slot start := by
  have w : (List.range 5).all (fun k => decide (fld (s.reg (oProgWin k)) 15 0 ≤ frame / 8)) = true ↔
      ∀ k, k < 5 → 8 * fld (s.reg (oProgWin k)) 15 0 ≤ frame := by
    rw [List.all_eq_true]
    constructor
    · intro h k hk
      have := of_decide_eq_true (h k (List.mem_range.2 hk))
      omega
    · intro h k hk
      have := h k (List.mem_range.1 hk)
      exact decide_eq_true (by omega)
  unfold State.frameOk State.frameHolds
  simp only [Bool.and_eq_true, decide_eq_true_eq, w]
  have q : Machine.ceilDiv frame 16 = (frame + 15) / 16 := rfl
  constructor
  · rintro ⟨⟨⟨⟨⟨⟨a, b⟩, c⟩, d⟩, e⟩, f⟩, g⟩
    exact ⟨a, b, c, d, by omega, by omega, g⟩
  · rintro ⟨a, b, c, d, e, f, g⟩
    exact ⟨⟨⟨⟨⟨⟨a, b⟩, c⟩, d⟩, by omega⟩, by omega⟩, g⟩

theorem wheelOk_iff (a b : Word) : wheelOk a b = true ↔ wheelHolds a b := by
  have k : (wheelKinds a).all (fun k => decide (k ≤ 4) || k == 15) = true ↔
      ∀ i, i < 8 → fld a (4 * i + 3) (4 * i) < 5 ∨ 14 < fld a (4 * i + 3) (4 * i) := by
    have le : ∀ i, fld a (4 * i + 3) (4 * i) < 16 := by
      intro i
      have e : 4 * i + 3 + 1 - 4 * i = 4 := by omega
      show a.toNat / 2 ^ (4 * i) % 2 ^ (4 * i + 3 + 1 - 4 * i) < 16
      rw [e]
      exact Nat.mod_lt _ (by decide)
    rw [List.all_eq_true]
    simp only [wheelKinds, List.mem_map, List.mem_range, forall_exists_index, and_imp, forall_apply_eq_imp_iff₂, Bool.or_eq_true,
      decide_eq_true_eq, beq_iff_eq]
    constructor
    · intro h i hi
      have := h i hi
      omega
    · intro h i hi
      have := h i hi
      have := le i
      omega
  have c : ((wheelKinds a ++ wheelKinds b).filter (fun k => k == 0 || k == 3)).length = wheelTurns a + wheelTurns b := by
    simp [wheelKinds, wheelTurns, List.filter_append, List.filter_map, Function.comp_def]
  unfold wheelOk wheelHolds
  rw [Bool.and_eq_true, decide_eq_true_eq, k, c]

end Machine

end Sys2Proof
end

