-- ==== Sys2Proof/Laws/Shuttle.lean ====
section
/-! SUPPORT. What the register updates of a shuttle core change, and when the command of a row acts on a pair (R109 to R118). -/

namespace Sys2Proof

namespace Machine

@[simp] theorem Pair.setX_f (p : Pair) (i : Nat) (v : Dword) : (p.setX i v).f = p.f := by unfold Pair.setX; split <;> rfl
@[simp] theorem Pair.setX_v (p : Pair) (i : Nat) (v : Dword) : (p.setX i v).v = p.v := by unfold Pair.setX; split <;> rfl
@[simp] theorem Pair.setX_pc (p : Pair) (i : Nat) (v : Dword) : (p.setX i v).pc = p.pc := by unfold Pair.setX; split <;> rfl
@[simp] theorem Pair.setX_frm (p : Pair) (i : Nat) (v : Dword) : (p.setX i v).frm = p.frm := by unfold Pair.setX; split <;> rfl
@[simp] theorem Pair.setX_fflags (p : Pair) (i : Nat) (v : Dword) : (p.setX i v).fflags = p.fflags := by
  unfold Pair.setX; split <;> rfl
@[simp] theorem Pair.setX_vcsr (p : Pair) (i : Nat) (v : Dword) : (p.setX i v).vcsr = p.vcsr := by unfold Pair.setX; split <;> rfl
@[simp] theorem Pair.setX_imem (p : Pair) (i : Nat) (v : Dword) : (p.setX i v).imem = p.imem := by unfold Pair.setX; split <;> rfl
@[simp] theorem Pair.setX_dmem (p : Pair) (i : Nat) (v : Dword) : (p.setX i v).dmem = p.dmem := by unfold Pair.setX; split <;> rfl
@[simp] theorem Pair.setX_run (p : Pair) (i : Nat) (v : Dword) : (p.setX i v).run = p.run := by unfold Pair.setX; split <;> rfl
@[simp] theorem Pair.setX_resv (p : Pair) (i : Nat) (v : Dword) : (p.setX i v).resv = p.resv := by unfold Pair.setX; split <;> rfl
@[simp] theorem Pair.setF_x (p : Pair) (w i v : Nat) : (p.setF w i v).x = p.x := rfl
@[simp] theorem Pair.setF_v (p : Pair) (w i v : Nat) : (p.setF w i v).v = p.v := rfl
@[simp] theorem Pair.setF_pc (p : Pair) (w i v : Nat) : (p.setF w i v).pc = p.pc := rfl
@[simp] theorem Pair.flag_x (p : Pair) (n : FFlags) : (p.flag n).x = p.x := rfl
@[simp] theorem Pair.flag_f (p : Pair) (n : FFlags) : (p.flag n).f = p.f := rfl
@[simp] theorem Pair.flag_pc (p : Pair) (n : FFlags) : (p.flag n).pc = p.pc := rfl
@[simp] theorem Pair.putElem_x (p : Pair) (n b i v : Nat) : (p.putElem n b i v).x = p.x := rfl
@[simp] theorem Pair.putElem_f (p : Pair) (n b i v : Nat) : (p.putElem n b i v).f = p.f := rfl
@[simp] theorem Pair.putElem_pc (p : Pair) (n b i v : Nat) : (p.putElem n b i v).pc = p.pc := rfl

/-- An integer register after a write: x0 stays zero. -/
theorem Pair.getX_setX (p : Pair) (h : p.x.length = 32) (i j : Nat) (v : Dword) :
    (p.setX i v).getX j = if j % 32 = i % 32 ∧ i % 32 ≠ 0 then v else p.getX j := by
  have hj : j % 32 < 32 := Nat.mod_lt _ (by decide)
  have hi : i % 32 < 32 := Nat.mod_lt _ (by decide)
  by_cases h0 : i % 32 = 0
  · simp [Pair.setX, h0]
  · by_cases hz : j % 32 = 0
    · have : ¬ (j % 32 = i % 32) := by omega
      simp [Pair.getX, hz]
      omega
    · by_cases he : j % 32 = i % 32
      · simp [Pair.setX, Pair.getX, h0, he, List.getD, h, hi]
      · have hn : ¬ i % 32 = j % 32 := fun q => he q.symm
        simp [Pair.setX, Pair.getX, h0, hz, he, hn, List.getD]

/-- The command of a row acts on a pair as `go` says when the word at the pc spells it, and leaves the state as it is else. -/
theorem State.onRow_eq (s : State) (n : Nat) (mv : Move) (i : Instr) (go : Pair → Running → Step → State) (p : Pair) (h : s.pair? n = some p)
    (hp : p.spells n mv i = true) : s.onRow n mv i go = s.onPair n go := by
  unfold State.onRow State.onPair
  simp only [h]
  cases p.active with
  | none => rfl
  | some r =>
    simp only
    cases s.step? r.step with
    | none => rfl
    | some t => simp [hp]

end Machine

end Sys2Proof
end

