-- ==== Sys2Proof/Tests/Slice0.lean ====
section
/-! SUPPORT. Small states, the smoke tests of the operand checks, the manual's worked examples, one step, and for each statement of
Certificates/Slice0 states and operands that meet its hypotheses. -/

namespace Sys2Proof

open Machine

namespace Tests

set_option Elab.async false

/-- A Weft die in service, with every group in Run. -/
def dieUp : WeftDie :=
  { WeftDie.reset with
    loom := .at .run, shuttle := .at .run, reedFinish := .at .run, beamGrp := .at .run, inService := true, zeroed := true
    chans := List.replicate 12 { train := 2, edc := 0, corrected := 0 } }

/-- The block ready, both host links and the supervisor link up, nothing to do. -/
def up : State :=
  { State.reset with
    pins := { State.reset.pins with pwrEn := true, faultN := false, aliveRun := true, wakeN := false, perstA := false, perstB := false, perstS := false }
    pwr := { State.reset.pwr with phase := .mission, rails := 7, firmware := true, heartbeat := true, stage := 7, ready := true, injected := true }
    clk := { creel := true, fabric := true, weftA := 7, weftB := 7, losses := 0 }
    portA := { PortSt.reset with up := true, width := 8, speed := 5, mps := 256 }
    portB := { PortSt.reset with up := true, width := 8, speed := 5, mps := 256 }
    portS := { PortSt.reset with up := true, width := 1, speed := 2 }
    links := List.replicate 8 { state := 2, degraded := false, modulesUp := 3, recent := [] }
    wa := dieUp, wb := dieUp }

/-- A state at a device time. -/
def at' (n : Nat) (s : State) : State := { s with time := { s.time with now := BitVec.ofNat 64 n } }

/-- The supervisor port's link is down. -/
def noSup (s : State) : State := { s with portS := PortSt.reset }

/-- Every port's link is down. -/
def noPorts (s : State) : State := { s with portA := PortSt.reset, portB := PortSt.reset, portS := PortSt.reset }

/-- A firmware image of one segment, one zero byte, that passes checks 1 and 5 of R485. -/
def goodImage : List Byte :=
  leBytes 4 0x464D5746 ++ leBytes 2 1 ++ leBytes 2 1 ++ leBytes 8 1 ++ leBytes 4 9025 ++ List.replicate 304 0 ++ leBytes 4 9024 ++ leBytes 4 1
    ++ List.replicate 4 0 ++ leBytes 32 0x1da0af1706a31185763837b33f1d90782c0a78bbe644a59c987ab3ff9c0b346e

/-- Source n selects no reaction. -/
def quiet (n : Nat) (s : State) : State := s.setReg (oSrcCfg n) 0

/-- An owner record that passes the checks of R493, for dies whose identities are 0 and a transport key of 0. -/
def goodOwner : List Byte :=
  leBytes 8 0x524E574F ++ leBytes 4 1 ++ List.replicate 72 0 ++ leBytes 16 0x11654ab2c955ef3f988f59c6f86edfb6

/-- Function 0 of host port A, and of host port B. -/
def fA : FnId := { port := .hostA, num := 0 }
def fB : FnId := { port := .hostB, num := 0 }

/-- An open context. -/
def ctx (i : Nat) (f : FnId) (lc : Bool) : Ctx :=
  { id := i, fn := f, lc := lc, role := .work, version := 3, counterGrant := true, save64k := 0, latchBase := 0, latchCount := 8,
    spillAddr := 0, spillLen := 0, stepCounter := 4, closing := false, bound := [], saveA := 0, saveB := 0 }

/-- A program, and a draft of three layers, two tensors, a placement and a hinge. -/
def prog : Program :=
  { textOff := 0, textBytes := 0, dataOff := 0, dataBytes := 0, budget := 9, latchUse := true, wins := [], entry := 64, text := [], data := [] }
def drf : Draft :=
  { parseDraft [] [] with
    programs := [prog, { prog with entry := 96 }], seqA := 0, seqB := 1
    layers := [{ Layer.zero with op := 1, m := 4, n := 8, k := 8, out := 1, gatherable := true, gatherRows := 64 },
               { Layer.zero with op := 16, m := 4, out := 1 },
      { Layer.zero with op := 0x16, m := 4, out := 1 }]
    tensors := [{ Tensor.zero with rows := 4, rowLen := 8, rowPitch := 8, placement := 0 },
                { Tensor.zero with rows := 4, rowLen := 8, rowPitch := 8, placement := 1 }]
    placements := [{ Placement.zero with home := 1, dies := 3, parts := 2, partBytes := 16, window := 2, stages := 4, evicts := 4 },
                   { Placement.zero with dies := 3, sramA := 4096, sramB := 4096, parts := 1 }]
    hinges := [{ index := 0, afterLayer := 0, program := 0, lrCount := 1, lrFirst := 0, resume := 80 }]
    liveRanges := [{ tensor := 0xFFFE, dies := 3, start := 0, length := 64 }] }
def ent : Entry := { index := 0, partition := 0, state := .loaded, draft := drf, baseA := 0, baseB := 0 }

/-- A running step of context 1 on both dies, alone in the block. -/
def stp : Step :=
  { id := 7, ctx := 1, fn := fA, ring := 0, slot := 0, tag := 0, lc := true, entry := 0, mirror := false, replay := false, record := false,
    batch := false, irq := false, batchIndex := 0, inst := 0, deadlineUs := 0, ageUs := 0, resultAddr := 0x10000, resultLen := 64,
    recordAddr := 0, seed := 3, bellTime := 0, stage := .running, counter := 4, admitTime := 0, deadline := none, ageAt := none, cost := 5,
    holdUs := 0, measured := 0, started := true, onA := true, onB := true, kappas := [], stagesUsed := [], evictsUsed := [], hinge := none,
    saved := none, resumeA := none, resumeB := none, workA := DieWork.zero, workB := DieWork.zero, unqualified := false,
    singleChannel := false, ageFault := false, deadlineFault := false, kept := none, keptCbs := [], keptCurves := [], releasedAt := none }
/-- Instruction memory with a word at 64, and the word of a Loom control instruction. -/
def progAt (w : Nat) : Memory := Memory.writeBytes [] 64 (leBytes 4 w)
def loom (f rd rs1 rs2 : Nat) : Nat := encR f rs2 rs1 0 rd 0x0B

def runs (t : List Nat) : Running :=
  { step := 7, program := 0, tickets := t, clocks := 0, instrs := 0, ticket := none, arg := 0, start := 64 }

/-- A ring of no context. -/
def noRing : Ring :=
  { ctx := 0, index := 0, completion := false, base := 0, log2 := 0, cq := 0, vector := 0, head := 0, tail := 0, read := 0, done := [],
    phase := true, held := [] }

/-- The block with one draft, two contexts and their rings. -/
def busy : State :=
  { up with
    drafts := [ent], ctxs := [ctx 1 fA true, ctx 2 fA false]
    rings := [{ ctx := 1, index := 0, completion := false, base := 0x1000, log2 := 4, cq := 1, vector := 0, head := 0, tail := 1, read := 1,
                done := [], phase := true, held := [] },
              { ctx := 1, index := 1, completion := true, base := 0x2000, log2 := 4, cq := 0, vector := 3, head := 0, tail := 0, read := 0,
                done := [], phase := true, held := [] }] }

/-- That block while the step runs. -/
def running : State := { busy with steps := [stp], sched := { up.sched with running := some 7 } }

/-- Pair n of a state. -/
def inPair (n : Nat) (p : Pair) (s : State) : State := s.modPair n (fun _ => p)

/-- A descriptor of context 1, read from ring 0, slot 0. -/
def desc (seq : Nat) (bs : List Byte) : ReadDesc :=
  { seq := seq, ctx := 1, ring := 0, slot := 0, time := 0, bytes := bs ++ List.replicate (64 - bs.length) 0 }

/-- The block with a best-effort context 1 and a descriptor that waits to be processed. -/
def ready' (d : ReadDesc) : State := { busy with ctxs := [ctx 1 fA false, ctx 2 fA true], readQ := [d] }

/-- A RAW10 recipe of 4 × 2 pixels. -/
def rcp : Recipe :=
  { parseRecipe [] with
    dataType := 0x2B, cfa := 0, f := 1, codebook := 4, format := 2, kappa := 127, wIn := 4, hIn := 2, wOut := 4, hOut := 2
    lineWindow := 1, rowPitch := 4, closeUs := 100, tone0 := [], tone1 := [], radial := [] }

/-- A point-cloud recipe image that passes every check of R220. -/
def cloud : List Byte :=
  leBytes 4 0x45504352 ++ leBytes 2 1 ++ [1, 0, 0, 0, 0, 4, 2, 127] ++ List.replicate 58 0 ++ leBytes 4 4 ++ leBytes 4 100 ++ leBytes 4 0
    ++ leBytes 4 0 ++ leBytes 2 1 ++ leBytes 2 4 ++ leBytes 2 4 ++ [2, 1] ++ leBytes 4 0 ++ leBytes 4 8 ++ List.replicate 24 0

def cbk : Codebook := { format := 2, used := 1, levels := List.replicate 16 0 }

/-- A batch instance that waits for its one position. -/
def inst : Instance :=
  { counter := 1, buffer := 0, baseA := 0, baseB := 0, tensorBytes := 64, openTime := 0, readyTime := 0, ready := false, mode := 0,
    complemented := false, pos := [{ state := .empty, stream := 0, cause := 0, sat := 0, time := 0, corrupt := false }], started := false,
    eccFail := false, discarded := false, released := false }

/-- Stream slot 0, bound to CSI-2 port 0 and position 0 of batch index 1, whose first instance is open. -/
def intake : State :=
  ({ busy with
      recipes := [{ slot := 3, partition := 0, recipe := rcp, digest := 0, bytes := 128 }]
      wa := { dieUp with codebooks := [(4, cbk)] }, wb := { dieUp with codebooks := [(4, cbk)] }
      batches := State.reset.batches.set 1 { counter := 1, instances := [inst] }
      regs := [(oPortCtl 0, 1), (oPortCtl 0x18, 1), (oSlotBind 0, 0x10010300), (oBatchCtl 1, 0x10001)] })

def smp : Sample := { time := 5, counter := 1, position := 0, lines := [], sat := 0, sweep := 0, nextSeq := 0, kept := 0, pillars := [] }

/-- That slot in a phase. -/
def inPhase (p : SlotPhase) (s : State) : State := s.modSlot 0 (fun x => { x with phase := p })

/-- A draft image of one Finish layer, with one signature block, that passes every check of R165. -/
def image : List Byte :=
  leBytes 24 0x10000010000000200010000000021780080000554465244 ++ List.replicate 8 0 ++ leBytes 9 0xC00000008000000001
    ++ List.replicate 11 0 ++ leBytes 2 0x140 ++ List.replicate 14 0 ++ leBytes 10 0x28000000200000001C0 ++ List.replicate 50 0
    ++ leBytes 21 0x80000000800000001FFFF0001FFFF000000000016 ++ List.replicate 9 0 ++ leBytes 7 0x220001000000FF ++ List.replicate 28 0
    ++ leBytes 12 0x80000000100000020780003 ++ List.replicate 35 0 ++ leBytes 18 0x10000000100000000010000000000000004
    ++ List.replicate 62 0 ++ leBytes 5 0x400000240 ++ List.replicate 11 0 ++ leBytes 1 1 ++ List.replicate 7 0
    ++ (List.replicate 15 [0xFF, 0xFF, 0, 0]).flatten ++ [0xFF, 0xFF] ++ List.replicate 106 0 ++ leBytes 9 0x3B000000000000003B
    ++ List.replicate 39 0 ++ [0x81] ++ List.replicate 15 0 ++ [0x73] ++ List.replicate 63 0 ++ leBytes 8 0x142474953
    ++ leBytes 32 0xbf3fcbe1549a790a70f003842b2be4d612137c5039ab56569230dee3d17b2a18 ++ List.replicate 7888 0

/-- A step that multiplies four rows by eight on Weft A. -/
def mulD : Draft :=
  { drf with
    layers := [{ Layer.zero with op := 7, m := 4, n := 8, k := 8, taps := 1, in1 := 1, out := 2, chunk := 4 }]
    tensors := [{ Tensor.zero with rows := 4, rowLen := 8, rowPitch := 64, kappa := 0x7F },
                { Tensor.zero with rows := 8, rowLen := 8, rowPitch := 64, placement := 1 },
                { Tensor.zero with rows := 4, rowLen := 8, rowPitch := 64, placement := 2 }]
    placements := [{ Placement.zero with dies := 2 }, { Placement.zero with dies := 2, sramA := 4096 },
                   { Placement.zero with dies := 2, sramA := 8192 }] }
def mul : State :=
  { running with
    drafts := [{ ent with draft := mulD }], wa := { dieUp with beam := Memory.writeBytes [] 256 [0x7F, 0x7F, 0x7F, 0x7F] } }

/-- Checks that find nothing, and an array operation that never froze. -/
def noErr : ReadChecks := { fixed := [], hit := none }
def noBits : IntakeCheck := { fixed := [], hit := none }
def noFreeze : Freezes := { feed := 0, weight := 0, drain := 0, exchange := 0, barrier := 0 }

/-! ### Ill-formed operands are refused by the checks of WellFormed -/

def badHit : EccHit := { place := .host 4096 0, master := 0 }
def bad : ReadChecks := { fixed := [], hit := some badHit }
def badFn : FnId := { port := .hostA, num := 32 }

theorem test_wf_parts :
    badFn.wf = false ∧ (IrqFn.fn badFn).wf = false ∧ (UnitId.engine 8).wf = false ∧ (UnitId.pair 8).wf = false ∧ (UnitId.link 8).wf = false ∧
    (DataAt.beam .a 67108864).wf = false ∧ (DataAt.gddr .a 12079595520).wf = false ∧ (DataAt.pair 8 0).wf = false ∧
    (DataAt.pair 0 131072).wf = false ∧ bad.wf = false ∧ (ReadChecks.mk [.host 4096 0] none).wf = false ∧
    (OpCheck.product 0 65536 0 1).wf = false ∧ (OpCheck.lane 0 65536 0 1).wf = false ∧ (OpCheck.coder 9 0).wf = false ∧ (View.fn badFn).wf = false := by decide

theorem test_wf_monitors :
    monWf .engine 8 0 = false ∧ monWf .reed 2 0 = false ∧ monWf .finish 2 0 = false ∧ monWf .context 4096 0 = false ∧ monWf .link 8 0 = false ∧
    monWf .slot 32 0 = false ∧ monWf .ring 4096 0 = false ∧ monWf .ring 0 256 = false := by decide

theorem test_wf_retired :
    (Instr.rv64Instruction 8 none false 1 noErr).wf = false ∧
    (Instr.rv64Instruction 0 (some { place := .pc, mask := 0 }) false 1 noErr).wf = false ∧
    (Instr.rv64Instruction 0 none false 1 bad).wf = false := by decide

theorem test_wf_loom :
    (Instr.rdtime 8 0).wf = false ∧ (Instr.rdtime 0 32).wf = false ∧ (Instr.ecall 8).wf = false ∧ (Instr.ebreak 8).wf = false ∧
    (Instr.lmOp 0 32 0).wf = false ∧ (Instr.lmReed 0 0 32).wf = false ∧ (Instr.lmFin 8 0 0).wf = false ∧ (Instr.lmStage 0 0 0 32).wf = false ∧
    (Instr.lmEvict 8 0 0 0).wf = false ∧ (Instr.lmSpawn 0 32 0 0).wf = false ∧ (Instr.lmWait 0 32).wf = false ∧ (Instr.lmSync 8).wf = false ∧
    (Instr.lmHinge 0 32).wf = false ∧ (Instr.lmDec 0 0 0 32 { tensor := 0, row := 0, count := 1, channels := 1 }).wf = false ∧
    (Instr.lmEnc 8 0 0 0 { tensor := 0, row := 0, count := 1, channels := 1 }).wf = false ∧ (Instr.lmLacq 0 0 32).wf = false ∧
    (Instr.lmLrel 8 0).wf = false ∧ (Instr.lmRd 0 0 32).wf = false ∧ (Instr.shuttleBudgetExpiry 8).wf = false := by decide

theorem test_wf_module :
    (Instr.flr badFn).wf = false ∧ (Instr.flrComplete badFn true).wf = false ∧ (Instr.msixVectorUnmask (.fn fA) 2048).wf = false ∧
    (Instr.syncInEdge true 4).wf = false ∧ (Instr.smbusEepromRead 0 true 256 1).wf = false ∧ (Instr.smbusEepromRead 0 true 0 257).wf = false ∧
    (Instr.jtagAccess (.haltPair 8) noErr).wf = false ∧ (Instr.jtagAccess (.inspectPair 0 98 0) noErr).wf = false ∧
    (Instr.jtagAccess (.inspectPair 0 0 8) noErr).wf = false ∧ (Instr.vfEnableSet .hostA 0 0).wf = false ∧ (Instr.vfEnableSet .hostA 32 0).wf = false ∧
    (Instr.poisonedBarWrite badFn 0).wf = false := by decide

theorem test_wf_intake :
    (Instr.csi2FrameStart 24 0 false).wf = false ∧ (Instr.csi2FrameStart 0 16 false).wf = false ∧ (Instr.csi2LongPacket 0 0 64 [] true true false noBits false false).wf = false ∧
    (Instr.csi2FrameEnd 24 0 false).wf = false ∧ (Instr.csi2PacketDiscard 0 16 0 true false).wf = false ∧ (Instr.phyLinkLoss 28).wf = false ∧
    (Instr.ethernetFrame 4 [] true noBits false).wf = false ∧ (Instr.holdCopyDone 32 noErr).wf = false ∧ (Instr.batchCloseTimeout 32 0).wf = false ∧
    (Instr.substituteCopyDone 0 0 32 noErr).wf = false ∧ (Instr.batchReady 32 0).wf = false ∧ (Instr.crlSlotEnable 32 0).wf = false ∧
    (Instr.crlSlotDisable 32 0).wf = false ∧ (Instr.crlBatchEnable 32 0).wf = false ∧ (Instr.crlBatchDisable 32 0).wf = false := by decide

theorem test_wf_rings :
    (Instr.doorbellTail badFn 0 0 []).wf = false ∧ (Instr.doorbellTail fA 4096 0 []).wf = false ∧ (Instr.doorbellTail fA 0 0 [[0]]).wf = false ∧
    (Instr.doorbellHead fA 4096 0).wf = false ∧ (Instr.nop 4096).wf = false ∧ (Instr.inject 0 [0] false).wf = false ∧
    (Instr.hdlFnCtxOpenGo badFn 0).wf = false ∧ (Instr.ringCreate badFn).wf = false ∧ (Instr.latchTake fA 4096).wf = false ∧
    (Instr.latchRelease fA 4096).wf = false ∧ (Instr.contextCloseDone 4096).wf = false ∧ (Instr.ready [[[0]]]).wf = false := by decide

theorem test_wf_memory_and_faults :
    (Instr.scrubLine .a { fixed := [512], bad := [] }).wf = false ∧ (Instr.scrubLine .a { fixed := [], bad := [512] }).wf = false ∧ (Instr.gddr6Refresh .a 12).wf = false ∧
    (Instr.gddr6EdcFail .a 12079595520 1 0).wf = false ∧ (Instr.gddr6EdcFail .a 0 0 0).wf = false ∧ (Instr.gddr6EdcFail .a 0 5 0).wf = false ∧
    (Instr.transactionTimeout .a 3 { badHit with place := .gddr .a 0 }).wf = false ∧
    (Instr.transactionTimeout .a 0 { badHit with place := .gddr .b 0 }).wf = false ∧
    (Instr.warpFlitCrcFail 8).wf = false ∧ (Instr.warpE2eMismatch 0 badHit).wf = false ∧ (Instr.warpLinkDown 8).wf = false ∧
    (Instr.warpLinkRetrainDone 8).wf = false ∧ (Instr.warpRetrainTimeout 8).wf = false ∧ (Instr.arrayOpRetire .a 0 noFreeze bad).wf = false ∧
    (Instr.reedOpRetire .a 0 bad).wf = false ∧ (Instr.finishOpRetire .a 0 bad).wf = false ∧ (Instr.stageCopyDone .a bad).wf = false ∧
    (Instr.hingeSaveDone bad).wf = false ∧ (Instr.hingeRestoreDone bad).wf = false ∧ (Instr.transferDone 0 bad).wf = false ∧
    (Instr.graceTimerExpiry 768).wf = false ∧ (Instr.hspRaisedAck 24 0).wf = false ∧ (Instr.unitResetDone (.link 8)).wf = false ∧
    (Instr.injectionDone (.unit (.pair 8)) []).wf = false ∧ (Instr.pairTestStart 8).wf = false ∧ (Instr.tmbEraseDraftKey 256).wf = false := by decide

theorem test_wf_settings :
    (Instr.hspProgWinWrite 5 0).wf = false ∧ (Instr.hdlPartLoomWrite 2 0).wf = false ∧ (Instr.hdlMirrorWrite 64 0).wf = false ∧
    (Instr.hdlGatherGrpWrite 16 0).wf = false ∧ (Instr.wrpWheelWrite 8 0 0 0).wf = false ∧ (Instr.wrpWheelWrite 0 2 0 0).wf = false ∧
    (Instr.wrpWheelWrite 0 0 2 0).wf = false ∧ (Instr.ctrSelWrite .weftA 32 0).wf = false ∧ (Instr.ctrWatchCfgWrite 16 0).wf = false ∧
    (Instr.registerWrite (.fn badFn) 0 0).wf = false ∧ (Instr.registerLowWordRead (.fn badFn) 0).wf = false ∧
    (Instr.badRegisterAccess (.fn badFn) .read 0 8).wf = false ∧ (Instr.nop 4095).wf = true := by decide

/-! ### The manual's worked examples -/

/-- 02, "Example: one level product": 192 × 60. -/
theorem test_level_product : levelVal 0x1D2 = 192 ∧ levelVal 0x1A8 = 60 ∧ levelProduct 0x1D2 0x1A8 = 11520 := by decide

/-- The row of 02, "Example: one C4 row by hand". -/
def handRow : List Rat :=
  [mkRat 3 4, mkRat (-5) 16, mkRat 19 16, mkRat 39 512, mkRat (-39) 16, 0, mkRat 13 16, mkRat (-5) 8]

/-- 02, "Example: one C4 row by hand": the scale, the codes, the saturation count; the stored words on both dies. -/
theorem test_c4_row :
    codeRow (builtinCodebook 0) 0x77 none 0 handRow = (0x7D, [11, 5, 12, 7, 0, 7, 11, 4], 0) ∧
    leNat (packCodes 3 0 [11, 5, 12, 7, 0, 7, 11, 4]) = 0x4B707C5B ∧
    leNat (packCodes 3 0 (storeForm true 3 [11, 5, 12, 7, 0, 7, 11, 4])) = 0xB48F83A4 := by decide +kernel

/-- A draft whose tensors are all C4 and coded once. -/
def c4 (whole : Bool) : Draft :=
  { parseDraft [] [] with
    whole := whole
    tensors := List.replicate 3 { Tensor.zero with format := 3, kappa := 0x78 } }

/-- The 3×3 convolution of 03 over 2^ms engines by rows. -/
def conv (ms : Nat) : Layer :=
  { Layer.zero with op := 1, m := 38400, k := 2304, n := 256, taps := 9, in1 := 1, out := 2, log2ms := ms, log2ns := 1, chunk := 240 }

/-- 03, "Example: a 3×3 convolution in Whole mode": 10,998 clocks; 05, "Example: checking hinges and bounds": 21,702 on one die. -/
theorem test_conv_clocks : (c4 true).tOp (conv 2) 38400 = 10998 ∧ (c4 false).tOp (conv 1) 38400 = 21702 := by decide

/-- 03, "Example: sixteen detection heads": alone and gathered. -/
theorem test_head_clocks :
    (c4 true).tOp { conv 2 with m := 24, k := 256, taps := 1, chunk := 8 } 24 = 177 ∧
    (c4 true).tOp { conv 2 with m := 24, k := 256, taps := 1, chunk := 96 } 384 = 192 := by decide

/-- 06, "Example: dilation that leaves only the centre tap", and "Example: stem convolution with and without intake regrouping". -/
theorem test_dilated_and_stem_clocks :
    (c4 true).tOp { conv 3 with m := 1024, k := 1152, n := 128, log2ns := 0, chunk := 128 } 1024 = 264 ∧
    (c4 true).tOp { conv 3 with m := 614400, k := 9, n := 64, log2ns := 0, chunk := 256 } 614400 = 29000 ∧
    (c4 true).tOp { conv 3 with m := 614400, k := 16, taps := 4, n := 64, log2ns := 0, chunk := 256 } 614400 = 16976 := by decide

/-- 05, "Example: checking hinges and bounds": the bounds and the hinge gap of five layers and two hinges; T_sh is 30,000. -/
def fiveLayers : Draft :=
  { c4 false with
    layers := [21702, 19232, 21702, 19232, 4000].map (fun b => { Layer.zero with bound := b })
    programs := [{ prog with budget := 2 * (30000 - 120) }]
    hinges := [{ index := 0, afterLayer := 1, program := 0, lrCount := 1, lrFirst := 0, resume := 0 },
               { index := 1, afterLayer := 3, program := 0, lrCount := 1, lrFirst := 0, resume := 0 }]
    placements := [] }

theorem test_bounds_and_hinge_gap : fiveLayers.isolatedBound = 115868 ∧ fiveLayers.hingeGap = 70934 := by decide

/-- 08, "Example: staging one weight part": the stage term. -/
theorem test_stage_term :
    ({ c4 true with placements := [{ Placement.zero with home := 1, dies := 3, parts := 1, partBytes := 2097152, stages := 1 }] } : Draft).tSe
      = 3533 := by decide

/-- 09, "Example: admitting the eight-camera step": its settings. -/
def eightCameras : State :=
  ((up.setReg oSchedGap 0x024A0494).setReg oSchedSave 152).setReg oProof 500
def cameraDraft : Draft :=
  { c4 false with placements := [{ Placement.zero with home := 1, dies := 3, parts := 1, partBytes := 2097152, stages := 1 }]
                  bounds := { (parseDraft [] []).bounds with isolated := 9000000, hingeGap := 1150000, resultBytes := 1048576 } }

/-- 09: B, the reservation and the cost C of the step. -/
theorem test_admission_terms :
    eightCameras.blocking = 1200128 ∧ eightCameras.reserve = 360000 ∧ eightCameras.tSr = 31642 ∧ eightCameras.cost 0 eightCameras.holdUs cameraDraft = 9166937 := by
  decide

/-- 04, "Example: argmax and top-3 of one row": channel 2 wins; channels 0 and 6 tie. -/
theorem test_argmax : argmaxAt [-24, 80, 0, -192, 0, 60, -40] 1 (0, 60) = (2, 80) := by decide +kernel

/-- The published check value of CRC-32C: its sum over the characters 1 to 9. -/
theorem test_crc32c : crc32c [0x31, 0x32, 0x33, 0x34, 0x35, 0x36, 0x37, 0x38, 0x39] = 0xE3069283#32 := by decide +kernel

/-- FIPS 180-4's example: the digest of the characters a, b, c. -/
theorem test_sha256 :
    sha256 [0x61, 0x62, 0x63] = 0xad1500f261ff10b49c7a1796a36103b02322ae5dde404141eacf018fbf1678ba#256 := by decide +kernel

/-- The AES-256-GCM test cases of a zero key and nonce: no text at all, and sixteen zero bytes; another tag does not verify. -/
theorem test_aes256_gcm :
    gcmOpen (List.replicate 32 0) (List.replicate 12 0) [] [] (beBytes 16 0x530f8afbc74536b9a963b4f1c4cb738b) = some [] ∧
    gcmOpen (List.replicate 32 0) (List.replicate 12 0) [] (beBytes 16 0xcea7403d4d606b6e074ec5d3baf39d18)
      (beBytes 16 0xd0d1c8a799996bf0265b98b5d48ab919) = some (List.replicate 16 0) ∧
    gcmOpen (List.replicate 32 0) (List.replicate 12 0) [] [] (beBytes 16 0x530f8afbc74536b9a963b4f1c4cb738a) = none := by decide +kernel

/-- R107: a change of a sum by 7 passes the residue check, one by 1, -1 or 2 does not. -/
theorem test_residues : [7, -14, 1, -1, 2, 8].map (fun x => mismatch (builtinCodebook 0) (builtinCodebook 1) [1, 2] [3, 4] x) =
    [false, false, true, true, true, true] := by decide +kernel

/-- The standard's compressed words and the instructions that they stand for: addi sp, sp, -32; sd ra, 24(sp); ld ra, 24(sp); ret; beqz a5; and
a reserved one. -/
theorem test_compressed :
    rvc1 0x1101 = some 0xFE010113 ∧ rvc2 0xEC06 = some 0x00113C23 ∧ rvc2 0x60E2 = some 0x01813083 ∧ rvc2 0x8082 = some 0x00008067 ∧
    rvc1 0xC789 = some 0x00078563 ∧ rvc0 0 = none := by decide +kernel

/-- IEEE 754: 0.1 + 0.2, 1 / 3 and the root of 2 in binary32, each inexact; and 2.5 to the nearest even integer. -/
theorem test_binary32 :
    addF 32 0 (unpackF 32 0x3DCCCCCD) (unpackF 32 0x3E4CCCCD) = (0x3E99999A, 1) ∧
    divF 32 0 (unpackF 32 0x3F800000) (unpackF 32 0x40400000) = (0x3EAAAAAB, 1) ∧ sqrtF 32 0 (unpackF 32 0x40000000) = (0x3FB504F3, 1) ∧
    toIntF 0 true 32 (unpackF 32 0x40200000) = (2, 1) := by decide +kernel

/-- vadd.vi v2, v1, 5 on bytes with vl = 3: two elements added, the third wraps, the rest undisturbed. -/
theorem test_vector_add :
    (({ p := { Pair.reset with v := (List.replicate 32 0).set 1 0xFE0201FF0201, vcsr := { VecCsr.zero with vl := 3 } }, next := 4, now := 0, k := 0 }
        : RvIn).execV (fun _ _ => none) (2 ^ 25 + 2 ^ 20 + 5 * 2 ^ 15 + 3 * 2 ^ 12 + 2 * 2 ^ 7 + 0x57)).map (fun o => o.pair.v.getD 2 0)
      = some 0x040706 := by decide +kernel

/-! ### One command on a small state -/

/-- R373: the commands wait first in, first out. -/
theorem test_queue_front (d : State) :
    step { d with pending := [.timeSourceFail, .syncOutRise] } = exec .timeSourceFail { d with pending := [.syncOutRise] } := rfl

/-! ### The hypotheses of the statements can be met -/

/-- States and operands that meet the hypotheses of EmptyQueuePassesOneTick. -/
theorem witness_EmptyQueuePassesOneTick :
    (∃ (s : State), s.pending = [] ∧ s.supply.standby = true ∧ s.pwr.refLost = false ∧ s.noSteps ∧ s.sched.retest = false ∧ s.keeperIdle) ∧
    (∃ (x : Step) (s : State), s.pending = [] ∧ s.supply.standby = true ∧ s.pwr.refLost = false ∧ s.sched.running = some x.id ∧
        s.steps = [x] ∧ x.stage = .running ∧ s.sched.retest = false ∧ s.keeperIdle ∧ (∀ d, x.on d = true → s.clocked (.loom d) = true ∧
        (s.weft d).checks.phase ≠ .running ∧ (s.weft d).checks.slice = none)) ∧
    (∃ (x : Step) (s : State), s.pending = [] ∧ s.supply.standby = true ∧ s.pwr.refLost = false ∧ s.sched.running = some x.id ∧
        s.steps = [x] ∧ x.stage = .running ∧ s.sched.retest = false ∧ s.keeperIdle ∧ (∀ d, x.on d = true → s.clocked (.loom d) = true ∧
        (s.weft d).checks.phase ≠ .running ∧ (s.weft d).checks.slice = none)) ∧
    (∃ (s : State), s.pending = [] ∧ (s.supply.standby = false ∨ s.pwr.refLost = true)) ∧
    (∃ (s : State), s.pending = [] ∧ (s.supply.standby = false ∨ s.pwr.refLost = true)) ∧
    (∃ (img : List Byte) (ok : Bool) (s : State), s.pending = [] ∧ s.supply.standby = true ∧ s.pwr.refLost = false ∧ s.noSteps ∧
        s.sched.retest = false ∧ s.sec.enrolling = none ∧ s.sec.tmbWaiting = none ∧ s.sec.installing = some (img, ok) ∧
        s.pwr.phase = .mission) ∧
    (∃ (img : List Byte) (ok : Bool) (s : State), s.pending = [] ∧ s.supply.standby = true ∧ s.pwr.refLost = false ∧ s.noSteps ∧
        s.sched.retest = false ∧ s.sec.enrolling = none ∧ s.sec.tmbWaiting = none ∧ s.sec.installing = some (img, ok) ∧
        s.pwr.phase = .mission) ∧
    (∃ (bs : List Byte) (s : State), s.pending = [] ∧ s.supply.standby = true ∧ s.pwr.refLost = false ∧ s.noSteps ∧
        s.sched.retest = false ∧ s.sec.enrolling = some bs ∧ s.sec.tmbWaiting = none ∧ s.sec.installing = none ∧ s.posted = [] ∧
        s.readQ = []) ∧
    (∃ (bs : List Byte) (s : State), s.pending = [] ∧ s.supply.standby = true ∧ s.pwr.refLost = false ∧ s.noSteps ∧
        s.sched.retest = false ∧ s.sec.enrolling = some bs ∧ s.sec.tmbWaiting = none ∧ s.sec.installing = none ∧ s.posted = [] ∧
        s.readQ = []) :=
  ⟨⟨{ up with hasp := { up.hasp with grace := [(5, 3), (6, 0)] }, time := { up.time with slew := -7 } }, by decide +kernel⟩,
   ⟨stp, running, by and_intros <;> first | exact (fun d => by cases d <;> decide +kernel) | decide +kernel⟩,
   ⟨{ (stp : Step) with onB := false }, { (running : State) with
       steps := [{ (stp : Step) with onB := false }], clk := { up.clk with weftB := 0 } },
       by and_intros <;> first | exact (fun d => by cases d <;> decide +kernel) | decide +kernel⟩,
   ⟨{ up with supply := { up.supply with standby := false } }, by decide +kernel⟩,
   ⟨{ up with pwr := { up.pwr with refLost := true } }, by decide +kernel⟩,
   ⟨[7], true, { up with sec := { up.sec with installing := some ([7], true) } }, by decide +kernel⟩,
   ⟨[], false, { up with sec := { up.sec with installing := some ([], false) } }, by decide +kernel⟩,
   ⟨goodOwner, { up with sec := { up.sec with enrolling := some goodOwner } }, by decide +kernel⟩,
   ⟨[], { up with sec := { up.sec with enrolling := some [], ownedFuse := true } }, by decide +kernel⟩⟩

/-- States and operands that meet the hypotheses of InsertionBringsColdReset. -/
theorem witness_InsertionBringsColdReset :
    (∃ (s : State), s.pins.prsnt1Low = false ∧ s.supply.ramped = false) ∧
    (∃ (s : State), s.pins.prsnt1Low = true ∧ s.supply.debounce = true ∧ s.supply.cut = .none) ∧
    (∃ (s : State), s.supply.standby = false) ∧
    (∃ (s : State), s.supply.standby = false) ∧
    (∃ (s : State), s.supply.ramped = true ∧ s.supply.standby = false ∧ s.pins.pwrEn = false) :=
  ⟨⟨{ State.reset with
      pins := { State.reset.pins with prsnt1Low := false }, supply := { State.reset.supply with ramped := false, standby := false } },
      by decide +kernel⟩,
   ⟨{ State.reset with supply := { State.reset.supply with debounce := true, ramped := false, standby := false } }, by decide +kernel⟩,
   ⟨{ State.reset with supply := { State.reset.supply with standby := false } }, by decide +kernel⟩,
   ⟨{ State.reset with supply := { State.reset.supply with standby := false, cut := .breaker } }, by decide +kernel⟩,
   ⟨{ up with
       pins := State.reset.pins, supply := { State.reset.supply with standby := false }, sec := { up.sec with
       ownedFuse := true, toggles := 31, rollbackFused := 64 } }, by decide +kernel⟩⟩

/-- States and operands that meet the hypotheses of LostInputOrRemovalUnpowersTheModule. -/
theorem witness_LostInputOrRemovalUnpowersTheModule :
    (∃ (c : Instr) (k : InputCut) (s : State), ((c = .inputUndervoltage ∧ k = .under) ∨ (c = .inputOvervoltage ∧ k = .over) ∨
        (c = .electronicBreakerTrip ∧ k = .breaker))) ∧
    (∃ (c : Instr) (k : InputCut) (s : State), ((c = .inputUndervoltage ∧ k = .under) ∨ (c = .inputOvervoltage ∧ k = .over) ∨
        (c = .electronicBreakerTrip ∧ k = .breaker))) ∧
    (∃ (c : Instr) (k : InputCut) (s : State), ((c = .inputUndervoltage ∧ k = .under) ∨ (c = .inputOvervoltage ∧ k = .over) ∨
        (c = .electronicBreakerTrip ∧ k = .breaker))) ∧
    (∃ (s : State), (s.supply.cut = .under ∨ s.supply.cut = .over) ∧ s.pins.prsnt1Low = true ∧ s.supply.debounce = false) ∧
    (∃ (s : State), (s.supply.cut = .under ∨ s.supply.cut = .over) ∧ s.pins.prsnt1Low = true ∧ s.supply.debounce = false) ∧
    (∃ (s : State), s.pins.prsnt1Low = true ∧ s.supply.standby = true) ∧
    (∃ (s : State), s.pins.prsnt1Low = true ∧ s.supply.standby = true) ∧
    (∃ (s : State), s.supply.filter = true ∧ s.pins.prsnt1Low = false ∧ s.silent 0x001) :=
  ⟨⟨.inputUndervoltage, .under, up, by decide +kernel⟩,
   ⟨.inputOvervoltage, .over, up, by decide +kernel⟩,
   ⟨.electronicBreakerTrip, .breaker, up, by decide +kernel⟩,
   ⟨{ State.reset with supply := { State.reset.supply with cut := .under, ramped := false, standby := false } }, by decide +kernel⟩,
   ⟨{ State.reset with supply := { State.reset.supply with cut := .over, ramped := false, standby := false } }, by decide +kernel⟩,
   ⟨up, by decide +kernel⟩,
   ⟨{ up with supply := { up.supply with cut := .breaker } }, by decide +kernel⟩,
   ⟨quiet 0x001 { up with supply := { up.supply with filter := true }, pins := { up.pins with prsnt1Low := false } }, by decide +kernel⟩⟩

/-- States and operands that meet the hypotheses of MeasurementsAreRecorded. -/
theorem witness_MeasurementsAreRecorded :
    (∃ (vin : Byte) (pin : BitVec 16) (board : Byte) (s : State), s.supply.standby = true) ∧
    (∃ (d : Die) (r : Byte) (s : State), s.supply.standby = true ∧ 169 ≤ r.toNat ∧ s.pwr.phase = .mission ∧ s.silent 0x004) ∧
    (∃ (d : Die) (r : Byte) (s : State), s.supply.standby = true ∧ 169 ≤ r.toNat ∧ s.pwr.phase = .mission ∧ s.silent 0x004) :=
  ⟨⟨0xFF#8, 0xFFFF#16, 70#8, up, by decide +kernel⟩,
   ⟨.weftA, 169#8, quiet 4 up, by decide +kernel⟩,
   ⟨.selvedge, 255#8, quiet 4 up, by decide +kernel⟩⟩

/-- States and operands that meet the hypotheses of RailsFollowPwrEn. -/
theorem witness_RailsFollowPwrEn :
    (∃ (low : Bool) (ts : Byte) (ta : Byte) (tb : Byte) (s : State), s.pins.pwrEn = false ∧ s.pwr.phase = .off ∧ s.pwr.lockout = .none) ∧
    (∃ (low : Bool) (ts : Byte) (ta : Byte) (tb : Byte) (s : State), s.pins.pwrEn = false ∧ s.pwr.phase = .off ∧ low = true ∧
        ts.toNat < 159 ∧ ta.toNat < 159 ∧ tb.toNat < 159) ∧
    (∃ (low : Bool) (ts : Byte) (ta : Byte) (tb : Byte) (s : State), s.pins.pwrEn = false ∧ s.pwr.phase = .off ∧ low = true ∧
        s.pwr.lockout ≠ .thermal) ∧
    (∃ (low : Bool) (ts : Byte) (ta : Byte) (tb : Byte) (s : State), s.pins.pwrEn = false ∧ s.pwr.phase = .off ∧ s.pwr.lockout ≠ .none ∧
        low = false) ∧
    (∃ (low : Bool) (ts : Byte) (ta : Byte) (tb : Byte) (s : State), s.pins.pwrEn = false ∧ s.pwr.phase = .off ∧ s.pwr.lockout = .thermal ∧
        159 ≤ ta.toNat) ∧
    (∃ (s : State), s.pwr.phase = .powerUp ∧ s.pwr.rails < 7) ∧
    (∃ (s : State), s.pwr.phase = .powerDown ∧ s.pwr.downStage < 5) ∧
    (∃ (s : State), s.pwr.phase = .powerDown ∧ s.pwr.downStage < 5) ∧
    (∃ (s : State), s.pwr.phase = .powerDown ∧ s.pwr.downStage = 5) ∧
    (∃ (s : State), s.pwr.phase = .powerDown ∧ s.pwr.downStage = 6 ∧ s.pins.pwrEn = false) ∧
    (∃ (s : State), s.pwr.phase = .powerDown ∧ s.pwr.downStage = 6 ∧ s.pins.pwrEn = true ∧ s.pwr.lockout = .none) ∧
    (∃ (s : State), s.pwr.refLost = false) ∧
    (∃ (s : State), s.pins.pwrEn = true ∧ s.supply.standby = true) ∧
    (∃ (s : State), s.pwr.lowQual = true ∧ s.pins.pwrEn = false ∧ s.pwr.refLost = false ∧ s.pwr.phase = .off) ∧
    (∃ (s : State), s.pwr.lowQual = true ∧ s.pins.pwrEn = false ∧ s.pwr.refLost = false ∧
        (s.pwr.phase = .powerUp ∨ s.pwr.phase = .mission)) ∧
    (∃ (s : State), s.pwr.lowQual = true ∧ s.pins.pwrEn = false ∧ s.pwr.refLost = false ∧
        (s.pwr.phase = .powerUp ∨ s.pwr.phase = .mission)) ∧
    (∃ (s : State), s.pwr.refLost = true) :=
  ⟨⟨false, 255#8, 0#8, 0#8, State.reset, by decide +kernel⟩,
   ⟨true, 158#8, 158#8, 158#8, { State.reset with pwr := { State.reset.pwr with lockout := .thermal } }, by decide +kernel⟩,
   ⟨true, 255#8, 0#8, 0#8, { State.reset with pwr := { State.reset.pwr with lockout := .rail } }, by decide +kernel⟩,
   ⟨false, 0#8, 0#8, 0#8, { State.reset with pwr := { State.reset.pwr with lockout := .rail } }, by decide +kernel⟩,
   ⟨true, 0#8, 159#8, 0#8, { State.reset with pwr := { State.reset.pwr with lockout := .thermal } }, by decide +kernel⟩,
   ⟨{ State.reset with pwr := { State.reset.pwr with phase := .powerUp, rails := 6 } }, by decide +kernel⟩,
   ⟨{ State.reset with pwr := { State.reset.pwr with phase := .powerDown, downStage := 0, rails := 7 } }, by decide +kernel⟩,
   ⟨{ State.reset with pwr := { State.reset.pwr with phase := .powerDown, downStage := 4, rails := 7 } }, by decide +kernel⟩,
   ⟨{ State.reset with pwr := { State.reset.pwr with phase := .powerDown, downStage := 5, rails := 1 } }, by decide +kernel⟩,
   ⟨{ State.reset with pwr := { State.reset.pwr with phase := .powerDown, downStage := 6 } }, by decide +kernel⟩,
   ⟨{ State.reset with
       pwr := { State.reset.pwr with phase := .powerDown, downStage := 6 }, pins := { State.reset.pins with pwrEn := true } },
       by decide +kernel⟩,
   ⟨up, by decide +kernel⟩,
   ⟨up, by decide +kernel⟩,
   ⟨{ State.reset with pwr := { State.reset.pwr with lowQual := true } }, by decide +kernel⟩,
   ⟨{ up with pwr := { up.pwr with lowQual := true }, pins := { up.pins with pwrEn := false } }, by decide +kernel⟩,
   ⟨{ State.reset with pwr := { State.reset.pwr with lowQual := true, phase := .powerUp } }, by decide +kernel⟩,
   ⟨{ up with pwr := { up.pwr with refLost := true, lowQual := true }, pins := { up.pins with pwrEn := false } }, by decide +kernel⟩⟩

/-- States and operands that meet the hypotheses of TripsTakeTheModuleToOff. -/
theorem witness_TripsTakeTheModuleToOff :
    (∃ (d : Die) (r : Byte) (s : State), s.supply.standby = true ∧ 179 ≤ r.toNat ∧ (s.pwr.phase = .powerUp ∨ s.pwr.phase = .mission) ∧
        s.silent 0x005 ∧ s.portA.up = false ∧ s.portB.up = false ∧ s.portS.up = false) ∧
    (∃ (d : Die) (r : Byte) (s : State), s.supply.standby = true ∧ 179 ≤ r.toNat ∧ (s.pwr.phase = .powerUp ∨ s.pwr.phase = .mission) ∧
        s.silent 0x005 ∧ s.portA.up = false ∧ s.portB.up = false ∧ s.portS.up = false) ∧
    (∃ (s : State), (s.pwr.phase = .powerUp ∨ s.pwr.phase = .mission) ∧ s.silent 0x002 ∧ s.portA.up = false ∧ s.portB.up = false ∧
        s.portS.up = false) ∧
    (∃ (s : State), (s.pwr.phase = .powerUp ∨ s.pwr.phase = .mission) ∧ s.silent 0x002 ∧ s.portA.up = false ∧ s.portB.up = false ∧
        s.portS.up = false) :=
  ⟨⟨.weftB, 179#8, quiet 5 (noPorts up), by decide +kernel⟩,
   ⟨.selvedge, 255#8, quiet 5 { State.reset with pwr := { State.reset.pwr with phase := .powerUp } }, by decide +kernel⟩,
   ⟨quiet 2 (noPorts up), by decide +kernel⟩,
   ⟨quiet 2 { State.reset with pwr := { State.reset.pwr with phase := .powerUp } }, by decide +kernel⟩⟩

/-- States and operands that meet the hypotheses of PowerGoodRunsTheBootChecks. -/
theorem witness_PowerGoodRunsTheBootChecks :
    (∃ (s : State), s.pwr.phase = .powerUp ∧ s.pwr.rails = 7 ∧ bitW (s.reg oBoot) 4 = false ∧ s.portS.up = false) ∧
    (∃ (s : State), s.pwr.phase = .powerUp ∧ s.pwr.rails = 7 ∧ bitW (s.reg oBoot) 4 = false ∧ s.portS.up = false) ∧
    (∃ (s : State), s.pwr.phase = .powerUp ∧ s.pwr.rails = 7 ∧ bitW (s.reg oBoot) 4 = true ∧ s.portS.up = false) :=
  ⟨⟨{ State.reset with
      pwr := { State.reset.pwr with phase := .powerUp, rails := 7 }, sec := { Security.reset with flashImage := goodImage } },
      by decide +kernel⟩,
   ⟨{ State.reset with
       pwr := { State.reset.pwr with phase := .powerUp, rails := 7 }, ctr := { State.reset.ctr with aon := [(0, 9), (3, 8), (15, 7)] } },
       by decide +kernel⟩,
   ⟨({ State.reset with pwr := { State.reset.pwr with phase := .powerUp, rails := 7 } }).setReg oBoot 16#32, by decide +kernel⟩⟩

/-- States and operands that meet the hypotheses of LostClocksShowOnPinsAndSources. -/
theorem witness_LostClocksShowOnPinsAndSources :
    (∃ (s : State), s.supply.standby = true) ∧
    (∃ (s : State), s.pwr.heartbeat = true) ∧
    (∃ (s : State), s.pins.aliveRun = true ∧ s.pwr.heartbeat = true) ∧
    (∃ (p : Pll) (n : Nat) (s : State), s.clk.locked p = true ∧
        (n = match pllDie p with | none => 0x003 | some .a => 0x129 | some .b => 0x229) ∧ s.silent n) ∧
    (∃ (p : Pll) (n : Nat) (s : State), s.clk.locked p = true ∧
        (n = match pllDie p with | none => 0x003 | some .a => 0x129 | some .b => 0x229) ∧ s.silent n) ∧
    (∃ (p : Pll) (n : Nat) (s : State), s.clk.locked p = true ∧
        (n = match pllDie p with | none => 0x003 | some .a => 0x129 | some .b => 0x229) ∧ s.silent n) ∧
    (∃ (p : Pll) (n : Nat) (s : State), s.clk.locked p = true ∧
        (n = match pllDie p with | none => 0x003 | some .a => 0x129 | some .b => 0x229) ∧ s.silent n) ∧
    (∃ (p : Pll) (s : State), s.clk.locked p = false ∧ s.pllMeant p = true ∧ (∀ x ∈ s.slots, x.input = [])) ∧
    (∃ (p : Pll) (s : State), s.clk.locked p = false ∧ s.pllMeant p = true ∧ (∀ x ∈ s.slots, x.input = [])) :=
  ⟨⟨up, by decide +kernel⟩,
   ⟨up, by decide +kernel⟩,
   ⟨up, by decide +kernel⟩,
   ⟨.creel, 0x003, quiet 3 (up), by decide +kernel⟩,
   ⟨.selvFabric, 0x003, quiet 3 ({ up with clk := { up.clk with losses := 255 } }), by decide +kernel⟩,
   ⟨.loom .a, 0x129, quiet 297 (up), by decide +kernel⟩,
   ⟨.weftFabric .b, 0x229, quiet 553 (up), by decide +kernel⟩,
   ⟨.creel, { (intake : State) with clk := { up.clk with creel := false } }, by decide +kernel⟩,
   ⟨.shuttle .b, { up with clk := { up.clk with weftB := 5 } }, by decide +kernel⟩⟩

/-- States and operands that meet the hypotheses of TimeFollowsItsSourceAndSyncPins. -/
theorem witness_TimeFollowsItsSourceAndSyncPins :
    (∃ (rising : Bool) (q : Nat) (s : State), q < 4 ∧ s.time.now.toNat < 2 ^ 63 ∧ bitW (s.reg oSyncCtl) 1 = true ∧ (bitW
        (s.reg oSyncCtl) 2 != rising) = true ∧ ((bitW (s.reg oSyncStatus) 0 = false ∧
        s.syncInTime = 0) ∨ 1000 < s.time.now.toNat + 40 * q - s.syncInTime)) ∧
    (∃ (rising : Bool) (q : Nat) (s : State), q < 4 ∧ s.time.now.toNat < 2 ^ 63 ∧ bitW (s.reg oSyncCtl) 1 = true ∧ (bitW
        (s.reg oSyncCtl) 2 != rising) = true ∧ ((bitW (s.reg oSyncStatus) 0 = false ∧
        s.syncInTime = 0) ∨ 1000 < s.time.now.toNat + 40 * q - s.syncInTime)) ∧
    (∃ (rising : Bool) (q : Nat) (s : State), q < 4 ∧ s.time.now.toNat < 2 ^ 63 ∧ bitW (s.reg oSyncCtl) 1 = true ∧ (bitW
        (s.reg oSyncCtl) 2 != rising) = true ∧ ((bitW (s.reg oSyncStatus) 0 = false ∧
        s.syncInTime = 0) ∨ 1000 < s.time.now.toNat + 40 * q - s.syncInTime)) ∧
    (∃ (s : State), bitW (s.reg oSyncCtl) 0 = true ∧ s.syncPeriod ≠ 0 ∧ s.syncWidth ≠ 0 ∧ s.syncSince = 0 ∧ s.pwr.phase = .mission) ∧
    (∃ (s : State), s.pins.syncOut = true ∧ s.syncWidth ≤ s.syncSince) ∧
    (∃ (p : HostPort) (o : Int) (s : State), s.timeSource = 2 + portPart p ∧ (s.hport p).up = true ∧ s.time.lock = 2 ∧ o.natAbs ≤ 1000000) ∧
    (∃ (p : HostPort) (o : Int) (s : State), s.timeSource = 2 + portPart p ∧ (s.hport p).up = true ∧ s.time.lock = 2 ∧ o.natAbs ≤ 1000000) ∧
    (∃ (p : HostPort) (o : Int) (s : State), s.timeSource = 2 + portPart p ∧ (s.hport p).up = true ∧ s.time.lock ≠ 2 ∧
        s.time.everLocked = true ∧ s.time.good = 7 ∧ o.natAbs ≤ 1000) ∧
    (∃ (p : HostPort) (o : Int) (s : State), s.timeSource = 2 + portPart p ∧ (s.hport p).up = true ∧ s.time.lock ≠ 2 ∧
        s.time.everLocked = true ∧ s.time.good = 7 ∧ o.natAbs ≤ 1000) ∧
    (∃ (p : HostPort) (o : Int) (s : State), s.timeSource = 2 + portPart p ∧ (s.hport p).up = true ∧ s.time.lock ≠ 2 ∧
        s.time.everLocked = true ∧ s.time.good < 7 ∧ o.natAbs ≤ 1000) ∧
    (∃ (p : HostPort) (o : Int) (s : State), s.timeSource = 2 + portPart p ∧ (s.hport p).up = true ∧ s.time.lock ≠ 2 ∧
        s.time.everLocked = true ∧ s.time.good < 7 ∧ o.natAbs ≤ 1000) ∧
    (∃ (p : HostPort) (o : Int) (s : State), s.timeSource = 2 + portPart p ∧ (s.hport p).up = true ∧ s.time.lock ≠ 2 ∧
        s.time.everLocked = false ∧ 0 < s.time.good ∧ o.natAbs ≤ 1000) ∧
    (∃ (p : HostPort) (o : Int) (s : State), s.timeSource = 2 + portPart p ∧ (s.hport p).up = true ∧ s.time.lock ≠ 2 ∧
        s.time.everLocked = false ∧ 0 < s.time.good ∧ o.natAbs ≤ 1000) ∧
    (∃ (p : HostPort) (o : Int) (s : State), s.timeSource = 2 + portPart p ∧ (s.hport p).up = true ∧ s.time.lock ≠ 2 ∧
        s.time.everLocked = false ∧ 0 < s.time.good ∧ o.natAbs ≤ 1000) ∧
    (∃ (p : HostPort) (s : State), s.timeSource = 2 + portPart p ∧ (s.hport p).up = true) ∧
    (∃ (e : Nat) (o : Int) (s : State), s.timeSource = 1 ∧ fld (s.reg oTimeCtl) 3 2 = e ∧ bitW (s.reg (oPortCtl (0x18 + e))) 0 = true ∧
        s.time.lock = 2 ∧ o.natAbs ≤ 1000000) ∧
    (∃ (s : State), s.timeSource ≠ 0 ∧ s.time.failed = false ∧ s.silent 0x006) :=
  ⟨⟨true, 0, ((at' 2000 up)).setReg (oSyncCtl) 2#32, by decide +kernel⟩,
   ⟨false, 3, ((((at' 2000 up)).setReg (oSyncCtl) 6#32).setReg (oSyncStatus) 1#32).setReg (0x230) 1119#32, by decide +kernel⟩,
   ⟨true, 3, ((((at' 2000 up)).setReg (oSyncCtl) 2#32).setReg (oSyncStatus) 1#32).setReg (0x230) 1000#32, by decide +kernel⟩,
   ⟨(((at' 33333000 up)).setReg (oSyncCtl) 1#32).setReg (oSyncPeriod) 0x06408235#32, by decide +kernel⟩,
   ⟨((at' 0 ({ up with pins := { up.pins with syncOut := true } }))).setReg (oSyncPeriod) 0x00008235#32, by decide +kernel⟩,
   ⟨.hostA, 1000000, ({ up with time := { up.time with lock := 2 } }).setReg (oTimeCtl) 2#32, by decide +kernel⟩,
   ⟨.hostB, -1000000, ({ up with time := { up.time with lock := 2 } }).setReg (oTimeCtl) 3#32, by decide +kernel⟩,
   ⟨.hostA, 1000, ({ (up : State) with time := { up.time with lock := 1, everLocked := true, good := 7 } }).setReg (oTimeCtl) 2#32,
       by decide +kernel⟩,
   ⟨.hostB, -1000, ({ (up : State) with time := { up.time with lock := 3, everLocked := true, good := 7 } }).setReg (oTimeCtl) 3#32,
       by decide +kernel⟩,
   ⟨.hostA, 1000, ({ (up : State) with time := { up.time with lock := 1, everLocked := true, good := 6 } }).setReg (oTimeCtl) 2#32,
       by decide +kernel⟩,
   ⟨.hostB, -1000, ({ (up : State) with time := { up.time with lock := 3, everLocked := true, good := 0 } }).setReg (oTimeCtl) 3#32,
       by decide +kernel⟩,
   ⟨.hostA, 500, ({ (up : State) with time := { up.time with lock := 1, everLocked := false, good := 3 } }).setReg (oTimeCtl) 2#32,
       by decide +kernel⟩,
   ⟨.hostB, -600, ({ (up : State) with time := { up.time with lock := 1, everLocked := false, good := 7 } }).setReg (oTimeCtl) 3#32,
       by decide +kernel⟩,
   ⟨.hostB, 1000, ({ (up : State) with time := { up.time with lock := 0, everLocked := false, good := 7 } }).setReg (oTimeCtl) 3#32,
       by decide +kernel⟩,
   ⟨.hostA, (up).setReg (oTimeCtl) 2#32, by decide +kernel⟩,
   ⟨1, -1000000, (({ up with time := { up.time with lock := 2 } }).setReg (oTimeCtl) 5#32).setReg (oPortCtl 0x19) 1#32, by decide +kernel⟩,
   ⟨quiet 6 (({ up with time := { up.time with lock := 2 } }).setReg (oTimeCtl) 1#32), by decide +kernel⟩⟩

/-- States and operands that meet the hypotheses of EepromAnswersReadsOnly. -/
theorem witness_EepromAnswersReadsOnly :
    (∃ (off : Nat) (n : Nat) (s : State), s.supply.standby = true) ∧
    (∃ (off : Nat) (n : Nat) (s : State), s.supply.standby = true) ∧
    (∃ (a : BitVec 7) (r : Bool) (off : Nat) (n : Nat) (s : State), (s.supply.standby = false ∨ a ≠ 0x50#7 ∨ r = false)) ∧
    (∃ (a : BitVec 7) (r : Bool) (off : Nat) (n : Nat) (s : State), (s.supply.standby = false ∨ a ≠ 0x50#7 ∨ r = false)) ∧
    (∃ (a : BitVec 7) (r : Bool) (off : Nat) (n : Nat) (s : State), (s.supply.standby = false ∨ a ≠ 0x50#7 ∨ r = false)) :=
  ⟨⟨255, 2, { up with sec := { up.sec with eeprom := [7, 8, 9] } }, by decide +kernel⟩,
   ⟨0, 0, up, by decide +kernel⟩,
   ⟨0x50#7, true, 0, 4, { up with supply := { up.supply with standby := false } }, by decide +kernel⟩,
   ⟨0x50#7, false, 0, 4, up, by decide +kernel⟩,
   ⟨0x51#7, true, 0, 4, up, by decide +kernel⟩⟩

/-- States and operands that meet the hypotheses of HostLinkLossResetsItsPort. -/
theorem witness_HostLinkLossResetsItsPort :
    (∃ (p : HostPort) (s : State), (s.hport p).up = true ∧ (∀ c ∈ s.ctxs, c.fn.port ≠ p) ∧ s.timeSource ≠ 2 + portPart p ∧ s.silent
        (0x18 + portPart p) ∧ s.portS.up = false) ∧
    (∃ (p : HostPort) (s : State), (s.hport p).up = true ∧ (∀ c ∈ s.ctxs, c.fn.port ≠ p) ∧ s.timeSource ≠ 2 + portPart p ∧ s.silent
        (0x18 + portPart p) ∧ s.portS.up = false) ∧
    (∃ (p : HostPort) (s : State), (s.hport p).up = false ∧ s.pins.wakeN = false) ∧
    (∃ (p : HostPort) (s : State), (s.hport p).up = true) :=
  ⟨⟨.hostA, quiet 0x18 (noSup { up with
      msix := { up.msix with enabled := [.fn { port := .hostA, num := 0 }, .fn { port := .hostB, num := 0 }] }, latches := [(3,
      .host { port := .hostA, num := 0 }), (4, .host { port := .hostB, num := 31 })] }), by decide +kernel⟩,
   ⟨.hostB, quiet 0x19 (noSup { up with portB := { up.portB with numVfs := 31, downCount := 255 } }), by decide +kernel⟩,
   ⟨.hostA, { up with portA := PortSt.reset }, by decide +kernel⟩,
   ⟨.hostB, up, by decide +kernel⟩⟩

/-- States and operands that meet the hypotheses of HostLinkComesUpAndDegrades. -/
theorem witness_HostLinkComesUpAndDegrades :
    (∃ (p : HostPort) (w : Nat) (sp : Nat) (mps : Nat) (s : State), s.mayTrain (asPort p) = true ∧ s.pwr.firmware = true ∧
        (s.hport p).up = false ∧ 8 ≤ w ∧ 5 ≤ sp ∧ 256 ≤ mps ∧ s.portS.up = false) ∧
    (∃ (p : HostPort) (w : Nat) (sp : Nat) (mps : Nat) (s : State), s.mayTrain (asPort p) = true ∧ s.pwr.firmware = true ∧
        (s.hport p).up = false ∧ 8 ≤ w ∧ 5 ≤ sp ∧ 256 ≤ mps ∧ s.portS.up = false) ∧
    (∃ (p : HostPort) (w : Nat) (sp : Nat) (mps : Nat) (s : State), s.mayTrain (asPort p) = true ∧ s.pwr.firmware = true ∧
        (s.hport p).up = false ∧ (w < 8 ∨ sp < 5 ∨ mps < 256) ∧ s.silent (0x1A + portPart p) ∧ s.portS.up = false) ∧
    (∃ (p : HostPort) (w : Nat) (sp : Nat) (mps : Nat) (s : State), s.mayTrain (asPort p) = true ∧ s.pwr.firmware = true ∧
        (s.hport p).up = false ∧ (w < 8 ∨ sp < 5 ∨ mps < 256) ∧ s.silent (0x1A + portPart p) ∧ s.portS.up = false) ∧
    (∃ (p : HostPort) (w : Nat) (sp : Nat) (mps : Nat) (s : State), s.mayTrain (asPort p) = true ∧ s.pwr.firmware = true ∧
        (s.hport p).up = false ∧ (w < 8 ∨ sp < 5 ∨ mps < 256) ∧ s.silent (0x1A + portPart p) ∧ s.portS.up = false) ∧
    (∃ (p : HostPort) (w : Nat) (sp : Nat) (mps : Nat) (s : State), (s.hport p).up = true ∧ (s.hport p).degraded = true ∧
        (w < 8 ∨ sp < 5 ∨ mps < 256)) ∧
    (∃ (p : HostPort) (w : Nat) (sp : Nat) (mps : Nat) (s : State), (s.hport p).up = true ∧ (s.hport p).degraded = true ∧
        (w < 8 ∨ sp < 5 ∨ mps < 256)) ∧
    (∃ (p : HostPort) (w : Nat) (sp : Nat) (mps : Nat) (s : State), (s.hport p).up = true ∧ (s.hport p).degraded = false ∧
        (w < 8 ∨ sp < 5 ∨ mps < 256) ∧ s.silent (0x1A + portPart p) ∧ s.portS.up = false) ∧
    (∃ (p : HostPort) (w : Nat) (sp : Nat) (mps : Nat) (s : State), (s.hport p).up = true ∧ (s.hport p).degraded = false ∧
        (w < 8 ∨ sp < 5 ∨ mps < 256) ∧ s.silent (0x1A + portPart p) ∧ s.portS.up = false) ∧
    (∃ (p : HostPort) (w : Nat) (sp : Nat) (mps : Nat) (s : State), (s.hport p).up = true ∧ (s.hport p).degraded = false ∧
        (w < 8 ∨ sp < 5 ∨ mps < 256) ∧ s.silent (0x1A + portPart p) ∧ s.portS.up = false) ∧
    (∃ (p : HostPort) (mps : Nat) (s : State), (s.hport p).up = true ∧ (s.hport p).degraded = true ∧ 256 ≤ mps) ∧
    (∃ (p : HostPort) (s : State), (s.hport p).up = true) ∧
    (∃ (p : HostPort) (s : State), (s.hport p).up = true) :=
  ⟨⟨.hostA, 8, 5, 256, at' 100000000 (noPorts up), by decide +kernel⟩,
   ⟨.hostB, 16, 5, 512, at' 100000000 (noPorts up), by decide +kernel⟩,
   ⟨.hostA, 7, 5, 256, quiet 26 (at' 100000000 (noPorts up)), by decide +kernel⟩,
   ⟨.hostB, 8, 4, 256, quiet 27 (at' 100000000 (noPorts up)), by decide +kernel⟩,
   ⟨.hostB, 8, 5, 255, quiet 27 (at' 100000000 (noPorts up)), by decide +kernel⟩,
   ⟨.hostA, 7, 5, 256, { up with portA := { up.portA with degraded := true } }, by decide +kernel⟩,
   ⟨.hostA, 8, 4, 255, { up with portA := { up.portA with degraded := true } }, by decide +kernel⟩,
   ⟨.hostA, 7, 5, 256, quiet 26 (noSup up), by decide +kernel⟩,
   ⟨.hostB, 8, 4, 256, quiet 27 (noSup up), by decide +kernel⟩,
   ⟨.hostB, 8, 5, 255, quiet 27 (noSup up), by decide +kernel⟩,
   ⟨.hostB, 256, { up with portB := { up.portB with degraded := true, width := 1 } }, by decide +kernel⟩,
   ⟨.hostB, up, by decide +kernel⟩,
   ⟨.hostA, { up with portA := { up.portA with recoveryCount := 255 } }, by decide +kernel⟩⟩

/-- States and operands that meet the hypotheses of SupervisorLinkHoldsItsVectors. -/
theorem witness_SupervisorLinkHoldsItsVectors :
    (∃ (s : State), s.portS.up = true ∧ s.silent 0x007) ∧
    (∃ (s : State), s.mayTrain .sup = true ∧ (s.pwr.firmware = true ∨ s.pwr.recovery = true) ∧ s.portS.up = false ∧
        s.msix.enabled.contains .sup = false) ∧
    (∃ (s : State), s.mayTrain .sup = true ∧ (s.pwr.firmware = true ∨ s.pwr.recovery = true) ∧ s.portS.up = false ∧
        s.msix.enabled.contains .sup = false) ∧
    (∃ (s : State), s.mayTrain .sup = true ∧ (s.pwr.firmware = true ∨ s.pwr.recovery = true) ∧ s.portS.up = false ∧
        (∀ v ∈ 2 :: s.hasp.supPending, s.msix.unmasked.contains { fn := .sup, vector := v } = true)) :=
  ⟨⟨quiet 7 ({ up with msix := { up.msix with enabled := [.sup] } }), by decide +kernel⟩,
   ⟨at' 100000000 (noSup up), by decide +kernel⟩,
   ⟨at' 100000000 (noSup
       { up with pwr := { up.pwr with firmware := false, recovery := true }, hasp := { up.hasp with supPending := [1] } }),
       by decide +kernel⟩,
   ⟨at' 100000000 (noSup { up with
       hasp := { up.hasp with supPending := [1, 2] }, msix := { up.msix with unmasked := [⟨.sup, 1⟩, ⟨.sup, 2⟩] } }), by decide +kernel⟩⟩

/-- States and operands that meet the hypotheses of FunctionsResetAndVectors. -/
theorem witness_FunctionsResetAndVectors :
    (∃ (p : HostPort) (n : Nat) (s : State), s.fnLive { port := p, num := 0 } = true ∧ (s.hport p).numVfs = 0 ∧ 1 ≤ n ∧ n ≤ 31) ∧
    (∃ (p : HostPort) (n : Nat) (s : State), s.fnLive { port := p, num := 0 } = true ∧ (s.hport p).numVfs = 0 ∧ 1 ≤ n ∧ n ≤ 31) ∧
    (∃ (p : HostPort) (n : Nat) (s : State), s.fnLive { port := p, num := 0 } = true ∧ (s.hport p).numVfs = 0 ∧ 1 ≤ n ∧ n ≤ 31) ∧
    (∃ (p : HostPort) (n : Nat) (s : State), s.fnLive { port := p, num := 0 } = true ∧ (s.hport p).numVfs = 0 ∧ 1 ≤ n ∧ n ≤ 31) ∧
    (∃ (p : HostPort) (s : State), s.fnLive { port := p, num := 0 } = true ∧ (∀ c ∈ s.ctxs, c.fn.port ≠ p)) ∧
    (∃ (p : HostPort) (s : State), s.fnLive { port := p, num := 0 } = true ∧ (∀ c ∈ s.ctxs, c.fn.port ≠ p)) ∧
    (∃ (f : FnId) (s : State), s.fnLive f = true ∧ f.num ≠ 0 ∧ f.num < 32 ∧ (∀ c ∈ s.ctxs, c.fn ≠ f)) ∧
    (∃ (f : FnId) (s : State), s.fnLive f = true ∧ f.num = 0 ∧ (∀ c ∈ s.ctxs, c.fn.port ≠ f.port)) ∧
    (∃ (f : FnId) (s : State), s.fnLive f = true ∧ f.num = 0 ∧ (∀ c ∈ s.ctxs, c.fn.port ≠ f.port)) ∧
    (∃ (f : FnId) (m : Bool) (s : State), f ∈ s.flrBusy) ∧
    (∃ (f : FnId) (m : Bool) (s : State), f ∈ s.flrBusy) ∧
    (∃ (f : FnId) (m : Bool) (s : State), f ∉ s.flrBusy) ∧
    (∃ (f : IrqFn) (v : Nat) (s : State), s.irqLive f = true ∧ v < irqVectors f ∧ s.msix.pending.contains { fn := f, vector := v } = true ∧
        s.msix.enabled.contains f = true) ∧
    (∃ (f : IrqFn) (v : Nat) (s : State), s.irqLive f = true ∧ v < irqVectors f ∧ s.msix.pending.contains { fn := f, vector := v } = true ∧
        s.msix.enabled.contains f = true) ∧
    (∃ (f : FnId) (off : Nat) (s : State), s.fnExists f = true ∧ s.silent (0x1C + portPart f.port)) :=
  ⟨⟨.hostA, 1, up, by decide +kernel⟩,
   ⟨.hostB, 31, up, by decide +kernel⟩,
   ⟨.hostA, 31, up, by decide +kernel⟩,
   ⟨.hostB, 1, up, by decide +kernel⟩,
   ⟨.hostA, { (up : State) with portA := { up.portA with numVfs := 31 }, flrBusy := [fB] }, by decide +kernel⟩,
   ⟨.hostB, { (up : State) with portA := { up.portA with numVfs := 31 }, flrBusy := [fA] }, by decide +kernel⟩,
   ⟨{ port := .hostA, num := 31 }, { up with
       portA := { up.portA with numVfs := 31 }, latches := [(0, .host { port := .hostA, num := 31 })], msix := { up.msix with
       enabled := [.fn { port := .hostA, num := 31 }] } }, by decide +kernel⟩,
   ⟨fB, { (up : State) with
       portB := { up.portB with numVfs := 31 }, latches := [(0, .host fB), (1, .host fA)], msix := { up.msix with
       enabled := [.fn fB, .fn { port := .hostB, num := 3 }] } }, by decide +kernel⟩,
   ⟨fA, up, by decide +kernel⟩,
   ⟨fB, true, { (up : State) with portA := { up.portA with numVfs := 31 }, flrBusy := [fB] }, by decide +kernel⟩,
   ⟨fB, false, { (up : State) with portA := { up.portA with numVfs := 31 }, flrBusy := [fB] }, by decide +kernel⟩,
   ⟨fB, true, up, by decide +kernel⟩,
   ⟨.sup, 0, { up with msix := { up.msix with enabled := [.sup], pending := [⟨.sup, 0⟩] } }, by decide +kernel⟩,
   ⟨.fn { port := .hostB, num := 0 }, 2047, { up with
       msix := { up.msix with enabled := [.fn { port := .hostB, num := 0 }], pending := [⟨.fn { port := .hostB, num := 0 }, 2047⟩] } },
       by decide +kernel⟩,
   ⟨{ port := .hostA, num := 0 }, 0x1000, quiet 28 (up), by decide +kernel⟩⟩

/-- States and operands that meet the hypotheses of FirmwareWakesTheDiesUnderTheOwnerRecord. -/
theorem witness_FirmwareWakesTheDiesUnderTheOwnerRecord :
    (∃ (s : State), s.pwr.phase = .mission ∧ s.pwr.recovery = false ∧ s.pwr.stage = 1) ∧
    (∃ (s : State), s.pwr.phase = .mission ∧ s.pwr.recovery = false ∧ s.pwr.stage = 1) ∧
    (∃ (s : State), s.pwr.phase = .mission ∧ s.pwr.recovery = false ∧ s.pwr.stage = 1) ∧
    (∃ (s : State), s.pwr.phase = .mission ∧ s.pwr.recovery = false ∧ s.pwr.stage = 1) :=
  ⟨⟨{ up with
      pwr := { up.pwr with stage := 1, firmware := false, heartbeat := false, ready := false }, wa := WeftDie.reset, wb := WeftDie.reset,
      sec := { up.sec with idSeed := 9 } }, by decide +kernel⟩,
   ⟨{ up with
       pwr := { up.pwr with stage := 1, firmware := false, heartbeat := false, ready := false }, wa := WeftDie.reset, wb := WeftDie.reset,
       sec := { up.sec with returnedFuse := true } }, by decide +kernel⟩,
   ⟨{ up with
       pwr := { up.pwr with stage := 1, firmware := false, heartbeat := false, ready := false }, wa := WeftDie.reset, wb := WeftDie.reset,
       sec := { up.sec with idSeed := 9 } }, by decide +kernel⟩,
   ⟨{ up with
       pwr := { up.pwr with stage := 1, firmware := false, heartbeat := false, ready := false }, wa := WeftDie.reset, wb := WeftDie.reset,
       sec := { up.sec with ownedFuse := true, owner0 := goodOwner, owner1 := goodOwner } }, by decide +kernel⟩⟩

/-- States and operands that meet the hypotheses of Gddr6IsZeroedAndInjectionAnswers. -/
theorem witness_Gddr6IsZeroedAndInjectionAnswers :
    (∃ (d : Weft) (s : State), (s.weft d).isTraining = true) ∧
    (∃ (d : Weft) (n : Nat) (s : State), (s.weft d).isTraining = true ∧ n < 12 ∧ (s.weft d).chans.length = 12 ∧ s.silent (weftSrc d 0x23) ∧
        s.noLcAdmitted) ∧
    (∃ (d : Weft) (n : Nat) (s : State), (s.weft d).isTraining = true ∧ n < 12 ∧ (s.weft d).chans.length = 12 ∧ s.silent (weftSrc d 0x23) ∧
        s.noLcAdmitted) ∧
    (∃ (d : Weft) (s : State), (s.weft d).isTraining = false ∧ (s.weft d).zeroed = false ∧ (∀ c ∈ (s.weft d).chans, c.train ≠ 0)) ∧
    (∃ (d : Weft) (s : State), (s.weft d).isTraining = false ∧ (s.weft d).zeroed = false ∧ (∀ c ∈ (s.weft d).chans, c.train ≠ 0)) ∧
    (∃ (s : State), s.pwr.firmware = true ∧ s.pwr.injected = false ∧ s.pwr.stage = 4 ∧ s.pwr.refLost = false) ∧
    (∃ (fs : List InjectFailure) (s : State), s.pwr.firmware = true ∧ s.pwr.injected = false ∧ s.pwr.stage = 4 ∧ s.pwr.refLost = false ∧
        fs ≠ [] ∧ s.noLcAdmitted) ∧
    (∃ (fs : List InjectFailure) (s : State), s.pwr.firmware = true ∧ s.pwr.injected = false ∧ s.pwr.stage = 4 ∧ s.pwr.refLost = false ∧
        fs ≠ [] ∧ s.noLcAdmitted) ∧
    (∃ (d : Weft) (s : State), s.diePhase d = some .injecting ∧ s.pwr.refLost = false ∧ (s.weft d).trainFailed = false) ∧
    (∃ (d : Weft) (s : State), s.diePhase d = some .injecting ∧ s.pwr.refLost = false ∧ (s.weft d).trainFailed = false) ∧
    (∃ (d : Weft) (s : State), s.diePhase d = some .injecting ∧ s.pwr.refLost = false ∧ (s.weft d).trainFailed = true ∧ s.noLcAdmitted) ∧
    (∃ (u : UnitId) (s : State), s.unitPhase u = some .injecting ∧ s.pwr.refLost = false) ∧
    (∃ (d : Weft) (fs : List InjectFailure) (s : State), s.diePhase d = some .injecting ∧ s.pwr.refLost = false ∧ fs ≠ [] ∧
        s.noLcAdmitted) ∧
    (∃ (d : Weft) (fs : List InjectFailure) (s : State), s.diePhase d = some .injecting ∧ s.pwr.refLost = false ∧ fs ≠ [] ∧
        s.noLcAdmitted) ∧
    (∃ (u : UnitId) (fs : List InjectFailure) (s : State), s.unitPhase u = some .injecting ∧ s.pwr.refLost = false ∧ fs ≠ []) ∧
    (∃ (u : UnitId) (fs : List InjectFailure) (s : State), s.unitPhase u = some .injecting ∧ s.pwr.refLost = false ∧ fs ≠ []) ∧
    (∃ (sc : InjectScope) (fs : List InjectFailure) (s : State), s.pwr.refLost = true) :=
  ⟨⟨.a, { up with
      pwr := { up.pwr with stage := 2, ready := false }, wa := { dieUp with
      chans := List.replicate 12 { train := 1, edc := 0, corrected := 0 } } }, by decide +kernel⟩,
   ⟨.b, 0, quiet 547 ({ up with
       pwr := { up.pwr with stage := 2, ready := false }, wb := { dieUp with
       chans := List.replicate 12 { train := 1, edc := 0, corrected := 0 } } }), by decide +kernel⟩,
   ⟨.b, 11, quiet 547 ({ up with
       pwr := { up.pwr with stage := 2, ready := false }, wb := { dieUp with
       chans := List.replicate 12 { train := 1, edc := 0, corrected := 0 } } }), by decide +kernel⟩,
   ⟨.a, { up with pwr := { up.pwr with stage := 3, ready := false }, wa := { dieUp with zeroed := false, gddr := [(5, 1)] } },
       by decide +kernel⟩,
   ⟨.b, { (up : State) with ladder := { up.ladder with dieB := some .training }, wb := { (dieUp : WeftDie) with zeroed := false } },
       by decide +kernel⟩,
   ⟨{ up with
       pwr := { up.pwr with injected := false, stage := 4, ready := false }, pins := { up.pins with faultN := true, aliveRun := false } },
       by decide +kernel⟩,
   ⟨[{ die := .selvedge, checker := 3, inst := 0 }], { (up : State) with
       pwr := { up.pwr with injected := false, stage := 4, ready := false }, pins := { up.pins with faultN := true, aliveRun := false } },
       by decide +kernel⟩,
   ⟨[{ die := .weftB, checker := 3, inst := 5 }, { die := .weftA, checker := 9, inst := 1 }, { die := .weftA, checker := 9, inst := 0 }],
       { (up : State) with
       pwr := { up.pwr with injected := false, stage := 4, ready := false }, pins := { up.pins with faultN := true, aliveRun := false } },
       by decide +kernel⟩,
   ⟨.b, { up with ladder := { up.ladder with dieB := some .injecting } }, by decide +kernel⟩,
   ⟨.a, { up with ladder := { up.ladder with dieA := some .injecting }, pwr := { up.pwr with startFailed := [.a] } }, by decide +kernel⟩,
   ⟨.b, { (up : State) with ladder := { up.ladder with dieB := some .injecting }, wb := { (dieUp : WeftDie) with trainFailed := true } },
       by decide +kernel⟩,
   ⟨.engine 7, { up with ladder := { up.ladder with units := [(.engine 7, .injecting)] } }, by decide +kernel⟩,
   ⟨.a, [{ die := .weftA, checker := 1, inst := 0 }], { (up : State) with ladder := { up.ladder with dieA := some .injecting } },
       by decide +kernel⟩,
   ⟨.b, [{ die := .weftA, checker := 1, inst := 0 }], { (up : State) with ladder := { up.ladder with dieB := some .injecting } },
       by decide +kernel⟩,
   ⟨.engine 7, [{ die := .weftA, checker := 1, inst := 0 }], { (up : State) with
       ladder := { up.ladder with units := [(.engine 7, .injecting)] } }, by decide +kernel⟩,
   ⟨.creel, [{ die := .weftA, checker := 1, inst := 0 }],
       { (up : State) with ladder := { up.ladder with units := [(.creel, .injecting)] } }, by decide +kernel⟩,
   ⟨.module, [], { up with pwr := { up.pwr with refLost := true } }, by decide +kernel⟩⟩

/-- States and operands that meet the hypotheses of BootProofAndReady. -/
theorem witness_BootProofAndReady :
    (∃ (d : Weft) (s : State), s.pwr.injected = true ∧ s.pwr.ready = false ∧ (s.weft d).settled = false) ∧
    (∃ (d : Weft) (v : ProofVerdict) (s : State), s.pwr.injected = true ∧ s.pwr.ready = false ∧ (s.weft d).settled = false ∧ v ≠ .passed ∧
        s.silent (weftSrc d 0x26) ∧ s.noLcAdmitted) ∧
    (∃ (d : Weft) (v : ProofVerdict) (s : State), s.pwr.injected = true ∧ s.pwr.ready = false ∧ (s.weft d).settled = false ∧ v ≠ .passed ∧
        s.silent (weftSrc d 0x26) ∧ s.noLcAdmitted) ∧
    (∃ (d : Weft) (v : ProofVerdict) (s : State), s.pwr.injected = true ∧ s.pwr.ready = false ∧ (s.weft d).settled = false ∧ v ≠ .passed ∧
        s.silent (weftSrc d 0x26) ∧ s.noLcAdmitted) ∧
    (∃ (s : State), s.mayBeReady = true ∧ s.heldBells = [] ∧ s.portS.up = false) ∧
    (∃ (b : HeldBell) (cx : Ctx) (r : Ring) (desc : List Byte) (s : State), s.mayBeReady = true ∧ s.heldBells = [b] ∧ s.portS.up = false ∧
        s.ctx? b.ctx = some cx ∧ s.ring? b.ctx b.ring = some r ∧ r.unread b.index = 1) :=
  ⟨⟨.a, { up with
      pwr := { up.pwr with ready := false, stage := 5 }, wa := { dieUp with inService := false },
      wb := { dieUp with inService := false } }, by decide +kernel⟩,
   ⟨.b, .finishDiffers, quiet 550 ({ up with
       pwr := { up.pwr with ready := false, stage := 5 }, wa := { dieUp with inService := false },
       wb := { dieUp with inService := false } }), by decide +kernel⟩,
   ⟨.b, .crcDiffers, quiet 550 ({ up with
       pwr := { up.pwr with ready := false, stage := 5 }, wa := { dieUp with inService := false },
       wb := { dieUp with inService := false } }), by decide +kernel⟩,
   ⟨.b, .none, quiet 550 ({ up with
       pwr := { up.pwr with ready := false, stage := 5 }, wa := { dieUp with inService := false },
       wb := { dieUp with inService := false } }), by decide +kernel⟩,
   ⟨at' 1500000 (noSup { up with pwr := { up.pwr with ready := false, stage := 6 } }), by decide +kernel⟩,
   ⟨{ ctx := 1, ring := 0, index := 2 }, (ctx 1 fA true), (busy.rings.headD noRing), List.replicate 64 7, noSup { (busy : State) with
       pwr := { up.pwr with ready := false, stage := 6 }, heldBells := [{ ctx := 1, ring := 0, index := 2 }] }, by decide +kernel⟩⟩

/-- States and operands that meet the hypotheses of InstallAndRollback. -/
theorem witness_InstallAndRollback :
    (∃ (ok : Bool) (s : State), s.portS.up = true ∧ s.pwr.recovery = true ∧ s.sec.installing = none) ∧
    (∃ (ok : Bool) (s : State), s.portS.up = true ∧ s.pwr.recovery = true ∧ s.sec.installing = none) ∧
    (∃ (ok : Bool) (s : State), (s.portS.up = false ∨ s.pwr.recovery = false ∨ s.sec.installing ≠ none)) ∧
    (∃ (ok : Bool) (s : State), (s.portS.up = false ∨ s.pwr.recovery = false ∨ s.sec.installing ≠ none)) ∧
    (∃ (s : State), s.portS.up = true ∧ s.pwr.firmware = true ∧ s.sec.rollbackFused < s.sec.manifest.rollback) ∧
    (∃ (s : State), s.portS.up = true ∧ s.pwr.firmware = true ∧ s.sec.rollbackFused < s.sec.manifest.rollback) ∧
    (∃ (s : State), s.sec.manifest.rollback ≤ s.sec.rollbackFused) :=
  ⟨⟨true, { up with
      pwr := { up.pwr with recovery := true, firmware := false, ready := false }, wa := { dieUp with
      beam := Memory.writeBytes [] 0 goodImage } }, by decide +kernel⟩,
   ⟨false, { up with pwr := { up.pwr with recovery := true, firmware := false, ready := false } }, by decide +kernel⟩,
   ⟨true, up, by decide +kernel⟩,
   ⟨true, { up with
       pwr := { up.pwr with recovery := true, firmware := false, ready := false }, sec := { up.sec with installing := some ([], true) } },
       by decide +kernel⟩,
   ⟨{ up with sec := { up.sec with rollbackFused := 3, manifest := { up.sec.manifest with rollback := 4 } } }, by decide +kernel⟩,
   ⟨{ up with sec := { up.sec with rollbackFused := 63, manifest := { up.sec.manifest with rollback := 255 } } }, by decide +kernel⟩,
   ⟨{ up with sec := { up.sec with rollbackFused := 4, manifest := { up.sec.manifest with rollback := 4 } } }, by decide +kernel⟩⟩

/-- States and operands that meet the hypotheses of GroupsWakeAndSleep. -/
theorem witness_GroupsWakeAndSleep :
    (∃ (d : Weft) (g : Grp) (s : State), s.pwr.phase = .mission ∧ (s.pwr.recovery = false ∨ (d = .a ∧ g = .beam))) ∧
    (∃ (d : Weft) (g : Grp) (s : State), s.pwr.phase = .mission ∧ (s.pwr.recovery = false ∨ (d = .a ∧ g = .beam))) ∧
    (∃ (d : Weft) (g : Grp) (s : State), s.pwr.phase = .mission ∧ (s.pwr.recovery = false ∨ (d = .a ∧ g = .beam))) ∧
    (∃ (d : Weft) (g : Grp) (s : State), s.pwr.phase = .mission ∧ (s.pwr.recovery = false ∨ (d = .a ∧ g = .beam))) ∧
    (∃ (d : Weft) (g : Grp) (s : State), s.pwr.recovery = true ∧ (d, g) ≠ (.a, .beam)) ∧
    (∃ (d : Weft) (g : Grp) (p : PState) (s : State), (s.weft d).grp g = .waking p ∧ s.noSteps ∧ s.bus.heldWrites = [] ∧
        s.wa.checks.phase ≠ .due ∧ s.wb.checks.phase ≠ .due ∧ (∀ x ∈ s.slots, x.input = [])) ∧
    (∃ (d : Weft) (g : Grp) (p : PState) (s : State), (s.weft d).grp g = .waking p ∧ s.noSteps ∧ s.bus.heldWrites = [] ∧
        s.wa.checks.phase ≠ .due ∧ s.wb.checks.phase ≠ .due ∧ (∀ x ∈ s.slots, x.input = [])) ∧
    (∃ (d : Weft) (g : Grp) (p : PState) (q : PState) (s : State), (s.weft d).grp g = .entering p q ∧ q ≠ .rest) ∧
    (∃ (d : Weft) (g : Grp) (p : PState) (q : PState) (s : State), (s.weft d).grp g = .entering p q ∧ q ≠ .rest) ∧
    (∃ (d : Weft) (p : PState) (s : State), (s.weft d).grp .beam = .entering p .rest) ∧
    (∃ (d : Weft) (g : Grp) (p : PState) (s : State), (s.weft d).grp g = .at p ∧ s.pwr.phase = .mission ∧ s.grpBusy d g = false ∧
        s.pwr.refLost = false ∧ s.pwr.recovery = false ∧ p.depth < (s.idleTarget g).depth) ∧
    (∃ (d : Weft) (g : Grp) (p : PState) (s : State), (s.weft d).grp g = .at p ∧ s.pwr.phase = .mission ∧ s.grpBusy d g = false ∧
        s.pwr.refLost = false ∧ s.pwr.recovery = false ∧ p.depth < (s.idleTarget g).depth) ∧
    (∃ (d : Weft) (g : Grp) (p : PState) (s : State), (s.weft d).grp g = .at p ∧ s.pwr.phase = .mission ∧ s.grpBusy d g = false ∧
        s.pwr.refLost = false ∧ s.pwr.recovery = false ∧ g ∉ (s.weft d).benchIdle ∧ p ≠ .rest ∧ s.deepest g = 3 ∧ fld
        (s.reg oPwrIdle) 31 18 ≠ 0) ∧
    (∃ (d : Weft) (g : Grp) (s : State), (s.grpBusy d g = true ∨ s.pwr.refLost = true ∨ s.pwr.recovery = true)) ∧
    (∃ (d : Weft) (g : Grp) (s : State), (s.grpBusy d g = true ∨ s.pwr.refLost = true ∨ s.pwr.recovery = true)) ∧
    (∃ (d : Weft) (g : Grp) (s : State), (s.grpBusy d g = true ∨ s.pwr.refLost = true ∨ s.pwr.recovery = true)) :=
  ⟨⟨.a, .loom, up, by decide +kernel⟩,
   ⟨.a, .loom, { up with wa := { dieUp with loom := .at .rest } }, by decide +kernel⟩,
   ⟨.b, .beam, { up with wb := { dieUp with beamGrp := .entering .warm .cool } }, by decide +kernel⟩,
   ⟨.a, .beam, { up with pwr := { up.pwr with recovery := true }, wa := { dieUp with beamGrp := .at .rest, benchIdle := [.beam, .loom] } },
       by decide +kernel⟩,
   ⟨.b, .beam, { up with pwr := { up.pwr with recovery := true } }, by decide +kernel⟩,
   ⟨.b, .shuttle, .rest, { up with wb := { dieUp with shuttle := .waking .rest }, clk := { up.clk with weftB := 5 } }, by decide +kernel⟩,
   ⟨.a, .beam, .rest, { up with wa := { dieUp with beamGrp := .waking .rest, beam := [(4, 4)] } }, by decide +kernel⟩,
   ⟨.a, .loom, .run, .warm, { up with wa := { dieUp with loom := .entering .run .warm } }, by decide +kernel⟩,
   ⟨.a, .beam, .warm, .cool, { up with wa := { dieUp with beamGrp := .entering .warm .cool, beam := [(4, 4)] } }, by decide +kernel⟩,
   ⟨.b, .cool, { up with wb := { dieUp with beamGrp := .entering .cool .rest, beam := [(4, 4)], gddr := [(4, 4)] } }, by decide +kernel⟩,
   ⟨.a, .loom, .run, up, by decide +kernel⟩,
   ⟨.b, .reedFinish, .warm, (({ up with wb := { dieUp with reedFinish := .at .warm } }).setReg (oPwrIdle) 0x30000#32).setReg
       (oPartLoom 0) 0x800#32, by decide +kernel⟩,
   ⟨.a, .shuttle, .cool, ((({ up with wa := { dieUp with shuttle := .at .cool } }).setReg (oSafety) 2#32).setReg
       (oPwrIdle) 0x40000#32).setReg (oPartLoom 0) 0#32, by decide +kernel⟩,
   ⟨.a, .loom, running, by decide +kernel⟩,
   ⟨.a, .loom, { up with pwr := { up.pwr with refLost := true } }, by decide +kernel⟩,
   ⟨.b, .beam, { up with pwr := { up.pwr with recovery := true } }, by decide +kernel⟩⟩

/-- States and operands that meet the hypotheses of ModuleFrameBegins. -/
theorem witness_ModuleFrameBegins :
    (∃ (s : State), s.clk.fabric = true ∧ s.pwr.phase = .mission ∧ s.frame.running = false ∧ s.frameUs ≠ 0 ∧ fld
        (s.reg oFramePhase) 16 0 ≤ s.time.now.toNat / 1000 ∧ s.time.now.toNat < 2 ^ 63) ∧
    (∃ (s : State), s.clk.fabric = true ∧ s.pwr.phase = .mission ∧ s.frame.running = false ∧ s.frameUs ≠ 0 ∧ fld
        (s.reg oFramePhase) 16 0 ≤ s.time.now.toNat / 1000 ∧ s.time.now.toNat < 2 ^ 63) :=
  ⟨⟨at' 99999 up, by decide +kernel⟩,
   ⟨(((at' 100000000 up)).setReg (oFrame) 10000#32).setReg (oFramePhase) 9999#32, by decide +kernel⟩⟩

/-- States and operands that meet the hypotheses of ProofInputRuns. -/
theorem witness_ProofInputRuns :
    (∃ (d : Weft) (s : State), s.provable d = true ∧ s.proofInTime = true ∧ s.frameAt s.startUs ≤ s.time.now.toNat ∧
        ((s.weft d).checks.phase = .idle ∨ (s.weft d).checks.phase = .due) ∧ s.dieRun d = true ∧ s.clocked (.loom d) = true ∧
        (s.weft d).atBoundary = true ∧ (s.weft d).checks.slice = none ∧ (s.weft (otherDie d)).checks.phase ≠ .due ∧
        (s.weft d).benchIdle = [] ∧ (s.mode = 0 ∨ s.provable (otherDie d) = false ∨ (s.weft (otherDie d)).checks.phase ≠ .idle)) ∧
    (∃ (d : Weft) (s : State), s.provable d = true ∧ s.proofInTime = true ∧ s.frameAt s.startUs ≤ s.time.now.toNat ∧
        ((s.weft d).checks.phase = .idle ∨ (s.weft d).checks.phase = .due) ∧ s.dieRun d = true ∧ s.clocked (.loom d) = true ∧
        (s.weft d).atBoundary = true ∧ (s.weft d).checks.slice = none ∧ (s.weft (otherDie d)).checks.phase ≠ .due ∧
        (s.weft d).benchIdle = [] ∧ (s.mode = 0 ∨ s.provable (otherDie d) = false ∨ (s.weft (otherDie d)).checks.phase ≠ .idle)) ∧
    (∃ (d : Weft) (s : State), s.provable d = true ∧ s.proofInTime = true ∧ s.frameAt s.startUs ≤ s.time.now.toNat ∧ s.mode = 1 ∧
        ((s.weft d).checks.phase = .idle ∨ (s.weft d).checks.phase = .due) ∧ (s.weft (otherDie d)).checks.phase = .due ∧ (∀ e,
        s.dieRun e = true ∧ s.clocked (.loom e) = true ∧ (s.weft e).atBoundary = true ∧ (s.weft e).checks.slice = none) ∧ s.proofCanEnter
        (otherDie d) = true) ∧
    (∃ (d : Weft) (s : State), s.provable d = true ∧ s.proofInTime = true ∧ s.frameAt s.startUs ≤ s.time.now.toNat ∧
        (s.weft d).checks.phase = .idle ∧ s.dieRun d = true ∧ (s.weft d).atBoundary = false ∧ (s.weft (otherDie d)).checks.phase ≠ .due ∧
        (s.weft d).benchIdle = []) ∧
    (∃ (d : Weft) (s : State), (s.provable d = false ∨ s.proofInTime = false ∨ s.time.now.toNat < s.frameAt s.startUs)) ∧
    (∃ (d : Weft) (s : State), (s.provable d = false ∨ s.proofInTime = false ∨ s.time.now.toNat < s.frameAt s.startUs)) ∧
    (∃ (d : Weft) (s : State), (s.weft d).checks.phase = .running ∧ s.noSteps ∧ (s.weft d).beam.wf = true ∧ (s.weft
        (otherDie d)).checks.phase ≠ .due) ∧
    (∃ (d : Weft) (s : State), (s.weft d).checks.phase = .released) ∧
    (∃ (d : Weft) (v : ProofVerdict) (s : State), (s.weft d).checks.phase = .released ∧ v ≠ .passed ∧ s.silent (weftSrc d 0x26) ∧
        (∀ f ∈ allFns, bitW (s.fnReg f 0x60) 31 = false)) ∧
    (∃ (d : Weft) (v : ProofVerdict) (s : State), (s.weft d).checks.phase = .released ∧ v ≠ .passed ∧ s.silent (weftSrc d 0x26) ∧
        (∀ f ∈ allFns, bitW (s.fnReg f 0x60) 31 = false)) :=
  ⟨⟨.a, at' 8000000 { (up : State) with frame := { up.frame with running := true } }, by decide +kernel⟩,
   ⟨.b, at' 8000000 { (up : State) with
       frame := { up.frame with running := true }, wb := { (dieUp : WeftDie) with checks := { Checks.reset with phase := .due } } },
       by decide +kernel⟩,
   ⟨.a, (at' 8000000 { (up : State) with
       frame := { up.frame with running := true },
       wb := { (dieUp : WeftDie) with checks := { Checks.reset with phase := .due } } }).setReg oSafety 1#32,
       by and_intros <;> first | exact (fun d => by cases d <;> decide +kernel) | decide +kernel⟩,
   ⟨.b, at' 8000000 { (up : State) with
       frame := { up.frame with running := true }, wb := { (dieUp : WeftDie) with arrayRun := some (stp.opOf 0 (.layer 0) 4 9) } },
       by decide +kernel⟩,
   ⟨.a, up, by decide +kernel⟩,
   ⟨.a, at' 0 { (up : State) with frame := { up.frame with running := true } }, by decide +kernel⟩,
   ⟨.a, { up with wa := { dieUp with checks := { Checks.reset with phase := .running } } }, by decide +kernel⟩,
   ⟨.b, { up with wb := { dieUp with checks := { Checks.reset with phase := .released, firstProof := true } } }, by decide +kernel⟩,
   ⟨.b, .none, quiet 550 ({ up with wb := { dieUp with checks := { Checks.reset with phase := .released, misses := 0 } } }),
       by decide +kernel⟩,
   ⟨.b, .crcDiffers, quiet 550 ({ up with wb := { dieUp with checks := { Checks.reset with phase := .released, misses := 255 } } }),
       by decide +kernel⟩⟩

/-- States and operands that meet the hypotheses of SelfTestRotatesAndIsolates. -/
theorem witness_SelfTestRotatesAndIsolates :
    (∃ (d : Weft) (k : Nat) (s : State), s.provable d = true ∧ s.frame.running = true ∧ (s.weft d).checks.phase = .done ∧
        (s.weft d).checks.sliceDone = false ∧ s.arrayIdle d = true ∧ s.time.now.toNat + 100000 ≤ s.frameEnd ∧ s.dieRun d = true ∧ s.clocked
        (.loom d) = true ∧ k < 4 ∧ s.targetOff d k = false ∧ (∀ j, j < 4 → s.targetOff d j = false → (s.weft d).checks.age j ≤
        (s.weft d).checks.age k) ∧ (∀ j, j < k → s.targetOff d j = false → (s.weft d).checks.age j < (s.weft d).checks.age k)) ∧
    (∃ (d : Weft) (k : Nat) (s : State), s.provable d = true ∧ s.frame.running = true ∧ (s.weft d).checks.phase = .done ∧
        (s.weft d).checks.sliceDone = false ∧ s.arrayIdle d = true ∧ s.time.now.toNat + 100000 ≤ s.frameEnd ∧ s.dieRun d = true ∧ s.clocked
        (.loom d) = true ∧ k < 4 ∧ s.targetOff d k = false ∧ (∀ j, j < 4 → s.targetOff d j = false → (s.weft d).checks.age j ≤
        (s.weft d).checks.age k) ∧ (∀ j, j < k → s.targetOff d j = false → (s.weft d).checks.age j < (s.weft d).checks.age k)) ∧
    (∃ (d : Weft) (k : Nat) (s : State), (s.weft d).checks.slice = some k ∧ s.noSteps ∧ s.wa.checks.phase ≠ .due ∧
        s.wb.checks.phase ≠ .due ∧ k < (s.weft d).checks.ages.length) ∧
    (∃ (d : Weft) (s : State), s.frame.running = true ∧ s.frame.start.toNat + s.frameUs * 500 ≤ s.time.now.toNat ∧
        (s.weft d).checks.phase = .done ∧ (s.weft d).checks.sliceDone = false ∧ (s.weft d).checks.slice = none) ∧
    (∃ (n : Nat) (p : Pair) (s : State), s.pair? n = some p ∧ s.pwr.ready = true ∧ s.mode ≠ 2 ∧ (s.weft (weftOf n)).inService = true ∧
        s.frame.running = true ∧ s.clocked (.shuttle (weftOf n)) = true ∧ (s.weft (weftOf n)).shuttle = .at .run ∧ s.pairOn n = true ∧
        s.unitUp (.pair n) = true ∧ p.run = none ∧ p.queued = [] ∧ p.debugHalt = false ∧ p.halted = false ∧ s.targetOff (weftOf n)
        (4 + n % 4) = false ∧ (s.weft (weftOf n)).checks.passed.contains (4 + n % 4) = false) ∧
    (∃ (n : Nat) (p : Pair) (s : State), s.pair? n = some p ∧ p.testing = true) ∧
    (∃ (n : Nat) (p : Pair) (s : State), s.pair? n = some p ∧ p.testing = true ∧ s.steps = [] ∧ s.silent (weftSrc (weftOf n) 0x27)) :=
  ⟨⟨.a, 2, { up with
      frame := { up.frame with running := true }, wa := { dieUp with
      checks := { Checks.reset with phase := .done, ages := [1, 3, 4, 4, 9, 9, 9, 9] } } }, by decide +kernel⟩,
   ⟨.b, 0, at' 33233000 { up with
       frame := { up.frame with running := true }, wb := { dieUp with checks := { Checks.reset with phase := .done } } },
       by decide +kernel⟩,
   ⟨.a, 3, { up with wa := { dieUp with checks := { Checks.reset with slice := some 3, ages := [1, 3, 4, 4, 9, 9, 9, 9] } } },
       by decide +kernel⟩,
   ⟨.a, at' 16666500 { up with
       frame := { up.frame with running := true }, wa := { dieUp with checks := { Checks.reset with phase := .done } } },
       by decide +kernel⟩,
   ⟨7, Pair.reset, { up with frame := { up.frame with running := true } }, by decide +kernel⟩,
   ⟨0, { Pair.reset with testing := true }, inPair 0 { Pair.reset with testing := true } up, by decide +kernel⟩,
   ⟨7, { Pair.reset with testing := true }, quiet 551 (inPair 7 { Pair.reset with testing := true } up), by decide +kernel⟩⟩

/-- States and operands that meet the hypotheses of SafetyModeWrites. -/
theorem witness_SafetyModeWrites :
    (∃ (v : Word) (s : State), s.pwr.phase = .mission ∧ fld v 1 0 = s.mode ∧ (s.lifecycle ≠ 3 ∨ fld v 1 0 = 2)) ∧
    (∃ (v : Word) (s : State), s.pwr.phase = .mission ∧ ((fld v 1 0 ≠ s.mode ∧ (fld v 1 0 = 3 ∨ s.quiet = false ∨ (s.mode = 2 ∧
        s.zeroWindow = true))) ∨ (s.lifecycle = 3 ∧ fld v 1 0 ≠ 2))) ∧
    (∃ (v : Word) (s : State), s.pwr.phase = .mission ∧ ((fld v 1 0 ≠ s.mode ∧ (fld v 1 0 = 3 ∨ s.quiet = false ∨ (s.mode = 2 ∧
        s.zeroWindow = true))) ∨ (s.lifecycle = 3 ∧ fld v 1 0 ≠ 2))) ∧
    (∃ (v : Word) (s : State), s.pwr.phase = .mission ∧ ((fld v 1 0 ≠ s.mode ∧ (fld v 1 0 = 3 ∨ s.quiet = false ∨ (s.mode = 2 ∧
        s.zeroWindow = true))) ∨ (s.lifecycle = 3 ∧ fld v 1 0 ≠ 2))) ∧
    (∃ (v : Word) (s : State), s.pwr.phase = .mission ∧ ((fld v 1 0 ≠ s.mode ∧ (fld v 1 0 = 3 ∨ s.quiet = false ∨ (s.mode = 2 ∧
        s.zeroWindow = true))) ∨ (s.lifecycle = 3 ∧ fld v 1 0 ≠ 2))) ∧
    (∃ (v : Word) (s : State), s.pwr.phase = .mission ∧ fld v 1 0 ≠ s.mode ∧ fld v 1 0 ≠ 3 ∧ s.quiet = true ∧
        (s.lifecycle ≠ 3 ∨ fld v 1 0 = 2) ∧ (s.mode ≠ 2 ∨ s.zeroWindow = false)) ∧
    (∃ (v : Word) (s : State), s.pwr.phase = .mission ∧ fld v 1 0 ≠ s.mode ∧ fld v 1 0 ≠ 3 ∧ s.quiet = true ∧
        (s.lifecycle ≠ 3 ∨ fld v 1 0 = 2) ∧ (s.mode ≠ 2 ∨ s.zeroWindow = false)) ∧
    (∃ (v : Word) (s : State), s.pwr.phase = .mission ∧ fld v 1 0 ≠ s.mode ∧ fld v 1 0 ≠ 3 ∧ s.quiet = true ∧
        (s.lifecycle ≠ 3 ∨ fld v 1 0 = 2) ∧ (s.mode ≠ 2 ∨ s.zeroWindow = false)) :=
  ⟨⟨0x4#32, up, by decide +kernel⟩,
   ⟨3#32, up, by decide +kernel⟩,
   ⟨1#32, running, by decide +kernel⟩,
   ⟨0#32, (((up)).setReg (oSafety) 2#32).setReg (oProgWin 4) 0#32, by decide +kernel⟩,
   ⟨1#32, ({ up with sec := { up.sec with returnedFuse := true } }).setReg (oSafety) 2#32, by decide +kernel⟩,
   ⟨2#32, up, by decide +kernel⟩,
   ⟨5#32, up, by decide +kernel⟩,
   ⟨0#32, ({ up with wa := { dieUp with loom := .at .rest, beamGrp := .entering .cool .rest } }).setReg (oSafety) 2#32, by decide +kernel⟩⟩

/-- States and operands that meet the hypotheses of FrameSettingsHoldTogether. -/
theorem witness_FrameSettingsHoldTogether :
    (∃ (v : Word) (s : State), s.pwr.phase = .mission ∧ (bitW v 0 = s.det ∨ s.quiet = true)) ∧
    (∃ (v : Word) (s : State), s.pwr.phase = .mission ∧ (bitW v 0 = s.det ∨ s.quiet = true)) ∧
    (∃ (v : Word) (s : State), s.pwr.phase = .mission ∧ (¬(bitW v 0 = s.det ∨ s.quiet = true))) ∧
    (∃ (v : Word) (s : State), s.pwr.phase = .mission ∧ (s.lcBusy = false ∧ s.frameHolds (fld v 16 0) s.phaseUs s.slotUs s.startUs)) ∧
    (∃ (v : Word) (s : State), s.pwr.phase = .mission ∧ (¬(s.lcBusy = false ∧ s.frameHolds (fld v 16 0) s.phaseUs s.slotUs s.startUs))) ∧
    (∃ (v : Word) (s : State), s.pwr.phase = .mission ∧ (¬(s.lcBusy = false ∧ s.frameHolds (fld v 16 0) s.phaseUs s.slotUs s.startUs))) ∧
    (∃ (v : Word) (s : State), s.pwr.phase = .mission ∧ (¬(s.lcBusy = false ∧ s.frameHolds (fld v 16 0) s.phaseUs s.slotUs s.startUs))) ∧
    (∃ (v : Word) (s : State), s.pwr.phase = .mission ∧ (s.lcBusy = false ∧ s.frameHolds s.frameUs (fld v 16 0) s.slotUs s.startUs)) ∧
    (∃ (v : Word) (s : State), s.pwr.phase = .mission ∧ (¬(s.lcBusy = false ∧ s.frameHolds s.frameUs (fld v 16 0) s.slotUs s.startUs))) ∧
    (∃ (v : Word) (s : State), s.pwr.phase = .mission ∧ (s.lcBusy = false ∧ s.frameHolds s.frameUs s.phaseUs (fld v 10 0) (fld v 27 11))) ∧
    (∃ (v : Word) (s : State), s.pwr.phase = .mission ∧ (¬(s.lcBusy = false ∧ s.frameHolds s.frameUs s.phaseUs (fld v 10 0)
        (fld v 27 11)))) ∧
    (∃ (v : Word) (s : State), s.pwr.phase = .mission ∧ (¬(s.lcBusy = false ∧ s.frameHolds s.frameUs s.phaseUs (fld v 10 0)
        (fld v 27 11)))) ∧
    (∃ (v : Word) (s : State), s.pwr.phase = .mission ∧ (8 ≤ fld v 7 0)) ∧
    (∃ (v : Word) (s : State), s.pwr.phase = .mission ∧ (8 ≤ fld v 7 0)) ∧
    (∃ (v : Word) (s : State), s.pwr.phase = .mission ∧ ¬(8 ≤ fld v 7 0)) ∧
    (∃ (k : Nat) (v : Word) (s : State), s.pwr.phase = .mission ∧ k < 5 ∧ (s.windowOk k (fld v 15 0) = true)) ∧
    (∃ (k : Nat) (v : Word) (s : State), s.pwr.phase = .mission ∧ k < 5 ∧ (s.windowOk k (fld v 15 0) = true)) ∧
    (∃ (k : Nat) (v : Word) (s : State), s.pwr.phase = .mission ∧ k < 5 ∧ ¬(s.windowOk k (fld v 15 0) = true)) ∧
    (∃ (k : Nat) (v : Word) (s : State), s.pwr.phase = .mission ∧ k < 5 ∧ ¬(s.windowOk k (fld v 15 0) = true)) ∧
    (∃ (k : Nat) (w : Nat) (s : State), s.windowOk k w = true) ∧
    (∃ (k : Nat) (w : Nat) (s : State), s.windowOk k w = true) :=
  ⟨⟨1#32, up, by decide +kernel⟩,
   ⟨0#32, running, by decide +kernel⟩,
   ⟨1#32, running, by decide +kernel⟩,
   ⟨100000#32, (up).setReg oProof 500#32, by decide +kernel⟩,
   ⟨9999#32, up, by decide +kernel⟩,
   ⟨100001#32, up, by decide +kernel⟩,
   ⟨10000#32, running, by decide +kernel⟩,
   ⟨33332#32, up, by decide +kernel⟩,
   ⟨33333#32, up, by decide +kernel⟩,
   ⟨150#32, up, by decide +kernel⟩,
   ⟨149#32, up, by decide +kernel⟩,
   ⟨0x7FFFFFF#32, up, by decide +kernel⟩,
   ⟨8#32, up, by decide +kernel⟩,
   ⟨255#32, up, by decide +kernel⟩,
   ⟨7#32, up, by decide +kernel⟩,
   ⟨0, 4166#32, up, by decide +kernel⟩,
   ⟨1, 0#32, ((up)).setReg (oSafety) 2#32, by decide +kernel⟩,
   ⟨4, 4167#32, up, by decide +kernel⟩,
   ⟨4, 0#32, up, by decide +kernel⟩,
   ⟨0, 4166, up, by decide +kernel⟩,
   ⟨4, 0, ((up)).setReg (oSafety) 2#32, by decide +kernel⟩⟩

/-- States and operands that meet the hypotheses of PartitionSettings. -/
theorem witness_PartitionSettings :
    (∃ (p : Nat) (v : Word) (s : State), s.pwr.phase = .mission ∧ p < 2 ∧ fld v 9 0 + fld (s.reg (oPartLoom (1 - p))) 9 0 ≤ 1000 ∧
        fld v 11 10 ≠ 3 ∧ ((fld v 9 0 = fld (s.reg (oPartLoom p)) 9 0 ∧ fld v 11 10 = fld (s.reg
        (oPartLoom p)) 11 10) ∨ s.admittedLc p = [])) ∧
    (∃ (p : Nat) (v : Word) (s : State), s.pwr.phase = .mission ∧ p < 2 ∧ fld v 9 0 + fld (s.reg (oPartLoom (1 - p))) 9 0 ≤ 1000 ∧
        fld v 11 10 ≠ 3 ∧ ((fld v 9 0 = fld (s.reg (oPartLoom p)) 9 0 ∧ fld v 11 10 = fld (s.reg
        (oPartLoom p)) 11 10) ∨ s.admittedLc p = [])) ∧
    (∃ (p : Nat) (v : Word) (s : State), s.pwr.phase = .mission ∧ p < 2 ∧ fld v 9 0 + fld (s.reg (oPartLoom (1 - p))) 9 0 ≤ 1000 ∧
        fld v 11 10 ≠ 3 ∧ ((fld v 9 0 = fld (s.reg (oPartLoom p)) 9 0 ∧ fld v 11 10 = fld (s.reg
        (oPartLoom p)) 11 10) ∨ s.admittedLc p = [])) ∧
    (∃ (p : Nat) (v : Word) (s : State), s.pwr.phase = .mission ∧ p < 2 ∧ fld v 9 0 + fld (s.reg (oPartLoom (1 - p))) 9 0 ≤ 1000 ∧
        fld v 11 10 ≠ 3 ∧ ((fld v 9 0 = fld (s.reg (oPartLoom p)) 9 0 ∧ fld v 11 10 = fld (s.reg
        (oPartLoom p)) 11 10) ∨ s.admittedLc p = [])) ∧
    (∃ (p : Nat) (v : Word) (s : State), s.pwr.phase = .mission ∧ p < 2 ∧ (1000 < fld v 9 0 + fld (s.reg (oPartLoom
        (1 - p))) 9 0 ∨ fld v 11 10 = 3 ∨ ((fld v 9 0 ≠ fld (s.reg (oPartLoom p)) 9 0 ∨ fld v 11 10 ≠ fld (s.reg (oPartLoom p)) 11 10) ∧
        s.admittedLc p ≠ []))) ∧
    (∃ (p : Nat) (v : Word) (s : State), s.pwr.phase = .mission ∧ p < 2 ∧ (1000 < fld v 9 0 + fld (s.reg (oPartLoom
        (1 - p))) 9 0 ∨ fld v 11 10 = 3 ∨ ((fld v 9 0 ≠ fld (s.reg (oPartLoom p)) 9 0 ∨ fld v 11 10 ≠ fld (s.reg (oPartLoom p)) 11 10) ∧
        s.admittedLc p ≠ []))) ∧
    (∃ (p : Nat) (v : Word) (s : State), s.pwr.phase = .mission ∧ p < 2 ∧ (1000 < fld v 9 0 + fld (s.reg (oPartLoom
        (1 - p))) 9 0 ∨ fld v 11 10 = 3 ∨ ((fld v 9 0 ≠ fld (s.reg (oPartLoom p)) 9 0 ∨ fld v 11 10 ≠ fld (s.reg (oPartLoom p)) 11 10) ∧
        s.admittedLc p ≠ []))) ∧
    (∃ (p : Nat) (v : Word) (s : State), s.pwr.phase = .mission ∧ p < 2 ∧ (1000 < fld v 9 0 + fld (s.reg (oPartLoom
        (1 - p))) 9 0 ∨ fld v 11 10 = 3 ∨ ((fld v 9 0 ≠ fld (s.reg (oPartLoom p)) 9 0 ∨ fld v 11 10 ≠ fld (s.reg (oPartLoom p)) 11 10) ∧
        s.admittedLc p ≠ []))) ∧
    (∃ (p : Nat) (v : Word) (s : State), s.pwr.phase = .mission ∧ p < 2 ∧ (fld v 5 0 + fld (s.reg (oPartMem (1 - p))) 5 0 ≤ 63 ∧
        fld v 13 8 + fld (s.reg (oPartMem (1 - p))) 13 8 ≤ 45 ∧ (s.setReg (oPartMem p) (v &&& 0x3F3F#32)).sharesFit 0 = true ∧ (s.setReg
        (oPartMem p) (v &&& 0x3F3F#32)).sharesFit 1 = true)) ∧
    (∃ (p : Nat) (v : Word) (s : State), s.pwr.phase = .mission ∧ p < 2 ∧ (¬(fld v 5 0 + fld (s.reg (oPartMem (1 - p))) 5 0 ≤ 63 ∧
        fld v 13 8 + fld (s.reg (oPartMem (1 - p))) 13 8 ≤ 45 ∧ (s.setReg (oPartMem p) (v &&& 0x3F3F#32)).sharesFit 0 = true ∧ (s.setReg
        (oPartMem p) (v &&& 0x3F3F#32)).sharesFit 1 = true))) ∧
    (∃ (p : Nat) (v : Word) (s : State), s.pwr.phase = .mission ∧ p < 2 ∧ (¬(fld v 5 0 + fld (s.reg (oPartMem (1 - p))) 5 0 ≤ 63 ∧
        fld v 13 8 + fld (s.reg (oPartMem (1 - p))) 13 8 ≤ 45 ∧ (s.setReg (oPartMem p) (v &&& 0x3F3F#32)).sharesFit 0 = true ∧ (s.setReg
        (oPartMem p) (v &&& 0x3F3F#32)).sharesFit 1 = true))) ∧
    (∃ (p : Nat) (v : Word) (s : State), s.pwr.phase = .mission ∧ p < 2 ∧ (fld v 12 0 + fld (s.reg (oPartQuota (1 - p))) 12 0 ≤ 4096 ∧
        fld v 24 16 + fld (s.reg (oPartQuota (1 - p))) 24 16 ≤ 256 ∧ (s.ctxs.filter (fun c => c.part == p)).length ≤ fld v 12 0 ∧
        (s.drafts.filter (fun e => e.partition == p)).length ≤ fld v 24 16)) ∧
    (∃ (p : Nat) (v : Word) (s : State), s.pwr.phase = .mission ∧ p < 2 ∧ (¬(fld v 12 0 + fld (s.reg (oPartQuota (1 - p))) 12 0 ≤ 4096 ∧
        fld v 24 16 + fld (s.reg (oPartQuota (1 - p))) 24 16 ≤ 256 ∧ (s.ctxs.filter (fun c => c.part == p)).length ≤ fld v 12 0 ∧
        (s.drafts.filter (fun e => e.partition == p)).length ≤ fld v 24 16))) ∧
    (∃ (p : Nat) (v : Word) (s : State), s.pwr.phase = .mission ∧ p < 2 ∧ (¬(fld v 12 0 + fld (s.reg (oPartQuota (1 - p))) 12 0 ≤ 4096 ∧
        fld v 24 16 + fld (s.reg (oPartQuota (1 - p))) 24 16 ≤ 256 ∧ (s.ctxs.filter (fun c => c.part == p)).length ≤ fld v 12 0 ∧
        (s.drafts.filter (fun e => e.partition == p)).length ≤ fld v 24 16))) ∧
    (∃ (p : Nat) (v : Word) (s : State), s.pwr.phase = .mission ∧ p < 2 ∧ (overlap (fld v 11 0) (fld v 24 12) (fld (s.reg (oPartLatch
        (1 - p))) 11 0) (fld (s.reg (oPartLatch (1 - p))) 24 12) = false ∧ ∀ c ∈ s.ctxs,
        c.part = p → c.latchCount ≠ 0 → fld v 11 0 ≤ c.latchBase ∧ c.latchBase + c.latchCount ≤ fld v 11 0 + fld v 24 12)) ∧
    (∃ (p : Nat) (v : Word) (s : State), s.pwr.phase = .mission ∧ p < 2 ∧ (¬(overlap (fld v 11 0) (fld v 24 12) (fld (s.reg (oPartLatch
        (1 - p))) 11 0) (fld (s.reg (oPartLatch (1 - p))) 24 12) = false ∧ ∀ c ∈ s.ctxs,
        c.part = p → c.latchCount ≠ 0 → fld v 11 0 ≤ c.latchBase ∧ c.latchBase + c.latchCount ≤ fld v 11 0 + fld v 24 12))) ∧
    (∃ (v : Word) (s : State), s.pwr.phase = .mission ∧ (s.lcBusy = false)) ∧
    (∃ (v : Word) (s : State), s.pwr.phase = .mission ∧ ¬(s.lcBusy = false)) ∧
    (∃ (v : Word) (s : State), s.pwr.phase = .mission ∧ (s.lcBusy = false ∧ ∀ e ∈ s.heldEntries,
        e.draft.bounds.saveBytes ≤ fld v 15 0 * 65536)) ∧
    (∃ (v : Word) (s : State), s.pwr.phase = .mission ∧ (¬(s.lcBusy = false ∧ ∀ e ∈ s.heldEntries,
        e.draft.bounds.saveBytes ≤ fld v 15 0 * 65536))) :=
  ⟨⟨0, 0x5F4#32, { up with wa := WeftDie.reset, wb := WeftDie.reset }, by decide +kernel⟩,
   ⟨1, 1000#32, (({ up with wa := WeftDie.reset, wb := WeftDie.reset })).setReg (oPartLoom 0) 0#32, by decide +kernel⟩,
   ⟨0, 0x3E8#32, { (up : State) with wa := { dieUp with loom := .at .rest, beamGrp := .entering .cool .rest } }, by decide +kernel⟩,
   ⟨0, 0x5F4#32, up, by decide +kernel⟩,
   ⟨0, 1001#32, up, by decide +kernel⟩,
   ⟨1, 1#32, up, by decide +kernel⟩,
   ⟨1, 0xC00#32, up, by decide +kernel⟩,
   ⟨0, 0x100#32, ({ (busy : State) with steps := [{ (stp : Step) with stage := .admitted }] }).setReg (oPartLoom 0) 1000#32,
       by decide +kernel⟩,
   ⟨0, 0x0101#32, up, by decide +kernel⟩,
   ⟨0, 0x2E00#32, up, by decide +kernel⟩,
   ⟨1, 1#32, (up).setReg (oPartMem 0) 0x3F#32, by decide +kernel⟩,
   ⟨0, 0x00010001#32, up, by decide +kernel⟩,
   ⟨0, 0x01001001#32, up, by decide +kernel⟩,
   ⟨0, 0#32, busy, by decide +kernel⟩,
   ⟨1, 0x00FFF#32, up, by decide +kernel⟩,
   ⟨1, 0x01000000#32, up, by decide +kernel⟩,
   ⟨0x3FFF3FFF#32, up, by decide +kernel⟩,
   ⟨0#32, running, by decide +kernel⟩,
   ⟨0xFFFF#32, up, by decide +kernel⟩,
   ⟨0#32, running, by decide +kernel⟩⟩

/-- States and operands that meet the hypotheses of MirrorGatherAndWheelSettings. -/
theorem witness_MirrorGatherAndWheelSettings :
    (∃ (i : Nat) (v : Word) (s : State), s.pwr.phase = .mission ∧ i < 64 ∧ bitW v 31 = true) ∧
    (∃ (i : Nat) (v : Word) (s : State), s.pwr.phase = .mission ∧ i < 64 ∧ bitW v 31 = true) ∧
    (∃ (i : Nat) (v : Word) (s : State), s.pwr.phase = .mission ∧ i < 64 ∧ bitW v 31 = false) ∧
    (∃ (v : Word) (s : State), s.pwr.phase = .mission ∧ (fld v 15 0 ≠ 0 ∨ s.sched.windows = [])) ∧
    (∃ (v : Word) (s : State), s.pwr.phase = .mission ∧ (fld v 15 0 ≠ 0 ∨ s.sched.windows = [])) ∧
    (∃ (v : Word) (s : State), s.pwr.phase = .mission ∧ fld v 15 0 = 0) ∧
    (∃ (v : Word) (s : State), s.pwr.phase = .mission ∧ fld v 15 0 = 0) ∧
    (∃ (g : Nat) (v : Word) (s : State), s.pwr.phase = .mission ∧ g < 16 ∧ bitW (s.reg (oGrp g)) 22 = true) ∧
    (∃ (g : Nat) (v : Word) (s : State), s.pwr.phase = .mission ∧ g < 16 ∧ bitW (s.reg (oGrp g)) 22 = true) ∧
    (∃ (g : Nat) (v : Word) (s : State), s.pwr.phase = .mission ∧ g < 16 ∧ bitW (s.reg (oGrp g)) 22 = false ∧ bitW v 22 = false) ∧
    (∃ (g : Nat) (v : Word) (s : State), s.pwr.phase = .mission ∧ g < 16 ∧ bitW (s.reg (oGrp g)) 22 = false ∧ bitW v 22 = true ∧
        s.groupErr g (fld v 7 0) (fld v 21 8) = 0) ∧
    (∃ (g : Nat) (v : Word) (s : State), s.pwr.phase = .mission ∧ g < 16 ∧ bitW (s.reg (oGrp g)) 22 = false ∧ bitW v 22 = true ∧
        s.groupErr g (fld v 7 0) (fld v 21 8) ≠ 0) ∧
    (∃ (l : Nat) (d : Nat) (h : Nat) (v : Word) (s : State), s.pwr.phase = .mission ∧ l < 8 ∧ d < 2 ∧ h < 2 ∧ wheelHolds v (s.reg
        (oWheel l d (1 - h))) ∧ s.quiet = true) ∧
    (∃ (l : Nat) (d : Nat) (h : Nat) (v : Word) (s : State), s.pwr.phase = .mission ∧ l < 8 ∧ d < 2 ∧ h < 2 ∧ (¬wheelHolds v (s.reg
        (oWheel l d (1 - h))) ∨ s.quiet = false)) ∧
    (∃ (l : Nat) (d : Nat) (h : Nat) (v : Word) (s : State), s.pwr.phase = .mission ∧ l < 8 ∧ d < 2 ∧ h < 2 ∧ (¬wheelHolds v (s.reg
        (oWheel l d (1 - h))) ∨ s.quiet = false)) ∧
    (∃ (l : Nat) (d : Nat), l < 8 ∧ d < 2) ∧
    (∃ (l : Nat) (d : Nat), l < 8 ∧ d < 2) :=
  ⟨⟨63, 0x80002001#32, { busy with ctxs := [ctx 1 fA true, { ctx 2 fB false with role := .mirrorTarget }] }, by decide +kernel⟩,
   ⟨0, 0x80002001#32, busy, by decide +kernel⟩,
   ⟨63, 0x2001#32, up, by decide +kernel⟩,
   ⟨0#32, up, by decide +kernel⟩,
   ⟨1#32, up, by decide +kernel⟩,
   ⟨0#32, { (running : State) with
       sched := { running.sched with
       windows := [{ entry := 0, layer := 0, lc := true, group := none, openTime := 0, limitUs := 5, members := [{ step := 7, pair := 0, ticket := 3, rows := 4 }], asked := [(.a, { step := 7, pair := 0, ticket := 3, rows := 4 })] }] } },
       by decide +kernel⟩,
   ⟨0#32, up, by decide +kernel⟩,
   ⟨15, 0x400000#32, ((up)).setReg (oGrp 15) 0x400000#32, by decide +kernel⟩,
   ⟨0, 0#32, ((up)).setReg (oGrp 0) 0x400000#32, by decide +kernel⟩,
   ⟨0, 0x3FFFFF#32, up, by decide +kernel⟩,
   ⟨0, 0x400000#32, ({ (busy : State) with ctxs := [ctx 1 fA true, ctx 2 fA true] }).setReg (oGrpMem 0 0) 0x2001#32, by decide +kernel⟩,
   ⟨15, 0x400100#32, (busy).setReg (oGrpMem 15 15) 0x2001#32, by decide +kernel⟩,
   ⟨7, 1, 1, 0#32, up, by decide +kernel⟩,
   ⟨0, 0, 0, 0#32, running, by decide +kernel⟩,
   ⟨0, 0, 0, 0x55555555#32, up, by decide +kernel⟩,
   ⟨0, 1, by decide +kernel⟩,
   ⟨7, 0, by decide +kernel⟩⟩

/-- States and operands that meet the hypotheses of RegisterReadsAnswerOrRaiseBadAccess. -/
theorem witness_RegisterReadsAnswerOrRaiseBadAccess :
    (∃ (v : View) (off : Nat) (w : Word) (s : State), s.viewLive v = true ∧ off % 4 = 0 ∧ (¬((v = .sup ∨ v = .keeper) ∧ off = 0x518)) ∧
        lookupN s.bus.hiLatch (viewKey v off) = none ∧ s.valueAt v off = some w) ∧
    (∃ (v : View) (off : Nat) (w : Word) (s : State), s.viewLive v = true ∧ off % 4 = 0 ∧ (¬((v = .sup ∨ v = .keeper) ∧ off = 0x518)) ∧
        lookupN s.bus.hiLatch (viewKey v off) = none ∧ s.valueAt v off = some w) ∧
    (∃ (v : View) (off : Nat) (w : Word) (s : State), s.viewLive v = true ∧ off % 4 = 0 ∧ (¬((v = .sup ∨ v = .keeper) ∧ off = 0x518)) ∧
        lookupN s.bus.hiLatch (viewKey v off) = none ∧ s.valueAt v off = some w) ∧
    (∃ (v : View) (off : Nat) (w : Word) (s : State), s.viewLive v = true ∧ off % 4 = 0 ∧ (¬((v = .sup ∨ v = .keeper) ∧ off = 0x518)) ∧
        lookupN s.bus.hiLatch (viewKey v off) = some w) ∧
    (∃ (v : View) (off : Nat) (s : State), (v = .sup ∨ v = .keeper) ∧ s.pwr.phase = .mission ∧ off % 4 = 0 ∧ off ≠ 0x518 ∧
        lookupN s.bus.hiLatch (viewKey v off) = none ∧ s.readSup off = none ∧ s.silent 0x000) ∧
    (∃ (v : View) (off : Nat) (s : State), (v = .sup ∨ v = .keeper) ∧ s.pwr.phase = .mission ∧ off % 4 = 0 ∧ off ≠ 0x518 ∧
        lookupN s.bus.hiLatch (viewKey v off) = none ∧ s.readSup off = none ∧ s.silent 0x000) ∧
    (∃ (v : View) (off : Nat) (s : State), (v = .sup ∨ v = .keeper) ∧ s.pwr.phase = .mission ∧ off % 4 = 0 ∧
        ((regDie off).map s.dieHeld).getD false = false ∧ s.readSup off = none ∧ s.silent 0x000) ∧
    (∃ (v : View) (off : Nat) (s : State), (v = .sup ∨ v = .keeper) ∧ s.pwr.phase = .mission ∧ off % 4 = 0 ∧
        ((regDie off).map s.dieHeld).getD false = false ∧ s.readSup off = none ∧ s.silent 0x000) ∧
    (∃ (v : View) (off : Nat) (width : Nat) (s : State), ((v = .sup ∨ v = .keeper) ∧ ((regDie off).map s.dieHeld).getD false = false ∨
        (∃ f, v = .fn f) ∧ fnAssigned off = true) ∧ s.viewLive v = true ∧ (width ≠ 4 ∨ off % 4 ≠ 0) ∧ s.silent 0x000) ∧
    (∃ (v : View) (off : Nat) (width : Nat) (s : State), ((v = .sup ∨ v = .keeper) ∧ ((regDie off).map s.dieHeld).getD false = false ∨
        (∃ f, v = .fn f) ∧ fnAssigned off = true) ∧ s.viewLive v = true ∧ (width ≠ 4 ∨ off % 4 ≠ 0) ∧ s.silent 0x000) ∧
    (∃ (v : View) (off : Nat) (width : Nat) (s : State), ((v = .sup ∨ v = .keeper) ∧ ((regDie off).map s.dieHeld).getD false = false ∨
        (∃ f, v = .fn f) ∧ fnAssigned off = true) ∧ s.viewLive v = true ∧ (width ≠ 4 ∨ off % 4 ≠ 0) ∧ s.silent 0x000) ∧
    (∃ (v : View) (off : Nat) (width : Nat) (s : State), ((v = .sup ∨ v = .keeper) ∧ ((regDie off).map s.dieHeld).getD false = false ∨
        (∃ f, v = .fn f) ∧ fnAssigned off = true) ∧ s.viewLive v = true ∧ (width ≠ 4 ∨ off % 4 ≠ 0) ∧ s.silent 0x000) ∧
    (∃ (v : View) (off : Nat) (width : Nat) (s : State), ((v = .sup ∨ v = .keeper) ∧ ((regDie off).map s.dieHeld).getD false = false ∨
        (∃ f, v = .fn f) ∧ fnAssigned off = true) ∧ s.viewLive v = true ∧ (width ≠ 4 ∨ off % 4 ≠ 0) ∧ s.silent 0x000) ∧
    (∃ (f : FnId) (off : Nat) (s : State), s.viewLive (.fn f) = true ∧ fnAssigned off = false ∧ off < 0x1010000) :=
  ⟨⟨.sup, 0x400, 2#32, ((up)).setReg (oSafety) 2#32, by decide +kernel⟩,
   ⟨.keeper, 0x200, 0#32, up, by decide +kernel⟩,
   ⟨.sup, 0x40008, 0x2003#32, up, by decide +kernel⟩,
   ⟨.sup, 0x204, 9#32, { up with bus := { up.bus with hiLatch := [(viewKey .sup 0x204, 9)] } }, by decide +kernel⟩,
   ⟨.sup, 0xFFFC, quiet 0 (up), by decide +kernel⟩,
   ⟨.keeper, 0xFFF8, quiet 0 (up), by decide +kernel⟩,
   ⟨.sup, 0xFFFC, quiet 0 (up), by decide +kernel⟩,
   ⟨.keeper, 0xFFF8, quiet 0 (up), by decide +kernel⟩,
   ⟨.sup, 0x401, 4, quiet 0 (up), by and_intros <;> first | exact (Or.inl (by decide +kernel)) | decide +kernel⟩,
   ⟨.keeper, 0x400, 8, quiet 0 (up), by and_intros <;> first | exact (Or.inl (by decide +kernel)) | decide +kernel⟩,
   ⟨.fn fA, 0x1000001, 4, quiet 0 (up), by and_intros <;> first | exact (Or.inr ⟨⟨fA, rfl⟩, by decide +kernel⟩) | decide +kernel⟩,
   ⟨.sup, 0x402, 2, quiet 0 (up), by and_intros <;> first | exact (Or.inl (by decide +kernel)) | decide +kernel⟩,
   ⟨.fn fA, 0x1000000, 1, quiet 0 (up), by and_intros <;> first | exact (Or.inr ⟨⟨fA, rfl⟩, by decide +kernel⟩) | decide +kernel⟩,
   ⟨fA, 0xFFC, up, by decide +kernel⟩⟩

/-- States and operands that meet the hypotheses of RegisterWritesFollowTheirFields. -/
theorem witness_RegisterWritesFollowTheirFields :
    (∃ (v : Word) (s : State), s.pwr.phase = .mission) ∧
    (∃ (n : Nat) (v : Word) (s : State), s.pwr.phase = .mission ∧ n < 768) ∧
    (∃ (n : Nat) (v : Word) (s : State), s.pwr.phase = .mission ∧ n < 768) ∧
    (∃ (f : FnId) (v : Word) (s : State), s.viewLive (.fn f) = true) ∧
    (∃ (off : Nat) (v : Word) (s : State), s.pwr.phase = .mission ∧ s.pwr.recovery = true ∧ off % 4 = 0 ∧ off < 0x1000000 ∧
        s.wa.beam.wf = true) :=
  ⟨⟨0xFFFFFFFF#32, up, by decide +kernel⟩,
   ⟨0, 0xFFFFFFFF#32, up, by decide +kernel⟩,
   ⟨767, 0xFFFFFFFF#32, up, by decide +kernel⟩,
   ⟨fA, 0xFFFFFFFF#32, up, by decide +kernel⟩,
   ⟨0xFFFFFC, 0x01020304#32, { up with pwr := { up.pwr with recovery := true } }, by decide +kernel⟩⟩

/-- States and operands that meet the hypotheses of DebugAccessObeysTheLevel. -/
theorem witness_DebugAccessObeysTheLevel :
    (∃ (chk : ReadChecks) (s : State), s.pwr.phase = .mission ∧ s.debugLevel ≠ 2) ∧
    (∃ (chk : ReadChecks) (s : State), s.pwr.phase = .mission ∧ s.debugLevel ≠ 2) ∧
    (∃ (v : Word) (s : State), s.pwr.phase = .mission ∧ s.debugLevel ≠ 2) ∧
    (∃ (d : Weft) (l : Level) (o : Nat) (chk : ReadChecks) (s : State), s.pwr.phase = .mission ∧ s.debugLevel = 2 ∧
        dbgPlace s.dbgAddr = some (d, l, o) ∧ (s.weft d).beamGrp = .at .run ∧ chk.hit = none) ∧
    (∃ (d : Weft) (l : Level) (o : Nat) (chk : ReadChecks) (s : State), s.pwr.phase = .mission ∧ s.debugLevel = 2 ∧
        dbgPlace s.dbgAddr = some (d, l, o) ∧ (s.weft d).beamGrp = .at .run ∧ chk.hit = none) ∧
    (∃ (d : Weft) (l : Level) (o : Nat) (chk : ReadChecks) (s : State), s.pwr.phase = .mission ∧ s.debugLevel = 2 ∧
        dbgPlace s.dbgAddr = some (d, l, o) ∧ (s.weft d).beamGrp = .at .run ∧ chk.hit ≠ none) ∧
    (∃ (d : Weft) (l : Level) (o : Nat) (chk : ReadChecks) (s : State), s.pwr.phase = .mission ∧ s.debugLevel = 2 ∧
        dbgPlace s.dbgAddr = some (d, l, o) ∧ (s.weft d).beamGrp ≠ .at .run) ∧
    (∃ (d : Weft) (o : Nat) (v : Word) (s : State), s.pwr.phase = .mission ∧ s.debugLevel = 2 ∧ dbgPlace s.dbgAddr = some (d, .beam, o) ∧
        (s.weft d).beamGrp = .at .run ∧ (s.weft d).beam.wf = true) ∧
    (∃ (chk : ReadChecks) (v : Word) (s : State), s.pwr.phase = .mission ∧ s.debugLevel = 2 ∧ dbgPlace s.dbgAddr = none) ∧
    (∃ (chk : ReadChecks) (v : Word) (s : State), s.pwr.phase = .mission ∧ s.debugLevel = 2 ∧ dbgPlace s.dbgAddr = none) ∧
    (∃ (v : Word) (s : State), s.pwr.phase = .mission) ∧
    (∃ (op : JtagOp) (chk : ReadChecks) (s : State), s.debugLevel = 0 ∧ op ≠ .idcode ∧ op ≠ .boundaryScan) ∧
    (∃ (off : Nat) (d : Weft) (chk : ReadChecks) (s : State), s.pwr.phase = .mission ∧ off % 4 = 0 ∧ off ≠ 0x518 ∧ regDie off = some d ∧
        s.diePhase d = none ∧ ((s.debugLevel = 1 ∧ s.controlAsleep d = true) ∨ (s.debugLevel = 2 ∧ (s.weft d).beamGrp ≠ .at .run))) ∧
    (∃ (off : Nat) (d : Weft) (chk : ReadChecks) (s : State), s.pwr.phase = .mission ∧ off % 4 = 0 ∧ off ≠ 0x518 ∧ regDie off = some d ∧
        s.diePhase d = none ∧ ((s.debugLevel = 1 ∧ s.controlAsleep d = true) ∨ (s.debugLevel = 2 ∧ (s.weft d).beamGrp ≠ .at .run))) ∧
    (∃ (n : Nat) (p : Pair) (chk : ReadChecks) (s : State), s.pwr.phase = .mission ∧ s.debugLevel = 2 ∧ s.pairAnswers n = true ∧
        s.pair? n = some p) :=
  ⟨⟨noErr, up, by decide +kernel⟩,
   ⟨noErr, ((up)).setReg (oDebug) 1#32, by decide +kernel⟩,
   ⟨5#32, ((up)).setReg (oDebug) 1#32, by decide +kernel⟩,
   ⟨.a, .beam, 4, { fixed := [.beam .a 4, .gddr .a 8], hit := none },
       (((({ up with wa := { dieUp with beam := [(4, 4), (5, 1)] } })).setReg (oDebug) 2#32).setReg (oDbgLo) 4#32).setReg
       (oDbgHi) 0x40000000#32, by decide +kernel⟩,
   ⟨.b, .gddr, 0, noErr, ((((up)).setReg (oDebug) 2#32).setReg (oDbgLo) 0#32).setReg (oDbgHi) 0x80000004#32, by decide +kernel⟩,
   ⟨.a, .beam, 8, { fixed := [], hit := some { place := .beam .a 8, master := 3 } }, ((((up)).setReg (oDebug) 2#32).setReg
       (oDbgLo) 8#32).setReg (oDbgHi) 0x40000000#32, by decide +kernel⟩,
   ⟨.a, .beam, 8, noErr, (((({ up with
       wa := { dieUp with beamGrp := .at .cool, shuttle := .at .cool, loom := .at .cool, reedFinish := .at .cool } })).setReg
       (oDebug) 2#32).setReg (oDbgLo) 8#32).setReg (oDbgHi) 0x40000000#32, by decide +kernel⟩,
   ⟨.a, 8, 0x0100FF00#32, ((((up)).setReg (oDebug) 2#32).setReg (oDbgLo) 8#32).setReg (oDbgHi) 0x40000000#32, by decide +kernel⟩,
   ⟨noErr, 1#32, ((((up)).setReg (oDebug) 2#32).setReg (oDbgLo) 0#32).setReg (oDbgHi) 0#32, by decide +kernel⟩,
   ⟨noErr, 1#32, ((((up)).setReg (oDebug) 2#32).setReg (oDbgLo) 0xFFFFFFFC#32).setReg (oDbgHi) 0x4000000F#32, by decide +kernel⟩,
   ⟨2#32, (up).setReg oDebug 6#32, by decide +kernel⟩,
   ⟨.haltPair 0, noErr, up, by decide +kernel⟩,
   ⟨0x300000, .a, noErr, ({ up with
       wa := { dieUp with beamGrp := .at .cool, shuttle := .at .cool, loom := .at .cool, reedFinish := .at .cool } }).setReg (oDebug) 1#32,
       by decide +kernel⟩,
   ⟨0x400000, .b, noErr, ({ up with wb := { dieUp with beamGrp := .at .warm } }).setReg (oDebug) 2#32, by decide +kernel⟩,
   ⟨7, Pair.reset, noErr, ((up)).setReg (oDebug) 2#32, by decide +kernel⟩⟩

/-- States and operands that meet the hypotheses of CounterAndWatchSelection. -/
theorem witness_CounterAndWatchSelection :
    (∃ (i : Nat) (v : Word) (s : State), i < 32 ∧ s.pwr.phase = .mission ∧ bitW (s.reg (oCtrSel 0 i)) 31 = false ∧ bitW v 31 = true) ∧
    (∃ (i : Nat) (v : Word) (s : State), i < 32 ∧ s.pwr.phase = .mission ∧ bitW (s.reg (oCtrSel 0 i)) 31 = false ∧ bitW v 31 = true) ∧
    (∃ (i : Nat) (v : Word) (s : State), i < 32 ∧ s.pwr.phase = .mission ∧ bitW (s.reg (oCtrSel 0 i)) 31 = true) ∧
    (∃ (i : Nat) (v : Word) (s : State), i < 32 ∧ s.pwr.phase = .mission ∧ bitW (s.reg (oCtrSel 0 i)) 31 = true) ∧
    (∃ (i : Nat) (v : Word) (s : State), i < 32 ∧ s.pwr.phase = .mission ∧ s.diePhase .a = none ∧ s.controlAsleep .a = true) ∧
    (∃ (w : Nat) (v : Word) (s : State), w < 16 ∧ s.pwr.phase = .mission ∧ bitW v 20 = true) ∧
    (∃ (w : Nat) (v : Word) (s : State), w < 16 ∧ s.pwr.phase = .mission ∧ bitW v 20 = true) :=
  ⟨⟨31, 0x80FF0080#32, up, by decide +kernel⟩,
   ⟨0, 0x800003FF#32, up, by decide +kernel⟩,
   ⟨0, 0#32, ((up)).setReg (oCtrSel 0 0) 0x80FF0080#32, by decide +kernel⟩,
   ⟨31, 0x800003FF#32, ((up)).setReg (oCtrSel 0 31) 0x80FF0080#32, by decide +kernel⟩,
   ⟨31, 0x80FF0080#32, { up with wa := { dieUp with beamGrp := .at .cool } }, by decide +kernel⟩,
   ⟨15, 0x100001#32, busy, by decide +kernel⟩,
   ⟨0, 0x1FF001#32, busy, by decide +kernel⟩⟩

/-- States and operands that meet the hypotheses of AcknowledgementEndsARaise. -/
theorem witness_AcknowledgementEndsARaise :
    (∃ (n : Nat) (s : State), lookupN s.hasp.grace n = some 0 ∧ s.hasp.raised.contains n = true ∧ s.hasp.secondFired.contains n = false ∧
        s.pwr.refLost = false ∧ s.secondSet n = 64) ∧
    (∃ (n : Nat) (s : State), (lookupN s.hasp.grace n ≠ some 0 ∨ s.pwr.refLost = true)) ∧
    (∃ (n : Nat) (s : State), (lookupN s.hasp.grace n ≠ some 0 ∨ s.pwr.refLost = true)) ∧
    (∃ (n : Nat) (s : State), (lookupN s.hasp.grace n ≠ some 0 ∨ s.pwr.refLost = true)) ∧
    (∃ (f : FnId) (s : State), s.fnLive f = true ∧ bitW (s.fnReg f 0x74) 31 = true ∧ lookupN s.hasp.grace (fld
        (s.fnReg f 0x74) 9 0) ≠ some 0) ∧
    (∃ (f : FnId) (s : State), s.fnLive f = true ∧ bitW (s.fnReg f 0x74) 31 = true ∧ lookupN s.hasp.grace (fld
        (s.fnReg f 0x74) 9 0) ≠ some 0) ∧
    (∃ (i : Nat) (v : Word) (s : State), i < 24 ∧ s.pwr.phase = .mission ∧ (∀ n, lookupN s.hasp.grace n ≠ some 0)) ∧
    (∃ (i : Nat) (v : Word) (s : State), i < 24 ∧ s.pwr.phase = .mission ∧ (∀ n, lookupN s.hasp.grace n ≠ some 0)) ∧
    (∃ (s : State), s.pwr.phase = .mission) :=
  ⟨⟨5, ({ up with hasp := { up.hasp with raised := [5], grace := [(5, 0)] } }).setReg (oSrcCfg 5) 0x00002000#32, by decide +kernel⟩,
   ⟨5, up, by decide +kernel⟩,
   ⟨5, { up with hasp := { up.hasp with raised := [5], grace := [(5, 1)] } }, by decide +kernel⟩,
   ⟨5, { up with pwr := { up.pwr with refLost := true }, hasp := { up.hasp with raised := [5], grace := [(5, 0)] } }, by decide +kernel⟩,
   ⟨fA, (({ up with hasp := { up.hasp with raised := [5], grace := [(5, 1)] } }).setReg
       (oSrcCfg 5) 0x4000#32).setFnReg fA 0x74 0xFF800005#32, by decide +kernel⟩,
   ⟨fB, (up).setFnReg fB 0x74 0x80000005#32, by decide +kernel⟩,
   ⟨23, 0x80000000#32, { up with hasp := { up.hasp with raised := [767, 5, 736] } },
       by and_intros <;> first | exact (fun n => by show (none : Option Nat) ≠ some 0; decide) | decide +kernel⟩,
   ⟨0, 0x20#32, { up with hasp := { up.hasp with raised := [767, 5, 736] } },
       by and_intros <;> first | exact (fun n => by show (none : Option Nat) ≠ some 0; decide) | decide +kernel⟩,
   ⟨((up)).setReg (oFirst) 0x80000005#32, by decide +kernel⟩⟩

/-- States and operands that meet the hypotheses of ProgressTripsActOnTheInstance. -/
theorem witness_ProgressTripsActOnTheInstance :
    (∃ (n : Nat) (ring : Nat) (c : Dword) (cs : List Nat) (s : State), s.progWindow .engine ≠ 0 ∧ s.armed .engine n ring cs = true ∧
        s.pwr.refLost = false ∧ (s.weft (weftOf n)).checks.slice.isSome = true ∧ s.silent (weftSrc (weftOf n) (8 + n % 4))) ∧
    (∃ (n : Nat) (ring : Nat) (c : Dword) (cs : List Nat) (s : State), s.progWindow .engine ≠ 0 ∧ s.armed .engine n ring cs = true ∧
        s.pwr.refLost = false ∧ (s.weft (weftOf n)).checks.slice.isSome = true ∧ s.silent (weftSrc (weftOf n) (8 + n % 4))) ∧
    (∃ (x : Nat) (ring : Nat) (c : Dword) (cs : List Nat) (s : State), s.progWindow .context ≠ 0 ∧ s.armed .context x ring cs = true ∧
        s.pwr.refLost = false ∧ s.silent 0x013) ∧
    (∃ (k : MonKind) (n : Nat) (ring : Nat) (c : Dword) (cs : List Nat) (s : State), (s.progWindow k = 0 ∨ s.pwr.refLost = true)) ∧
    (∃ (k : MonKind) (n : Nat) (ring : Nat) (c : Dword) (cs : List Nat) (s : State), (s.progWindow k = 0 ∨ s.pwr.refLost = true)) ∧
    (∃ (k : MonKind) (n : Nat) (ring : Nat) (c : Dword) (cs : List Nat) (s : State), (s.progWindow k = 0 ∨ s.pwr.refLost = true)) :=
  ⟨⟨0, 0, 9, [], quiet 264 ({ up with wa := { dieUp with checks := { Checks.reset with slice := some 1 } } }), by decide +kernel⟩,
   ⟨7, 0, 9, [], quiet 523 ({ up with wb := { dieUp with checks := { Checks.reset with slice := some 1 } } }), by decide +kernel⟩,
   ⟨1, 0, 9, [1], quiet 19 (running), by decide +kernel⟩,
   ⟨.engine, 0, 0, 0, [], (running).setReg (oProgWin 0) 0#32, by decide +kernel⟩,
   ⟨.context, 1, 0, 0, [], (running).setReg (oProgWin 1) 0#32, by decide +kernel⟩,
   ⟨.context, 1, 0, 9, [1], { (running : State) with pwr := { up.pwr with refLost := true } }, by decide +kernel⟩⟩

/-- States and operands that meet the hypotheses of RecoveryLadderClimbs. -/
theorem witness_RecoveryLadderClimbs :
    (∃ (u : UnitId) (s : State), s.unitPhase u = some .resetting ∧ u ≠ .creel ∧ u ≠ .heddle) ∧
    (∃ (u : UnitId) (s : State), s.unitPhase u = some .resetting ∧ u ≠ .creel ∧ u ≠ .heddle) ∧
    (∃ (u : UnitId) (s : State), s.unitPhase u = some .resetting ∧ u ≠ .creel ∧ u ≠ .heddle) ∧
    (∃ (u : UnitId) (s : State), s.unitPhase u = some .resetting ∧ (u = .creel ∨ u = .heddle) ∧ s.noSteps ∧ s.wa.checks.phase ≠ .due ∧
        s.wb.checks.phase ≠ .due) ∧
    (∃ (u : UnitId) (s : State), s.unitPhase u = some .resetting ∧ (u = .creel ∨ u = .heddle) ∧ s.noSteps ∧ s.wa.checks.phase ≠ .due ∧
        s.wb.checks.phase ≠ .due) ∧
    (∃ (u : UnitId) (s : State), s.unitPhase u = some .resetting ∧ u ≠ .creel ∧ u ≠ .heddle ∧ s.pwr.refLost = false ∧ s.silent 0x00E) ∧
    (∃ (u : UnitId) (s : State), s.unitPhase u = some .resetting ∧ u ≠ .creel ∧ u ≠ .heddle ∧ s.pwr.refLost = false ∧ s.silent 0x00E) ∧
    (∃ (u : UnitId) (s : State), s.unitPhase u = some .resetting ∧ (u = .creel ∨ u = .heddle) ∧ s.pwr.refLost = false ∧
        s.pwr.phase = .mission ∧ s.hasp.raised.contains 0x00E = false) ∧
    (∃ (u : UnitId) (s : State), s.unitPhase u = some .resetting ∧ (u = .creel ∨ u = .heddle) ∧ s.pwr.refLost = false ∧
        s.pwr.phase = .mission ∧ s.hasp.raised.contains 0x00E = false) ∧
    (∃ (d : Weft) (s : State), (s.diePhase d).isSome = true ∧ s.pwr.phase = .mission ∧ s.pwr.refLost = false ∧ s.silent 0x00E) ∧
    (∃ (d : Weft) (s : State), (s.diePhase d).isSome = true ∧ s.pwr.phase = .mission ∧ s.pwr.refLost = false ∧ s.silent 0x00E) ∧
    (∃ (s : State), s.ladder.module = true ∧ s.pwr.refLost = false ∧ s.silent 0x00E ∧ s.portA.up = false ∧ s.portB.up = false ∧
        s.portS.up = false) ∧
    (∃ (u : UnitId) (s : State), s.unitPhase u = some .isolating ∧ u.wf = true ∧ u ≠ .creel ∧ u ≠ .heddle ∧ s.noSteps ∧
        s.wa.checks.phase ≠ .due ∧ s.wb.checks.phase ≠ .due) ∧
    (∃ (u : UnitId) (s : State), s.unitPhase u = some .isolating ∧ u.wf = true ∧ u ≠ .creel ∧ u ≠ .heddle ∧ s.noSteps ∧
        s.wa.checks.phase ≠ .due ∧ s.wb.checks.phase ≠ .due) ∧
    (∃ (u : UnitId) (s : State), s.unitPhase u = some .isolating ∧ u.wf = true ∧ u ≠ .creel ∧ u ≠ .heddle ∧ s.noSteps ∧
        s.wa.checks.phase ≠ .due ∧ s.wb.checks.phase ≠ .due) ∧
    (∃ (u : UnitId) (s : State), s.unitPhase u = some .isolating ∧ u.wf = true ∧ u ≠ .creel ∧ u ≠ .heddle ∧ s.noSteps ∧
        s.wa.checks.phase ≠ .due ∧ s.wb.checks.phase ≠ .due) ∧
    (∃ (d : Weft) (s : State), s.diePhase d = some .linking ∧ (s.weft d).trainFailed = false ∧ (s.weft d).injectFailed = false ∧
        s.noSteps ∧ s.wa.checks.phase ≠ .due ∧ s.wb.checks.phase ≠ .due) ∧
    (∃ (d : Weft) (s : State), s.diePhase d = some .linking ∧ (s.weft d).trainFailed = false ∧ (s.weft d).injectFailed = false ∧
        s.noSteps ∧ s.wa.checks.phase ≠ .due ∧ s.wb.checks.phase ≠ .due) ∧
    (∃ (r : RungId) (s : State), s.pwr.refLost = true) :=
  ⟨⟨.pair 7, { up with ladder := { up.ladder with units := [(.pair 7, .resetting)] } }, by decide +kernel⟩,
   ⟨.link 0, { up with ladder := { up.ladder with units := [(.link 0, .resetting)] } }, by decide +kernel⟩,
   ⟨.reed .b, { up with ladder := { up.ladder with units := [(.reed .b, .resetting)] } }, by decide +kernel⟩,
   ⟨.creel, { up with ladder := { up.ladder with units := [(.creel, .resetting)] } }, by decide +kernel⟩,
   ⟨.heddle, { up with ladder := { up.ladder with units := [(.heddle, .resetting)] } }, by decide +kernel⟩,
   ⟨.engine 7, quiet 14 ({ up with ladder := { up.ladder with units := [(.engine 7, .resetting)] } }), by decide +kernel⟩,
   ⟨.finish .a, quiet 14 ({ up with ladder := { up.ladder with units := [(.finish .a, .resetting)] } }), by decide +kernel⟩,
   ⟨.creel, quiet 14 ({ up with ladder := { up.ladder with units := [(.creel, .resetting)] } }), by decide +kernel⟩,
   ⟨.heddle, { up with ladder := { up.ladder with units := [(.heddle, .resetting)] } }, by decide +kernel⟩,
   ⟨.a, quiet 14 ({ up with ladder := { up.ladder with dieA := some .training } }), by decide +kernel⟩,
   ⟨.b, quiet 14 ({ up with ladder := { up.ladder with dieB := some .linking } }), by decide +kernel⟩,
   ⟨quiet 14 (noPorts { up with ladder := { up.ladder with module := true } }), by decide +kernel⟩,
   ⟨.engine 7, { up with ladder := { up.ladder with units := [(.engine 7, .isolating)] } }, by decide +kernel⟩,
   ⟨.link 7, { up with ladder := { up.ladder with units := [(.link 7, .isolating)] } }, by decide +kernel⟩,
   ⟨.reed .a, { up with ladder := { up.ladder with units := [(.reed .a, .isolating)] } }, by decide +kernel⟩,
   ⟨.pair 0, { up with ladder := { up.ladder with units := [(.pair 0, .isolating)] } }, by decide +kernel⟩,
   ⟨.a, { { up with ladder := { up.ladder with dieA := some .linking } } with
       wa := { dieUp with inService := false }, links := List.replicate 8 Link.reset }, by decide +kernel⟩,
   ⟨.b, { { up with ladder := { up.ladder with dieB := some .linking, dieA := some .training } } with
       links := List.replicate 8 { Link.reset with state := 3 } }, by decide +kernel⟩,
   ⟨.module, { up with pwr := { up.pwr with refLost := true } }, by decide +kernel⟩⟩

/-- States and operands that meet the hypotheses of ActionsKillAndReset. -/
theorem witness_ActionsKillAndReset :
    (∃ (c : Nat) (x : Step) (s : State), s.pwr.phase = .mission ∧ s.begunStep c = some x ∧ lookupN s.ladder.kills c = none) ∧
    (∃ (c : Nat) (s : State), s.pwr.phase = .mission ∧ s.begunStep c = none) ∧
    (∃ (n : Nat) (s : State), s.pwr.phase = .mission ∧ s.unitHeld (.engine n) = false ∧ s.unitCtxs (.engine n) = [] ∧
        s.sched.retest = false) ∧
    (∃ (n : Nat) (s : State), s.pwr.phase = .mission ∧ s.unitHeld (.engine n) = false ∧ s.unitCtxs (.engine n) = [] ∧
        s.sched.retest = false) ∧
    (∃ (d : Weft) (s : State), s.pwr.phase = .mission ∧ s.diePhase d = none ∧ s.steps = [] ∧ s.posted = [] ∧ s.loadBusy = none ∧
        (∀ f ∈ allFns, bitW (s.fnReg f 0x60) 31 = false)) ∧
    (∃ (d : Weft) (s : State), s.pwr.phase = .mission ∧ s.diePhase d = none ∧ s.steps = [] ∧ s.posted = [] ∧ s.loadBusy = none ∧
        (∀ f ∈ allFns, bitW (s.fnReg f 0x60) 31 = false)) ∧
    (∃ (s : State), s.pwr.phase = .mission) :=
  ⟨⟨1, stp, { running with
      latches := [(0, .program 1), (1, .program 2)], wa := { dieUp with
      arrayQ := [stp.opOf 0 (.layer 0) 4 9], arrayRun := some (stp.opOf 0 (.layer 0) 4 8) } }, by decide +kernel⟩,
   ⟨2, running, by decide +kernel⟩,
   ⟨0, up, by decide +kernel⟩,
   ⟨7, { up with wb := { dieUp with checks := { Checks.reset with phase := .running } } }, by decide +kernel⟩,
   ⟨.a, { busy with
       wa := { dieUp with beam := [(1, 1)], gddr := [(1, 1)] }, wb := { dieUp with
       beam := [(1, 1)], gddr := [(1, 1)], codebooks := [(1, { format := 0, used := 1, levels := [] })] } }, by decide +kernel⟩,
   ⟨.b, busy, by decide +kernel⟩,
   ⟨running, by decide +kernel⟩⟩

/-- States and operands that meet the hypotheses of TokensConsumeTheNonce. -/
theorem witness_TokensConsumeTheNonce :
    (∃ (s : State), s.tumblerFree ∧ s.sec.mailbox.wf = true) ∧
    (∃ (s : State), s.tumblerFree) ∧
    (∃ (s : State), s.tumblerFree) ∧
    (∃ (s : State), s.tumblerFree) ∧
    (∃ (s : State), s.tumblerFree) ∧
    (∃ (s : State), s.tumblerFree) ∧
    (∃ (s : State), s.tumblerFree) ∧
    (∃ (s : State), s.tumblerFree) ∧
    (∃ (s : State), s.tumblerFree) ∧
    (∃ (s : State), (s.pwr.recovery = true ∨ s.pwr.injected = false ∨ s.pwr.moduleInjectFailed = true ∨ s.pwr.startFailed ≠ [])) ∧
    (∃ (s : State), (s.pwr.recovery = true ∨ s.pwr.injected = false ∨ s.pwr.moduleInjectFailed = true ∨ s.pwr.startFailed ≠ [])) ∧
    (∃ (s : State), (s.pwr.recovery = true ∨ s.pwr.injected = false ∨ s.pwr.moduleInjectFailed = true ∨ s.pwr.startFailed ≠ [])) ∧
    (∃ (s : State), (s.pwr.recovery = true ∨ s.pwr.injected = false ∨ s.pwr.moduleInjectFailed = true ∨ s.pwr.startFailed ≠ [])) ∧
    (∃ (c : Instr) (k : Nat) (s : State),
        (c = .tmbNonce ∨ c = .tmbToken ∨ c = .tmbAttest ∨ c = .tmbLoadDraftKey ∨ c = .tmbEraseDraftKey k ∨ c = .tmbEnrol) ∧
        (s.tumblerOn = false ∨ s.tumblerBusy = true)) ∧
    (∃ (c : Instr) (k : Nat) (s : State),
        (c = .tmbNonce ∨ c = .tmbToken ∨ c = .tmbAttest ∨ c = .tmbLoadDraftKey ∨ c = .tmbEraseDraftKey k ∨ c = .tmbEnrol) ∧
        (s.tumblerOn = false ∨ s.tumblerBusy = true)) ∧
    (∃ (c : Instr) (k : Nat) (s : State),
        (c = .tmbNonce ∨ c = .tmbToken ∨ c = .tmbAttest ∨ c = .tmbLoadDraftKey ∨ c = .tmbEraseDraftKey k ∨ c = .tmbEnrol) ∧
        (s.tumblerOn = false ∨ s.tumblerBusy = true)) ∧
    (∃ (op : Nat) (k : Nat) (c : Instr) (s : State), s.tumblerOn = true ∧ s.tumblerBusy = false ∧ s.loadHasTumbler = true ∧ k < 128 ∧
        ((c = .tmbNonce ∧ op = 1 ∧ k = 0) ∨ (c = .tmbToken ∧ op = 2 ∧ k = 0) ∨ (c = .tmbAttest ∧ op = 3 ∧ k = 0) ∨ (c = .tmbLoadDraftKey ∧
        op = 4 ∧ k = 0) ∨ (c = .tmbEraseDraftKey k ∧ op = 5) ∨ (c = .tmbEnrol ∧ op = 6 ∧ k = 0))) ∧
    (∃ (op : Nat) (k : Nat) (c : Instr) (s : State), s.tumblerOn = true ∧ s.tumblerBusy = false ∧ s.loadHasTumbler = true ∧ k < 128 ∧
        ((c = .tmbNonce ∧ op = 1 ∧ k = 0) ∨ (c = .tmbToken ∧ op = 2 ∧ k = 0) ∨ (c = .tmbAttest ∧ op = 3 ∧ k = 0) ∨ (c = .tmbLoadDraftKey ∧
        op = 4 ∧ k = 0) ∨ (c = .tmbEraseDraftKey k ∧ op = 5) ∨ (c = .tmbEnrol ∧ op = 6 ∧ k = 0))) ∧
    (∃ (op : Nat) (k : Nat) (c : Instr) (s : State), s.tumblerOn = true ∧ s.tumblerBusy = false ∧ s.loadHasTumbler = true ∧ k < 128 ∧
        ((c = .tmbNonce ∧ op = 1 ∧ k = 0) ∨ (c = .tmbToken ∧ op = 2 ∧ k = 0) ∨ (c = .tmbAttest ∧ op = 3 ∧ k = 0) ∨ (c = .tmbLoadDraftKey ∧
        op = 4 ∧ k = 0) ∨ (c = .tmbEraseDraftKey k ∧ op = 5) ∨ (c = .tmbEnrol ∧ op = 6 ∧ k = 0))) ∧
    (∃ (op : Nat) (k : Nat) (c : Instr) (s : State), s.tumblerOn = true ∧ s.tumblerBusy = false ∧ s.loadHasTumbler = true ∧ k < 128 ∧
        ((c = .tmbNonce ∧ op = 1 ∧ k = 0) ∨ (c = .tmbToken ∧ op = 2 ∧ k = 0) ∨ (c = .tmbAttest ∧ op = 3 ∧ k = 0) ∨ (c = .tmbLoadDraftKey ∧
        op = 4 ∧ k = 0) ∨ (c = .tmbEraseDraftKey k ∧ op = 5) ∨ (c = .tmbEnrol ∧ op = 6 ∧ k = 0))) ∧
    (∃ (op : Nat) (k : Nat) (c : Instr) (s : State), s.tumblerOn = true ∧ s.tumblerBusy = false ∧ s.loadHasTumbler = true ∧ k < 128 ∧
        ((c = .tmbNonce ∧ op = 1 ∧ k = 0) ∨ (c = .tmbToken ∧ op = 2 ∧ k = 0) ∨ (c = .tmbAttest ∧ op = 3 ∧ k = 0) ∨ (c = .tmbLoadDraftKey ∧
        op = 4 ∧ k = 0) ∨ (c = .tmbEraseDraftKey k ∧ op = 5) ∨ (c = .tmbEnrol ∧ op = 6 ∧ k = 0))) ∧
    (∃ (op : Nat) (k : Nat) (c : Instr) (s : State), s.tumblerOn = true ∧ s.tumblerBusy = false ∧ s.loadHasTumbler = true ∧ k < 128 ∧
        ((c = .tmbNonce ∧ op = 1 ∧ k = 0) ∨ (c = .tmbToken ∧ op = 2 ∧ k = 0) ∨ (c = .tmbAttest ∧ op = 3 ∧ k = 0) ∨ (c = .tmbLoadDraftKey ∧
        op = 4 ∧ k = 0) ∨ (c = .tmbEraseDraftKey k ∧ op = 5) ∨ (c = .tmbEnrol ∧ op = 6 ∧ k = 0))) :=
  ⟨⟨{ up with sec := { up.sec with mailbox := [(15, 3), (16, 4)] } }, by decide +kernel⟩,
   ⟨{ up with sec := { up.sec with nonce := some 0, mailbox := [(0, 0x44), (1, 0x42), (2, 0x47), (3, 0x54), (4, 1), (6, 1)] } },
       by decide +kernel⟩,
   ⟨up, by decide +kernel⟩,
   ⟨{ up with sec := { up.sec with nonce := some 0, mailbox := [(0, 0x44), (1, 0x42), (2, 0x47), (3, 0x54), (4, 1), (6, 16)] } },
       by decide +kernel⟩,
   ⟨{ up with sec := { up.sec with nonce := some 0, mailbox := [(0, 0x44), (1, 0x42), (2, 0x47), (3, 0x54), (4, 1), (6, 1)] } },
       by decide +kernel⟩,
   ⟨{ { up with sec := { up.sec with nonce := some 0, mailbox := [(0, 0x44), (1, 0x42), (2, 0x47), (3, 0x54), (4, 1), (6, 2)] } } with
       steps := [{ stp with stage := .waiting }, stp] }, by decide +kernel⟩,
   ⟨{ up with
       sec := { up.sec with
       nonce := some 0, mailbox := [(0, 0x44), (1, 0x42), (2, 0x47), (3, 0x54), (4, 1), (6, 16)], ownedFuse := true, toggles := 30,
       owner := some { sequence := 0, sigRequired := false, fieldOpen := true, ownerPk := 0, ownerDraftPk := 0, issuers := [] } } },
       by decide +kernel⟩,
   ⟨{ up with
       sec := { up.sec with
       nonce := some 0, mailbox := [(0, 0x44), (1, 0x42), (2, 0x47), (3, 0x54), (4, 1), (6, 17)], ownedFuse := true, toggles := 1,
       owner := some { sequence := 0, sigRequired := false, fieldOpen := true, ownerPk := 0, ownerDraftPk := 0, issuers := [] } } },
       by decide +kernel⟩,
   ⟨{ up with
       sec := { up.sec with
       nonce := some 0, mailbox := [(0, 0x44), (1, 0x42), (2, 0x47), (3, 0x54), (4, 1), (6, 18)], ownedFuse := true, toggles := 1,
       owner := some { sequence := 0, sigRequired := false, fieldOpen := true, ownerPk := 0, ownerDraftPk := 0, issuers := [] } } },
       by decide +kernel⟩,
   ⟨{ up with pwr := { up.pwr with recovery := true } }, by decide +kernel⟩,
   ⟨{ up with pwr := { up.pwr with startFailed := [.b] } }, by decide +kernel⟩,
   ⟨{ up with pwr := { up.pwr with moduleInjectFailed := true } }, by decide +kernel⟩,
   ⟨{ up with pwr := { up.pwr with injected := false } }, by decide +kernel⟩,
   ⟨.tmbToken, 0, { up with pwr := { up.pwr with phase := .off } }, by decide +kernel⟩,
   ⟨.tmbEraseDraftKey 127, 127, { up with sec := { up.sec with tmbWaiting := some 1 } }, by decide +kernel⟩,
   ⟨.tmbEnrol, 0, { up with sec := { up.sec with enrolling := some [] } }, by decide +kernel⟩,
   ⟨1, 0, .tmbNonce, { (busy : State) with loadBusy := some (desc 0 [2]) }, by decide +kernel⟩,
   ⟨2, 0, .tmbToken, { (busy : State) with loadBusy := some (desc 0 [2]) }, by decide +kernel⟩,
   ⟨3, 0, .tmbAttest, { (busy : State) with loadBusy := some (desc 0 [2]) }, by decide +kernel⟩,
   ⟨4, 0, .tmbLoadDraftKey, { (busy : State) with loadBusy := some (desc 0 [2]) }, by decide +kernel⟩,
   ⟨5, 127, (.tmbEraseDraftKey 127), { (busy : State) with loadBusy := some (desc 0 [2]) }, by decide +kernel⟩,
   ⟨6, 0, .tmbEnrol, { (busy : State) with loadBusy := some (desc 0 [2]) }, by decide +kernel⟩⟩

/-- States and operands that meet the hypotheses of TumblerKeysReportsAndEnrolment. -/
theorem witness_TumblerKeysReportsAndEnrolment :
    (∃ (key : BitVec 256) (s : State), s.tumblerFree ∧ s.mailKey = some key ∧ 1 ≤ leNat (s.mail 0 2) ∧ leNat (s.mail 0 2) ≤ 64 ∧
        (lookupN s.sec.draftKeys (leNat (s.mail 0 2)) = none ∨ s.keyUsed (leNat (s.mail 0 2)) = false)) ∧
    (∃ (key : BitVec 256) (s : State), s.tumblerFree ∧ s.mailKey = some key ∧ 1 ≤ leNat (s.mail 0 2) ∧ leNat (s.mail 0 2) ≤ 64 ∧
        (lookupN s.sec.draftKeys (leNat (s.mail 0 2)) = none ∨ s.keyUsed (leNat (s.mail 0 2)) = false)) ∧
    (∃ (s : State), s.tumblerFree ∧ (s.sec.owk = none ∨ s.mailKey = none ∨ leNat (s.mail 0 2) = 0 ∨ 64 < leNat (s.mail 0 2) ∨
        ((lookupN s.sec.draftKeys (leNat (s.mail 0 2))).isSome = true ∧ s.keyUsed (leNat (s.mail 0 2)) = true))) ∧
    (∃ (s : State), s.tumblerFree ∧ (s.sec.owk = none ∨ s.mailKey = none ∨ leNat (s.mail 0 2) = 0 ∨ 64 < leNat (s.mail 0 2) ∨
        ((lookupN s.sec.draftKeys (leNat (s.mail 0 2))).isSome = true ∧ s.keyUsed (leNat (s.mail 0 2)) = true))) ∧
    (∃ (s : State), s.tumblerFree ∧ (s.sec.owk = none ∨ s.mailKey = none ∨ leNat (s.mail 0 2) = 0 ∨ 64 < leNat (s.mail 0 2) ∨
        ((lookupN s.sec.draftKeys (leNat (s.mail 0 2))).isSome = true ∧ s.keyUsed (leNat (s.mail 0 2)) = true))) ∧
    (∃ (s : State), s.tumblerFree ∧ (s.sec.owk = none ∨ s.mailKey = none ∨ leNat (s.mail 0 2) = 0 ∨ 64 < leNat (s.mail 0 2) ∨
        ((lookupN s.sec.draftKeys (leNat (s.mail 0 2))).isSome = true ∧ s.keyUsed (leNat (s.mail 0 2)) = true))) ∧
    (∃ (s : State), s.tumblerFree ∧ (s.sec.owk = none ∨ s.mailKey = none ∨ leNat (s.mail 0 2) = 0 ∨ 64 < leNat (s.mail 0 2) ∨
        ((lookupN s.sec.draftKeys (leNat (s.mail 0 2))).isSome = true ∧ s.keyUsed (leNat (s.mail 0 2)) = true))) ∧
    (∃ (k : Nat) (s : State), s.tumblerFree ∧ k < 128 ∧ s.keyUsed k = false) ∧
    (∃ (k : Nat) (s : State), s.tumblerFree ∧ k < 128 ∧ s.keyUsed k = true) ∧
    (∃ (s : State), s.tumblerFree ∧ s.pwr.recovery = false ∧ s.pwr.firmware = true ∧ s.sec.mailbox.wf = true) ∧
    (∃ (s : State), s.tumblerFree ∧ (s.pwr.recovery = true ∨ s.pwr.firmware = false)) ∧
    (∃ (s : State), s.tumblerFree ∧ (s.pwr.recovery = true ∨ s.pwr.firmware = false)) ∧
    (∃ (s : State), s.tumblerFree) ∧
    (∃ (s : State), s.tumblerFree) ∧
    (∃ (s : State), s.tumblerFree) :=
  ⟨⟨0xffdcaa219e8639a4ad6a6887a1bf1db0d49f3efcdb12f3415bc8136bd10b8eb9#256, { up with
      sec := { up.sec with
      owk := some 5, mailbox := Memory.writeBytes [] 0 ([1] ++ List.replicate 15 0 ++ leBytes 16 0x280d80ba0ed0c0d185a97931ce88091c) } },
      by decide +kernel⟩,
   ⟨0xffdcaa219e8639a4ad6a6887a1bf1db0d49f3efcdb12f3415bc8136bd10b8eb9#256, { up with
       sec := { up.sec with
       owk := some 5, mailbox := Memory.writeBytes [] 0 ([64] ++ List.replicate 15 0 ++ leBytes 16 0xd2141f7d68b09982e0117b2d4ad5c16e),
       draftKeys := [(64, 3), (2, 7)] } }, by decide +kernel⟩,
   ⟨up, by decide +kernel⟩,
   ⟨{ up with sec := { up.sec with owk := some 1, mailbox := [(0, 1)] } }, by decide +kernel⟩,
   ⟨{ up with
       sec := { up.sec with
       owk := some 5, mailbox := Memory.writeBytes [] 0 ([0] ++ List.replicate 15 0 ++ leBytes 16 0x76833c525267b41f536408314af41ee3) } },
       by decide +kernel⟩,
   ⟨{ up with
       sec := { up.sec with
       owk := some 5, mailbox := Memory.writeBytes [] 0 ([65] ++ List.replicate 15 0 ++ leBytes 16 0x8c9aa3953407ed4c36dc0a2dcea9d691) } },
       by decide +kernel⟩,
   ⟨{ ({ up with sec := { up.sec with owk := some 5, mailbox := Memory.writeBytes [] 0 ([64] ++ List.replicate 15 0 ++ leBytes 16 0xd2141f7d68b09982e0117b2d4ad5c16e), draftKeys := [(64, 3)] } } : State) with
       drafts := [{ (ent : Entry) with draft := { (drf : Draft) with encrypted := true, keyId := 64 } }] }, by decide +kernel⟩,
   ⟨64, { up with sec := { up.sec with owk := some 1, mailbox := [], draftKeys := [(64, 3), (2, 7)] } }, by decide +kernel⟩,
   ⟨64, { up with drafts := [{ ent with draft := { drf with encrypted := true, keyId := 64 } }] }, by decide +kernel⟩,
   ⟨{ up with sec := { up.sec with mailbox := [(0, 9), (31, 7), (32, 1)] } }, by decide +kernel⟩,
   ⟨{ up with pwr := { up.pwr with recovery := true } }, by decide +kernel⟩,
   ⟨{ up with pwr := { up.pwr with firmware := false } }, by decide +kernel⟩,
   ⟨{ up with sec := { up.sec with mailbox := Memory.writeBytes [] 0 goodOwner } }, by decide +kernel⟩,
   ⟨{ up with sec := { up.sec with ownedFuse := true, mailbox := Memory.writeBytes [] 0 goodOwner } }, by decide +kernel⟩,
   ⟨up, by decide +kernel⟩⟩

/-- States and operands that meet the hypotheses of ContextsOpenAndClose. -/
theorem witness_ContextsOpenAndClose :
    (∃ (f : FnId) (w : Word) (s : State), s.fnLive f = true ∧ bitW w 31 = true ∧ s.openStatus f w = 0 ∧ (∃ i, i < 4096 ∧ s.ctx? i = none)) ∧
    (∃ (f : FnId) (w : Word) (s : State), s.fnLive f = true ∧ bitW w 31 = true ∧ s.openStatus f w = 0 ∧ (∃ i, i < 4096 ∧ s.ctx? i = none)) ∧
    (∃ (f : FnId) (w : Word) (s : State), s.fnLive f = true ∧ bitW w 31 = true ∧ s.openStatus f w ≠ 0) ∧
    (∃ (f : FnId) (w : Word) (s : State), s.fnLive f = true ∧ bitW w 31 = true ∧ s.openStatus f w ≠ 0) ∧
    (∃ (f : FnId) (w : Word) (c : Ctx) (s : State), s.fnLive f = true ∧ bitW w 31 = true ∧ s.ctx? (fld w 11 0) = some c ∧ c.fn = f ∧
        c.closing = false ∧ s.begunStep c.id = none) ∧
    (∃ (f : FnId) (w : Word) (c : Ctx) (x : Step) (s : State), s.fnLive f = true ∧ bitW w 31 = true ∧ s.ctx? (fld w 11 0) = some c ∧
        c.fn = f ∧ c.closing = false ∧ s.begunStep c.id = some x ∧ lookupN s.ladder.kills c.id = none) ∧
    (∃ (c : Ctx) (s : State), s.ctx? c.id = some c ∧ c.closing = true ∧ s.begunStep c.id = none ∧ lookupN s.ladder.kills c.id = none ∧
        (∀ x ∈ s.steps, x.ctx = c.id) ∧ s.sched.running = none ∧ s.sched.nextStart = none ∧ s.loadBusy = none ∧ (∀ r ∈ s.rings,
        ∀ h ∈ r.held, h.owner.bind s.step? = none)) ∧
    (∃ (c : Nat) (st : Nat) (stuck : List UnitId) (s : State), lookupN s.ladder.kills c = some st ∧ s.begunStep c = none) ∧
    (∃ (c : Nat) (st : Nat) (stuck : List UnitId) (s : State), lookupN s.ladder.kills c = some st ∧ s.begunStep c = none) ∧
    (∃ (c : Nat) (st : Nat) (stuck : List UnitId) (cx : Ctx) (x : Step) (s : State), lookupN s.ladder.kills c = some st ∧ 1 < st ∧
        s.begunStep c = some x ∧ s.ctx? c = some cx ∧ cx.closing = false ∧ x.stage.ended = false ∧ x.mirror = false ∧
        s.recordHeld x.id = false ∧ s.recordBlocked x = false ∧ s.steps = [x] ∧ s.sched.running = some x.id ∧ s.sched.nextStart = none ∧
        s.wa.checks.phase ≠ .due ∧ s.wb.checks.phase ≠ .due) ∧
    (∃ (c : Nat) (st : Nat) (stuck : List UnitId) (cx : Ctx) (x : Step) (s : State), lookupN s.ladder.kills c = some st ∧ 1 < st ∧
        s.begunStep c = some x ∧ s.ctx? c = some cx ∧ cx.closing = false ∧ x.stage.ended = false ∧ x.mirror = false ∧
        s.recordBlocked x = true ∧ (s.hport cx.fn.port).carries = true ∧ s.steps = [x] ∧ s.sched.running = some x.id ∧
        s.wa.checks.phase ≠ .due ∧ s.wb.checks.phase ≠ .due) :=
  ⟨⟨fA, 0x80000003#32, up, by and_intros <;> first | exact (⟨0, by decide +kernel⟩) | decide +kernel⟩,
   ⟨fA, 0x8000000E#32, busy, by and_intros <;> first | exact (⟨0, by decide +kernel⟩) | decide +kernel⟩,
   ⟨fA, 0x80000000#32, up, by decide +kernel⟩,
   ⟨fA, 0x80000003#32, (up).setFnReg fA 0x04 0x2FFF#32, by decide +kernel⟩,
   ⟨fA, 0x80000002#32, ctx 2 fA false, { running with heldBells := [⟨2, 0, 1⟩, ⟨1, 0, 1⟩] }, by decide +kernel⟩,
   ⟨fA, 0x80000001#32, ctx 1 fA true, stp, running, by decide +kernel⟩,
   ⟨{ ctx 1 fA true with closing := true }, ((({ busy with
       ctxs := [{ ctx 1 fA true with closing := true }, ctx 2 fA false], latches := [(1, .program 1), (2, .program 2)] })).setReg
       (oMirror 63) 0x80002001#32).setReg (oMirror 0) 0x80002003#32, by decide +kernel⟩,
   ⟨1, 3, [], { busy with ladder := { up.ladder with kills := [(1, 3), (2, 4)] } }, by decide +kernel⟩,
   ⟨1, 3, [.engine 7, .engine 0], { busy with
       ladder := { up.ladder with kills := [(1, 3), (2, 4)], flush := [(1, .engine 0), (2, .engine 3)], stuck := [.pair 2] } },
       by decide +kernel⟩,
   ⟨1, 3, [.engine 0], (ctx 1 fA true), stp, { { running with latches := [(1, .program 1)] } with
       ladder := { up.ladder with kills := [(1, 3)] } }, by decide +kernel⟩,
   ⟨1, 3, [], (ctx 1 fA true), stp,
       { ({ { (running : State) with latches := [(1, .program 1)] } with ladder := { up.ladder with kills := [(1, 3)] } } : State) with
       rings := busy.rings.map (fun (r : Ring) => if r.completion then { r with tail := 15 } else r) }, by decide +kernel⟩⟩

/-- States and operands that meet the hypotheses of RingsLatchesAndDoorbells. -/
theorem witness_RingsLatchesAndDoorbells :
    (∃ (f : FnId) (s : State), s.fnLive f = true ∧ s.createResult f = 0) ∧
    (∃ (f : FnId) (s : State), s.fnLive f = true ∧ s.createResult f = 0) ∧
    (∃ (f : FnId) (s : State), s.fnLive f = true ∧ s.createResult f ≠ 0) ∧
    (∃ (f : FnId) (s : State), s.fnLive f = true ∧ s.createResult f ≠ 0) ∧
    (∃ (f : FnId) (s : State), s.fnLive f = true ∧ s.destroyResult f = 0) ∧
    (∃ (f : FnId) (s : State), s.fnLive f = true ∧ s.destroyResult f ≠ 0) ∧
    (∃ (f : FnId) (l : Nat) (s : State), s.fnLive f = true ∧ s.fnGrant f l = true ∧ lookupN s.latches l = none) ∧
    (∃ (f : FnId) (l : Nat) (s : State), s.fnLive f = true ∧ s.fnGrant f l = true ∧ lookupN s.latches l = none) ∧
    (∃ (f : FnId) (l : Nat) (s : State), s.fnLive f = true ∧ s.fnGrant f l = true ∧ (lookupN s.latches l).isSome = true) ∧
    (∃ (f : FnId) (l : Nat) (s : State), s.fnLive f = true ∧ s.fnGrant f l = false) ∧
    (∃ (f : FnId) (l : Nat) (s : State), s.fnLive f = true ∧ s.fnGrant f l = true) ∧
    (∃ (f : FnId) (l : Nat) (s : State), s.fnLive f = true ∧ s.fnGrant f l = true) ∧
    (∃ (f : FnId) (page : Nat) (v : Word) (descs : List (List Byte)) (cx : Ctx) (r : Ring) (s : State), s.fnLive f = true ∧
        s.ctx? page = some cx ∧ cx.fn = f ∧ cx.closing = false ∧ s.ring? page (fld v 31 24) = some r ∧ r.completion = false ∧
        fld v 15 0 < r.size ∧ r.tail < r.size ∧ r.read = r.tail ∧ (fld v 15 0 + r.size - r.tail) % r.size = 1 ∧ r.used + 1 < r.size ∧
        s.pwr.ready = true) ∧
    (∃ (f : FnId) (page : Nat) (v : Word) (descs : List (List Byte)) (cx : Ctx) (r : Ring) (s : State), s.fnLive f = true ∧
        s.ctx? page = some cx ∧ cx.fn = f ∧ cx.closing = false ∧ s.ring? page (fld v 31 24) = some r ∧ r.completion = false ∧
        fld v 15 0 < r.size ∧ r.tail < r.size ∧ r.read = r.tail ∧ (fld v 15 0 + r.size - r.tail) % r.size = 1 ∧ r.used + 1 < r.size ∧
        s.pwr.ready = true) ∧
    (∃ (f : FnId) (page : Nat) (v : Word) (cx : Ctx) (r : Ring) (s : State), s.fnLive f = true ∧ s.ctx? page = some cx ∧ cx.fn = f ∧
        cx.closing = false ∧ s.ring? page (fld v 31 24) = some r ∧ r.completion = true ∧ r.held = [] ∧ fld v 15 0 < r.size ∧
        (fld v 15 0 + r.size - r.head) % r.size ≤ r.used ∧ fld v 15 0 ≠ r.head) ∧
    (∃ (f : FnId) (page : Nat) (v : Word) (cx : Ctx) (r : Ring) (s : State), s.fnLive f = true ∧ s.ctx? page = some cx ∧ cx.fn = f ∧
        cx.closing = false ∧ s.ring? page (fld v 31 24) = some r ∧ r.completion = true ∧ r.held = [] ∧ fld v 15 0 < r.size ∧
        (fld v 15 0 + r.size - r.head) % r.size ≤ r.used ∧ fld v 15 0 ≠ r.head) ∧
    (∃ (f : FnId) (page : Nat) (v : Word) (descs : List (List Byte)) (cx : Ctx) (r : Ring) (s : State), s.fnLive f = true ∧
        s.ctx? page = some cx ∧ cx.fn = f ∧ s.ring? page (fld v 31 24) = some r ∧ fld v 15 0 < r.size ∧ (fld v 15 0 =
        (if r.completion then r.head else r.tail) ∨ cx.closing = true)) ∧
    (∃ (f : FnId) (page : Nat) (v : Word) (descs : List (List Byte)) (cx : Ctx) (r : Ring) (s : State), s.fnLive f = true ∧
        s.ctx? page = some cx ∧ cx.fn = f ∧ s.ring? page (fld v 31 24) = some r ∧ fld v 15 0 < r.size ∧ (fld v 15 0 =
        (if r.completion then r.head else r.tail) ∨ cx.closing = true)) ∧
    (∃ (f : FnId) (page : Nat) (v : Word) (descs : List (List Byte)) (cx : Ctx) (r : Ring) (s : State), s.fnLive f = true ∧
        s.ctx? page = some cx ∧ cx.fn = f ∧ s.ring? page (fld v 31 24) = some r ∧ fld v 15 0 < r.size ∧ (fld v 15 0 =
        (if r.completion then r.head else r.tail) ∨ cx.closing = true)) ∧
    (∃ (f : FnId) (page : Nat) (v : Word) (descs : List (List Byte)) (s : State), s.fnLive f = true ∧ ((∀ cx,
        s.ctx? page = some cx → cx.fn ≠ f) ∨ ((∀ cx, s.ctx? page = some cx → cx.closing = false) ∧ (s.ring? page
        (fld v 31 24) = none ∨ ∃ r, s.ring? page (fld v 31 24) = some r ∧ (r.size ≤ fld v 15 0 ∨ (r.completion = false ∧
        r.size - 1 - r.used < (fld v 15 0 + r.size - r.tail) % r.size) ∨ (r.completion = true ∧ r.used <
        (fld v 15 0 + r.size - r.head) % r.size))))) ∧ s.silent 0x010) ∧
    (∃ (f : FnId) (page : Nat) (v : Word) (descs : List (List Byte)) (s : State), s.fnLive f = true ∧ ((∀ cx,
        s.ctx? page = some cx → cx.fn ≠ f) ∨ ((∀ cx, s.ctx? page = some cx → cx.closing = false) ∧ (s.ring? page
        (fld v 31 24) = none ∨ ∃ r, s.ring? page (fld v 31 24) = some r ∧ (r.size ≤ fld v 15 0 ∨ (r.completion = false ∧
        r.size - 1 - r.used < (fld v 15 0 + r.size - r.tail) % r.size) ∨ (r.completion = true ∧ r.used <
        (fld v 15 0 + r.size - r.head) % r.size))))) ∧ s.silent 0x010) ∧
    (∃ (f : FnId) (page : Nat) (v : Word) (descs : List (List Byte)) (s : State), s.fnLive f = true ∧ ((∀ cx,
        s.ctx? page = some cx → cx.fn ≠ f) ∨ ((∀ cx, s.ctx? page = some cx → cx.closing = false) ∧ (s.ring? page
        (fld v 31 24) = none ∨ ∃ r, s.ring? page (fld v 31 24) = some r ∧ (r.size ≤ fld v 15 0 ∨ (r.completion = false ∧
        r.size - 1 - r.used < (fld v 15 0 + r.size - r.tail) % r.size) ∨ (r.completion = true ∧ r.used <
        (fld v 15 0 + r.size - r.head) % r.size))))) ∧ s.silent 0x010) ∧
    (∃ (f : FnId) (page : Nat) (v : Word) (descs : List (List Byte)) (s : State), s.fnLive f = true ∧ ((∀ cx,
        s.ctx? page = some cx → cx.fn ≠ f) ∨ ((∀ cx, s.ctx? page = some cx → cx.closing = false) ∧ (s.ring? page
        (fld v 31 24) = none ∨ ∃ r, s.ring? page (fld v 31 24) = some r ∧ (r.size ≤ fld v 15 0 ∨ (r.completion = false ∧
        r.size - 1 - r.used < (fld v 15 0 + r.size - r.tail) % r.size) ∨ (r.completion = true ∧ r.used <
        (fld v 15 0 + r.size - r.head) % r.size))))) ∧ s.silent 0x010) ∧
    (∃ (f : FnId) (page : Nat) (v : Word) (descs : List (List Byte)) (s : State), s.fnLive f = true ∧ ((∀ cx,
        s.ctx? page = some cx → cx.fn ≠ f) ∨ ((∀ cx, s.ctx? page = some cx → cx.closing = false) ∧ (s.ring? page
        (fld v 31 24) = none ∨ ∃ r, s.ring? page (fld v 31 24) = some r ∧ (r.size ≤ fld v 15 0 ∨ (r.completion = false ∧
        r.size - 1 - r.used < (fld v 15 0 + r.size - r.tail) % r.size) ∨ (r.completion = true ∧ r.used <
        (fld v 15 0 + r.size - r.head) % r.size))))) ∧ s.silent 0x010) ∧
    (∃ (f : FnId) (page : Nat) (v : Word) (descs : List (List Byte)) (s : State), s.fnLive f = true ∧ ((∀ cx,
        s.ctx? page = some cx → cx.fn ≠ f) ∨ ((∀ cx, s.ctx? page = some cx → cx.closing = false) ∧ (s.ring? page
        (fld v 31 24) = none ∨ ∃ r, s.ring? page (fld v 31 24) = some r ∧ (r.size ≤ fld v 15 0 ∨ (r.completion = false ∧
        r.size - 1 - r.used < (fld v 15 0 + r.size - r.tail) % r.size) ∨ (r.completion = true ∧ r.used <
        (fld v 15 0 + r.size - r.head) % r.size))))) ∧ s.silent 0x010) :=
  ⟨⟨fA, ((((busy).setFnReg fA 0x40 0x102001#32).setFnReg fA 0x44 0x3000#32).setFnReg fA 0x48 7#32).setFnReg fA 0x4C 0x07FF0010#32,
      by decide +kernel⟩,
   ⟨fA, ((({ busy with
       rings := [{ (busy.rings.getD 1 noRing) with
       log2 := 4 }] }).setFnReg fA 0x40 0x2001#32).setFnReg fA 0x44 0x3000#32).setFnReg fA 0x4C 0x0104#32, by decide +kernel⟩,
   ⟨fA, ((busy).setFnReg fA 0x40 0x2001#32).setFnReg fA 0x4C 0x0104#32, by decide +kernel⟩,
   ⟨fA, (busy).setFnReg fA 0x40 0x1#32, by decide +kernel⟩,
   ⟨fA, ({ busy with rings := [{ (busy.rings.getD 0 noRing) with head := 1 }, (busy.rings.getD 1 noRing)] }).setFnReg fA 0x40 0x1#32,
       by decide +kernel⟩,
   ⟨fA, (busy).setFnReg fA 0x40 0x1#32, by decide +kernel⟩,
   ⟨fA, 7, busy, by decide +kernel⟩,
   ⟨fA, 0, busy, by decide +kernel⟩,
   ⟨fA, 7, { busy with latches := [(7, .host fA)] }, by decide +kernel⟩,
   ⟨fA, 8, busy, by decide +kernel⟩,
   ⟨fA, 7, { busy with latches := [(6, .host fA), (7, .host fA)] }, by decide +kernel⟩,
   ⟨fA, 7, { busy with latches := [(7, .program 1)] }, by decide +kernel⟩,
   ⟨fA, 1, 2#32, [List.replicate 64 1], ctx 1 fA true, (busy.rings.getD 0 noRing), busy, by decide +kernel⟩,
   ⟨fA, 1, 0#32, [], ctx 1 fA true, { (busy.rings.getD 0 noRing) with head := 12, tail := 15, read := 15 }, { busy with
       rings := [{ (busy.rings.getD 0 noRing) with head := 12, tail := 15, read := 15 }, (busy.rings.getD 1 noRing)] }, by decide +kernel⟩,
   ⟨fA, 1, 0x01000005#32, ctx 1 fA true, { (busy.rings.getD 1 noRing) with tail := 5 }, { busy with
       rings := [{ (busy.rings.getD 1 noRing) with tail := 5 }] }, by decide +kernel⟩,
   ⟨fA, 1, 0x01000000#32, ctx 1 fA true, { (busy.rings.getD 1 noRing) with head := 14, tail := 0 }, { busy with
       rings := [{ (busy.rings.getD 1 noRing) with head := 14, tail := 0 }] }, by decide +kernel⟩,
   ⟨fA, 1, 1#32, [], ctx 1 fA true, (busy.rings.getD 0 noRing), busy, by decide +kernel⟩,
   ⟨fA, 1, 0x01000000#32, [], ctx 1 fA true, (busy.rings.getD 1 noRing), busy, by decide +kernel⟩,
   ⟨fA, 1, 5#32, [], { ctx 1 fA true with closing := true }, (busy.rings.getD 0 noRing), { busy with
       ctxs := [{ ctx 1 fA true with closing := true }] }, by decide +kernel⟩,
   ⟨fA, 4095, 5#32, [], quiet 16 (busy),
       by and_intros <;> first | exact (Or.inl fun cx h => absurd (show (none : Option Ctx) = some cx from h) (by simp)) | decide +kernel⟩,
   ⟨fA, 2, 5#32, [], quiet 0x10 { busy with ctxs := [ctx 2 fB false] },
       by and_intros <;> first | exact (Or.inl fun cx h => (Option.some.inj (show some (ctx 2 fB false) = some cx from h)) ▸ (by decide)) | decide +kernel⟩,
   ⟨fA, 1, 16#32, [], quiet 16 (busy),
       by and_intros <;> first | exact (Or.inr ⟨fun cx h => (Option.some.inj (show some (ctx 1 fA true) = some cx from h)) ▸ rfl, Or.inr ⟨(busy.rings.getD 0 noRing), by decide +kernel, Or.inl (by decide)⟩⟩) | decide +kernel⟩,
   ⟨fA, 1, 0#32, [], quiet 16 (busy),
       by and_intros <;> first | exact (Or.inr ⟨fun cx h => (Option.some.inj (show some (ctx 1 fA true) = some cx from h)) ▸ rfl, Or.inr ⟨(busy.rings.getD 0 noRing), by decide +kernel, Or.inr (Or.inl (by decide +kernel))⟩⟩) | decide +kernel⟩,
   ⟨fA, 1, 0x01000001#32, [], quiet 16 (busy),
       by and_intros <;> first | exact (Or.inr ⟨fun cx h => (Option.some.inj (show some (ctx 1 fA true) = some cx from h)) ▸ rfl, Or.inr ⟨(busy.rings.getD 1 noRing), by decide +kernel, Or.inr (Or.inr (by decide +kernel))⟩⟩) | decide +kernel⟩,
   ⟨fA, 1, 0x02000001#32, [], quiet 16 (busy),
       by and_intros <;> first | exact (Or.inr ⟨fun cx h => (Option.some.inj (show some (ctx 1 fA true) = some cx from h)) ▸ rfl, Or.inl (by decide +kernel)⟩) | decide +kernel⟩⟩

/-- States and operands that meet the hypotheses of NopReceiveAndTransferDescriptors. -/
theorem witness_NopReceiveAndTransferDescriptors :
    (∃ (c : Nat) (cx : Ctx) (d : ReadDesc) (s : State), s.nextDesc c = some (cx, d) ∧ d.type = 0 ∧
        (bitN d.flags 0 = false ∨ s.earlierOpen d = false)) ∧
    (∃ (c : Nat) (cx : Ctx) (d : ReadDesc) (s : State), s.nextDesc c = some (cx, d) ∧ d.type = 0 ∧
        (bitN d.flags 0 = false ∨ s.earlierOpen d = false)) ∧
    (∃ (c : Nat) (cx : Ctx) (d : ReadDesc) (s : State), s.nextDesc c = some (cx, d) ∧ d.type = 0 ∧
        (bitN d.flags 0 = false ∨ s.earlierOpen d = false)) ∧
    (∃ (c : Nat) (cx : Ctx) (d : ReadDesc) (s : State), s.nextDesc c = some (cx, d) ∧ d.type = 0 ∧ bitN d.flags 0 = true ∧
        s.earlierOpen d = true) ∧
    (∃ (c : Nat) (cx : Ctx) (d : ReadDesc) (s : State), s.nextDesc c = some (cx, d) ∧ 9 ≤ d.type) ∧
    (∃ (c : Nat) (cx : Ctx) (d : ReadDesc) (s : State), s.nextDesc c = some (cx, d) ∧ 9 ≤ d.type) ∧
    (∃ (c : Nat) (cx : Ctx) (d : ReadDesc) (s : State), s.ctx? c = some cx ∧ s.postedOf c 0 = some d ∧ s.earlierOpen d = false) ∧
    (∃ (c : Nat) (d : ReadDesc) (s : State), s.postedOf c 0 = some d ∧ s.earlierOpen d = true) ∧
    (∃ (c : Nat) (cx : Ctx) (d : ReadDesc) (s : State), s.nextDesc c = some (cx, d) ∧ d.type = 8 ∧ commonCheck cx d = none) ∧
    (∃ (c : Nat) (cx : Ctx) (d : ReadDesc) (e : Entry) (s : State), s.nextDesc c = some (cx, d) ∧ d.type = 7 ∧ commonCheck cx d = none ∧
        s.entry? (leAt d.bytes 2 1) = some e ∧ e.state = .loaded ∧ e.partition = cx.part ∧ leAt d.bytes 20 2 < e.draft.tensors.length ∧
        (e.draft.tensor (leAt d.bytes 20 2)).weight = false ∧ leAt d.bytes 24 4 + leAt d.bytes 16 4 ≤ (e.draft.tensor
        (leAt d.bytes 20 2)).bytes) ∧
    (∃ (c : Nat) (cx : Ctx) (d : ReadDesc) (e : Entry) (s : State), s.nextDesc c = some (cx, d) ∧ d.type = 7 ∧ commonCheck cx d = none ∧
        s.entry? (leAt d.bytes 2 1) = some e ∧ e.state = .loaded ∧ e.partition = cx.part ∧ leAt d.bytes 20 2 < e.draft.tensors.length ∧
        (e.draft.tensor (leAt d.bytes 20 2)).weight = false ∧ leAt d.bytes 24 4 + leAt d.bytes 16 4 ≤ (e.draft.tensor
        (leAt d.bytes 20 2)).bytes) ∧
    (∃ (c : Nat) (cx : Ctx) (d : ReadDesc) (s : State), s.nextDesc c = some (cx, d) ∧ d.type = 7 ∧ commonCheck cx d = none ∧ s.entry?
        (leAt d.bytes 2 1) = none) ∧
    (∃ (c : Nat) (cx : Ctx) (d : ReadDesc) (e : Entry) (fs : List DataAt) (s : State), s.ctx? c = some cx ∧ s.postedOf c 7 = some d ∧
        s.beamsOpen = true ∧ s.noSteps ∧ s.entry? (leAt d.bytes 2 1) = some e ∧ (s.hport cx.fn.port).carries = true ∧
        (s.hostMem cx.fn.port).wf = true) ∧
    (∃ (c : Nat) (cx : Ctx) (d : ReadDesc) (e : Entry) (fs : List DataAt) (s : State), s.ctx? c = some cx ∧ s.postedOf c 7 = some d ∧
        s.beamsOpen = true ∧ s.noSteps ∧ s.entry? (leAt d.bytes 2 1) = some e ∧ (s.hport cx.fn.port).carries = true ∧
        (s.hostMem cx.fn.port).wf = true) ∧
    (∃ (c : Nat) (a : Nat) (w : Weft) (m : Byte) (cx : Ctx) (d : ReadDesc) (e : Entry) (fs : List DataAt) (s : State), s.ctx? c = some cx ∧
        s.postedOf c 7 = some d ∧ s.beamsOpen = true ∧ s.noSteps ∧ s.entry? (leAt d.bytes 2 1) = some e ∧ s.silent (weftSrc w 0x22)) ∧
    (∃ (c : Nat) (a : Nat) (w : Weft) (m : Byte) (cx : Ctx) (d : ReadDesc) (e : Entry) (fs : List DataAt) (s : State), s.ctx? c = some cx ∧
        s.postedOf c 7 = some d ∧ s.beamsOpen = true ∧ s.noSteps ∧ s.entry? (leAt d.bytes 2 1) = some e ∧ s.silent (weftSrc w 0x22)) ∧
    (∃ (c : Nat) (a : Nat) (w : Weft) (m : Byte) (cx : Ctx) (d : ReadDesc) (e : Entry) (fs : List DataAt) (s : State), s.ctx? c = some cx ∧
        s.postedOf c 7 = some d ∧ s.beamsOpen = true ∧ s.noSteps ∧ s.entry? (leAt d.bytes 2 1) = some e ∧ s.silent (weftSrc w 0x20)) ∧
    (∃ (c : Nat) (a : Nat) (m : Byte) (cx : Ctx) (d : ReadDesc) (e : Entry) (s : State), s.ctx? c = some cx ∧ s.postedOf c 7 = some d ∧
        s.beamsOpen = true ∧ s.noSteps ∧ s.entry? (leAt d.bytes 2 1) = some e ∧ s.silent (0x1E + cx.part)) ∧
    (∃ (c : Nat) (cx : Ctx) (d : ReadDesc) (e : Entry) (chk : ReadChecks) (s : State), s.ctx? c = some cx ∧ s.postedOf c 7 = some d ∧
        s.steps = [] ∧ s.entry? (leAt d.bytes 2 1) = some e ∧ (e.draft.place (leAt d.bytes 20 2)).home ≠ 2 ∧ s.beamsOpen = false) ∧
    (∃ (c : Nat) (cx : Ctx) (d : ReadDesc) (e : Entry) (chk : ReadChecks) (s : State), s.ctx? c = some cx ∧ s.postedOf c 7 = some d ∧
        s.steps = [] ∧ s.entry? (leAt d.bytes 2 1) = some e ∧ (e.draft.place (leAt d.bytes 20 2)).home ≠ 2 ∧ s.beamsOpen = false) :=
  ⟨⟨1, ctx 1 fA false, desc 9 ([0]), ready' (desc 9 ([0])), by decide +kernel⟩,
   ⟨1, ctx 1 fA false, desc 9 ([0, 1]), ready' (desc 9 ([0, 1])), by decide +kernel⟩,
   ⟨1, ctx 1 fA false, desc 9 ([0]), { ready' (desc 9 ([0])) with
       rings := busy.rings.map (fun (r : Ring) => if r.completion then { r with tail := 15 } else r) }, by decide +kernel⟩,
   ⟨1, ctx 1 fA false, desc 9 ([0, 1]), { ready' (desc 9 ([0, 1])) with posted := [desc 8 ([7])] }, by decide +kernel⟩,
   ⟨1, ctx 1 fA false, desc 9 ([9]), ready' (desc 9 ([9])), by decide +kernel⟩,
   ⟨1, ctx 1 fA false, desc 9 ([255]), ready' (desc 9 ([255])), by decide +kernel⟩,
   ⟨1, ctx 1 fA false, desc 9 ([0, 1]), { { busy with ctxs := [ctx 1 fA false] } with posted := [desc 9 ([0, 1])] }, by decide +kernel⟩,
   ⟨1, desc 9 ([0, 1]), { busy with posted := [desc 9 ([0, 1]), desc 8 ([7])] }, by decide +kernel⟩,
   ⟨1, { ctx 1 fA true with role := .mirrorTarget }, desc 9 ([8]), { ready' (desc 9 ([8])) with
       ctxs := [{ ctx 1 fA true with role := .mirrorTarget }] }, by decide +kernel⟩,
   ⟨1, ctx 1 fA false, desc 9 ([7, 0, 0, 0] ++ leBytes 4 5 ++ leBytes 8 0x8000 ++ leBytes 4 16 ++ leBytes 4 1 ++ leBytes 4 16), ent, ready'
       (desc 9 ([7, 0, 0, 0] ++ leBytes 4 5 ++ leBytes 8 0x8000 ++ leBytes 4 16 ++ leBytes 4 1 ++ leBytes 4 16)), by decide +kernel⟩,
   ⟨1, ctx 1 fA false, desc 9 ([7, 0, 0, 0] ++ leBytes 4 5 ++ leBytes 8 0x8000 ++ leBytes 4 16 ++ leBytes 4 1 ++ leBytes 4 16), ent,
       { (ready' (desc 9 ([7, 0, 0, 0] ++ leBytes 4 5 ++ leBytes 8 0x8000 ++ leBytes 4 16 ++ leBytes 4 1 ++ leBytes 4 16)) : State) with
       wa := { dieUp with beamGrp := .at .cool }, wb := { dieUp with beamGrp := .entering .cool .rest } }, by decide +kernel⟩,
   ⟨1, ctx 1 fA false, desc 9 ([7, 0, 9, 0] ++ leBytes 4 5 ++ leBytes 8 0x8000 ++ leBytes 4 16 ++ leBytes 4 1 ++ leBytes 4 16), ready'
       (desc 9 ([7, 0, 9, 0] ++ leBytes 4 5 ++ leBytes 8 0x8000 ++ leBytes 4 16 ++ leBytes 4 1 ++ leBytes 4 16)), by decide +kernel⟩,
   ⟨1, ctx 1 fA false, desc 9 ([7, 0, 0, 0] ++ leBytes 4 5 ++ leBytes 8 0x8000 ++ leBytes 4 16 ++ leBytes 4 1 ++ leBytes 4 16), ent,
       [.beam .a 4112, .gddr .b 5], { { busy with ctxs := [ctx 1 fA false], wa := { dieUp with beam := [(4112, 7), (4113, 8)] } } with
       posted := [desc 9 ([7, 0, 0, 0] ++ leBytes 4 5 ++ leBytes 8 0x8000 ++ leBytes 4 16 ++ leBytes 4 1 ++ leBytes 4 16)] },
       by decide +kernel⟩,
   ⟨1, ctx 1 fA false, desc 9 ([7, 0, 0, 0] ++ leBytes 4 5 ++ leBytes 8 0x8000 ++ leBytes 4 16 ++ leBytes 4 0 ++ leBytes 4 0), ent, [],
       { { busy with ctxs := [ctx 1 fA false] } with
       posted := [desc 9 ([7, 0, 0, 0] ++ leBytes 4 5 ++ leBytes 8 0x8000 ++ leBytes 4 16 ++ leBytes 4 0 ++ leBytes 4 0)] },
       by decide +kernel⟩,
   ⟨1, 5, .a, 0x77, ctx 1 fA false, desc 9 ([7, 0, 0, 0] ++ leBytes 4 5 ++ leBytes 8 0x8000 ++ leBytes 4 16 ++ leBytes 4 0 ++ leBytes 4 0),
       ent, [.gddr .a 256], quiet 290 ({ { busy with ctxs := [ctx 1 fA false] } with
       posted := [desc 9 ([7, 0, 0, 0] ++ leBytes 4 5 ++ leBytes 8 0x8000 ++ leBytes 4 16 ++ leBytes 4 0 ++ leBytes 4 0)] }),
       by decide +kernel⟩,
   ⟨1, 11, .b, 0x77, ctx 1 fA false, desc 9 ([7, 0, 0,
       0] ++ leBytes 4 5 ++ leBytes 8 0x8000 ++ leBytes 4 16 ++ leBytes 4 0 ++ leBytes 4 0), ent, [], quiet 546
       ({ { busy with ctxs := [ctx 1 fA false] } with
       posted := [desc 9 ([7, 0, 0, 0] ++ leBytes 4 5 ++ leBytes 8 0x8000 ++ leBytes 4 16 ++ leBytes 4 0 ++ leBytes 4 0)] }),
       by decide +kernel⟩,
   ⟨1, 5, .b, 0x77, ctx 1 fA false, desc 9 ([7, 0, 0, 0] ++ leBytes 4 5 ++ leBytes 8 0x8000 ++ leBytes 4 16 ++ leBytes 4 0 ++ leBytes 4 0),
       ent, [], quiet 544 ({ { busy with ctxs := [ctx 1 fA false] } with
       posted := [desc 9 ([7, 0, 0, 0] ++ leBytes 4 5 ++ leBytes 8 0x8000 ++ leBytes 4 16 ++ leBytes 4 0 ++ leBytes 4 0)] }),
       by decide +kernel⟩,
   ⟨1, 0x5000, 0x77, ctx 1 fA false, desc 9 ([7, 0, 0,
       0] ++ leBytes 4 5 ++ leBytes 8 0x8000 ++ leBytes 4 16 ++ leBytes 4 0 ++ leBytes 4 0), ent, quiet 30
       ({ { busy with ctxs := [ctx 1 fA false] } with
       posted := [desc 9 ([7, 0, 0, 0] ++ leBytes 4 5 ++ leBytes 8 0x8000 ++ leBytes 4 16 ++ leBytes 4 0 ++ leBytes 4 0)] }),
       by decide +kernel⟩,
   ⟨1, ctx 1 fA false, desc 9 ([7, 0, 0, 0] ++ leBytes 4 5 ++ leBytes 8 0x8000 ++ leBytes 4 16 ++ leBytes 4 1 ++ leBytes 4 16), ent, noErr,
       { ({ { busy with ctxs := [ctx 1 fA false], wa := { dieUp with beam := [(4112, 7), (4113, 8)] } } with posted := [desc 9 ([7, 0, 0, 0] ++ leBytes 4 5 ++ leBytes 8 0x8000 ++ leBytes 4 16 ++ leBytes 4 1 ++ leBytes 4 16)] } : State) with
       wa := { dieUp with beamGrp := .at .cool }, wb := { dieUp with beamGrp := .entering .cool .rest } }, by decide +kernel⟩,
   ⟨1, ctx 1 fA false, desc 9 ([7, 0, 0, 0] ++ leBytes 4 5 ++ leBytes 8 0x8000 ++ leBytes 4 16 ++ leBytes 4 1 ++ leBytes 4 16), ent, noErr,
       { ({ { busy with ctxs := [ctx 1 fA false], wa := { dieUp with beam := [(4112, 7), (4113, 8)] } } with posted := [desc 9 ([7, 0, 0, 0] ++ leBytes 4 5 ++ leBytes 8 0x8000 ++ leBytes 4 16 ++ leBytes 4 1 ++ leBytes 4 16)] } : State) with
       wb := { dieUp with beamGrp := .waking .cool } }, by decide +kernel⟩⟩

/-- States and operands that meet the hypotheses of DraftsLoadAndUnload. -/
theorem witness_DraftsLoadAndUnload :
    (∃ (c : Nat) (cx : Ctx) (d : ReadDesc) (s : State), s.nextDesc c = some (cx, d) ∧ d.type = 2 ∧ commonCheck cx d = none ∧
        (s.loadBusy.isSome = true ∨ ((∀ x ∈ s.posted, x.isLoad = false) ∧ (∀ x ∈ s.readQ, x ≠ d → x.isLoad = true → d.seq < x.seq) ∧
        s.tumblerBusy = true))) ∧
    (∃ (c : Nat) (cx : Ctx) (d : ReadDesc) (s : State), s.nextDesc c = some (cx, d) ∧ d.type = 2 ∧ commonCheck cx d = none ∧
        (s.loadBusy.isSome = true ∨ ((∀ x ∈ s.posted, x.isLoad = false) ∧ (∀ x ∈ s.readQ, x ≠ d → x.isLoad = true → d.seq < x.seq) ∧
        s.tumblerBusy = true))) ∧
    (∃ (c : Nat) (cx : Ctx) (d : ReadDesc) (i : Nat) (s : State), s.nextDesc c = some (cx, d) ∧ d.type = 2 ∧ commonCheck cx d = none ∧
        s.loadBusy = none ∧ s.tumblerBusy = false ∧ (∀ x ∈ s.posted, x.isLoad = false) ∧ (∀ x ∈ s.readQ,
        x ≠ d → x.isLoad = true → d.seq < x.seq) ∧ s.freeEntry cx.part = some i) ∧
    (∃ (c : Nat) (cx : Ctx) (d : ReadDesc) (i : Nat) (s : State), s.nextDesc c = some (cx, d) ∧ d.type = 2 ∧ commonCheck cx d = none ∧
        s.loadBusy = none ∧ s.tumblerBusy = false ∧ (∀ x ∈ s.posted, x.isLoad = false) ∧ (∀ x ∈ s.readQ,
        x ≠ d → x.isLoad = true → d.seq < x.seq) ∧ s.freeEntry cx.part = some i) ∧
    (∃ (c : Nat) (cx : Ctx) (d : ReadDesc) (i : Nat) (s : State), s.nextDesc c = some (cx, d) ∧ d.type = 2 ∧ commonCheck cx d = none ∧
        s.loadBusy = none ∧ s.tumblerBusy = false ∧ (∀ x ∈ s.posted, x.isLoad = false) ∧ (∀ x ∈ s.readQ,
        x ≠ d → x.isLoad = true → d.seq < x.seq) ∧ s.freeEntry cx.part = some i) ∧
    (∃ (c : Nat) (cx : Ctx) (d : ReadDesc) (x : ReadDesc) (s : State), s.nextDesc c = some (cx, d) ∧ d.type = 2 ∧ commonCheck cx d = none ∧
        s.loadBusy = none ∧ (∀ y ∈ s.posted, y.isLoad = false) ∧ x ∈ s.readQ ∧ x.isLoad = true ∧ x.seq < d.seq ∧ s.ctxOpen x.ctx = true) ∧
    (∃ (c : Nat) (i : Nat) (cx : Ctx) (d : ReadDesc) (img : List Byte) (s : State) (u : State), s.loadBusy = some d ∧ s.ctx? c = some cx ∧
        cx.closing = false ∧ d.ctx = c ∧ d.type = 2 ∧ (∀ x ∈ s.posted, x.isLoad = false) ∧ s.beamsOpen = true ∧
        (s.det = false ∨ s.sched.running = none) ∧ u = { s with
        loadBusy := none, drafts := s.drafts.filter (fun e => decide (e.state ≠ .loading)) } ∧ u.freeEntry cx.part = some i) ∧
    (∃ (c : Nat) (e : Nat) (cx : Ctx) (d : ReadDesc) (img : List Byte) (s : State) (u : State), s.loadBusy = some d ∧ s.ctx? c = some cx ∧
        cx.closing = false ∧ d.ctx = c ∧ d.type = 2 ∧ (∀ x ∈ s.posted, x.isLoad = false) ∧ u = { s with
        loadBusy := none, drafts := s.drafts.filter (fun e => decide (e.state ≠ .loading)) } ∧ draftResult u cx.part img
        (leAt d.bytes 16 4) = some e) ∧
    (∃ (c : Nat) (cx : Ctx) (d : ReadDesc) (img : List Byte) (s : State) (u : State), s.loadBusy = some d ∧ s.ctx? c = some cx ∧
        cx.closing = false ∧ d.ctx = c ∧ d.type = 2 ∧ (∀ x ∈ s.posted, x.isLoad = false) ∧ (s.beamsOpen = false ∨ (s.det = true ∧
        s.sched.running.isSome = true)) ∧ u =
        { s with loadBusy := none, drafts := s.drafts.filter (fun e => decide (e.state ≠ .loading)) }) ∧
    (∃ (c : Nat) (cx : Ctx) (d : ReadDesc) (img : List Byte) (s : State) (u : State), s.loadBusy = some d ∧ s.ctx? c = some cx ∧
        cx.closing = false ∧ d.ctx = c ∧ d.type = 2 ∧ (∀ x ∈ s.posted, x.isLoad = false) ∧ (s.beamsOpen = false ∨ (s.det = true ∧
        s.sched.running.isSome = true)) ∧ u =
        { s with loadBusy := none, drafts := s.drafts.filter (fun e => decide (e.state ≠ .loading)) }) ∧
    (∃ (c : Nat) (cx : Ctx) (d : ReadDesc) (img : List Byte) (s : State), s.loadBusy = some d ∧ s.ctx? c = some cx ∧ cx.closing = false ∧
        d.ctx = c ∧ d.type = 2 ∧ (∀ x ∈ s.posted, x.isLoad = false) ∧ s.silent (0x1E + cx.part)) ∧
    (∃ (c : Nat) (cx : Ctx) (d : ReadDesc) (x : ReadDesc) (e : Entry) (s : State), s.nextDesc c = some (cx, d) ∧ d.type = 3 ∧
        commonCheck cx d = none ∧ s.entry? (leAt d.bytes 2 1) = some e ∧ (e.state = .loaded ∨ e.state = .failed) ∧ e.partition = cx.part ∧
        s.loadBusy = some x) ∧
    (∃ (c : Nat) (cx : Ctx) (d : ReadDesc) (x : ReadDesc) (e : Entry) (s : State), s.nextDesc c = some (cx, d) ∧ d.type = 3 ∧
        commonCheck cx d = none ∧ s.entry? (leAt d.bytes 2 1) = some e ∧ (e.state = .loaded ∨ e.state = .failed) ∧ e.partition = cx.part ∧
        s.loadBusy = some x) ∧
    (∃ (c : Nat) (cx : Ctx) (d : ReadDesc) (s : State), s.nextDesc c = some (cx, d) ∧ d.type = 3 ∧ commonCheck cx d = none ∧
        s.loadBusy.isSome = true ∧ s.entry? (leAt d.bytes 2 1) = none) ∧
    (∃ (c : Nat) (i : Nat) (cx : Ctx) (d : ReadDesc) (e : Entry) (s : State), s.loadBusy = some d ∧ s.ctx? c = some cx ∧ d.ctx = c ∧
        d.type = 3 ∧ cx.closing = false ∧ i = leAt d.bytes 2 1 ∧ s.entryBusy i d.seq = false ∧ s.entry? i = some e ∧ e.state = .unloading ∧
        e.gone = [] ∧ (∀ x ∈ s.posted, x.isLoad = false) ∧ s.beamsOpen = true ∧ s.wa.memWf = true ∧ s.wb.memWf = true) ∧
    (∃ (c : Nat) (d : ReadDesc) (s : State), s.loadBusy = some d ∧ (s.entryBusy (leAt d.bytes 2 1) d.seq = true ∨ s.beamsOpen = false)) ∧
    (∃ (c : Nat) (d : ReadDesc) (s : State), s.loadBusy = some d ∧ (s.entryBusy (leAt d.bytes 2 1) d.seq = true ∨ s.beamsOpen = false)) :=
  ⟨⟨1, ctx 1 fA false, desc 9 ([2, 0, 0, 0] ++ leBytes 4 5 ++ leBytes 8 0x8000 ++ leBytes 4 64),
      { ready' (desc 9 ([2, 0, 0, 0] ++ leBytes 4 5 ++ leBytes 8 0x8000 ++ leBytes 4 64)) with
      loadBusy := some (desc 9 ([3, 0, 0, 0] ++ leBytes 4 5)) }, by decide +kernel⟩,
   ⟨1, ctx 1 fA false, desc 9 ([2, 0, 0, 0] ++ leBytes 4 5 ++ leBytes 8 0x8000 ++ leBytes 4 64),
       { (ready' (desc 9 ([2, 0, 0, 0] ++ leBytes 4 5 ++ leBytes 8 0x8000 ++ leBytes 4 64)) : State) with
       sec := { up.sec with enrolling := some [] } }, by decide +kernel⟩,
   ⟨1, ctx 1 fA false, desc 9 ([2, 0, 0, 0] ++ leBytes 4 5 ++ leBytes 8 0x8000 ++ leBytes 4 64), 1, ready' (desc 9 ([2, 0, 0,
       0] ++ leBytes 4 5 ++ leBytes 8 0x8000 ++ leBytes 4 64)), by decide +kernel⟩,
   ⟨1, ctx 1 fA false, desc 9 ([2, 0, 0, 0] ++ leBytes 4 5 ++ leBytes 8 0x8000 ++ leBytes 4 64), 0,
       { ready' (desc 9 ([2, 0, 0, 0] ++ leBytes 4 5 ++ leBytes 8 0x8000 ++ leBytes 4 64)) with drafts := [] }, by decide +kernel⟩,
   ⟨1, ctx 1 fA false, desc 9 ([2, 0, 0, 0] ++ leBytes 4 5 ++ leBytes 8 0x8000 ++ leBytes 4 64), 1,
       { (ready' (desc 9 ([2, 0, 0, 0] ++ leBytes 4 5 ++ leBytes 8 0x8000 ++ leBytes 4 64)) : State) with
       wa := { dieUp with beamGrp := .at .cool }, wb := { dieUp with beamGrp := .entering .cool .rest } }, by decide +kernel⟩,
   ⟨1, ctx 1 fA false, desc 9 ([2, 0, 0, 0] ++ leBytes 4 5 ++ leBytes 8 0x8000 ++ leBytes 4 64),
       { (desc 8 ([3, 0, 0, 0] ++ leBytes 4 5) : ReadDesc) with ctx := 2 },
       { (ready' (desc 9 ([2, 0, 0, 0] ++ leBytes 4 5 ++ leBytes 8 0x8000 ++ leBytes 4 64)) : State) with
       readQ := [{ (desc 8 ([3, 0, 0, 0] ++ leBytes 4 5) : ReadDesc) with ctx := 2 }, desc 9 ([2, 0, 0,
       0] ++ leBytes 4 5 ++ leBytes 8 0x8000 ++ leBytes 4 64)] }, by decide +kernel⟩,
   ⟨1, 0, ctx 1 fA false, desc 9 ([2, 0, 0, 0] ++ leBytes 4 5 ++ leBytes 8 0x8000 ++ leBytes 4 8568), image, { busy with
       ctxs := [ctx 1 fA false], drafts := [], loadBusy := some (desc 9 ([2, 0, 0,
       0] ++ leBytes 4 5 ++ leBytes 8 0x8000 ++ leBytes 4 8568)),
       sec := { up.sec with manifest := { up.sec.manifest with issuers := [0] } } },
       { ({ busy with ctxs := [ctx 1 fA false], drafts := [], loadBusy := some (desc 9 ([2, 0, 0, 0] ++ leBytes 4 5 ++ leBytes 8 0x8000 ++ leBytes 4 8568)), sec := { up.sec with manifest := { up.sec.manifest with issuers := [0] } } } : State) with
       loadBusy := none, drafts := [] }, by decide +kernel⟩,
   ⟨1, 1, ctx 1 fA false, desc 9 ([2, 0, 0, 0] ++ leBytes 4 5 ++ leBytes 8 0x8000 ++ leBytes 4 64), [], { busy with
       ctxs := [ctx 1 fA false], loadBusy := some (desc 9 ([2, 0, 0, 0] ++ leBytes 4 5 ++ leBytes 8 0x8000 ++ leBytes 4 64)) },
       { ({ busy with ctxs := [ctx 1 fA false], loadBusy := some (desc 9 ([2, 0, 0, 0] ++ leBytes 4 5 ++ leBytes 8 0x8000 ++ leBytes 4 64)) } : State) with
       loadBusy := none, drafts := [ent] }, by decide +kernel⟩,
   ⟨1, ctx 1 fA false, desc 9 ([2, 0, 0, 0] ++ leBytes 4 5 ++ leBytes 8 0x8000 ++ leBytes 4 8568), image,
       (({ ({ busy with ctxs := [ctx 1 fA false], drafts := [], loadBusy := some (desc 9 ([2, 0, 0, 0] ++ leBytes 4 5 ++ leBytes 8 0x8000 ++ leBytes 4 8568)), sec := { up.sec with manifest := { up.sec.manifest with issuers := [0] } } } : State) with
       sched := { up.sched with running := some 7 } }).setReg oDeterminism 1#32),
       { ((({ ({ busy with ctxs := [ctx 1 fA false], drafts := [], loadBusy := some (desc 9 ([2, 0, 0, 0] ++ leBytes 4 5 ++ leBytes 8 0x8000 ++ leBytes 4 8568)), sec := { up.sec with manifest := { up.sec.manifest with issuers := [0] } } } : State) with sched := { up.sched with running := some 7 } }).setReg oDeterminism 1#32) : State) with
       loadBusy := none, drafts := [] }, by decide +kernel⟩,
   ⟨1, ctx 1 fA false, desc 9 ([2, 0, 0, 0] ++ leBytes 4 5 ++ leBytes 8 0x8000 ++ leBytes 4 8568), image,
       { ({ busy with ctxs := [ctx 1 fA false], drafts := [], loadBusy := some (desc 9 ([2, 0, 0, 0] ++ leBytes 4 5 ++ leBytes 8 0x8000 ++ leBytes 4 8568)), sec := { up.sec with manifest := { up.sec.manifest with issuers := [0] } } } : State) with
       wa := { dieUp with beamGrp := .at .cool }, wb := { dieUp with beamGrp := .entering .cool .rest } },
       { ({ ({ busy with ctxs := [ctx 1 fA false], drafts := [], loadBusy := some (desc 9 ([2, 0, 0, 0] ++ leBytes 4 5 ++ leBytes 8 0x8000 ++ leBytes 4 8568)), sec := { up.sec with manifest := { up.sec.manifest with issuers := [0] } } } : State) with wa := { dieUp with beamGrp := .at .cool }, wb := { dieUp with beamGrp := .entering .cool .rest } } : State) with
       loadBusy := none, drafts := [] }, by decide +kernel⟩,
   ⟨1, ctx 1 fA false, desc 9 ([2, 0, 0, 0] ++ leBytes 4 5 ++ leBytes 8 0x8000 ++ leBytes 4 64), [], quiet 30 ({ busy with
       ctxs := [ctx 1 fA false], loadBusy := some (desc 9 ([2, 0, 0, 0] ++ leBytes 4 5 ++ leBytes 8 0x8000 ++ leBytes 4 64)) }),
       by decide +kernel⟩,
   ⟨1, ctx 1 fA false, desc 9 ([3, 0, 0, 0] ++ leBytes 4 5), desc 9 ([2, 0, 0, 0] ++ leBytes 4 5 ++ leBytes 8 0x8000 ++ leBytes 4 64), ent,
       { ready' (desc 9 ([3, 0, 0, 0] ++ leBytes 4 5)) with
       loadBusy := some (desc 9 ([2, 0, 0, 0] ++ leBytes 4 5 ++ leBytes 8 0x8000 ++ leBytes 4 64)) }, by decide +kernel⟩,
   ⟨1, ctx 1 fA false, desc 9 ([3, 0, 0, 0] ++ leBytes 4 5), desc 9 ([2, 0, 0, 0] ++ leBytes 4 5 ++ leBytes 8 0x8000 ++ leBytes 4 64),
       { ent with state := .failed },
       { ({ ready' (desc 9 ([3, 0, 0, 0] ++ leBytes 4 5)) with loadBusy := some (desc 9 ([2, 0, 0, 0] ++ leBytes 4 5 ++ leBytes 8 0x8000 ++ leBytes 4 64)) } : State) with
       drafts := [{ ent with state := .failed }] }, by decide +kernel⟩,
   ⟨1, ctx 1 fA false, desc 9 ([3, 0, 9, 0] ++ leBytes 4 5), { (ready' (desc 9 ([3, 0, 9, 0] ++ leBytes 4 5)) : State) with
       loadBusy := some (desc 9 ([2, 0, 0, 0] ++ leBytes 4 5 ++ leBytes 8 0x8000 ++ leBytes 4 64)) }, by decide +kernel⟩,
   ⟨1, 0, ctx 1 fA false, desc 9 ([3, 0, 0, 0] ++ leBytes 4 5), { ent with
       state := .unloading, draft := { drf with bounds := { drf.bounds with gddrA := 8, gddrB := 4 } } },
       { { busy with ctxs := [ctx 1 fA false], loadBusy := some (desc 9 ([3, 0, 0, 0] ++ leBytes 4 5)) } with
       drafts := [{ ent with state := .unloading, draft := { drf with bounds := { drf.bounds with gddrA := 8, gddrB := 4 } } }, { ent with
       index := 5 }], wa := { dieUp with gddr := [(0, 1), (7, 1), (8, 1)] } }, by decide +kernel⟩,
   ⟨1, desc 9 ([3, 0, 0, 0] ++ leBytes 4 5), { running with loadBusy := some (desc 9 ([3, 0, 0, 0] ++ leBytes 4 5)) }, by decide +kernel⟩,
   ⟨1, desc 9 ([3, 0, 0, 0] ++ leBytes 4 5),
       { ({ { busy with ctxs := [ctx 1 fA false], loadBusy := some (desc 9 ([3, 0, 0, 0] ++ leBytes 4 5)) } with drafts := [{ ent with state := .unloading, draft := { drf with bounds := { drf.bounds with gddrA := 8, gddrB := 4 } } }, { ent with index := 5 }], wa := { dieUp with gddr := [(0, 1), (7, 1), (8, 1)] } } : State) with
       wa := { dieUp with beamGrp := .at .cool }, wb := { dieUp with beamGrp := .entering .cool .rest } }, by decide +kernel⟩⟩

/-- States and operands that meet the hypotheses of RecipesAndInjection. -/
theorem witness_RecipesAndInjection :
    (∃ (c : Nat) (cx : Ctx) (d : ReadDesc) (img : List Byte) (s : State), s.nextDesc c = some (cx, d) ∧ d.type = 4 ∧
        commonCheck cx d = none ∧ s.recipeOther (leAt d.bytes 2 2 % 64) cx.part = false ∧ s.recipeResult (leAt d.bytes 2 2 % 64) img
        (leAt d.bytes 16 4) = none) ∧
    (∃ (c : Nat) (e : Nat) (cx : Ctx) (d : ReadDesc) (img : List Byte) (s : State), s.nextDesc c = some (cx, d) ∧ d.type = 4 ∧
        commonCheck cx d = none ∧ s.recipeOther (leAt d.bytes 2 2 % 64) cx.part = false ∧ s.recipeResult (leAt d.bytes 2 2 % 64) img
        (leAt d.bytes 16 4) = some e) ∧
    (∃ (c : Nat) (cx : Ctx) (d : ReadDesc) (img : List Byte) (s : State), s.nextDesc c = some (cx, d) ∧ d.type = 4 ∧
        commonCheck cx d = none ∧ s.recipeOther (leAt d.bytes 2 2 % 64) cx.part = true) ∧
    (∃ (c : Nat) (cx : Ctx) (d : ReadDesc) (img : List Byte) (s : State), s.nextDesc c = some (cx, d) ∧ d.type = 4 ∧
        commonCheck cx d = none ∧ s.recipeOther (leAt d.bytes 2 2 % 64) cx.part = false ∧ s.silent (0x1E + cx.part)) ∧
    (∃ (c : Nat) (cx : Ctx) (d : ReadDesc) (s : State), s.nextDesc c = some (cx, d) ∧ d.type = 5 ∧ commonCheck cx d = none ∧ (s.recipe?
        (leAt d.bytes 2 2 % 64) = none ∨ s.recipeOther (leAt d.bytes 2 2 % 64) cx.part = true)) ∧
    (∃ (c : Nat) (cx : Ctx) (d : ReadDesc) (s : State), s.nextDesc c = some (cx, d) ∧ d.type = 5 ∧ commonCheck cx d = none ∧ (s.recipe?
        (leAt d.bytes 2 2 % 64) = none ∨ s.recipeOther (leAt d.bytes 2 2 % 64) cx.part = true)) ∧
    (∃ (c : Nat) (cx : Ctx) (d : ReadDesc) (s : State), s.nextDesc c = some (cx, d) ∧ d.type = 5 ∧ commonCheck cx d = none ∧ (s.recipe?
        (leAt d.bytes 2 2 % 64)).isSome = true ∧ s.recipeOther (leAt d.bytes 2 2 % 64) cx.part = false ∧ s.recipeBound
        (leAt d.bytes 2 2 % 64) = false) ∧
    (∃ (c : Nat) (cx : Ctx) (d : ReadDesc) (s : State), s.nextDesc c = some (cx, d) ∧ d.type = 5 ∧ commonCheck cx d = none ∧ (s.recipe?
        (leAt d.bytes 2 2 % 64)).isSome = true ∧ s.recipeOther (leAt d.bytes 2 2 % 64) cx.part = false ∧ s.recipeBound
        (leAt d.bytes 2 2 % 64) = true) ∧
    (∃ (c : Nat) (k : Nat) (cx : Ctx) (d : ReadDesc) (rec : Recipe) (h : List Byte) (s : State), s.nextDesc c = some (cx, d) ∧ d.type = 6 ∧
        commonCheck cx d = none ∧ s.injSlot cx.fn.port (leAt d.bytes 2 2) = some k ∧ s.slotRec k = some rec ∧ s.batchOwner
        (s.slotBatch k) = cx.part ∧ headerRejected h rec = false ∧ s.creelOn = true ∧ (s.slot k).input = [] ∧ s.silent 0x020) ∧
    (∃ (c : Nat) (k : Nat) (cx : Ctx) (d : ReadDesc) (rec : Recipe) (h : List Byte) (s : State), s.nextDesc c = some (cx, d) ∧ d.type = 6 ∧
        commonCheck cx d = none ∧ s.injSlot cx.fn.port (leAt d.bytes 2 2) = some k ∧ s.slotRec k = some rec ∧ s.batchOwner
        (s.slotBatch k) = cx.part ∧ headerRejected h rec = true) ∧
    (∃ (c : Nat) (k : Nat) (q : Nat) (cx : Ctx) (d : ReadDesc) (rec : Recipe) (h : List Byte) (s : State), s.nextDesc c = some (cx, d) ∧
        d.type = 6 ∧ commonCheck cx d = none ∧ s.injSlot cx.fn.port (leAt d.bytes 2 2) = some k ∧ s.slotRec k = some rec ∧ s.batchOwner
        (s.slotBatch k) = cx.part ∧ headerRejected h rec = false ∧ headerOk h rec = true ∧ rec.points = false ∧ s.creelOn = true ∧
        (s.slot k).input = [] ∧ k < s.slots.length ∧ (s.slot k).phase = .idle ∧ s.openFor k = some q ∧ (s.recipeCb rec).isSome = true) ∧
    (∃ (c : Nat) (k : Nat) (q : Nat) (cx : Ctx) (d : ReadDesc) (rec : Recipe) (h : List Byte) (s : State), s.nextDesc c = some (cx, d) ∧
        d.type = 6 ∧ commonCheck cx d = none ∧ s.injSlot cx.fn.port (leAt d.bytes 2 2) = some k ∧ s.slotRec k = some rec ∧ s.batchOwner
        (s.slotBatch k) = cx.part ∧ headerRejected h rec = false ∧ headerOk h rec = false ∧ s.creelOn = true ∧ (s.slot k).input = [] ∧
        k < s.slots.length ∧ (s.slot k).phase = .idle ∧ s.openFor k = some q ∧ (s.recipeCb rec).isSome = true) ∧
    (∃ (c : Nat) (cx : Ctx) (d : ReadDesc) (h : List Byte) (f : Bool) (s : State), s.nextDesc c = some (cx, d) ∧ d.type = 6 ∧
        commonCheck cx d = none ∧ (∀ k, s.injSlot cx.fn.port (leAt d.bytes 2 2) = some k → s.batchOwner (s.slotBatch k) ≠ cx.part)) ∧
    (∃ (c : Nat) (k : Nat) (cx : Ctx) (d : ReadDesc) (rec : Recipe) (h : List Byte) (s : State), s.nextDesc c = some (cx, d) ∧ d.type = 6 ∧
        commonCheck cx d = none ∧ s.injSlot cx.fn.port (leAt d.bytes 2 2) = some k ∧ s.slotRec k = some rec ∧ s.batchOwner
        (s.slotBatch k) = cx.part ∧ s.silent (0x1E + cx.part)) ∧
    (∃ (c : Nat) (cx : Ctx) (d : ReadDesc) (h : List Byte) (rec : Recipe) (k : Nat) (s : State), s.nextDesc c = some (cx, d) ∧ d.type = 6 ∧
        commonCheck cx d = none ∧ s.injSlot cx.fn.port (leAt d.bytes 2 2) = some k ∧ s.slotRec k = some rec ∧ s.batchOwner
        (s.slotBatch k) = cx.part ∧ headerRejected h rec = false ∧ s.creelOn = false) ∧
    (∃ (c : Nat) (k : Nat) (cx : Ctx) (d : ReadDesc) (p : List Byte) (rec : Recipe) (cs : List RowCheck) (s : State), s.ctx? c = some cx ∧
        s.postedOf c 6 = some d ∧ s.injSlot cx.fn.port (leAt d.bytes 2 2) = some k ∧ s.slotRec k = some rec ∧ s.creelOn = true ∧
        k < s.slots.length) ∧
    (∃ (c : Nat) (k : Nat) (cx : Ctx) (d : ReadDesc) (p : List Byte) (rec : Recipe) (cs : List RowCheck) (s : State), s.ctx? c = some cx ∧
        s.postedOf c 6 = some d ∧ s.injSlot cx.fn.port (leAt d.bytes 2 2) = some k ∧ s.slotRec k = some rec ∧ s.creelOn = true ∧
        k < s.slots.length) ∧
    (∃ (c : Nat) (k : Nat) (cx : Ctx) (d : ReadDesc) (p : List Byte) (rec : Recipe) (s : State), s.ctx? c = some cx ∧
        s.postedOf c 6 = some d ∧ s.injSlot cx.fn.port (leAt d.bytes 2 2) = some k ∧ s.slotRec k = some rec ∧ s.creelOn = true ∧
        (s.slot k).input = [] ∧ s.injectOpen k d.bytes = true) ∧
    (∃ (c : Nat) (k : Nat) (cx : Ctx) (d : ReadDesc) (p : List Byte) (rec : Recipe) (sm : Sample) (s : State), s.ctx? c = some cx ∧
        s.postedOf c 6 = some d ∧ s.injSlot cx.fn.port (leAt d.bytes 2 2) = some k ∧ s.slotRec k = some rec ∧ s.creelOn = true ∧
        (s.slot k).input = [] ∧ s.injectOpen k d.bytes = true ∧ rec.points = false ∧ (s.slot k).phase = .open sm ∧ sm.lines = [] ∧
        (s.recipeCb rec).isSome = true ∧ (s.inst? (s.slotBatch k) sm.counter).isSome = true) ∧
    (∃ (c : Nat) (k : Nat) (cx : Ctx) (d : ReadDesc) (p : List Byte) (rec : Recipe) (sm : Sample) (s : State), s.ctx? c = some cx ∧
        s.postedOf c 6 = some d ∧ s.injSlot cx.fn.port (leAt d.bytes 2 2) = some k ∧ s.slotRec k = some rec ∧ s.creelOn = true ∧
        (s.slot k).input = [] ∧ s.injectOpen k d.bytes = true ∧ rec.points = false ∧ (s.slot k).phase = .open sm ∧ sm.lines = [] ∧
        (s.recipeCb rec).isSome = true ∧ (s.inst? (s.slotBatch k) sm.counter).isSome = true) ∧
    (∃ (c : Nat) (k : Nat) (cx : Ctx) (d : ReadDesc) (p : List Byte) (rec : Recipe) (cs : List RowCheck) (w : Bool) (s : State),
        s.ctx? c = some cx ∧ s.postedOf c 6 = some d ∧ s.injSlot cx.fn.port (leAt d.bytes 2 2) = some k ∧ s.slotRec k = some rec ∧
        s.creelOn = true ∧ s.injectOpen k d.bytes = true ∧ s.silent (0x1E + cx.part)) ∧
    (∃ (c : Nat) (k : Nat) (cx : Ctx) (d : ReadDesc) (p : List Byte) (rec : Recipe) (cs : List RowCheck) (w : Bool) (s : State),
        s.ctx? c = some cx ∧ s.postedOf c 6 = some d ∧ s.injSlot cx.fn.port (leAt d.bytes 2 2) = some k ∧ s.slotRec k = some rec ∧
        s.creelOn = true ∧ s.injectOpen k d.bytes = true ∧ s.silent (0x1E + cx.part)) ∧
    (∃ (c : Nat) (cx : Ctx) (d : ReadDesc) (p : List Byte) (cs : List RowCheck) (w : Bool) (s : State), s.ctx? c = some cx ∧
        s.postedOf c 6 = some d ∧ s.creelOn = true ∧ s.injSlot cx.fn.port (leAt d.bytes 2 2) = none) :=
  ⟨⟨1, ctx 1 fA false, desc 9 ([4, 0, 5, 0] ++ leBytes 4 5 ++ leBytes 8 0x8000 ++ leBytes 4 128), cloud, { intake with
      ctxs := [ctx 1 fA false], readQ := [desc 9 ([4, 0, 5, 0] ++ leBytes 4 5 ++ leBytes 8 0x8000 ++ leBytes 4 128)] }, by decide +kernel⟩,
   ⟨1, 0x20, ctx 1 fA false, desc 9 ([4, 0, 5, 0] ++ leBytes 4 5 ++ leBytes 8 0x8000 ++ leBytes 4 128), [], { intake with
       ctxs := [ctx 1 fA false], readQ := [desc 9 ([4, 0, 5, 0] ++ leBytes 4 5 ++ leBytes 8 0x8000 ++ leBytes 4 128)] }, by decide +kernel⟩,
   ⟨1, ctx 1 fA false, desc 9 ([4, 0, 3, 0] ++ leBytes 4 5 ++ leBytes 8 0x8000 ++ leBytes 4 128), cloud,
       { { intake with ctxs := [ctx 1 fA false], readQ := [desc 9 ([4, 0, 3, 0] ++ leBytes 4 5 ++ leBytes 8 0x8000 ++ leBytes 4 128)] } with
       recipes := [{ slot := 3, partition := 1, recipe := rcp, digest := 0, bytes := 128 }] }, by decide +kernel⟩,
   ⟨1, ctx 1 fA false, desc 9 ([4, 0, 5, 0] ++ leBytes 4 5 ++ leBytes 8 0x8000 ++ leBytes 4 128), cloud, quiet 30 ({ intake with
       ctxs := [ctx 1 fA false], readQ := [desc 9 ([4, 0, 5, 0] ++ leBytes 4 5 ++ leBytes 8 0x8000 ++ leBytes 4 128)] }),
       by decide +kernel⟩,
   ⟨1, ctx 1 fA false, desc 9 ([5, 0, 3, 0] ++ leBytes 4 5),
       { ({ intake with ctxs := [ctx 1 fA false], readQ := [desc 9 ([5, 0, 3, 0] ++ leBytes 4 5)] } : State) with recipes := [] },
       by decide +kernel⟩,
   ⟨1, ctx 1 fA false, desc 9 ([5, 0, 3, 0] ++ leBytes 4 5),
       { ({ intake with ctxs := [ctx 1 fA false], readQ := [desc 9 ([5, 0, 3, 0] ++ leBytes 4 5)] } : State) with
       recipes := [{ slot := 3, partition := 1, recipe := rcp, digest := 0, bytes := 128 }] }, by decide +kernel⟩,
   ⟨1, ctx 1 fA false, desc 9 ([5, 0, 3, 0] ++ leBytes 4 5), ({ intake with
       ctxs := [ctx 1 fA false], readQ := [desc 9 ([5, 0, 3, 0] ++ leBytes 4 5)] }).setReg (oSlotBind 0) 0#32, by decide +kernel⟩,
   ⟨1, ctx 1 fA false, desc 9 ([5, 0, 3, 0] ++ leBytes 4 5), { intake with
       ctxs := [ctx 1 fA false], readQ := [desc 9 ([5, 0, 3, 0] ++ leBytes 4 5)] }, by decide +kernel⟩,
   ⟨1, 0, ctx 1 fA false, desc 9 ([6, 0, 9, 0] ++ leBytes 4 5 ++ leBytes 8 0x8000 ++ leBytes 4 192), rcp,
       leBytes 8 0 ++ leBytes 8 5 ++ leBytes 2 4 ++ leBytes 2 2, quiet 32 (({ intake with
       ctxs := [ctx 1 fA false], readQ := [desc 9 ([6, 0, 9, 0] ++ leBytes 4 5 ++ leBytes 8 0x8000 ++ leBytes 4 192)] }.setReg
       (oSlotBind 0) 0x1001031C#32).setReg (oSlotSel 0) 9#32), by decide +kernel⟩,
   ⟨1, 0, ctx 1 fA false, desc 9 ([6, 0, 9, 0] ++ leBytes 4 5 ++ leBytes 8 0x8000 ++ leBytes 4 192), rcp,
       leBytes 8 0 ++ leBytes 8 5 ++ leBytes 2 5 ++ leBytes 2 2, ({ intake with
       ctxs := [ctx 1 fA false], readQ := [desc 9 ([6, 0, 9, 0] ++ leBytes 4 5 ++ leBytes 8 0x8000 ++ leBytes 4 192)] }.setReg
       (oSlotBind 0) 0x1001031C#32).setReg (oSlotSel 0) 9#32, by decide +kernel⟩,
   ⟨1, 0, 1, ctx 1 fA false, desc 9 ([6, 0, 9, 0] ++ leBytes 4 5 ++ leBytes 8 0x8000 ++ leBytes 4 192), rcp,
       leBytes 4 0x4D524650 ++ leBytes 2 1 ++ [0, 0] ++ leBytes 8 5 ++ leBytes 2 4 ++ leBytes 2 2 ++ [0x2B, 0, 0,
       0] ++ leBytes 4 16 ++ leBytes 4 77, ({ intake with
       ctxs := [ctx 1 fA false], readQ := [desc 9 ([6, 0, 9, 0] ++ leBytes 4 5 ++ leBytes 8 0x8000 ++ leBytes 4 192)] }.setReg
       (oSlotBind 0) 0x1001031C#32).setReg (oSlotSel 0) 9#32, by decide +kernel⟩,
   ⟨1, 0, 1, ctx 1 fA false, desc 9 ([6, 0, 9, 0] ++ leBytes 4 5 ++ leBytes 8 0x8000 ++ leBytes 4 192), rcp,
       leBytes 8 0 ++ leBytes 8 5 ++ leBytes 2 4 ++ leBytes 2 2, ({ intake with
       ctxs := [ctx 1 fA false], readQ := [desc 9 ([6, 0, 9, 0] ++ leBytes 4 5 ++ leBytes 8 0x8000 ++ leBytes 4 192)] }.setReg
       (oSlotBind 0) 0x1001031C#32).setReg (oSlotSel 0) 9#32, by decide +kernel⟩,
   ⟨1, ctx 1 fA false, desc 9 ([6, 0, 9, 0] ++ leBytes 4 5 ++ leBytes 8 0x8000 ++ leBytes 4 192), [], true, { intake with
       ctxs := [ctx 1 fA false], readQ := [desc 9 ([6, 0, 9, 0] ++ leBytes 4 5 ++ leBytes 8 0x8000 ++ leBytes 4 192)] },
       by and_intros <;> first | exact (fun k h => by have e : (none : Option Nat) = some k := h; cases e) | decide +kernel⟩,
   ⟨1, 0, ctx 1 fA false, desc 9 ([6, 0, 9, 0] ++ leBytes 4 5 ++ leBytes 8 0x8000 ++ leBytes 4 192), rcp,
       leBytes 4 0x4D524650 ++ leBytes 2 1 ++ [0, 0] ++ leBytes 8 5 ++ leBytes 2 4 ++ leBytes 2 2 ++ [0x2B, 0, 0,
       0] ++ leBytes 4 16 ++ leBytes 4 77, quiet 30 (({ intake with
       ctxs := [ctx 1 fA false], readQ := [desc 9 ([6, 0, 9, 0] ++ leBytes 4 5 ++ leBytes 8 0x8000 ++ leBytes 4 192)] }.setReg
       (oSlotBind 0) 0x1001031C#32).setReg (oSlotSel 0) 9#32), by decide +kernel⟩,
   ⟨1, ctx 1 fA false, desc 9 ([6, 0, 9, 0] ++ leBytes 4 5 ++ leBytes 8 0x8000 ++ leBytes 4 192),
       leBytes 4 0x4D524650 ++ leBytes 2 1 ++ [0, 0] ++ leBytes 8 5 ++ leBytes 2 4 ++ leBytes 2 2 ++ [0x2B, 0, 0,
       0] ++ leBytes 4 16 ++ leBytes 4 77, rcp, 0,
       { (({ intake with ctxs := [ctx 1 fA false], readQ := [desc 9 ([6, 0, 9, 0] ++ leBytes 4 5 ++ leBytes 8 0x8000 ++ leBytes 4 192)] }.setReg (oSlotBind 0) 0x1001031C#32).setReg (oSlotSel 0) 9#32 : State) with
       clk := { up.clk with creel := false } }, by decide +kernel⟩,
   ⟨1, 0, ctx 1 fA false, { (desc 9 ([6, 0, 9, 0] ++ leBytes 4 5 ++ leBytes 8 0x8000 ++ leBytes 4 192) : ReadDesc) with
       bytes := (desc 9 ([6, 0, 9,
       0] ++ leBytes 4 5 ++ leBytes 8 0x8000 ++ leBytes 4 192)).bytes ++ sliceB (leBytes 4 0x4D524650 ++ leBytes 2 1 ++ [0,
       0] ++ leBytes 8 5 ++ leBytes 2 4 ++ leBytes 2 2 ++ [0x2B, 0, 0, 0] ++ leBytes 4 16 ++ leBytes 4 77) 0 64 ++ leBytes 8 1 },
       List.replicate 16 1, rcp, [], ({ (inPhase (.open smp) intake) with
       ctxs := [ctx 1 fA false], posted := [{ (desc 9 ([6, 0, 9, 0] ++ leBytes 4 5 ++ leBytes 8 0x8000 ++ leBytes 4 192) : ReadDesc) with
       bytes := (desc 9 ([6, 0, 9,
       0] ++ leBytes 4 5 ++ leBytes 8 0x8000 ++ leBytes 4 192)).bytes ++ sliceB (leBytes 4 0x4D524650 ++ leBytes 2 1 ++ [0,
       0] ++ leBytes 8 5 ++ leBytes 2 4 ++ leBytes 2 2 ++ [0x2B, 0, 0, 0] ++ leBytes 4 16 ++ leBytes 4 77) 0 64 ++ leBytes 8 1 }] }.setReg
       (oSlotBind 0) 0x1001031C#32).setReg (oSlotSel 0) 9#32, by decide +kernel⟩,
   ⟨1, 0, ctx 1 fA false, { (desc 9 ([6, 0, 9, 0] ++ leBytes 4 5 ++ leBytes 8 0x8000 ++ leBytes 4 192) : ReadDesc) with
       bytes := (desc 9 ([6, 0, 9,
       0] ++ leBytes 4 5 ++ leBytes 8 0x8000 ++ leBytes 4 192)).bytes ++ sliceB (leBytes 4 0x4D524650 ++ leBytes 2 1 ++ [0,
       0] ++ leBytes 8 5 ++ leBytes 2 4 ++ leBytes 2 2 ++ [0x2B, 0, 0, 0] ++ leBytes 4 16 ++ leBytes 4 77) 0 64 ++ leBytes 8 1 }, [1, 2],
       rcp, [{ lanesAgree := false, ecc := { fixed := [1], hit := none } }], ({ (inPhase (.open smp) intake) with
       ctxs := [ctx 1 fA false], posted := [{ (desc 9 ([6, 0, 9, 0] ++ leBytes 4 5 ++ leBytes 8 0x8000 ++ leBytes 4 192) : ReadDesc) with
       bytes := (desc 9 ([6, 0, 9,
       0] ++ leBytes 4 5 ++ leBytes 8 0x8000 ++ leBytes 4 192)).bytes ++ sliceB (leBytes 4 0x4D524650 ++ leBytes 2 1 ++ [0,
       0] ++ leBytes 8 5 ++ leBytes 2 4 ++ leBytes 2 2 ++ [0x2B, 0, 0, 0] ++ leBytes 4 16 ++ leBytes 4 77) 0 64 ++ leBytes 8 1 }] }.setReg
       (oSlotBind 0) 0x1001031C#32).setReg (oSlotSel 0) 9#32, by decide +kernel⟩,
   ⟨1, 0, ctx 1 fA false, { (desc 9 ([6, 0, 9, 0] ++ leBytes 4 5 ++ leBytes 8 0x8000 ++ leBytes 4 192) : ReadDesc) with
       bytes := (desc 9 ([6, 0, 9,
       0] ++ leBytes 4 5 ++ leBytes 8 0x8000 ++ leBytes 4 192)).bytes ++ sliceB (leBytes 4 0x4D524650 ++ leBytes 2 1 ++ [0,
       0] ++ leBytes 8 5 ++ leBytes 2 4 ++ leBytes 2 2 ++ [0x2B, 0, 0, 0] ++ leBytes 4 16 ++ leBytes 4 77) 0 64 ++ leBytes 8 1 },
       List.replicate 16 1, rcp, ({ (inPhase (.open smp) intake) with
       ctxs := [ctx 1 fA false], posted := [{ (desc 9 ([6, 0, 9, 0] ++ leBytes 4 5 ++ leBytes 8 0x8000 ++ leBytes 4 192) : ReadDesc) with
       bytes := (desc 9 ([6, 0, 9,
       0] ++ leBytes 4 5 ++ leBytes 8 0x8000 ++ leBytes 4 192)).bytes ++ sliceB (leBytes 4 0x4D524650 ++ leBytes 2 1 ++ [0,
       0] ++ leBytes 8 5 ++ leBytes 2 4 ++ leBytes 2 2 ++ [0x2B, 0, 0, 0] ++ leBytes 4 16 ++ leBytes 4 77) 0 64 ++ leBytes 8 1 }] }.setReg
       (oSlotBind 0) 0x1001031C#32).setReg (oSlotSel 0) 9#32, by decide +kernel⟩,
   ⟨1, 0, ctx 1 fA false, { (desc 9 ([6, 0, 9, 0] ++ leBytes 4 5 ++ leBytes 8 0x8000 ++ leBytes 4 192) : ReadDesc) with
       bytes := (desc 9 ([6, 0, 9,
       0] ++ leBytes 4 5 ++ leBytes 8 0x8000 ++ leBytes 4 192)).bytes ++ sliceB (leBytes 4 0x4D524650 ++ leBytes 2 1 ++ [0,
       0] ++ leBytes 8 5 ++ leBytes 2 4 ++ leBytes 2 2 ++ [0x2B, 0, 0, 0] ++ leBytes 4 16 ++ leBytes 4 77) 0 64 ++ leBytes 8 1 },
       List.replicate 16 1, rcp, smp, ({ (inPhase (.open smp) intake) with
       ctxs := [ctx 1 fA false], posted := [{ (desc 9 ([6, 0, 9, 0] ++ leBytes 4 5 ++ leBytes 8 0x8000 ++ leBytes 4 192) : ReadDesc) with
       bytes := (desc 9 ([6, 0, 9,
       0] ++ leBytes 4 5 ++ leBytes 8 0x8000 ++ leBytes 4 192)).bytes ++ sliceB (leBytes 4 0x4D524650 ++ leBytes 2 1 ++ [0,
       0] ++ leBytes 8 5 ++ leBytes 2 4 ++ leBytes 2 2 ++ [0x2B, 0, 0, 0] ++ leBytes 4 16 ++ leBytes 4 77) 0 64 ++ leBytes 8 1 }] }.setReg
       (oSlotBind 0) 0x1001031C#32).setReg (oSlotSel 0) 9#32, by decide +kernel⟩,
   ⟨1, 0, ctx 1 fA false, { (desc 9 ([6, 0, 9, 0] ++ leBytes 4 5 ++ leBytes 8 0x8000 ++ leBytes 4 192) : ReadDesc) with
       bytes := (desc 9 ([6, 0, 9,
       0] ++ leBytes 4 5 ++ leBytes 8 0x8000 ++ leBytes 4 192)).bytes ++ sliceB (leBytes 4 0x4D524650 ++ leBytes 2 1 ++ [0,
       0] ++ leBytes 8 5 ++ leBytes 2 4 ++ leBytes 2 2 ++ [0x2B, 0, 0, 0] ++ leBytes 4 16 ++ leBytes 4 77) 0 64 ++ leBytes 8 1 }, [1], rcp,
       smp, ({ (inPhase (.open smp) intake) with
       ctxs := [ctx 1 fA false], posted := [{ (desc 9 ([6, 0, 9, 0] ++ leBytes 4 5 ++ leBytes 8 0x8000 ++ leBytes 4 192) : ReadDesc) with
       bytes := (desc 9 ([6, 0, 9,
       0] ++ leBytes 4 5 ++ leBytes 8 0x8000 ++ leBytes 4 192)).bytes ++ sliceB (leBytes 4 0x4D524650 ++ leBytes 2 1 ++ [0,
       0] ++ leBytes 8 5 ++ leBytes 2 4 ++ leBytes 2 2 ++ [0x2B, 0, 0, 0] ++ leBytes 4 16 ++ leBytes 4 77) 0 64 ++ leBytes 8 1 }] }.setReg
       (oSlotBind 0) 0x1001031C#32).setReg (oSlotSel 0) 9#32, by decide +kernel⟩,
   ⟨1, 0, ctx 1 fA false, { (desc 9 ([6, 0, 9, 0] ++ leBytes 4 5 ++ leBytes 8 0x8000 ++ leBytes 4 192) : ReadDesc) with
       bytes := (desc 9 ([6, 0, 9,
       0] ++ leBytes 4 5 ++ leBytes 8 0x8000 ++ leBytes 4 192)).bytes ++ sliceB (leBytes 4 0x4D524650 ++ leBytes 2 1 ++ [0,
       0] ++ leBytes 8 5 ++ leBytes 2 4 ++ leBytes 2 2 ++ [0x2B, 0, 0, 0] ++ leBytes 4 16 ++ leBytes 4 77) 0 64 ++ leBytes 8 1 }, [], rcp,
       [], true, quiet 30 (({ (inPhase (.open smp) intake) with
       ctxs := [ctx 1 fA false], posted := [{ (desc 9 ([6, 0, 9, 0] ++ leBytes 4 5 ++ leBytes 8 0x8000 ++ leBytes 4 192) : ReadDesc) with
       bytes := (desc 9 ([6, 0, 9,
       0] ++ leBytes 4 5 ++ leBytes 8 0x8000 ++ leBytes 4 192)).bytes ++ sliceB (leBytes 4 0x4D524650 ++ leBytes 2 1 ++ [0,
       0] ++ leBytes 8 5 ++ leBytes 2 4 ++ leBytes 2 2 ++ [0x2B, 0, 0, 0] ++ leBytes 4 16 ++ leBytes 4 77) 0 64 ++ leBytes 8 1 }] }.setReg
       (oSlotBind 0) 0x1001031C#32).setReg (oSlotSel 0) 9#32), by decide +kernel⟩,
   ⟨1, 0, ctx 1 fA false, { (desc 9 ([6, 0, 9, 0] ++ leBytes 4 5 ++ leBytes 8 0x8000 ++ leBytes 4 192) : ReadDesc) with
       bytes := (desc 9 ([6, 0, 9,
       0] ++ leBytes 4 5 ++ leBytes 8 0x8000 ++ leBytes 4 192)).bytes ++ sliceB (leBytes 4 0x4D524650 ++ leBytes 2 1 ++ [0,
       0] ++ leBytes 8 5 ++ leBytes 2 4 ++ leBytes 2 2 ++ [0x2B, 0, 0, 0] ++ leBytes 4 16 ++ leBytes 4 77) 0 64 ++ leBytes 8 1 }, [], rcp,
       [], false, quiet 30 (({ (inPhase (.open smp) intake) with
       ctxs := [ctx 1 fA false], posted := [{ (desc 9 ([6, 0, 9, 0] ++ leBytes 4 5 ++ leBytes 8 0x8000 ++ leBytes 4 192) : ReadDesc) with
       bytes := (desc 9 ([6, 0, 9,
       0] ++ leBytes 4 5 ++ leBytes 8 0x8000 ++ leBytes 4 192)).bytes ++ sliceB (leBytes 4 0x4D524650 ++ leBytes 2 1 ++ [0,
       0] ++ leBytes 8 5 ++ leBytes 2 4 ++ leBytes 2 2 ++ [0x2B, 0, 0, 0] ++ leBytes 4 16 ++ leBytes 4 77) 0 64 ++ leBytes 8 1 }] }.setReg
       (oSlotBind 0) 0x1001031C#32).setReg (oSlotSel 0) 9#32), by decide +kernel⟩,
   ⟨1, ctx 1 fA false, desc 9 ([6, 0, 9, 0] ++ leBytes 4 5 ++ leBytes 8 0x8000 ++ leBytes 4 192), [], [], false,
       { { busy with ctxs := [ctx 1 fA false] } with
       posted := [desc 9 ([6, 0, 9, 0] ++ leBytes 4 5 ++ leBytes 8 0x8000 ++ leBytes 4 192)] }, by decide +kernel⟩⟩

/-- States and operands that meet the hypotheses of StepsAreBoundAndAdmitted. -/
theorem witness_StepsAreBoundAndAdmitted :
    (∃ (c : Nat) (cx : Ctx) (d : ReadDesc) (rec : List Byte) (f : Bool) (s : State), s.nextDesc c = some (cx, d) ∧ d.type = 1 ∧
        commonCheck cx d = none ∧ (f = true → bitN d.flags 1 = false) ∧ s.stepCheck cx d rec = none ∧ bitN d.flags 3 = false ∧
        (s.submitDraft (leAt d.bytes 2 1) cx.part d.seq).isSome = true) ∧
    (∃ (c : Nat) (cx : Ctx) (d : ReadDesc) (rec : List Byte) (f : Bool) (s : State), s.nextDesc c = some (cx, d) ∧ d.type = 1 ∧
        commonCheck cx d = none ∧ (f = true → bitN d.flags 1 = false) ∧ s.stepCheck cx d rec = none ∧ bitN d.flags 3 = false ∧
        (s.submitDraft (leAt d.bytes 2 1) cx.part d.seq).isSome = true) ∧
    (∃ (c : Nat) (cx : Ctx) (d : ReadDesc) (rec : List Byte) (f : Bool) (s : State), s.nextDesc c = some (cx, d) ∧ d.type = 1 ∧
        commonCheck cx d = none ∧ (f = true → bitN d.flags 1 = false) ∧ s.stepCheck cx d rec = none ∧ bitN d.flags 3 = true ∧
        (s.submitDraft (leAt d.bytes 2 1) cx.part d.seq).isSome = true ∧ s.members (leAt d.bytes 3 1 % 32) ≠ []) ∧
    (∃ (c : Nat) (cx : Ctx) (d : ReadDesc) (rec : List Byte) (f : Bool) (s : State), s.nextDesc c = some (cx, d) ∧ d.type = 1 ∧
        commonCheck cx d = none ∧ (f = true → bitN d.flags 1 = false) ∧ s.stepCheck cx d rec = none ∧ bitN d.flags 3 = true ∧
        (s.submitDraft (leAt d.bytes 2 1) cx.part d.seq).isSome = true ∧ s.members (leAt d.bytes 3 1 % 32) ≠ []) ∧
    (∃ (c : Nat) (e : Nat) (cx : Ctx) (d : ReadDesc) (rec : List Byte) (f : Bool) (s : State), s.nextDesc c = some (cx, d) ∧ d.type = 1 ∧
        commonCheck cx d = none ∧ (f = true → bitN d.flags 1 = false) ∧ s.stepCheck cx d rec = some e) ∧
    (∃ (c : Nat) (cx : Ctx) (d : ReadDesc) (rec : List Byte) (f : Bool) (s : State), s.nextDesc c = some (cx, d) ∧ d.type = 1 ∧
        commonCheck cx d = none ∧ (f = true → bitN d.flags 1 = false) ∧ s.stepCheck cx d rec = none ∧ bitN d.flags 3 = false ∧
        s.submitDraft (leAt d.bytes 2 1) cx.part d.seq = none ∧ (∀ x ∈ s.steps, x.id ≠ d.seq)) ∧
    (∃ (c : Nat) (n : Nat) (cx : Ctx) (d : ReadDesc) (rec : List Byte) (f : Bool) (s : State), s.nextDesc c = some (cx, d) ∧ d.type = 1 ∧
        commonCheck cx d = none ∧ (f = true → bitN d.flags 1 = false) ∧ s.stepCheck cx d rec = none ∧ bitN d.flags 3 = true ∧
        (s.submitDraft (leAt d.bytes 2 1) cx.part d.seq).isSome = true ∧ n = s.bindTo cx (leAt d.bytes 3 1 % 32) (leAt d.bytes 48 8) ∧
        s.inst? (leAt d.bytes 3 1 % 32) n = none ∧ s.members (leAt d.bytes 3 1 % 32) = [] ∧ (∀ x ∈ s.steps, x.id ≠ d.seq)) ∧
    (∃ (c : Nat) (cx : Ctx) (d : ReadDesc) (rec : List Byte) (s : State), s.nextDesc c = some (cx, d) ∧ d.type = 1 ∧
        commonCheck cx d = none ∧ bitN d.flags 1 = true ∧ s.silent (0x1E + cx.part)) ∧
    (∃ (c : Nat) (cx : Ctx) (x : Step) (y : Step) (s : State), s.atTa c = some x ∧ s.ctx? c = some cx ∧ cx.closing = false ∧
        s.heddleOn = true ∧ y = { x with deadline := s.deadlineOf x, cost := s.cost (portPart x.fn.port) s.holdUs (s.stepDraft x) } ∧
        s.refusal y = none ∧ s.sched.running.isSome = true ∧ (x.lc = true → x.ageUs = 0)) ∧
    (∃ (c : Nat) (cx : Ctx) (x : Step) (y : Step) (s : State), s.atTa c = some x ∧ s.ctx? c = some cx ∧ cx.closing = false ∧
        s.heddleOn = true ∧ y = { x with deadline := s.deadlineOf x, cost := s.cost (portPart x.fn.port) s.holdUs (s.stepDraft x) } ∧
        s.refusal y = none ∧ s.sched.running = none ∧ s.sched.nextStart = none ∧ s.unitPhase .heddle = none ∧ s.steps = [x] ∧
        s.posted = [] ∧ x.batch = false ∧ (x.lc = true → x.ageUs = 0) ∧ s.groupsReady (s.stepDraft x).whole = true ∧
        s.inputLost x = false) ∧
    (∃ (c : Nat) (st : Nat) (r : Nat) (cx : Ctx) (x : Step) (y : Step) (s : State), s.atTa c = some x ∧ s.ctx? c = some cx ∧
        cx.closing = false ∧ s.heddleOn = true ∧ y = { x with
        deadline := s.deadlineOf x, cost := s.cost (portPart x.fn.port) s.holdUs (s.stepDraft x) } ∧ s.refusal y = some (st, r) ∧
        x.kept = none ∧ (st = 0x10 ∨ x.record = false) ∧ (s.sched.running.isSome = true ∨ (s.steps = [x] ∧ s.sched.nextStart = none))) ∧
    (∃ (c : Nat) (st : Nat) (r : Nat) (cx : Ctx) (x : Step) (y : Step) (s : State), s.atTa c = some x ∧ s.ctx? c = some cx ∧
        cx.closing = false ∧ s.heddleOn = true ∧ x.lc = true ∧ y = { x with
        deadline := s.deadlineOf x, cost := s.cost (portPart x.fn.port) s.holdUs (s.stepDraft x) } ∧ s.refusal y = some (st, r) ∧
        x.kept = none ∧ (st = 0x10 ∨ x.record = false) ∧ (s.sched.running.isSome = true ∨ (s.steps = [x] ∧ s.sched.nextStart = none)) ∧
        s.silent 0x008) ∧
    (∃ (c : Nat) (cx : Ctx) (x : Step) (s : State), s.ctx? c = some cx ∧ cx.closing = false ∧ s.steps = [x] ∧ x.ctx = c ∧
        s.waitsOpen x = true ∧ s.sched.nextStart = none ∧ x.kept = none ∧ x.bellTime.toNat + 64 * s.frameUs * 1000 ≤ s.time.now.toNat) ∧
    (∃ (c : Nat) (x : Step) (s : State), s.steps = [x] ∧ s.time.now.toNat < x.bellTime.toNat + 64 * s.frameUs * 1000) :=
  ⟨⟨1, ctx 1 fA false, desc 9 ([1, 0x10, 0, 0] ++ leBytes 4 5 ++ leBytes 4 100 ++ leBytes 4 0 ++ leBytes 8 0x8000 ++ leBytes 4 64), [],
      false, ready' (desc 9 ([1, 0x10, 0, 0] ++ leBytes 4 5 ++ leBytes 4 100 ++ leBytes 4 0 ++ leBytes 8 0x8000 ++ leBytes 4 64)),
      by decide +kernel⟩,
   ⟨1, ctx 1 fA false, desc 9 ([1, 0x10, 0, 0] ++ leBytes 4 5 ++ leBytes 4 100 ++ leBytes 4 0 ++ leBytes 8 0x8000 ++ leBytes 4 64), [],
       true, ready' (desc 9 ([1, 0x10, 0, 0] ++ leBytes 4 5 ++ leBytes 4 100 ++ leBytes 4 0 ++ leBytes 8 0x8000 ++ leBytes 4 64)),
       by decide +kernel⟩,
   ⟨1, ctx 1 fA false, desc 9 ([1, 0x08, 0,
       1] ++ leBytes 4 5 ++ leBytes 4 100 ++ leBytes 4 0 ++ leBytes 8 0x8000 ++ leBytes 4 64 ++ List.replicate 20 0 ++ leBytes 8 0), [],
       false, { intake with
       ctxs := [ctx 1 fA false], readQ := [desc 9 ([1, 0x08, 0,
       1] ++ leBytes 4 5 ++ leBytes 4 100 ++ leBytes 4 0 ++ leBytes 8 0x8000 ++ leBytes 4 64 ++ List.replicate 20 0 ++ leBytes 8 0)],
       drafts := [{ ent with draft := { drf with tensors := [{ (rcp.tensor 1) with batchInput := true }] } }] }, by decide +kernel⟩,
   ⟨1, ctx 1 fA false, desc 9 ([1, 0x08, 0,
       1] ++ leBytes 4 5 ++ leBytes 4 100 ++ leBytes 4 0 ++ leBytes 8 0x8000 ++ leBytes 4 64 ++ List.replicate 20 0 ++ leBytes 8 2), [],
       false, { intake with
       ctxs := [ctx 1 fA false], readQ := [desc 9 ([1, 0x08, 0,
       1] ++ leBytes 4 5 ++ leBytes 4 100 ++ leBytes 4 0 ++ leBytes 8 0x8000 ++ leBytes 4 64 ++ List.replicate 20 0 ++ leBytes 8 2)],
       drafts := [{ ent with draft := { drf with tensors := [{ (rcp.tensor 1) with batchInput := true }] } }] }, by decide +kernel⟩,
   ⟨1, 0x49, ctx 1 fA true, desc 9 ([1, 0x10, 0, 0] ++ leBytes 4 5 ++ leBytes 4 100 ++ leBytes 4 0 ++ leBytes 8 0x8000 ++ leBytes 4 64),
       [], false, { busy with
       readQ := [desc 9 ([1, 0x10, 0, 0] ++ leBytes 4 5 ++ leBytes 4 100 ++ leBytes 4 0 ++ leBytes 8 0x8000 ++ leBytes 4 64)] },
       by decide +kernel⟩,
   ⟨1, ctx 1 fA false, desc 9 ([1, 0x10, 0, 0] ++ leBytes 4 5 ++ leBytes 4 100 ++ leBytes 4 0 ++ leBytes 8 0x8000 ++ leBytes 4 64), [],
       false, { ready' (desc 9 ([1, 0x10, 0, 0] ++ leBytes 4 5 ++ leBytes 4 100 ++ leBytes 4 0 ++ leBytes 8 0x8000 ++ leBytes 4 64)) with
       drafts := [] }, by decide +kernel⟩,
   ⟨1, 2, ctx 1 fA false, desc 9 ([1, 0x08, 0,
       1] ++ leBytes 4 5 ++ leBytes 4 100 ++ leBytes 4 0 ++ leBytes 8 0x8000 ++ leBytes 4 64 ++ List.replicate 20 0 ++ leBytes 8 2), [],
       false, { (intake : State) with
       ctxs := [ctx 1 fA false], readQ := [desc 9 ([1, 0x08, 0,
       1] ++ leBytes 4 5 ++ leBytes 4 100 ++ leBytes 4 0 ++ leBytes 8 0x8000 ++ leBytes 4 64 ++ List.replicate 20 0 ++ leBytes 8 2)],
       drafts := [{ ent with draft := { drf with tensors := [{ (rcp.tensor 1) with batchInput := true }] } }], regs := [(oBatchCtl 1,
       0x10001)] }, by decide +kernel⟩,
   ⟨1, ctx 1 fA false, desc 9 ([1, 0x02, 0,
       0] ++ leBytes 4 5 ++ leBytes 4 100 ++ leBytes 4 0 ++ leBytes 8 0x8000 ++ leBytes 4 64 ++ leBytes 4 0 ++ leBytes 8 0x5000), [],
       quiet 30 (ready' (desc 9 ([1, 0x02, 0,
       0] ++ leBytes 4 5 ++ leBytes 4 100 ++ leBytes 4 0 ++ leBytes 8 0x8000 ++ leBytes 4 64 ++ leBytes 4 0 ++ leBytes 8 0x5000))),
       by decide +kernel⟩,
   ⟨1, ctx 1 fA false, { stp with
       id := 9, stage := .waiting, started := false, onA := false, onB := false, counter := 0, cost := 0, lc := false, deadlineUs := 33333,
       tag := 5 },
       { ({ stp with id := 9, stage := .waiting, started := false, onA := false, onB := false, counter := 0, cost := 0, lc := false, deadlineUs := 33333, tag := 5 } : Step) with
       deadline := State.deadlineOf ({ busy with
       ctxs := [ctx 1 fA false], steps := [{ stp with
       id := 9, stage := .waiting, started := false, onA := false, onB := false, counter := 0, cost := 0, lc := false, deadlineUs := 33333,
       tag := 5 }, { stp with ctx := 2 }], sched := { up.sched with running := some 7 } }) ({ stp with
       id := 9, stage := .waiting, started := false, onA := false, onB := false, counter := 0, cost := 0, lc := false, deadlineUs := 33333,
       tag := 5 }), cost := State.cost ({ busy with
       ctxs := [ctx 1 fA false], steps := [{ stp with
       id := 9, stage := .waiting, started := false, onA := false, onB := false, counter := 0, cost := 0, lc := false, deadlineUs := 33333,
       tag := 5 }, { stp with ctx := 2 }], sched := { up.sched with running := some 7 } }) (portPart fA.port) (State.holdUs ({ busy with
       ctxs := [ctx 1 fA false], steps := [{ stp with
       id := 9, stage := .waiting, started := false, onA := false, onB := false, counter := 0, cost := 0, lc := false, deadlineUs := 33333,
       tag := 5 }, { stp with ctx := 2 }], sched := { up.sched with running := some 7 } })) (State.stepDraft ({ busy with
       ctxs := [ctx 1 fA false], steps := [{ stp with
       id := 9, stage := .waiting, started := false, onA := false, onB := false, counter := 0, cost := 0, lc := false, deadlineUs := 33333,
       tag := 5 }, { stp with ctx := 2 }], sched := { up.sched with running := some 7 } }) ({ stp with
       id := 9, stage := .waiting, started := false, onA := false, onB := false, counter := 0, cost := 0, lc := false, deadlineUs := 33333,
       tag := 5 })) }, { busy with
       ctxs := [ctx 1 fA false], steps := [{ stp with
       id := 9, stage := .waiting, started := false, onA := false, onB := false, counter := 0, cost := 0, lc := false, deadlineUs := 33333,
       tag := 5 }, { stp with ctx := 2 }], sched := { up.sched with running := some 7 } }, by decide +kernel⟩,
   ⟨1, ctx 1 fA false, { stp with
       id := 9, stage := .waiting, started := false, onA := false, onB := false, counter := 0, cost := 0, lc := false, deadlineUs := 33333,
       tag := 5 },
       { ({ stp with id := 9, stage := .waiting, started := false, onA := false, onB := false, counter := 0, cost := 0, lc := false, deadlineUs := 33333, tag := 5 } : Step) with
       deadline := State.deadlineOf ({ busy with
       ctxs := [ctx 1 fA false], steps := [{ stp with
       id := 9, stage := .waiting, started := false, onA := false, onB := false, counter := 0, cost := 0, lc := false, deadlineUs := 33333,
       tag := 5 }] }) ({ stp with
       id := 9, stage := .waiting, started := false, onA := false, onB := false, counter := 0, cost := 0, lc := false, deadlineUs := 33333,
       tag := 5 }), cost := State.cost ({ busy with
       ctxs := [ctx 1 fA false], steps := [{ stp with
       id := 9, stage := .waiting, started := false, onA := false, onB := false, counter := 0, cost := 0, lc := false, deadlineUs := 33333,
       tag := 5 }] }) (portPart fA.port) (State.holdUs ({ busy with
       ctxs := [ctx 1 fA false], steps := [{ stp with
       id := 9, stage := .waiting, started := false, onA := false, onB := false, counter := 0, cost := 0, lc := false, deadlineUs := 33333,
       tag := 5 }] })) (State.stepDraft ({ busy with
       ctxs := [ctx 1 fA false], steps := [{ stp with
       id := 9, stage := .waiting, started := false, onA := false, onB := false, counter := 0, cost := 0, lc := false, deadlineUs := 33333,
       tag := 5 }] }) ({ stp with
       id := 9, stage := .waiting, started := false, onA := false, onB := false, counter := 0, cost := 0, lc := false, deadlineUs := 33333,
       tag := 5 })) }, { busy with
       ctxs := [ctx 1 fA false], steps := [{ stp with
       id := 9, stage := .waiting, started := false, onA := false, onB := false, counter := 0, cost := 0, lc := false, deadlineUs := 33333,
       tag := 5 }] }, by decide +kernel⟩,
   ⟨1, 0x10, 1, ctx 1 fA false, { stp with
       id := 9, stage := .waiting, started := false, onA := false, onB := false, counter := 0, cost := 0, lc := false, deadlineUs := 33333,
       tag := 5 },
       { ({ stp with id := 9, stage := .waiting, started := false, onA := false, onB := false, counter := 0, cost := 0, lc := false, deadlineUs := 33333, tag := 5 } : Step) with
       deadline := State.deadlineOf ({ busy with
       ctxs := [ctx 1 fA false], drafts := [], steps := [{ stp with
       id := 9, stage := .waiting, started := false, onA := false, onB := false, counter := 0, cost := 0, lc := false, deadlineUs := 33333,
       tag := 5 }] }) ({ stp with
       id := 9, stage := .waiting, started := false, onA := false, onB := false, counter := 0, cost := 0, lc := false, deadlineUs := 33333,
       tag := 5 }), cost := State.cost ({ busy with
       ctxs := [ctx 1 fA false], drafts := [], steps := [{ stp with
       id := 9, stage := .waiting, started := false, onA := false, onB := false, counter := 0, cost := 0, lc := false, deadlineUs := 33333,
       tag := 5 }] }) (portPart fA.port) (State.holdUs ({ busy with
       ctxs := [ctx 1 fA false], drafts := [], steps := [{ stp with
       id := 9, stage := .waiting, started := false, onA := false, onB := false, counter := 0, cost := 0, lc := false, deadlineUs := 33333,
       tag := 5 }] })) (State.stepDraft ({ busy with
       ctxs := [ctx 1 fA false], drafts := [], steps := [{ stp with
       id := 9, stage := .waiting, started := false, onA := false, onB := false, counter := 0, cost := 0, lc := false, deadlineUs := 33333,
       tag := 5 }] }) ({ stp with
       id := 9, stage := .waiting, started := false, onA := false, onB := false, counter := 0, cost := 0, lc := false, deadlineUs := 33333,
       tag := 5 })) }, { busy with
       ctxs := [ctx 1 fA false], drafts := [], steps := [{ stp with
       id := 9, stage := .waiting, started := false, onA := false, onB := false, counter := 0, cost := 0, lc := false, deadlineUs := 33333,
       tag := 5 }] }, by decide +kernel⟩,
   ⟨1, 0x10, 1, ctx 1 fA true, { stp with
       id := 9, stage := .waiting, started := false, onA := false, onB := false, counter := 0, cost := 0, lc := true, deadlineUs := 33333,
       tag := 5 },
       { ({ stp with id := 9, stage := .waiting, started := false, onA := false, onB := false, counter := 0, cost := 0, lc := true, deadlineUs := 33333, tag := 5 } : Step) with
       deadline := State.deadlineOf (quiet 8 { busy with
       drafts := [], steps := [{ stp with
       id := 9, stage := .waiting, started := false, onA := false, onB := false, counter := 0, cost := 0, lc := true, deadlineUs := 33333,
       tag := 5 }] }) ({ stp with
       id := 9, stage := .waiting, started := false, onA := false, onB := false, counter := 0, cost := 0, lc := true, deadlineUs := 33333,
       tag := 5 }), cost := State.cost (quiet 8 { busy with
       drafts := [], steps := [{ stp with
       id := 9, stage := .waiting, started := false, onA := false, onB := false, counter := 0, cost := 0, lc := true, deadlineUs := 33333,
       tag := 5 }] }) (portPart fA.port) (State.holdUs (quiet 8 { busy with
       drafts := [], steps := [{ stp with
       id := 9, stage := .waiting, started := false, onA := false, onB := false, counter := 0, cost := 0, lc := true, deadlineUs := 33333,
       tag := 5 }] })) (State.stepDraft (quiet 8 { busy with
       drafts := [], steps := [{ stp with
       id := 9, stage := .waiting, started := false, onA := false, onB := false, counter := 0, cost := 0, lc := true, deadlineUs := 33333,
       tag := 5 }] }) ({ stp with
       id := 9, stage := .waiting, started := false, onA := false, onB := false, counter := 0, cost := 0, lc := true, deadlineUs := 33333,
       tag := 5 })) }, quiet 8 { busy with
       drafts := [], steps := [{ stp with
       id := 9, stage := .waiting, started := false, onA := false, onB := false, counter := 0, cost := 0, lc := true, deadlineUs := 33333,
       tag := 5 }] }, by decide +kernel⟩,
   ⟨1, ctx 1 fA false,
       { { stp with id := 9, stage := .waiting, started := false, onA := false, onB := false, counter := 0, cost := 0, lc := false, deadlineUs := 33333, tag := 5 } with
       batch := true }, at' 2133312000 { busy with
       ctxs := [ctx 1 fA false],
       steps := [{ { stp with id := 9, stage := .waiting, started := false, onA := false, onB := false, counter := 0, cost := 0, lc := false, deadlineUs := 33333, tag := 5 } with
       batch := true }] }, by decide +kernel⟩,
   ⟨1, { { stp with id := 9, stage := .waiting, started := false, onA := false, onB := false, counter := 0, cost := 0, lc := false, deadlineUs := 33333, tag := 5 } with
       batch := true }, { busy with
       ctxs := [ctx 1 fA false],
       steps := [{ { stp with id := 9, stage := .waiting, started := false, onA := false, onB := false, counter := 0, cost := 0, lc := false, deadlineUs := 33333, tag := 5 } with
       batch := true }] }, by decide +kernel⟩⟩

/-- States and operands that meet the hypotheses of ShuttleCoresRetire. -/
theorem witness_ShuttleCoresRetire :
    (∃ (n : Nat) (p : Pair) (r : Running) (x : Step) (st : Option CoreStrike) (k : Nat) (len : Nat) (w : Nat) (o : RvOut) (s : State),
        s.executes n p r x ∧ s.live x.id = true ∧ p.fetch = some (len, w) ∧ rowOf n Move.none (BitVec.ofNat 32 w) = none ∧
        s.coreStep n p x r len w = some o ∧ o.stores = [] ∧ o.loads = [] ∧ st.any o.struck = false) ∧
    (∃ (n : Nat) (p : Pair) (r : Running) (x : Step) (st : Option CoreStrike) (k : Nat) (len : Nat) (w : Nat) (o : RvOut) (s : State),
        s.executes n p r x ∧ s.live x.id = true ∧ p.fetch = some (len, w) ∧ rowOf n Move.none (BitVec.ofNat 32 w) = none ∧
        s.coreStep n p x r len w = some o ∧ o.stores = [] ∧ o.loads = [] ∧ st.any o.struck = false) ∧
    (∃ (n : Nat) (p : Pair) (r : Running) (x : Step) (st : Option CoreStrike) (k : Nat) (len : Nat) (w : Nat) (o : RvOut) (s : State),
        s.executes n p r x ∧ s.live x.id = true ∧ p.fetch = some (len, w) ∧ rowOf n Move.none (BitVec.ofNat 32 w) = none ∧
        s.coreStep n p x r len w = some o ∧ o.stores = [] ∧ o.loads = [] ∧ st.any o.struck = false) ∧
    (∃ (n : Nat) (p : Pair) (r : Running) (x : Step) (k : Nat) (d : Nat) (a : Nat) (b : Nat) (s : State), s.executes n p r x ∧
        s.live x.id = true ∧ d < 32 ∧ a < 32 ∧ b < 32 ∧ p.fetch = some (4, encR 0 b a 0 d 0x33)) ∧
    (∃ (n : Nat) (p : Pair) (r : Running) (x : Step) (k : Nat) (d : Nat) (a : Nat) (b : Nat) (s : State), s.executes n p r x ∧
        s.live x.id = true ∧ d < 32 ∧ a < 32 ∧ b < 32 ∧ p.fetch = some (4, encR 0 b a 0 d 0x33)) ∧
    (∃ (n : Nat) (p : Pair) (r : Running) (x : Step) (k : Nat) (d : Nat) (a : Nat) (m : Nat) (v : Nat) (s : State), s.executes n p r x ∧
        s.live x.id = true ∧ d < 32 ∧ a < 32 ∧ m < 2048 ∧ p.fetch = some (4, encI m a 3 d 0x03) ∧ s.loadAt n x r
        (p.getX a + BitVec.ofNat 64 m).toNat 8 = some v) ∧
    (∃ (n : Nat) (p : Pair) (r : Running) (x : Step) (k : Nat) (a : Nat) (b : Nat) (m : Nat) (o : Nat) (s : State), s.executes n p r x ∧
        s.live x.id = true ∧ a < 32 ∧ b < 32 ∧ m < 2048 ∧ p.fetch = some (4, encS m b a 3 0x23) ∧ placeOf
        (p.getX a + BitVec.ofNat 64 m).toNat 8 = .dmem o ∧ p.dmem.wf = true) ∧
    (∃ (n : Nat) (p : Pair) (r : Running) (x : Step) (k : Nat) (a : Nat) (b : Nat) (m : Nat) (y : Nat) (o : Nat) (j : Nat) (e : Env)
        (s : State), s.executes n p r x ∧ s.live x.id = true ∧ a < 32 ∧ b < 32 ∧ m < 2048 ∧ p.fetch = some (4, encS m b a 2 0x23) ∧ placeOf
        (p.getX a + BitVec.ofNat 64 m).toNat 4 = .window y o ∧ s.window r y = some (j, true) ∧ (s.env x (weftOf n)).winWrite j o 4
        ((p.getX b).toNat % 2 ^ 32) = some (e, 0)) ∧
    (∃ (n : Nat) (p : Pair) (r : Running) (x : Step) (k : Nat) (d : Nat) (a : Nat) (b : Nat) (z : Nat × FFlags) (s : State),
        s.executes n p r x ∧ s.live x.id = true ∧ d < 32 ∧ a < 32 ∧ b < 32 ∧ p.fetch = some (4, encR 1 b a 7 d 0x53) ∧ p.frm.toNat ≤ 4 ∧
        p.f.length = 32 ∧ addF 64 p.frm.toNat (unpackF 64 (p.f.getD a 0).toNat) (unpackF 64 (p.f.getD b 0).toNat) = z) ∧
    (∃ (n : Nat) (p : Pair) (r : Running) (x : Step) (k : Nat) (d : Nat) (s : State), s.executes n p r x ∧ s.live x.id = true ∧ d < 32 ∧
        p.fetch = some (4, encI 0xC22 0 2 d 0x73)) ∧
    (∃ (n : Nat) (p : Pair) (r : Running) (x : Step) (st : CoreStrike) (k : Nat) (len : Nat) (w : Nat) (o : RvOut) (c : ReadChecks)
        (s : State), s.executes n p r x ∧ p.fetch = some (len, w) ∧ rowOf n Move.none (BitVec.ofNat 32 w) = none ∧
        s.coreStep n p x r len w = some o ∧ st.mask ≠ 0 ∧ (st.place = .pc ∨ st.place = .dest ∧ o.writes = true ∨
        (st.place = .storeAddr ∨ st.place = .storeData) ∧ o.stores ≠ []) ∧ s.killable x (weftSrc (weftOf n) (0x10 + n % 4))) ∧
    (∃ (n : Nat) (p : Pair) (r : Running) (x : Step) (st : CoreStrike) (k : Nat) (len : Nat) (w : Nat) (o : RvOut) (c : ReadChecks)
        (s : State), s.executes n p r x ∧ p.fetch = some (len, w) ∧ rowOf n Move.none (BitVec.ofNat 32 w) = none ∧
        s.coreStep n p x r len w = some o ∧ st.mask ≠ 0 ∧ (st.place = .pc ∨ st.place = .dest ∧ o.writes = true ∨
        (st.place = .storeAddr ∨ st.place = .storeData) ∧ o.stores ≠ []) ∧ s.killable x (weftSrc (weftOf n) (0x10 + n % 4))) ∧
    (∃ (n : Nat) (p : Pair) (r : Running) (x : Step) (st : CoreStrike) (k : Nat) (len : Nat) (w : Nat) (o : RvOut) (c : ReadChecks)
        (s : State), s.executes n p r x ∧ p.fetch = some (len, w) ∧ rowOf n Move.none (BitVec.ofNat 32 w) = none ∧
        s.coreStep n p x r len w = some o ∧ st.mask ≠ 0 ∧ (st.place = .pc ∨ st.place = .dest ∧ o.writes = true ∨
        (st.place = .storeAddr ∨ st.place = .storeData) ∧ o.stores ≠ []) ∧ s.killable x (weftSrc (weftOf n) (0x10 + n % 4))) ∧
    (∃ (n : Nat) (p : Pair) (r : Running) (x : Step) (st : CoreStrike) (k : Nat) (len : Nat) (w : Nat) (c : ReadChecks) (s : State),
        s.executes n p r x ∧ p.fetch = some (len, w) ∧ rowOf n Move.none (BitVec.ofNat 32 w) ≠ none ∧ st.mask ≠ 0 ∧
        (st.place = .pc ∨ st.place = .loomOperands ∧ w % 128 = 0x0B) ∧ s.killable x (weftSrc (weftOf n) (0x10 + n % 4))) ∧
    (∃ (n : Nat) (p : Pair) (r : Running) (x : Step) (st : Option CoreStrike) (k : Nat) (c : ReadChecks) (s : State), s.executes n p r x ∧
        (p.fetch = none ∨ ∃ len w, p.fetch = some (len, w) ∧ rowOf n Move.none (BitVec.ofNat 32 w) = none ∧
        s.coreStep n p x r len w = none) ∧ s.killable x (weftSrc (weftOf n) (0x14 + n % 4))) ∧
    (∃ (n : Nat) (p : Pair) (r : Running) (x : Step) (st : Option CoreStrike) (k : Nat) (c : ReadChecks) (s : State), s.executes n p r x ∧
        (p.fetch = none ∨ ∃ len w, p.fetch = some (len, w) ∧ rowOf n Move.none (BitVec.ofNat 32 w) = none ∧
        s.coreStep n p x r len w = none) ∧ s.killable x (weftSrc (weftOf n) (0x14 + n % 4))) ∧
    (∃ (n : Nat) (p : Pair) (r : Running) (x : Step) (st : Option CoreStrike) (k : Nat) (c : ReadChecks) (s : State), s.executes n p r x ∧
        (p.fetch = none ∨ ∃ len w, p.fetch = some (len, w) ∧ rowOf n Move.none (BitVec.ofNat 32 w) = none ∧
        s.coreStep n p x r len w = none) ∧ s.killable x (weftSrc (weftOf n) (0x14 + n % 4))) ∧
    (∃ (n : Nat) (p : Pair) (r : Running) (x : Step) (k : Nat) (a : Nat) (b : Nat) (m : Nat) (s : State), s.executes n p r x ∧
        s.live x.id = true ∧ a < 32 ∧ b < 32 ∧ m < 2048 ∧ p.fetch = some (4, encS m b a 3 0x23) ∧ ((∃ o, placeOf
        (p.getX a + BitVec.ofNat 64 m).toNat 8 = .imem o) ∨ placeOf (p.getX a + BitVec.ofNat 64 m).toNat 8 = .outside) ∧ s.killable x
        (weftSrc (weftOf n) (0x14 + n % 4))) ∧
    (∃ (n : Nat) (p : Pair) (r : Running) (x : Step) (k : Nat) (a : Nat) (b : Nat) (m : Nat) (s : State), s.executes n p r x ∧
        s.live x.id = true ∧ a < 32 ∧ b < 32 ∧ m < 2048 ∧ p.fetch = some (4, encS m b a 3 0x23) ∧ ((∃ o, placeOf
        (p.getX a + BitVec.ofNat 64 m).toNat 8 = .imem o) ∨ placeOf (p.getX a + BitVec.ofNat 64 m).toNat 8 = .outside) ∧ s.killable x
        (weftSrc (weftOf n) (0x14 + n % 4))) ∧
    (∃ (n : Nat) (p : Pair) (r : Running) (x : Step) (st : Option CoreStrike) (k : Nat) (c : ReadChecks) (s : State), s.executes n p r x ∧
        s.killable x (weftSrc (weftOf n) (0x14 + n % 4))) ∧
    (∃ (n : Nat) (p : Pair) (r : Running) (x : Step) (k : Nat) (len : Nat) (w : Nat) (a : Nat) (y : Weft) (b : Byte) (o : RvOut)
        (s : State), s.executes n p r x ∧ p.fetch = some (len, w) ∧ rowOf n Move.none (BitVec.ofNat 32 w) = none ∧
        s.coreStep n p x r len w = some o ∧ s.beamOwner y a = .step x.ctx ∧ s.killable x (weftSrc y 0x20)) ∧
    (∃ (n : Nat) (rd : Nat) (p : Pair) (r : Running) (x : Step) (s : State), s.performs n p r x Move.none (.rdtime n rd)) ∧
    (∃ (n : Nat) (rd : Nat) (p : Pair) (r : Running) (x : Step) (s : State), s.performs n p r x Move.none (.rdtime n rd)) ∧
    (∃ (n : Nat) (p : Pair) (r : Running) (x : Step) (s : State), s.performs n p r x Move.none (.ecall n) ∧ p.getX 17 = 0 ∧ p.queued = [] ∧
        (∀ d, ∀ y ∈ (s.weft d).pairs, ∀ h, y.stall ≠ some (.hinge h))) ∧
    (∃ (n : Nat) (p : Pair) (r : Running) (x : Step) (s : State), s.performs n p r x Move.none (.ecall n) ∧ p.getX 17 ≠ 0 ∧ s.killable x
        (weftSrc (weftOf n) (0x14 + n % 4))) ∧
    (∃ (n : Nat) (p : Pair) (r : Running) (x : Step) (s : State), s.performs n p r x Move.none (.ebreak n) ∧ s.killable x (weftSrc
        (weftOf n) (0x14 + n % 4))) ∧
    (∃ (n : Nat) (p : Pair) (r : Running) (x : Step) (s : State), s.pair? n = some p ∧ p.watched = some r ∧ s.step? r.step = some x ∧
        s.clocked (.shuttle (weftOf n)) = true ∧ s.pairOn n = true ∧ s.unitUp (.pair n) = true ∧ s.killable x (weftSrc (weftOf n)
        (0x18 + n % 4))) ∧
    (∃ (n : Nat) (p : Pair) (r : Running) (x : Step) (s : State), s.pair? n = some p ∧ p.watched = some r ∧ s.step? r.step = some x ∧
        s.clocked (.shuttle (weftOf n)) = true ∧ s.pairOn n = true ∧ s.unitUp (.pair n) = true ∧ s.killable x (weftSrc (weftOf n)
        (0x18 + n % 4))) ∧
    (∃ (n : Nat) (p : Pair) (s : State), s.pair? n = some p ∧ (p.stall = some .all ∨ ∃ k, p.stall = some (.ticket k))) ∧
    (∃ (n : Nat) (p : Pair) (s : State), s.pair? n = some p ∧ (p.stall = some .all ∨ ∃ k, p.stall = some (.ticket k))) :=
  ⟨⟨1, { Pair.reset with
      run := some (runs []), pc := 64, imem := progAt (encR 0 6 5 0 7 0x33),
      x := (((List.replicate 32 (0 : Dword)).set 5 7).set 6 0xFFFFFFFFFFFFFFFF) }, runs [], stp, none, 1, 4, encR 0 6 5 0 7 0x33,
      ((State.coreStep (inPair 1 ({ Pair.reset with
      run := some (runs []), pc := 64, imem := progAt (encR 0 6 5 0 7 0x33),
      x := (((List.replicate 32 (0 : Dword)).set 5 7).set 6 0xFFFFFFFFFFFFFFFF) }) (running)) 1 ({ Pair.reset with
      run := some (runs []), pc := 64, imem := progAt (encR 0 6 5 0 7 0x33),
      x := (((List.replicate 32 (0 : Dword)).set 5 7).set 6 0xFFFFFFFFFFFFFFFF) }) stp (runs []) 4 (encR 0 6 5 0 7 0x33)).getD
      { pair := Pair.reset }), inPair 1 ({ Pair.reset with
      run := some (runs []), pc := 64, imem := progAt (encR 0 6 5 0 7 0x33),
      x := (((List.replicate 32 (0 : Dword)).set 5 7).set 6 0xFFFFFFFFFFFFFFFF) }) (running), by decide +kernel⟩,
   ⟨1, { Pair.reset with
       run := some (runs []), pc := 64, imem := progAt (encR 1 3 2 7 1 0x53),
       f := (List.replicate 32 (0 : Dword)).set 2 0x3FF0000000000000 }, runs [], stp, some { place := .storeData, mask := 1 }, 1, 4,
       encR 1 3 2 7 1 0x53, ((State.coreStep (inPair 1 ({ Pair.reset with
       run := some (runs []), pc := 64, imem := progAt (encR 1 3 2 7 1 0x53),
       f := (List.replicate 32 (0 : Dword)).set 2 0x3FF0000000000000 }) (running)) 1 ({ Pair.reset with
       run := some (runs []), pc := 64, imem := progAt (encR 1 3 2 7 1 0x53),
       f := (List.replicate 32 (0 : Dword)).set 2 0x3FF0000000000000 }) stp (runs []) 4 (encR 1 3 2 7 1 0x53)).getD
       { pair := Pair.reset }), inPair 1 ({ Pair.reset with
       run := some (runs []), pc := 64, imem := progAt (encR 1 3 2 7 1 0x53),
       f := (List.replicate 32 (0 : Dword)).set 2 0x3FF0000000000000 }) (running), by decide +kernel⟩,
   ⟨1, { Pair.reset with run := some (runs []), pc := 64, imem := progAt (encI 0xC08 4 7 7 0x57) }, runs [], stp, none, 1, 4,
       encI 0xC08 4 7 7 0x57, ((State.coreStep (inPair 1 ({ Pair.reset with
       run := some (runs []), pc := 64, imem := progAt (encI 0xC08 4 7 7 0x57) }) (running)) 1 ({ Pair.reset with
       run := some (runs []), pc := 64, imem := progAt (encI 0xC08 4 7 7 0x57) }) stp (runs []) 4 (encI 0xC08 4 7 7 0x57)).getD
       { pair := Pair.reset }), inPair 1 ({ Pair.reset with run := some (runs []), pc := 64, imem := progAt (encI 0xC08 4 7 7 0x57) })
       (running), by decide +kernel⟩,
   ⟨1, { Pair.reset with
       run := some (runs []), pc := 64, imem := progAt (encR 0 6 5 0 7 0x33),
       x := (((List.replicate 32 (0 : Dword)).set 5 7).set 6 0xFFFFFFFFFFFFFFFF) }, runs [], stp, 1, 7, 5, 6, inPair 1 ({ Pair.reset with
       run := some (runs []), pc := 64, imem := progAt (encR 0 6 5 0 7 0x33),
       x := (((List.replicate 32 (0 : Dword)).set 5 7).set 6 0xFFFFFFFFFFFFFFFF) }) (running), by decide +kernel⟩,
   ⟨1, { Pair.reset with
       run := some (runs []), pc := 64, imem := progAt (encR 0 6 5 0 0 0x33), x := (((List.replicate 32 (0 : Dword)).set 5 7).set 6 1) },
       runs [], stp, 1, 0, 5, 6, inPair 1 ({ Pair.reset with
       run := some (runs []), pc := 64, imem := progAt (encR 0 6 5 0 0 0x33), x := (((List.replicate 32 (0 : Dword)).set 5 7).set 6 1) })
       (running), by decide +kernel⟩,
   ⟨1, { Pair.reset with
       run := some (runs []), pc := 64, imem := progAt (encI 8 5 3 7 0x03), x := ((List.replicate 32 (0 : Dword)).set 5 0x10000000),
       dmem := [(8, 5), (15, 0xFF)] }, runs [], stp, 1, 7, 5, 8, 0xFF00000000000005, inPair 1 ({ Pair.reset with
       run := some (runs []), pc := 64, imem := progAt (encI 8 5 3 7 0x03), x := ((List.replicate 32 (0 : Dword)).set 5 0x10000000),
       dmem := [(8, 5), (15, 0xFF)] }) (running), by decide +kernel⟩,
   ⟨1, { Pair.reset with
       run := some (runs []), pc := 64, imem := progAt (encS 2047 6 5 3 0x23),
       x := (((List.replicate 32 (0 : Dword)).set 5 0x1001F7F9).set 6 0x0807060504030201), dmem := [(8, 5), (131071, 1)] }, runs [], stp,
       1, 5, 6, 2047, 131064, inPair 1 ({ Pair.reset with
       run := some (runs []), pc := 64, imem := progAt (encS 2047 6 5 3 0x23),
       x := (((List.replicate 32 (0 : Dword)).set 5 0x1001F7F9).set 6 0x0807060504030201), dmem := [(8, 5), (131071, 1)] }) (running),
       by decide +kernel⟩,
   ⟨1, { Pair.reset with
       run := some (runs []), pc := 64, imem := progAt (encS 4 6 5 2 0x23),
       x := (((List.replicate 32 (0 : Dword)).set 5 0x1000000000).set 6 0x3F800000) }, runs [], stp, 1, 5, 6, 4, 0, 4, 1, (((State.env
       (inPair 1 ({ Pair.reset with
       run := some (runs []), pc := 64, imem := progAt (encS 4 6 5 2 0x23),
       x := (((List.replicate 32 (0 : Dword)).set 5 0x1000000000).set 6 0x3F800000) }) ({ (running : State) with
       drafts := [{ (ent : Entry) with
       draft := { (drf : Draft) with
       programs := [{ (prog : Program) with wins := [(1, true)] }], tensors := [{ (Tensor.zero : Tensor) with
       rows := 4, rowLen := 8, rowPitch := 8, placement := 0 }, { (Tensor.zero : Tensor) with
       type := 3, rows := 4, rowLen := 8, rowPitch := 16, placement := 1 }], placements := [Placement.zero,
       { (Placement.zero : Placement) with dies := 3, sramA := 4096, sramB := 4096 }] } }] })) stp .a).winWrite 1 4 4 0x3F800000).getD
       (State.env (inPair 1 ({ Pair.reset with
       run := some (runs []), pc := 64, imem := progAt (encS 4 6 5 2 0x23),
       x := (((List.replicate 32 (0 : Dword)).set 5 0x1000000000).set 6 0x3F800000) }) ({ (running : State) with
       drafts := [{ (ent : Entry) with
       draft := { (drf : Draft) with
       programs := [{ (prog : Program) with wins := [(1, true)] }], tensors := [{ (Tensor.zero : Tensor) with
       rows := 4, rowLen := 8, rowPitch := 8, placement := 0 }, { (Tensor.zero : Tensor) with
       type := 3, rows := 4, rowLen := 8, rowPitch := 16, placement := 1 }], placements := [Placement.zero,
       { (Placement.zero : Placement) with dies := 3, sramA := 4096, sramB := 4096 }] } }] })) stp .a, 0)).1, inPair 1 ({ Pair.reset with
       run := some (runs []), pc := 64, imem := progAt (encS 4 6 5 2 0x23),
       x := (((List.replicate 32 (0 : Dword)).set 5 0x1000000000).set 6 0x3F800000) }) ({ (running : State) with
       drafts := [{ (ent : Entry) with
       draft := { (drf : Draft) with
       programs := [{ (prog : Program) with wins := [(1, true)] }], tensors := [{ (Tensor.zero : Tensor) with
       rows := 4, rowLen := 8, rowPitch := 8, placement := 0 }, { (Tensor.zero : Tensor) with
       type := 3, rows := 4, rowLen := 8, rowPitch := 16, placement := 1 }], placements := [Placement.zero,
       { (Placement.zero : Placement) with dies := 3, sramA := 4096, sramB := 4096 }] } }] }), by decide +kernel⟩,
   ⟨1, { Pair.reset with
       run := some (runs []), pc := 64, imem := progAt (encR 1 3 2 7 1 0x53),
       f := ((List.replicate 32 (0 : Dword)).set 2 0x3FF0000000000000).set 3 0x0000000000000001, frm := 3 }, runs [], stp, 1, 1, 2, 3,
       (0x3FF0000000000001, 1), inPair 1 ({ Pair.reset with
       run := some (runs []), pc := 64, imem := progAt (encR 1 3 2 7 1 0x53),
       f := ((List.replicate 32 (0 : Dword)).set 2 0x3FF0000000000000).set 3 0x0000000000000001, frm := 3 }) (running), by decide +kernel⟩,
   ⟨1, { Pair.reset with run := some (runs []), pc := 64, imem := progAt (encI 0xC22 0 2 7 0x73) }, runs [], stp, 1, 7, inPair 1
       ({ Pair.reset with run := some (runs []), pc := 64, imem := progAt (encI 0xC22 0 2 7 0x73) }) (running), by decide +kernel⟩,
   ⟨1, { Pair.reset with run := some (runs []), pc := 64, imem := progAt (encR 0 6 5 0 7 0x33) }, runs [], stp,
       { place := .dest, mask := 0x80 }, 1, 4, encR 0 6 5 0 7 0x33, ((State.coreStep (inPair 1 ({ Pair.reset with
       run := some (runs []), pc := 64, imem := progAt (encR 0 6 5 0 7 0x33) }) (quiet (weftSrc .a 0x11) (running))) 1 ({ Pair.reset with
       run := some (runs []), pc := 64, imem := progAt (encR 0 6 5 0 7 0x33) }) stp (runs []) 4 (encR 0 6 5 0 7 0x33)).getD
       { pair := Pair.reset }), noErr, inPair 1 ({ Pair.reset with run := some (runs []), pc := 64, imem := progAt (encR 0 6 5 0 7 0x33) })
       (quiet (weftSrc .a 0x11) (running)), by and_intros <;> first | exact (Or.inr (Or.inl ⟨rfl, rfl⟩)) | decide +kernel⟩,
   ⟨1, { Pair.reset with
       run := some (runs []), pc := 64, imem := progAt (encS 2047 6 5 3 0x23), x := ((List.replicate 32 (0 : Dword)).set 5 0x1001F7F9) },
       runs [], stp, { place := .storeAddr, mask := 1 }, 1, 4, encS 2047 6 5 3 0x23, ((State.coreStep (inPair 1 ({ Pair.reset with
       run := some (runs []), pc := 64, imem := progAt (encS 2047 6 5 3 0x23), x := ((List.replicate 32 (0 : Dword)).set 5 0x1001F7F9) })
       (quiet (weftSrc .a 0x11) (running))) 1 ({ Pair.reset with
       run := some (runs []), pc := 64, imem := progAt (encS 2047 6 5 3 0x23),
       x := ((List.replicate 32 (0 : Dword)).set 5 0x1001F7F9) }) stp (runs []) 4 (encS 2047 6 5 3 0x23)).getD { pair := Pair.reset }),
       noErr, inPair 1 ({ Pair.reset with
       run := some (runs []), pc := 64, imem := progAt (encS 2047 6 5 3 0x23), x := ((List.replicate 32 (0 : Dword)).set 5 0x1001F7F9) })
       (quiet (weftSrc .a 0x11) (running)),
       by and_intros <;> first | exact (Or.inr (Or.inr ⟨Or.inl rfl, by decide +kernel⟩)) | decide +kernel⟩,
   ⟨1, { Pair.reset with run := some (runs []), pc := 64, imem := progAt (encR 0 6 5 0 7 0x33) }, runs [], stp,
       { place := .pc, mask := 1 }, 1, 4, encR 0 6 5 0 7 0x33, ((State.coreStep (inPair 1 ({ Pair.reset with
       run := some (runs []), pc := 64, imem := progAt (encR 0 6 5 0 7 0x33) }) (quiet (weftSrc .a 0x11) (running))) 1 ({ Pair.reset with
       run := some (runs []), pc := 64, imem := progAt (encR 0 6 5 0 7 0x33) }) stp (runs []) 4 (encR 0 6 5 0 7 0x33)).getD
       { pair := Pair.reset }), noErr, inPair 1 ({ Pair.reset with run := some (runs []), pc := 64, imem := progAt (encR 0 6 5 0 7 0x33) })
       (quiet (weftSrc .a 0x11) (running)), by and_intros <;> first | exact (Or.inl rfl) | decide +kernel⟩,
   ⟨1, { Pair.reset with run := some (runs []), pc := 64, imem := progAt (loom 6 0 1 0) }, runs [], stp,
       { place := .loomOperands, mask := 1 }, 1, 4, loom 6 0 1 0, noErr, inPair 1 ({ Pair.reset with
       run := some (runs []), pc := 64, imem := progAt (loom 6 0 1 0) }) (quiet (weftSrc .a 0x11) (running)),
       by and_intros <;> first | exact (Or.inr ⟨rfl, by decide +kernel⟩) | decide +kernel⟩,
   ⟨1, { Pair.reset with run := some (runs []), pc := 64, imem := progAt (0) }, runs [], stp, none, 1, noErr, inPair 1 ({ Pair.reset with
       run := some (runs []), pc := 64, imem := progAt (0) }) (quiet (weftSrc .a 0x15) (running)),
       by and_intros <;> first | exact (Or.inl (by decide +kernel)) | decide +kernel⟩,
   ⟨1, { Pair.reset with run := some (runs []), pc := 64, imem := progAt (0xFE00000B) }, runs [], stp, none, 1, noErr, inPair 1
       ({ Pair.reset with run := some (runs []), pc := 64, imem := progAt (0xFE00000B) }) (quiet (weftSrc .a 0x15) (running)),
       by and_intros <;> first | exact (Or.inr ⟨4, 0xFE00000B, by decide +kernel, by decide +kernel, by decide +kernel⟩) | decide +kernel⟩,
   ⟨1, { Pair.reset with run := some (runs []), pc := 64, imem := progAt (encR 1 3 2 7 1 0x53), frm := 5 }, runs [], stp, none, 1, noErr,
       inPair 1 ({ Pair.reset with run := some (runs []), pc := 64, imem := progAt (encR 1 3 2 7 1 0x53), frm := 5 }) (quiet
       (weftSrc .a 0x15) (running)),
       by and_intros <;> first | exact (Or.inr ⟨4, encR 1 3 2 7 1 0x53, by decide +kernel, by decide +kernel, by decide +kernel⟩) | decide +kernel⟩,
   ⟨1, { Pair.reset with run := some (runs []), pc := 64, imem := progAt (encS 8 6 5 3 0x23) }, runs [], stp, 1, 5, 6, 8, inPair 1
       ({ Pair.reset with run := some (runs []), pc := 64, imem := progAt (encS 8 6 5 3 0x23) }) (quiet (weftSrc .a 0x15) (running)),
       by and_intros <;> first | exact (Or.inl ⟨8, by decide +kernel⟩) | decide +kernel⟩,
   ⟨1, { Pair.reset with
       run := some (runs []), pc := 64, imem := progAt (encS 8 6 5 3 0x23), x := ((List.replicate 32 (0 : Dword)).set 5 0x20000000) },
       runs [], stp, 1, 5, 6, 8, inPair 1 ({ Pair.reset with
       run := some (runs []), pc := 64, imem := progAt (encS 8 6 5 3 0x23), x := ((List.replicate 32 (0 : Dword)).set 5 0x20000000) })
       (quiet (weftSrc .a 0x15) (running)), by and_intros <;> first | exact (Or.inr (by decide +kernel)) | decide +kernel⟩,
   ⟨1, { Pair.reset with run := some (runs []), pc := 64, imem := progAt (encR 0 6 5 0 7 0x33) }, runs [], stp, none, 1, noErr, inPair 1
       ({ Pair.reset with run := some (runs []), pc := 64, imem := progAt (encR 0 6 5 0 7 0x33) }) (quiet (weftSrc .a 0x15) (running)),
       by decide +kernel⟩,
   ⟨1, { Pair.reset with run := some (runs []), pc := 64, imem := progAt (encR 0 6 5 0 7 0x33) }, runs [], stp, 1, 4, encR 0 6 5 0 7 0x33,
       4096, .b, 0x61, ((State.coreStep (inPair 1
       ({ Pair.reset with run := some (runs []), pc := 64, imem := progAt (encR 0 6 5 0 7 0x33) }) (quiet (weftSrc .b 0x20)
       ({ (running : State) with
       drafts := [{ (ent : Entry) with
       draft := { (drf : Draft) with
       programs := [{ (prog : Program) with wins := [(1, true)] }], tensors := [{ (Tensor.zero : Tensor) with
       rows := 4, rowLen := 8, rowPitch := 8, placement := 0 }, { (Tensor.zero : Tensor) with
       type := 3, rows := 4, rowLen := 8, rowPitch := 16, placement := 1 }], placements := [Placement.zero,
       { (Placement.zero : Placement) with dies := 3, sramA := 4096, sramB := 4096 }] } }] }))) 1 ({ Pair.reset with
       run := some (runs []), pc := 64, imem := progAt (encR 0 6 5 0 7 0x33) }) stp (runs []) 4 (encR 0 6 5 0 7 0x33)).getD
       { pair := Pair.reset }), inPair 1 ({ Pair.reset with run := some (runs []), pc := 64, imem := progAt (encR 0 6 5 0 7 0x33) }) (quiet
       (weftSrc .b 0x20) ({ (running : State) with
       drafts := [{ (ent : Entry) with
       draft := { (drf : Draft) with
       programs := [{ (prog : Program) with wins := [(1, true)] }], tensors := [{ (Tensor.zero : Tensor) with
       rows := 4, rowLen := 8, rowPitch := 8, placement := 0 }, { (Tensor.zero : Tensor) with
       type := 3, rows := 4, rowLen := 8, rowPitch := 16, placement := 1 }], placements := [Placement.zero,
       { (Placement.zero : Placement) with dies := 3, sramA := 4096, sramB := 4096 }] } }] })), by decide +kernel⟩,
   ⟨1, 5, { Pair.reset with run := some (runs []), pc := 64, imem := progAt (encI 0xC01 0 2 5 0x73) }, runs [], stp, at' 77 (inPair 1
       ({ Pair.reset with run := some (runs []), pc := 64, imem := progAt (encI 0xC01 0 2 5 0x73) }) (running)), by decide +kernel⟩,
   ⟨1, 0, { Pair.reset with run := some (runs []), pc := 64, imem := progAt (encI 0xC01 0 2 0 0x73) }, runs [], stp, at' 77 (inPair 1
       ({ Pair.reset with run := some (runs []), pc := 64, imem := progAt (encI 0xC01 0 2 0 0x73) }) (running)), by decide +kernel⟩,
   ⟨1, { Pair.reset with run := some (runs []), pc := 64, imem := progAt (0x73) }, runs [], stp, inPair 1 ({ Pair.reset with
       run := some (runs []), pc := 64, imem := progAt (0x73) }) (running),
       by and_intros <;> first | exact (fun d y hy h e => absurd e (by have q := (by cases d <;> decide +kernel : ∀ y ∈ ((inPair 1 ({ Pair.reset with run := some (runs []), pc := 64, imem := progAt (0x73) }) (running)).weft d).pairs, y.stall = none) y hy; rw [q]; exact nofun)) | decide +kernel⟩,
   ⟨1, { Pair.reset with run := some (runs []), pc := 64, imem := progAt (0x73), x := ((List.replicate 32 (0 : Dword)).set 17 1) },
       runs [], stp, inPair 1 ({ Pair.reset with
       run := some (runs []), pc := 64, imem := progAt (0x73), x := ((List.replicate 32 (0 : Dword)).set 17 1) }) (quiet (weftSrc .a 0x15)
       (running)), by decide +kernel⟩,
   ⟨1, { Pair.reset with run := some (runs []), pc := 64, imem := progAt (0x100073) }, runs [], stp, inPair 1 ({ Pair.reset with
       run := some (runs []), pc := 64, imem := progAt (0x100073) }) (quiet (weftSrc .a 0x15) (running)), by decide +kernel⟩,
   ⟨1, { Pair.reset with run := some (runs []), pc := 64 }, runs [], stp, inPair 1 ({ Pair.reset with run := some (runs []), pc := 64 })
       (quiet (weftSrc .a 0x19) (running)), by decide +kernel⟩,
   ⟨1, { Pair.reset with run := some (runs []), pc := 64, stall := some (.hinge 0) }, runs [], stp, inPair 1 ({ Pair.reset with
       run := some (runs []), pc := 64, stall := some (.hinge 0) }) (quiet (weftSrc .a 0x19) (running)), by decide +kernel⟩,
   ⟨1, { Pair.reset with run := some (runs []), pc := 64, stall := some .all }, inPair 1 ({ Pair.reset with
       run := some (runs []), pc := 64, stall := some .all }) (running), by and_intros <;> first | exact (Or.inl rfl) | decide +kernel⟩,
   ⟨1, { Pair.reset with run := some (runs []), pc := 64, stall := some (.ticket 5) }, inPair 1 ({ Pair.reset with
       run := some (runs []), pc := 64, stall := some (.ticket 5) }) (running),
       by and_intros <;> first | exact (Or.inr ⟨5, rfl⟩) | decide +kernel⟩⟩

/-- States and operands that meet the hypotheses of LoomInstructionsIssue. -/
theorem witness_LoomInstructionsIssue :
    (∃ (n : Nat) (rd : Nat) (rs1 : Nat) (l : Nat) (p : Pair) (r : Running) (x : Step) (s : State), s.executes n p r x ∧ l =
        (p.getX rs1).toNat % 2 ^ 14 ∧ l < (s.stepDraft x).layers.length ∧ s.pairTickets n < 64 ∧ (∃ k, k < 256 ∧ (s.weft
        (weftOf n)).tickets.contains k = false) ∧ s.holdUs = 0 ∧ p.spells n Move.none (.lmOp n rd rs1) = true) ∧
    (∃ (n : Nat) (rd : Nat) (rs1 : Nat) (l : Nat) (p : Pair) (r : Running) (x : Step) (s : State), s.executes n p r x ∧ l =
        (p.getX rs1).toNat % 2 ^ 14 ∧ l < (s.stepDraft x).layers.length ∧ s.pairTickets n < 64 ∧ (∃ k, k < 256 ∧ (s.weft
        (weftOf n)).tickets.contains k = false) ∧ s.holdUs = 0 ∧ p.spells n Move.none (.lmOp n rd rs1) = true) ∧
    (∃ (n : Nat) (rd : Nat) (rs1 : Nat) (l : Nat) (p : Pair) (r : Running) (x : Step) (s : State), s.executes n p r x ∧ l =
        (p.getX rs1).toNat % 2 ^ 14 ∧ l < (s.stepDraft x).layers.length ∧ s.pairTickets n < 64 ∧ (∃ k, k < 256 ∧ (s.weft
        (weftOf n)).tickets.contains k = false) ∧ p.spells n Move.none (.lmReed n rd rs1) = true) ∧
    (∃ (n : Nat) (rd : Nat) (rs1 : Nat) (l : Nat) (p : Pair) (r : Running) (x : Step) (s : State), s.executes n p r x ∧ l =
        (p.getX rs1).toNat % 2 ^ 14 ∧ l < (s.stepDraft x).layers.length ∧ s.pairTickets n < 64 ∧ (∃ k, k < 256 ∧ (s.weft
        (weftOf n)).tickets.contains k = false) ∧ p.spells n Move.none (.lmFin n rd rs1) = true) ∧
    (∃ (n : Nat) (rd : Nat) (rs1 : Nat) (l : Nat) (p : Pair) (r : Running) (x : Step) (s : State), s.executes n p r x ∧ l =
        (p.getX rs1).toNat % 2 ^ 14 ∧ l < (s.stepDraft x).layers.length ∧ s.pairTickets n < 64 ∧ (∃ k, k < 256 ∧ (s.weft
        (weftOf n)).tickets.contains k = false) ∧ p.spells n Move.none (.lmOp n rd rs1) = true) ∧
    (∃ (n : Nat) (rd : Nat) (rs1 : Nat) (i : Instr) (p : Pair) (r : Running) (x : Step) (s : State),
        (i = .lmOp n rd rs1 ∨ i = .lmReed n rd rs1 ∨ i = .lmFin n rd rs1) ∧ s.performs n p r x Move.none i ∧
        (s.stepDraft x).layers.length ≤ (p.getX rs1).toNat % 2 ^ 14 ∧ s.killable x (weftSrc (weftOf n) (0x14 + n % 4))) ∧
    (∃ (n : Nat) (rd : Nat) (rs1 : Nat) (i : Instr) (p : Pair) (r : Running) (x : Step) (s : State),
        (i = .lmOp n rd rs1 ∨ i = .lmReed n rd rs1 ∨ i = .lmFin n rd rs1) ∧ s.performs n p r x Move.none i ∧
        (s.stepDraft x).layers.length ≤ (p.getX rs1).toNat % 2 ^ 14 ∧ s.killable x (weftSrc (weftOf n) (0x14 + n % 4))) ∧
    (∃ (n : Nat) (rd : Nat) (rs1 : Nat) (i : Instr) (p : Pair) (r : Running) (x : Step) (s : State),
        (i = .lmOp n rd rs1 ∨ i = .lmReed n rd rs1 ∨ i = .lmFin n rd rs1) ∧ s.performs n p r x Move.none i ∧
        (s.stepDraft x).layers.length ≤ (p.getX rs1).toNat % 2 ^ 14 ∧ s.killable x (weftSrc (weftOf n) (0x14 + n % 4))) ∧
    (∃ (n : Nat) (rd : Nat) (rs1 : Nat) (l : Nat) (p : Pair) (r : Running) (x : Step) (u : OpUnit) (s : State), s.executes n p r x ∧ l =
        (p.getX rs1).toNat % 2 ^ 14 ∧ l < (s.stepDraft x).layers.length ∧ ((s.stepDraft x).layer l).unit = u ∧
        (64 ≤ s.pairTickets n ∨ s.queueFull (weftOf n) u = true) ∧ p.spells n Move.none (.lmReed n rd rs1) = true) ∧
    (∃ (n : Nat) (rd : Nat) (rs1 : Nat) (l : Nat) (p : Pair) (r : Running) (x : Step) (u : OpUnit) (s : State), s.executes n p r x ∧ l =
        (p.getX rs1).toNat % 2 ^ 14 ∧ l < (s.stepDraft x).layers.length ∧ ((s.stepDraft x).layer l).unit = u ∧
        (64 ≤ s.pairTickets n ∨ s.queueFull (weftOf n) u = true) ∧ p.spells n Move.none (.lmOp n rd rs1) = true) ∧
    (∃ (n : Nat) (rd : Nat) (rs1 : Nat) (l : Nat) (p : Pair) (r : Running) (x : Step) (u : OpUnit) (s : State), s.executes n p r x ∧ l =
        (p.getX rs1).toNat % 2 ^ 14 ∧ l < (s.stepDraft x).layers.length ∧ ((s.stepDraft x).layer l).unit = u ∧
        (64 ≤ s.pairTickets n ∨ s.queueFull (weftOf n) u = true) ∧ p.spells n Move.none (.lmFin n rd rs1) = true) ∧
    (∃ (n : Nat) (rd : Nat) (rs1 : Nat) (rs2 : Nat) (pl : Nat) (part : Nat) (key : Nat) (pr : Placement) (p : Pair) (r : Running)
        (x : Step) (s : State), s.executes n p r x ∧ pl = (p.getX rs1).toNat ∧ part = (p.getX rs2).toNat ∧
        (s.stepDraft x).placements[pl]? = some pr ∧ part < pr.parts ∧ key = 2 * pl + dieNo (weftOf n) - 1 ∧ s.pairTickets n < 64 ∧
        s.queueFull (weftOf n) .stage = false ∧ (∃ k, k < 256 ∧ (s.weft (weftOf n)).tickets.contains k = false) ∧ p.spells n Move.none
        (.lmStage n rd rs1 rs2) = true) ∧
    (∃ (n : Nat) (rd : Nat) (rs1 : Nat) (rs2 : Nat) (pl : Nat) (part : Nat) (key : Nat) (pr : Placement) (p : Pair) (r : Running)
        (x : Step) (s : State), s.executes n p r x ∧ pl = (p.getX rs1).toNat ∧ part = (p.getX rs2).toNat ∧
        (s.stepDraft x).placements[pl]? = some pr ∧ part < pr.parts ∧ key = 2 * pl + dieNo (weftOf n) - 1 ∧ s.pairTickets n < 64 ∧
        s.queueFull (weftOf n) .stage = false ∧ (∃ k, k < 256 ∧ (s.weft (weftOf n)).tickets.contains k = false) ∧ p.spells n Move.none
        (.lmEvict n rd rs1 rs2) = true) ∧
    (∃ (n : Nat) (rd : Nat) (rs1 : Nat) (rs2 : Nat) (i : Instr) (p : Pair) (r : Running) (x : Step) (s : State),
        (i = .lmStage n rd rs1 rs2 ∨ i = .lmEvict n rd rs1 rs2) ∧ s.performs n p r x Move.none i ∧ ((s.stepDraft x).placements.getD
        (p.getX rs1).toNat Placement.zero).parts ≤ (p.getX rs2).toNat ∧ s.killable x (weftSrc (weftOf n) (0x14 + n % 4))) ∧
    (∃ (n : Nat) (rd : Nat) (rs1 : Nat) (rs2 : Nat) (i : Instr) (p : Pair) (r : Running) (x : Step) (s : State),
        (i = .lmStage n rd rs1 rs2 ∨ i = .lmEvict n rd rs1 rs2) ∧ s.performs n p r x Move.none i ∧ ((s.stepDraft x).placements.getD
        (p.getX rs1).toNat Placement.zero).parts ≤ (p.getX rs2).toNat ∧ s.killable x (weftSrc (weftOf n) (0x14 + n % 4))) ∧
    (∃ (n : Nat) (rd : Nat) (rs1 : Nat) (rs2 : Nat) (j : Nat) (row : Nat) (m : Nat) (ch : Nat) (p : Pair) (r : Running) (x : Step)
        (s : State), s.executes n p r x ∧ 1 ≤ m ∧ m ≤ 4096 ∧ 1 ≤ ch ∧ ch ≤ 4096 ∧ j < (s.stepDraft x).tensors.length ∧
        ((s.stepDraft x).tensor j).type = 0 ∧ row + m ≤ ((s.stepDraft x).tensor j).rows ∧ ch ≤ ((s.stepDraft x).tensor j).rowLen ∧
        (p.getX rs2).toNat + 4 * m * ch ≤ 131072 ∧ s.pairTickets n < 64 ∧ s.queueFull (weftOf n) .reed = false ∧ (∃ k, k < 256 ∧ (s.weft
        (weftOf n)).tickets.contains k = false) ∧ p.spells n { tensor := j, row := row, count := m, channels := ch } (.lmDec n rd rs1 rs2
        { tensor := j, row := row, count := m, channels := ch }) = true) ∧
    (∃ (n : Nat) (rd : Nat) (rs1 : Nat) (rs2 : Nat) (j : Nat) (row : Nat) (m : Nat) (ch : Nat) (p : Pair) (r : Running) (x : Step)
        (s : State), s.executes n p r x ∧ 1 ≤ m ∧ m ≤ 4096 ∧ 1 ≤ ch ∧ ch ≤ 4096 ∧ j < (s.stepDraft x).tensors.length ∧
        ((s.stepDraft x).tensor j).type = 0 ∧ row + m ≤ ((s.stepDraft x).tensor j).rows ∧ ch ≤ ((s.stepDraft x).tensor j).rowLen ∧
        (p.getX rs2).toNat + 4 * m * ch ≤ 131072 ∧ s.pairTickets n < 64 ∧ s.queueFull (weftOf n) .reed = false ∧ (∃ k, k < 256 ∧ (s.weft
        (weftOf n)).tickets.contains k = false) ∧ p.spells n { tensor := j, row := row, count := m, channels := ch } (.lmEnc n rd rs1 rs2
        { tensor := j, row := row, count := m, channels := ch }) = true) ∧
    (∃ (n : Nat) (rd : Nat) (rs1 : Nat) (rs2 : Nat) (mv : Move) (i : Instr) (p : Pair) (r : Running) (x : Step) (s : State),
        (i = .lmDec n rd rs1 rs2 mv ∨ i = .lmEnc n rd rs1 rs2 mv) ∧ s.performs n p r x mv i ∧ (mv.count = 0 ∨ mv.channels = 0) ∧
        s.killable x (weftSrc (weftOf n) (0x14 + n % 4))) ∧
    (∃ (n : Nat) (rd : Nat) (rs1 : Nat) (rs2 : Nat) (mv : Move) (i : Instr) (p : Pair) (r : Running) (x : Step) (s : State),
        (i = .lmDec n rd rs1 rs2 mv ∨ i = .lmEnc n rd rs1 rs2 mv) ∧ s.performs n p r x mv i ∧ (mv.count = 0 ∨ mv.channels = 0) ∧
        s.killable x (weftSrc (weftOf n) (0x14 + n % 4))) ∧
    (∃ (n : Nat) (rd : Nat) (rs1 : Nat) (rs2 : Nat) (m : Nat) (p : Pair) (y : Pair) (r : Running) (x : Step) (pg : Program) (s : State),
        s.performs n p r x Move.none (.lmSpawn n rd rs1 rs2) ∧ (s.stepDraft x).programs[(p.getX rs1).toNat % 256]? = some pg ∧
        s.nextPair n = m ∧ m ≠ n ∧ s.pair? m = some y ∧ y.run = none ∧ y.queued = [] ∧ s.pairTickets n < 64 ∧ (∃ k, k < 256 ∧ (s.weft
        (weftOf n)).tickets.contains k = false)) ∧
    (∃ (n : Nat) (rd : Nat) (rs1 : Nat) (rs2 : Nat) (p : Pair) (r : Running) (x : Step) (s : State), s.performs n p r x Move.none
        (.lmSpawn n rd rs1 rs2) ∧ (s.stepDraft x).programs.length ≤ (p.getX rs1).toNat % 256 ∧ s.killable x (weftSrc (weftOf n)
        (0x14 + n % 4))) ∧
    (∃ (n : Nat) (rd : Nat) (a : Nat) (b : Nat) (f : Nat) (mv : Move) (w : BitVec 32), rd < 32 ∧ a < 32 ∧ b < 32 ∧ f < 128 ∧
        w = BitVec.ofNat 32 (f * 2 ^ 25 + b * 2 ^ 20 + a * 2 ^ 15 + rd * 2 ^ 7 + 0x0B)) :=
  ⟨⟨1, 5, 1, 0, { Pair.reset with
      run := some (runs []), pc := 64, imem := progAt (loom 0 5 1 0), x := ((List.replicate 32 (0 : Dword)).set 1 16384) }, runs [],
      { stp with onB := true }, inPair 1 ({ Pair.reset with
      run := some (runs []), pc := 64, imem := progAt (loom 0 5 1 0), x := ((List.replicate 32 (0 : Dword)).set 1 16384) })
      (({ (running : State) with
      drafts := [{ (ent : Entry) with
      draft := { (drf : Draft) with layers := drf.layers.map (fun l => { (l : Layer) with gatherable := false }) } }],
      steps := [{ (stp : Step) with onB := true }] }).setReg oGatherCtl 0#32),
      by and_intros <;> first | exact (⟨0, by decide +kernel⟩) | decide +kernel⟩,
   ⟨1, 5, 1, 0, { Pair.reset with
       run := some (runs []), pc := 64, imem := progAt (loom 0 5 1 0), x := ((List.replicate 32 (0 : Dword)).set 1 16384) }, runs [],
       { stp with onB := false }, inPair 1 ({ Pair.reset with
       run := some (runs []), pc := 64, imem := progAt (loom 0 5 1 0), x := ((List.replicate 32 (0 : Dword)).set 1 16384) })
       (({ (running : State) with
       drafts := [{ (ent : Entry) with
       draft := { (drf : Draft) with layers := drf.layers.map (fun l => { (l : Layer) with gatherable := true }) } }],
       steps := [{ (stp : Step) with onB := false }] }).setReg oGatherCtl 0#32),
       by and_intros <;> first | exact (⟨0, by decide +kernel⟩) | decide +kernel⟩,
   ⟨1, 5, 1, 1, { Pair.reset with
       run := some (runs []), pc := 64, imem := progAt (loom 1 5 1 0), x := ((List.replicate 32 (0 : Dword)).set 1 1) }, runs [], stp,
       inPair 1 ({ Pair.reset with
       run := some (runs []), pc := 64, imem := progAt (loom 1 5 1 0), x := ((List.replicate 32 (0 : Dword)).set 1 1) }) (running),
       by and_intros <;> first | exact (⟨0, by decide +kernel⟩) | decide +kernel⟩,
   ⟨1, 5, 1, 2, { Pair.reset with
       run := some (runs []), pc := 64, imem := progAt (loom 2 5 1 0), x := ((List.replicate 32 (0 : Dword)).set 1 2) }, runs [], stp,
       inPair 1 ({ Pair.reset with
       run := some (runs []), pc := 64, imem := progAt (loom 2 5 1 0), x := ((List.replicate 32 (0 : Dword)).set 1 2) }) (running),
       by and_intros <;> first | exact (⟨0, by decide +kernel⟩) | decide +kernel⟩,
   ⟨1, 5, 1, 0, { Pair.reset with
       run := some (runs []), pc := 64, imem := progAt (loom 0 5 1 0), x := ((List.replicate 32 (0 : Dword)).set 1 0) }, runs [],
       { stp with lc := false }, inPair 1 ({ Pair.reset with
       run := some (runs []), pc := 64, imem := progAt (loom 0 5 1 0), x := ((List.replicate 32 (0 : Dword)).set 1 0) }) ((({ running with
       drafts := [{ (ent : Entry) with
       draft := { (drf : Draft) with layers := drf.layers.map (fun l => { (l : Layer) with gatherable := true, gatherRows := 5 }) } }],
       steps := [{ (stp : Step) with lc := false }], ctxs := [ctx 1 fA false, ctx 2 fA true] }).setReg oGatherCtl 5#32)),
       by and_intros <;> first | exact (⟨0, by decide +kernel⟩) | decide +kernel⟩,
   ⟨1, 5, 1, .lmOp 1 5 1, { Pair.reset with
       run := some (runs []), pc := 64, imem := progAt (loom 0 5 1 0), x := ((List.replicate 32 (0 : Dword)).set 1 3) }, runs [], stp,
       inPair 1 ({ Pair.reset with
       run := some (runs []), pc := 64, imem := progAt (loom 0 5 1 0), x := ((List.replicate 32 (0 : Dword)).set 1 3) }) (quiet
       (weftSrc .a 0x15) (running)), by decide +kernel⟩,
   ⟨1, 5, 1, .lmReed 1 5 1, { Pair.reset with
       run := some (runs []), pc := 64, imem := progAt (loom 1 5 1 0), x := ((List.replicate 32 (0 : Dword)).set 1 3) }, runs [], stp,
       inPair 1 ({ Pair.reset with
       run := some (runs []), pc := 64, imem := progAt (loom 1 5 1 0), x := ((List.replicate 32 (0 : Dword)).set 1 3) }) (quiet
       (weftSrc .a 0x15) (running)), by decide +kernel⟩,
   ⟨1, 5, 1, .lmFin 1 5 1, { Pair.reset with
       run := some (runs []), pc := 64, imem := progAt (loom 2 5 1 0), x := ((List.replicate 32 (0 : Dword)).set 1 3) }, runs [], stp,
       inPair 1 ({ Pair.reset with
       run := some (runs []), pc := 64, imem := progAt (loom 2 5 1 0), x := ((List.replicate 32 (0 : Dword)).set 1 3) }) (quiet
       (weftSrc .a 0x15) (running)), by decide +kernel⟩,
   ⟨1, 5, 1, 1, { Pair.reset with
       run := some (runs []), pc := 64, imem := progAt (loom 1 5 1 0), x := ((List.replicate 32 (0 : Dword)).set 1 1) }, runs [], stp,
       .reed, inPair 1 ({ Pair.reset with
       run := some (runs []), pc := 64, imem := progAt (loom 1 5 1 0), x := ((List.replicate 32 (0 : Dword)).set 1 1) })
       ({ (running : State) with
       wa := { (dieUp : WeftDie) with
       reedQ := [{ (stp.opOf 1 (.layer 0) 4 9 : Op) with
       members := List.replicate 64 { step := 7, pair := 1, ticket := 9, rows := 4 } }] } }), by decide +kernel⟩,
   ⟨1, 5, 1, 0, { Pair.reset with
       run := some (runs []), pc := 64, imem := progAt (loom 0 5 1 0), x := ((List.replicate 32 (0 : Dword)).set 1 0) }, runs [], stp,
       .array, inPair 1 ({ Pair.reset with
       run := some (runs []), pc := 64, imem := progAt (loom 0 5 1 0), x := ((List.replicate 32 (0 : Dword)).set 1 0) })
       ({ (running : State) with wa := { (dieUp : WeftDie) with arrayQ := List.replicate 16 (stp.opOf 1 (.layer 0) 4 9) } }),
       by decide +kernel⟩,
   ⟨1, 5, 1, 2, { Pair.reset with
       run := some (runs []), pc := 64, imem := progAt (loom 2 5 1 0), x := ((List.replicate 32 (0 : Dword)).set 1 2) }, runs [], stp,
       .finish, inPair 1 ({ Pair.reset with
       run := some (runs []), pc := 64, imem := progAt (loom 2 5 1 0), x := ((List.replicate 32 (0 : Dword)).set 1 2) })
       ({ (running : State) with wa := { (dieUp : WeftDie) with finishQ := List.replicate 16 (stp.opOf 1 (.layer 2) 4 9) } }),
       by decide +kernel⟩,
   ⟨1, 5, 1, 2, 0, 1, 0, { (Placement.zero : Placement) with
       home := 1, dies := 3, parts := 2, partBytes := 16, window := 2, stages := 4, evicts := 4 }, { Pair.reset with
       run := some (runs []), pc := 64, imem := progAt (loom 3 5 1 2), x := (((List.replicate 32 (0 : Dword)).set 1 0).set 2 1) }, runs [],
       stp, inPair 1 ({ Pair.reset with
       run := some (runs []), pc := 64, imem := progAt (loom 3 5 1 2), x := (((List.replicate 32 (0 : Dword)).set 1 0).set 2 1) })
       (running), by and_intros <;> first | exact (⟨0, by decide +kernel⟩) | decide +kernel⟩,
   ⟨1, 5, 1, 2, 0, 1, 0, { (Placement.zero : Placement) with
       home := 1, dies := 3, parts := 2, partBytes := 16, window := 2, stages := 4, evicts := 4 }, { Pair.reset with
       run := some (runs []), pc := 64, imem := progAt (loom 4 5 1 2), x := (((List.replicate 32 (0 : Dword)).set 1 0).set 2 1) }, runs [],
       stp, inPair 1 ({ Pair.reset with
       run := some (runs []), pc := 64, imem := progAt (loom 4 5 1 2), x := (((List.replicate 32 (0 : Dword)).set 1 0).set 2 1) })
       (running), by and_intros <;> first | exact (⟨0, by decide +kernel⟩) | decide +kernel⟩,
   ⟨1, 5, 1, 2, .lmStage 1 5 1 2, { Pair.reset with
       run := some (runs []), pc := 64, imem := progAt (loom 3 5 1 2), x := (((List.replicate 32 (0 : Dword)).set 1 0).set 2 2) }, runs [],
       stp, inPair 1 ({ Pair.reset with
       run := some (runs []), pc := 64, imem := progAt (loom 3 5 1 2), x := (((List.replicate 32 (0 : Dword)).set 1 0).set 2 2) }) (quiet
       (weftSrc .a 0x15) (running)), by decide +kernel⟩,
   ⟨1, 5, 1, 2, .lmEvict 1 5 1 2, { Pair.reset with
       run := some (runs []), pc := 64, imem := progAt (loom 4 5 1 2), x := (((List.replicate 32 (0 : Dword)).set 1 0).set 2 2) }, runs [],
       stp, inPair 1 ({ Pair.reset with
       run := some (runs []), pc := 64, imem := progAt (loom 4 5 1 2), x := (((List.replicate 32 (0 : Dword)).set 1 0).set 2 2) }) (quiet
       (weftSrc .a 0x15) (running)), by decide +kernel⟩,
   ⟨1, 5, 1, 2, 0, 3, 1, 4, { Pair.reset with
       run := some (runs []), pc := 64, imem := progAt (loom 9 5 1 2), x := ((List.replicate 32 (0 : Dword)).set 2 131056) }, runs [], stp,
       inPair 1 ({ Pair.reset with
       run := some (runs []), pc := 64, imem := progAt (loom 9 5 1 2), x := ((List.replicate 32 (0 : Dword)).set 2 131056) }) (running),
       by and_intros <;> first | exact (⟨0, by decide +kernel⟩) | decide +kernel⟩,
   ⟨1, 5, 1, 2, 0, 3, 1, 4, { Pair.reset with
       run := some (runs []), pc := 64, imem := progAt (loom 10 5 1 2), x := ((List.replicate 32 (0 : Dword)).set 2 131056) }, runs [],
       stp, inPair 1 ({ Pair.reset with
       run := some (runs []), pc := 64, imem := progAt (loom 10 5 1 2), x := ((List.replicate 32 (0 : Dword)).set 2 131056) }) (running),
       by and_intros <;> first | exact (⟨0, by decide +kernel⟩) | decide +kernel⟩,
   ⟨1, 5, 1, 2, { tensor := 0, row := 0, count := 0, channels := 4 }, .lmDec 1 5 1 2 { tensor := 0, row := 0, count := 0, channels := 4 },
       { Pair.reset with run := some (runs []), pc := 64, imem := progAt (loom 9 5 1 2) }, runs [], stp, inPair 1 ({ Pair.reset with
       run := some (runs []), pc := 64, imem := progAt (loom 9 5 1 2) }) (quiet (weftSrc .a 0x15) (running)), by decide +kernel⟩,
   ⟨1, 5, 1, 2, { tensor := 0, row := 0, count := 1, channels := 0 }, .lmEnc 1 5 1 2 { tensor := 0, row := 0, count := 1, channels := 0 },
       { Pair.reset with run := some (runs []), pc := 64, imem := progAt (loom 10 5 1 2) }, runs [], stp, inPair 1 ({ Pair.reset with
       run := some (runs []), pc := 64, imem := progAt (loom 10 5 1 2) }) (quiet (weftSrc .a 0x15) (running)), by decide +kernel⟩,
   ⟨1, 5, 1, 2, 2, { Pair.reset with
       run := some (runs []), pc := 64, imem := progAt (loom 5 5 1 2), x := (((List.replicate 32 (0 : Dword)).set 1 257).set 2 9) },
       Pair.reset, runs [], stp, { (prog : Program) with entry := 96 }, inPair 1 ({ Pair.reset with
       run := some (runs []), pc := 64, imem := progAt (loom 5 5 1 2), x := (((List.replicate 32 (0 : Dword)).set 1 257).set 2 9) })
       (running), by and_intros <;> first | exact (⟨0, by decide +kernel⟩) | decide +kernel⟩,
   ⟨1, 5, 1, 2, { Pair.reset with
       run := some (runs []), pc := 64, imem := progAt (loom 5 5 1 2), x := ((List.replicate 32 (0 : Dword)).set 1 255) }, runs [], stp,
       inPair 1 ({ Pair.reset with
       run := some (runs []), pc := 64, imem := progAt (loom 5 5 1 2), x := ((List.replicate 32 (0 : Dword)).set 1 255) }) (quiet
       (weftSrc .a 0x15) (running)), by decide +kernel⟩,
   ⟨1, 31, 31, 31, 127, { tensor := 0, row := 0, count := 1, channels := 1 }, 0xFFFF8F8B#32, by decide +kernel⟩⟩

/-- States and operands that meet the hypotheses of LoomInstructionsWaitAndRead. -/
theorem witness_LoomInstructionsWaitAndRead :
    (∃ (n : Nat) (rs1 : Nat) (p : Pair) (r : Running) (x : Step) (s : State), s.performs n p r x Move.none (.lmWait n rs1) ∧ (s.weft
        (weftOf n)).tickets.contains ((p.getX rs1).toNat % 256) = false) ∧
    (∃ (n : Nat) (rs1 : Nat) (p : Pair) (r : Running) (x : Step) (s : State), s.performs n p r x Move.none (.lmWait n rs1) ∧ (s.weft
        (weftOf n)).tickets.contains ((p.getX rs1).toNat % 256) = true) ∧
    (∃ (n : Nat) (p : Pair) (r : Running) (x : Step) (s : State), s.performs n p r x Move.none (.lmSync n) ∧ r.tickets = []) ∧
    (∃ (n : Nat) (p : Pair) (r : Running) (x : Step) (s : State), s.performs n p r x Move.none (.lmSync n) ∧ r.tickets ≠ []) ∧
    (∃ (n : Nat) (rd : Nat) (rs1 : Nat) (l : Nat) (p : Pair) (r : Running) (x : Step) (s : State), s.executes n p r x ∧ l =
        (p.getX rs1).toNat % 2 ^ 12 ∧ s.latchGrant x r l = true ∧ p.spells n Move.none (.lmLacq n rd rs1) = true) ∧
    (∃ (n : Nat) (rd : Nat) (rs1 : Nat) (l : Nat) (p : Pair) (r : Running) (x : Step) (s : State), s.executes n p r x ∧ l =
        (p.getX rs1).toNat % 2 ^ 12 ∧ s.latchGrant x r l = true ∧ p.spells n Move.none (.lmLacq n rd rs1) = true) ∧
    (∃ (n : Nat) (rd : Nat) (rs1 : Nat) (l : Nat) (p : Pair) (r : Running) (x : Step) (s : State), s.executes n p r x ∧ l =
        (p.getX rs1).toNat % 2 ^ 12 ∧ s.latchGrant x r l = true ∧ p.spells n Move.none (.lmLacq n rd rs1) = true) ∧
    (∃ (n : Nat) (rd : Nat) (rs1 : Nat) (l : Nat) (p : Pair) (r : Running) (x : Step) (s : State), s.executes n p r x ∧ l =
        (p.getX rs1).toNat % 2 ^ 12 ∧ s.latchGrant x r l = true ∧ p.spells n Move.none (.lmLrel n rs1) = true) ∧
    (∃ (n : Nat) (rd : Nat) (rs1 : Nat) (l : Nat) (p : Pair) (r : Running) (x : Step) (s : State), s.executes n p r x ∧ l =
        (p.getX rs1).toNat % 2 ^ 12 ∧ s.latchGrant x r l = true ∧ p.spells n Move.none (.lmLrel n rs1) = true) ∧
    (∃ (n : Nat) (rd : Nat) (rs1 : Nat) (i : Instr) (p : Pair) (r : Running) (x : Step) (s : State),
        (i = .lmLacq n rd rs1 ∨ i = .lmLrel n rs1) ∧ s.performs n p r x Move.none i ∧ s.latchGrant x r
        ((p.getX rs1).toNat % 2 ^ 12) = false ∧ s.killable x (weftSrc (weftOf n) (0x14 + n % 4))) ∧
    (∃ (n : Nat) (rd : Nat) (rs1 : Nat) (i : Instr) (p : Pair) (r : Running) (x : Step) (s : State),
        (i = .lmLacq n rd rs1 ∨ i = .lmLrel n rs1) ∧ s.performs n p r x Move.none i ∧ s.latchGrant x r
        ((p.getX rs1).toNat % 2 ^ 12) = false ∧ s.killable x (weftSrc (weftOf n) (0x14 + n % 4))) ∧
    (∃ (n : Nat) (rd : Nat) (sel : Nat) (p : Pair) (r : Running) (x : Step) (s : State), s.performs n p r x Move.none (.lmRd n rd sel)) ∧
    (∃ (n : Nat) (rd : Nat) (sel : Nat) (p : Pair) (r : Running) (x : Step) (s : State), s.performs n p r x Move.none (.lmRd n rd sel)) ∧
    (∃ (n : Nat) (rd : Nat) (sel : Nat) (p : Pair) (r : Running) (x : Step) (s : State), s.performs n p r x Move.none (.lmRd n rd sel)) ∧
    (∃ (n : Nat) (rd : Nat) (sel : Nat) (p : Pair) (r : Running) (x : Step) (s : State), s.performs n p r x Move.none (.lmRd n rd sel)) ∧
    (∃ (n : Nat) (rd : Nat) (sel : Nat) (p : Pair) (r : Running) (x : Step) (s : State), s.performs n p r x Move.none (.lmRd n rd sel)) ∧
    (∃ (n : Nat) (rd : Nat) (sel : Nat) (p : Pair) (r : Running) (x : Step) (s : State), s.performs n p r x Move.none (.lmRd n rd sel)) ∧
    (∃ (n : Nat) (rd : Nat) (sel : Nat) (p : Pair) (r : Running) (x : Step) (s : State), s.performs n p r x Move.none (.lmRd n rd sel)) ∧
    (∃ (n : Nat) (rd : Nat) (sel : Nat) (p : Pair) (r : Running) (x : Step) (s : State), s.performs n p r x Move.none (.lmRd n rd sel)) ∧
    (∃ (n : Nat) (rs1 : Nat) (p : Pair) (r : Running) (x : Step) (s : State), s.performs n p r x Move.none (.lmHinge n rs1) ∧
        x.stage = .running ∧ s.steps = [x] ∧ (p.getX rs1).toNat % 2 ^ 14 < (s.stepDraft x).hinges.length ∧ (∀ l ∈ s.latches,
        l.2 ≠ .program x.ctx)) ∧
    (∃ (n : Nat) (rs1 : Nat) (p : Pair) (r : Running) (x : Step) (s : State), s.performs n p r x Move.none (.lmHinge n rs1) ∧
        (p.getX rs1).toNat % 2 ^ 14 < (s.stepDraft x).hinges.length ∧ (∃ l ∈ s.latches, l.2 = .program x.ctx) ∧ s.killable x (weftSrc
        (weftOf n) 0x1E)) ∧
    (∃ (n : Nat) (rs1 : Nat) (p : Pair) (r : Running) (x : Step) (s : State), s.performs n p r x Move.none (.lmHinge n rs1) ∧
        (s.stepDraft x).hinges.length ≤ (p.getX rs1).toNat % 2 ^ 14 ∧ s.killable x (weftSrc (weftOf n) (0x14 + n % 4))) :=
  ⟨⟨1, 1, { Pair.reset with
      run := some (runs []), pc := 64, imem := progAt (loom 6 0 1 0), x := ((List.replicate 32 (0 : Dword)).set 1 261) }, runs [], stp,
      inPair 1 ({ Pair.reset with
      run := some (runs []), pc := 64, imem := progAt (loom 6 0 1 0), x := ((List.replicate 32 (0 : Dword)).set 1 261) }) (running),
      by decide +kernel⟩,
   ⟨1, 1, { Pair.reset with
       run := some (runs []), pc := 64, imem := progAt (loom 6 0 1 0), x := ((List.replicate 32 (0 : Dword)).set 1 261) }, runs [], stp,
       inPair 1 ({ Pair.reset with
       run := some (runs []), pc := 64, imem := progAt (loom 6 0 1 0), x := ((List.replicate 32 (0 : Dword)).set 1 261) }) ({ running with
       wa := { dieUp with tickets := [5] } }), by decide +kernel⟩,
   ⟨1, { Pair.reset with run := some (runs []), pc := 64, imem := progAt (loom 7 0 0 0) }, runs [], stp, inPair 1 ({ Pair.reset with
       run := some (runs []), pc := 64, imem := progAt (loom 7 0 0 0) }) (running), by decide +kernel⟩,
   ⟨1, { Pair.reset with run := some (runs [5]), pc := 64, imem := progAt (loom 7 0 0 0) }, runs [5], stp, inPair 1 ({ Pair.reset with
       run := some (runs [5]), pc := 64, imem := progAt (loom 7 0 0 0) }) (running), by decide +kernel⟩,
   ⟨1, 5, 1, 7, { Pair.reset with
       run := some (runs []), pc := 64, imem := progAt (loom 11 5 1 0), x := ((List.replicate 32 (0 : Dword)).set 1 4103) }, runs [], stp,
       inPair 1 ({ Pair.reset with
       run := some (runs []), pc := 64, imem := progAt (loom 11 5 1 0), x := ((List.replicate 32 (0 : Dword)).set 1 4103) }) (running),
       by decide +kernel⟩,
   ⟨1, 5, 1, 7, { Pair.reset with
       run := some (runs []), pc := 64, imem := progAt (loom 11 5 1 0), x := ((List.replicate 32 (0 : Dword)).set 1 4103) }, runs [], stp,
       inPair 1 ({ Pair.reset with
       run := some (runs []), pc := 64, imem := progAt (loom 11 5 1 0), x := ((List.replicate 32 (0 : Dword)).set 1 4103) })
       ({ (running : State) with latches := [(7, .program 1)] }), by decide +kernel⟩,
   ⟨1, 5, 1, 7, { Pair.reset with
       run := some (runs []), pc := 64, imem := progAt (loom 11 5 1 0), x := ((List.replicate 32 (0 : Dword)).set 1 7) }, runs [], stp,
       inPair 1 ({ Pair.reset with
       run := some (runs []), pc := 64, imem := progAt (loom 11 5 1 0), x := ((List.replicate 32 (0 : Dword)).set 1 7) })
       ({ (running : State) with latches := [(7, .program 2)] }), by decide +kernel⟩,
   ⟨1, 0, 1, 7, { Pair.reset with
       run := some (runs []), pc := 64, imem := progAt (loom 12 0 1 0), x := ((List.replicate 32 (0 : Dword)).set 1 7) }, runs [], stp,
       inPair 1 ({ Pair.reset with
       run := some (runs []), pc := 64, imem := progAt (loom 12 0 1 0), x := ((List.replicate 32 (0 : Dword)).set 1 7) }) (running),
       by decide +kernel⟩,
   ⟨1, 0, 1, 7, { Pair.reset with
       run := some (runs []), pc := 64, imem := progAt (loom 12 0 1 0), x := ((List.replicate 32 (0 : Dword)).set 1 7) }, runs [], stp,
       inPair 1 ({ Pair.reset with
       run := some (runs []), pc := 64, imem := progAt (loom 12 0 1 0), x := ((List.replicate 32 (0 : Dword)).set 1 7) })
       ({ (running : State) with latches := [(3, .program 2), (7, .program 1)] }), by decide +kernel⟩,
   ⟨1, 5, 1, .lmLacq 1 5 1, { Pair.reset with
       run := some (runs []), pc := 64, imem := progAt (loom 11 5 1 0), x := ((List.replicate 32 (0 : Dword)).set 1 8) }, runs [], stp,
       inPair 1 ({ Pair.reset with
       run := some (runs []), pc := 64, imem := progAt (loom 11 5 1 0), x := ((List.replicate 32 (0 : Dword)).set 1 8) }) (quiet
       (weftSrc .a 0x15) (running)), by decide +kernel⟩,
   ⟨1, 0, 1, .lmLrel 1 1, { Pair.reset with
       run := some (runs []), pc := 64, imem := progAt (loom 12 0 1 0), x := ((List.replicate 32 (0 : Dword)).set 1 8) }, runs [], stp,
       inPair 1 ({ Pair.reset with
       run := some (runs []), pc := 64, imem := progAt (loom 12 0 1 0), x := ((List.replicate 32 (0 : Dword)).set 1 8) }) (quiet
       (weftSrc .a 0x15) (running)), by decide +kernel⟩,
   ⟨1, 5, 0, { Pair.reset with run := some (runs []), pc := 64, imem := progAt (loom 13 5 0 0) }, runs [], stp, inPair 1 ({ Pair.reset with
       run := some (runs []), pc := 64, imem := progAt (loom 13 5 0 0) }) (running), by decide +kernel⟩,
   ⟨1, 5, 1, { Pair.reset with run := some (runs []), pc := 64, imem := progAt (loom 13 5 0 1) }, runs [], stp, inPair 1 ({ Pair.reset with
       run := some (runs []), pc := 64, imem := progAt (loom 13 5 0 1) }) (running), by decide +kernel⟩,
   ⟨1, 5, 2, { Pair.reset with run := some (runs []), pc := 64, imem := progAt (loom 13 5 0 2) }, runs [], stp, inPair 1 ({ Pair.reset with
       run := some (runs []), pc := 64, imem := progAt (loom 13 5 0 2) }) (running), by decide +kernel⟩,
   ⟨1, 5, 3, { Pair.reset with run := some (runs []), pc := 64, imem := progAt (loom 13 5 0 3) }, runs [], stp, inPair 1 ({ Pair.reset with
       run := some (runs []), pc := 64, imem := progAt (loom 13 5 0 3) }) (running), by decide +kernel⟩,
   ⟨1, 5, 4, { Pair.reset with run := some (runs []), pc := 64, imem := progAt (loom 13 5 0 4) }, runs [], stp, inPair 1 ({ Pair.reset with
       run := some (runs []), pc := 64, imem := progAt (loom 13 5 0 4) }) (running), by decide +kernel⟩,
   ⟨1, 5, 5, { Pair.reset with run := some (runs []), pc := 64, imem := progAt (loom 13 5 0 5) }, runs [], stp, inPair 1 ({ Pair.reset with
       run := some (runs []), pc := 64, imem := progAt (loom 13 5 0 5) }) (running), by decide +kernel⟩,
   ⟨1, 5, 6, { Pair.reset with run := some (runs []), pc := 64, imem := progAt (loom 13 5 0 6) }, runs [], stp, inPair 1 ({ Pair.reset with
       run := some (runs []), pc := 64, imem := progAt (loom 13 5 0 6) }) (running), by decide +kernel⟩,
   ⟨1, 5, 7, { Pair.reset with run := some (runs []), pc := 64, imem := progAt (loom 13 5 0 7) }, runs [], stp, inPair 1 ({ Pair.reset with
       run := some (runs []), pc := 64, imem := progAt (loom 13 5 0 7) }) (running), by decide +kernel⟩,
   ⟨1, 1,
       { Pair.reset with run := some (runs []), pc := 64, imem := progAt (loom 8 0 1 0), x := ((List.replicate 32 (0 : Dword)).set 1 0) },
       runs [], stp, inPair 1 ({ Pair.reset with
       run := some (runs []), pc := 64, imem := progAt (loom 8 0 1 0), x := ((List.replicate 32 (0 : Dword)).set 1 0) }) (running),
       by decide +kernel⟩,
   ⟨1, 1,
       { Pair.reset with run := some (runs []), pc := 64, imem := progAt (loom 8 0 1 0), x := ((List.replicate 32 (0 : Dword)).set 1 0) },
       runs [], stp, inPair 1 ({ Pair.reset with
       run := some (runs []), pc := 64, imem := progAt (loom 8 0 1 0), x := ((List.replicate 32 (0 : Dword)).set 1 0) })
       ({ (quiet (weftSrc .a 0x1E) (running) : State) with latches := [(3, .program 1)] }), by decide +kernel⟩,
   ⟨1, 1,
       { Pair.reset with run := some (runs []), pc := 64, imem := progAt (loom 8 0 1 0), x := ((List.replicate 32 (0 : Dword)).set 1 1) },
       runs [], stp, inPair 1 ({ Pair.reset with
       run := some (runs []), pc := 64, imem := progAt (loom 8 0 1 0), x := ((List.replicate 32 (0 : Dword)).set 1 1) }) (quiet
       (weftSrc .a 0x15) (running)), by decide +kernel⟩⟩

/-- States and operands that meet the hypotheses of QueuedOperationsStart. -/
theorem witness_QueuedOperationsStart :
    (∃ (d : Weft) (u : OpUnit) (o : Op) (rest : List Op) (s : State), (s.weft d).queue u = o :: rest ∧ s.unitFree d u = true ∧
        (s.weft d).runOf u = none ∧ s.opHeld d u o = false ∧ s.hazard d o = false) ∧
    (∃ (d : Weft) (u : OpUnit) (o : Op) (rest : List Op) (s : State), (s.weft d).queue u = o :: rest ∧ s.unitFree d u = true ∧
        (s.weft d).runOf u = none ∧ s.opHeld d u o = false ∧ s.hazard d o = false) ∧
    (∃ (d : Weft) (u : OpUnit) (o : Op) (rest : List Op) (s : State), (s.weft d).queue u = o :: rest ∧ s.unitFree d u = true ∧
        (s.weft d).runOf u = none ∧ s.opHeld d u o = false ∧ s.hazard d o = false) ∧
    (∃ (d : Weft) (u : OpUnit) (o : Op) (rest : List Op) (s : State), (s.weft d).queue u = o :: rest ∧ s.unitFree d u = true ∧
        (s.weft d).runOf u = none ∧ s.opHeld d u o = false ∧ s.hazard d o = false) ∧
    (∃ (d : Weft) (u : OpUnit) (o : Op) (rest : List Op) (m : OpMember) (x : Step) (k : OpCheck) (s : State),
        (s.weft d).queue u = o :: rest ∧ s.unitFree d u = true ∧ (s.weft d).runOf u = none ∧ s.opHeld d u o = false ∧ s.hazard d o = true ∧
        o.members = [m] ∧ s.step? m.step = some x ∧ s.killable x (weftSrc d 0x1C)) ∧
    (∃ (d : Weft) (o : Op) (rest : List Op) (m : OpMember) (x : Step) (l : Nat) (e : Nat) (cube : Nat) (col : Nat) (row : Nat) (chan : Nat)
        (n : Nat) (delta : Int) (k : OpCheck) (f : Layer → Env → Strike) (s : State), (s.weft d).arrayQ = o :: rest ∧
        s.unitFree d .array = true ∧ (s.weft d).arrayRun = none ∧ s.opHeld d .array o = false ∧ s.hazard d o = false ∧ o.members = [m] ∧
        m.base = 0 ∧ row < m.rows ∧ s.step? m.step = some x ∧ o.kind = .layer l ∧ ((s.stepDraft x).layer l).batches ≤ 1 ∧
        ((k = .product row chan n delta ∧ f = fun y v => v.strikeCube y n) ∨ (k = .lane row chan n delta ∧
        f = fun y v => v.strikeLane y n) ∨ (1 < ((s.stepDraft x).layer l).ks ∧ k = .combined row chan n delta ∧
        f = fun y v => v.strikeSum y n))) ∧
    (∃ (d : Weft) (o : Op) (rest : List Op) (m : OpMember) (x : Step) (l : Nat) (e : Nat) (cube : Nat) (col : Nat) (row : Nat) (chan : Nat)
        (n : Nat) (delta : Int) (k : OpCheck) (f : Layer → Env → Strike) (s : State), (s.weft d).arrayQ = o :: rest ∧
        s.unitFree d .array = true ∧ (s.weft d).arrayRun = none ∧ s.opHeld d .array o = false ∧ s.hazard d o = false ∧ o.members = [m] ∧
        m.base = 0 ∧ row < m.rows ∧ s.step? m.step = some x ∧ o.kind = .layer l ∧ ((s.stepDraft x).layer l).batches ≤ 1 ∧
        ((k = .product row chan n delta ∧ f = fun y v => v.strikeCube y n) ∨ (k = .lane row chan n delta ∧
        f = fun y v => v.strikeLane y n) ∨ (1 < ((s.stepDraft x).layer l).ks ∧ k = .combined row chan n delta ∧
        f = fun y v => v.strikeSum y n))) ∧
    (∃ (d : Weft) (o : Op) (rest : List Op) (m : OpMember) (x : Step) (l : Nat) (e : Nat) (cube : Nat) (col : Nat) (row : Nat) (chan : Nat)
        (n : Nat) (delta : Int) (k : OpCheck) (f : Layer → Env → Strike) (s : State), (s.weft d).arrayQ = o :: rest ∧
        s.unitFree d .array = true ∧ (s.weft d).arrayRun = none ∧ s.opHeld d .array o = false ∧ s.hazard d o = false ∧ o.members = [m] ∧
        m.base = 0 ∧ row < m.rows ∧ s.step? m.step = some x ∧ o.kind = .layer l ∧ ((s.stepDraft x).layer l).batches ≤ 1 ∧
        ((k = .product row chan n delta ∧ f = fun y v => v.strikeCube y n) ∨ (k = .lane row chan n delta ∧
        f = fun y v => v.strikeLane y n) ∨ (1 < ((s.stepDraft x).layer l).ks ∧ k = .combined row chan n delta ∧
        f = fun y v => v.strikeSum y n))) ∧
    (∃ (d : Weft) (o : Op) (rest : List Op) (m : OpMember) (x : Step) (l : Nat) (e : Nat) (cube : Nat) (col : Nat) (row : Nat) (chan : Nat)
        (n : Nat) (delta : Int) (k : OpCheck) (f : Layer → Env → Strike) (s : State), (s.weft d).arrayQ = o :: rest ∧
        s.unitFree d .array = true ∧ (s.weft d).arrayRun = none ∧ s.opHeld d .array o = false ∧ s.hazard d o = false ∧ o.members = [m] ∧
        m.base = 0 ∧ row < m.rows ∧ s.step? m.step = some x ∧ o.kind = .layer l ∧ ((s.stepDraft x).layer l).batches ≤ 1 ∧
        ((k = .product row chan n delta ∧ f = fun y v => v.strikeCube y n) ∨ (k = .lane row chan n delta ∧
        f = fun y v => v.strikeLane y n) ∨ (1 < ((s.stepDraft x).layer l).ks ∧ k = .combined row chan n delta ∧
        f = fun y v => v.strikeSum y n))) ∧
    (∃ (d : Weft) (o : Op) (rest : List Op) (m : OpMember) (x : Step) (e : Nat) (row : Nat) (s : State), (s.weft d).arrayQ = o :: rest ∧
        s.unitFree d .array = true ∧ (s.weft d).arrayRun = none ∧ s.opHeld d .array o = false ∧ s.hazard d o = false ∧ o.members = [m] ∧
        m.base = 0 ∧ row < m.rows ∧ s.step? m.step = some x ∧ (enginesOf d).contains e = true ∧ s.engineTakes e = true ∧ s.killable x
        (weftSrc d (4 + e % 4))) ∧
    (∃ (d : Weft) (o : Op) (rest : List Op) (m : OpMember) (x : Step) (row : Nat) (s : State), (s.weft d).reedQ = o :: rest ∧
        s.unitFree d .reed = true ∧ (s.weft d).reedRun = none ∧ s.opHeld d .reed o = false ∧ s.hazard d o = false ∧ o.members = [m] ∧
        s.step? m.step = some x) ∧
    (∃ (d : Weft) (o : Op) (rest : List Op) (m : OpMember) (x : Step) (row : Nat) (s : State), (s.weft d).reedQ = o :: rest ∧
        s.unitFree d .reed = true ∧ (s.weft d).reedRun = none ∧ s.opHeld d .reed o = false ∧ s.hazard d o = false ∧ o.members = [m] ∧
        s.step? m.step = some x) ∧
    (∃ (d : Weft) (u : OpUnit) (o : Op) (rest : List Op) (k : OpCheck) (s : State), (s.weft d).queue u = o :: rest ∧
        ((s.weft d).runOf u ≠ none ∨ s.unitFree d u = false ∨ s.opHeld d u o = true)) ∧
    (∃ (d : Weft) (u : OpUnit) (o : Op) (rest : List Op) (k : OpCheck) (s : State), (s.weft d).queue u = o :: rest ∧
        ((s.weft d).runOf u ≠ none ∨ s.unitFree d u = false ∨ s.opHeld d u o = true)) ∧
    (∃ (d : Weft) (u : OpUnit) (o : Op) (rest : List Op) (k : OpCheck) (s : State), (s.weft d).queue u = o :: rest ∧
        ((s.weft d).runOf u ≠ none ∨ s.unitFree d u = false ∨ s.opHeld d u o = true)) ∧
    (∃ (d : Weft) (w : Window) (s : State), s.sched.windows = [w] ∧ w.closed = false ∧ w.sent = [] ∧ w.members ≠ [] ∧ (w.members.map
        (fun m => m.step)).Nodup ∧ w.asked = w.members.map (fun m => (d, m)) ∧ (∀ m ∈ w.members, s.memberOn d m = true) ∧
        w.openTime.toNat + w.limitUs * 1000 ≤ s.time.now.toNat) ∧
    (∃ (e : Nat) (l : Nat) (s : State), (∀ w ∈ s.sched.windows, s.time.now.toNat < w.openTime.toNat + w.limitUs * 1000)) ∧
    (∃ (a : Op) (b : Op) (s : State), s.wa.arrayRun = some a ∧ s.wb.arrayRun = some b ∧ s.wa.barrier = none ∧ s.wb.barrier = none ∧
        s.opWhole a = true ∧ s.opWhole b = true ∧ a.kind = b.kind ∧ a.pass = b.pass ∧ s.opLast a = false) ∧
    (∃ (a : Op) (b : Op) (m : OpMember) (n : OpMember) (l : Nat) (x : Step) (s : State), s.wa.arrayRun = some a ∧ s.wb.arrayRun = some b ∧
        s.wa.barrier = none ∧ s.wb.barrier = none ∧ s.opWhole a = true ∧ s.opWhole b = true ∧ a.kind = .layer l ∧ b.kind = .layer l ∧
        a.pass = b.pass ∧ s.opLast a = true ∧ a.members = [m] ∧ b.members = [n] ∧ s.steps = [x] ∧ m.step = x.id ∧ n.step = x.id ∧ s.silent
        (weftSrc .a 0x25) ∧ s.silent (weftSrc .b 0x25)) ∧
    (∃ (a : Op) (b : Op) (m : OpMember) (n : OpMember) (x : Step) (s : State), s.wa.arrayRun = some a ∧ s.wb.arrayRun = some b ∧
        s.wa.barrier = none ∧ s.wb.barrier = none ∧ s.opWhole a = true ∧ s.opWhole b = true ∧ a.kind ≠ b.kind ∧ a.members = [m] ∧
        b.members = [n] ∧ s.step? m.step = some x ∧ s.step? n.step = some x ∧ s.killable x (weftSrc .a 0x1D) ∧ s.silent
        (weftSrc .b 0x1D)) :=
  ⟨⟨.a, .array, ({ entry := 0, kind := .layer 0, members := [{ step := 7, pair := 1, ticket := 5, rows := 4 }], pass := 0 } : Machine.Op),
      [({ entry := 0, kind := .evict 1 0, members := [{ step := 7, pair := 1, ticket := 5, rows := 4 }], pass := 0 } : Machine.Op)],
      { (running : State) with
      wa := { (dieUp : WeftDie) with
      arrayQ := [({ entry := 0, kind := .layer 0, members := [{ step := 7, pair := 1, ticket := 5, rows := 4 }], pass := 0 } : Machine.Op),
      ({ entry := 0, kind := .evict 1 0, members := [{ step := 7, pair := 1, ticket := 5, rows := 4 }], pass := 0 } : Machine.Op)] } },
      by decide +kernel⟩,
   ⟨.b, .reed, ({ entry := 0, kind := .layer 1, members := [{ step := 7, pair := 1, ticket := 5, rows := 4 }], pass := 0 } : Machine.Op),
       [({ entry := 0, kind := .evict 1 0, members := [{ step := 7, pair := 1, ticket := 5, rows := 4 }], pass := 0 } : Machine.Op)],
       { (running : State) with
       wb := { (dieUp : WeftDie) with
       reedQ := [({ entry := 0, kind := .layer 1, members := [{ step := 7, pair := 1, ticket := 5, rows := 4 }], pass := 0 } : Machine.Op),
       ({ entry := 0, kind := .evict 1 0, members := [{ step := 7, pair := 1, ticket := 5, rows := 4 }], pass := 0 } : Machine.Op)] } },
       by decide +kernel⟩,
   ⟨.a, .finish, ({ entry := 0, kind := .layer 2, members := [{ step := 7, pair := 1, ticket := 5, rows := 4 }], pass := 0 } : Machine.Op),
       [({ entry := 0, kind := .evict 1 0, members := [{ step := 7, pair := 1, ticket := 5, rows := 4 }], pass := 0 } : Machine.Op)],
       { (running : State) with
       wa := { (dieUp : WeftDie) with
       finishQ := [({ entry := 0, kind := .layer 2, members := [{ step := 7, pair := 1, ticket := 5, rows := 4 }], pass := 0 } : Machine.Op),
       ({ entry := 0, kind := .evict 1 0, members := [{ step := 7, pair := 1, ticket := 5, rows := 4 }], pass := 0 } : Machine.Op)] } },
       by decide +kernel⟩,
   ⟨.b, .stage,
       ({ entry := 0, kind := .stage 0 1, members := [{ step := 7, pair := 1, ticket := 5, rows := 4 }], pass := 0 } : Machine.Op),
       [({ entry := 0, kind := .evict 1 0, members := [{ step := 7, pair := 1, ticket := 5, rows := 4 }], pass := 0 } : Machine.Op)],
       { (running : State) with
       wb := { (dieUp : WeftDie) with
       stageQ := [({ entry := 0, kind := .stage 0 1, members := [{ step := 7, pair := 1, ticket := 5, rows := 4 }], pass := 0 } : Machine.Op),
       ({ entry := 0, kind := .evict 1 0, members := [{ step := 7, pair := 1, ticket := 5, rows := 4 }], pass := 0 } : Machine.Op)] } },
       by decide +kernel⟩,
   ⟨.b, .reed, ({ entry := 0, kind := .layer 1, members := [{ step := 7, pair := 1, ticket := 5, rows := 4 }], pass := 0 } : Machine.Op),
       [({ entry := 0, kind := .evict 1 0, members := [{ step := 7, pair := 1, ticket := 5, rows := 4 }], pass := 0 } : Machine.Op)],
       { step := 7, pair := 1, ticket := 5, rows := 4 }, stp, .ok, { (quiet (weftSrc .b 0x1C) (running) : State) with
       wb := { (dieUp : WeftDie) with
       reedQ := [({ entry := 0, kind := .layer 1, members := [{ step := 7, pair := 1, ticket := 5, rows := 4 }], pass := 0 } : Machine.Op),
       ({ entry := 0, kind := .evict 1 0, members := [{ step := 7, pair := 1, ticket := 5, rows := 4 }], pass := 0 } : Machine.Op)],
       stageRun := some (({ entry := 0, kind := .stage 0 1, members := [{ step := 7, pair := 1, ticket := 5, rows := 4 }], pass := 0 } : Machine.Op)) } },
       by decide +kernel⟩,
   ⟨.a, ({ entry := 0, kind := .layer 0, members := [{ step := 7, pair := 1, ticket := 5, rows := 4 }], pass := 0 } : Machine.Op), [],
       { step := 7, pair := 1, ticket := 5, rows := 4 }, stp, 0, 0, 0, 0, 2, 5, 3, 1, .product 2 5 3 (1), fun y v => v.strikeCube y 3,
       quiet (weftSrc .a 0) ({ (mul : State) with
       wa := { mul.wa with
       arrayQ := [({ entry := 0, kind := .layer 0, members := [{ step := 7, pair := 1, ticket := 5, rows := 4 }], pass := 0 } : Machine.Op)] } }),
       by and_intros <;> first | exact (Or.inl ⟨rfl, rfl⟩) | decide +kernel⟩,
   ⟨.a, ({ entry := 0, kind := .layer 0, members := [{ step := 7, pair := 1, ticket := 5, rows := 4 }], pass := 0 } : Machine.Op), [],
       { step := 7, pair := 1, ticket := 5, rows := 4 }, stp, 0, 0, 32, 0, 2, 5, 0, -3, .lane 2 5 0 (-3), fun y v => v.strikeLane y 0,
       quiet (weftSrc .a 0) ({ (mul : State) with
       wa := { mul.wa with
       arrayQ := [({ entry := 0, kind := .layer 0, members := [{ step := 7, pair := 1, ticket := 5, rows := 4 }], pass := 0 } : Machine.Op)] } }),
       by and_intros <;> first | exact (Or.inr (Or.inl ⟨rfl, rfl⟩)) | decide +kernel⟩,
   ⟨.a, ({ entry := 0, kind := .layer 0, members := [{ step := 7, pair := 1, ticket := 5, rows := 4 }], pass := 0 } : Machine.Op), [],
       { step := 7, pair := 1, ticket := 5, rows := 4 }, stp, 0, 0, 0, 0, 2, 5, 3, 14, .product 2 5 3 (14), fun y v => v.strikeCube y 3,
       quiet (weftSrc .a 0) ({ (mul : State) with
       wa := { mul.wa with
       arrayQ := [({ entry := 0, kind := .layer 0, members := [{ step := 7, pair := 1, ticket := 5, rows := 4 }], pass := 0 } : Machine.Op)] } }),
       by and_intros <;> first | exact (Or.inl ⟨rfl, rfl⟩) | decide +kernel⟩,
   ⟨.a, ({ entry := 0, kind := .layer 0, members := [{ step := 7, pair := 1, ticket := 5, rows := 4 }], pass := 0 } : Machine.Op), [],
       { step := 7, pair := 1, ticket := 5, rows := 4 }, stp, 0, 0, 32, 0, 2, 5, 0, -3, .combined 2 5 0 (-3), fun y v => v.strikeSum y 0,
       quiet (weftSrc .a 0)
       ({ ({ (mul : State) with drafts := [{ (ent : Entry) with draft := { (mulD : Draft) with layers := mulD.layers.map (fun (l : Layer) => { l with log2ks := 1 }) } }] } : State) with
       wa := { mul.wa with
       arrayQ := [({ entry := 0, kind := .layer 0, members := [{ step := 7, pair := 1, ticket := 5, rows := 4 }], pass := 0 } : Machine.Op)] } }),
       by and_intros <;> first | exact (Or.inr (Or.inr ⟨by decide +kernel, rfl, rfl⟩)) | decide +kernel⟩,
   ⟨.a, ({ entry := 0, kind := .layer 0, members := [{ step := 7, pair := 1, ticket := 5, rows := 4 }], pass := 0 } : Machine.Op),
       [({ entry := 0, kind := .evict 1 0, members := [{ step := 7, pair := 1, ticket := 5, rows := 4 }], pass := 0 } : Machine.Op)],
       { step := 7, pair := 1, ticket := 5, rows := 4 }, stp, 3, 2, quiet (weftSrc .a 7) ({ (running : State) with
       wa := { (dieUp : WeftDie) with
       arrayQ := [({ entry := 0, kind := .layer 0, members := [{ step := 7, pair := 1, ticket := 5, rows := 4 }], pass := 0 } : Machine.Op),
       ({ entry := 0, kind := .evict 1 0, members := [{ step := 7, pair := 1, ticket := 5, rows := 4 }], pass := 0 } : Machine.Op)] } }),
       by decide +kernel⟩,
   ⟨.a, ({ entry := 0, kind := .layer 1, members := [{ step := 7, pair := 1, ticket := 5, rows := 4 }], pass := 0 } : Machine.Op),
       [({ entry := 0, kind := .evict 1 0, members := [{ step := 7, pair := 1, ticket := 5, rows := 4 }], pass := 0 } : Machine.Op)],
       { step := 7, pair := 1, ticket := 5, rows := 4 }, stp, 2, quiet (weftSrc .a 0x0D) ({ (running : State) with
       wa := { (dieUp : WeftDie) with
       reedQ := [({ entry := 0, kind := .layer 1, members := [{ step := 7, pair := 1, ticket := 5, rows := 4 }], pass := 0 } : Machine.Op),
       ({ entry := 0, kind := .evict 1 0, members := [{ step := 7, pair := 1, ticket := 5, rows := 4 }], pass := 0 } : Machine.Op)] } }),
       by decide +kernel⟩,
   ⟨.a, ({ entry := 0, kind := .layer 1, members := [{ step := 7, pair := 1, ticket := 5, rows := 4 }], pass := 0 } : Machine.Op),
       [({ entry := 0, kind := .evict 1 0, members := [{ step := 7, pair := 1, ticket := 5, rows := 4 }], pass := 0 } : Machine.Op)],
       { step := 7, pair := 1, ticket := 5, rows := 4 }, stp, 2, quiet (weftSrc .a 0x0C) ({ (running : State) with
       wa := { (dieUp : WeftDie) with
       reedQ := [({ entry := 0, kind := .layer 1, members := [{ step := 7, pair := 1, ticket := 5, rows := 4 }], pass := 0 } : Machine.Op),
       ({ entry := 0, kind := .evict 1 0, members := [{ step := 7, pair := 1, ticket := 5, rows := 4 }], pass := 0 } : Machine.Op)] } }),
       by decide +kernel⟩,
   ⟨.a, .reed, ({ entry := 0, kind := .layer 1, members := [{ step := 7, pair := 1, ticket := 5, rows := 4 }], pass := 0 } : Machine.Op),
       [({ entry := 0, kind := .evict 1 0, members := [{ step := 7, pair := 1, ticket := 5, rows := 4 }], pass := 0 } : Machine.Op)], .ok,
       { (running : State) with
       wa := { (dieUp : WeftDie) with
       reedQ := [({ entry := 0, kind := .layer 1, members := [{ step := 7, pair := 1, ticket := 5, rows := 4 }], pass := 0 } : Machine.Op),
       ({ entry := 0, kind := .evict 1 0, members := [{ step := 7, pair := 1, ticket := 5, rows := 4 }], pass := 0 } : Machine.Op)],
       reedRun := some (({ entry := 0, kind := .layer 1, members := [{ step := 7, pair := 1, ticket := 5, rows := 4 }], pass := 0 } : Machine.Op)) } },
       by decide +kernel⟩,
   ⟨.b, .reed, ({ entry := 0, kind := .layer 1, members := [{ step := 7, pair := 1, ticket := 5, rows := 4 }], pass := 0 } : Machine.Op),
       [({ entry := 0, kind := .evict 1 0, members := [{ step := 7, pair := 1, ticket := 5, rows := 4 }], pass := 0 } : Machine.Op)], .ok,
       { (running : State) with
       wb := { (dieUp : WeftDie) with
       reedQ := [({ entry := 0, kind := .layer 1, members := [{ step := 7, pair := 1, ticket := 5, rows := 4 }], pass := 0 } : Machine.Op),
       ({ entry := 0, kind := .evict 1 0, members := [{ step := 7, pair := 1, ticket := 5, rows := 4 }], pass := 0 } : Machine.Op)],
       checks := { (dieUp : WeftDie).checks with phase := .running } } }, by decide +kernel⟩,
   ⟨.b, .reed, ({ entry := 0, kind := .layer 1, members := [{ step := 7, pair := 1, ticket := 5, rows := 4 }], pass := 0 } : Machine.Op),
       [({ entry := 0, kind := .evict 1 0, members := [{ step := 7, pair := 1, ticket := 5, rows := 4 }], pass := 0 } : Machine.Op)], .ok,
       { ({ running with clk := { up.clk with weftB := 0 } } : State) with
       wb := { (dieUp : WeftDie) with
       reedQ := [({ entry := 0, kind := .layer 1, members := [{ step := 7, pair := 1, ticket := 5, rows := 4 }], pass := 0 } : Machine.Op),
       ({ entry := 0, kind := .evict 1 0, members := [{ step := 7, pair := 1, ticket := 5, rows := 4 }], pass := 0 } : Machine.Op)] } },
       by decide +kernel⟩,
   ⟨.a, { entry := 0, layer := 0, lc := false, group := none, openTime := 1000, limitUs := 5, members := [{ step := 7, pair := 1, ticket := 5, rows := 4 }], asked := [(.a, { step := 7, pair := 1, ticket := 5, rows := 4 })] },
       at' 6000 { running with
       sched := { up.sched with
       windows := [{ entry := 0, layer := 0, lc := false, group := none, openTime := 1000, limitUs := 5, members := [{ step := 7, pair := 1, ticket := 5, rows := 4 }], asked := [(.a, { step := 7, pair := 1, ticket := 5, rows := 4 })] }] } },
       by decide +kernel⟩,
   ⟨0, 0, at' 5999 { running with
       sched := { up.sched with
       windows := [{ entry := 0, layer := 0, lc := false, group := none, openTime := 1000, limitUs := 5, members := [{ step := 7, pair := 1, ticket := 5, rows := 4 }], asked := [(.a, { step := 7, pair := 1, ticket := 5, rows := 4 })] }] } },
       by decide +kernel⟩,
   ⟨({ entry := 0, kind := .layer 0, members := [{ step := 7, pair := 1, ticket := 5, rows := 4 }], pass := 0 } : Machine.Op),
       ({ entry := 0, kind := .layer 0, members := [{ step := 7, pair := 1, ticket := 5, rows := 4 }], pass := 0 } : Machine.Op),
       { running with
       drafts := [{ (ent : Entry) with
       draft := { (drf : Draft) with
       whole := true, layers := [{ (Layer.zero : Layer) with op := 9, m := 4, n := 8, k := 8, out := 1, params := [2, 0, 0, 0] },
       { (Layer.zero : Layer) with op := 1 }] } }], wa := { (dieUp : WeftDie) with
       arrayRun := some (({ entry := 0, kind := .layer 0, members := [{ step := 7, pair := 1, ticket := 5, rows := 4 }], pass := 0 } : Machine.Op)) },
       wb := { (dieUp : WeftDie) with
       arrayRun := some (({ entry := 0, kind := .layer 0, members := [{ step := 7, pair := 1, ticket := 5, rows := 4 }], pass := 0 } : Machine.Op)) } },
       by decide +kernel⟩,
   ⟨({ entry := 0, kind := .layer 0, members := [{ step := 7, pair := 1, ticket := 5, rows := 4 }], pass := 0 } : Machine.Op),
       ({ entry := 0, kind := .layer 0, members := [{ step := 7, pair := 1, ticket := 5, rows := 4 }], pass := 0 } : Machine.Op),
       { step := 7, pair := 1, ticket := 5, rows := 4 }, { step := 7, pair := 1, ticket := 5, rows := 4 }, 0, stp, quiet (weftSrc .b 0x25)
       (quiet (weftSrc .a 0x25) ({ running with
       drafts := [{ (ent : Entry) with draft := { (drf : Draft) with whole := true } }], wa := { (dieUp : WeftDie) with
       arrayRun := some (({ entry := 0, kind := .layer 0, members := [{ step := 7, pair := 1, ticket := 5, rows := 4 }], pass := 0 } : Machine.Op)) },
       wb := { (dieUp : WeftDie) with
       arrayRun := some (({ entry := 0, kind := .layer 0, members := [{ step := 7, pair := 1, ticket := 5, rows := 4 }], pass := 0 } : Machine.Op)) } })),
       by decide +kernel⟩,
   ⟨({ entry := 0, kind := .layer 0, members := [{ step := 7, pair := 1, ticket := 5, rows := 4 }], pass := 0 } : Machine.Op),
       ({ entry := 0, kind := .layer 1, members := [{ step := 7, pair := 1, ticket := 5, rows := 4 }], pass := 0 } : Machine.Op),
       { step := 7, pair := 1, ticket := 5, rows := 4 }, { step := 7, pair := 1, ticket := 5, rows := 4 }, stp, quiet (weftSrc .b 0x1D)
       (quiet (weftSrc .a 0x1D) ({ running with
       drafts := [{ (ent : Entry) with draft := { (drf : Draft) with whole := true } }], wa := { (dieUp : WeftDie) with
       arrayRun := some (({ entry := 0, kind := .layer 0, members := [{ step := 7, pair := 1, ticket := 5, rows := 4 }], pass := 0 } : Machine.Op)) },
       wb := { (dieUp : WeftDie) with
       arrayRun := some (({ entry := 0, kind := .layer 1, members := [{ step := 7, pair := 1, ticket := 5, rows := 4 }], pass := 0 } : Machine.Op)) } })),
       by decide +kernel⟩⟩

/-- States and operands that meet the hypotheses of OperationsRetire. -/
theorem witness_OperationsRetire :
    (∃ (d : Weft) (n : Nat) (l : Nat) (f : Freezes) (fs : List DataAt) (o : Op) (m : OpMember) (x : Step) (s : State), s.clocked
        (.loom d) = true ∧ (s.weft d).arrayRun = some o ∧ o.members = [m] ∧ o.kind = .layer l ∧ s.steps = [x] ∧ m.step = x.id ∧
        x.stage = .running ∧ s.opWhole o = false ∧ s.opLast o = true ∧ s.silent (weftSrc d 0x25) ∧ s.wa.checks.phase ≠ .due ∧
        s.wb.checks.phase ≠ .due) ∧
    (∃ (d : Weft) (n : Nat) (l : Nat) (f : Freezes) (fs : List DataAt) (o : Op) (m : OpMember) (x : Step) (s : State), s.clocked
        (.loom d) = true ∧ (s.weft d).arrayRun = some o ∧ o.members = [m] ∧ o.kind = .layer l ∧ s.steps = [x] ∧ m.step = x.id ∧
        x.stage = .running ∧ s.opWhole o = false ∧ s.opLast o = true ∧ s.silent (weftSrc d 0x25) ∧ s.wa.checks.phase ≠ .due ∧
        s.wb.checks.phase ≠ .due) ∧
    (∃ (d : Weft) (n : Nat) (f : Freezes) (fs : List DataAt) (o : Op) (m : OpMember) (x : Step) (s : State), (s.weft d).arrayRun = some o ∧
        s.clocked (.loom d) = true ∧ o.members = [m] ∧ s.steps = [x] ∧ m.step = x.id ∧ (s.opWhole o = true →
        (s.weft d).barrier.isSome = true) ∧ s.opLast o = false ∧ s.wa.checks.phase ≠ .due ∧ s.wb.checks.phase ≠ .due) ∧
    (∃ (d : Weft) (n : Nat) (f : Freezes) (k : ReadChecks) (o : Op) (s : State), (s.weft d).arrayRun = some o ∧ (s.opWhole o = true ∧
        (s.weft d).barrier = none ∨ s.clocked (.loom d) = false)) ∧
    (∃ (d : Weft) (n : Nat) (f : Freezes) (k : ReadChecks) (o : Op) (s : State), (s.weft d).arrayRun = some o ∧ (s.opWhole o = true ∧
        (s.weft d).barrier = none ∨ s.clocked (.loom d) = false)) ∧
    (∃ (d : Weft) (w : Weft) (n : Nat) (a : Nat) (f : Freezes) (b : Byte) (o : Op) (x : Step) (s : State), (s.weft d).arrayRun = some o ∧
        s.opWhole o = false ∧ s.clocked (.loom d) = true ∧ o.members.map (fun m => m.step) = [x.id] ∧ s.steps = [x] ∧
        s.beamOwner w a = .step x.ctx ∧ s.killable x (weftSrc w 0x20)) ∧
    (∃ (d : Weft) (n : Nat) (l : Nat) (fs : List DataAt) (o : Op) (m : OpMember) (x : Step) (s : State), (s.weft d).reedRun = some o ∧
        o.members = [m] ∧ s.clocked (.loom d) = true ∧ o.kind = .layer l ∧ s.steps = [x] ∧ m.step = x.id ∧ x.stage = .running ∧ s.silent
        (weftSrc d 0x25) ∧ s.wa.checks.phase ≠ .due ∧ s.wb.checks.phase ≠ .due) ∧
    (∃ (d : Weft) (n : Nat) (l : Nat) (fs : List DataAt) (o : Op) (m : OpMember) (x : Step) (s : State), (s.weft d).finishRun = some o ∧
        o.members = [m] ∧ s.clocked (.loom d) = true ∧ o.kind = .layer l ∧ s.steps = [x] ∧ m.step = x.id ∧ x.stage = .running ∧ s.silent
        (weftSrc d 0x25) ∧ s.wa.checks.phase ≠ .due ∧ s.wb.checks.phase ≠ .due) ∧
    (∃ (d : Weft) (pl : Nat) (part : Nat) (fs : List DataAt) (o : Op) (m : OpMember) (x : Step) (e : Entry) (cx : Ctx) (pr : Placement)
        (s : State), s.clocked (.weftFabric d) = true ∧ (s.weft d).stageRun = some o ∧ o.members = [m] ∧ o.kind = .stage pl part ∧
        s.steps = [x] ∧ m.step = x.id ∧ x.stage = .running ∧ s.stepEntry x = some e ∧ s.ctx? x.ctx = some cx ∧
        pr = e.draft.placements.getD pl Placement.zero ∧ pr.home = 1 ∧ (s.weft d).memWf = true ∧ s.wa.checks.phase ≠ .due ∧
        s.wb.checks.phase ≠ .due) ∧
    (∃ (d : Weft) (pl : Nat) (part : Nat) (fs : List DataAt) (o : Op) (m : OpMember) (x : Step) (e : Entry) (cx : Ctx) (pr : Placement)
        (s : State), s.clocked (.weftFabric d) = true ∧ (s.weft d).stageRun = some o ∧ o.members = [m] ∧ o.kind = .stage pl part ∧
        s.steps = [x] ∧ m.step = x.id ∧ x.stage = .running ∧ s.stepEntry x = some e ∧ s.ctx? x.ctx = some cx ∧
        pr = e.draft.placements.getD pl Placement.zero ∧ pr.home = 1 ∧ (s.weft d).memWf = true ∧ s.wa.checks.phase ≠ .due ∧
        s.wb.checks.phase ≠ .due) ∧
    (∃ (d : Weft) (w : Weft) (a : Nat) (c : Byte) (o : Op) (x : Step) (s : State), (s.weft d).stageRun = some o ∧
        s.gddrOwner w a = .step x.ctx ∧ s.clocked (.weftFabric d) = true ∧ o.members.map (fun m => m.step) = [x.id] ∧ s.killable x
        (weftSrc w 0x22)) :=
  ⟨⟨.a, 40, 0, noFreeze, [.beam .a 0x800000],
      ({ entry := 0, kind := .layer 0, members := [{ step := 7, pair := 1, ticket := 5, rows := 4 }], pass := 0 } : Machine.Op),
      { step := 7, pair := 1, ticket := 5, rows := 4 }, stp, { (quiet (weftSrc .a 0x25) (running) : State) with
      wa := { (dieUp : WeftDie) with
      arrayRun := some (({ entry := 0, kind := .layer 0, members := [{ step := 7, pair := 1, ticket := 5, rows := 4 }], pass := 0 } : Machine.Op)),
      tickets := [5, 9] } }, by decide +kernel⟩,
   ⟨.b, 40, 0, noFreeze, [.beam .b 0x800000],
       ({ entry := 0, kind := .layer 0, members := [{ step := 7, pair := 1, ticket := 5, rows := 4 }], pass := 0 } : Machine.Op),
       { step := 7, pair := 1, ticket := 5, rows := 4 }, stp, { (quiet (weftSrc .b 0x25) (running) : State) with
       wb := { (dieUp : WeftDie) with
       arrayRun := some (({ entry := 0, kind := .layer 0, members := [{ step := 7, pair := 1, ticket := 5, rows := 4 }], pass := 0 } : Machine.Op)),
       tickets := [5, 9] } }, by decide +kernel⟩,
   ⟨.a, 40, noFreeze, [.gddr .b 768],
       ({ entry := 0, kind := .layer 0, members := [{ step := 7, pair := 1, ticket := 5, rows := 4 }], pass := 0 } : Machine.Op),
       { step := 7, pair := 1, ticket := 5, rows := 4 }, stp,
       { ({ running with drafts := [{ (ent : Entry) with draft := { (drf : Draft) with layers := [{ (Layer.zero : Layer) with op := 9, m := 4, n := 8, k := 8, out := 1, params := [2, 0, 0, 0] }] } }] } : State) with
       wa := { (dieUp : WeftDie) with
       arrayRun := some (({ entry := 0, kind := .layer 0, members := [{ step := 7, pair := 1, ticket := 5, rows := 4 }], pass := 0 } : Machine.Op)),
       tickets := [5, 9] } }, by decide +kernel⟩,
   ⟨.a, 40, { noFreeze with exchange := 3 }, noErr,
       ({ entry := 0, kind := .layer 0, members := [{ step := 7, pair := 1, ticket := 5, rows := 4 }], pass := 0 } : Machine.Op),
       { running with
       drafts := [{ (ent : Entry) with
       draft := { (drf : Draft) with
       whole := true, layers := [{ (Layer.zero : Layer) with op := 9, m := 4, n := 8, k := 8, out := 1, params := [2, 0, 0, 0] },
       { (Layer.zero : Layer) with op := 1 }] } }], wa := { (dieUp : WeftDie) with
       arrayRun := some (({ entry := 0, kind := .layer 0, members := [{ step := 7, pair := 1, ticket := 5, rows := 4 }], pass := 0 } : Machine.Op)) },
       wb := { (dieUp : WeftDie) with
       arrayRun := some (({ entry := 0, kind := .layer 0, members := [{ step := 7, pair := 1, ticket := 5, rows := 4 }], pass := 0 } : Machine.Op)) } },
       by decide +kernel⟩,
   ⟨.a, 40, { noFreeze with exchange := 3 }, noErr,
       ({ entry := 0, kind := .layer 0, members := [{ step := 7, pair := 1, ticket := 5, rows := 4 }], pass := 0 } : Machine.Op),
       { ({ (running : State) with clk := { up.clk with weftA := 0 } } : State) with
       wa := { (dieUp : WeftDie) with
       arrayRun := some (({ entry := 0, kind := .layer 0, members := [{ step := 7, pair := 1, ticket := 5, rows := 4 }], pass := 0 } : Machine.Op)),
       tickets := [5, 9] } }, by decide +kernel⟩,
   ⟨.a, .a, 40, 0, noFreeze, 0x70,
       ({ entry := 0, kind := .layer 0, members := [{ step := 7, pair := 1, ticket := 5, rows := 4 }], pass := 0 } : Machine.Op), stp,
       quiet (weftSrc .a 0x20) ({ (mul : State) with
       wa := { mul.wa with
       arrayRun := some (({ entry := 0, kind := .layer 0, members := [{ step := 7, pair := 1, ticket := 5, rows := 4 }], pass := 0 } : Machine.Op)) } }),
       by decide +kernel⟩,
   ⟨.b, 40, 1, [.beam .b 64],
       ({ entry := 0, kind := .layer 1, members := [{ step := 7, pair := 1, ticket := 5, rows := 4 }], pass := 0 } : Machine.Op),
       { step := 7, pair := 1, ticket := 5, rows := 4 }, stp, { (quiet (weftSrc .b 0x25) (running) : State) with
       wb := { (dieUp : WeftDie) with
       reedRun := some (({ entry := 0, kind := .layer 1, members := [{ step := 7, pair := 1, ticket := 5, rows := 4 }], pass := 0 } : Machine.Op)),
       tickets := [5, 9] } }, by decide +kernel⟩,
   ⟨.a, 40, 2, [.pair 3 5],
       ({ entry := 0, kind := .layer 2, members := [{ step := 7, pair := 1, ticket := 5, rows := 4 }], pass := 0 } : Machine.Op),
       { step := 7, pair := 1, ticket := 5, rows := 4 }, stp, { (quiet (weftSrc .a 0x25) (running) : State) with
       wa := { (dieUp : WeftDie) with
       finishRun := some (({ entry := 0, kind := .layer 2, members := [{ step := 7, pair := 1, ticket := 5, rows := 4 }], pass := 0 } : Machine.Op)),
       tickets := [5, 9] } }, by decide +kernel⟩,
   ⟨.b, 0, 1, [.gddr .b 768],
       ({ entry := 0, kind := .stage 0 1, members := [{ step := 7, pair := 1, ticket := 5, rows := 4 }], pass := 0 } : Machine.Op),
       { step := 7, pair := 1, ticket := 5, rows := 4 }, stp, ent, (ctx 1 fA true), { (Placement.zero : Placement) with
       home := 1, dies := 3, parts := 2, partBytes := 16, window := 2, stages := 4, evicts := 4 }, { (running : State) with
       wb := { (dieUp : WeftDie) with
       stageRun := some (({ entry := 0, kind := .stage 0 1, members := [{ step := 7, pair := 1, ticket := 5, rows := 4 }], pass := 0 } : Machine.Op)),
       tickets := [5, 9], gddr := [(16, 7), (31, 9), (32, 5)] } }, by decide +kernel⟩,
   ⟨.b, 0, 1, [],
       ({ entry := 0, kind := .stage 0 1, members := [{ step := 7, pair := 1, ticket := 5, rows := 4 }], pass := 0 } : Machine.Op),
       { step := 7, pair := 1, ticket := 5, rows := 4 }, stp, ent, (ctx 1 fA true), { (Placement.zero : Placement) with
       home := 1, dies := 3, parts := 2, partBytes := 16, window := 2, stages := 4, evicts := 4 }, { (running : State) with
       wb := { (dieUp : WeftDie) with
       stageRun := some (({ entry := 0, kind := .stage 0 1, members := [{ step := 7, pair := 1, ticket := 5, rows := 4 }], pass := 0 } : Machine.Op)),
       tickets := [5, 9], gddr := [(16, 7), (31, 9), (32, 5)] } }, by decide +kernel⟩,
   ⟨.b, .b, 4100, 0x72,
       ({ entry := 0, kind := .stage 0 1, members := [{ step := 7, pair := 1, ticket := 5, rows := 4 }], pass := 0 } : Machine.Op),
       { stp with saved := some (0, 0) }, quiet (weftSrc .b 0x22)
       ({ ({ (running : State) with wb := { (dieUp : WeftDie) with stageRun := some (({ entry := 0, kind := .stage 0 1, members := [{ step := 7, pair := 1, ticket := 5, rows := 4 }], pass := 0 } : Machine.Op)), tickets := [5, 9] } } : State) with
       ctxs := [{ ctx 1 fA true with save64k := 1, saveA := 4096, saveB := 4096 }, ctx 2 fA false], steps := [{ stp with
       saved := some (0, 0) }] }), by decide +kernel⟩⟩

/-- States and operands that meet the hypotheses of HingesSaveAndRestore. -/
theorem witness_HingesSaveAndRestore :
    (∃ (h : Nat) (x : Step) (g : Hinge) (cx : Ctx) (fs : List DataAt) (bs : Weft → List Byte) (s : State), s.steps = [x] ∧
        x.stage = .saving ∧ s.live x.id = true ∧ x.hinge = some h ∧ (s.stepDraft x).hinges[h]? = some g ∧ g.lrCount ≠ 0 ∧
        s.ctx? x.ctx = some cx ∧ (∀ d, ∀ p ∈ (s.weft d).pairs, p.queued = []) ∧ s.wa.memWf = true ∧ s.wb.memWf = true ∧ bs =
        (fun d => if x.on d then (s.env x d).saveBytes g (s.progDmem x.id d) d else [])) ∧
    (∃ (h : Nat) (n : Nat) (c : Nat) (d : Weft) (x : Step) (g : Hinge) (pg : Program) (p : Pair) (fs : List DataAt) (s : State),
        s.steps = [x] ∧ x.stage = .restoring ∧ s.live x.id = true ∧ s.groupsReady (s.stepDraft x).whole = true ∧ x.hinge = some h ∧
        (s.stepDraft x).hinges[h]? = some g ∧ (s.stepDraft x).programs[g.program]? = some pg ∧
        (if d = .a then x.resumeA else x.resumeB) = some c ∧ s.lowestPair d = some n ∧ s.pair? n = some p ∧ p.run = none ∧ p.queued = []) ∧
    (∃ (x : Step) (fs : List DataAt) (s : State), s.steps = [x] ∧ x.stage = .restoring ∧ s.live x.id = true ∧ s.groupsReady
        (s.stepDraft x).whole = false) ∧
    (∃ (w : Weft) (a : Nat) (b : Byte) (x : Step) (s : State), s.steps = [x] ∧ s.gddrOwner w a = .step x.ctx ∧ s.killable x
        (weftSrc w 0x22)) ∧
    (∃ (w : Weft) (a : Nat) (b : Byte) (x : Step) (s : State), s.steps = [x] ∧ s.gddrOwner w a = .step x.ctx ∧ s.killable x
        (weftSrc w 0x22)) :=
  ⟨⟨0, { (stp : Step) with stage := .saving, hinge := some 0, resumeA := some 4 },
      { index := 0, afterLayer := 0, program := 0, lrCount := 1, lrFirst := 0, resume := 80 }, { ctx 1 fA true with
      save64k := 1, saveA := 4096, saveB := 8192 }, [.pair 0 3], fun d => if Step.on ({ stp with
      stage := .saving, hinge := some 0, resumeA := some 4 }) d then
      (({ ({ (busy : State) with steps := [{ (stp : Step) with stage := .saving, hinge := some 0, resumeA := some 4 }], sched := { up.sched with running := some 7 }, wa := { (dieUp : WeftDie) with pairs := [{ Pair.reset with run := some (runs []), stall := some (.hinge 0), pc := 64, dmem := [(3, 9)] }, Pair.reset, Pair.reset, Pair.reset] } } : State) with
      ctxs := [{ ctx 1 fA true with save64k := 1, saveA := 4096, saveB := 8192 }, ctx 2 fA false] }).env ({ stp with
      stage := .saving, hinge := some 0, resumeA := some 4 }) d).saveBytes
      { index := 0, afterLayer := 0, program := 0, lrCount := 1, lrFirst := 0, resume := 80 }
      (({ ({ (busy : State) with steps := [{ (stp : Step) with stage := .saving, hinge := some 0, resumeA := some 4 }], sched := { up.sched with running := some 7 }, wa := { (dieUp : WeftDie) with pairs := [{ Pair.reset with run := some (runs []), stall := some (.hinge 0), pc := 64, dmem := [(3, 9)] }, Pair.reset, Pair.reset, Pair.reset] } } : State) with
      ctxs := [{ ctx 1 fA true with save64k := 1, saveA := 4096, saveB := 8192 }, ctx 2 fA false] }).progDmem 7 d) d else [],
      { ({ (busy : State) with steps := [{ (stp : Step) with stage := .saving, hinge := some 0, resumeA := some 4 }], sched := { up.sched with running := some 7 }, wa := { (dieUp : WeftDie) with pairs := [{ Pair.reset with run := some (runs []), stall := some (.hinge 0), pc := 64, dmem := [(3, 9)] }, Pair.reset, Pair.reset, Pair.reset] } } : State) with
      ctxs := [{ ctx 1 fA true with save64k := 1, saveA := 4096, saveB := 8192 }, ctx 2 fA false] },
      by and_intros <;> first | exact (fun d => by cases d <;> decide +kernel) | exact (rfl) | decide +kernel⟩,
   ⟨0, 0, 4, .a, { (stp : Step) with stage := .restoring, hinge := some 0, resumeA := some 4, saved := some (64, 0) },
       { index := 0, afterLayer := 0, program := 0, lrCount := 1, lrFirst := 0, resume := 80 }, prog, Pair.reset, [.gddr .a 4096],
       { (busy : State) with
       ctxs := [{ ctx 1 fA true with save64k := 1, saveA := 4096, saveB := 8192 }, ctx 2 fA false], steps := [{ (stp : Step) with
       stage := .restoring, hinge := some 0, resumeA := some 4, saved := some (64, 0) }], sched := { up.sched with running := some 7 },
       wa := { dieUp with gddr := [(4096, 5), (4159, 9), (4160, 2)] } }, by decide +kernel⟩,
   ⟨{ (stp : Step) with stage := .restoring, hinge := some 0, resumeA := some 4, saved := some (64, 0) }, [], { (busy : State) with
       ctxs := [{ ctx 1 fA true with save64k := 1, saveA := 4096, saveB := 8192 }, ctx 2 fA false], steps := [{ (stp : Step) with
       stage := .restoring, hinge := some 0, resumeA := some 4, saved := some (64, 0) }], sched := { up.sched with running := some 7 },
       wa := { dieUp with gddr := [(4096, 5), (4159, 9), (4160, 2)], shuttle := .at .cool } }, by decide +kernel⟩,
   ⟨.b, 4100, 0x70, { (stp : Step) with stage := .restoring, saved := some (0, 0) }, quiet (weftSrc .b 0x22) ({ (running : State) with
       ctxs := [{ ctx 1 fA true with save64k := 1, saveA := 4096, saveB := 4096 }, ctx 2 fA false], steps := [{ (stp : Step) with
       stage := .restoring, saved := some (0, 0) }] }), by decide +kernel⟩,
   ⟨.b, 4100, 0x70, { (stp : Step) with stage := .saving, saved := some (0, 0) }, quiet (weftSrc .b 0x22) ({ (running : State) with
       ctxs := [{ ctx 1 fA true with save64k := 1, saveA := 4096, saveB := 4096 }, ctx 2 fA false], steps := [{ (stp : Step) with
       stage := .saving, saved := some (0, 0) }] }), by decide +kernel⟩⟩

/-- States and operands that meet the hypotheses of WardComparesSummaries. -/
theorem witness_WardComparesSummaries :
    (∃ (d : Weft) (x : Step) (set : List Byte) (s : State), s.sched.running = some x.id ∧ s.steps = [x] ∧ x.stage = .running ∧
        lookupN s.ladder.kills x.ctx = none ∧ x.on d = true ∧ (x.work d).summarised = false ∧ (x.work d).set = some set ∧
        s.warded x = false) ∧
    (∃ (d : Weft) (x : Step) (set : List Byte) (s : State), s.sched.running = some x.id ∧ s.steps = [x] ∧ x.stage = .running ∧
        lookupN s.ladder.kills x.ctx = none ∧ x.onA = true ∧ x.onB = true ∧ (x.work d).summarised = false ∧ (x.work d).set = some set ∧
        s.warded x = true ∧ fld (s.reg oWrdCtl) 15 0 = 0) ∧
    (∃ (d : Weft) (x : Step) (set : List Byte) (s : State), s.sched.running = some x.id ∧ s.steps = [x] ∧ x.stage = .running ∧
        lookupN s.ladder.kills x.ctx = none ∧ x.onA = true ∧ x.onB = true ∧ (x.work d).summarised = false ∧ (x.work d).set = some set ∧
        s.warded x = true ∧ fld (s.reg oWrdCtl) 15 0 = 0) ∧
    (∃ (x : Step) (a : Summary) (b : Summary) (s : State), s.atWard = some x ∧ s.summary? x.id .a = some a ∧ s.summary? x.id .b = some b ∧
        x.onA = true ∧ x.onB = true ∧ a.mask b = 0) ∧
    (∃ (x : Step) (a : Summary) (b : Summary) (s : State), s.atWard = some x ∧ s.summary? x.id .a = some a ∧ s.summary? x.id .b = some b ∧
        x.onA = true ∧ x.onB = true ∧ a.mask b = 0) ∧
    (∃ (x : Step) (a : Summary) (b : Summary) (s : State), s.atWard = some x ∧ s.summary? x.id .a = some a ∧ s.summary? x.id .b = some b ∧
        x.onA = true ∧ x.onB = true ∧ a.mask b ≠ 0 ∧ s.killable x 0x00A) ∧
    (∃ (x : Step) (a : Summary) (b : Summary) (s : State), s.atWard = some x ∧ s.summary? x.id .a = some a ∧ s.summary? x.id .b = some b ∧
        x.onA = true ∧ x.onB = true ∧ s.killable x 0x00C) ∧
    (∃ (x : Step) (v : Bool) (s : State), s.atWard = some x ∧ (x.onA && x.onB) = false) :=
  ⟨⟨.a, { (stp : Step) with
      workA := { (DieWork.zero : DieWork) with set := some ((List.range 64).map (BitVec.ofNat 8)), layersDone := [1, 2] },
      workB := { (DieWork.zero : DieWork) with set := some ((List.range 64).map (BitVec.ofNat 8)) } }, (List.range 64).map
      (BitVec.ofNat 8), { (busy.setReg oSafety 2#32 : State) with
      steps := [{ (stp : Step) with
      workA := { (DieWork.zero : DieWork) with set := some ((List.range 64).map (BitVec.ofNat 8)), layersDone := [1, 2] },
      workB := { (DieWork.zero : DieWork) with set := some ((List.range 64).map (BitVec.ofNat 8)) } }], sched := { up.sched with
      running := some 7 } }, by decide +kernel⟩,
   ⟨.a, { (stp : Step) with
       workA := { (DieWork.zero : DieWork) with set := some ((List.range 64).map (BitVec.ofNat 8)), layersDone := [1, 2] },
       workB := { (DieWork.zero : DieWork) with set := some ((List.range 64).map (BitVec.ofNat 8)) } }, (List.range 64).map
       (BitVec.ofNat 8), { (busy.setReg oWrdCtl 0#32 : State) with
       steps := [{ (stp : Step) with
       workA := { (DieWork.zero : DieWork) with set := some ((List.range 64).map (BitVec.ofNat 8)), layersDone := [1, 2] },
       workB := { (DieWork.zero : DieWork) with set := some ((List.range 64).map (BitVec.ofNat 8)) } }], sched := { up.sched with
       running := some 7 } }, by decide +kernel⟩,
   ⟨.a, { (stp : Step) with
       workA := { (DieWork.zero : DieWork) with set := some ((List.range 64).map (BitVec.ofNat 8)), layersDone := [1, 2] },
       workB := { (DieWork.zero : DieWork) with set := some ((List.range 64).map (BitVec.ofNat 8)), summarised := true } },
       (List.range 64).map (BitVec.ofNat 8), { (busy.setReg oWrdCtl 0#32 : State) with
       steps := [{ (stp : Step) with
       workA := { (DieWork.zero : DieWork) with set := some ((List.range 64).map (BitVec.ofNat 8)), layersDone := [1, 2] },
       workB := { (DieWork.zero : DieWork) with set := some ((List.range 64).map (BitVec.ofNat 8)), summarised := true } }],
       sched := { up.sched with running := some 7 } }, by decide +kernel⟩,
   ⟨{ (stp : Step) with
       stage := .packed, workA := { (DieWork.zero : DieWork) with set := some ((List.range 64).map (BitVec.ofNat 8)), summarised := true },
       workB := { (DieWork.zero : DieWork) with set := some ((List.range 64).map (BitVec.ofNat 8)), summarised := true } },
       { die := .a, step := 7, layersDone := 2, stepDigest := 1, setCrc := 2, totalBytes := 3, digestCrc := 4, satCrc := 5, time := 6 },
       { die := .b, step := 7, layersDone := 2, stepDigest := 1, setCrc := 2, totalBytes := 3, digestCrc := 4, satCrc := 5, time := 9 },
       { (busy : State) with
       steps := [{ (stp : Step) with
       stage := .packed, workA := { (DieWork.zero : DieWork) with set := some ((List.range 64).map (BitVec.ofNat 8)), summarised := true },
       workB := { (DieWork.zero : DieWork) with set := some ((List.range 64).map (BitVec.ofNat 8)), summarised := true } }],
       sched := { up.sched with running := some 7 }, ward := { up.ward with
       agree := 0xFFFF,
       summaries := [{ die := .a, step := 7, layersDone := 2, stepDigest := 1, setCrc := 2, totalBytes := 3, digestCrc := 4, satCrc := 5, time := 6 },
       { die := .b, step := 7, layersDone := 2, stepDigest := 1, setCrc := 2, totalBytes := 3, digestCrc := 4, satCrc := 5, time := 9 }] } },
       by decide +kernel⟩,
   ⟨{ (stp : Step) with
       stage := .packed, workA := { (DieWork.zero : DieWork) with set := some ((List.range 64).map (BitVec.ofNat 8)), summarised := true },
       workB := { (DieWork.zero : DieWork) with set := some ((List.range 64).map (BitVec.ofNat 8)), summarised := true } },
       { die := .a, step := 7, layersDone := 2, stepDigest := 1, setCrc := 2, totalBytes := 3, digestCrc := 4, satCrc := 5, time := 6 },
       { die := .b, step := 7, layersDone := 2, stepDigest := 1, setCrc := 2, totalBytes := 3, digestCrc := 4, satCrc := 5, time := 9 },
       { (busy : State) with
       steps := [{ (stp : Step) with
       stage := .packed, workA := { (DieWork.zero : DieWork) with set := some ((List.range 64).map (BitVec.ofNat 8)), summarised := true },
       workB := { (DieWork.zero : DieWork) with set := some ((List.range 64).map (BitVec.ofNat 8)), summarised := true } }],
       sched := { up.sched with running := some 7 }, ward := { up.ward with
       agree := 3,
       summaries := [{ die := .a, step := 7, layersDone := 2, stepDigest := 1, setCrc := 2, totalBytes := 3, digestCrc := 4, satCrc := 5, time := 6 },
       { die := .b, step := 7, layersDone := 2, stepDigest := 1, setCrc := 2, totalBytes := 3, digestCrc := 4, satCrc := 5, time := 9 }] } },
       by decide +kernel⟩,
   ⟨{ (stp : Step) with
       stage := .packed, workA := { (DieWork.zero : DieWork) with set := some ((List.range 64).map (BitVec.ofNat 8)), summarised := true },
       workB := { (DieWork.zero : DieWork) with set := some ((List.range 64).map (BitVec.ofNat 8)), summarised := true } },
       { die := .a, step := 7, layersDone := 2, stepDigest := 1, setCrc := 2, totalBytes := 3, digestCrc := 4, satCrc := 5, time := 6 },
       { die := .b, step := 7, layersDone := 2, stepDigest := 1, setCrc := 2, totalBytes := 3, digestCrc := 4, satCrc := 6, time := 9 },
       { (quiet 0x00A (busy) : State) with
       steps := [{ (stp : Step) with
       stage := .packed, workA := { (DieWork.zero : DieWork) with set := some ((List.range 64).map (BitVec.ofNat 8)), summarised := true },
       workB := { (DieWork.zero : DieWork) with set := some ((List.range 64).map (BitVec.ofNat 8)), summarised := true } }],
       sched := { up.sched with running := some 7 }, ward := { up.ward with
       agree := 0xFFFF,
       summaries := [{ die := .a, step := 7, layersDone := 2, stepDigest := 1, setCrc := 2, totalBytes := 3, digestCrc := 4, satCrc := 5, time := 6 },
       { die := .b, step := 7, layersDone := 2, stepDigest := 1, setCrc := 2, totalBytes := 3, digestCrc := 4, satCrc := 6, time := 9 }] } },
       by decide +kernel⟩,
   ⟨{ (stp : Step) with
       stage := .packed, workA := { (DieWork.zero : DieWork) with set := some ((List.range 64).map (BitVec.ofNat 8)), summarised := true },
       workB := { (DieWork.zero : DieWork) with set := some ((List.range 64).map (BitVec.ofNat 8)), summarised := true } },
       { die := .a, step := 7, layersDone := 2, stepDigest := 1, setCrc := 2, totalBytes := 3, digestCrc := 4, satCrc := 5, time := 6 },
       { die := .b, step := 7, layersDone := 2, stepDigest := 1, setCrc := 2, totalBytes := 3, digestCrc := 4, satCrc := 5, time := 9 },
       { (quiet 0x00C (busy) : State) with
       steps := [{ (stp : Step) with
       stage := .packed, workA := { (DieWork.zero : DieWork) with set := some ((List.range 64).map (BitVec.ofNat 8)), summarised := true },
       workB := { (DieWork.zero : DieWork) with set := some ((List.range 64).map (BitVec.ofNat 8)), summarised := true } }],
       sched := { up.sched with running := some 7 }, ward := { up.ward with
       agree := 0xFFFF,
       summaries := [{ die := .a, step := 7, layersDone := 2, stepDigest := 1, setCrc := 2, totalBytes := 3, digestCrc := 4, satCrc := 5, time := 6 },
       { die := .b, step := 7, layersDone := 2, stepDigest := 1, setCrc := 2, totalBytes := 3, digestCrc := 4, satCrc := 5, time := 9 }] } },
       by decide +kernel⟩,
   ⟨{ ({ (stp : Step) with stage := .packed, workA := { (DieWork.zero : DieWork) with set := some ((List.range 64).map (BitVec.ofNat 8)), summarised := true }, workB := { (DieWork.zero : DieWork) with set := some ((List.range 64).map (BitVec.ofNat 8)), summarised := true } } : Step) with
       onB := false }, true, { (busy : State) with
       steps := [{ ({ (stp : Step) with stage := .packed, workA := { (DieWork.zero : DieWork) with set := some ((List.range 64).map (BitVec.ofNat 8)), summarised := true }, workB := { (DieWork.zero : DieWork) with set := some ((List.range 64).map (BitVec.ofNat 8)), summarised := true } } : Step) with
       onB := false }], sched := { up.sched with running := some 7 }, ward := { up.ward with
       agree := 0xFFFF,
       summaries := [{ die := .a, step := 7, layersDone := 2, stepDigest := 1, setCrc := 2, totalBytes := 3, digestCrc := 4, satCrc := 5, time := 6 },
       { die := .b, step := 7, layersDone := 2, stepDigest := 1, setCrc := 2, totalBytes := 3, digestCrc := 4, satCrc := 5, time := 9 }] } },
       by decide +kernel⟩⟩

/-- States and operands that meet the hypotheses of StepsAreDelivered. -/
theorem witness_StepsAreDelivered :
    (∃ (x : Step) (set : List Byte) (cx : Ctx) (fs : List DataAt) (s : State), s.steps = [x] ∧ x.stage = .delivering ∧
        lookupN s.ladder.kills x.ctx = none ∧ x.resultSet = some set ∧ s.ctx? x.ctx = some cx ∧ cx.fn = x.fn ∧ cx.closing = false ∧
        s.recordBlocked x = false ∧ s.recordHeld x.id = false ∧ x.mirror = false ∧ x.record = false ∧ (s.hport x.fn.port).carries = true ∧
        (s.hostMem x.fn.port).wf = true ∧ s.sched.running = some x.id ∧ s.sched.nextStart = none ∧ (∀ a,
        x.deadline = some a → s.time.now.toNat ≤ a) ∧ (x.lc = true → x.deadline ≠ none) ∧ (∀ a, x.ageAt = some a → s.time.now.toNat ≤ a)) ∧
    (∃ (x : Step) (set : List Byte) (cx : Ctx) (fs : List DataAt) (s : State), s.steps = [x] ∧ x.stage = .delivering ∧
        lookupN s.ladder.kills x.ctx = none ∧ x.resultSet = some set ∧ s.ctx? x.ctx = some cx ∧ cx.fn = x.fn ∧ cx.closing = false ∧
        s.recordBlocked x = false ∧ s.recordHeld x.id = false ∧ x.mirror = false ∧ x.record = false ∧ (s.hport x.fn.port).carries = true ∧
        (s.hostMem x.fn.port).wf = true ∧ s.sched.running = some x.id ∧ s.sched.nextStart = none ∧ (∀ a,
        x.deadline = some a → s.time.now.toNat ≤ a) ∧ (x.lc = true → x.deadline ≠ none) ∧ (∀ a, x.ageAt = some a → s.time.now.toNat ≤ a)) ∧
    (∃ (x : Step) (set : List Byte) (cx : Ctx) (a : Nat) (fs : List DataAt) (s : State), s.steps = [x] ∧ x.stage = .delivering ∧
        lookupN s.ladder.kills x.ctx = none ∧ x.resultSet = some set ∧ s.ctx? x.ctx = some cx ∧ cx.fn = x.fn ∧ cx.closing = false ∧
        s.recordBlocked x = false ∧ s.recordHeld x.id = false ∧ x.mirror = false ∧ x.record = false ∧ (s.hport x.fn.port).carries = true ∧
        s.sched.running = some x.id ∧ s.sched.nextStart = none ∧ x.deadline = some a ∧ a < s.time.now.toNat ∧ x.lc = true ∧
        x.deadlineFault = false ∧ x.ageAt = none ∧ s.silent 0x011) ∧
    (∃ (x : Step) (set : List Byte) (cx : Ctx) (fs : List DataAt) (s : State), s.steps = [x] ∧ x.stage = .delivering ∧
        lookupN s.ladder.kills x.ctx = none ∧ x.resultSet = some set ∧ s.ctx? x.ctx = some cx ∧ cx.fn = x.fn ∧ cx.closing = false ∧
        s.recordBlocked x = true ∧ x.mirror = false ∧ (s.hport x.fn.port).carries = true ∧ s.sched.running = some x.id ∧ (∀ a,
        x.deadline = some a → s.time.now.toNat ≤ a) ∧ (x.lc = true → x.deadline ≠ none) ∧ (∀ a, x.ageAt = some a → s.time.now.toNat ≤ a)) ∧
    (∃ (w : Weft) (a : Nat) (b : Byte) (x : Step) (s : State), s.steps = [x] ∧ x.stage = .delivering ∧ s.beamOwner w a = .step x.ctx ∧
        s.killable x (weftSrc w 0x20)) ∧
    (∃ (f : FnId) (v : Word) (a : Nat) (x : Step) (cx : Ctx) (r : Ring) (q : Ring) (c : Completion) (s : State), s.fnLive f = true ∧
        s.ctx? x.ctx = some cx ∧ cx.fn = f ∧ cx.closing = false ∧ s.ring? x.ctx (fld v 31 24) = some r ∧ r.completion = true ∧
        fld v 15 0 < r.size ∧ (fld v 15 0 + r.size - r.head) % r.size ≤ r.used ∧ fld v 15 0 ≠ r.head ∧ r.head < r.size ∧ r.held = [c] ∧
        c.owner = some x.id ∧ c.mirrorCopy = false ∧ c.event = false ∧ (∀ y ∈ s.rings, ∀ h ∈ y.held, h.owner = some x.id → y = r) ∧
        s.ring? x.ctx c.ring = some q ∧ q.completion = false ∧ s.steps = [x] ∧ x.stage = .due 0 ∧ x.record = false ∧ s.live x.id = true ∧
        x.lc = true ∧ x.deadline = some a ∧ a < s.time.now.toNat ∧ x.deadlineFault = false ∧ x.ageAt = none ∧ s.sched.nextStart = none ∧
        s.silent 0x011 ∧ (s.hport f.port).carries = true ∧ (s.hostMem f.port).wf = true) ∧
    (∃ (c : Nat) (n : Nat) (x : Step) (s : State), s.monitored c n = some x ∧ x.deadline.getD 0 ≤ s.time.now.toNat ∧
        x.deadlineFault = false ∧ s.silent 0x011) ∧
    (∃ (c : Nat) (n : Nat) (x : Step) (s : State), s.monitored c n = some x ∧
        (s.time.now.toNat < x.deadline.getD 0 ∨ x.deadlineFault = true)) ∧
    (∃ (c : Nat) (n : Nat) (x : Step) (s : State), s.monitored c n = some x ∧
        (s.time.now.toNat < x.deadline.getD 0 ∨ x.deadlineFault = true)) ∧
    (∃ (c : Nat) (n : Nat) (a : Nat) (x : Step) (s : State), s.monitored c n = some x ∧ x.ageAt = some a ∧ a ≤ s.time.now.toNat ∧
        x.ageFault = false ∧ s.silent 0x012) ∧
    (∃ (c : Nat) (n : Nat) (a : Nat) (x : Step) (s : State), s.monitored c n = some x ∧ x.ageAt = some a ∧
        (s.time.now.toNat < a ∨ x.ageFault = true)) :=
  ⟨⟨{ (stp : Step) with
      stage := .delivering, lc := false, workA := { (DieWork.zero : DieWork) with set := some ((List.range 64).map (BitVec.ofNat 8)) } },
      (List.range 64).map (BitVec.ofNat 8), (ctx 1 fA true), [], at' 1000 ({ (busy : State) with
      steps := [{ (stp : Step) with
      stage := .delivering, lc := false, workA := { (DieWork.zero : DieWork) with set := some ((List.range 64).map (BitVec.ofNat 8)) } }],
      sched := { up.sched with running := some 7 } }),
      by and_intros <;> first | exact (fun h => absurd h (by decide)) | exact (fun a h => absurd h (by exact nofun)) | decide +kernel⟩,
   ⟨{ ({ (stp : Step) with stage := .delivering, lc := false, workA := { (DieWork.zero : DieWork) with set := some ((List.range 64).map (BitVec.ofNat 8)) } } : Step) with
       lc := true, deadline := some 5000 }, (List.range 64).map (BitVec.ofNat 8), (ctx 1 fA true), [.beam .a 512], at' 1000
       ({ (busy : State) with
       steps := [{ ({ (stp : Step) with stage := .delivering, lc := false, workA := { (DieWork.zero : DieWork) with set := some ((List.range 64).map (BitVec.ofNat 8)) } } : Step) with
       lc := true, deadline := some 5000 }], sched := { up.sched with running := some 7 } }),
       by and_intros <;> first | exact (fun a h => Option.some.inj h ▸ (by decide +kernel)) | exact (fun _ => nofun) | exact (fun a h => absurd h (by exact nofun)) | decide +kernel⟩,
   ⟨{ ({ (stp : Step) with stage := .delivering, lc := false, workA := { (DieWork.zero : DieWork) with set := some ((List.range 64).map (BitVec.ofNat 8)) } } : Step) with
       lc := true, deadline := some 999 }, (List.range 64).map (BitVec.ofNat 8), (ctx 1 fA true), 999, [], at' 1000
       ({ (quiet 17 (busy) : State) with
       steps := [{ ({ (stp : Step) with stage := .delivering, lc := false, workA := { (DieWork.zero : DieWork) with set := some ((List.range 64).map (BitVec.ofNat 8)) } } : Step) with
       lc := true, deadline := some 999 }], sched := { up.sched with running := some 7 } }), by decide +kernel⟩,
   ⟨{ (stp : Step) with
       stage := .delivering, lc := false, workA := { (DieWork.zero : DieWork) with set := some ((List.range 64).map (BitVec.ofNat 8)) } },
       (List.range 64).map (BitVec.ofNat 8), (ctx 1 fA true), [],
       { (at' 1000 ({ (busy : State) with steps := [{ (stp : Step) with stage := .delivering, lc := false, workA := { (DieWork.zero : DieWork) with set := some ((List.range 64).map (BitVec.ofNat 8)) } }], sched := { up.sched with running := some 7 } }) : State) with
       rings := busy.rings.map (fun (r : Ring) => if r.completion then { r with tail := 15 } else r) },
       by and_intros <;> first | exact (fun h => absurd h (by decide)) | exact (fun a h => absurd h (by exact nofun)) | decide +kernel⟩,
   ⟨.a, 0, 0x30, { (stp : Step) with stage := .delivering }, quiet (weftSrc .a 0x20) ({ (mul : State) with
       steps := [{ (stp : Step) with stage := .delivering }] }), by decide +kernel⟩,
   ⟨fA, 0x01000003#32, 5, { (stp : Step) with stage := .due 0, deadline := some 5 }, (ctx 1 fA true),
       { ctx := 1, index := 1, completion := true, base := 0x2000, log2 := 4, cq := 0, vector := 3, head := 0, tail := 15, read := 0, done := [], phase := true, held := [{ status := 0, substituted := false, unqualified := false, singleChannel := false, mirrorCopy := false, mirrorShort := false, ageFault := false, event := false, detail := 0, tag := 0, ring := 0, slot := 0, entry := 0, measured := 0, step := 4, slowDown := 0, ageUs := 0, irq := false, owner := some 7 }] },
       { ctx := 1, index := 0, completion := false, base := 0x1000, log2 := 4, cq := 1, vector := 0, head := 0, tail := 1, read := 1, done := [], phase := true, held := [] },
       { status := 0, substituted := false, unqualified := false, singleChannel := false, mirrorCopy := false, mirrorShort := false, ageFault := false, event := false, detail := 0, tag := 0, ring := 0, slot := 0, entry := 0, measured := 0, step := 4, slowDown := 0, ageUs := 0, irq := false, owner := some 7 },
       quiet 17 (at' 7000 { busy with
       steps := [{ (stp : Step) with stage := .due 0, deadline := some 5 }],
       rings := [{ ctx := 1, index := 0, completion := false, base := 0x1000, log2 := 4, cq := 1, vector := 0, head := 0, tail := 1, read := 1, done := [], phase := true, held := [] },
       { ctx := 1, index := 1, completion := true, base := 0x2000, log2 := 4, cq := 0, vector := 3, head := 0, tail := 15, read := 0, done := [], phase := true, held := [{ status := 0, substituted := false, unqualified := false, singleChannel := false, mirrorCopy := false, mirrorShort := false, ageFault := false, event := false, detail := 0, tag := 0, ring := 0, slot := 0, entry := 0, measured := 0, step := 4, slowDown := 0, ageUs := 0, irq := false, owner := some 7 }] }] }),
       by and_intros <;> first | exact (by decide +kernel) | decide +kernel⟩,
   ⟨1, 4, { (stp : Step) with deadline := some 999, ageAt := some 1000 }, at' 999 ({ (quiet 17 (busy) : State) with
       steps := [{ (stp : Step) with deadline := some 999, ageAt := some 1000 }], sched := { up.sched with running := some 7 } }),
       by decide +kernel⟩,
   ⟨1, 4, { (stp : Step) with deadline := some 999, ageAt := some 1000 }, at' 998 ({ (busy : State) with
       steps := [{ (stp : Step) with deadline := some 999, ageAt := some 1000 }], sched := { up.sched with running := some 7 } }),
       by decide +kernel⟩,
   ⟨1, 4, { ({ (stp : Step) with deadline := some 999, ageAt := some 1000 } : Step) with deadlineFault := true }, at' 9999
       ({ (busy : State) with
       steps := [{ ({ (stp : Step) with deadline := some 999, ageAt := some 1000 } : Step) with deadlineFault := true }],
       sched := { up.sched with running := some 7 } }), by decide +kernel⟩,
   ⟨1, 4, 1000, { (stp : Step) with deadline := some 999, ageAt := some 1000 }, at' 1000 ({ (quiet 18 (busy) : State) with
       steps := [{ (stp : Step) with deadline := some 999, ageAt := some 1000 }], sched := { up.sched with running := some 7 } }),
       by decide +kernel⟩,
   ⟨1, 4, 1000, { (stp : Step) with deadline := some 999, ageAt := some 1000 }, at' 999 ({ (busy : State) with
       steps := [{ (stp : Step) with deadline := some 999, ageAt := some 1000 }], sched := { up.sched with running := some 7 } }),
       by decide +kernel⟩⟩

/-- States and operands that meet the hypotheses of MemoryErrorsEndTheirOwners. -/
theorem witness_MemoryErrorsEndTheirOwners :
    (∃ (d : Weft) (s : State), s.beamAwake d = true) ∧
    (∃ (d : Weft) (s : State), s.beamAwake d = true) ∧
    (∃ (d : Weft) (os : List Nat) (s : State), s.beamAwake d = true) ∧
    (∃ (d : Weft) (f : ScrubFinding) (s : State), s.beamAwake d = false) ∧
    (∃ (d : Weft) (n : Nat) (a : Nat) (os : List Nat) (s : State), s.beamAwake d = true ∧ a = s.lineAddr d (n / 64) (n % 64)
        (s.weft d).scrubLine.toNat ∧ s.beamOwner d a = .nothing ∧ s.silent (weftSrc d 0x21)) ∧
    (∃ (d : Weft) (n : Nat) (a : Nat) (os : List Nat) (x : Step) (s : State), s.beamAwake d = true ∧ a = s.lineAddr d (n / 64) (n % 64)
        (s.weft d).scrubLine.toNat ∧ s.beamOwner d a = .step x.ctx ∧ s.killable x (weftSrc d 0x20)) ∧
    (∃ (d : Weft) (n : Nat) (a : Nat) (e : Nat) (os : List Nat) (s : State), s.beamAwake d = true ∧ a = s.lineAddr d (n / 64) (n % 64)
        (s.weft d).scrubLine.toNat ∧ s.beamOwner d a = .entry e ∧ s.steps = [] ∧ s.silent (weftSrc d 0x20)) ∧
    (∃ (d : Weft) (n : Nat) (a : Nat) (b : Nat) (c : Nat) (os : List Nat) (i : Instance) (s : State), s.beamAwake d = true ∧
        a = s.lineAddr d (n / 64) (n % 64) (s.weft d).scrubLine.toNat ∧ s.beamOwner d a = .batch b c ∧ s.inst? b c = some i ∧
        s.steps = [] ∧ s.silent (weftSrc d 0x20)) ∧
    (∃ (d : Weft) (g : Nat) (b : Nat) (l : Nat) (s : State), g < 8 ∧ b < 64 ∧ l < 2048) ∧
    (∃ (d : Weft) (g : Nat) (b : Nat) (l : Nat) (s : State), g < 8 ∧ b < 64 ∧ l < 2048) ∧
    (∃ (d : Weft) (c : Nat) (s : State), s.beamAwake d = true) ∧
    (∃ (d : Weft) (off : Nat) (n : Nat) (k : Nat) (c : Chan) (b : Byte) (s : State), n = off / 256 % 12 ∧ (s.weft d).chans[n]? = some c ∧
        k < 4) ∧
    (∃ (d : Weft) (off : Nat) (n : Nat) (k : Nat) (c : Chan) (b : Byte) (s : State), n = off / 256 % 12 ∧ (s.weft d).chans[n]? = some c ∧
        k < 4) ∧
    (∃ (d : Weft) (off : Nat) (k : Nat) (b : Byte) (x : Step) (s : State), 4 ≤ k ∧ s.gddrOwner d off = .step x.ctx ∧ s.killable x
        (weftSrc d 0x22)) ∧
    (∃ (d : Weft) (w : Weft) (n : Nat) (a : Nat) (c : Nat) (b : Byte) (x : Step) (s : State), n < 3 ∧ s.pwr.refLost = false ∧ s.killable x
        (weftSrc d 0x24)) ∧
    (∃ (d : Weft) (w : Weft) (n : Nat) (a : Nat) (c : Nat) (b : Byte) (x : Step) (s : State), n < 3 ∧ s.pwr.refLost = false ∧ s.killable x
        (weftSrc d 0x24)) ∧
    (∃ (d : Weft) (w : Weft) (n : Nat) (a : Nat) (b : Byte) (s : State), n < 3 ∧ s.pwr.refLost = false ∧ s.gddrOwner w a = .nothing ∧
        s.silent (weftSrc d 0x24)) ∧
    (∃ (d : Weft) (n : Nat) (h : EccHit) (s : State), (3 ≤ n ∨ s.pwr.refLost = true)) ∧
    (∃ (d : Weft) (n : Nat) (h : EccHit) (s : State), (3 ≤ n ∨ s.pwr.refLost = true)) :=
  ⟨⟨.a, up, by decide +kernel⟩,
   ⟨.b, { up with wb := { (dieUp : WeftDie) with scrubLine := 2047, scrubPasses := 0xFFFF } }, by decide +kernel⟩,
   ⟨.a, [1, 2], up, by decide +kernel⟩,
   ⟨.a, { fixed := [1], bad := [3] }, { up with wa := { (dieUp : WeftDie) with beamGrp := .at .rest } }, by decide +kernel⟩,
   ⟨.a, 511, State.lineAddr (quiet (weftSrc .a 0x21) (up)) .a (511 / 64) (511 % 64) 0, [], quiet (weftSrc .a 0x21) (up), by decide +kernel⟩,
   ⟨.a, 0, State.lineAddr (quiet (weftSrc .a 0x20) (mul)) .a (0 / 64) (0 % 64) 0, [1, 2], stp, quiet (weftSrc .a 0x20) (mul),
       by decide +kernel⟩,
   ⟨.a, 0, State.lineAddr (quiet (weftSrc .a 0x20) ({ up with
       drafts := [{ ent with
       draft := { drf with
       tensors := [{ (Tensor.zero : Tensor) with rows := 4, rowLen := 8, rowPitch := 64, weight := true, kappa := 0x7F }],
       placements := [{ (Placement.zero : Placement) with dies := 2 }] } }] })) .a (0 / 64) (0 % 64) 0, 0, [1, 2], quiet (weftSrc .a 0x20)
       ({ up with
       drafts := [{ ent with
       draft := { drf with
       tensors := [{ (Tensor.zero : Tensor) with rows := 4, rowLen := 8, rowPitch := 64, weight := true, kappa := 0x7F }],
       placements := [{ (Placement.zero : Placement) with dies := 2 }] } }] }), by decide +kernel⟩,
   ⟨.a, 0, State.lineAddr (quiet (weftSrc .a 0x20) ({ intake with
       batches := State.reset.batches.set 1 { counter := 1, instances := [inst] } })) .a (0 / 64) (0 % 64) 0, 1, 1, [1, 2], inst, quiet
       (weftSrc .a 0x20) ({ intake with batches := State.reset.batches.set 1 { counter := 1, instances := [inst] } }), by decide +kernel⟩,
   ⟨.b, 7, 63, 2047, up, by and_intros <;> first | exact (by decide) | decide +kernel⟩,
   ⟨.b, 0, 5, 9, ((up).setReg oSafety 1#32), by and_intros <;> first | exact (by decide) | decide +kernel⟩,
   ⟨.b, 3, up, by decide +kernel⟩,
   ⟨.b, 2816, 11, 3, { train := 2, edc := 0, corrected := 0 }, 0x70, running, by decide +kernel⟩,
   ⟨.a, 0x30000000, 0, 0, { train := 2, edc := 255, corrected := 0 }, 0x71, { up with
       wa := { (dieUp : WeftDie) with chans := [{ train := 2, edc := 255, corrected := 0 }] } }, by decide +kernel⟩,
   ⟨.b, 4096, 4, 0x70, { stp with saved := some (0, 0) }, quiet (weftSrc .b 0x22) ({ (running : State) with
       ctxs := [{ ctx 1 fA true with save64k := 1, saveA := 4096, saveB := 4096 }, ctx 2 fA false], steps := [{ stp with
       saved := some (0, 0) }] }), by decide +kernel⟩,
   ⟨.b, .b, 2, 4096, 0, 0x70, { stp with saved := some (0, 0) }, quiet (weftSrc .b 0x24) ({ (running : State) with
       ctxs := [{ ctx 1 fA true with save64k := 1, saveA := 4096, saveB := 4096 }, ctx 2 fA false], steps := [{ stp with
       saved := some (0, 0) }] }), by decide +kernel⟩,
   ⟨.b, .a, 0, 64, 1, 0x70, { stp with saved := some (0, 0) }, quiet (weftSrc .b 0x24) ({ (running : State) with
       ctxs := [{ ctx 1 fA true with save64k := 1, saveA := 4096, saveB := 4096 }, ctx 2 fA false], steps := [{ stp with
       saved := some (0, 0) }] }), by decide +kernel⟩,
   ⟨.b, .a, 0, 64, 0x70, quiet (weftSrc .b 0x24) (up), by decide +kernel⟩,
   ⟨.a, 3, { place := .gddr .a 64, master := 3 }, up, by decide +kernel⟩,
   ⟨.b, 0, { place := .gddr .a 64, master := 3 }, { (up : State) with pwr := { up.pwr with refLost := true } }, by decide +kernel⟩⟩

/-- States and operands that meet the hypotheses of WarpLinksFailAndRetrain. -/
theorem witness_WarpLinksFailAndRetrain :
    (∃ (l : Nat) (x : Link) (s : State), s.links[l]? = some x ∧ x.state = 2 ∧ (x.recent.filter (fun t => decide
        (s.time.now.toNat < t.toNat + 1000000))).length < 32) ∧
    (∃ (l : Nat) (x : Link) (s : State), s.links[l]? = some x ∧ x.state = 2 ∧ 32 ≤ (x.recent.filter (fun t => decide
        (s.time.now.toNat < t.toNat + 1000000))).length ∧ s.silent (linkSrc l 1)) ∧
    (∃ (l : Nat) (a : Nat) (w : Weft) (b : Byte) (x : Step) (s : State), s.linkUp l = true ∧ s.killable x (linkSrc l 2)) ∧
    (∃ (l : Nat) (a : Nat) (w : Weft) (b : Byte) (x : Step) (s : State), s.linkUp l = true ∧ s.killable x (linkSrc l 2)) ∧
    (∃ (l : Nat) (x : Link) (s : State), s.links[l]? = some x ∧ x.state = 2 ∧ s.steps = [] ∧ s.silent (linkSrc l 0) ∧ (∀ k,
        k < 4 → k ≠ l → s.linkUp k = true)) ∧
    (∃ (d : Weft) (l : Nat) (k : Nat) (s : State), (d = .a → l < 2 ∧ k = 1 - l) ∧ (d = .b → 2 ≤ l ∧ l < 4 ∧ k = 5 - l) ∧
        s.linkUp l = true ∧ s.linkUp k = false ∧ s.silent (linkSrc l 0) ∧ s.steps = [] ∧ s.posted = [] ∧ s.loadBusy = none ∧
        s.diePhase d = none ∧ (∀ f ∈ allFns, bitW (s.fnReg f 0x60) 31 = false)) ∧
    (∃ (d : Weft) (l : Nat) (k : Nat) (s : State), (d = .a → l < 2 ∧ k = 1 - l) ∧ (d = .b → 2 ≤ l ∧ l < 4 ∧ k = 5 - l) ∧
        s.linkUp l = true ∧ s.linkUp k = false ∧ s.silent (linkSrc l 0) ∧ s.steps = [] ∧ s.posted = [] ∧ s.loadBusy = none ∧
        s.diePhase d = none ∧ (∀ f ∈ allFns, bitW (s.fnReg f 0x60) 31 = false)) ∧
    (∃ (l : Nat) (x : Step) (s : State), 4 ≤ l ∧ s.linkUp l = true ∧ (∀ k, 4 ≤ k → k ≠ l → s.linkUp k = false) ∧ s.mode = 1 ∧
        s.steps = [x] ∧ x.lc = false ∧ x.stage.begun = true ∧ lookupN s.ladder.kills x.ctx = none ∧ s.silent (linkSrc l 0)) ∧
    (∃ (l : Nat) (x : Link) (s : State), s.links[l]? = some x) ∧
    (∃ (l : Nat) (x : Link) (s : State), s.links[l]? = some x) ∧
    (∃ (l : Nat) (x : Link) (s : State), s.links[l]? = some x ∧ x.state = 1 ∧ s.pwr.refLost = false ∧ l < 8 ∧ s.steps = []) ∧
    (∃ (l : Nat) (x : Link) (s : State), s.links[l]? = some x ∧ x.state = 1 ∧ s.pwr.refLost = false ∧ l < 8 ∧ s.steps = []) ∧
    (∃ (l : Nat) (s : State), ((∀ x, s.links[l]? = some x → x.state ≠ 1) ∨ s.pwr.refLost = true)) ∧
    (∃ (l : Nat) (s : State), ((∀ x, s.links[l]? = some x → x.state ≠ 1) ∨ s.pwr.refLost = true)) :=
  ⟨⟨3, { state := 2, degraded := false, modulesUp := 3, recent := [0#64, 1000001#64] }, at' 2000000 ({ (up : State) with
      links := (List.replicate 8 { state := 2, degraded := false, modulesUp := 3, recent := [] }).set 3 { state := 2, degraded := false, modulesUp := 3, recent := [0#64, 1000001#64] } }),
      by decide +kernel⟩,
   ⟨3, { state := 2, degraded := false, modulesUp := 3, recent := List.replicate 32 0#64 }, at' 999999
       ({ (quiet (linkSrc 3 1) (up) : State) with
       links := (List.replicate 8 { state := 2, degraded := false, modulesUp := 3, recent := [] }).set 3 { state := 2, degraded := false, modulesUp := 3, recent := List.replicate 32 0#64 } }),
       by decide +kernel⟩,
   ⟨6, 0, .a, 0x70, stp, quiet (linkSrc 6 2) (mul), by decide +kernel⟩,
   ⟨6, 4096, .b, 0x70, { stp with saved := some (0, 0) }, quiet (linkSrc 6 2) ({ (running : State) with
       ctxs := [{ ctx 1 fA true with save64k := 1, saveA := 4096, saveB := 4096 }, ctx 2 fA false], steps := [{ stp with
       saved := some (0, 0) }] }), by decide +kernel⟩,
   ⟨6, { state := 2, degraded := false, modulesUp := 3, recent := [] }, quiet (linkSrc 6 0) (up),
       by and_intros <;> first | exact (by decide +kernel) | decide +kernel⟩,
   ⟨.a, 1, 0, { (quiet (linkSrc 1 0) (up) : State) with
       links := (List.replicate 8 { state := 2, degraded := false, modulesUp := 3, recent := [] }).set 0 { state := 1, degraded := true, modulesUp := 0, recent := [] } },
       by decide +kernel⟩,
   ⟨.b, 2, 3, { (quiet (linkSrc 2 0) (up) : State) with
       links := (List.replicate 8 { state := 2, degraded := false, modulesUp := 3, recent := [] }).set 3 { state := 1, degraded := true, modulesUp := 0, recent := [] } },
       by decide +kernel⟩,
   ⟨5, { (stp : Step) with lc := false },
       { ({ (((quiet (linkSrc 5 0) (busy)).setReg oSafety 1#32) : State) with steps := [{ (stp : Step) with lc := false }], sched := { up.sched with running := some 7 } } : State) with
       links := [{ state := 2, degraded := false, modulesUp := 3, recent := [] },
       { state := 2, degraded := false, modulesUp := 3, recent := [] }, { state := 2, degraded := false, modulesUp := 3, recent := [] },
       { state := 2, degraded := false, modulesUp := 3, recent := [] }, { state := 1, degraded := true, modulesUp := 0, recent := [] },
       { state := 2, degraded := false, modulesUp := 3, recent := [] }, { state := 1, degraded := true, modulesUp := 0, recent := [] },
       { state := 1, degraded := true, modulesUp := 0, recent := [] }] },
       by and_intros <;> first | exact (fun k h1 h2 => if e : k < 8 then (by have q : k = 4 ∨ k = 6 ∨ k = 7 := (by omega); rcases q with rfl | rfl | rfl <;> decide +kernel) else (by unfold State.linkUp State.link?; have q : ∀ (l : List Link), l.length = 8 → l[k]? = none := fun l hl => List.getElem?_eq_none (by omega); rw [q _ (by decide +kernel)]; decide)) | decide +kernel⟩,
   ⟨7, { state := 1, degraded := true, modulesUp := 0, recent := [] }, { (up : State) with
       links := (List.replicate 8 { state := 2, degraded := false, modulesUp := 3, recent := [] }).set 7 { state := 1, degraded := true, modulesUp := 0, recent := [] } },
       by decide +kernel⟩,
   ⟨0, { state := 2, degraded := false, modulesUp := 3, recent := [] }, up, by decide +kernel⟩,
   ⟨7, { state := 1, degraded := true, modulesUp := 0, recent := [] }, { (up : State) with
       links := (List.replicate 8 { state := 2, degraded := false, modulesUp := 3, recent := [] }).set 7 { state := 1, degraded := true, modulesUp := 0, recent := [] } },
       by decide +kernel⟩,
   ⟨0, { state := 1, degraded := true, modulesUp := 0, recent := [] }, { (up : State) with
       links := (List.replicate 8 { state := 2, degraded := false, modulesUp := 3, recent := [] }).set 0 { state := 1, degraded := true, modulesUp := 0, recent := [] } },
       by decide +kernel⟩,
   ⟨7, { ({ (up : State) with links := (List.replicate 8 { state := 2, degraded := false, modulesUp := 3, recent := [] }).set 7 { state := 1, degraded := true, modulesUp := 0, recent := [] } } : State) with
       pwr := { up.pwr with refLost := true } }, Or.inr (by decide +kernel)⟩,
   ⟨8, up, Or.inl (fun x h => by have e : (none : Option Link) = some x := h; cases e)⟩⟩

/-- States and operands that meet the hypotheses of ImageSamplesArrive. -/
theorem witness_ImageSamplesArrive :
    (∃ (p : Nat) (vc : Nat) (k : Nat) (c : Nat) (rec : Recipe) (s : State), s.slotOf p vc = some k ∧ s.creelOn = true ∧ s.portOn p = true ∧
        (s.slot k).input = [] ∧ (s.slot k).phase = .idle ∧ k < s.slots.length ∧ s.slotRec k = some rec ∧ rec.points = false ∧
        s.openFor k = some c ∧ (s.recipeCb rec).isSome = true) ∧
    (∃ (p : Nat) (vc : Nat) (k : Nat) (rec : Recipe) (s : State), s.slotOf p vc = some k ∧ s.creelOn = true ∧ s.portOn p = true ∧
        (s.slot k).input = [] ∧ (s.slot k).phase = .idle ∧ k < s.slots.length ∧ s.slotRec k = some rec ∧ s.openFor k = none ∧ s.openInst
        (s.slotBatch k) s.time.now = none ∧ s.silent 0x020) ∧
    (∃ (p : Nat) (vc : Nat) (k : Nat) (ty : Nat) (bs : List Byte) (sm : Sample) (rec : Recipe) (s : State), s.slotOf p vc = some k ∧
        s.creelOn = true ∧ s.portOn p = true ∧ (s.slot k).input = [] ∧ (s.slot k).phase = .open sm ∧ s.slotRec k = some rec ∧
        isImageType ty = true ∧ ty ≠ 0x12 ∧ ty = rec.dataType ∧ bs.length = lineBytes rec.dataType rec.wIn ∧ sm.lines.length < rec.hIn ∧
        (s.recipeCb rec).isSome = true ∧ (s.inst? (s.slotBatch k) sm.counter).isSome = true) ∧
    (∃ (p : Nat) (vc : Nat) (k : Nat) (ty : Nat) (bs : List Byte) (sm : Sample) (rec : Recipe) (s : State), s.slotOf p vc = some k ∧
        s.creelOn = true ∧ s.portOn p = true ∧ (s.slot k).input = [] ∧ (s.slot k).phase = .open sm ∧ s.slotRec k = some rec ∧
        isImageType ty = true ∧ ty ≠ 0x12) ∧
    (∃ (p : Nat) (vc : Nat) (k : Nat) (ty : Nat) (bs : List Byte) (sm : Sample) (rec : Recipe) (s : State), s.slotOf p vc = some k ∧
        s.creelOn = true ∧ s.portOn p = true ∧ (s.slot k).input = [] ∧ (s.slot k).phase = .open sm ∧ s.slotRec k = some rec ∧
        isImageType ty = true ∧ ty ≠ 0x12) ∧
    (∃ (p : Nat) (vc : Nat) (k : Nat) (ty : Nat) (bs : List Byte) (sm : Sample) (rec : Recipe) (s : State), s.slotOf p vc = some k ∧
        s.creelOn = true ∧ s.portOn p = true ∧ (s.slot k).input = [] ∧ (s.slot k).phase = .open sm ∧ s.slotRec k = some rec ∧
        isImageType ty = true ∧ ty ≠ 0x12 ∧ s.silent 0x022) ∧
    (∃ (p : Nat) (vc : Nat) (k : Nat) (ty : Nat) (bs : List Byte) (sm : Sample) (rec : Recipe) (s : State), s.slotOf p vc = some k ∧
        s.creelOn = true ∧ s.portOn p = true ∧ (s.slot k).input = [] ∧ (s.slot k).phase = .open sm ∧ s.slotRec k = some rec ∧
        isImageType ty = true ∧ ty ≠ 0x12 ∧ s.silent 0x022) ∧
    (∃ (p : Nat) (vc : Nat) (k : Nat) (ty : Nat) (bs : List Byte) (sm : Sample) (rec : Recipe) (s : State), s.slotOf p vc = some k ∧
        s.creelOn = true ∧ s.portOn p = true ∧ (s.slot k).input = [] ∧ (s.slot k).phase = .open sm ∧ s.slotRec k = some rec ∧
        isImageType ty = true ∧ ty ≠ 0x12 ∧ s.silent 0x022) ∧
    (∃ (p : Nat) (vc : Nat) (k : Nat) (ty : Nat) (bs : List Byte) (sm : Sample) (rec : Recipe) (s : State), s.slotOf p vc = some k ∧
        s.creelOn = true ∧ s.portOn p = true ∧ (s.slot k).input = [] ∧ (s.slot k).phase = .open sm ∧ s.slotRec k = some rec ∧
        isImageType ty = true ∧ ty ≠ 0x12 ∧ s.silent 0x00D) ∧
    (∃ (p : Nat) (vc : Nat) (k : Nat) (ty : Nat) (bs : List Byte) (sm : Sample) (s : State), s.slotOf p vc = some k ∧ s.creelOn = true ∧
        s.portOn p = true ∧ (s.slot k).input = [] ∧ (s.slot k).phase = .open sm ∧ ty ≠ 0x12 ∧ isImageType ty = false) ∧
    (∃ (p : Nat) (vc : Nat) (k : Nat) (ty : Nat) (bs : List Byte) (s : State), s.slotOf p vc = some k ∧ s.creelOn = true ∧
        s.portOn p = true ∧ (s.slot k).input = [] ∧ (s.slotRec k).isSome = true ∧ k < s.slots.length ∧ isImageType ty = true ∧ ty ≠ 0x12 ∧
        (s.slot k).phase = .late) ∧
    (∃ (p : Nat) (vc : Nat) (k : Nat) (ty : Nat) (bs : List Byte) (s : State), s.slotOf p vc = some k ∧ s.creelOn = true ∧
        s.portOn p = true ∧ (s.slot k).input = [] ∧ (s.slotRec k).isSome = true ∧ k < s.slots.length ∧ isImageType ty = true ∧ ty ≠ 0x12 ∧
        (s.slot k).phase = .late) ∧
    (∃ (p : Nat) (vc : Nat) (k : Nat) (ty : Nat) (bs : List Byte) (s : State), s.slotOf p vc = some k ∧ s.creelOn = true ∧
        s.portOn p = true ∧ (s.slot k).input = [] ∧ (s.slotRec k).isSome = true ∧ k < s.slots.length ∧ isImageType ty = true ∧ ty ≠ 0x12 ∧
        (s.slot k).phase = .dropping) ∧
    (∃ (p : Nat) (vc : Nat) (k : Nat) (ty : Nat) (bs : List Byte) (s : State), s.slotOf p vc = some k ∧ s.creelOn = true ∧
        s.portOn p = true ∧ (s.slot k).input = [] ∧ (s.slotRec k).isSome = true ∧ k < s.slots.length ∧ isImageType ty = true ∧ ty ≠ 0x12 ∧
        (s.slot k).phase = .dropping) ∧
    (∃ (p : Nat) (vc : Nat) (k : Nat) (ty : Nat) (bs : List Byte) (s : State), s.slotOf p vc = some k ∧ s.creelOn = true ∧
        s.portOn p = true ∧ (s.slot k).input = [] ∧ (s.slotRec k).isSome = true ∧ k < s.slots.length ∧ isImageType ty = true ∧ ty ≠ 0x12 ∧
        (s.slot k).phase = .idle) ∧
    (∃ (p : Nat) (vc : Nat) (k : Nat) (ty : Nat) (bs : List Byte) (s : State), s.slotOf p vc = some k ∧ s.creelOn = true ∧
        s.portOn p = true ∧ (s.slot k).input = [] ∧ (s.slotRec k).isSome = true ∧ k < s.slots.length ∧ isImageType ty = true ∧ ty ≠ 0x12 ∧
        (s.slot k).phase = .idle) ∧
    (∃ (p : Nat) (vc : Nat) (k : Nat) (ty : Nat) (bs : List Byte) (crc : Bool) (lanes : Bool) (ovf : Bool) (fixed : Bool) (waits : Bool)
        (ecc : IntakeCheck) (s : State), s.slotOf p vc = some k ∧ s.portOn p = true ∧ s.intakeOn = true ∧ k < s.slots.length ∧
        (waits = true ∨ s.creelOn = false)) ∧
    (∃ (p : Nat) (vc : Nat) (k : Nat) (ty : Nat) (bs : List Byte) (crc : Bool) (lanes : Bool) (ovf : Bool) (fixed : Bool) (waits : Bool)
        (ecc : IntakeCheck) (s : State), s.slotOf p vc = some k ∧ s.portOn p = true ∧ s.intakeOn = true ∧ k < s.slots.length ∧
        (waits = true ∨ s.creelOn = false)) ∧
    (∃ (p : Nat) (vc : Nat) (k : Nat) (c : Nat) (tm : Dword) (rec : Recipe) (s : State), s.slotOf p vc = some k ∧ s.creelOn = true ∧
        s.portOn p = true ∧ (s.slot k).input = [(tm, .frameStart)] ∧ (s.slot k).phase = .idle ∧ k < s.slots.length ∧
        s.slotRec k = some rec ∧ rec.points = false ∧ s.openFor k = some c ∧ (s.recipeCb rec).isSome = true) ∧
    (∃ (p : Nat) (vc : Nat) (ty : Nat) (bs : List Byte) (b : Bool) (c : Bool) (d : Bool) (e : Bool) (f : Bool) (h : Bool)
        (ecc : IntakeCheck) (s : State), (s.slotOf p vc = none ∨ s.portOn p = false)) ∧
    (∃ (p : Nat) (vc : Nat) (ty : Nat) (bs : List Byte) (b : Bool) (c : Bool) (d : Bool) (e : Bool) (f : Bool) (h : Bool)
        (ecc : IntakeCheck) (s : State), (s.slotOf p vc = none ∨ s.portOn p = false)) ∧
    (∃ (p : Nat) (vc : Nat) (k : Nat) (sm : Sample) (rec : Recipe) (i : Instance) (q : Pos) (s : State), s.slotOf p vc = some k ∧
        s.creelOn = true ∧ s.portOn p = true ∧ (s.slot k).input = [] ∧ (s.slot k).phase = .open sm ∧ s.slotRec k = some rec ∧
        sm.lines.length = rec.hIn ∧ s.inst? (s.slotBatch k) sm.counter = some i ∧ i.pos[sm.position]? = some q) ∧
    (∃ (p : Nat) (vc : Nat) (k : Nat) (sm : Sample) (rec : Recipe) (s : State), s.slotOf p vc = some k ∧ s.creelOn = true ∧
        s.portOn p = true ∧ (s.slot k).input = [] ∧ (s.slot k).phase = .open sm ∧ s.slotRec k = some rec ∧ sm.lines.length ≠ rec.hIn) ∧
    (∃ (p : Nat) (vc : Nat) (k : Nat) (sm : Sample) (ty : Nat) (fx : Bool) (s : State), s.slotOf p vc = some k ∧ s.creelOn = true ∧
        s.portOn p = true ∧ (s.slot k).input = [] ∧ (s.slot k).phase = .open sm) ∧
    (∃ (p : Nat) (vc : Nat) (k : Nat) (sm : Sample) (ty : Nat) (fx : Bool) (s : State), s.slotOf p vc = some k ∧ s.creelOn = true ∧
        s.portOn p = true ∧ (s.slot k).input = [] ∧ (s.slot k).phase = .open sm) ∧
    (∃ (p : Nat) (vc : Nat) (k : Nat) (ty : Nat) (fx : Bool) (s : State), s.slotOf p vc = some k ∧ s.creelOn = true ∧ s.portOn p = true ∧
        (s.slot k).input = [] ∧ 4 ≤ ty ∧ ty ≠ 0x12 ∧ isImageType ty = false ∧ k < s.slots.length) ∧
    (∃ (p : Nat) (vc : Nat) (k : Nat) (ty : Nat) (fx : Bool) (s : State), s.slotOf p vc = some k ∧ s.creelOn = true ∧ s.portOn p = true ∧
        (s.slot k).input = [] ∧ 4 ≤ ty ∧ ty ≠ 0x12 ∧ isImageType ty = false ∧ k < s.slots.length) ∧
    (∃ (p : Nat) (k : Nat) (s : State), p < 0x18 ∧ s.intakeOn = true ∧ s.creelOn = false ∧ s.portOn p = true ∧ k < s.slots.length ∧
        (List.range 32).filter (fun k => s.slotOn k && s.slotPort k == p) = [k]) ∧
    (∃ (p : Nat) (k : Nat) (sm : Sample) (s : State), p < 0x18 ∧ s.creelOn = true ∧ s.portOn p = true ∧ (List.range 32).filter
        (fun k => s.slotOn k && s.slotPort k == p) = [k] ∧ (s.slot k).phase = .open sm ∧ (s.slot k).input = []) :=
  ⟨⟨0, 0, 0, 1, rcp, at' 9 intake, by decide +kernel⟩,
   ⟨0, 0, 0, rcp, quiet 32 ({ intake with
       batches := State.reset.batches.set 1 { counter := 4, instances := (List.range 4).map (fun n => { inst with buffer := n, ready := true }) } }),
       by decide +kernel⟩,
   ⟨0, 0, 0, 0x2B, [1, 2, 3, 4, 5], smp, rcp, (inPhase (.open smp)) intake, by decide +kernel⟩,
   ⟨0, 0, 0, 0x2B, [1, 2, 3, 4, 5], smp, rcp, quiet 13 (quiet 34 (quiet 33 ((inPhase (.open smp)) intake))), by decide +kernel⟩,
   ⟨0, 0, 0, 0x2B, [1, 2, 3, 4, 5], smp, rcp, quiet 13 (quiet 34 (quiet 33 ((inPhase (.open smp)) intake))), by decide +kernel⟩,
   ⟨0, 0, 0, 0x2B, [1, 2, 3, 4, 5], smp, rcp, quiet 13 (quiet 34 (quiet 33 ((inPhase (.open smp)) intake))), by decide +kernel⟩,
   ⟨0, 0, 0, 0x2B, [1, 2, 3, 4, 5], smp, rcp, quiet 13 (quiet 34 (quiet 33 ((inPhase (.open smp)) intake))), by decide +kernel⟩,
   ⟨0, 0, 0, 0x2B, [1, 2, 3, 4, 5], smp, rcp, quiet 13 (quiet 34 (quiet 33 ((inPhase (.open smp)) intake))), by decide +kernel⟩,
   ⟨0, 0, 0, 0x2B, [1, 2, 3, 4, 5], smp, rcp, quiet 13 (quiet 34 (quiet 33 ((inPhase (.open smp)) intake))), by decide +kernel⟩,
   ⟨0, 0, 0, 0x13, [], smp, (inPhase (.open smp)) intake, by decide +kernel⟩,
   ⟨0, 0, 0, 0x2B, [1, 2, 3, 4, 5], (inPhase .late intake), by decide +kernel⟩,
   ⟨0, 0, 0, 0x2B, [1, 2, 3, 4, 5], (inPhase .late intake), by decide +kernel⟩,
   ⟨0, 0, 0, 0x2B, [1, 2, 3, 4, 5], (inPhase .dropping intake), by decide +kernel⟩,
   ⟨0, 0, 0, 0x2B, [1, 2, 3, 4, 5], (inPhase .dropping intake), by decide +kernel⟩,
   ⟨0, 0, 0, 0x2B, [1, 2, 3, 4, 5], (inPhase .idle intake), by decide +kernel⟩,
   ⟨0, 0, 0, 0x2B, [1, 2, 3, 4, 5], (inPhase .idle intake), by decide +kernel⟩,
   ⟨0, 0, 0, 0x3F, [1], true, true, false, true, true, noBits, intake, by decide +kernel⟩,
   ⟨0, 0, 0, 0x2B, [], false, true, false, false, false, { fixed := [4], hit := none }, { (intake : State) with
       clk := { up.clk with creel := false } }, by decide +kernel⟩,
   ⟨0, 0, 0, 1, 7, rcp, (intake).modSlot 0 (fun (x : Slot) => { x with input := [(7#64, .frameStart)] }), by decide +kernel⟩,
   ⟨0, 3, 0x2B, [], true, true, false, true, true, true, noBits, intake, by decide +kernel⟩,
   ⟨0, 0, 0x2B, [], true, true, false, true, true, true, noBits, (intake.setReg (oPortCtl 0) 0#32), by decide +kernel⟩,
   ⟨0, 0, 0, { (smp : Sample) with lines := List.replicate 2 ((rcp.planes 0 (unpackLine 0x2B [1, 2, 3, 4, 5]))) }, rcp, inst,
       { state := .empty, stream := 0, cause := 0, sat := 0, time := 0, corrupt := false }, (inPhase (.open ({ (smp : Sample) with
       lines := List.replicate 2 ((rcp.planes 0 (unpackLine 0x2B [1, 2, 3, 4, 5]))) }))) intake, by decide +kernel⟩,
   ⟨0, 0, 0, smp, rcp, (inPhase (.open smp)) intake, by decide +kernel⟩,
   ⟨0, 0, 0, smp, 0x2B, true, (inPhase (.open smp)) intake, by decide +kernel⟩,
   ⟨0, 0, 0, smp, 0x2B, false, (inPhase (.open smp)) intake, by decide +kernel⟩,
   ⟨0, 0, 0, 0x04, true, intake, by decide +kernel⟩,
   ⟨0, 0, 0, 0x3F, false, (inPhase (.open smp)) intake, by decide +kernel⟩,
   ⟨0, 0, { (intake : State) with clk := { up.clk with creel := false } }, by decide +kernel⟩,
   ⟨0, 0, smp, (inPhase (.open smp)) intake, by decide +kernel⟩⟩

/-- States and operands that meet the hypotheses of SweepsCopiesAndBatches. -/
theorem witness_SweepsCopiesAndBatches :
    (∃ (e : Nat) (k : Nat) (f : List Byte) (ip : List Byte) (udp : List Byte) (lanes : Bool) (waits : Bool) (ecc : IntakeCheck)
        (s : State), s.intakeOn = true ∧ s.portOn (0x18 + e) = true ∧ ipv4Of f = some ip ∧ udpOf ip = some udp ∧ s.udpSlots e
        (beAt udp 2 2) = [k] ∧ (9022 < f.length ∨ sumsOk ip udp = false ∨ fld (s.reg (oSlotSel k)) 15 0 ≠ leAt (udp.drop 8) 6 2) ∧
        k < s.slots.length) ∧
    (∃ (e : Nat) (f : List Byte) (lanes : Bool) (waits : Bool) (ecc : IntakeCheck) (s : State), ipv4Of f = none) ∧
    (∃ (e : Nat) (k : Nat) (c : Nat) (f : List Byte) (ip : List Byte) (udp : List Byte) (bs : List Byte) (rec : Recipe) (s : State),
        s.creelOn = true ∧ s.portOn (0x18 + e) = true ∧ ipv4Of f = some ip ∧ udpOf ip = some udp ∧ s.udpSlots e (beAt udp 2 2) = [k] ∧
        f.length ≤ 9022 ∧ sumsOk ip udp = true ∧ bs = udp.drop 8 ∧ fld (s.reg (oSlotSel k)) 15 0 = leAt bs 6 2 ∧ s.slotRec k = some rec ∧
        rec.points = true ∧ packetOk bs = true ∧ bitN (leAt bs 5 1) 0 = true ∧ bitN (leAt bs 5 1) 1 = false ∧ leAt bs 12 2 = 0 ∧
        (s.slot k).input = [] ∧ (s.slot k).phase = .idle ∧ k < s.slots.length ∧ s.openFor k = some c ∧ (s.recipeCb rec).isSome = true) ∧
    (∃ (k : Nat) (h : Hold) (fs : List DataAt) (s : State), (s.slot k).copying = some h) ∧
    (∃ (k : Nat) (h : Hold) (fs : List DataAt) (s : State), (s.slot k).copying = some h) ∧
    (∃ (k : Nat) (a : Nat) (h : Hold) (w : Weft) (m : Byte) (s : State), (s.slot k).copying = some h ∧ s.steps = [] ∧ s.silent
        (weftSrc w 0x20)) ∧
    (∃ (b : Nat) (c : Nat) (i : Instance) (p : Pos) (rec : Recipe) (s : State), s.inst? b c = some i ∧ i.ready = false ∧
        i.discarded = false ∧ i.pos = [p] ∧ p.state = .empty ∧ s.slotRec p.stream = some rec ∧
        i.openTime.toNat + rec.closeUs * 1000 ≤ s.time.now.toNat ∧ p.stream < s.slots.length ∧ (rec.lastGood = false ∨
        (s.slot p.stream).hold = none)) ∧
    (∃ (b : Nat) (c : Nat) (i : Instance) (p : Pos) (rec : Recipe) (h : Hold) (s : State), s.inst? b c = some i ∧ i.ready = false ∧
        i.discarded = false ∧ i.pos = [p] ∧ p.state = .empty ∧ s.slotRec p.stream = some rec ∧
        i.openTime.toNat + rec.closeUs * 1000 ≤ s.time.now.toNat ∧ p.stream < s.slots.length ∧ rec.lastGood = true ∧
        (s.slot p.stream).hold = some h ∧ s.time.now.toNat - h.time.toNat ≤ rec.maxAgeUs * 1000) ∧
    (∃ (k : Nat) (chk : ReadChecks) (s : State), (s.slot k).copying = none) ∧
    (∃ (b : Nat) (c : Nat) (q : Nat) (i : Instance) (p : Pos) (fs : List DataAt) (s : State), s.inst? b c = some i ∧ i.pos[q]? = some p) ∧
    (∃ (b : Nat) (c : Nat) (q : Nat) (i : Instance) (p : Pos) (fs : List DataAt) (s : State), s.inst? b c = some i ∧ i.pos[q]? = some p) ∧
    (∃ (b : Nat) (c : Nat) (q : Nat) (a : Nat) (i : Instance) (p : Pos) (w : Weft) (m : Byte) (s : State), s.inst? b c = some i ∧
        i.pos[q]? = some p ∧ p.state = .copying ∧ s.steps = [] ∧ s.silent (weftSrc w 0x20)) ∧
    (∃ (b : Nat) (c : Nat) (i : Instance) (bs : List Byte) (s : State), s.inst? b c = some i ∧ i.full = true ∧ i.ready = false ∧
        i.discarded = false ∧ i.released = false ∧ (∀ x ∈ s.steps, x.uses b c = false) ∧ (∀ j ∈ (s.batch b).instances, j.counter ≤ c) ∧
        i.started = false ∧ s.wa.memWf = true ∧ s.wb.memWf = true ∧ bs = Instance.manifest
        { i with ready := true, readyTime := s.time.now } b) ∧
    (∃ (b : Nat) (c : Nat) (i : Instance) (s : State), s.inst? b c = some i ∧ i.full = false) :=
  ⟨⟨0, 0, List.replicate 12 0 ++ [0x08, 0] ++ [0x45, 0, 0, 72, 0, 0, 0, 0, 64, 17, 0x7B, 0xA6] ++ List.replicate 8 0 ++ [0, 1, 0, 9, 0, 52,
      0, 0] ++ leBytes 4 0x54504B50 ++ [1, 1, 0, 0] ++ leBytes 4 77 ++ [0, 0, 1, 0] ++ List.replicate 28 0 ++ [0, 0, 0, 0], [0x45, 0, 0,
      72, 0, 0, 0, 0, 64, 17, 0x7B, 0xA6] ++ List.replicate 8 0 ++ [0, 1, 0, 9, 0, 52, 0, 0] ++ leBytes 4 0x54504B50 ++ [1, 1, 0,
      0] ++ leBytes 4 77 ++ [0, 0, 1, 0] ++ List.replicate 28 0, [0, 1, 0, 9, 0, 52, 0, 0] ++ leBytes 4 0x54504B50 ++ [1, 1, 0,
      0] ++ leBytes 4 77 ++ [0, 0, 1, 0] ++ List.replicate 28 0, true, false, noBits, ((({ (intake : State) with
      recipes := [{ slot := 3, partition := 0, recipe := parseRecipe cloud, digest := 0, bytes := 128 }] }).setReg
      (oSlotBind 0) 0x10010318#32).setReg (oSlotSel 0) 0x90000#32), by decide +kernel⟩,
   ⟨0, [], true, true, noBits, up, by decide +kernel⟩,
   ⟨0, 0, 1, List.replicate 12 0 ++ [0x08, 0] ++ [0x45, 0, 0, 72, 0, 0, 0, 0, 64, 17, 0x7A, 0xA6] ++ List.replicate 8 0 ++ [0, 1, 0, 9, 0,
       52, 0, 0] ++ leBytes 4 0x54504B50 ++ [1, 1, 0, 0] ++ leBytes 4 77 ++ [0, 0, 1, 0] ++ List.replicate 28 0 ++ [0, 0, 0, 0], [0x45, 0,
       0, 72, 0, 0, 0, 0, 64, 17, 0x7A, 0xA6] ++ List.replicate 8 0 ++ [0, 1, 0, 9, 0, 52, 0, 0] ++ leBytes 4 0x54504B50 ++ [1, 1, 0,
       0] ++ leBytes 4 77 ++ [0, 0, 1, 0] ++ List.replicate 28 0, [0, 1, 0, 9, 0, 52, 0, 0] ++ leBytes 4 0x54504B50 ++ [1, 1, 0,
       0] ++ leBytes 4 77 ++ [0, 0, 1, 0] ++ List.replicate 28 0, leBytes 4 0x54504B50 ++ [1, 1, 0, 0] ++ leBytes 4 77 ++ [0, 0, 1,
       0] ++ List.replicate 28 0, parseRecipe cloud, at' 99 (((({ (intake : State) with
       recipes := [{ slot := 3, partition := 0, recipe := parseRecipe cloud, digest := 0, bytes := 128 }] }).setReg
       (oSlotBind 0) 0x10010318#32).setReg (oSlotSel 0) 0x90000#32)), by decide +kernel⟩,
   ⟨0, { time := 5, sat := 3, comp := false }, [], (intake).modSlot 0 (fun (x : Slot) => { x with
       copying := some { time := 5, sat := 3, comp := false } }), by decide +kernel⟩,
   ⟨0, { time := 5, sat := 3, comp := false }, [.beam .a 64], (intake).modSlot 0 (fun (x : Slot) => { x with
       copying := some { time := 5, sat := 3, comp := false } }), by decide +kernel⟩,
   ⟨0, 64, { time := 5, sat := 3, comp := false }, .a, 0x10, quiet (weftSrc .a 0x20) ((intake).modSlot 0 (fun (x : Slot) => { x with
       copying := some { time := 5, sat := 3, comp := false } })), by decide +kernel⟩,
   ⟨1, 1, inst, { state := .empty, stream := 0, cause := 0, sat := 0, time := 0, corrupt := false }, rcp, at' 100000 ((inPhase
       (.open smp)) intake), by decide +kernel⟩,
   ⟨1, 1, inst, { state := .empty, stream := 0, cause := 0, sat := 0, time := 0, corrupt := false }, { (rcp : Recipe) with
       lastGood := true, maxAgeUs := 200 }, { time := 5, sat := 3, comp := false }, at' 100000 (({ (intake : State) with
       recipes := [{ slot := 3, partition := 0, recipe := { (rcp : Recipe) with lastGood := true, maxAgeUs := 200 }, digest := 0, bytes := 128 }] }).modSlot 0
       (fun (x : Slot) => { x with hold := some { time := 5, sat := 3, comp := false } })), by decide +kernel⟩,
   ⟨0, noErr, intake, by decide +kernel⟩,
   ⟨1, 1, 0, { (inst : Instance) with pos := [{ state := .copying, stream := 0, cause := 0, sat := 0, time := 0, corrupt := false }] },
       { state := .copying, stream := 0, cause := 0, sat := 0, time := 0, corrupt := false }, [.beam .b 0], { (intake : State) with
       batches := State.reset.batches.set 1 { counter := 1, instances := [{ (inst : Instance) with pos := [{ state := .copying, stream := 0, cause := 0, sat := 0, time := 0, corrupt := false }] }] } },
       by decide +kernel⟩,
   ⟨1, 1, 0, { (inst : Instance) with pos := [{ state := .received, stream := 0, cause := 0, sat := 0, time := 0, corrupt := false }] },
       { state := .received, stream := 0, cause := 0, sat := 0, time := 0, corrupt := false }, [.beam .b 0], { (intake : State) with
       batches := State.reset.batches.set 1 { counter := 1, instances := [{ (inst : Instance) with pos := [{ state := .received, stream := 0, cause := 0, sat := 0, time := 0, corrupt := false }] }] } },
       by decide +kernel⟩,
   ⟨1, 1, 0, 64, { (inst : Instance) with pos := [{ state := .copying, stream := 0, cause := 0, sat := 0, time := 0, corrupt := false }] },
       { state := .copying, stream := 0, cause := 0, sat := 0, time := 0, corrupt := false }, .b, 0x10, quiet (weftSrc .b 0x20)
       ({ (intake : State) with
       batches := State.reset.batches.set 1 { counter := 1, instances := [{ (inst : Instance) with pos := [{ state := .copying, stream := 0, cause := 0, sat := 0, time := 0, corrupt := false }] }] } }),
       by decide +kernel⟩,
   ⟨1, 1, { (inst : Instance) with pos := [{ state := .received, stream := 0, cause := 0, sat := 0, time := 0, corrupt := false }] },
       Instance.manifest { (inst : Instance) with
       pos := [{ state := .received, stream := 0, cause := 0, sat := 0, time := 0, corrupt := false }], ready := true, readyTime := 99 } 1,
       at' 99 ({ (intake : State) with
       batches := State.reset.batches.set 1 { counter := 1, instances := [{ (inst : Instance) with pos := [{ state := .received, stream := 0, cause := 0, sat := 0, time := 0, corrupt := false }] }] } }),
       by decide +kernel⟩,
   ⟨1, 1, inst, intake, by decide +kernel⟩⟩

/-- States and operands that meet the hypotheses of SlotsAndBatchesAreConfigured. -/
theorem witness_SlotsAndBatchesAreConfigured :
    (∃ (k : Nat) (v : Word) (x : RecipeSlot) (s : State), k < 32 ∧ s.missionOn = true ∧ s.slotOn k = false ∧ s.slotErr k v = 0 ∧ s.recipe?
        (fld v 13 8) = some x ∧ k < s.slots.length) ∧
    (∃ (k : Nat) (v : Word) (s : State), k < 32 ∧ s.missionOn = true ∧ s.slotOn k = false ∧ s.slotErr k v ≠ 0) ∧
    (∃ (k : Nat) (v : Word) (s : State), k < 32 ∧ s.missionOn = true ∧ s.slotOn k = false ∧ s.slotErr k v ≠ 0) ∧
    (∃ (k : Nat) (v : Word) (s : State), s.slotOn k = true) ∧
    (∃ (k : Nat) (v : Word) (s : State), k < 32 ∧ s.missionOn = true ∧ s.slotOn k = true ∧ s.steps = []) ∧
    (∃ (k : Nat) (v : Word) (s : State), k < 32 ∧ s.missionOn = true ∧ s.slotOn k = false) ∧
    (∃ (b : Nat) (v : Word) (s : State), b < 32 ∧ s.missionOn = true ∧ s.batchOn b = false ∧ s.batchErr b v = 0) ∧
    (∃ (b : Nat) (v : Word) (s : State), b < 32 ∧ s.missionOn = true ∧ s.batchOn b = false ∧ s.batchErr b v = 0) ∧
    (∃ (b : Nat) (v : Word) (s : State), b < 32 ∧ s.missionOn = true ∧ s.batchOn b = false ∧ s.batchErr b v = 0) ∧
    (∃ (b : Nat) (v : Word) (s : State), b < 32 ∧ s.missionOn = true ∧ s.batchOn b = false ∧ s.batchErr b v ≠ 0) ∧
    (∃ (b : Nat) (v : Word) (s : State), s.batchOn b = true) ∧
    (∃ (b : Nat) (v : Word) (s : State), b < 32 ∧ s.missionOn = true ∧ s.batchOn b = true ∧ s.members b ≠ []) ∧
    (∃ (b : Nat) (v : Word) (s : State), b < 32 ∧ s.missionOn = true ∧ s.batchOn b = true ∧ s.members b = [] ∧ s.steps = []) ∧
    (∃ (b : Nat) (v : Word) (s : State), b < 32 ∧ s.missionOn = true ∧ s.batchOn b = false) ∧
    (∃ (b : Nat) (cx : Ctx) (v : Word) (x : Step) (s : State), b < 32 ∧ s.missionOn = true ∧ s.batchOn b = true ∧ s.members b = [] ∧
        s.steps = [x] ∧ s.ctx? x.ctx = some cx ∧ cx.closing = false ∧ x.batchIndex = b ∧ s.waitsOpen x = true) :=
  ⟨⟨0, 0x00010300#32, { slot := 3, partition := 0, recipe := rcp, digest := 0, bytes := 128 }, intake.setReg (oSlotBind 0) 0#32,
      by decide +kernel⟩,
   ⟨31, 0x00010300#32, (intake.setReg (oSlotBind 0) 0#32).setReg (oBatchCtl 1) 0#32, by decide +kernel⟩,
   ⟨1, 0x00010300#32, intake, by decide +kernel⟩,
   ⟨0, 0#32, intake, by decide +kernel⟩,
   ⟨0, 0#32, intake, by decide +kernel⟩,
   ⟨5, 0xFFFFFFFF#32, intake, by decide +kernel⟩,
   ⟨31, 0x001#32, intake, by decide +kernel⟩,
   ⟨31, 0x001#32,
       { (intake : State) with wa := { dieUp with beamGrp := .at .cool }, wb := { dieUp with beamGrp := .entering .cool .rest } },
       by decide +kernel⟩,
   ⟨31, 0x001#32, { (intake : State) with pwr := { up.pwr with recovery := true }, wb := { dieUp with beamGrp := .waking .cool } },
       by decide +kernel⟩,
   ⟨31, 0x003#32, intake, by decide +kernel⟩,
   ⟨1, 0#32, intake, by decide +kernel⟩,
   ⟨1, 0#32, intake, by decide +kernel⟩,
   ⟨1, 0#32, intake.setReg (oSlotBind 0) 0#32, by decide +kernel⟩,
   ⟨31, 0x1FF#32, intake, by decide +kernel⟩,
   ⟨1, (ctx 1 fA true), 0#32, { (stp : Step) with
       stage := .waiting, batch := true, batchIndex := 1, started := false, onA := false, onB := false, lc := false },
       ({ (intake : State) with
       steps := [{ (stp : Step) with
       stage := .waiting, batch := true, batchIndex := 1, started := false, onA := false, onB := false, lc := false }] }).setReg
       (oSlotBind 0) 0#32, by decide +kernel⟩⟩

/-- States and operands that meet the hypotheses of FusesOnlyBlow. -/
theorem witness_FusesOnlyBlow :
    (∃ (s : State) (t : State) (owned : Bool) (returned : Bool) (rollback : Nat) (toggles : Nat) (revoked : BitVec 4), step s = .next t ∧
        s.sec.fusesKept owned returned rollback toggles revoked) :=
  ⟨{ ({ up with supply := { up.supply with standby := false } } : State) with
      sec := { up.sec with ownedFuse := true, rollbackFused := 64, toggles := 31, revoked := 5 } },
      { ({ up with supply := { up.supply with standby := false } } : State) with
      sec := { up.sec with ownedFuse := true, rollbackFused := 64, toggles := 31, revoked := 5 } }, true, false, 64, 31, 5#4,
      by and_intros <;> first | exact (rfl) | exact (by unfold Security.fusesKept; decide +kernel) | decide +kernel⟩

/-- States and operands that meet the hypotheses of MemoryStaysCanonical. -/
theorem witness_MemoryStaysCanonical :
    (∃ (s : State) (t : State), step s = .next t ∧ s.memWf = true) :=
  ⟨{ up with supply := { up.supply with standby := false }, hostMemA := [(3, 1)] }, { up with
      supply := { up.supply with standby := false }, hostMemA := [(3, 1)] }, by and_intros <;> first | exact (rfl) | decide +kernel⟩

/-- States and operands that meet the hypotheses of CommandsAnswerAndLeaveTheQueue. -/
theorem witness_CommandsAnswerAndLeaveTheQueue :
    (∃ (c : Instr) (s : State) (t : State), exec c s = .next t) :=
  ⟨.gddr6Refresh .a 0, { up with wa := { (dieUp : WeftDie) with beamGrp := .at .rest } }, { up with
      wa := { (dieUp : WeftDie) with beamGrp := .at .rest } }, rfl⟩

end Tests

end Sys2Proof
end

namespace Sys2Proof

namespace Machine

-- One at a time: side by side, lemmas that wait for the checks before them each hold a thread and its stack.
set_option Elab.async false

/-! ### Byte memories -/

@[simp] theorem Memory.wf_nil : Memory.wf [] = true := by rfl

@[simp] theorem Memory.ite_wf (c : Prop) [Decidable c] (m n : Memory) (hm : m.wf = true) (hn : n.wf = true) :
    (if c then m else n).wf = true := by
  split
  · exact hm
  · exact hn

@[simp] theorem putBytes_wf (addr : Nat → Nat) (m : Memory) (off : Nat) (bs : List Byte) (h : m.wf = true) :
    (putBytes addr m off bs).wf = true := by
  induction bs generalizing m off with
  | nil => exact h
  | cons b t ih => exact ih _ _ (Memory.wf_write m _ b h)

@[simp] theorem restoreDmem_wf (d : Weft) (m : Memory) (ranges : List LiveRange) (bs : List Byte) (h : m.wf = true) :
    (restoreDmem d m ranges bs).wf = true := by
  induction ranges generalizing m bs with
  | nil => simpa [restoreDmem] using h
  | cons r rs ih =>
    have hm : (if r.tensor = 0xFFFE then m.writeBytes r.start (bs.take r.length) else m).wf = true  :=
      Memory.ite_wf _ _ _ (Memory.wf_writeBytes _ _ _ h) h
    simp only [restoreDmem]
    exact Memory.ite_wf _ _ _ (ih _ _ hm) (ih _ _ h)

/-- The bytes of a lost memory lie at rising offsets, its zero bytes unlisted. -/
theorem filterMap_range'_wf (f : Nat → Byte) (a n : Nat) :
    Memory.wf ((List.range' a n).filterMap (fun i => if f i = 0 then none else some (i, f i))) = true := by
  induction n generalizing a with
  | zero => rfl
  | succ n ih =>
    rw [List.range'_succ, List.filterMap_cons]
    split
    · exact ih _
    · rename_i c hc
      split at hc <;> cases hc
      refine Memory.wf_cons_of _ _ ‹_› (ih _) (fun e he => ?_)
      obtain ⟨i, hi, he⟩ := List.mem_filterMap.mp he
      split at he <;> cases he
      have := (List.mem_range'_1.mp hi).1
      show a < i
      omega

@[simp] theorem freeMem_wf (k n : Nat) : (freeMem k n).wf = true := by
  unfold freeMem
  rw [List.range_eq_range']
  exact filterMap_range'_wf (fun i => Config.freeByte (k + i)) 0 n

/-! ### Shuttle pairs -/

@[simp] theorem Pair.memWf_mk (x f v pc frm fflags vcsr imem dmem run queued stall halted debugHalt debugStep testing resv) :
    Pair.memWf ⟨x, f, v, pc, frm, fflags, vcsr, imem, dmem, run, queued, stall, halted, debugHalt, debugStep, testing, resv⟩ =
      (imem.wf && dmem.wf) := by rfl

@[simp] theorem Pair.imem_wf (p : Pair) (h : p.memWf = true) : p.imem.wf = true := (Bool.and_eq_true_iff.mp h).1

@[simp] theorem Pair.dmem_wf (p : Pair) (h : p.memWf = true) : p.dmem.wf = true := (Bool.and_eq_true_iff.mp h).2

@[simp] theorem Pair.lost_memWf (k : Nat) (p : Pair) : (p.lost k).memWf = true := by
  simp [Pair.lost]

@[simp] theorem Pair.begin_memWf (p : Pair) (prog : Program) (r : Running) : (p.begin prog r).memWf = true := by
  simp [Pair.begin, Memory.wf_writeBytes]

@[simp] theorem State.pairNext_memWf (s : State) (p : Pair) (h : p.memWf = true) : (s.pairNext p).memWf = true := by
  unfold State.pairNext
  split
  · split <;> simp [h]
  · exact h

@[simp] theorem Pair.dropStep_memWf (id k : Nat) (p : Pair) (h : p.memWf = true) : (p.dropStep id k).memWf = true := by
  unfold Pair.dropStep
  split <;> simp [h]

@[simp] theorem Pair.setX_memWf (p : Pair) (i : Nat) (v : Dword) : (p.setX i v).memWf = p.memWf := by
  unfold Pair.setX
  split <;> rfl

/-! ### The pairs of a die -/

/-- The byte memories of a list of pairs are canonical. -/
def pairsWf (l : List Pair) : Bool := l.all Pair.memWf

theorem pairsWf_iff (l : List Pair) : pairsWf l = true ↔ ∀ p ∈ l, p.memWf = true := List.all_eq_true

theorem pairsWf_map (l : List Pair) (f : Pair → Pair) (hf : ∀ p, p.memWf = true → (f p).memWf = true) (h : pairsWf l = true) :
    pairsWf (l.map f) = true := by
  rw [pairsWf_iff] at h ⊢
  intro q hq
  obtain ⟨p, hp, rfl⟩ := List.mem_map.mp hq
  exact hf p (h p hp)

theorem pairsWf_zipIdx_map (l : List Pair) (f : Pair × Nat → Pair) (hf : ∀ p i, p.memWf = true → (f (p, i)).memWf = true)
    (h : pairsWf l = true) : pairsWf (l.zipIdx.map f) = true := by
  rw [pairsWf_iff] at h ⊢
  intro q hq
  obtain ⟨⟨p, i⟩, hp, rfl⟩ := List.mem_map.mp hq
  exact hf p i (h p (List.fst_mem_of_mem_zipIdx hp))

@[simp] theorem pairsWf_setAt (l : List Pair) (i : Nat) (p : Pair) (hp : p.memWf = true) (h : pairsWf l = true) :
    pairsWf (setAt l i p) = true := by
  rw [pairsWf_iff] at h ⊢
  intro q hq
  rcases List.mem_or_eq_of_mem_set hq with hq | rfl
  · exact h q hq
  · exact hp

theorem pairsWf_modAt (l : List Pair) (i : Nat) (f : Pair → Pair) (hf : ∀ p, p.memWf = true → (f p).memWf = true)
    (h : pairsWf l = true) : pairsWf (modAt l i f) = true := by
  unfold modAt
  split
  · exact h
  · rename_i p hp
    exact pairsWf_setAt l i _ (hf p ((pairsWf_iff l).mp h p (List.mem_of_getElem? hp))) h

/-! ### Weft dies -/

@[simp] theorem WeftDie.memWf_mk (loom shuttle reedFinish beamGrp inService trainFailed injectFailed zeroed beam gddr codebooks curves
    arrayQ reedQ finishQ stageQ arrayRun reedRun finishRun stageRun engines barrier tickets pairs chans scrubLine scrubPasses checks
    benchIdle) :
    WeftDie.memWf ⟨loom, shuttle, reedFinish, beamGrp, inService, trainFailed, injectFailed, zeroed, beam, gddr, codebooks, curves,
      arrayQ, reedQ, finishQ, stageQ, arrayRun, reedRun, finishRun, stageRun, engines, barrier, tickets, pairs, chans, scrubLine,
      scrubPasses, checks, benchIdle⟩ = (beam.wf && gddr.wf && pairsWf pairs) := by rfl

theorem WeftDie.memWf_iff (w : WeftDie) :
    w.memWf = true ↔ w.beam.wf = true ∧ w.gddr.wf = true ∧ pairsWf w.pairs = true := by
  simp only [WeftDie.memWf, pairsWf, Bool.and_eq_true, and_assoc]

@[simp] theorem WeftDie.beam_wf (w : WeftDie) (h : w.memWf = true) : w.beam.wf = true := (w.memWf_iff.mp h).1

@[simp] theorem WeftDie.gddr_wf (w : WeftDie) (h : w.memWf = true) : w.gddr.wf = true := (w.memWf_iff.mp h).2.1

@[simp] theorem WeftDie.pairs_wf (w : WeftDie) (h : w.memWf = true) : pairsWf w.pairs = true := (w.memWf_iff.mp h).2.2

/-- A fold of steps that keep a die canonical keeps it canonical. -/
theorem WeftDie.foldl_memWf {α : Type} (f : WeftDie → α → WeftDie) (l : List α)
    (hf : ∀ w x, w.memWf = true → (f w x).memWf = true) (w : WeftDie) (h : w.memWf = true) : (l.foldl f w).memWf = true := by
  induction l generalizing w with
  | nil => exact h
  | cons x t ih => exact ih _ (hf w x h)


@[simp] theorem WeftDie.reset_memWf : WeftDie.reset.memWf = true := by rfl

@[simp] theorem WeftDie.afterReset_memWf (w : WeftDie) : w.afterReset.memWf = true := by rfl

@[simp] theorem WeftDie.setGrp_memWf (w : WeftDie) (g : Grp) (x : GState) : (w.setGrp g x).memWf = w.memWf := by
  cases g <;> rfl

@[simp] theorem WeftDie.setQueue_memWf (w : WeftDie) (u : OpUnit) (q : List Op) : (w.setQueue u q).memWf = w.memWf := by
  cases u <;> rfl

@[simp] theorem WeftDie.setRun_memWf (w : WeftDie) (u : OpUnit) (o : Option Op) : (w.setRun u o).memWf = w.memWf := by
  cases u <;> rfl

@[simp] theorem WeftDie.dropPair_memWf (w : WeftDie) (n : Nat) : (w.dropPair n).memWf = w.memWf := by rfl

@[simp] theorem WeftDie.setPair_memWf (w : WeftDie) (n : Nat) (p : Pair) (hp : p.memWf = true) (h : w.memWf = true) :
    (w.setPair n p).memWf = true := by
  simp [WeftDie.setPair, hp, h]

@[simp] theorem WeftDie.passHinge_memWf (w : WeftDie) (id : Nat) (h : w.memWf = true) : (w.passHinge id).memWf = true := by
  have hp : pairsWf (w.passHinge id).pairs = true := by
    refine pairsWf_map _ _ (fun p hp => ?_) (w.pairs_wf h)
    split
    · exact hp
    · exact hp
  simpa [WeftDie.passHinge, h] using hp

@[simp] theorem WeftDie.dropStep_memWf (id k : Nat) (w : WeftDie) (h : w.memWf = true) : (w.dropStep id k).memWf = true := by
  have hp := pairsWf_zipIdx_map w.pairs (fun p => p.1.dropStep id (k + p.2 * pairDraws))
    (fun p _ hp => Pair.dropStep_memWf _ _ p hp) (w.pairs_wf h)
  simpa [WeftDie.dropStep, h] using hp

theorem WeftDie.setBeam_memWf (w : WeftDie) {m : Memory} (h : w.memWf = true) (hm : m.wf = true) :
    WeftDie.memWf { w with beam := m } = true := by
  simp [h, hm]

theorem WeftDie.setPairs_memWf (w : WeftDie) {l : List Pair} (h : w.memWf = true) (hl : pairsWf l = true) :
    WeftDie.memWf { w with pairs := l } = true := by
  simp [h, hl]

@[simp] theorem WeftDie.putWeight_memWf (w : WeftDie) (dr : Draft) (base j : Nat) (d : Weft) (h : w.memWf = true) :
    (w.putWeight dr base j d).memWf = true := by
  refine WeftDie.foldl_memWf _ _ (fun x pc hx => ?_) w h
  split <;> simp [hx, Memory.wf_writeBytes]

@[simp] theorem WeftDie.loadDraft_memWf (w : WeftDie) (dr : Draft) (base : Nat) (d : Weft) (h : w.memWf = true) :
    (w.loadDraft dr base d).memWf = true :=
  WeftDie.foldl_memWf _ _ (fun x j hx => WeftDie.putWeight_memWf x dr base j d hx) _ h

@[simp] theorem WeftDie.wipeDraft_memWf (w : WeftDie) (dr : Draft) (base n : Nat) (d : Weft) (h : w.memWf = true) :
    (w.wipeDraft dr base n d).memWf = true := by
  refine WeftDie.foldl_memWf _ _ (fun x j hx => WeftDie.foldl_memWf _ _ (fun y r hy => ?_) x hx) _ ?_
  · simp [hy, Memory.wf_zero]
  · simp [h, Memory.wf_zero]

/-! ### The state -/

@[simp] theorem Security.reset_mailbox : Security.reset.mailbox = [] := by rfl

@[simp] theorem Security.afterReset_mailbox (x : Security) : x.afterReset.mailbox = [] := by rfl

@[simp] theorem Security.copyEeprom_mailbox (x : Security) : x.copyEeprom.mailbox = x.mailbox := by
  unfold Security.copyEeprom
  split <;> rfl

@[simp] theorem State.memWf_mk (pending pins supply pwr time clk regs fnRegs bus sec hasp ladder disabled portA portB portS flrBusy msix
    hostMemA hostMemB ctxs rings readQ posted heldBells latches eventLost loadBusy drafts kappas recipes steps sched ward wa wb links slots
    batches frame ctr freshCtr mon) :
    State.memWf ⟨pending, pins, supply, pwr, time, clk, regs, fnRegs, bus, sec, hasp, ladder, disabled, portA, portB, portS, flrBusy,
      msix, hostMemA, hostMemB, ctxs, rings, readQ, posted, heldBells, latches, eventLost, loadBusy, drafts, kappas, recipes, steps, sched,
      ward, wa, wb, links, slots, batches, frame, ctr, freshCtr, mon⟩ =
      (hostMemA.wf && hostMemB.wf && sec.mailbox.wf && wa.memWf && wb.memWf) := by rfl

theorem State.memWf_iff (s : State) : s.memWf = true ↔
    s.hostMemA.wf = true ∧ s.hostMemB.wf = true ∧ s.sec.mailbox.wf = true ∧ s.wa.memWf = true ∧ s.wb.memWf = true := by
  simp only [State.memWf, Bool.and_eq_true, and_assoc]

@[simp] theorem State.hostMemA_wf (s : State) (h : s.memWf = true) : s.hostMemA.wf = true := (s.memWf_iff.mp h).1

@[simp] theorem State.hostMemB_wf (s : State) (h : s.memWf = true) : s.hostMemB.wf = true := (s.memWf_iff.mp h).2.1

@[simp] theorem State.mailbox_wf (s : State) (h : s.memWf = true) : s.sec.mailbox.wf = true := by
  obtain ⟨_, _, hm, _, _⟩ := s.memWf_iff.mp h
  exact hm

@[simp] theorem State.wa_memWf (s : State) (h : s.memWf = true) : s.wa.memWf = true := by
  obtain ⟨_, _, _, ha, _⟩ := s.memWf_iff.mp h
  exact ha

@[simp] theorem State.wb_memWf (s : State) (h : s.memWf = true) : s.wb.memWf = true := by
  obtain ⟨_, _, _, _, hb⟩ := s.memWf_iff.mp h
  exact hb

/-- An update of a canonical state that leaves its memories is canonical. -/
theorem State.memWf_update {s : State} {pending pins supply pwr time clk regs fnRegs bus sec hasp ladder disabled portA portB portS flrBusy
    msix ctxs rings readQ posted heldBells latches eventLost loadBusy drafts kappas recipes steps sched ward links slots batches frame ctr
    freshCtr mon} (h : s.memWf = true) (hm : sec.mailbox = s.sec.mailbox := by rfl) :
    State.memWf ⟨pending, pins, supply, pwr, time, clk, regs, fnRegs, bus, sec, hasp, ladder, disabled, portA, portB, portS, flrBusy,
      msix, s.hostMemA, s.hostMemB, ctxs, rings, readQ, posted, heldBells, latches, eventLost, loadBusy, drafts, kappas, recipes, steps,
      sched, ward, s.wa, s.wb, links, slots, batches, frame, ctr, freshCtr, mon⟩ = true := by
  simp [h, hm]

/-- The same for an update that changes the dies to canonical ones. -/
theorem State.memWf_update_dies {s : State} {pending pins supply pwr time clk regs fnRegs bus sec hasp ladder disabled portA portB portS
    flrBusy msix ctxs rings readQ posted heldBells latches eventLost loadBusy drafts kappas recipes steps sched ward wa wb links slots
    batches frame ctr freshCtr mon} (h : s.memWf = true) (ha : wa.memWf = true) (hb : wb.memWf = true)
    (hm : sec.mailbox = s.sec.mailbox := by rfl) :
    State.memWf ⟨pending, pins, supply, pwr, time, clk, regs, fnRegs, bus, sec, hasp, ladder, disabled, portA, portB, portS, flrBusy,
      msix, s.hostMemA, s.hostMemB, ctxs, rings, readQ, posted, heldBells, latches, eventLost, loadBusy, drafts, kappas, recipes, steps,
      sched, ward, wa, wb, links, slots, batches, frame, ctr, freshCtr, mon⟩ = true := by
  simp [h, hm, ha, hb]

theorem State.ite_memWf {c : Prop} [Decidable c] {s t : State} (hs : s.memWf = true) (ht : t.memWf = true) :
    (if c then s else t).memWf = true := by
  split
  · exact hs
  · exact ht

/-- A step that may be left out. -/
theorem State.ite_memWf_of {c : Prop} [Decidable c] {s t : State} (hs : s.memWf = true) (ht : s.memWf = true → t.memWf = true) :
    (if c then t else s).memWf = true := State.ite_memWf (ht hs) hs

theorem State.ite_memWf_of' {c : Prop} [Decidable c] {s t : State} (hs : s.memWf = true) (ht : s.memWf = true → t.memWf = true) :
    (if c then s else t).memWf = true := State.ite_memWf hs (ht hs)

/-- A fold of steps that keep the memories canonical keeps them canonical. -/
theorem State.foldl_memWf {α : Type} {f : State → α → State} {l : List α} {s : State}
    (hf : ∀ s x, s.memWf = true → (f s x).memWf = true) (h : s.memWf = true) : (l.foldl f s).memWf = true := by
  induction l generalizing s with
  | nil => exact h
  | cons x t ih => exact ih (hf s x h)

/-- The same for a fold that carries a value beside the state. -/
theorem State.foldl_fst_memWf {α β : Type} {f : State × β → α → State × β} {l : List α} {s : State} {b : β}
    (hf : ∀ a x, a.1.memWf = true → (f a x).1.memWf = true) (h : s.memWf = true) : (l.foldl f (s, b)).1.memWf = true := by
  have : ∀ a : State × β, a.1.memWf = true → (l.foldl f a).1.memWf = true := by
    induction l with
    | nil => exact fun _ ha => ha
    | cons x t ih => exact fun a ha => ih _ (hf a x ha)
  exact this (s, b) h

theorem State.reset_memWf : State.reset.memWf = true := by rfl

theorem State.modWeft_memWf {s : State} {d : Weft} {f : WeftDie → WeftDie} (hf : ∀ w : WeftDie, w.memWf = true → (f w).memWf = true)
    (h : s.memWf = true) : (s.modWeft d f).memWf = true := by
  cases d
  · have hw : (f s.wa).memWf = true := hf _ (s.wa_memWf h)
    simp [State.modWeft, h, hw]
  · have hw : (f s.wb).memWf = true := hf _ (s.wb_memWf h)
    simp [State.modWeft, h, hw]

/-- A change of a die that leaves its memories. -/
theorem State.modWeft_keeps {s : State} {d : Weft} {f : WeftDie → WeftDie} (hf : ∀ w : WeftDie, (f w).memWf = w.memWf)
    (h : s.memWf = true) : (s.modWeft d f).memWf = true :=
  State.modWeft_memWf (fun w hw => (hf w).trans hw) h

theorem State.modPair_memWf {s : State} {n : Nat} {f : Pair → Pair} (hf : ∀ p : Pair, p.memWf = true → (f p).memWf = true)
    (h : s.memWf = true) : (s.modPair n f).memWf = true := by
  unfold State.modPair
  split
  · refine State.modWeft_memWf (fun w hw => ?_) h
    simp [hw, pairsWf_modAt w.pairs (n % 4) f hf (w.pairs_wf hw)]
  · exact h

/-- A change of a pair that leaves its memories. -/
theorem State.modPair_keeps {s : State} {n : Nat} {f : Pair → Pair} (hf : ∀ p : Pair, (f p).memWf = p.memWf)
    (h : s.memWf = true) : (s.modPair n f).memWf = true :=
  State.modPair_memWf (fun p hp => (hf p).trans hp) h

/-! ### What an operation of a step works on -/

/-- The Beam memories that an operation works on are canonical. -/
def Env.memWf (e : Env) : Prop := e.ma.wf = true ∧ e.mb.wf = true

theorem State.env_memWf {s : State} {t : Step} {d : Weft} (h : s.memWf = true) : (s.env t d).memWf :=
  ⟨WeftDie.beam_wf _ (s.wa_memWf h), WeftDie.beam_wf _ (s.wb_memWf h)⟩

theorem State.putMem_memWf {s : State} {e : Env} (h : s.memWf = true) (he : e.memWf) : (s.putMem e).memWf = true := by
  obtain ⟨ha, hb⟩ := he
  simp [State.putMem, ha, hb, h]

theorem Env.foldl_memWf {α : Type} {f : Env → α → Env} {l : List α} {e : Env} (hf : ∀ e x, e.memWf → (f e x).memWf) (h : e.memWf) :
    (l.foldl f e).memWf := by
  induction l generalizing e with
  | nil => exact h
  | cons x t ih => exact ih (hf e x h)

theorem Env.foldl_fst_memWf {α β : Type} {f : Env × β → α → Env × β} {l : List α} {e : Env} {b : β}
    (hf : ∀ a x, a.1.memWf → (f a x).1.memWf) (h : e.memWf) : (l.foldl f (e, b)).1.memWf := by
  have : ∀ a : Env × β, a.1.memWf → (l.foldl f a).1.memWf := by
    induction l with
    | nil => exact fun _ ha => ha
    | cons x t ih => exact fun a ha => ih _ (hf a x ha)
  exact this (e, b) h

theorem Env.put_memWf {e : Env} {d : Weft} {j off : Nat} {bs : List Byte} (h : e.memWf) : (e.put d j off bs).memWf := by
  obtain ⟨ha, hb⟩ := h
  cases d
  · exact ⟨putBytes_wf _ _ _ _ ha, hb⟩
  · exact ⟨ha, putBytes_wf _ _ _ _ hb⟩

theorem Env.ite_memWf {c : Prop} [Decidable c] {e f : Env} (he : e.memWf) (hf : f.memWf) : (if c then e else f).memWf := by
  split
  · exact he
  · exact hf

theorem Env.putCoded_memWf {e : Env} {d : Weft} {j r scale : Nat} {codes : List Nat} (h : e.memWf) :
    (e.putCoded d j r scale codes).memWf := Env.put_memWf (Env.put_memWf h)

theorem Env.putWords_memWf {e : Env} {d : Weft} {j r : Nat} {ws : List Nat} (h : e.memWf) : (e.putWords d j r ws).memWf :=
  Env.put_memWf h

theorem Env.putRecords_memWf {e : Env} {l : Layer} {rs : List (Nat × List Byte)} (h : e.memWf) : (e.putRecords l rs).memWf :=
  Env.foldl_memWf (fun _ _ hx => Env.foldl_memWf (fun _ _ hy => Env.put_memWf hy) hx) h

theorem Env.writeRow_memWf {array : Bool} {l : Layer} {w : Written} {r : RowRes} (h : w.1.memWf) :
    (Env.writeRow array l w r).1.memWf := by
  unfold Env.writeRow
  dsimp only
  split
  · exact Env.foldl_memWf (fun _ _ hx => Env.putWords_memWf hx) h
  · exact Env.foldl_memWf (fun _ _ hx => Env.putCoded_memWf hx) h

theorem Env.runLayer_memWf {e : Env} {l : Layer} (h : e.memWf) : (e.runLayer l).1.1.memWf :=
  Env.foldl_fst_memWf (fun _ _ ha => Env.writeRow_memWf ha) h

theorem Env.cutRows_memWf {e : Env} {l : Layer} {k : Nat} (h : e.memWf) : (e.cutRows l k).memWf :=
  Env.foldl_memWf (fun _ _ hx => Env.writeRow_memWf hx) h

theorem Env.scramble_memWf {e : Env} {d : Weft} {k : Nat} (h : e.memWf) : (e.scramble d k).memWf :=
  Env.foldl_memWf (fun _ _ hx => Env.ite_memWf hx (Env.put_memWf hx)) h

theorem Env.restore_memWf {d : Weft} {e : Env} {rs : List LiveRange} {bs : List Byte} (h : e.memWf) : (e.restore d rs bs).memWf := by
  induction rs generalizing e bs with
  | nil => exact h
  | cons r rs ih =>
    simp only [Env.restore]
    exact Env.ite_memWf (ih (Env.ite_memWf h (Env.put_memWf h))) (ih h)

theorem Env.encodeRow_memWf {e : Env} {j r : Nat} {ws : List Nat} (h : e.memWf) : (e.encodeRow j r ws).1.memWf := by
  unfold Env.encodeRow
  dsimp only
  split
  · exact Env.ite_memWf (Env.putWords_memWf h) h
  · exact Env.ite_memWf (Env.putCoded_memWf h) h

theorem Env.winWrite_memWf {e : Env} {j off n v : Nat} {y : Env × Nat} (h : e.memWf) (hy : e.winWrite j off n v = some y) :
    y.1.memWf := by
  simp only [Env.winWrite] at hy
  split_ifs at hy
  all_goals
    cases hy
    exact Env.put_memWf h

/-! ### The answer of a command -/

/-- The next state that an answer gives, if any, has canonical memories. -/
def AnswerWf : Host.Outcome State Fault Refusal → Prop
  | .next s => s.memWf = true
  | .fault _ => True
  | .refused _ => True

theorem answer_next {s : State} (h : s.memWf = true) : AnswerWf (.next s) := h

theorem answer_fault {r : Fault} : AnswerWf (.fault r) := trivial

theorem answer_ite {c : Prop} [Decidable c] {a b : Host.Outcome State Fault Refusal} (ha : AnswerWf a) (hb : AnswerWf b) :
    AnswerWf (if c then a else b) := by
  split
  · exact ha
  · exact hb

/-- The same for the answer of a row of its own, where an offset has one. -/
def OwnRowWf : Option (Host.Outcome State Fault Refusal) → Prop
  | some o => AnswerWf o
  | none => True

end Machine

end Sys2Proof

namespace Sys2Proof

namespace Machine

-- One at a time: side by side, lemmas that wait for the checks before them each hold a thread and its stack.
set_option Elab.async false

/-! ### Memories through `Machine/Regs` -/

theorem State.setReg_memWf {s : State} {off : Nat} {w : Word} (h : s.memWf = true) : (s.setReg off w).memWf = true := by
  unfold State.setReg
  exact State.memWf_update h

theorem State.resetRegs_memWf {s : State} {p : Scope → Bool} (h : s.memWf = true) : (s.resetRegs p).memWf = true := by
  unfold State.resetRegs
  exact State.memWf_update h

theorem State.setFnReg_memWf {s : State} {f : FnId} {off : Nat} {w : Word} (h : s.memWf = true) : (s.setFnReg f off w).memWf = true := by
  unfold State.setFnReg
  exact State.memWf_update h

theorem State.resetFnRegs_memWf {s : State} {f : FnId} (h : s.memWf = true) : (s.resetFnRegs f).memWf = true := by
  unfold State.resetFnRegs
  exact State.memWf_update h

theorem State.modHport_memWf {s : State} {p : HostPort} {f : PortSt → PortSt} (h : s.memWf = true) : (s.modHport p f).memWf = true := by
  unfold State.modHport
  split
  · exact State.memWf_update h
  · exact State.memWf_update h

theorem State.progress_memWf {s : State} {k : Nat} (h : s.memWf = true) : (s.progress k).memWf = true := by
  unfold State.progress
  exact State.memWf_update h

theorem State.instrDone_memWf {s : State} {ctx : Nat} (h : s.memWf = true) : (s.instrDone ctx).memWf = true :=
  State.ite_memWf_of (State.progress_memWf h) (fun h1 => State.progress_memWf h1)

theorem State.wake_memWf {s : State} {d : Weft} {g : Grp} (h : s.memWf = true) : (s.wake d g).memWf = true :=
  State.ite_memWf h (State.modWeft_memWf (fun _ hw => by simp [hw]) h)

theorem State.wakeBeams_memWf {s : State} (h : s.memWf = true) : s.wakeBeams.memWf = true :=
  State.foldl_memWf (fun _ _ ht => State.ite_memWf_of (State.modWeft_keeps (fun _ => rfl) ht) (fun h2 => State.wake_memWf h2)) h

/-! ### Memories through `Machine/Counters` -/

theorem bumpProg_memWf {s : State} {d i n : Nat} (h : s.memWf = true) : (bumpProg s d i n).memWf = true :=
  State.ite_memWf_of' (State.memWf_update h) (fun h1 => State.setReg_memWf h1)

theorem bumpAon_memWf {s : State} {d j n : Nat} (h : s.memWf = true) : (bumpAon s d j n).memWf = true :=
  State.ite_memWf_of' (State.memWf_update h) (fun h1 => State.setReg_memWf h1)

theorem bumpPart_memWf {s : State} {p k : Nat} (h : s.memWf = true) : (bumpPart s p k).memWf = true := by
  unfold bumpPart
  exact State.memWf_update h

theorem countEv_memWf {s : State} {e : Ev} (h : s.memWf = true) : (countEv s e).memWf = true :=
  State.foldl_memWf (fun _ _ ht => State.ite_memWf (bumpProg_memWf ht) ht) h

theorem State.tmbCount_memWf {s : State} {priv : Nat} (h : s.memWf = true) : (s.tmbCount priv).memWf = true := countEv_memWf h

theorem State.ctrSelTo_memWf {s : State} {d i : Nat} {v : Word} (h : s.memWf = true) : (s.ctrSelTo d i v).memWf = true :=
  State.ite_memWf (State.ite_memWf h (State.setReg_memWf h)) (State.ite_memWf (State.setReg_memWf h) (State.ite_memWf
    (State.setReg_memWf h) (State.setReg_memWf h)))

theorem State.setCtrVal_memWf {s : State} {d i v : Nat} (h : s.memWf = true) : (s.setCtrVal d i v).memWf = true := by
  unfold State.setCtrVal
  exact State.memWf_update h

theorem State.ctrWrite_memWf {s : State} {d o : Nat} {v : Word} (h : s.memWf = true) : (s.ctrWrite d o v).memWf = true :=
  State.ite_memWf (State.ite_memWf (State.ctrSelTo_memWf h) (State.ite_memWf h (State.ite_memWf (State.setCtrVal_memWf h)
    (State.ite_memWf (State.setCtrVal_memWf h) (State.setReg_memWf h))))) (State.ite_memWf (State.setReg_memWf h) (State.ite_memWf
    (State.setReg_memWf h) h))

/-! ### Memories through `Machine/Warp` -/

theorem State.countFree_memWf {s : State} {e : Ev} (h : s.memWf = true) : (s.countFree e).memWf = true :=
  countEv_memWf (State.memWf_update h)

theorem State.transfer_memWf {src dst : Nat} {e : Ev} {s : State} {n : Nat} (h : s.memWf = true) :
    (State.transfer src dst e s n).memWf = true := by
  unfold State.transfer
  dsimp only
  split
  · exact h
  · exact State.countFree_memWf (State.countFree_memWf (countEv_memWf (countEv_memWf (State.memWf_update h))))

theorem State.linkBytes_memWf {s : State} {src dst : Nat} {e : Ev} {n : Nat} (h : s.memWf = true) :
    (s.linkBytes src dst e n).memWf = true := State.foldl_memWf (fun _ _ ht => State.transfer_memWf ht) h

theorem State.wordTo_memWf {s : State} {d : Weft} {write : Bool} {e : Ev} (h : s.memWf = true) : (s.wordTo d write e).memWf = true :=
  State.ite_memWf (State.linkBytes_memWf h) (State.linkBytes_memWf h)

theorem State.controlWord_memWf {s : State} {d : Weft} {write : Bool} {master : Nat} (h : s.memWf = true) :
    (s.controlWord d write master).memWf = true := State.wordTo_memWf h

theorem State.tracked_memWf {s : State} {die : Nat} {e : Ev} (h : s.memWf = true) : (s.tracked die e).memWf = true :=
  State.countFree_memWf h

theorem State.gddrBytes_memWf {s : State} {d : Weft} {write : Bool} {off n : Nat} {e : Ev} (h : s.memWf = true) :
    (s.gddrBytes d write off n e).memWf = true :=
  bumpAon_memWf (State.tracked_memWf (State.foldl_memWf (fun _ _ ht => countEv_memWf ht) h))

theorem State.beamBytes_memWf {s : State} {d : Weft} {write : Bool} {off n : Nat} {e : Ev} (h : s.memWf = true) :
    (s.beamBytes d write off n e).memWf = true := countEv_memWf h

/-! ### Memories through `Machine/Delivery` -/

theorem emitMsix_memWf {s : State} {m : Msix} (h : s.memWf = true) : (emitMsix s m).memWf = true := countEv_memWf (State.memWf_update h)

theorem sendMsix_memWf {s : State} {fn : IrqFn} {vector : Nat} (h : s.memWf = true) : (sendMsix s fn vector).memWf = true :=
  State.ite_memWf h (State.ite_memWf (emitMsix_memWf h) (State.memWf_update h))

theorem supVector_memWf {s : State} {v : Nat} (h : s.memWf = true) : (supVector s v).memWf = true :=
  State.ite_memWf (sendMsix_memWf h) (State.memWf_update h)

theorem hostWrite_memWf {s : State} {p : HostPort} {master : Byte} {ctx : Nat} {lc : Bool} {addr : Nat} {bs : List Byte}
    (h : s.memWf = true) : (hostWrite s p master ctx lc addr bs).memWf = true := by
  refine State.ite_memWf h (countEv_memWf (bumpAon_memWf ?_))
  cases p <;> simp [h, Memory.wf_writeBytes]

theorem hostRead_memWf {s : State} {p : HostPort} {master : Byte} {ctx : Nat} {lc : Bool} {addr n : Nat} (h : s.memWf = true) :
    (hostRead s p master ctx lc addr n).memWf = true := State.ite_memWf h (countEv_memWf h)

theorem State.modCtx_memWf {s : State} {id : Nat} {f : Ctx → Ctx} (h : s.memWf = true) : (s.modCtx id f).memWf = true := by
  unfold State.modCtx
  exact State.memWf_update h

theorem State.modRing_memWf {s : State} {ctx idx : Nat} {f : Ring → Ring} (h : s.memWf = true) : (s.modRing ctx idx f).memWf = true := by
  unfold State.modRing
  exact State.memWf_update h

theorem writeRecord_memWf {s : State} {cx : Ctx} {cr : Ring} {c : Completion} (h : s.memWf = true) :
    (writeRecord s cx cr c).memWf = true :=
  State.ite_memWf_of (State.modRing_memWf (hostWrite_memWf (State.ite_memWf h (State.modRing_memWf h)))) (fun h1 => sendMsix_memWf h1)

theorem dueRecord_memWf {s : State} {cx : Ctx} {cr : Ring} {c : Completion} (h : s.memWf = true) : (dueRecord s cx cr c).memWf = true :=
  State.ite_memWf (State.modRing_memWf h) (writeRecord_memWf h)

theorem completeDesc_memWf {s : State} {ctx : Nat} {c : Completion} (h : s.memWf = true) : (completeDesc s ctx c).memWf = true := by
  unfold completeDesc
  split
  · exact h
  · rename_i cx _
    have h0 : (if c.status = 0x13 then bumpPart s cx.part 7 else s).memWf = true := State.ite_memWf (bumpPart_memWf h) h
    revert h0
    generalize (if c.status = 0x13 then bumpPart s cx.part 7 else s) = s0
    intro h0
    refine State.ite_memWf h0 ?_
    split
    · exact h0
    · split
      · exact h0
      · exact dueRecord_memWf h0

theorem eventRecord_memWf {s : State} {f : FnId} {status detail : Nat} (h : s.memWf = true) :
    (eventRecord s f status detail).memWf = true := by
  unfold eventRecord
  refine State.ite_memWf h ?_
  split
  · exact State.ite_memWf h (State.ite_memWf (State.memWf_update h) (writeRecord_memWf (State.memWf_update h)))
  · exact h

theorem eventAll_memWf {s : State} {status detail : Nat} (h : s.memWf = true) : (eventAll s status detail).memWf = true :=
  State.foldl_memWf (fun _ _ ht => eventRecord_memWf ht) h

theorem completeRead_memWf {s : State} {d : ReadDesc} {status detail entry : Nat} (h : s.memWf = true) :
    (completeRead s d status detail entry).memWf = true := completeDesc_memWf h

/-! ### Memories through `Machine/Placing` -/

theorem State.wipeEntry_memWf {s : State} {e : Entry} (h : s.memWf = true) : (s.wipeEntry e).memWf = true := by
  have hgo : ∀ (d : Weft) (w : WeftDie), w.memWf = true →
      (if e.gone.contains d then w else w.wipeDraft e.draft (e.base d) (e.region d) d).memWf = true := by
    intro d w hw
    split
    · exact hw
    · exact WeftDie.wipeDraft_memWf _ _ _ _ _ hw
  exact State.memWf_update_dies h (hgo .a _ (s.wa_memWf h)) (hgo .b _ (s.wb_memWf h))

/-! ### Memories through `Machine/Steps` -/

theorem State.modStep_memWf {s : State} {id : Nat} {f : Step → Step} (h : s.memWf = true) : (s.modStep id f).memWf = true := by
  unfold State.modStep
  exact State.memWf_update h

theorem State.dropStep_memWf {s : State} {id : Nat} (h : s.memWf = true) : (s.dropStep id).memWf = true := by
  unfold State.dropStep
  dsimp only
  split
  · exact State.ite_memWf_of' (State.memWf_update h) (fun h1 => State.wipeEntry_memWf h1)
  · exact State.memWf_update h

theorem State.cutShort_memWf {s : State} {t : Step} {d : Weft} (h : s.memWf = true) : (s.cutShort t d).memWf = true := by
  unfold State.cutShort
  exact State.foldl_memWf (fun _ _ hu => State.memWf_update (State.putMem_memWf hu (Env.cutRows_memWf (State.env_memWf hu)))) h

theorem State.cutFreezes_memWf {s : State} {t : Step} {d : Weft} (h : s.memWf = true) : (s.cutFreezes t d).memWf = true :=
  State.ite_memWf (State.foldl_memWf (fun _ _ ht => bumpAon_memWf (countEv_memWf (State.memWf_update ht))) h) h

theorem State.sendTo_memWf {a : State × Window} {d : Weft} (h : a.1.memWf = true) : (State.sendTo a d).1.memWf = true := by
  unfold State.sendTo
  split
  · exact State.modWeft_keeps (fun _ => rfl) h
  · exact h

theorem State.sendWindows_memWf {s : State} (h : s.memWf = true) : s.sendWindows.memWf = true := by
  refine State.memWf_update (s := (s.sched.windows.foldl _ (s, [])).1) (State.foldl_fst_memWf (fun a w ha => ?_) h)
  exact State.sendTo_memWf (State.sendTo_memWf ha)

theorem State.closeWindow_memWf {s : State} {w : Window} (h : s.memWf = true) : (s.closeWindow w).memWf = true :=
  State.sendWindows_memWf (State.memWf_update h)

theorem State.dropWork_memWf {s : State} {t : Step} (h : s.memWf = true) : (s.dropWork t).memWf = true := by
  have hc : ((((s.cutFreezes t .a).cutFreezes t .b).cutShort t .a).cutShort t .b).memWf = true :=
    State.cutShort_memWf (State.cutShort_memWf (State.cutFreezes_memWf (State.cutFreezes_memWf h)))
  exact State.sendWindows_memWf (State.memWf_update_dies hc (WeftDie.dropStep_memWf _ _ _ (State.wa_memWf _ hc))
    (WeftDie.dropStep_memWf _ _ _ (State.wb_memWf _ hc)))

theorem State.spoilHost_memWf {s : State} {p : HostPort} {addr n : Nat} (h : s.memWf = true) : (s.spoilHost p addr n).memWf = true := by
  cases p <;> simp [State.spoilHost, h, Memory.wf_writeBytes]

theorem State.spoil_memWf {s : State} {t : Step} (h : s.memWf = true) : (s.spoil t).memWf = true := by
  unfold State.spoil
  refine State.ite_memWf h ?_
  dsimp only
  split
  · exact State.ite_memWf_of (State.spoilHost_memWf h) (fun h1 => State.spoilHost_memWf h1)
  · exact State.spoilHost_memWf h

theorem State.spoilAll_memWf {s : State} (h : s.memWf = true) : s.spoilAll.memWf = true :=
  State.foldl_memWf (fun _ _ ht => State.spoil_memWf ht) h

theorem State.endCtx_memWf {s : State} {ctx status : Nat} (h : s.memWf = true) : (s.endCtx ctx status).memWf = true := by
  unfold State.endCtx
  split
  · exact h
  · split
    · exact State.memWf_update h
    · exact State.memWf_update (State.spoil_memWf (State.dropWork_memWf h))

theorem State.endCtxs_memWf {s : State} {ctxs : List Nat} {status : Nat} (h : s.memWf = true) : (s.endCtxs ctxs status).memWf = true :=
  State.foldl_memWf (fun _ _ ht => State.endCtx_memWf ht) h

/-! ### Memories through `Machine/Creel` -/

theorem State.modBatch_memWf {s : State} {b : Nat} {f : Batch → Batch} (h : s.memWf = true) : (s.modBatch b f).memWf = true := by
  unfold State.modBatch
  exact State.memWf_update h

theorem State.modInst_memWf {s : State} {b c : Nat} {f : Instance → Instance} (h : s.memWf = true) : (s.modInst b c f).memWf = true :=
  State.modBatch_memWf h

theorem State.modPos_memWf {s : State} {b c q : Nat} {f : Pos → Pos} (h : s.memWf = true) : (s.modPos b c q f).memWf = true :=
  State.modInst_memWf h

theorem State.modSlot_memWf {s : State} {k : Nat} {f : Slot → Slot} (h : s.memWf = true) : (s.modSlot k f).memWf = true := by
  unfold State.modSlot
  exact State.memWf_update h

theorem State.slotEv_memWf {s : State} {code k n : Nat} {addr : Option (Nat × Nat)} (h : s.memWf = true) :
    (s.slotEv code k n addr).memWf = true := countEv_memWf h

theorem State.creelPut_memWf {s : State} {k off : Nat} {i : Instance} {onA onB : List Byte} (h : s.memWf = true) :
    (s.creelPut k off i onA onB).memWf = true :=
  State.slotEv_memWf (State.beamBytes_memWf (State.beamBytes_memWf (State.linkBytes_memWf (State.linkBytes_memWf (State.modWeft_memWf
    (fun _ hw => by simp [hw, Memory.wf_writeBytes]) (State.modWeft_memWf (fun _ hw => by simp [hw, Memory.wf_writeBytes]) h))))))

theorem State.putRow_memWf {s : State} {b : Nat} {i : Instance} {q k : Nat} {rec : Recipe} {cb : Codebook} {r scale : Nat} {codes : List
    Nat} (h : s.memWf = true) :
    (s.putRow b i q k rec cb r scale codes).memWf = true := State.creelPut_memWf (State.creelPut_memWf h)

theorem State.zeroPos_memWf {s : State} {b : Nat} {i : Instance} {q k : Nat} {rec : Recipe} (h : s.memWf = true) :
    (s.zeroPos b i q k rec).memWf = true := State.foldl_memWf (fun _ _ ht => State.putRow_memWf ht) h

theorem State.copyBytes_memWf {k : Nat} {s : State} {x : Weft × Nat × Nat × Nat} (h : s.memWf = true) :
    (State.copyBytes k s x).memWf = true := State.beamBytes_memWf (State.beamBytes_memWf h)

theorem State.toHold_memWf {s : State} {k b : Nat} {i : Instance} {q : Nat} {rec : Recipe} {half : Bool} (h : s.memWf = true) :
    (s.toHold k b i q rec half).memWf = true := by
  unfold State.toHold
  refine State.foldl_memWf (fun _ _ ht => State.copyBytes_memWf (State.copyBytes_memWf ht)) (State.modWeft_memWf (fun w hw => ?_)
    (State.modWeft_memWf (fun w hw => ?_) h))
  · exact w.setBeam_memWf hw (Memory.wf_writeBytes _ _ _ (Memory.wf_writeBytes _ _ _ (w.beam_wf hw)))
  · exact w.setBeam_memWf hw (Memory.wf_writeBytes _ _ _ (Memory.wf_writeBytes _ _ _ (w.beam_wf hw)))

theorem State.fromHold_memWf {s : State} {k b : Nat} {i : Instance} {q : Nat} {rec : Recipe} {o : Hold} (h : s.memWf = true) :
    (s.fromHold k b i q rec o).memWf = true := by
  unfold State.fromHold
  refine State.foldl_memWf (fun _ _ ht => State.copyBytes_memWf (State.copyBytes_memWf ht)) (State.modWeft_memWf (fun w hw => ?_)
    (State.modWeft_memWf (fun w hw => ?_) h))
  · exact w.setBeam_memWf hw (Memory.wf_writeBytes _ _ _ (Memory.wf_writeBytes _ _ _ (w.beam_wf hw)))
  · exact w.setBeam_memWf hw (Memory.wf_writeBytes _ _ _ (Memory.wf_writeBytes _ _ _ (w.beam_wf hw)))

theorem State.substitute_memWf {s : State} {b c q cause : Nat} (h : s.memWf = true) : (s.substitute b c q cause).memWf = true := by
  unfold State.substitute
  split
  · exact h
  · split
    · exact h
    · refine State.ite_memWf h ?_
      split
      · exact h
      · dsimp only
        split
        · exact State.ite_memWf (State.modPos_memWf (State.fromHold_memWf (bumpAon_memWf (State.slotEv_memWf (State.modSlot_memWf h)))))
            (State.modPos_memWf (State.zeroPos_memWf (bumpAon_memWf (State.slotEv_memWf (State.modSlot_memWf h)))))
        · exact State.modPos_memWf (State.zeroPos_memWf (bumpAon_memWf (State.slotEv_memWf (State.modSlot_memWf h))))

theorem State.corruptSample_memWf {s : State} {k : Nat} (h : s.memWf = true) : (s.corruptSample k).memWf = true := by
  unfold State.corruptSample
  split
  · exact eventRecord_memWf (State.substitute_memWf (State.modSlot_memWf h))
  · exact h

theorem State.openInst_memWf {s u : State} {b : Nat} {time : Dword} (h : s.memWf = true) (hu : s.openInst b time = some u) :
    u.memWf = true := by
  simp only [State.openInst] at hu
  split at hu
  · cases hu
  · split at hu
    · cases hu
    · split at hu
      · cases hu
        exact State.modBatch_memWf h
      · cases hu
        exact State.foldl_memWf (fun _ _ ht => State.ite_memWf (State.zeroPos_memWf ht) ht) (State.modBatch_memWf h)

theorem State.releaseInsts_memWf {s : State} {b : Nat} (h : s.memWf = true) : (s.releaseInsts b).memWf = true := State.modBatch_memWf h

theorem State.unmarkAll_memWf {s : State} (h : s.memWf = true) : s.unmarkAll.memWf = true := by
  unfold State.unmarkAll
  exact State.memWf_update h

theorem State.discardInsts_memWf {s0 : State} (h : s0.memWf = true) : (State.discardInsts s0).memWf = true := by
  unfold State.discardInsts
  exact State.memWf_update (State.foldl_memWf (fun _ _ ht => State.releaseInsts_memWf (State.modBatch_memWf ht))
    (State.unmarkAll_memWf h))

theorem State.closeStream_memWf {s : State} {k : Nat} (h : s.memWf = true) : (s.closeStream k).memWf = true :=
  State.foldl_memWf (fun _ _ ht => State.ite_memWf ht (State.foldl_memWf (fun _ _ ht1 => State.ite_memWf
    (State.substitute_memWf ht1) ht1) ht)) h

/-! ### Memories through `Machine/Records` -/

theorem State.writeStepRecord_memWf {s : State} {t : Step} {status : Nat} (h : s.memWf = true) :
    (s.writeStepRecord t status).memWf = true := State.ite_memWf (hostWrite_memWf h) h

/-! ### Memories through `Machine/Reset` -/

theorem countStep_memWf {s : State} {ctx : Nat} {lc : Bool} {status : Nat} (h : s.memWf = true) :
    (countStep s ctx lc status).memWf = true := by
  unfold countStep
  dsimp only
  split
  · exact countEv_memWf (State.ite_memWf (bumpAon_memWf (bumpAon_memWf h)) (State.ite_memWf (bumpAon_memWf (bumpAon_memWf h))
      (State.ite_memWf (bumpAon_memWf (bumpAon_memWf h)) (State.ite_memWf_of (bumpAon_memWf h) (fun h1 => bumpAon_memWf h1)))))
  · exact State.ite_memWf (bumpPart_memWf (countEv_memWf (State.ite_memWf (bumpAon_memWf (bumpAon_memWf h)) (State.ite_memWf
      (bumpAon_memWf (bumpAon_memWf h)) (State.ite_memWf (bumpAon_memWf (bumpAon_memWf h)) (State.ite_memWf_of (bumpAon_memWf h)
      (fun h1 => bumpAon_memWf h1))))))) (State.ite_memWf (bumpPart_memWf (countEv_memWf (State.ite_memWf (bumpAon_memWf
      (bumpAon_memWf h)) (State.ite_memWf (bumpAon_memWf (bumpAon_memWf h)) (State.ite_memWf (bumpAon_memWf (bumpAon_memWf h))
      (State.ite_memWf_of (bumpAon_memWf h) (fun h1 => bumpAon_memWf h1))))))) (State.ite_memWf_of (countEv_memWf (State.ite_memWf
      (bumpAon_memWf (bumpAon_memWf h)) (State.ite_memWf (bumpAon_memWf (bumpAon_memWf h)) (State.ite_memWf (bumpAon_memWf
      (bumpAon_memWf h)) (State.ite_memWf_of (bumpAon_memWf h) (fun h1 => bumpAon_memWf h1)))))) (fun h1 => bumpPart_memWf h1)))

theorem State.endUnrun_memWf {s : State} {t : Step} {status detail : Nat} (h : s.memWf = true) :
    (s.endUnrun t status detail).memWf = true :=
  State.ite_memWf (State.modStep_memWf (completeDesc_memWf (State.ite_memWf h (State.writeStepRecord_memWf h))))
    (State.releaseInsts_memWf (completeDesc_memWf (countStep_memWf (State.dropStep_memWf (State.ite_memWf h
    (State.writeStepRecord_memWf h))))))

theorem State.clearBitIf_memWf {s : State} {off bit : Nat} {p : Word → Bool} (h : s.memWf = true) :
    (s.clearBitIf off bit p).memWf = true := State.ite_memWf (State.setReg_memWf h) h

theorem State.forgetEntry_memWf {s : State} {e : Nat} (h : s.memWf = true) : (s.forgetEntry e).memWf = true :=
  State.foldl_memWf (fun _ _ ht => State.clearBitIf_memWf ht) (State.foldl_memWf (fun _ _ ht => State.clearBitIf_memWf ht) h)

theorem State.forgetCtx_memWf {s : State} {c : Nat} (h : s.memWf = true) : (s.forgetCtx c).memWf = true :=
  State.foldl_memWf (fun _ _ ht => State.clearBitIf_memWf ht) (State.foldl_memWf (fun _ _ ht => State.clearBitIf_memWf ht) h)

theorem State.stopInject_memWf {s : State} {cx : Ctx} {d : ReadDesc} (h : s.memWf = true) : (s.stopInject cx d).memWf = true := by
  unfold State.stopInject
  refine State.ite_memWf ?_ h
  split
  · exact State.ite_memWf (State.modSlot_memWf (State.corruptSample_memWf h)) h
  · exact h

theorem State.stopLoad_memWf {s : State} (h : s.memWf = true) : s.stopLoad.memWf = true := by
  unfold State.stopLoad
  split
  · exact h
  · exact State.memWf_update h

theorem State.unpost_memWf {s : State} {d : ReadDesc} (h : s.memWf = true) : (s.unpost d).memWf = true := by
  unfold State.unpost
  exact State.memWf_update h

theorem State.startLoad_memWf {s : State} (h : s.memWf = true) : s.startLoad.memWf = true := by
  unfold State.startLoad
  split
  · refine State.ite_memWf h (State.ite_memWf_of' (State.wakeBeams_memWf (State.memWf_update (State.unpost_memWf h))) (fun h1 => ?_))
    dsimp only
    split
    · exact State.tmbCount_memWf h1
    · split
      · exact State.tmbCount_memWf h1
      · exact State.memWf_update (State.tmbCount_memWf h1)
  · exact h

theorem State.fixUnloading_memWf {s : State} (h : s.memWf = true) : s.fixUnloading.memWf = true := by
  unfold State.fixUnloading
  exact State.memWf_update h

theorem State.closeStart_memWf {s : State} {c : Nat} (h : s.memWf = true) : (s.closeStart c).memWf = true := by
  unfold State.closeStart
  exact State.memWf_update (State.endCtx_memWf (State.modCtx_memWf h))

theorem State.disable_memWf {s : State} {u : UnitId} (h : s.memWf = true) : (s.disable u).memWf = true := by
  unfold State.disable
  dsimp only
  split
  · exact State.memWf_update h
  · exact State.memWf_update h
  · exact State.memWf_update h
  · exact State.memWf_update h
  · exact State.memWf_update h
  · exact State.memWf_update h
  · exact State.memWf_update h
  · exact h
  · exact h

theorem State.unitDone_memWf {s : State} {u : UnitId} (h : s.memWf = true) : (s.unitDone u).memWf = true := by
  unfold State.unitDone
  exact State.memWf_update h

theorem State.unitAt_memWf {s : State} {u : UnitId} {p : UnitPhase} (h : s.memWf = true) : (s.unitAt u p).memWf = true := by
  unfold State.unitAt
  exact State.memWf_update (State.unitDone_memWf h)

theorem State.clearUnit_memWf {s : State} {u : UnitId} (h : s.memWf = true) : (s.clearUnit u).memWf = true := by
  unfold State.clearUnit
  split
  · exact State.modWeft_keeps (fun _ => rfl) h
  · exact State.modWeft_memWf (fun w hw => WeftDie.setPair_memWf _ _ _ rfl ((w.dropPair_memWf _).trans hw)) h
  · exact State.modWeft_keeps (fun _ => rfl) h
  · exact State.modWeft_keeps (fun _ => rfl) h
  · exact State.memWf_update (State.resetRegs_memWf h)
  · exact State.memWf_update (State.discardInsts_memWf h)
  · exact State.fixUnloading_memWf (State.memWf_update (State.stopLoad_memWf h))

theorem State.resetStep_memWf {s : State} {d : Weft} {id : Nat} (h : s.memWf = true) : (s.resetStep d id).memWf = true := by
  unfold State.resetStep
  split
  · exact h
  · exact State.ite_memWf h (State.ite_memWf_of' (State.modStep_memWf h) (fun h1 => State.ite_memWf (State.ite_memWf
      (State.endUnrun_memWf h) h1) (State.ite_memWf_of' h1 (fun h2 => State.ite_memWf (State.modStep_memWf h) (State.endCtx_memWf h2)))))

theorem State.dieCleared_memWf {s : State} {d : Weft} (h : s.memWf = true) : (s.dieCleared d).memWf = true := by
  unfold State.dieCleared
  exact State.memWf_update (State.modWeft_memWf (fun w _ => w.afterReset_memWf) (State.resetRegs_memWf h))

theorem State.emptyTable_memWf {s : State} (h : s.memWf = true) : s.emptyTable.memWf = true := by
  have h2 : (((s.drafts.filter (fun e => decide (e.state ≠ .loading) && !s.keeps e)).foldl State.wipeEntry
      (s.drafts.foldl (fun t e => t.forgetEntry e.index) s)).stopLoad).memWf = true :=
    State.stopLoad_memWf (State.foldl_memWf (fun _ _ ht => State.wipeEntry_memWf ht)
      (State.foldl_memWf (fun _ _ ht => State.forgetEntry_memWf ht) h))
  unfold State.emptyTable
  exact State.discardInsts_memWf (State.startLoad_memWf (State.memWf_update_dies h2 (State.wa_memWf _ h2) (State.wb_memWf _ h2)))

theorem State.dieReset_memWf {s : State} {d : Weft} (h : s.memWf = true) : (s.dieReset d).memWf = true :=
  State.ite_memWf h (State.memWf_update (State.sendWindows_memWf (State.emptyTable_memWf (State.dieCleared_memWf (State.foldl_memWf
    (fun _ _ ht => State.resetStep_memWf ht) (eventAll_memWf h))))))

theorem State.endWhole_memWf {s : State} (h : s.memWf = true) : s.endWhole.memWf = true :=
  State.foldl_memWf (fun _ _ ht => State.ite_memWf ht (State.ite_memWf (State.endCtx_memWf ht) (State.endUnrun_memWf ht))) h

theorem State.linkGone_memWf {s : State} {l : Nat} (h : s.memWf = true) : (s.linkGone l).memWf = true :=
  State.ite_memWf (State.ite_memWf (State.dieReset_memWf h) h) (State.ite_memWf (State.ite_memWf (State.dieReset_memWf h) h)
    (State.ite_memWf (State.endWhole_memWf h) h))

theorem State.unitStart_memWf {s : State} {u : UnitId} (h : s.memWf = true) : (s.unitStart u).memWf = true := by
  unfold State.unitStart
  dsimp only
  split
  · exact State.linkGone_memWf (State.memWf_update (State.unitAt_memWf (State.memWf_update (State.clearUnit_memWf h))))
  · exact State.unitAt_memWf (State.memWf_update (State.clearUnit_memWf h))

theorem State.unitReset_memWf {s : State} {u : UnitId} (h : s.memWf = true) : (s.unitReset u).memWf = true :=
  State.ite_memWf h (State.unitStart_memWf (State.endCtxs_memWf h))

theorem State.missionReset_memWf {s : State} (h : s.memWf = true) : s.missionReset.memWf = true := by
  simp [State.missionReset, State.spoilAll_memWf h, State.reset_memWf]

theorem State.moduleReset_memWf {s : State} {fault : Bool} (h : s.memWf = true) : (s.moduleReset fault).memWf = true :=
  State.ite_memWf (State.memWf_update (State.missionReset_memWf h)) h

/-! ### Memories through `Machine/Hasp` -/

theorem State.assertFault_memWf {s : State} (h : s.memWf = true) : s.assertFault.memWf = true := by
  unfold State.assertFault
  exact State.memWf_update h

theorem State.hostInterrupt_memWf {s : State} {f : FnId} {n : Nat} {c : Capture} (h : s.memWf = true) :
    (s.hostInterrupt f n c).memWf = true :=
  State.ite_memWf h (State.ite_memWf_of (State.ite_memWf (State.setFnReg_memWf h) (State.setFnReg_memWf (State.setFnReg_memWf h)))
    (fun h1 => sendMsix_memWf h1))

theorem State.trap_memWf {s : State} {n : Nat} {c : Capture} (h : s.memWf = true) : (s.trap n c).memWf = true :=
  supVector_memWf (State.setReg_memWf (State.memWf_update h))

theorem State.fireReset_memWf {s : State} {n set : Nat} {c : Capture} (h : s.memWf = true) : (s.fireReset n set c).memWf = true := by
  unfold State.fireReset
  refine State.ite_memWf (State.moduleReset_memWf h) (State.ite_memWf (State.dieReset_memWf h) (State.ite_memWf ?_ h))
  split
  · exact State.unitReset_memWf h
  · exact h

theorem State.fire_memWf {s : State} {n set : Nat} (h : s.memWf = true) : (s.fire n set).memWf = true :=
  State.fireReset_memWf (State.ite_memWf_of (State.ite_memWf_of (State.ite_memWf_of (State.ite_memWf (State.foldl_memWf
    (fun _ _ ht => State.hostInterrupt_memWf ht) h) h) (fun h1 => supVector_memWf h1)) (fun h1 => State.trap_memWf h1))
    (fun h1 => State.assertFault_memWf h1))

theorem State.noteFirst_memWf {s : State} {n : Nat} (h : s.memWf = true) : (s.noteFirst n).memWf = true :=
  State.ite_memWf (State.setReg_memWf (State.memWf_update h)) h

theorem State.fireNext_memWf {s : State} {n set : Nat} (h : s.memWf = true) : (s.fireNext n set).memWf = true :=
  State.ite_memWf h (State.fire_memWf (State.memWf_update h))

theorem State.fireSecond_memWf {s : State} {n : Nat} (h : s.memWf = true) : (s.fireSecond n).memWf = true := State.fireNext_memWf h

theorem State.raise_memWf {s : State} {n : Nat} {c : Capture} (h : s.memWf = true) : (s.raise n c).memWf = true :=
  State.ite_memWf (State.fireReset_memWf (State.memWf_update h)) (State.ite_memWf (State.fireNext_memWf (State.fire_memWf (bumpAon_memWf
    (countEv_memWf (State.memWf_update (State.noteFirst_memWf h)))))) (State.fire_memWf (State.memWf_update (bumpAon_memWf
    (countEv_memWf (State.memWf_update (State.noteFirst_memWf h)))))))

theorem State.ackSource_memWf {s : State} {n : Nat} (h : s.memWf = true) : (s.ackSource n).memWf = true :=
  State.ite_memWf (State.memWf_update h) h

/-! ### Memories through `Machine/Admission` -/

theorem State.recost_memWf {s : State} (h : s.memWf = true) : s.recost.memWf = true := by
  unfold State.recost
  exact State.memWf_update h

theorem State.recompute_memWf {s : State} (h : s.memWf = true) : s.recompute.memWf = true :=
  State.ite_memWf (State.raise_memWf (State.memWf_update (State.recost_memWf h))) (State.ite_memWf_of (State.memWf_update
    (State.recost_memWf h)) (fun h1 => State.raise_memWf h1))

theorem State.retestNow_memWf {s : State} (h : s.memWf = true) : s.retestNow.memWf = true := State.ite_memWf (State.recompute_memWf h) h

/-! ### Memories through `Machine/Power` -/

theorem State.wakeDie_memWf {s : State} {d : Weft} (h : s.memWf = true) : (s.wakeDie d).memWf = true :=
  State.foldl_memWf (fun _ _ ht => State.wake_memWf ht) h

theorem State.creelClock_memWf {s : State} {was : Bool} (h : s.memWf = true) : (s.creelClock was).memWf = true :=
  State.ite_memWf h (State.memWf_update h)

theorem State.wakeTo_memWf {s : State} {f : Option Nat} (h : s.memWf = true) : (s.wakeTo f).memWf = true := by
  unfold State.wakeTo
  split
  · exact h
  · exact State.foldl_memWf (fun _ _ ht => State.foldl_memWf (fun _ _ ht1 => State.ite_memWf (State.wake_memWf ht1) ht1) ht) h

theorem State.applyLoom_memWf {s : State} (h : s.memWf = true) : s.applyLoom.memWf = true := State.ite_memWf (State.memWf_update h) h

theorem State.restLoss_memWf {s : State} {d : Weft} {g : Grp} (h : s.memWf = true) : (s.restLoss d g).memWf = true := by
  unfold State.restLoss
  split
  · exact State.modWeft_memWf (fun w hw => w.setBeam_memWf hw Memory.wf_nil) h
  · exact State.memWf_update (State.modWeft_memWf (fun w hw => w.setPairs_memWf hw
      (pairsWf_zipIdx_map _ _ (fun p _ _ => p.lost_memWf _) (w.pairs_wf hw))) h)
  · exact State.modWeft_keeps (fun _ => rfl) h
  · exact h

/-! ### Memories through `Machine/Sched` -/

theorem State.runOn_memWf {s : State} {n : Nat} {prog : Program} {r : Running} (h : s.memWf = true) :
    (s.runOn n prog r).memWf = true := by
  unfold State.runOn
  refine State.modWeft_memWf (fun w hw => w.setPairs_memWf hw (pairsWf_modAt _ _ _ (fun p hp => ?_) (w.pairs_wf hw))) h
  dsimp only
  split
  · exact hp
  · exact Pair.begin_memWf _ _ _

theorem State.startSeq_memWf {s : State} {t : Step} {d : Weft} (h : s.memWf = true) : (s.startSeq t d).memWf = true := by
  unfold State.startSeq
  dsimp only
  split
  · exact State.memWf_update (State.runOn_memWf h)
  · exact h

theorem State.resumeSeq_memWf {s : State} {t : Step} {d : Weft} {hd clocks : Nat} (h : s.memWf = true) :
    (s.resumeSeq t d hd clocks).memWf = true := by
  unfold State.resumeSeq
  dsimp only
  split
  · exact h
  · split
    · exact State.runOn_memWf h
    · exact h

theorem State.markUnqualified_memWf {s : State} (h : s.memWf = true) : s.markUnqualified.memWf = true :=
  State.ite_memWf (State.memWf_update h) h

theorem State.busyNow_memWf {s : State} (h : s.memWf = true) : s.busyNow.memWf = true :=
  State.foldl_memWf (fun _ _ ht => State.modWeft_keeps (fun _ => rfl) ht) h

theorem State.beginStep_memWf {s : State} {t : Step} (h : s.memWf = true) : (s.beginStep t).memWf = true :=
  State.busyNow_memWf (State.ite_memWf_of (State.ite_memWf_of (countEv_memWf (State.ite_memWf_of (State.memWf_update
    (State.modStep_memWf h)) (fun h1 => State.modInst_memWf h1))) (fun h1 => State.startSeq_memWf h1))
    (fun h1 => State.startSeq_memWf h1))

theorem State.resumeStep_memWf {s : State} {t : Step} (h : s.memWf = true) : (s.resumeStep t).memWf = true := by
  unfold State.resumeStep
  dsimp only
  split
  · exact State.memWf_update (State.modStep_memWf h)
  · refine State.busyNow_memWf ?_
    split
    · refine State.resumeSeq_memWf ?_
      split
      · exact State.resumeSeq_memWf (State.memWf_update (State.modStep_memWf h))
      · exact State.memWf_update (State.modStep_memWf h)
    · split
      · exact State.resumeSeq_memWf (State.memWf_update (State.modStep_memWf h))
      · exact State.memWf_update (State.modStep_memWf h)

theorem State.restoreDie_memWf {s : State} {id : Nat} {d : Weft} {ranges : List LiveRange} {bs : List Byte} (h : s.memWf = true) :
    (s.restoreDie id d ranges bs).memWf = true := by
  unfold State.restoreDie
  split
  · exact h
  · refine State.ite_memWf h (State.modWeft_memWf (fun w hw => w.setPairs_memWf hw (pairsWf_map _ _ (fun p hp => ?_) (w.pairs_wf hw))) ?_)
    · split
      · simp [hp]
      · exact hp
    · exact State.memWf_update (State.putMem_memWf h (Env.restore_memWf (Env.scramble_memWf (State.env_memWf h))))

theorem State.restoreStep_memWf {s : State} {t : Step} (h : s.memWf = true) : (s.restoreStep t).memWf = true :=
  State.ite_memWf (State.restoreDie_memWf (State.restoreDie_memWf (State.resumeStep_memWf h))) (State.memWf_update
    (State.modStep_memWf h))

theorem State.wakeFor_memWf {s : State} {whole : Bool} (h : s.memWf = true) : (s.wakeFor whole).memWf = true :=
  State.ite_memWf_of (State.ite_memWf (State.wakeDie_memWf h) h) (fun h1 => State.wakeDie_memWf h1)

theorem State.startOrWait_memWf {s : State} {t : Step} (h : s.memWf = true) : (s.startOrWait t).memWf = true :=
  State.ite_memWf (State.memWf_update (State.wakeFor_memWf h)) (State.ite_memWf (State.restoreStep_memWf h) (State.beginStep_memWf h))

theorem State.chooseN_memWf {n : Nat} {s : State} (h : s.memWf = true) : (State.chooseN n s).memWf = true := by
  induction n generalizing s with
  | zero => exact h
  | succ n ih =>
    unfold State.chooseN
    split
    · exact h
    · split
      · exact State.memWf_update h
      · exact State.ite_memWf (ih (State.endUnrun_memWf h)) (State.startOrWait_memWf h)

theorem State.choose_memWf {s : State} (h : s.memWf = true) : s.choose.memWf = true := State.ite_memWf (State.chooseN_memWf h) h

theorem State.startPicked_memWf {s0 : State} (h : s0.memWf = true) : (State.startPicked s0).memWf = true := by
  unfold State.startPicked
  dsimp only
  split
  · exact State.ite_memWf (State.startOrWait_memWf (State.memWf_update h)) (State.choose_memWf (State.memWf_update h))
  · exact State.choose_memWf (State.memWf_update h)

theorem State.releaseArray_memWf {s : State} {id : Nat} (h : s.memWf = true) : (s.releaseArray id).memWf = true :=
  State.ite_memWf (State.memWf_update h) h

/-! ### Memories through `Machine/Finish` -/

theorem State.deadlineRaise_memWf {s : State} {t : Step} (h : s.memWf = true) : (s.deadlineRaise t).memWf = true :=
  State.ite_memWf (State.raise_memWf (bumpPart_memWf (State.modStep_memWf h))) h

theorem State.deadlineFault_memWf {s : State} {t : Step} (h : s.memWf = true) : (s.deadlineFault t).memWf = true :=
  State.ite_memWf (State.deadlineRaise_memWf h) h

theorem State.ageRaise_memWf {s : State} {t : Step} (h : s.memWf = true) : (s.ageRaise t).memWf = true :=
  State.ite_memWf (State.raise_memWf (State.modStep_memWf h)) h

theorem State.ageFaultNow_memWf {s : State} {t : Step} (h : s.memWf = true) : (s.ageFaultNow t).memWf = true := by
  unfold State.ageFaultNow
  split
  · exact h
  · exact State.ite_memWf (State.ageRaise_memWf h) h

theorem State.updateKappas_memWf {s : State} {t : Step} (h : s.memWf = true) : (s.updateKappas t).memWf = true :=
  State.ite_memWf h (State.foldl_memWf (fun _ _ ht => State.memWf_update ht) h)

theorem State.deliverMirror_memWf {s : State} {t : Step} {c : Completion} {set : Option (List Byte)} (h : s.memWf = true) :
    (s.deliverMirror t c set).1.memWf = true := by
  unfold State.deliverMirror
  split
  · exact bumpPart_memWf h
  · refine completeDesc_memWf ?_
    split
    · exact State.ite_memWf (hostWrite_memWf (State.memWf_update h)) (State.memWf_update h)
    · exact State.memWf_update h

theorem State.writeRecords_memWf {s : State} {t : Step} {status : Nat} (h : s.memWf = true) : (s.writeRecords t status).memWf = true := by
  have h1 := State.ite_memWf (c := s.recordBlocked t = true) h (State.writeStepRecord_memWf (t := t) (status := status) h)
  exact State.ite_memWf (completeDesc_memWf (State.deliverMirror_memWf h1)) (completeDesc_memWf h1)

theorem State.finishStep_memWf {s : State} {t : Step} {status : Nat} (h : s.memWf = true) : (s.finishStep t status).memWf = true :=
  State.choose_memWf (State.releaseInsts_memWf (State.dropStep_memWf (countStep_memWf (State.ite_memWf (State.updateKappas_memWf h) h))))

theorem State.monitorsNow_memWf {s : State} {t : Step} (h : s.memWf = true) : (s.monitorsNow t).memWf = true :=
  State.ite_memWf (State.ageFaultNow_memWf (State.deadlineFault_memWf h)) h

theorem drainHeld_memWf {n : Nat} {s : State} {ctx idx : Nat} (h : s.memWf = true) : (drainHeld n s ctx idx).memWf = true := by
  induction n generalizing s with
  | zero => exact h
  | succ n ih =>
    unfold drainHeld
    split
    · split
      · exact h
      · refine State.ite_memWf h ?_
        split
        · exact ih (writeRecord_memWf (State.modRing_memWf h))
        · rename_i t _
          have h1 : (s.monitorsNow t).memWf = true := State.monitorsNow_memWf h
          refine State.ite_memWf h1 (ih (State.ite_memWf_of' (writeRecord_memWf (State.modRing_memWf ?_))
            (fun h3 => State.finishStep_memWf h3)))
          exact State.ite_memWf h1 (State.writeStepRecord_memWf h1)
    · exact h

theorem State.drainCtx_memWf {s : State} {c : Nat} (h : s.memWf = true) : (s.drainCtx c).memWf = true :=
  State.foldl_memWf (fun _ _ ht => drainHeld_memWf ht) h

theorem State.settleDue_memWf {s : State} (h : s.memWf = true) : s.settleDue.memWf = true :=
  State.foldl_memWf (fun _ _ ht => State.ite_memWf (State.finishStep_memWf ht) ht) h

theorem State.endRun_memWf {s : State} {t : Step} (h : s.memWf = true) : (s.endRun t).memWf = true :=
  State.releaseArray_memWf (State.memWf_update h)

theorem State.completeStep_memWf {s : State} {id status : Nat} (h : s.memWf = true) : (s.completeStep id status).memWf = true := by
  unfold State.completeStep
  split
  · exact h
  · dsimp only
    split
    · exact State.ite_memWf_of (State.modStep_memWf (State.endRun_memWf h)) (fun h1 => State.foldl_memWf (fun _ _ ht1 => State.ite_memWf
        (drainHeld_memWf ht1) ht1) h1)
    · exact State.ite_memWf (State.choose_memWf (State.modStep_memWf (State.endRun_memWf h))) (State.ite_memWf (State.choose_memWf
        (State.modStep_memWf (State.writeRecords_memWf (State.endRun_memWf h)))) (State.finishStep_memWf (State.writeRecords_memWf
        (State.endRun_memWf h))))

/-! ### Memories through `Machine/PortOps` -/

theorem State.timeFail_memWf {s : State} (h : s.memWf = true) : s.timeFail.memWf = true :=
  State.ite_memWf h (State.raise_memWf (State.memWf_update h))

theorem State.timeMeasure_memWf {s : State} {o : Int} (h : s.memWf = true) : (s.timeMeasure o).memWf = true := by
  unfold State.timeMeasure
  exact State.memWf_update h

theorem State.timeMiss_memWf {s : State} (h : s.memWf = true) : s.timeMiss.memWf = true := by
  unfold State.timeMiss
  exact State.memWf_update h

theorem State.resetPortWindows_memWf {s : State} {p : HostPort} (h : s.memWf = true) : (s.resetPortWindows p).memWf = true := by
  unfold State.resetPortWindows
  exact State.memWf_update h

theorem State.portLost_memWf {s : State} {p : HostPort} (h : s.memWf = true) : (s.portLost p).memWf = true :=
  State.ite_memWf h (State.memWf_update (State.resetPortWindows_memWf (State.foldl_memWf (fun _ _ ht => State.forgetCtx_memWf
    (State.closeStart_memWf ht)) (State.ite_memWf_of (supVector_memWf (State.raise_memWf (State.modHport_memWf h)))
    (fun h1 => State.timeFail_memWf h1)))))

theorem State.supLost_memWf {s : State} (h : s.memWf = true) : s.supLost.memWf = true :=
  State.ite_memWf h (supVector_memWf (State.raise_memWf (State.memWf_update h)))

theorem State.unbindTargets_memWf {s : State} {p : HostPort} (h : s.memWf = true) : (s.unbindTargets p).memWf = true :=
  State.foldl_memWf (fun _ _ ht => State.clearBitIf_memWf ht) h

theorem State.portDegraded_memWf {s : State} {p : HostPort} (h : s.memWf = true) : (s.portDegraded p).memWf = true :=
  supVector_memWf (State.raise_memWf (State.unbindTargets_memWf (State.modHport_memWf h)))

/-! ### Memories through `Machine/Insertion` -/

theorem State.coldReset_memWf {s : State} (h : s.memWf = true) : s.coldReset.memWf = true := by
  simp [State.coldReset, State.spoilAll_memWf h, State.reset_memWf]

theorem State.unpower_memWf {s : State} (h : s.memWf = true) : s.unpower.memWf = true := by
  unfold State.unpower
  exact State.memWf_update (State.coldReset_memWf h)

theorem State.startRails_memWf {s : State} (h : s.memWf = true) : s.startRails.memWf = true := by
  unfold State.startRails
  exact State.memWf_update h

theorem State.powerDown_memWf {s : State} {lock : Lockout} {trip : Bool} (h : s.memWf = true) : (s.powerDown lock trip).memWf = true := by
  unfold State.powerDown
  exact State.memWf_update (State.missionReset_memWf (State.supLost_memWf (State.portLost_memWf (State.portLost_memWf h))))

theorem execPrsnt1Low_memWf {s : State} (h : s.memWf = true) : AnswerWf (execPrsnt1Low s) := answer_next (State.memWf_update h)

theorem execPrsnt1DebounceExpiry_memWf {s : State} (h : s.memWf = true) : AnswerWf (execPrsnt1DebounceExpiry s) :=
  answer_ite (answer_next (State.memWf_update h)) (answer_next h)

theorem execStandbyRailUp_memWf {s : State} (h : s.memWf = true) : AnswerWf (execStandbyRailUp s) :=
  answer_ite (answer_next (State.ite_memWf_of (State.memWf_update (State.coldReset_memWf h)) (fun h1 => State.startRails_memWf h1)))
    (answer_next h)

theorem execPwrEnRise_memWf {lowTenMs : Bool} {ts ta tb : Byte} {s : State} (h : s.memWf = true) :
    AnswerWf (execPwrEnRise lowTenMs ts ta tb s) :=
  answer_ite (answer_next h) (answer_next (State.ite_memWf_of (State.memWf_update h) (fun h1 => State.startRails_memWf h1)))

theorem execRailInRegulation_memWf {s : State} (h : s.memWf = true) : AnswerWf (execRailInRegulation s) :=
  answer_ite (answer_next (State.memWf_update h)) (answer_next h)

theorem execWakeNTimeout_memWf {s : State} (h : s.memWf = true) : AnswerWf (execWakeNTimeout s) :=
  answer_next (State.ite_memWf h (State.memWf_update h))

theorem execPwrEnFall_memWf {s : State} (h : s.memWf = true) : AnswerWf (execPwrEnFall s) :=
  answer_ite (answer_next (State.memWf_update h)) (answer_next h)

theorem execPwrEnLowTimeout_memWf {s : State} (h : s.memWf = true) : AnswerWf (execPwrEnLowTimeout s) :=
  answer_ite (answer_next (State.ite_memWf (State.powerDown_memWf h) (State.memWf_update h))) (answer_next h)

theorem execPowerDownStep_memWf {s : State} (h : s.memWf = true) : AnswerWf (execPowerDownStep s) :=
  answer_ite (answer_next (State.memWf_update h)) (answer_next h)

theorem execOffReached_memWf {s : State} (h : s.memWf = true) : AnswerWf (execOffReached s) :=
  answer_ite (answer_next (State.ite_memWf_of (State.memWf_update h) (fun h1 => State.startRails_memWf h1))) (answer_next h)

theorem execInputUndervoltage_memWf {s : State} (h : s.memWf = true) : AnswerWf (execInputUndervoltage s) :=
  answer_next (State.memWf_update (State.unpower_memWf h))

theorem execInputOvervoltage_memWf {s : State} (h : s.memWf = true) : AnswerWf (execInputOvervoltage s) :=
  answer_next (State.memWf_update (State.unpower_memWf h))

theorem execElectronicBreakerTrip_memWf {s : State} (h : s.memWf = true) : AnswerWf (execElectronicBreakerTrip s) :=
  answer_next (State.memWf_update (State.unpower_memWf h))

theorem execInputTurnOn_memWf {s : State} (h : s.memWf = true) : AnswerWf (execInputTurnOn s) :=
  answer_ite (answer_next (State.memWf_update h)) (answer_next h)

theorem execInputPowerUpdate_memWf {vin : Byte} {pin : BitVec 16} {board : Byte} {s : State} (h : s.memWf = true) :
    AnswerWf (execInputPowerUpdate vin pin board s) := answer_ite (answer_next (bumpAon_memWf (State.memWf_update h))) (answer_next h)

theorem execPrsnt1High_memWf {s : State} (h : s.memWf = true) : AnswerWf (execPrsnt1High s) := answer_next (State.memWf_update h)

theorem execRemovalDeclared_memWf {s : State} (h : s.memWf = true) : AnswerWf (execRemovalDeclared s) :=
  answer_ite (answer_next (State.memWf_update (State.missionReset_memWf (State.raise_memWf (State.memWf_update h))))) (answer_next h)

theorem execThermalWarning_memWf {d : Die} {reading : Byte} {s : State} (h : s.memWf = true) :
    AnswerWf (execThermalWarning d reading s) :=
  answer_ite (answer_next (State.ite_memWf_of (State.memWf_update h) (fun h1 => State.raise_memWf h1))) (answer_next h)

theorem execThermalTrip_memWf {d : Die} {reading : Byte} {s : State} (h : s.memWf = true) : AnswerWf (execThermalTrip d reading s) :=
  answer_ite (answer_next (State.ite_memWf (State.powerDown_memWf (State.assertFault_memWf (State.raise_memWf (State.memWf_update h))))
    (State.ite_memWf_of (State.memWf_update h) (fun h1 => State.memWf_update (State.assertFault_memWf (State.raise_memWf h1))))))
    (answer_next h)

theorem execRailFault_memWf {s : State} (h : s.memWf = true) : AnswerWf (execRailFault s) :=
  answer_ite (answer_next (State.powerDown_memWf (State.assertFault_memWf (State.raise_memWf h)))) (answer_next h)

theorem execReferenceLost_memWf {s : State} (h : s.memWf = true) : AnswerWf (execReferenceLost s) :=
  answer_ite (answer_next (State.assertFault_memWf (State.memWf_update h))) (answer_next h)

theorem execPllLockLoss_memWf {p : Pll} {s : State} (h : s.memWf = true) : AnswerWf (execPllLockLoss p s) :=
  answer_ite (answer_next (State.raise_memWf (State.memWf_update h))) (answer_next h)

theorem execHeartbeatMissing_memWf {s : State} (h : s.memWf = true) : AnswerWf (execHeartbeatMissing s) :=
  answer_ite (answer_next (State.assertFault_memWf (State.memWf_update h))) (answer_next h)

theorem execAliveToggle_memWf {s : State} (h : s.memWf = true) : AnswerWf (execAliveToggle s) :=
  answer_ite (answer_next (State.memWf_update h)) (answer_next h)

/-! ### Memories through `Machine/Groups` -/

theorem State.lockFor_memWf {s : State} {d : Weft} {g : Grp} (h : s.memWf = true) : (s.lockFor d g).memWf = true :=
  State.foldl_memWf (fun _ _ ht => State.memWf_update ht) h

theorem State.unlockIdle_memWf {s : State} {d : Weft} (h : s.memWf = true) : (s.unlockIdle d).memWf = true :=
  State.foldl_memWf (fun _ _ ht => State.memWf_update ht) h

theorem State.applyHeld_memWf {s : State} {d : Weft} (h : s.memWf = true) : (s.applyHeld d).memWf = true := by
  unfold State.applyHeld
  exact State.memWf_update (State.foldl_memWf (fun _ _ ht => State.ctrWrite_memWf (State.controlWord_memWf ht)) h)

theorem State.proofStart_memWf {s : State} {d : Weft} (h : s.memWf = true) : (s.proofStart d).memWf = true :=
  State.modWeft_keeps (fun _ => rfl) h

theorem State.proofEnter_memWf {s : State} (h : s.memWf = true) : s.proofEnter.memWf = true :=
  State.ite_memWf_of (State.foldl_memWf (fun _ _ ht => State.ite_memWf (State.proofStart_memWf ht) ht) h) (fun h1 => State.ite_memWf h1 h)

theorem State.raiseProof_memWf {s : State} {d : Weft} {v : ProofVerdict} (h : s.memWf = true) : (s.raiseProof d v).memWf = true :=
  State.raise_memWf h

theorem State.modChecks_memWf {s : State} {d : Weft} {f : Checks → Checks} (h : s.memWf = true) : (s.modChecks d f).memWf = true :=
  State.modWeft_keeps (fun _ => rfl) h

theorem execWakeRequest_memWf {d : Weft} {g : Grp} {s : State} (h : s.memWf = true) : AnswerWf (execWakeRequest d g s) :=
  answer_next (State.ite_memWf (State.wake_memWf h) h)

theorem State.awake_memWf {s : State} {d : Weft} (h : s.memWf = true) : (s.awake d).memWf = true :=
  State.ite_memWf (State.modChecks_memWf h) h

theorem execIdleTimeout_memWf {d : Weft} {g : Grp} {s : State} (h : s.memWf = true) : AnswerWf (execIdleTimeout d g s) := by
  unfold execIdleTimeout
  split
  · exact answer_next (State.ite_memWf (State.modWeft_memWf (fun _ hw => by simp [hw]) h) h)
  · exact answer_next h

theorem execRestTimeout_memWf {d : Weft} {g : Grp} {s : State} (h : s.memWf = true) : AnswerWf (execRestTimeout d g s) := by
  unfold execRestTimeout
  split
  · exact answer_next (State.ite_memWf (State.modWeft_memWf (fun _ hw => by simp [hw]) h) h)
  · exact answer_next h

theorem execStateEntryDone_memWf {d : Weft} {g : Grp} {s : State} (h : s.memWf = true) : AnswerWf (execStateEntryDone d g s) := by
  unfold execStateEntryDone
  split
  · exact answer_next (State.ite_memWf_of (State.unlockIdle_memWf (State.modWeft_memWf (fun _ hw => by simp [hw]) h))
      (fun h1 => State.restLoss_memWf h1))
  · exact answer_next h

/-! ### Memories through `Machine/Issue` -/

theorem State.bytesFree_memWf {s : State} {d code level size : Nat} {master : Byte} {t : Step} (h : s.memWf = true) :
    (s.bytesFree d code level size master t).memWf = true := State.countFree_memWf (State.memWf_update h)

theorem State.bankLost_memWf {s : State} {d : Nat} {master : Byte} {t : Step} (h : s.memWf = true) :
    (s.bankLost d master t).memWf = true := State.countFree_memWf h

theorem State.beamReads_memWf {s : State} {d : Nat} {master : Byte} {t : Step} (h : s.memWf = true) :
    (s.beamReads d master t).memWf = true := State.bankLost_memWf (State.bytesFree_memWf h)

theorem State.onPair_memWf {s : State} {n : Nat} {go : Pair → Running → Step → State} (h : s.memWf = true) (hgo : ∀ p r t,
    (go p r t).memWf = true) :
    (s.onPair n go).memWf = true := by
  unfold State.onPair
  split
  · exact h
  · split
    · exact h
    · split
      · exact h
      · exact State.ite_memWf (hgo _ _ _) h

theorem State.retired_memWf {s : State} {n : Nat} {t : Step} {loom : Bool} (h : s.memWf = true) : (s.retired n t loom).memWf = true :=
  State.ite_memWf_of (State.instrDone_memWf (countEv_memWf h)) (fun h1 => countEv_memWf h1)

theorem State.doneStd_memWf {s : State} {n : Nat} {t : Step} {f : Pair → Pair} (h : s.memWf = true) (hf : ∀ p : Pair,
    (f p).memWf = p.memWf) :
    (s.doneStd n t f).memWf = true := State.retired_memWf (State.modPair_keeps (fun _ => hf _) h)

theorem State.doneLm_memWf {s : State} {n : Nat} {t : Step} {f : Pair → Pair} (h : s.memWf = true) (hf : ∀ p : Pair,
    (f p).memWf = p.memWf) :
    (s.doneLm n t f).memWf = true := State.retired_memWf (State.modPair_keeps (fun _ => hf _) h)

theorem State.raisePair_memWf {s : State} {n k : Nat} {t : Step} {r : Running} {pc : Dword} (h : s.memWf = true) :
    (s.raisePair n k t r pc).memWf = true := State.raise_memWf h

theorem State.progFault_memWf {s : State} {n : Nat} {t : Step} {r : Running} {pc : Dword} (h : s.memWf = true) :
    (s.progFault n t r pc).memWf = true := State.raisePair_memWf (State.endCtx_memWf h)

theorem State.pushOp_memWf {s : State} {d : Weft} {u : OpUnit} {o : Op} (h : s.memWf = true) : (s.pushOp d u o).memWf = true :=
  State.modWeft_memWf (fun _ hw => by simp [hw]) h

theorem State.issue_memWf {s : State} {n rd : Nat} {t : Step} {full : Bool} {put : Nat → State → State} (h : s.memWf = true)
    (hput : ∀ k u, u.memWf = true → (put k u).memWf = true) : (s.issue n rd t full put).memWf = true := by
  unfold State.issue
  refine State.ite_memWf (State.countFree_memWf h) ?_
  split
  · exact State.countFree_memWf h
  · exact hput _ _ (State.doneLm_memWf (State.modWeft_keeps (fun _ => rfl) (State.memWf_update h)) (fun _ =>
      (Pair.setX_memWf _ _ _).trans rfl))

theorem State.ticketDone_memWf {s : State} {d : Weft} {k : Nat} (h : s.memWf = true) : (s.ticketDone d k).memWf = true := by
  unfold State.ticketDone
  exact State.modWeft_memWf (fun w hw => w.setPairs_memWf hw (pairsWf_map _ _ (fun _ hp => hp) (w.pairs_wf hw))) h

theorem State.layerProgress_memWf {s : State} {o : Op} {m : OpMember} (h : s.memWf = true) : (s.layerProgress o m).memWf = true := by
  unfold State.layerProgress
  split
  · exact State.progress_memWf h
  · exact h

theorem State.opDone_memWf {s : State} {d : Weft} {o : Op} (h : s.memWf = true) : (s.opDone d o).memWf = true :=
  State.foldl_memWf (fun _ _ ht => State.ticketDone_memWf (State.layerProgress_memWf ht)) h

theorem State.unitProgress_memWf {s : State} {d : Weft} {u : OpUnit} (h : s.memWf = true) : (s.unitProgress d u).memWf = true := by
  unfold State.unitProgress
  split
  · exact State.foldl_memWf (fun _ _ ht => State.progress_memWf ht) h
  · exact State.progress_memWf h
  · exact State.progress_memWf h
  · exact h

theorem State.joinWindow_memWf {s : State} {target : Nat} {w : Window} (h : s.memWf = true) : (s.joinWindow target w).memWf = true :=
  State.ite_memWf_of (State.memWf_update h) (fun h1 => State.closeWindow_memWf h1)

theorem State.request_memWf {s : State} {d : Weft} {t : Step} {l : Nat} {m : OpMember} (h : s.memWf = true) :
    (s.request d t l m).memWf = true := by
  unfold State.request
  refine State.ite_memWf (State.pushOp_memWf h) ?_
  split
  · exact State.sendWindows_memWf (State.memWf_update h)
  · refine State.ite_memWf (State.closeWindow_memWf h) ?_
    split
    · exact State.joinWindow_memWf h
    · exact State.ite_memWf (State.joinWindow_memWf h) (State.joinWindow_memWf (State.closeWindow_memWf h))

/-! ### Memories through `Machine/Intake` -/

theorem State.beginSample_memWf {s : State} {k : Nat} {rec : Recipe} {c : Nat} {time : Dword} {sweep : Nat} (h : s.memWf = true) :
    (s.beginSample k rec c time sweep).memWf = true := by
  unfold State.beginSample
  dsimp only
  split
  · exact State.ite_memWf_of (State.modSlot_memWf h) (fun h1 => State.zeroPos_memWf h1)
  · exact State.corruptSample_memWf (State.modSlot_memWf h)

theorem State.startSample_memWf {s : State} {k : Nat} {time : Dword} {sweep : Nat} (h : s.memWf = true) :
    (s.startSample k time sweep).memWf = true := by
  have h0 : (s.corruptSample k).memWf = true := State.corruptSample_memWf h
  unfold State.startSample
  dsimp only
  split
  · exact h0
  · split
    · exact State.beginSample_memWf h0
    · split
      · exact State.beginSample_memWf (State.openInst_memWf h0 ‹_›)
      · exact State.raise_memWf (State.memWf_update (State.modSlot_memWf h0))

theorem State.corruptRaise_memWf {s : State} {k n counter : Nat} (h : s.memWf = true) : (s.corruptRaise k n counter).memWf = true :=
  State.raise_memWf (State.corruptSample_memWf h)

theorem State.intakeFixed_memWf {s : State} {c : IntakeCheck} (h : s.memWf = true) : (s.intakeFixed c).memWf = true :=
  State.foldl_memWf (fun _ _ ht => bumpAon_memWf (countEv_memWf ht)) h

theorem State.idleSlot_memWf {s : State} {k : Nat} (h : s.memWf = true) : (s.idleSlot k).memWf = true := State.modSlot_memWf h

theorem State.dropOne_memWf {s : State} {k : Nat} (h : s.memWf = true) : (s.dropOne k).memWf = true := State.modSlot_memWf h

theorem State.lateOne_memWf {s : State} {k : Nat} (h : s.memWf = true) : (s.lateOne k).memWf = true := State.modSlot_memWf h

theorem State.completeSample_memWf {s : State} {k : Nat} {sm : Sample} (h : s.memWf = true) : (s.completeSample k sm).memWf = true := by
  unfold State.completeSample
  dsimp only
  split
  · exact State.ite_memWf_of (bumpAon_memWf (State.slotEv_memWf (State.modSlot_memWf (State.modPos_memWf h))))
      (fun h1 => State.modSlot_memWf (State.toHold_memWf h1))
  · exact bumpAon_memWf (State.slotEv_memWf (State.modSlot_memWf (State.modPos_memWf h)))

theorem State.workOn_memWf {s : State} {k : Nat} {points : Bool} {c : IntakeCheck} (h : s.memWf = true) :
    (s.workOn k points c).memWf = true := State.intakeFixed_memWf (State.progress_memWf (State.slotEv_memWf h))

theorem State.writeBand_memWf {s : State} {k : Nat} {sm : Sample} {rec : Recipe} {cb : Codebook} {i : Instance} {band : Nat}
    (h : s.memWf = true) : (s.writeBand k sm rec cb i band).1.memWf = true :=
  State.foldl_fst_memWf (fun _ _ ha => State.putRow_memWf ha) h

theorem State.acceptLine_memWf {s : State} {k : Nat} {sm : Sample} {rec : Recipe} {comps : List Nat} (h : s.memWf = true) :
    (s.acceptLine k sm rec comps).memWf = true := by
  unfold State.acceptLine
  split
  · exact State.modSlot_memWf (State.foldl_fst_memWf (fun _ _ ha => State.writeBand_memWf ha) h)
  · exact h

theorem State.endFrame_memWf {s : State} {k : Nat} (h : s.memWf = true) : (s.endFrame k).memWf = true := by
  unfold State.endFrame
  split
  · exact State.dropOne_memWf h
  · exact State.idleSlot_memWf h
  · exact State.idleSlot_memWf (State.lateOne_memWf h)
  · split
    · exact State.idleSlot_memWf h
    · exact State.ite_memWf (State.completeSample_memWf h) (State.idleSlot_memWf (State.corruptSample_memWf h))

/-- The raise that a faulty sample ends with keeps the memories. -/
theorem State.intakeError_memWf {k : Nat} {c : IntakeCheck} {lanes : Bool} {f : State → State} (hf : State.intakeError k c lanes = some f)
    {s : State} (h : s.memWf = true) : (f s).memWf = true := by
  unfold State.intakeError at hf
  split at hf
  · cases hf
    exact State.raise_memWf (State.corruptSample_memWf h)
  · cases hf
    exact State.corruptRaise_memWf h
  · cases hf

theorem State.takeLine_memWf {s : State} {k dataType : Nat} {payload : List Byte} {crcOk lanesAgree overflow : Bool} {ecc : IntakeCheck}
    (h : s.memWf = true) : (s.takeLine k dataType payload crcOk lanesAgree overflow ecc).memWf = true := by
  have hbad : ∀ u : State, u.memWf = true → (if crcOk then u else u.corruptSample k).memWf = true :=
    fun _ hu => State.ite_memWf hu (State.corruptSample_memWf hu)
  have h1 : (s.workOn k false ecc).memWf = true := State.workOn_memWf h
  unfold State.takeLine
  refine State.ite_memWf (hbad _ h) (State.ite_memWf (hbad _ (State.dropOne_memWf h)) ?_)
  dsimp only
  split
  · exact State.dropOne_memWf h1
  · exact h1
  · exact State.lateOne_memWf h1
  · exact h1
  · refine State.ite_memWf (State.corruptRaise_memWf h1) (State.ite_memWf (State.corruptSample_memWf h1) ?_)
    split
    · exact State.intakeError_memWf ‹_› h1
    · exact State.acceptLine_memWf h1

theorem State.takeDiscard_memWf {s : State} {k dataType : Nat} {headerError : Bool} (h : s.memWf = true) :
    (s.takeDiscard k dataType headerError).memWf = true :=
  State.ite_memWf (State.corruptSample_memWf (State.dropOne_memWf h)) (State.ite_memWf h (State.dropOne_memWf h))

theorem State.takePoint_memWf {s : State} {k : Nat} {rec : Recipe} {p : Point} (h : s.memWf = true) :
    (s.takePoint k rec p).memWf = true := by
  unfold State.takePoint
  split
  · refine State.ite_memWf h ?_
    split
    · exact State.dropOne_memWf h
    · refine State.ite_memWf (State.dropOne_memWf h) ?_
      split
      · exact State.modSlot_memWf (State.putRow_memWf h)
      · exact h
  · exact h

theorem State.takePacket_memWf {s : State} {k : Nat} {rec : Recipe} {bs : List Byte} (h : s.memWf = true) :
    (s.takePacket k rec bs).memWf = true := by
  unfold State.takePacket
  dsimp only
  split
  · exact State.ite_memWf (State.completeSample_memWf (State.foldl_memWf (fun _ _ ht => State.takePoint_memWf ht)
      (State.modSlot_memWf h))) (State.modSlot_memWf (State.foldl_memWf (fun _ _ ht => State.takePoint_memWf ht) (State.modSlot_memWf h)))
  · exact State.foldl_memWf (fun _ _ ht => State.takePoint_memWf ht) (State.modSlot_memWf h)

theorem State.pointPacket_memWf {s : State} {k : Nat} {rec : Recipe} {bs : List Byte} {time : Dword} {err : Option (State → State)}
    (h : s.memWf = true) (herr : ∀ f, err = some f → ∀ u : State, u.memWf = true → (f u).memWf = true) :
    (s.pointPacket k rec bs time err).memWf = true := by
  have htake : ∀ u : State, u.memWf = true → (match err with | some f => f u | none => u.takePacket k rec bs).memWf = true := by
    intro u hu
    split
    · exact herr _ rfl u hu
    · exact State.takePacket_memWf hu
  have hidle : ∀ (c : Prop) [Decidable c] (u : State), u.memWf = true → (if c then u.idleSlot k else u).memWf = true :=
    fun _ _ _ hu => State.ite_memWf (State.idleSlot_memWf hu) hu
  unfold State.pointPacket
  refine State.ite_memWf ?_ ?_
  · have h1 : (s.startSample k time (leAt bs 8 4)).memWf = true := State.startSample_memWf h
    dsimp only
    split
    · exact htake _ h1
    · exact hidle _ _ h1
  · split
    · exact State.ite_memWf (htake _ h) (hidle _ _ (State.corruptSample_memWf h))
    · exact hidle _ _ (State.lateOne_memWf h)
    · exact hidle _ _ h
    · exact h

theorem State.injectLine_memWf {k : Nat} {rec : Recipe} {cs : List RowCheck} {s : State} {x : List Nat × Nat} (h : s.memWf = true) :
    (State.injectLine k rec cs s x).memWf = true := by
  have h1 : (s.workOn k false (rowCheck cs x.2).ecc).memWf = true := State.workOn_memWf h
  unfold State.injectLine
  dsimp only
  split
  · split
    · exact State.intakeError_memWf ‹_› h1
    · exact State.acceptLine_memWf h1
  · exact State.lateOne_memWf h1
  · exact h1

theorem State.injectPacket_memWf {k : Nat} {rec : Recipe} {cs : List RowCheck} {time : Dword} {s : State} {p : List Byte × Nat}
    (h : s.memWf = true) : (State.injectPacket k rec cs time s p).memWf = true := by
  have h1 : (s.workOn k true (rowCheck cs p.2).ecc).memWf = true := State.workOn_memWf h
  unfold State.injectPacket
  refine State.ite_memWf (State.pointPacket_memWf h1 (fun _ hf _ hu => State.intakeError_memWf hf hu)) ?_
  split
  · exact State.ite_memWf (State.takePacket_memWf (State.modSlot_memWf h1)) (State.corruptSample_memWf h1)
  · exact State.intakeError_memWf ‹_› h1
  · exact State.lateOne_memWf h1
  · exact h1

theorem State.injectPayload_memWf {s : State} {k : Nat} {rec : Recipe} {header payload : List Byte} {cs : List RowCheck}
    (h : s.memWf = true) :
    (s.injectPayload k rec header payload cs).memWf = true :=
  State.ite_memWf (State.idleSlot_memWf (State.corruptSample_memWf (State.foldl_memWf (fun _ _ ht => State.injectPacket_memWf ht) h)))
    (State.endFrame_memWf (State.foldl_memWf (fun _ _ ht => State.injectLine_memWf ht) h))

theorem State.injectLate_memWf {s : State} {k : Nat} {rec : Recipe} {header payload : List Byte} {cs : List RowCheck}
    (h : s.memWf = true) :
    (s.injectLate k rec header payload cs).memWf = true :=
  State.ite_memWf_of' (State.foldl_memWf (fun _ _ ht => State.lateOne_memWf (State.workOn_memWf ht)) h) (fun h1 => State.lateOne_memWf h1)

theorem State.injectRead_memWf {s : State} {k : Nat} {rec : Recipe} {desc payload : List Byte} {cs : List RowCheck} (h : s.memWf = true) :
    (s.injectRead k rec desc payload cs).memWf = true := by
  unfold State.injectRead
  refine State.ite_memWf_of' (State.injectPayload_memWf h) (fun h1 => ?_)
  split
  · exact State.idleSlot_memWf h
  · exact h
  · exact h1
  · exact State.injectLate_memWf h

theorem State.takeOne_memWf {k : Nat} {s : State} {x : Dword × Packet} (h : s.memWf = true) : (State.takeOne k s x).memWf = true := by
  unfold State.takeOne
  split
  · exact State.startSample_memWf h
  · exact State.takeLine_memWf h
  · exact State.endFrame_memWf h
  · exact State.takeDiscard_memWf h
  · split
    · exact State.pointPacket_memWf (State.workOn_memWf h) (fun _ hf _ hu => State.intakeError_memWf hf hu)
    · exact h
  · exact State.corruptSample_memWf h
  · split
    · exact State.injectRead_memWf h
    · exact h

theorem State.drainInput_memWf {s : State} {k : Nat} (h : s.memWf = true) : (s.drainInput k).memWf = true :=
  State.foldl_memWf (fun _ _ ht => State.takeOne_memWf ht) (State.modSlot_memWf h)

theorem State.drainAll_memWf {s : State} (h : s.memWf = true) : s.drainAll.memWf = true :=
  State.ite_memWf (State.foldl_memWf (fun _ _ ht => State.drainInput_memWf ht) h) h

theorem State.receive_memWf {s : State} {k : Nat} {waits : Bool} {p : Packet} (h : s.memWf = true) : (s.receive k waits p).memWf = true :=
  State.ite_memWf h (State.ite_memWf_of' (State.modSlot_memWf h) (fun h1 => State.drainInput_memWf h1))

theorem State.headerFix_memWf {s : State} {k : Nat} {fixed : Bool} (h : s.memWf = true) : (s.headerFix k fixed).memWf = true :=
  State.ite_memWf (State.modSlot_memWf h) h

theorem State.csi2_memWf {s : State} {port vc : Nat} {fixed waits : Bool} {p : Packet} (h : s.memWf = true) :
    (s.csi2 port vc fixed waits p).memWf = true := by
  unfold State.csi2
  split
  · exact State.ite_memWf (State.receive_memWf (State.headerFix_memWf h)) h
  · exact h

theorem execCsi2FrameStart_memWf {port vc : Nat} {fixed : Bool} {s : State} (h : s.memWf = true) :
    AnswerWf (execCsi2FrameStart port vc fixed s) := answer_next (State.csi2_memWf h)

theorem execCsi2LongPacket_memWf {port vc dataType : Nat} {payload : List Byte} {crcOk lanesAgree overflow : Bool} {ecc : IntakeCheck}
    {fixed waits : Bool} {s : State} (h : s.memWf = true) :
    AnswerWf (execCsi2LongPacket port vc dataType payload crcOk lanesAgree overflow ecc fixed waits s) := answer_next (State.csi2_memWf h)

theorem execCsi2FrameEnd_memWf {port vc : Nat} {fixed : Bool} {s : State} (h : s.memWf = true) :
    AnswerWf (execCsi2FrameEnd port vc fixed s) := answer_next (State.csi2_memWf h)

theorem execCsi2PacketDiscard_memWf {port vc dataType : Nat} {headerError fixed : Bool} {s : State} (h : s.memWf = true) :
    AnswerWf (execCsi2PacketDiscard port vc dataType headerError fixed s) := answer_next (State.csi2_memWf h)

theorem execPhyLinkLoss_memWf {port : Nat} {s : State} (h : s.memWf = true) : AnswerWf (execPhyLinkLoss port s) :=
  answer_ite (answer_next (State.foldl_memWf (fun _ _ ht => State.receive_memWf ht) h)) (answer_next h)

theorem execEthernetFrame_memWf {port : Nat} {frame : List Byte} {lanesAgree : Bool} {ecc : IntakeCheck} {waits : Bool} {s : State}
    (h : s.memWf = true) :
    AnswerWf (execEthernetFrame port frame lanesAgree ecc waits s) := by
  unfold execEthernetFrame
  refine answer_ite (answer_next h) ?_
  split
  · exact answer_next h
  · dsimp only
    split
    · exact answer_next (State.ite_memWf (State.foldl_memWf (fun _ _ ht => State.dropOne_memWf ht) h) h)
    · split
      · exact answer_next (State.receive_memWf h)
      · exact answer_next (State.foldl_memWf (fun _ _ ht => State.dropOne_memWf ht) h)

theorem State.markLate_memWf {s : State} {k c : Nat} (h : s.memWf = true) : (s.markLate k c).memWf = true := State.modSlot_memWf h

theorem execBatchCloseTimeout_memWf {batch counter : Nat} {s : State} (h : s.memWf = true) :
    AnswerWf (execBatchCloseTimeout batch counter s) := by
  unfold execBatchCloseTimeout
  split
  · exact answer_next (State.ite_memWf h (State.foldl_memWf (fun _ _ ht => State.substitute_memWf (State.markLate_memWf ht)) h))
  · exact answer_next h

theorem State.armAge_memWf {s : State} {t : Step} (h : s.memWf = true) : (s.armAge t).memWf = true :=
  State.ite_memWf (State.ageFaultNow_memWf (State.modStep_memWf h)) h

theorem State.instReady_memWf {s : State} {b c : Nat} {i0 : Instance} (h : s.memWf = true) : (s.instReady b c i0).memWf = true :=
  State.foldl_memWf (fun _ _ ht => State.armAge_memWf ht) (State.releaseInsts_memWf (State.creelPut_memWf (State.modInst_memWf h)))

theorem execBatchReady_memWf {batch counter : Nat} {s : State} (h : s.memWf = true) : AnswerWf (execBatchReady batch counter s) := by
  unfold execBatchReady
  split
  · exact answer_next (State.ite_memWf (State.instReady_memWf h) h)
  · exact answer_next h

/-! ### Memories through `Machine/Boot` -/

theorem State.selectOwner_memWf {s : State} (h : s.memWf = true) : s.selectOwner.memWf = true := by
  unfold State.selectOwner
  exact State.memWf_update h

theorem State.askPerst_memWf {s : State} (h : s.memWf = true) : s.askPerst.memWf = true := by
  unfold State.askPerst
  exact State.memWf_update h

theorem State.enterRecovery_memWf {s : State} {cause : Nat} (h : s.memWf = true) : (s.enterRecovery cause).memWf = true :=
  supVector_memWf (State.askPerst_memWf (State.wake_memWf (State.memWf_update h)))

theorem execPowerGood_memWf {s : State} (h : s.memWf = true) : AnswerWf (execPowerGood s) :=
  answer_ite (answer_next (State.ite_memWf (State.enterRecovery_memWf (State.memWf_update h)) (State.memWf_update
    (State.memWf_update h)))) (answer_next h)

theorem execBootVerified_memWf {s : State} (h : s.memWf = true) : AnswerWf (execBootVerified s) := by
  have h1 : s.selectOwner.memWf = true := State.selectOwner_memWf h
  unfold execBootVerified
  refine answer_ite (answer_next (State.askPerst_memWf (State.wakeDie_memWf (State.wakeDie_memWf (State.ite_memWf_of ?_
    (fun h2 => State.setReg_memWf h2)))))) (answer_next h)
  exact State.memWf_update_dies h1 (State.wa_memWf _ h1) (State.wb_memWf _ h1) s.selectOwner.sec.copyEeprom_mailbox

theorem State.stageTo_memWf {s : State} {n : Nat} (h : s.memWf = true) : (s.stageTo n).memWf = true := by
  unfold State.stageTo
  exact State.memWf_update h

theorem State.diePhaseTo_memWf {s : State} {d : Weft} {p : DiePhase} (h : s.memWf = true) : (s.diePhaseTo d p).memWf = true := by
  unfold State.diePhaseTo
  split
  · exact State.memWf_update h
  · exact State.memWf_update h

theorem execGddr6TrainingDone_memWf {d : Weft} {failed : BitVec 12} {s : State} (h : s.memWf = true) :
    AnswerWf (execGddr6TrainingDone d failed s) :=
  answer_ite (answer_next (State.ite_memWf_of' (State.ite_memWf_of' (State.foldl_memWf (fun _ _ ht => State.raise_memWf ht)
    (State.diePhaseTo_memWf (State.modWeft_keeps (fun _ => rfl) h))) (fun h1 => State.recompute_memWf h1))
    (fun h1 => State.stageTo_memWf h1))) (answer_next h)

theorem execGddr6ZeroingDone_memWf {d : Weft} {s : State} (h : s.memWf = true) : AnswerWf (execGddr6ZeroingDone d s) :=
  answer_ite (answer_next (State.ite_memWf (State.setReg_memWf (State.diePhaseTo_memWf (State.modWeft_memWf
    (fun _ hw => by simp [hw]) h))) (State.ite_memWf_of (State.diePhaseTo_memWf (State.modWeft_memWf (fun _ hw => by simp [hw]) h))
    (fun h1 => State.stageTo_memWf (State.setReg_memWf h1))))) (answer_next h)

theorem State.dieOut_memWf {s : State} {d : Weft} (h : s.memWf = true) : (s.dieOut d).memWf = true := State.modWeft_keeps (fun _ => rfl) h

theorem State.startOut_memWf {s : State} {d : Weft} (h : s.memWf = true) : (s.startOut d).memWf = true := by
  unfold State.startOut
  exact State.memWf_update (State.dieOut_memWf h)

theorem State.startPassed_memWf {s : State} {d : Weft} (h : s.memWf = true) : (s.startPassed d).memWf = true := by
  unfold State.startPassed
  exact State.memWf_update h

theorem State.moduleFailure_memWf {s : State} {f : InjectFailure} (h : s.memWf = true) : (s.moduleFailure f).memWf = true := by
  unfold State.moduleFailure
  split
  · exact State.memWf_update h
  · exact State.startOut_memWf h
  · exact State.startOut_memWf h

theorem execInjectionDone_memWf {scope : InjectScope} {failures : List InjectFailure} {s : State} (h : s.memWf = true) :
    AnswerWf (execInjectionDone scope failures s) := by
  unfold execInjectionDone
  refine answer_ite (answer_next h) ?_
  split
  · exact answer_ite (answer_next (State.ite_memWf (State.memWf_update (State.stageTo_memWf (State.memWf_update
      (State.setReg_memWf h)))) (State.recompute_memWf (State.assertFault_memWf (State.foldl_memWf
      (fun _ _ ht => State.moduleFailure_memWf ht) (State.stageTo_memWf (State.memWf_update (State.setReg_memWf h)))))))) (answer_next h)
  · exact answer_ite (answer_next (State.ite_memWf (State.ite_memWf (State.recompute_memWf (State.diePhaseTo_memWf
      (State.startPassed_memWf (State.setReg_memWf h)))) (State.diePhaseTo_memWf (State.startPassed_memWf (State.setReg_memWf h))))
      (State.recompute_memWf (State.assertFault_memWf (State.diePhaseTo_memWf (State.dieOut_memWf (State.setReg_memWf h)))))))
      (answer_next h)
  · exact answer_ite (answer_next (State.ite_memWf (State.unitDone_memWf (State.setReg_memWf h)) (State.assertFault_memWf
      (State.unitAt_memWf (State.setReg_memWf h))))) (answer_next h)

theorem execBootProofVerdict_memWf {d : Weft} {v : ProofVerdict} {s : State} (h : s.memWf = true) :
    AnswerWf (execBootProofVerdict d v s) := by
  unfold execBootProofVerdict
  refine answer_ite (answer_next (State.ite_memWf_of ?_ (fun h1 => State.stageTo_memWf h1))) (answer_next h)
  split
  · exact bumpAon_memWf (State.modWeft_keeps (fun _ => rfl) h)
  · exact State.recompute_memWf (State.raiseProof_memWf (State.dieOut_memWf (State.assertFault_memWf h)))

theorem State.installResult_memWf {s : State} {n : Nat} (h : s.memWf = true) : (s.installResult n).memWf = true := State.setReg_memWf h

theorem State.install_memWf {s : State} {programmed : Bool} (h : s.memWf = true) : (s.install programmed).memWf = true :=
  State.ite_memWf (State.ite_memWf (State.installResult_memWf h) (State.installResult_memWf (State.memWf_update h))) h

theorem State.finishInstall_memWf {s : State} (h : s.memWf = true) : s.finishInstall.memWf = true := by
  unfold State.finishInstall
  split
  · exact h
  · exact State.ite_memWf (State.moduleReset_memWf (State.installResult_memWf (State.memWf_update h))) (State.installResult_memWf
      (State.memWf_update h))

theorem execKprBootInstall_memWf {programmed : Bool} {s : State} (h : s.memWf = true) : AnswerWf (execKprBootInstall programmed s) :=
  answer_next (State.install_memWf h)

theorem execKprRollbackCommit_memWf {s : State} (h : s.memWf = true) : AnswerWf (execKprRollbackCommit s) :=
  answer_ite (answer_next (State.memWf_update h)) (answer_next h)

/-! ### Memories through `Machine/Ports` -/

theorem State.setPerst_memWf {s : State} {p : Port} {v : Bool} (h : s.memWf = true) : (s.setPerst p v).memWf = true := by
  unfold State.setPerst
  exact State.memWf_update h

theorem execPerstAssert_memWf {p : Port} {s : State} (h : s.memWf = true) : AnswerWf (execPerstAssert p s) := by
  unfold execPerstAssert
  refine answer_next ?_
  split
  · exact State.portLost_memWf (State.setPerst_memWf h)
  · exact State.portLost_memWf (State.setPerst_memWf h)
  · exact State.supLost_memWf (State.setPerst_memWf h)

theorem execPerstDeassert_memWf {p : Port} {s : State} (h : s.memWf = true) : AnswerWf (execPerstDeassert p s) :=
  answer_next (State.setPerst_memWf h)

theorem execHostLinkLoss_memWf {p : HostPort} {s : State} (h : s.memWf = true) : AnswerWf (execHostLinkLoss p s) :=
  answer_next (State.portLost_memWf h)

theorem execHostLinkUp_memWf {p : HostPort} {width speed mps : Nat} {msix : Bool} {s : State} (h : s.memWf = true) :
    AnswerWf (execHostLinkUp p width speed mps msix s) :=
  answer_ite (answer_next (State.ite_memWf_of (supVector_memWf (State.memWf_update (State.modHport_memWf h)))
    (fun h1 => State.portDegraded_memWf h1))) (answer_next h)

theorem execHostLinkDegraded_memWf {p : HostPort} {width speed mps : Nat} {s : State} (h : s.memWf = true) :
    AnswerWf (execHostLinkDegraded p width speed mps s) :=
  answer_ite (answer_next (State.ite_memWf_of' (State.modHport_memWf h) (fun h1 => State.portDegraded_memWf h1))) (answer_next h)

theorem execHostLinkRestored_memWf {p : HostPort} {mps : Nat} {s : State} (h : s.memWf = true) :
    AnswerWf (execHostLinkRestored p mps s) := answer_ite (answer_next (State.modHport_memWf h)) (answer_next h)

theorem execHostLinkRecovery_memWf {p : HostPort} {s : State} (h : s.memWf = true) : AnswerWf (execHostLinkRecovery p s) :=
  answer_ite (answer_next (State.modHport_memWf h)) (answer_next h)

theorem execSupervisorLinkLoss_memWf {s : State} (h : s.memWf = true) : AnswerWf (execSupervisorLinkLoss s) :=
  answer_next (State.supLost_memWf h)

theorem execSupervisorLinkUp_memWf {msix : Bool} {s : State} (h : s.memWf = true) : AnswerWf (execSupervisorLinkUp msix s) :=
  answer_ite (answer_next (supVector_memWf (State.foldl_memWf (fun _ _ ht => supVector_memWf ht) (State.memWf_update h)))) (answer_next h)

theorem State.flrOne_memWf {s : State} {f : FnId} (h : s.memWf = true) : (s.flrOne f).memWf = true := by
  unfold State.flrOne
  exact State.memWf_update (State.foldl_memWf (fun _ _ ht => State.closeStart_memWf ht) (State.resetFnRegs_memWf h))

theorem State.flrVfs_memWf {s : State} {p : HostPort} (h : s.memWf = true) : (s.flrVfs p).memWf = true :=
  State.modHport_memWf (State.foldl_memWf (fun _ _ ht => State.flrOne_memWf ht) h)

theorem execFlr_memWf {f : FnId} {s : State} (h : s.memWf = true) : AnswerWf (execFlr f s) :=
  answer_ite (answer_next (State.ite_memWf (State.flrOne_memWf (State.flrVfs_memWf h)) (State.flrOne_memWf h))) (answer_next h)

theorem execFlrComplete_memWf {f : FnId} {msix : Bool} {s : State} (h : s.memWf = true) : AnswerWf (execFlrComplete f msix s) :=
  answer_next (State.ite_memWf (State.memWf_update h) h)

theorem execVfEnableSet_memWf {p : HostPort} {numVfs : Nat} {msix : Bool} {s : State} (h : s.memWf = true) :
    AnswerWf (execVfEnableSet p numVfs msix s) := answer_ite (answer_next (State.memWf_update (State.modHport_memWf h))) (answer_next h)

theorem execVfEnableClear_memWf {p : HostPort} {s : State} (h : s.memWf = true) : AnswerWf (execVfEnableClear p s) :=
  answer_ite (answer_next (State.flrVfs_memWf h)) (answer_next h)

theorem State.unmask_memWf {s : State} {m : Msix} (h : s.memWf = true) : (s.unmask m).memWf = true :=
  State.ite_memWf_of (State.memWf_update h) (fun h1 => emitMsix_memWf (State.memWf_update h1))

theorem execMsixVectorUnmask_memWf {f : IrqFn} {vector : Nat} {s : State} (h : s.memWf = true) :
    AnswerWf (execMsixVectorUnmask f vector s) := answer_ite (answer_next (State.unmask_memWf h)) (answer_next h)

theorem execPoisonedBarWrite_memWf {f : FnId} {off : Nat} {s : State} (h : s.memWf = true) : AnswerWf (execPoisonedBarWrite f off s) :=
  answer_ite (answer_next (State.raise_memWf h)) (answer_next h)

theorem execPtmDialogue_memWf {p : HostPort} {offset : Option Int} {s : State} (h : s.memWf = true) :
    AnswerWf (execPtmDialogue p offset s) := by
  unfold execPtmDialogue
  refine answer_ite (answer_next ?_) (answer_next h)
  split
  · exact State.timeMeasure_memWf h
  · exact State.timeMiss_memWf h

theorem execGptpFrame_memWf {eth : Nat} {offset : Option Int} {s : State} (h : s.memWf = true) :
    AnswerWf (execGptpFrame eth offset s) := by
  unfold execGptpFrame
  refine answer_ite (answer_next ?_) (answer_next h)
  split
  · exact State.timeMeasure_memWf h
  · exact h

theorem execTimeSourceFail_memWf {s : State} (h : s.memWf = true) : AnswerWf (execTimeSourceFail s) :=
  answer_next (State.timeFail_memWf h)

theorem execSyncInEdge_memWf {rising : Bool} {quarter : Nat} {s : State} (h : s.memWf = true) :
    AnswerWf (execSyncInEdge rising quarter s) :=
  answer_ite (answer_next (State.setReg_memWf (State.setReg_memWf (State.setReg_memWf h)))) (answer_next h)

theorem execSyncOutRise_memWf {s : State} (h : s.memWf = true) : AnswerWf (execSyncOutRise s) :=
  answer_ite (answer_next (State.memWf_update h)) (answer_next h)

theorem execSyncOutFall_memWf {s : State} (h : s.memWf = true) : AnswerWf (execSyncOutFall s) :=
  answer_ite (answer_next (State.memWf_update h)) (answer_next h)

theorem execSmbusEepromRead_memWf {addr : BitVec 7} {isRead : Bool} {offset count : Nat} {s : State} (h : s.memWf = true) :
    AnswerWf (execSmbusEepromRead addr isRead offset count s) :=
  answer_ite (answer_next (State.memWf_update h)) (answer_next (State.memWf_update h))

/-! ### Memories through `Machine/Rings` -/

theorem execHdlFnCtxOpenGo_memWf {f : FnId} {value : Word} {s : State} (h : s.memWf = true) : AnswerWf (execHdlFnCtxOpenGo f value s) :=
  answer_ite (answer_next (State.ite_memWf_of' (State.setFnReg_memWf h) (fun h1 => State.ite_memWf (State.setFnReg_memWf h1)
    (State.wakeTo_memWf (State.memWf_update (State.setFnReg_memWf h1)))))) (answer_next h)

theorem execHdlFnCtxCloseGo_memWf {f : FnId} {value : Word} {s : State} (h : s.memWf = true) :
    AnswerWf (execHdlFnCtxCloseGo f value s) := by
  unfold execHdlFnCtxCloseGo
  refine answer_ite (answer_next (State.ite_memWf_of' (State.setFnReg_memWf h) (fun h1 => ?_))) (answer_next h)
  split
  · exact State.ite_memWf_of h1 (fun h2 => State.closeStart_memWf h2)
  · exact h1

theorem State.killSlot_memWf {s : State} {cx : Ctx} {ring slot : Nat} (h : s.memWf = true) : (s.killSlot cx ring slot).memWf = true := by
  unfold State.killSlot
  split
  · split
    · exact State.ite_memWf (State.finishStep_memWf h) (State.finishStep_memWf (State.writeRecords_memWf h))
    · exact State.ite_memWf_of (State.endUnrun_memWf h) (fun h1 => State.finishStep_memWf h1)
  · split
    · exact completeRead_memWf (State.stopInject_memWf (State.memWf_update h))
    · split
      · exact completeRead_memWf (State.memWf_update h)
      · exact h

theorem State.killRead_memWf {s : State} {cx : Ctx} (h : s.memWf = true) : (s.killRead cx).memWf = true :=
  State.foldl_memWf (fun _ _ ht => State.foldl_memWf (fun _ _ ht1 => State.killSlot_memWf ht1) ht) h

theorem State.closeCtx_memWf {s : State} {c : Nat} (h : s.memWf = true) : (s.closeCtx c).memWf = true := by
  unfold State.closeCtx
  split
  · exact h
  · exact State.startLoad_memWf (State.fixUnloading_memWf (State.memWf_update (State.forgetCtx_memWf (State.killRead_memWf
      (State.drainCtx_memWf (State.ite_memWf (State.stopLoad_memWf h) h))))))

theorem State.closedPort_memWf {s : State} {p : HostPort} (h : s.memWf = true) : (s.closedPort p).memWf = true :=
  State.ite_memWf (State.modHport_memWf h) h

theorem execContextCloseDone_memWf {ctx : Nat} {s : State} (h : s.memWf = true) : AnswerWf (execContextCloseDone ctx s) := by
  unfold execContextCloseDone
  split
  · exact answer_ite (answer_next (State.choose_memWf (State.closedPort_memWf (State.settleDue_memWf (State.closeCtx_memWf h)))))
      (answer_next h)
  · exact answer_next h

theorem State.ringResult_memWf {s : State} {f : FnId} {n : Nat} (h : s.memWf = true) : (s.ringResult f n).memWf = true :=
  State.setFnReg_memWf h

theorem execRingCreate_memWf {f : FnId} {s : State} (h : s.memWf = true) : AnswerWf (execRingCreate f s) :=
  answer_ite (answer_next (State.ite_memWf (State.ringResult_memWf (State.memWf_update h)) (State.ringResult_memWf h))) (answer_next h)

theorem execRingDestroy_memWf {f : FnId} {s : State} (h : s.memWf = true) : AnswerWf (execRingDestroy f s) :=
  answer_ite (answer_next (State.ite_memWf (State.ringResult_memWf (State.memWf_update h)) (State.ringResult_memWf h))) (answer_next h)

theorem execLatchTake_memWf {f : FnId} {latch : Nat} {s : State} (h : s.memWf = true) : AnswerWf (execLatchTake f latch s) :=
  answer_ite (answer_next (State.ite_memWf (State.setFnReg_memWf h) (State.ite_memWf (State.setFnReg_memWf h) (State.setFnReg_memWf
    (State.memWf_update h))))) (answer_next h)

theorem execLatchRelease_memWf {f : FnId} {latch : Nat} {s : State} (h : s.memWf = true) : AnswerWf (execLatchRelease f latch s) :=
  answer_ite (answer_next (State.ite_memWf (State.setFnReg_memWf h) (State.setFnReg_memWf (State.memWf_update h)))) (answer_next h)

theorem State.hostReadError_memWf {s : State} {cx : Ctx} {d : ReadDesc} {addr : Nat} (h : s.memWf = true) :
    (s.hostReadError cx d addr).memWf = true := State.raise_memWf (completeRead_memWf h)

theorem State.readDescs_memWf {s : State} {cx : Ctx} {ring : Nat} {time : Dword} {n : Nat} {ds : List (List Byte)} (h : s.memWf = true) :
    (s.readDescs cx ring time n ds).memWf = true := by
  induction n generalizing s ds with
  | zero => exact h
  | succ n ih =>
    unfold State.readDescs
    split
    · exact h
    · exact ih (State.ite_memWf_of (State.progress_memWf (countEv_memWf (hostRead_memWf (State.memWf_update (State.modRing_memWf h)))))
        (fun h4 => State.hostReadError_memWf (State.memWf_update h4)))

theorem State.badDoorbell_memWf {s : State} {f : FnId} {page : Nat} {value : Word} (h : s.memWf = true) :
    (s.badDoorbell f page value).memWf = true := State.raise_memWf h

theorem State.tailBell_memWf {s : State} {cx : Ctx} {r : Ring} {index : Nat} {descs : List (List Byte)} (h : s.memWf = true) :
    (s.tailBell cx r index descs).memWf = true :=
  State.ite_memWf (State.readDescs_memWf (countEv_memWf (State.modRing_memWf h))) (State.memWf_update (countEv_memWf
    (State.modRing_memWf h)))

theorem State.headBell_memWf {s : State} {cx : Ctx} {r : Ring} {index : Nat} (h : s.memWf = true) :
    (s.headBell cx r index).memWf = true := drainHeld_memWf (countEv_memWf (State.modRing_memWf h))

theorem State.doorbell_memWf {s : State} {f : FnId} {page : Nat} {value : Word} {descs : List (List Byte)} (h : s.memWf = true) :
    (s.doorbell f page value descs).memWf = true := by
  unfold State.doorbell
  split
  · exact State.badDoorbell_memWf h
  · refine State.ite_memWf_of' (State.badDoorbell_memWf h) (fun h1 => State.ite_memWf h ?_)
    split
    · exact h1
    · exact State.ite_memWf h1 (State.ite_memWf h (State.ite_memWf (State.headBell_memWf h) (State.tailBell_memWf h)))

theorem execDoorbellTail_memWf {f : FnId} {page : Nat} {value : Word} {descs : List (List Byte)} {s : State} (h : s.memWf = true) :
    AnswerWf (execDoorbellTail f page value descs s) := answer_ite (answer_next (State.doorbell_memWf h)) (answer_next h)

theorem execDoorbellHead_memWf {f : FnId} {page : Nat} {value : Word} {s : State} (h : s.memWf = true) :
    AnswerWf (execDoorbellHead f page value s) := answer_ite (answer_next (State.doorbell_memWf h)) (answer_next h)

theorem State.readHeld_memWf {s : State} {l : List (HeldBell × List (List Byte))} (h : s.memWf = true) : (s.readHeld l).memWf = true := by
  induction l generalizing s with
  | nil => exact h
  | cons x rest ih =>
    unfold State.readHeld
    split
    · exact ih (State.readDescs_memWf h)
    · exact ih h

theorem execReady_memWf {held : List (List (List Byte))} {s : State} (h : s.memWf = true) : AnswerWf (execReady held s) :=
  answer_ite (answer_next (State.readHeld_memWf (supVector_memWf (State.memWf_update h)))) (answer_next h)

/-! ### Memories through `Machine/Loads` -/

theorem State.takeRead_memWf {s : State} {d : ReadDesc} (h : s.memWf = true) : (s.takeRead d).memWf = true := by
  unfold State.takeRead
  exact State.memWf_update h

theorem State.post_memWf {s : State} {d : ReadDesc} (h : s.memWf = true) : (s.post d).memWf = true := by
  unfold State.post
  exact State.memWf_update (State.takeRead_memWf h)

theorem State.process_memWf {s : State} {ctx : Nat} {t : Nat → Bool} {go : State → Ctx → ReadDesc → State} (h : s.memWf = true)
    (hgo : ∀ p r t, p.memWf = true → (go p r t).memWf = true) :
    (s.process ctx t go).memWf = true := by
  unfold State.process
  split
  · refine State.ite_memWf ?_ h
    split
    · exact completeRead_memWf (State.takeRead_memWf h)
    · exact hgo _ _ _ h
  · exact h

theorem execNop_memWf {ctx : Nat} {s : State} (h : s.memWf = true) : AnswerWf (execNop ctx s) :=
  answer_next (State.process_memWf h (fun _ _ _ hu => State.ite_memWf (State.post_memWf hu) (completeRead_memWf
    (State.takeRead_memWf hu))))

theorem execNopFenceRelease_memWf {ctx : Nat} {s : State} (h : s.memWf = true) : AnswerWf (execNopFenceRelease ctx s) := by
  unfold execNopFenceRelease
  split
  · exact answer_ite (answer_next h) (answer_next (completeRead_memWf (State.unpost_memWf h)))
  · exact answer_next h

theorem execReceive_memWf {ctx : Nat} {s : State} (h : s.memWf = true) : AnswerWf (execReceive ctx s) :=
  answer_next (State.process_memWf h (fun _ _ _ hu => State.post_memWf hu))

theorem execDraftLoad_memWf {ctx : Nat} {s : State} (h : s.memWf = true) : AnswerWf (execDraftLoad ctx s) :=
  answer_next (State.startLoad_memWf (State.process_memWf h (fun _ _ _ hu => State.post_memWf hu)))

theorem State.loadTraffic_memWf {s : State} {dr : Draft} {base : Nat} {e : Ev} {d : Weft} (h : s.memWf = true) :
    (s.loadTraffic dr base e d).memWf = true :=
  State.foldl_memWf (fun _ _ ht => State.foldl_memWf (fun _ _ ht1 => State.ite_memWf (State.gddrBytes_memWf (State.linkBytes_memWf ht1))
    (State.beamBytes_memWf (State.linkBytes_memWf ht1))) ht) h

theorem State.loadEntry_memWf {s : State} {i part : Nat} {dr : Draft} {e : Ev} (h : s.memWf = true) :
    (s.loadEntry i part dr e).memWf = true :=
  State.loadTraffic_memWf (State.loadTraffic_memWf (State.memWf_update_dies h (WeftDie.loadDraft_memWf _ _ _ _ (s.wa_memWf h))
    (WeftDie.loadDraft_memWf _ _ _ _ (s.wb_memWf h))))

theorem execDraftLoadDone_memWf {ctx : Nat} {image : List Byte} {failed : Bool} {s : State} (h : s.memWf = true) :
    AnswerWf (execDraftLoadDone ctx image failed s) := by
  unfold execDraftLoadDone
  split
  · refine answer_ite (answer_ite (answer_next (State.wakeBeams_memWf h)) (answer_next (State.startLoad_memWf (State.ite_memWf
      (State.hostReadError_memWf (hostRead_memWf (State.memWf_update h))) ?_)))) (answer_next h)
    split
    · exact completeRead_memWf (State.loadEntry_memWf (hostRead_memWf (State.memWf_update h)))
    · exact completeRead_memWf (hostRead_memWf (State.memWf_update h))
    · exact completeRead_memWf (hostRead_memWf (State.memWf_update h))
  · exact answer_next h

theorem execDraftUnload_memWf {ctx : Nat} {s : State} (h : s.memWf = true) : AnswerWf (execDraftUnload ctx s) :=
  answer_next (State.startLoad_memWf (State.process_memWf h (fun _ _ _ hu => State.ite_memWf (completeRead_memWf
    (State.takeRead_memWf hu)) (State.memWf_update (State.post_memWf hu)))))

theorem State.dropSlots_memWf {s : State} {dr : Draft} {rest : List Entry} (h : s.memWf = true) : (s.dropSlots dr rest).memWf = true :=
  State.memWf_update_dies h (s.wa_memWf h) (s.wb_memWf h)

theorem State.freeDraft_memWf {s : State} {e : Entry} (h : s.memWf = true) : (s.freeDraft e).memWf = true := by
  unfold State.freeDraft
  exact State.memWf_update (State.wipeEntry_memWf (State.forgetEntry_memWf (State.dropSlots_memWf (State.memWf_update h))))

theorem execDraftUnloadDone_memWf {ctx : Nat} {s : State} (h : s.memWf = true) : AnswerWf (execDraftUnloadDone ctx s) := by
  unfold execDraftUnloadDone
  split
  · refine answer_ite (answer_next (State.startLoad_memWf (completeRead_memWf ?_))) (answer_next h)
    split
    · exact State.ite_memWf_of (State.memWf_update h) (fun h1 => State.freeDraft_memWf h1)
    · exact State.memWf_update h
  · exact answer_next h

theorem execRecipeLoad_memWf {ctx : Nat} {image : List Byte} {failed : Bool} {s : State} (h : s.memWf = true) :
    AnswerWf (execRecipeLoad ctx image failed s) := by
  unfold execRecipeLoad
  refine answer_next (State.process_memWf h (fun _ _ _ hu => State.ite_memWf (completeRead_memWf (State.takeRead_memWf hu))
    (State.ite_memWf (State.hostReadError_memWf (hostRead_memWf (State.takeRead_memWf hu))) ?_)))
  split
  · exact completeRead_memWf (hostRead_memWf (State.takeRead_memWf hu))
  · exact completeRead_memWf (State.memWf_update (hostRead_memWf (State.takeRead_memWf hu)))

theorem execRecipeUnload_memWf {ctx : Nat} {s : State} (h : s.memWf = true) : AnswerWf (execRecipeUnload ctx s) :=
  answer_next (State.process_memWf h (fun _ _ _ hu => State.ite_memWf (completeRead_memWf (State.takeRead_memWf hu)) (State.ite_memWf
    (completeRead_memWf (State.takeRead_memWf hu)) (completeRead_memWf (State.memWf_update (State.takeRead_memWf hu))))))

theorem execInject_memWf {ctx : Nat} {header : List Byte} {failed : Bool} {s : State} (h : s.memWf = true) :
    AnswerWf (execInject ctx header failed s) := by
  unfold execInject
  refine answer_next (State.process_memWf h (fun _ _ _ hu => ?_))
  split
  · exact completeRead_memWf (State.takeRead_memWf hu)
  · split
    · exact completeRead_memWf (State.takeRead_memWf hu)
    · exact State.ite_memWf (completeRead_memWf (State.takeRead_memWf hu)) (State.ite_memWf (State.hostReadError_memWf
        (State.takeRead_memWf hu)) (State.ite_memWf (completeRead_memWf (State.takeRead_memWf hu)) (State.ite_memWf hu
        (State.memWf_update (State.ite_memWf_of' (State.startSample_memWf (State.modSlot_memWf (State.drainInput_memWf
        (State.takeRead_memWf hu)))) (fun h2 => State.corruptSample_memWf h2))))))

theorem execInjectReadDone_memWf {ctx : Nat} {payload : List Byte} {failed : Bool} {checks : List RowCheck} {waits : Bool} {s : State}
    (h : s.memWf = true) :
    AnswerWf (execInjectReadDone ctx payload failed checks waits s) := by
  unfold execInjectReadDone
  split
  · refine answer_ite (answer_next h) (answer_next (State.ite_memWf (State.hostReadError_memWf ?_) (completeRead_memWf ?_)))
    · split
      · exact State.ite_memWf_of' (hostRead_memWf (State.unpost_memWf h)) (fun h1 => State.ite_memWf (State.stopInject_memWf h1)
          (State.receive_memWf h1))
      · exact hostRead_memWf (State.unpost_memWf h)
    · split
      · exact State.ite_memWf_of' (hostRead_memWf (State.unpost_memWf h)) (fun h1 => State.ite_memWf (State.stopInject_memWf h1)
          (State.receive_memWf h1))
      · exact hostRead_memWf (State.unpost_memWf h)
  · exact answer_next h

theorem execTransfer_memWf {ctx : Nat} {s : State} (h : s.memWf = true) : AnswerWf (execTransfer ctx s) :=
  answer_next (State.process_memWf h (fun _ _ _ hu => State.ite_memWf (State.wakeBeams_memWf (State.post_memWf hu)) (completeRead_memWf
    (State.takeRead_memWf hu))))

/-! ### Memories through `Machine/Layers` -/

theorem State.eccOwner_memWf {s : State} {o : Owner} (h : s.memWf = true) : (s.eccOwner o).memWf = true := by
  unfold State.eccOwner
  split
  · exact State.endCtx_memWf h
  · exact State.modInst_memWf (State.endCtxs_memWf h)
  · exact State.memWf_update (State.endCtxs_memWf h)
  · exact h

theorem beamCorrected_memWf {d : Weft} {s : State} {a : Nat} (h : s.memWf = true) : (beamCorrected d s a).memWf = true :=
  bumpAon_memWf (countEv_memWf h)

theorem gddrCorrected_memWf {d : Weft} {s : State} {a : Nat} (h : s.memWf = true) : (gddrCorrected d s a).memWf = true :=
  bumpAon_memWf (countEv_memWf (State.modWeft_keeps (fun _ => rfl) h))

theorem State.dataFault_memWf {s : State} {n : Nat} {p : Pair} {t : Step} {status : Nat} (h : s.memWf = true) :
    (s.dataFault n p t status).memWf = true := State.raise_memWf (State.endCtx_memWf h)

theorem State.lostAs_memWf {s : State} {hd : EccHit} {source access : Nat} {work : Option Nat} (h : s.memWf = true) :
    (s.lostAs hd source access work).memWf = true := State.raise_memWf (State.eccOwner_memWf h)

theorem State.dataLost_memWf {s : State} {hd : EccHit} {work : Option Nat} (h : s.memWf = true) : (s.dataLost hd work).memWf = true := by
  unfold State.dataLost
  split
  · exact bumpAon_memWf (State.lostAs_memWf h)
  · exact bumpAon_memWf (State.lostAs_memWf h)
  · exact State.lostAs_memWf h
  · split
    · exact State.dataFault_memWf h
    · exact h

theorem dataCorrected_memWf {s : State} {x : DataAt} (h : s.memWf = true) : (dataCorrected s x).memWf = true := by
  unfold dataCorrected
  split
  · exact beamCorrected_memWf h
  · exact gddrCorrected_memWf h
  · exact h
  · exact h

theorem State.readChecks_memWf {s : State} {c : ReadChecks} {work : Option Nat} (h : s.memWf = true) :
    (s.readChecks c work).memWf = true := by
  unfold State.readChecks
  dsimp only
  split
  · exact State.foldl_memWf (fun _ _ ht => dataCorrected_memWf ht) h
  · exact State.dataLost_memWf (State.foldl_memWf (fun _ _ ht => dataCorrected_memWf ht) h)

theorem State.addSatsAt_memWf {s : State} {id : Nat} {d : Weft} {key j n : Nat} (h : s.memWf = true) :
    (s.addSatsAt id d key j n).memWf = true := by
  unfold State.addSatsAt
  split
  · exact h
  · exact State.ite_memWf_of (State.modStep_memWf h) (fun h1 => State.raise_memWf h1)

theorem State.addSats_memWf {s : State} {id : Nat} {d : Weft} {j n : Nat} (h : s.memWf = true) : (s.addSats id d j n).memWf = true :=
  State.addSatsAt_memWf h

theorem State.firstPassInput_memWf {s : State} {id : Nat} {d : Weft} {e : Env} {j : Nat} {rows : List Nat} (h : s.memWf = true) :
    (s.firstPassInput id d e j rows).memWf = true := by
  unfold State.firstPassInput
  split
  · exact h
  · exact State.ite_memWf h (State.modStep_memWf (State.addSatsAt_memWf h))

theorem State.rewritten_memWf {s : State} {id : Nat} {d : Weft} {e : Env} {j : Nat} {rows : List Nat} (h : s.memWf = true) :
    (s.rewritten id d e j rows).memWf = true := State.ite_memWf h (State.modStep_memWf h)

theorem State.firstPassWords_memWf {s : State} {id : Nat} {d : Weft} {e : Env} {out j : Nat} {rows : List Nat} (h : s.memWf = true) :
    (s.firstPassWords id d e out j rows).memWf = true := State.ite_memWf h (State.addSats_memWf h)

theorem State.publish_memWf {s : State} {id : Nat} {d : Weft} {l : Nat} (h : s.memWf = true) : (s.publish id d l).memWf = true := by
  unfold State.publish
  split
  · exact h
  · exact State.ite_memWf h (State.foldl_memWf (fun _ _ ht => State.ite_memWf (State.memWf_update ht) ht) h)

theorem State.layerDone_memWf {s : State} {id : Nat} {d : Weft} {l digest : Nat} (h : s.memWf = true) :
    (s.layerDone id d l digest).memWf = true := State.publish_memWf (State.modStep_memWf h)

theorem State.layerEffect_memWf {s : State} {id : Nat} {d : Weft} {l : Nat} {us : List Upset} (h : s.memWf = true) :
    (s.layerEffect id d l us).memWf = true := by
  unfold State.layerEffect
  split
  · exact h
  · rename_i t _
    have he : Env.memWf { s.env t d with upsets := us.filter (fun u => u.step == id) } :=
      State.env_memWf (t := t) (d := d) h
    refine State.ite_memWf (State.layerDone_memWf (State.modStep_memWf (State.putMem_memWf ?_ (Env.put_memWf he))))
      (State.ite_memWf (State.layerDone_memWf (State.modStep_memWf (State.putMem_memWf ?_ (Env.putRecords_memWf he))))
        (State.layerDone_memWf (State.rewritten_memWf (State.ite_memWf_of' (State.addSats_memWf (State.putMem_memWf ?_
          (Env.runLayer_memWf he))) (fun h1 => countEv_memWf h1)))))
    all_goals exact State.foldl_memWf (fun _ _ hu => State.firstPassWords_memWf (State.firstPassInput_memWf hu)) h

theorem State.runDec_memWf {s : State} {d : Weft} {m : OpMember} {j row count channels off : Nat} (h : s.memWf = true) :
    (s.runDec d m j row count channels off).memWf = true := by
  unfold State.runDec
  split
  · exact h
  · exact State.modPair_memWf (fun _ hp => by simp [hp, Memory.wf_writeBytes]) (State.firstPassWords_memWf (State.firstPassInput_memWf h))

theorem State.runEnc_memWf {s : State} {d : Weft} {m : OpMember} {j row count channels off : Nat} (h : s.memWf = true) :
    (s.runEnc d m j row count channels off).memWf = true := by
  unfold State.runEnc
  split
  · exact State.ite_memWf (State.dataFault_memWf h) (State.rewritten_memWf (State.addSats_memWf (State.putMem_memWf h
      (Env.foldl_fst_memWf (fun _ _ ha => Env.encodeRow_memWf ha) (State.env_memWf h)))))
  · exact h

theorem State.copyPart_memWf {s : State} {d : Weft} {mem : OpMember} {p part : Nat} {out : Bool} (h : s.memWf = true) :
    (s.copyPart d mem p part out).memWf = true := by
  unfold State.copyPart
  split
  · exact h
  · split
    · refine State.ite_memWf (State.beamBytes_memWf (State.gddrBytes_memWf (State.modWeft_memWf (fun w hw => ?_) h)))
        (State.ite_memWf (State.tracked_memWf (State.linkBytes_memWf (countEv_memWf (hostWrite_memWf h))))
          (State.tracked_memWf (State.linkBytes_memWf (countEv_memWf (State.modWeft_memWf (fun w hw => ?_) (hostRead_memWf h))))))
      · split
        · simp [hw, Memory.wf_writeBytes]
        · simp [hw, Memory.wf_writeBytes]
      · simp [hw, Memory.wf_writeBytes]
    · exact h

/-! ### Memories through `Machine/Array` -/

theorem State.countAcc_memWf {s : State} {d : Weft} {o : Op} (h : s.memWf = true) : (s.countAcc d o).memWf = true := by
  unfold State.countAcc
  refine State.foldl_memWf (fun _ _ ht => ?_) h
  split
  · exact State.foldl_memWf (fun _ _ ht1 => bumpAon_memWf (countEv_memWf ht1)) ht
  · exact ht

/-! ### Memories through `Machine/Shuttle` -/



theorem State.windowBytes_memWf {s : State} {n : Nat} {t : Step} {r : Running} {a w : Nat} {write : Bool} (h : s.memWf = true) :
    (s.windowBytes n t r a w write).memWf = true := by
  unfold State.windowBytes
  split
  · split
    · exact State.beamBytes_memWf h
    · exact h
  · exact h

theorem State.lockstepFault_memWf {s : State} {n : Nat} {t : Step} {r : Running} {pc : Dword} (h : s.memWf = true) :
    (s.lockstepFault n t r pc).memWf = true :=
  State.raisePair_memWf (bumpAon_memWf (State.modPair_keeps (fun _ => rfl) (State.endCtx_memWf h)))

theorem State.storeAt_memWf {s u : State} {n : Nat} {t : Step} {r : Running} {a w v : Nat} (h : s.memWf = true)
    (hu : s.storeAt n t r a w v = some u) : u.memWf = true := by
  unfold State.storeAt at hu
  split at hu
  · cases hu
    exact State.modPair_memWf (fun _ hp => by simp [hp, Memory.wf_writeBytes]) h
  · obtain ⟨y, -, hy⟩ := Option.bind_eq_some_iff.mp hu
    split at hy
    · cases hy
    · obtain ⟨z, hz, rfl⟩ := Option.map_eq_some_iff.mp hy
      exact State.ite_memWf_of' (State.putMem_memWf h (Env.winWrite_memWf (State.env_memWf h) hz)) (fun h1 => State.addSats_memWf h1)
  · cases hu
  · cases hu

theorem State.stores_memWf {n : Nat} {t : Step} {r : Running} {l : List (Nat × Nat × Nat)} {s : State} (h : s.memWf = true) :
    (State.stores n t r s l).1.memWf = true := by
  induction l generalizing s with
  | nil => exact h
  | cons m ms ih =>
    unfold State.stores
    split
    · exact ih (State.windowBytes_memWf (State.storeAt_memWf h ‹_›))
    · exact h

theorem State.retireRv_memWf {s : State} {n : Nat} {t : Step} {r : Running} {pc : Dword} {clocks : Nat} {o : RvOut} (h : s.memWf = true) :
    (s.retireRv n t r pc clocks o).memWf = true := by
  have h1 : (o.loads.foldl (fun u m => u.windowBytes n t r m.1 m.2 false) s).memWf = true :=
    State.foldl_memWf (fun _ _ ht => State.windowBytes_memWf ht) h
  refine State.ite_memWf (State.progFault_memWf (State.stores_memWf h1)) (State.retired_memWf ?_)
  exact State.modPair_keeps (fun _ => rfl) (State.memWf_update (State.stores_memWf h1))

theorem execRv64Instruction_memWf {pair : Nat} {strike : Option CoreStrike} {ecc : Bool} {clocks : Nat} {chk : ReadChecks} {s : State}
    (h : s.memWf = true) :
    AnswerWf (execRv64Instruction pair strike ecc clocks chk s) := by
  unfold execRv64Instruction
  refine answer_next (State.onPair_memWf h (fun _ _ _ => State.ite_memWf (State.raisePair_memWf (State.endCtx_memWf h)) ?_))
  split
  · exact State.progFault_memWf h
  · refine State.ite_memWf (State.ite_memWf (State.lockstepFault_memWf h) h) ?_
    split
    · exact State.progFault_memWf h
    · exact State.ite_memWf (State.lockstepFault_memWf h) (State.ite_memWf_of' (State.readChecks_memWf h)
        (fun h2 => State.retireRv_memWf h2))

theorem State.onRow_memWf {s : State} {n : Nat} {mv : Move} {i : Instr} {go : Pair → Running → Step → State} (h : s.memWf = true)
    (hgo : ∀ p r t, (go p r t).memWf = true) :
    (s.onRow n mv i go).memWf = true := State.onPair_memWf h (fun _ _ _ => State.ite_memWf (hgo _ _ _) h)

theorem execRdtime_memWf {pair rd : Nat} {s : State} (h : s.memWf = true) : AnswerWf (execRdtime pair rd s) :=
  answer_next (State.onRow_memWf h (fun _ _ _ => State.doneStd_memWf h (fun _ => by simp)))

theorem execEbreak_memWf {pair : Nat} {s : State} (h : s.memWf = true) : AnswerWf (execEbreak pair s) :=
  answer_next (State.onRow_memWf h (fun _ _ _ => State.progFault_memWf h))

theorem pairsWf_freed (c : Pair → Bool) (k : Nat) {l : List Pair} (h : pairsWf l = true) :
    pairsWf (l.zipIdx.map (fun x => if c x.1 then { (x.1.lost (k + x.2 * pairDraws)) with run := none, stall := none, debugStep := false }
      else x.1)) = true := by
  refine pairsWf_zipIdx_map _ _ (fun p i hp => ?_) h
  dsimp only
  split
  · simp [Pair.lost_memWf]
  · exact hp

theorem State.freePairs_memWf {s : State} {id : Nat} (h : s.memWf = true) : (s.freePairs id).memWf = true := by
  have ha := WeftDie.setPairs_memWf _ (s.wa_memWf h) (pairsWf_freed (fun p => (p.run.map (fun r => r.step == id)).getD false) s.freshCtr
    (WeftDie.pairs_wf _ (s.wa_memWf h)))
  have hb := WeftDie.setPairs_memWf _ (s.wb_memWf h) (pairsWf_freed (fun p => (p.run.map (fun r => r.step == id)).getD false)
    (s.freshCtr + 4 * pairDraws) (WeftDie.pairs_wf _ (s.wb_memWf h)))
  unfold State.freePairs
  refine State.memWf_update_dies (State.memWf_update_dies h ha hb) ?_ ?_
  · exact WeftDie.setPairs_memWf _ ha (pairsWf_map _ _ (fun _ hp => State.pairNext_memWf _ _ hp) (WeftDie.pairs_wf _ ha))
  · exact WeftDie.setPairs_memWf _ hb (pairsWf_map _ _ (fun _ hp => State.pairNext_memWf _ _ hp) (WeftDie.pairs_wf _ hb))

theorem State.preempted_memWf {s : State} {id : Nat} (h : s.memWf = true) : (s.preempted id).memWf = true :=
  State.startPicked_memWf (State.releaseArray_memWf (State.modStep_memWf (State.freePairs_memWf h)))

theorem State.tryHinge_memWf {s : State} {id : Nat} (h : s.memWf = true) : (s.tryHinge id).memWf = true := by
  unfold State.tryHinge
  split
  · exact h
  · refine State.ite_memWf h ?_
    split
    · exact h
    · split
      · exact State.progress_memWf (State.memWf_update_dies h (WeftDie.passHinge_memWf _ _ (s.wa_memWf h))
          (WeftDie.passHinge_memWf _ _ (s.wb_memWf h)))
      · exact State.ite_memWf_of (State.memWf_update (State.modStep_memWf (State.progress_memWf h)))
          (fun h2 => State.preempted_memWf (State.modStep_memWf h2))

theorem execEcall_memWf {pair : Nat} {s : State} (h : s.memWf = true) : AnswerWf (execEcall pair s) := by
  unfold execEcall
  refine answer_next (State.onRow_memWf h (fun _ _ _ => State.ite_memWf (State.progFault_memWf h) (State.tryHinge_memWf
    (State.modPair_memWf (fun _ hp => by simp [hp]) ?_))))
  split
  · exact State.ticketDone_memWf (State.doneStd_memWf h (fun _ => rfl))
  · exact State.doneStd_memWf h (fun _ => rfl)

theorem execLmHinge_memWf {pair rs1 : Nat} {s : State} (h : s.memWf = true) : AnswerWf (execLmHinge pair rs1 s) :=
  answer_next (State.onRow_memWf h (fun _ _ _ => State.ite_memWf (State.progFault_memWf h) (State.ite_memWf (State.raise_memWf
    (State.endCtx_memWf h)) (State.tryHinge_memWf (State.doneLm_memWf h (fun _ => rfl))))))

theorem State.issueLayer_memWf {s : State} {pair rd rs1 : Nat} {u : OpUnit} {i : Instr} (h : s.memWf = true) :
    (s.issueLayer pair rd rs1 u i).memWf = true :=
  State.onRow_memWf h (fun _ _ _ => State.ite_memWf (State.progFault_memWf h) (State.issue_memWf h (fun _ _ hu1 => State.ite_memWf
    (State.request_memWf hu1) (State.pushOp_memWf hu1))))

theorem execLmOp_memWf {pair rd rs1 : Nat} {s : State} (h : s.memWf = true) : AnswerWf (execLmOp pair rd rs1 s) :=
  answer_next (State.issueLayer_memWf h)

theorem execLmReed_memWf {pair rd rs1 : Nat} {s : State} (h : s.memWf = true) : AnswerWf (execLmReed pair rd rs1 s) :=
  answer_next (State.issueLayer_memWf h)

theorem execLmFin_memWf {pair rd rs1 : Nat} {s : State} (h : s.memWf = true) : AnswerWf (execLmFin pair rd rs1 s) :=
  answer_next (State.issueLayer_memWf h)

theorem State.issueCopy_memWf {s : State} {pair rd rs1 rs2 : Nat} {out : Bool} (h : s.memWf = true) :
    (s.issueCopy pair rd rs1 rs2 out).memWf = true :=
  State.onRow_memWf h (fun _ _ _ => State.ite_memWf (State.progFault_memWf h) (State.issue_memWf h (fun _ _ hu1 => State.pushOp_memWf
    (State.modStep_memWf hu1))))

theorem execLmStage_memWf {pair rd rs1 rs2 : Nat} {s : State} (h : s.memWf = true) : AnswerWf (execLmStage pair rd rs1 rs2 s) :=
  answer_next (State.issueCopy_memWf h)

theorem execLmEvict_memWf {pair rd rs1 rs2 : Nat} {s : State} (h : s.memWf = true) : AnswerWf (execLmEvict pair rd rs1 rs2 s) :=
  answer_next (State.issueCopy_memWf h)

theorem State.issueMove_memWf {s : State} {pair rd rs1 rs2 : Nat} {mv : Move} {enc : Bool} (h : s.memWf = true) :
    (s.issueMove pair rd rs1 rs2 mv enc).memWf = true :=
  State.onRow_memWf h (fun _ _ _ => State.ite_memWf (State.progFault_memWf h) (State.issue_memWf h
    (fun _ _ hu1 => State.pushOp_memWf hu1)))

theorem execLmDec_memWf {pair rd rs1 rs2 : Nat} {mv : Move} {s : State} (h : s.memWf = true) :
    AnswerWf (execLmDec pair rd rs1 rs2 mv s) := answer_next (State.issueMove_memWf h)

theorem execLmEnc_memWf {pair rd rs1 rs2 : Nat} {mv : Move} {s : State} (h : s.memWf = true) :
    AnswerWf (execLmEnc pair rd rs1 rs2 mv s) := answer_next (State.issueMove_memWf h)

theorem execLmSpawn_memWf {pair rd rs1 rs2 : Nat} {s : State} (h : s.memWf = true) : AnswerWf (execLmSpawn pair rd rs1 rs2 s) := by
  unfold execLmSpawn
  refine answer_next (State.onRow_memWf h (fun _ _ _ => ?_))
  dsimp only
  split
  · exact State.progFault_memWf h
  · exact State.issue_memWf h (fun _ _ hu1 => State.runOn_memWf hu1)

theorem State.stallOn_memWf {s : State} {pair : Nat} {t : Step} {x : Stall} (h : s.memWf = true) : (s.stallOn pair t x).memWf = true :=
  State.countFree_memWf (State.doneLm_memWf h (fun _ => rfl))

theorem execLmWait_memWf {pair rs1 : Nat} {s : State} (h : s.memWf = true) : AnswerWf (execLmWait pair rs1 s) :=
  answer_next (State.onRow_memWf h (fun _ _ _ => State.ite_memWf (State.stallOn_memWf h) (State.doneLm_memWf h (fun _ => rfl))))

theorem execLmSync_memWf {pair : Nat} {s : State} (h : s.memWf = true) : AnswerWf (execLmSync pair s) :=
  answer_next (State.onRow_memWf h (fun _ _ _ => State.ite_memWf (State.doneLm_memWf h (fun _ => rfl)) (State.stallOn_memWf h)))

theorem execLmLacq_memWf {pair rd rs1 : Nat} {s : State} (h : s.memWf = true) : AnswerWf (execLmLacq pair rd rs1 s) := by
  unfold execLmLacq
  refine answer_next (State.onRow_memWf h (fun _ _ _ => State.ite_memWf (State.progFault_memWf h) ?_))
  split
  · exact State.doneLm_memWf (State.memWf_update h) (fun _ => by simp)
  · exact State.doneLm_memWf h (fun _ => by simp)

theorem execLmLrel_memWf {pair rs1 : Nat} {s : State} (h : s.memWf = true) : AnswerWf (execLmLrel pair rs1 s) :=
  answer_next (State.onRow_memWf h (fun _ _ _ => State.ite_memWf (State.progFault_memWf h) (State.doneLm_memWf (State.ite_memWf
    (State.memWf_update h) h) (fun _ => rfl))))

theorem execLmRd_memWf {pair rd sel : Nat} {s : State} (h : s.memWf = true) : AnswerWf (execLmRd pair rd sel s) :=
  answer_next (State.onRow_memWf h (fun _ _ _ => State.doneLm_memWf h (fun _ => by simp)))

theorem execShuttleBudgetExpiry_memWf {pair : Nat} {s : State} (h : s.memWf = true) : AnswerWf (execShuttleBudgetExpiry pair s) := by
  unfold execShuttleBudgetExpiry
  refine answer_next ?_
  split
  · exact h
  · split
    · exact h
    · split
      · exact h
      · exact State.ite_memWf (State.raisePair_memWf (State.endCtx_memWf h)) h

/-! ### Memories through `Machine/Flow` -/

theorem State.checkFault_memWf {s : State} {d : Weft} {m : Option OpMember} {src : Nat} {master : Byte} {access row detail : Nat} {counts
    : Option (Nat × Nat × Nat)} (h : s.memWf = true) :
    (s.checkFault d m src master access row detail counts).memWf = true := by
  unfold State.checkFault
  split
  · exact h
  · refine State.raise_memWf (State.endCtx_memWf ?_)
    split
    · exact bumpAon_memWf (countEv_memWf h)
    · exact h

theorem State.struck_memWf {s : State} {d : Weft} {o : Op} {row chan : Nat} {at' : Layer → Env → Strike} {delta : Int}
    (h : s.memWf = true) :
    (s.struck d o row chan at' delta).memWf = true := by
  unfold State.struck
  split
  · split
    · exact h
    · dsimp only
      split
      · exact h
      · exact State.checkFault_memWf h
      · exact State.modWeft_keeps (fun _ => rfl) h
  · exact h

theorem State.checked_memWf {s : State} {d : Weft} {u : OpUnit} {o : Op} {c : OpCheck} (h : s.memWf = true) :
    (s.checked d u o c).memWf = true := by
  unfold State.checked
  dsimp only
  split
  · exact State.struck_memWf h
  · exact State.struck_memWf h
  · exact State.ite_memWf (State.struck_memWf h) h
  · exact State.ite_memWf (State.checkFault_memWf h) h
  · exact State.checkFault_memWf h
  · exact State.checkFault_memWf h
  · exact h

theorem execQueuedOpStart_memWf {d : Weft} {u : OpUnit} {chk : OpCheck} {s : State} (h : s.memWf = true) :
    AnswerWf (execQueuedOpStart d u chk s) := by
  unfold execQueuedOpStart
  split
  · exact answer_next h
  · exact answer_next (State.ite_memWf h (State.ite_memWf (State.raise_memWf (State.endCtxs_memWf h)) (State.checked_memWf
      (State.ite_memWf_of (State.modWeft_memWf (fun _ hw => by simp [hw]) h) (fun h1 => State.modWeft_keeps (fun _ => rfl) h1)))))

theorem execGatherHoldExpiry_memWf {entry layer : Nat} {s : State} (h : s.memWf = true) : AnswerWf (execGatherHoldExpiry entry layer s) :=
  answer_next (State.foldl_memWf (fun _ _ ht => State.closeWindow_memWf ht) h)

theorem State.opEffect_memWf {s : State} {d : Weft} {o : Op} (h : s.memWf = true) : (s.opEffect d o).memWf = true := by
  unfold State.opEffect
  refine State.foldl_memWf (fun _ _ ht => ?_) h
  split
  · exact State.layerEffect_memWf ht
  · exact State.copyPart_memWf ht
  · exact State.copyPart_memWf ht
  · exact State.runDec_memWf ht
  · exact State.runEnc_memWf ht

theorem execWholeBarrier_memWf {s : State} (h : s.memWf = true) : AnswerWf (execWholeBarrier s) := by
  unfold execWholeBarrier
  split
  · rename_i a b _ _ _ _
    have h1 : (if s.opLast a then (s.opEffect .a a).opEffect .b b else s).memWf = true :=
      State.ite_memWf (State.opEffect_memWf (State.opEffect_memWf h)) h
    exact answer_next (State.ite_memWf h (State.ite_memWf (State.raise_memWf (State.raise_memWf (State.endCtxs_memWf h)))
      (State.memWf_update_dies h1 (State.wa_memWf _ h1) (State.wb_memWf _ h1))))
  · exact answer_next h

theorem State.countMoves_memWf {s : State} {d : Weft} {write : Bool} {ws : List (Step × BeamMove)} (h : s.memWf = true) :
    (s.countMoves d write ws).memWf = true :=
  State.foldl_memWf (fun _ _ ht => State.ite_memWf_of' (State.beamBytes_memWf ht) (fun h2 => State.linkBytes_memWf h2)) h

theorem State.holdClocks_memWf {s : State} {n : Nat} (h : s.memWf = true) : (s.holdClocks n).memWf = true := by
  unfold State.holdClocks
  split
  · exact h
  · exact State.foldl_memWf (fun _ _ ht => State.ite_memWf (bumpAon_memWf (countEv_memWf ht)) ht) (State.modStep_memWf h)

theorem State.countFreezes_memWf {s : State} {d : Weft} {t : Step} {o : Op} {f : Freezes} (h : s.memWf = true) :
    (s.countFreezes d t o f).memWf = true := bumpAon_memWf (State.foldl_memWf (fun _ _ ht => countEv_memWf ht) h)

theorem State.crossTraffic_memWf {s : State} {d : Weft} {t : Step} (h : s.memWf = true) : (s.crossTraffic d t).memWf = true :=
  State.foldl_memWf (fun _ _ ht => State.linkBytes_memWf (State.memWf_update ht)) h

theorem execArrayOpRetire_memWf {d : Weft} {clocks : Nat} {frozen : Freezes} {chk : ReadChecks} {s : State} (h : s.memWf = true) :
    AnswerWf (execArrayOpRetire d clocks frozen chk s) := by
  unfold execArrayOpRetire
  split
  · exact answer_next h
  · refine answer_next (State.ite_memWf h ?_)
    dsimp only
    split
    · exact State.readChecks_memWf (State.holdClocks_memWf h)
    · split
      · exact State.modWeft_keeps (fun _ => rfl) (State.readChecks_memWf (State.holdClocks_memWf h))
      · exact State.ite_memWf (State.foldl_memWf (fun _ _ ht => State.tryHinge_memWf ht) (State.proofEnter_memWf (State.opDone_memWf
          (State.modWeft_keeps (fun _ => rfl) (State.ite_memWf_of' (State.foldl_memWf (fun _ _ ht => State.beamReads_memWf
          (countEv_memWf ht)) (State.countAcc_memWf (State.countFreezes_memWf (State.countMoves_memWf (State.ite_memWf_of
          (State.foldl_memWf (fun _ _ ht => countEv_memWf ht) (bumpAon_memWf (State.unitProgress_memWf (State.readChecks_memWf
          (State.holdClocks_memWf h))))) (fun h1 => State.crossTraffic_memWf h1)))))) (fun h1 => State.opEffect_memWf h1))))))
          (State.proofEnter_memWf (State.modWeft_keeps (fun _ => rfl) (State.modWeft_keeps (fun _ => rfl) (State.foldl_memWf
          (fun _ _ ht => State.beamReads_memWf (countEv_memWf ht)) (State.countAcc_memWf (State.countFreezes_memWf
          (State.countMoves_memWf (State.ite_memWf_of (State.foldl_memWf (fun _ _ ht => countEv_memWf ht) (bumpAon_memWf
          (State.unitProgress_memWf (State.readChecks_memWf (State.holdClocks_memWf h))))) (fun h1 => State.crossTraffic_memWf h1)))))))))

theorem State.retireOp_memWf {s : State} {d : Weft} {u : OpUnit} {o : Op} (h : s.memWf = true) : (s.retireOp d u o).memWf = true :=
  State.foldl_memWf (fun _ _ ht => State.tryHinge_memWf ht) (State.proofEnter_memWf (State.opDone_memWf (State.modWeft_memWf
    (fun _ hw => by simp [hw]) (State.opEffect_memWf (State.unitProgress_memWf h)))))

theorem State.opReads_memWf {s : State} {d : Weft} {u : OpUnit} {o : Op} {t : Step} (h : s.memWf = true) :
    (s.opReads d u o t).memWf = true := by
  unfold State.opReads
  dsimp only
  split
  · exact State.beamReads_memWf h
  · exact State.bankLost_memWf (State.countMoves_memWf h)
  · exact State.bankLost_memWf h
  · exact State.bankLost_memWf h
  · exact State.bankLost_memWf h

theorem State.retireChecked_memWf {s : State} {d : Weft} {u : OpUnit} {chk : ReadChecks} {counts : Op → Step → State → State}
    (h : s.memWf = true) (hcounts : ∀ p r t, t.memWf = true → (counts p r t).memWf = true) :
    (s.retireChecked d u chk counts).memWf = true := by
  unfold State.retireChecked
  dsimp only
  split
  · exact State.readChecks_memWf h
  · split
    · exact State.modWeft_memWf (fun _ hw => by simp [hw]) (State.readChecks_memWf h)
    · exact State.retireOp_memWf (State.countMoves_memWf (State.opReads_memWf (hcounts _ _ _ (State.readChecks_memWf h))))

theorem execReedOpRetire_memWf {d : Weft} {clocks : Nat} {chk : ReadChecks} {s : State} (h : s.memWf = true) :
    AnswerWf (execReedOpRetire d clocks chk s) := by
  unfold execReedOpRetire
  split
  · exact answer_next h
  · exact answer_next (State.ite_memWf h (State.retireChecked_memWf (bumpAon_memWf (State.holdClocks_memWf h))
      (fun _ _ _ hu => State.countFree_memWf hu)))

theorem execFinishOpRetire_memWf {d : Weft} {clocks : Nat} {chk : ReadChecks} {s : State} (h : s.memWf = true) :
    AnswerWf (execFinishOpRetire d clocks chk s) := by
  unfold execFinishOpRetire
  split
  · exact answer_next h
  · exact answer_next (State.ite_memWf h (State.retireChecked_memWf (State.holdClocks_memWf h)
      (fun _ _ _ hu => State.countFree_memWf hu)))

theorem execStageCopyDone_memWf {d : Weft} {chk : ReadChecks} {s : State} (h : s.memWf = true) :
    AnswerWf (execStageCopyDone d chk s) := by
  unfold execStageCopyDone
  split
  · exact answer_next h
  · exact answer_next (State.ite_memWf h (State.retireChecked_memWf h (fun _ _ _ hu => State.foldl_memWf
      (fun _ _ ht1 => State.countFree_memWf ht1) hu)))

theorem State.saveDie_memWf {s : State} {t : Step} {cx : Ctx} {d : Weft} {rs : List LiveRange} {bs : List Byte} (h : s.memWf = true) :
    (s.saveDie t cx d rs bs).memWf = true :=
  State.ite_memWf (State.gddrBytes_memWf (State.bankLost_memWf (State.countMoves_memWf (State.modWeft_memWf
    (fun _ hw => by simp [hw, Memory.wf_writeBytes]) h)))) h

theorem execHingeSaveDone_memWf {chk : ReadChecks} {s : State} (h : s.memWf = true) : AnswerWf (execHingeSaveDone chk s) := by
  unfold execHingeSaveDone
  split
  · exact answer_next h
  · dsimp only
    split
    · exact answer_next (State.ite_memWf_of (State.readChecks_memWf h) (fun h1 => State.preempted_memWf (countEv_memWf
        (State.modStep_memWf (State.saveDie_memWf (State.saveDie_memWf h1))))))
    · exact answer_next (State.ite_memWf_of (State.readChecks_memWf h) (fun h1 => State.preempted_memWf h1))

theorem State.restoreTraffic_memWf {s : State} {t : Step} {rs : List LiveRange} {d : Weft} (h : s.memWf = true) :
    (s.restoreTraffic t rs d).memWf = true := by
  unfold State.restoreTraffic
  split
  · exact State.ite_memWf (State.bankLost_memWf (State.countMoves_memWf (State.gddrBytes_memWf h))) h
  · exact h

theorem execHingeRestoreDone_memWf {chk : ReadChecks} {s : State} (h : s.memWf = true) : AnswerWf (execHingeRestoreDone chk s) := by
  unfold execHingeRestoreDone
  split
  · exact answer_next h
  · exact answer_next (State.ite_memWf (State.wakeFor_memWf (State.readChecks_memWf (State.restoreTraffic_memWf
      (State.restoreTraffic_memWf h)))) (State.ite_memWf_of (State.readChecks_memWf (State.restoreTraffic_memWf
      (State.restoreTraffic_memWf h))) (fun h1 => State.restoreDie_memWf (State.restoreDie_memWf (State.resumeStep_memWf h1)))))

/-! ### Memories through `Machine/Beam` -/

theorem State.scrubReads_memWf {s : State} {d : Weft} (h : s.memWf = true) : (s.scrubReads d).memWf = true :=
  State.ite_memWf (State.foldl_memWf (fun _ _ ht => State.beamBytes_memWf ht) h) h

theorem scrubBad_memWf {d : Weft} {s : State} {a : Nat} (h : s.memWf = true) : (scrubBad d s a).memWf = true :=
  State.ite_memWf (bumpAon_memWf (State.raise_memWf h)) (State.dataLost_memWf h)

theorem execScrubLine_memWf {d : Weft} {finding : ScrubFinding} {s : State} (h : s.memWf = true) : AnswerWf (execScrubLine d finding s) :=
  answer_ite (answer_next h) (answer_next (State.foldl_memWf (fun _ _ ht => scrubBad_memWf ht) (State.foldl_memWf
    (fun _ _ ht => beamCorrected_memWf ht) (State.modWeft_keeps (fun _ => rfl) (State.scrubReads_memWf h)))))

theorem execGddr6Refresh_memWf {d : Weft} {chan : Nat} {s : State} (h : s.memWf = true) : AnswerWf (execGddr6Refresh d chan s) :=
  answer_ite (answer_next (State.countFree_memWf h)) (answer_next h)

theorem execGddr6EdcFail_memWf {d : Weft} {off failure : Nat} {master : Byte} {s : State} (h : s.memWf = true) :
    AnswerWf (execGddr6EdcFail d off failure master s) :=
  answer_ite (answer_next (bumpAon_memWf (countEv_memWf (State.modWeft_keeps (fun _ => rfl) h)))) (answer_next (State.dataLost_memWf
    (State.modWeft_keeps (fun _ => rfl) h)))

theorem execTransactionTimeout_memWf {d : Weft} {pool : Nat} {hit : EccHit} {s : State} (h : s.memWf = true) :
    AnswerWf (execTransactionTimeout d pool hit s) := answer_next (State.ite_memWf (State.lostAs_memWf h) h)

theorem State.modLink_memWf {s : State} {l : Nat} {f : Link → Link} (h : s.memWf = true) : (s.modLink l f).memWf = true := by
  unfold State.modLink
  exact State.memWf_update h

theorem countRetry_memWf {s : State} {l : Nat} (h : s.memWf = true) : (countRetry s l).memWf = true :=
  State.foldl_memWf (fun _ _ ht => State.ite_memWf (bumpAon_memWf (countEv_memWf ht)) (bumpAon_memWf (countEv_memWf ht))) h

theorem execWarpFlitCrcFail_memWf {link : Nat} {s : State} (h : s.memWf = true) : AnswerWf (execWarpFlitCrcFail link s) :=
  answer_ite (answer_next h) (answer_next (State.ite_memWf_of (countRetry_memWf (State.modLink_memWf h)) (fun h1 => State.raise_memWf
    (State.modLink_memWf h1))))

theorem execWarpE2eMismatch_memWf {link : Nat} {hit : EccHit} {s : State} (h : s.memWf = true) :
    AnswerWf (execWarpE2eMismatch link hit s) := answer_next (State.ite_memWf (State.lostAs_memWf h) h)

theorem execWarpLinkDown_memWf {link : Nat} {s : State} (h : s.memWf = true) : AnswerWf (execWarpLinkDown link s) :=
  answer_ite (answer_next h) (answer_next (State.recompute_memWf (State.raise_memWf (State.linkGone_memWf (State.modLink_memWf h)))))

theorem execWarpLinkRetrainDone_memWf {link : Nat} {s : State} (h : s.memWf = true) : AnswerWf (execWarpLinkRetrainDone link s) :=
  answer_next (State.modLink_memWf h)

theorem execWarpRetrainTimeout_memWf {link : Nat} {s : State} (h : s.memWf = true) : AnswerWf (execWarpRetrainTimeout link s) := by
  unfold execWarpRetrainTimeout
  split
  · exact answer_next (State.ite_memWf (State.recompute_memWf (State.disable_memWf h)) h)
  · exact answer_next h

/-! ### Memories through `Machine/Checks` -/

theorem State.proofPass_memWf {s : State} {d : Weft} (h : s.memWf = true) : (s.proofPass d).memWf = true :=
  bumpAon_memWf (State.modChecks_memWf h)

theorem State.proofMiss_memWf {s : State} {d : Weft} {v : ProofVerdict} (h : s.memWf = true) : (s.proofMiss d v).memWf = true :=
  State.raiseProof_memWf (eventAll_memWf (bumpAon_memWf (State.modChecks_memWf h)))

theorem State.targetFail_memWf {s : State} {d : Weft} {t : Nat} (h : s.memWf = true) : (s.targetFail d t).memWf = true :=
  State.recompute_memWf (State.raise_memWf (State.foldl_memWf (fun _ _ ht => State.disable_memWf ht) (State.modChecks_memWf h)))

theorem State.ageTarget_memWf {d : Weft} {counts : Bool} {s : State} {t : Nat} (h : s.memWf = true) :
    (State.ageTarget d counts s t).memWf = true :=
  State.ite_memWf h (State.ite_memWf_of (State.modChecks_memWf h) (fun h1 => State.raise_memWf h1))

theorem State.proofOver_memWf {s : State} {d : Weft} (h : s.memWf = true) : (s.proofOver d).memWf = true := by
  unfold State.proofOver
  dsimp only
  split
  · exact h
  · exact State.ite_memWf (State.proofMiss_memWf h) (State.modChecks_memWf h)
  · exact State.ite_memWf (State.proofMiss_memWf h) (State.modChecks_memWf h)
  · exact State.proofMiss_memWf h
  · exact State.proofMiss_memWf h
  · exact State.proofMiss_memWf h

theorem State.closeFrame_memWf {s : State} {d : Weft} (h : s.memWf = true) : (s.closeFrame d).memWf = true :=
  State.ite_memWf h (State.modChecks_memWf (State.foldl_memWf (fun _ _ ht => State.ageTarget_memWf ht) (State.ite_memWf
    (State.modChecks_memWf h) (State.proofOver_memWf h))))

theorem execModuleFrameStart_memWf {s : State} (h : s.memWf = true) : AnswerWf (execModuleFrameStart s) :=
  answer_ite (answer_next h) (answer_next (State.ite_memWf h (State.memWf_update (State.modChecks_memWf (State.modChecks_memWf
    (State.ite_memWf (State.closeFrame_memWf (State.closeFrame_memWf h)) h))))))

theorem execProofDue_memWf {d : Weft} {s : State} (h : s.memWf = true) : AnswerWf (execProofDue d s) :=
  answer_next (State.ite_memWf (State.proofEnter_memWf (State.wakeDie_memWf (State.modChecks_memWf h))) h)

theorem State.afterChecks_memWf {s : State} (h : s.memWf = true) : s.afterChecks.memWf = true := by
  unfold State.afterChecks
  dsimp only
  split
  · exact State.tryHinge_memWf (State.proofEnter_memWf h)
  · exact State.choose_memWf (State.proofEnter_memWf h)

theorem execProofRelease_memWf {d : Weft} {s : State} (h : s.memWf = true) : AnswerWf (execProofRelease d s) :=
  answer_next (State.ite_memWf (State.afterChecks_memWf (State.modWeft_memWf (fun _ hw => by simp [hw, Memory.wf_writeBytes]) h)) h)

theorem execProofVerdict_memWf {d : Weft} {v : ProofVerdict} {s : State} (h : s.memWf = true) : AnswerWf (execProofVerdict d v s) :=
  answer_next (State.ite_memWf (State.ite_memWf (State.proofPass_memWf h) (State.proofMiss_memWf h)) h)

theorem execSelftestSliceStart_memWf {d : Weft} {s : State} (h : s.memWf = true) : AnswerWf (execSelftestSliceStart d s) := by
  unfold execSelftestSliceStart
  refine answer_next (State.ite_memWf h (State.ite_memWf (State.wakeDie_memWf h) ?_))
  split
  · exact h
  · exact State.modWeft_keeps (fun _ => rfl) h

theorem execSliceFallbackTimer_memWf {d : Weft} {s : State} (h : s.memWf = true) : AnswerWf (execSliceFallbackTimer d s) :=
  answer_next (State.ite_memWf (State.modChecks_memWf h) h)

theorem execSelftestSliceEnd_memWf {d : Weft} {passed : Bool} {s : State} (h : s.memWf = true) :
    AnswerWf (execSelftestSliceEnd d passed s) := by
  unfold execSelftestSliceEnd
  split
  · exact answer_next h
  · exact answer_next (State.afterChecks_memWf (State.ite_memWf (State.modChecks_memWf (State.modChecks_memWf h))
      (State.targetFail_memWf (State.modChecks_memWf h))))

theorem execPairTestStart_memWf {pair : Nat} {s : State} (h : s.memWf = true) : AnswerWf (execPairTestStart pair s) := by
  unfold execPairTestStart
  refine answer_next ?_
  split
  · exact h
  · exact State.ite_memWf (State.modPair_keeps (fun _ => rfl) h) h

theorem execPairTestDone_memWf {pair : Nat} {passed : Bool} {s : State} (h : s.memWf = true) :
    AnswerWf (execPairTestDone pair passed s) := by
  unfold execPairTestDone
  refine answer_next ?_
  split
  · exact h
  · exact State.ite_memWf h (State.ite_memWf (State.modChecks_memWf (State.modPair_keeps (fun _ => rfl) h)) (State.targetFail_memWf
      (State.modPair_keeps (fun _ => rfl) h)))

/-! ### Memories through `Machine/Settings` -/

theorem State.refuse_memWf {s : State} {off bit : Nat} (h : s.memWf = true) : (s.refuse off bit).memWf = true := State.setReg_memWf h

theorem State.toBench_memWf {s : State} {d : Weft} (h : s.memWf = true) : (s.toBench d).memWf = true :=
  State.modWeft_keeps (fun _ => rfl) h

theorem State.modeTo_memWf {s : State} {m : Nat} (h : s.memWf = true) : (s.modeTo m).memWf = true := by
  have h1 : (s.setReg oSafety (setFld (s.reg oSafety) 1 0 m)).memWf = true := State.setReg_memWf h
  refine State.ite_memWf (State.toBench_memWf (State.toBench_memWf h1)) (State.foldl_memWf (fun _ _ ht => ?_) ?_)
  · exact State.foldl_memWf (fun _ _ hu => State.ite_memWf (State.wake_memWf hu) hu) ht
  · exact State.memWf_update_dies h1 (State.wa_memWf _ h1) (State.wb_memWf _ h1)

theorem execKprSafetyWrite_memWf {value : Word} {s : State} (h : s.memWf = true) : AnswerWf (execKprSafetyWrite value s) :=
  answer_ite (answer_next h) (answer_next (State.ite_memWf_of' (State.refuse_memWf h) (fun h1 => State.ite_memWf (State.setReg_memWf h)
    (State.ite_memWf h1 (State.modeTo_memWf (State.setReg_memWf h))))))

theorem execHdlDeterminismWrite_memWf {value : Word} {s : State} (h : s.memWf = true) : AnswerWf (execHdlDeterminismWrite value s) :=
  answer_ite (answer_next h) (answer_next (State.ite_memWf (State.setReg_memWf h) (State.refuse_memWf h)))

theorem execKprFrameWrite_memWf {value : Word} {s : State} (h : s.memWf = true) : AnswerWf (execKprFrameWrite value s) :=
  answer_ite (answer_next h) (answer_next (State.ite_memWf (State.setReg_memWf h) (State.refuse_memWf h)))

theorem execKprFramePhaseWrite_memWf {value : Word} {s : State} (h : s.memWf = true) : AnswerWf (execKprFramePhaseWrite value s) :=
  answer_ite (answer_next h) (answer_next (State.ite_memWf (State.setReg_memWf h) (State.refuse_memWf h)))

theorem execKprProofWrite_memWf {value : Word} {s : State} (h : s.memWf = true) : AnswerWf (execKprProofWrite value s) :=
  answer_ite (answer_next h) (answer_next (State.ite_memWf (State.setReg_memWf h) (State.refuse_memWf h)))

theorem execKprStestWrite_memWf {value : Word} {s : State} (h : s.memWf = true) : AnswerWf (execKprStestWrite value s) :=
  answer_ite (answer_next h) (answer_next (State.ite_memWf (State.setReg_memWf h) (State.refuse_memWf h)))

theorem execHspProgWinWrite_memWf {k : Nat} {value : Word} {s : State} (h : s.memWf = true) : AnswerWf (execHspProgWinWrite k value s) :=
  answer_ite (answer_next h) (answer_next (State.ite_memWf h (State.ite_memWf (State.setReg_memWf h) (State.refuse_memWf h))))

theorem execHdlPartLoomWrite_memWf {p : Nat} {value : Word} {s : State} (h : s.memWf = true) :
    AnswerWf (execHdlPartLoomWrite p value s) :=
  answer_ite (answer_next h) (answer_next (State.ite_memWf h (State.ite_memWf (State.refuse_memWf h) (State.applyLoom_memWf
    (State.ite_memWf_of (State.setReg_memWf h) (fun h1 => State.wakeTo_memWf h1))))))

theorem execHdlPartMemWrite_memWf {p : Nat} {value : Word} {s : State} (h : s.memWf = true) : AnswerWf (execHdlPartMemWrite p value s) :=
  answer_ite (answer_next h) (answer_next (State.ite_memWf h (State.ite_memWf (State.setReg_memWf h) (State.refuse_memWf h))))

theorem execHdlPartQuotaWrite_memWf {p : Nat} {value : Word} {s : State} (h : s.memWf = true) :
    AnswerWf (execHdlPartQuotaWrite p value s) :=
  answer_ite (answer_next h) (answer_next (State.ite_memWf h (State.ite_memWf (State.setReg_memWf h) (State.refuse_memWf h))))

theorem execHdlPartLatchWrite_memWf {p : Nat} {value : Word} {s : State} (h : s.memWf = true) :
    AnswerWf (execHdlPartLatchWrite p value s) :=
  answer_ite (answer_next h) (answer_next (State.ite_memWf h (State.ite_memWf (State.refuse_memWf h) (State.setReg_memWf h))))

theorem execHdlSchedGapWrite_memWf {value : Word} {s : State} (h : s.memWf = true) : AnswerWf (execHdlSchedGapWrite value s) :=
  answer_ite (answer_next h) (answer_next (State.ite_memWf (State.refuse_memWf h) (State.setReg_memWf h)))

theorem execHdlSchedSaveWrite_memWf {value : Word} {s : State} (h : s.memWf = true) : AnswerWf (execHdlSchedSaveWrite value s) :=
  answer_ite (answer_next h) (answer_next (State.ite_memWf (State.refuse_memWf h) (State.setReg_memWf h)))

theorem execHdlMirrorWrite_memWf {i : Nat} {value : Word} {s : State} (h : s.memWf = true) : AnswerWf (execHdlMirrorWrite i value s) :=
  answer_ite (answer_next h) (answer_next (State.ite_memWf h (State.ite_memWf (State.setReg_memWf h) (State.ite_memWf
    (State.setReg_memWf h) (State.refuse_memWf h)))))

theorem execHdlGatherCtlWrite_memWf {value : Word} {s : State} (h : s.memWf = true) : AnswerWf (execHdlGatherCtlWrite value s) :=
  answer_ite (answer_next h) (answer_next (State.ite_memWf_of (State.setReg_memWf h) (fun h1 => State.foldl_memWf
    (fun _ _ ht1 => State.closeWindow_memWf ht1) h1)))

theorem execHdlGatherGrpWrite_memWf {g : Nat} {value : Word} {s : State} (h : s.memWf = true) :
    AnswerWf (execHdlGatherGrpWrite g value s) :=
  answer_ite (answer_next h) (answer_next (State.ite_memWf h (State.ite_memWf (State.ite_memWf h (State.setReg_memWf h))
    (State.ite_memWf (State.setReg_memWf h) (State.ite_memWf (State.setReg_memWf h) (State.setReg_memWf h))))))

theorem execWrpWheelWrite_memWf {link dir half : Nat} {value : Word} {s : State} (h : s.memWf = true) :
    AnswerWf (execWrpWheelWrite link dir half value s) :=
  answer_ite (answer_next h) (answer_next (State.ite_memWf h (State.ite_memWf (State.setReg_memWf (State.setReg_memWf h))
    (State.setReg_memWf h))))

/-! ### Memories through `Machine/Submit` -/

theorem State.noteBound_memWf {s : State} {cx : Ctx} {b c : Nat} (h : s.memWf = true) : (s.noteBound cx b c).memWf = true :=
  State.modCtx_memWf h

theorem State.batchGone_memWf {s : State} {b : Nat} (h : s.memWf = true) : (s.batchGone b).memWf = true :=
  State.choose_memWf (State.foldl_memWf (fun _ _ ht => State.endUnrun_memWf ht) h)

theorem execStep_memWf {ctx : Nat} {record : List Byte} {failed : Bool} {s : State} (h : s.memWf = true) :
    AnswerWf (execStep ctx record failed s) := by
  unfold execStep
  refine answer_next (State.process_memWf h (fun _ _ _ hu => State.ite_memWf (State.hostReadError_memWf (State.releaseInsts_memWf
    (State.takeRead_memWf hu))) ?_))
  split
  · exact completeRead_memWf (State.releaseInsts_memWf (State.takeRead_memWf hu))
  · exact State.ite_memWf (State.endUnrun_memWf (State.ite_memWf_of (State.takeRead_memWf hu) (fun h2 => State.noteBound_memWf h2)))
      (State.ite_memWf (State.endUnrun_memWf (State.ite_memWf_of (State.takeRead_memWf hu) (fun h2 => State.noteBound_memWf h2)))
      (State.memWf_update (State.ite_memWf_of (State.takeRead_memWf hu) (fun h2 => State.noteBound_memWf h2))))

theorem State.admitStep_memWf {s : State} {t : Step} (h : s.memWf = true) : (s.admitStep t).memWf = true :=
  State.choose_memWf (State.markUnqualified_memWf (State.ite_memWf_of (bumpPart_memWf (State.memWf_update (State.ite_memWf h
    (State.modCtx_memWf h)))) (fun h1 => State.armAge_memWf h1)))

theorem execStepAdmission_memWf {ctx : Nat} {heddleOverAdmits : Bool} {s : State} (h : s.memWf = true) :
    AnswerWf (execStepAdmission ctx heddleOverAdmits s) := by
  unfold execStepAdmission
  split
  · exact answer_next h
  · refine answer_next (State.ite_memWf h ?_)
    split
    · exact State.admitStep_memWf h
    · exact State.choose_memWf (State.ite_memWf (State.raise_memWf (State.endUnrun_memWf h)) (State.endUnrun_memWf h))

theorem execBatchWaitTimeout_memWf {ctx : Nat} {s : State} (h : s.memWf = true) : AnswerWf (execBatchWaitTimeout ctx s) := by
  unfold execBatchWaitTimeout
  split
  · exact answer_next (State.choose_memWf (State.foldl_memWf (fun _ _ ht => State.endUnrun_memWf ht) h))
  · exact answer_next h

/-! ### Memories through `Machine/CreelCtl` -/

theorem State.bindSlot_memWf {s : State} {k : Nat} {v : Word} {r : Recipe} (h : s.memWf = true) : (s.bindSlot k v r).memWf = true :=
  State.setReg_memWf (State.modSlot_memWf h)

theorem execCrlSlotEnable_memWf {k : Nat} {value : Word} {s : State} (h : s.memWf = true) : AnswerWf (execCrlSlotEnable k value s) := by
  unfold execCrlSlotEnable
  refine answer_next (State.ite_memWf h (State.ite_memWf (State.setReg_memWf h) ?_))
  split
  · exact State.creelClock_memWf (State.bindSlot_memWf h)
  · exact h

theorem State.unbindSlot_memWf {s : State} {k : Nat} (h : s.memWf = true) : (s.unbindSlot k).memWf = true :=
  State.ite_memWf_of (State.creelClock_memWf (State.modSlot_memWf (State.setReg_memWf (State.closeStream_memWf
    (State.modSlot_memWf h))))) (fun h1 => State.batchGone_memWf h1)

theorem execCrlSlotDisable_memWf {k : Nat} {value : Word} {s : State} (h : s.memWf = true) : AnswerWf (execCrlSlotDisable k value s) :=
  answer_next (State.ite_memWf h (State.ite_memWf (State.unbindSlot_memWf h) (State.setReg_memWf h)))

theorem State.batchRefused_memWf {s : State} {b e : Nat} (h : s.memWf = true) : (s.batchRefused b e).memWf = true := State.setReg_memWf h

theorem execCrlBatchEnable_memWf {b : Nat} {value : Word} {s : State} (h : s.memWf = true) : AnswerWf (execCrlBatchEnable b value s) :=
  answer_next (State.ite_memWf h (State.ite_memWf (State.batchRefused_memWf h) (State.wakeBeams_memWf (State.setReg_memWf h))))

theorem State.dropBatch_memWf {s : State} {b : Nat} (h : s.memWf = true) : (s.dropBatch b).memWf = true :=
  State.batchGone_memWf (State.releaseInsts_memWf (State.modBatch_memWf (State.setReg_memWf h)))

theorem execCrlBatchDisable_memWf {b : Nat} {value : Word} {s : State} (h : s.memWf = true) : AnswerWf (execCrlBatchDisable b value s) :=
  answer_next (State.ite_memWf h (State.ite_memWf (State.setReg_memWf h) (State.ite_memWf (State.batchRefused_memWf h)
    (State.dropBatch_memWf h))))

/-! ### Memories through `Machine/CtrCtl` -/

theorem State.ctrAccess_memWf {s : State} {n o : Nat} {v : Word} (h : s.memWf = true) : (s.ctrAccess n o v).memWf = true := by
  unfold State.ctrAccess
  split
  · exact State.ctrWrite_memWf h
  · exact State.ite_memWf h (State.ite_memWf (State.memWf_update h) (State.ctrWrite_memWf h))

theorem State.ctrTraffic_memWf {s : State} {n : Nat} (h : s.memWf = true) : (s.ctrTraffic n).memWf = true := by
  unfold State.ctrTraffic
  split
  · exact h
  · exact State.ite_memWf h (State.controlWord_memWf h)

theorem execCtrSelWrite_memWf {d : Die} {i : Nat} {value : Word} {s : State} (h : s.memWf = true) :
    AnswerWf (execCtrSelWrite d i value s) := answer_next (State.ite_memWf h (State.ctrAccess_memWf (State.ctrTraffic_memWf h)))

theorem execCtrWatchCfgWrite_memWf {w : Nat} {value : Word} {s : State} (h : s.memWf = true) :
    AnswerWf (execCtrWatchCfgWrite w value s) :=
  answer_next (State.ite_memWf h (State.ite_memWf (State.setReg_memWf h) (State.ite_memWf (State.setReg_memWf h) (State.setReg_memWf
    (State.memWf_update h)))))

/-! ### Memories through `Machine/Deliver` -/

theorem State.raiseWard_memWf {s : State} {i : Nat} {t : Step} {mask : Nat} (h : s.memWf = true) : (s.raiseWard i t mask).memWf = true :=
  State.raise_memWf h

theorem State.skewCheck_memWf {s : State} {t : Step} (h : s.memWf = true) : (s.skewCheck t).memWf = true := by
  unfold State.skewCheck
  split
  · exact State.ite_memWf (State.raiseWard_memWf h) h
  · exact h

theorem execStepFinish_memWf {d : Weft} {s : State} (h : s.memWf = true) : AnswerWf (execStepFinish d s) := by
  unfold execStepFinish
  split
  · exact answer_next h
  · refine answer_next (State.ite_memWf h ?_)
    split
    · exact h
    · refine State.ite_memWf (State.modStep_memWf (State.modStep_memWf h)) ?_
      dsimp only
      split
      · exact State.memWf_update (State.modStep_memWf h)
      · exact State.ite_memWf_of (State.memWf_update (State.modStep_memWf h)) (fun h1 => State.skewCheck_memWf (State.modStep_memWf h1))

theorem execWardVerdict_memWf {comparatorsAgree : Bool} {s : State} (h : s.memWf = true) :
    AnswerWf (execWardVerdict comparatorsAgree s) := by
  unfold execWardVerdict
  split
  · exact answer_next h
  · dsimp only
    split
    · exact answer_next (State.ite_memWf (State.raiseWard_memWf (State.endCtx_memWf h)) (State.ite_memWf (State.modStep_memWf
        (State.memWf_update h)) (State.raiseWard_memWf (State.endCtx_memWf (State.memWf_update h)))))
    · exact answer_next (State.modStep_memWf h)

theorem execResultWritesDone_memWf {ctx : Nat} {chk : ReadChecks} {s0 : State} (h : s0.memWf = true) :
    AnswerWf (execResultWritesDone ctx chk s0) := by
  unfold execResultWritesDone
  dsimp only
  split
  · refine answer_next ?_
    split
    · exact State.readChecks_memWf h
    · exact h
  · split
    · refine answer_next ?_
      split
      · exact State.readChecks_memWf h
      · exact h
    · refine answer_next (State.ite_memWf_of (State.ageFaultNow_memWf (State.deadlineFault_memWf (State.tracked_memWf
        (State.linkBytes_memWf (hostWrite_memWf ?_))))) (fun h1 => State.completeStep_memWf h1))
      split
      · exact State.readChecks_memWf h
      · exact h

theorem State.copyTraffic_memWf {s : State} {e : Entry} {cx : Ctx} {j off n : Nat} (h : s.memWf = true) :
    (s.copyTraffic e cx j off n).memWf = true :=
  State.foldl_memWf (fun _ _ ht => State.ite_memWf (State.linkBytes_memWf (State.beamBytes_memWf ht)) (State.ite_memWf
    (State.linkBytes_memWf (State.gddrBytes_memWf ht)) (hostRead_memWf ht))) h

theorem execTransferDone_memWf {ctx : Nat} {chk : ReadChecks} {s : State} (h : s.memWf = true) :
    AnswerWf (execTransferDone ctx chk s) := by
  unfold execTransferDone
  split
  · refine answer_ite (answer_next h) (answer_ite (answer_next (State.wakeBeams_memWf h)) (answer_next ?_))
    split
    · exact State.choose_memWf (completeRead_memWf (State.unpost_memWf h))
    · exact State.ite_memWf (State.choose_memWf (completeRead_memWf (State.readChecks_memWf (State.copyTraffic_memWf
        (State.unpost_memWf h))))) (State.choose_memWf (completeRead_memWf (hostWrite_memWf (State.readChecks_memWf
        (State.copyTraffic_memWf (State.unpost_memWf h))))))
  · exact answer_next h

theorem execHoldCopyDone_memWf {slot : Nat} {chk : ReadChecks} {s : State} (h : s.memWf = true) :
    AnswerWf (execHoldCopyDone slot chk s) := by
  unfold execHoldCopyDone
  split
  · exact answer_next (State.modSlot_memWf (State.readChecks_memWf h))
  · exact answer_next h

theorem execSubstituteCopyDone_memWf {batch counter position : Nat} {chk : ReadChecks} {s : State} (h : s.memWf = true) :
    AnswerWf (execSubstituteCopyDone batch counter position chk s) := by
  unfold execSubstituteCopyDone
  split
  · exact answer_next (State.ite_memWf h (State.modPos_memWf (State.ite_memWf_of (State.readChecks_memWf h)
      (fun h1 => State.eccOwner_memWf h1))))
  · exact answer_next h

theorem execDeadlineMonitorExpiry_memWf {ctx counter : Nat} {s : State} (h : s.memWf = true) :
    AnswerWf (execDeadlineMonitorExpiry ctx counter s) := by
  unfold execDeadlineMonitorExpiry
  split
  · exact answer_next h
  · exact answer_next (State.ite_memWf (State.deadlineRaise_memWf h) h)

theorem execAgeMonitorExpiry_memWf {ctx counter : Nat} {s : State} (h : s.memWf = true) :
    AnswerWf (execAgeMonitorExpiry ctx counter s) := by
  unfold execAgeMonitorExpiry
  split
  · exact answer_next h
  · split
    · exact answer_next h
    · exact answer_next (State.ite_memWf (State.ageRaise_memWf h) h)

/-! ### Memories through `Machine/Ladder` -/

theorem execGraceTimerExpiry_memWf {source : Nat} {s : State} (h : s.memWf = true) : AnswerWf (execGraceTimerExpiry source s) :=
  answer_next (State.ite_memWf (State.fireSecond_memWf h) h)

theorem State.acknowledge_memWf {s : State} {n : Nat} (h : s.memWf = true) : (s.acknowledge n).memWf = true :=
  State.ackSource_memWf (State.ite_memWf (State.fireSecond_memWf h) h)

theorem execFaultStatusAck_memWf {f : FnId} {s : State} (h : s.memWf = true) : AnswerWf (execFaultStatusAck f s) :=
  answer_next (State.ite_memWf h (State.ite_memWf_of (State.setFnReg_memWf h) (fun h1 => State.acknowledge_memWf h1)))

theorem execHspRaisedAck_memWf {index : Nat} {value : Word} {s : State} (h : s.memWf = true) :
    AnswerWf (execHspRaisedAck index value s) :=
  answer_next (State.ite_memWf h (State.foldl_memWf (fun _ _ ht => State.ite_memWf (State.acknowledge_memWf ht) ht) h))

theorem execHspFirstClear_memWf {s : State} (h : s.memWf = true) : AnswerWf (execHspFirstClear s) :=
  answer_next (State.ite_memWf (State.setReg_memWf h) h)

theorem State.raiseProgress_memWf {s : State} {n : Nat} {ctx : Option Nat} {master : Byte} {counter : Dword} {inst : Nat}
    (h : s.memWf = true) :
    (s.raiseProgress n ctx master counter inst).memWf = true := State.raise_memWf h

theorem State.stalledUnit_memWf {s : State} {u : UnitId} {slice : Bool} (h : s.memWf = true) : (s.stalledUnit u slice).memWf = true :=
  State.ite_memWf h (State.ite_memWf (State.unitStart_memWf h) (State.unitReset_memWf h))

theorem execProgressMonitorTrip_memWf {kind : MonKind} {inst ring : Nat} {told : Dword} {ctxs : List Nat} {s : State}
    (h : s.memWf = true) :
    AnswerWf (execProgressMonitorTrip kind inst ring told ctxs s) := by
  unfold execProgressMonitorTrip
  refine answer_ite (answer_next h) ?_
  dsimp only
  split
  · exact answer_next (State.raiseProgress_memWf (State.stalledUnit_memWf h))
  · exact answer_next (State.raiseProgress_memWf (State.stalledUnit_memWf h))
  · exact answer_next (State.raiseProgress_memWf (State.stalledUnit_memWf h))
  · exact answer_next (State.raiseProgress_memWf (State.endCtx_memWf h))
  · exact answer_next (State.raiseProgress_memWf (State.retestNow_memWf (State.unitReset_memWf (State.endCtxs_memWf h))))
  · exact answer_next (State.raiseProgress_memWf (State.memWf_update (State.ite_memWf_of' (State.modSlot_memWf
      (State.corruptSample_memWf h)) (fun h1 => State.unitReset_memWf h1))))
  · exact answer_next (State.raiseProgress_memWf (State.unitReset_memWf h))

theorem execWakeComplete_memWf {d : Weft} {g : Grp} {s : State} (h : s.memWf = true) : AnswerWf (execWakeComplete d g s) := by
  unfold execWakeComplete
  split
  · exact answer_next (State.choose_memWf (State.proofEnter_memWf (State.drainAll_memWf (State.applyLoom_memWf (State.awake_memWf
      (State.ite_memWf_of (State.modWeft_memWf (fun _ hw => by simp [hw]) (State.lockFor_memWf h)) (fun h1 => State.applyHeld_memWf
      (State.ite_memWf_of h1 (fun h2 => State.modWeft_memWf (fun _ hw => by simp [hw]) h2)))))))))
  · exact answer_next h

theorem execPllRelock_memWf {p : Pll} {s : State} (h : s.memWf = true) : AnswerWf (execPllRelock p s) :=
  answer_next (State.ite_memWf (State.drainAll_memWf (State.memWf_update h)) h)

theorem State.flushed_memWf {s : State} {ctx : Nat} {stuck : List UnitId} (h : s.memWf = true) : (s.flushed ctx stuck).memWf = true := by
  unfold State.flushed
  exact State.memWf_update h

theorem execKillComplete_memWf {ctx : Nat} {stuck : List UnitId} {s : State} (h : s.memWf = true) :
    AnswerWf (execKillComplete ctx stuck s) := by
  unfold execKillComplete
  split
  · exact answer_next h
  · refine answer_next ?_
    split
    · exact State.afterChecks_memWf (State.completeStep_memWf (State.flushed_memWf h))
    · exact State.memWf_update (State.flushed_memWf h)

theorem execUnitResetDone_memWf {u : UnitId} {s : State} (h : s.memWf = true) : AnswerWf (execUnitResetDone u s) :=
  answer_ite (answer_next (State.ite_memWf (State.afterChecks_memWf (State.unitDone_memWf h)) (State.setReg_memWf
    (State.unitAt_memWf h)))) (answer_next h)

theorem State.raiseHang_memWf {s : State} {code : Nat} (h : s.memWf = true) : (s.raiseHang code).memWf = true := State.raise_memWf h

theorem State.rungFour_memWf {s : State} {u : UnitId} (h : s.memWf = true) : (s.rungFour u).memWf = true := by
  unfold State.rungFour
  split
  · exact State.dieReset_memWf h
  · exact State.moduleReset_memWf h

theorem execRungDeadlineExpiry_memWf {r : RungId} {s : State} (h : s.memWf = true) : AnswerWf (execRungDeadlineExpiry r s) := by
  unfold execRungDeadlineExpiry
  refine answer_ite (answer_next h) ?_
  split
  · split
    · exact answer_next (State.raiseHang_memWf (State.ite_memWf (State.rungFour_memWf h) (State.unitAt_memWf h)))
    · exact answer_next (State.raiseHang_memWf (State.rungFour_memWf h))
    · exact answer_next h
    · exact answer_next h
  · exact answer_next (State.ite_memWf (State.raiseHang_memWf (State.moduleReset_memWf h)) h)
  · exact answer_next (State.ite_memWf (State.raiseHang_memWf (State.assertFault_memWf (State.powerDown_memWf h))) h)

theorem execIsolationConfirmed_memWf {u : UnitId} {s : State} (h : s.memWf = true) : AnswerWf (execIsolationConfirmed u s) :=
  answer_ite (answer_next (State.afterChecks_memWf (State.recompute_memWf (State.disable_memWf (State.unitDone_memWf h)))))
    (answer_next h)

theorem execDieInService_memWf {d : Weft} {s : State} (h : s.memWf = true) : AnswerWf (execDieInService d s) :=
  answer_ite (answer_next (State.afterChecks_memWf (State.wakeTo_memWf (State.recost_memWf (State.memWf_update (State.modWeft_keeps
    (fun _ => rfl) h)))))) (answer_next h)

theorem State.acted_memWf {s : State} {a : LastAction} (h : s.memWf = true) : (s.acted a).memWf = true := by
  unfold State.acted
  exact State.memWf_update h

theorem execHspActionKill_memWf {ctx : Nat} {s : State} (h : s.memWf = true) : AnswerWf (execHspActionKill ctx s) :=
  answer_next (State.ite_memWf (State.endCtx_memWf (State.acted_memWf h)) h)

theorem execHspActionUnitReset_memWf {u : UnitId} {s : State} (h : s.memWf = true) : AnswerWf (execHspActionUnitReset u s) :=
  answer_next (State.ite_memWf (State.retestNow_memWf (State.unitReset_memWf (State.acted_memWf h))) h)

theorem execHspActionDieReset_memWf {d : Weft} {s : State} (h : s.memWf = true) : AnswerWf (execHspActionDieReset d s) :=
  answer_next (State.ite_memWf (State.dieReset_memWf (State.acted_memWf h)) h)

theorem execHspActionModuleReset_memWf {s : State} (h : s.memWf = true) : AnswerWf (execHspActionModuleReset s) :=
  answer_next (State.ite_memWf (State.moduleReset_memWf h) h)

/-! ### Memories through `Machine/Tumbler` -/

theorem State.putMail_memWf {s : State} {off : Nat} {bs : List Byte} (h : s.memWf = true) : (s.putMail off bs).memWf = true := by
  simp [State.putMail, h, Memory.wf_writeBytes]

theorem State.tmbDone_memWf {s : State} {r : Nat} (h : s.memWf = true) : (s.tmbDone r).memWf = true := by
  unfold State.tmbDone
  exact State.memWf_update h

theorem State.tmbFree_memWf {s : State} (h : s.memWf = true) : s.tmbFree.memWf = true := by
  unfold State.tmbFree
  exact State.memWf_update h

theorem State.tmbNonce_memWf {s : State} (h : s.memWf = true) : s.tmbNonce.memWf = true := by
  have h1 : (((s.tmbCount 1).putMail 0 ((List.range 16).map (fun i => Config.freeByte (s.freshCtr + i)))).tmbDone 0).memWf = true :=
    State.tmbDone_memWf (State.putMail_memWf (State.tmbCount_memWf h))
  revert h1
  unfold State.tmbNonce
  dsimp only
  generalize ((s.tmbCount 1).putMail 0 ((List.range 16).map (fun i => Config.freeByte (s.freshCtr + i)))).tmbDone 0 = u
  exact fun hu => State.memWf_update hu

theorem State.levelTo_memWf {s : State} {n : Nat} (h : s.memWf = true) : (s.levelTo n).memWf = true := State.setReg_memWf h

theorem State.grant_memWf {s : State} {r : Nat} (h : s.memWf = true) : (s.grant r).memWf = true := by
  unfold State.grant
  split
  · exact State.levelTo_memWf h
  · exact State.markUnqualified_memWf (State.levelTo_memWf h)
  · exact State.levelTo_memWf (State.memWf_update h)
  · exact State.levelTo_memWf (State.memWf_update h)
  · exact State.ite_memWf_of' (State.levelTo_memWf (State.memWf_update h)) (fun h1 => State.modeTo_memWf h1)

/-- A Tumbler command is counted; nothing of Tumbler's state changes with it. -/
theorem State.tmbCount_sec (s : State) (priv : Nat) : (s.tmbCount priv).sec = s.sec := by
  rw [State.tmbCount, (countEv_onlyCounters s { Ev.plain 0 0x0C2 none 1 with priv := some priv } (by decide : (0 : Nat) < 3)).eq]

/-- A change of Tumbler's state beside the mailbox, of a command that is counted. -/
theorem State.tmbCount_update_memWf {s : State} {priv : Nat} {x : Security} (h : s.memWf = true) (hx : x.mailbox = s.sec.mailbox) :
    State.memWf { s.tmbCount priv with sec := x } = true :=
  State.memWf_update (State.tmbCount_memWf h) (hx.trans (congrArg Security.mailbox (s.tmbCount_sec priv).symm))

theorem State.tmbToken_memWf {s : State} (h : s.memWf = true) : s.tmbToken.memWf = true := by
  unfold State.tmbToken
  exact State.ite_memWf_of (State.tmbDone_memWf (State.tmbCount_update_memWf h rfl)) (fun h1 => State.grant_memWf h1)

theorem State.tmbAttest_memWf {s : State} (h : s.memWf = true) : s.tmbAttest.memWf = true :=
  State.ite_memWf (State.tmbDone_memWf (State.tmbCount_memWf h)) (State.memWf_update (State.tmbDone_memWf (State.putMail_memWf
    (State.tmbCount_memWf h))))

theorem State.tmbLoadKey_memWf {s : State} (h : s.memWf = true) : s.tmbLoadKey.memWf = true := by
  have hc : (s.tmbCount 1).memWf = true := State.tmbCount_memWf h
  refine State.ite_memWf (State.tmbDone_memWf hc) ?_
  split
  · exact State.tmbDone_memWf hc
  · exact State.ite_memWf (State.tmbFree_memWf hc) (State.tmbDone_memWf (State.tmbCount_update_memWf h rfl))

theorem State.tmbEraseKey_memWf {s : State} {keyId : Nat} (h : s.memWf = true) : (s.tmbEraseKey keyId).memWf = true :=
  State.ite_memWf (State.tmbDone_memWf (State.tmbCount_memWf h)) (State.tmbDone_memWf (State.tmbCount_update_memWf h rfl))

theorem State.tmbEnrol_memWf {s : State} (h : s.memWf = true) : s.tmbEnrol.memWf = true :=
  State.ite_memWf (State.tmbDone_memWf (State.tmbCount_memWf h)) (State.tmbCount_update_memWf h rfl)

theorem State.finishEnrol_memWf {s : State} (h : s.memWf = true) : s.finishEnrol.memWf = true := by
  unfold State.finishEnrol
  split
  · exact h
  · exact State.ite_memWf_of (State.tmbDone_memWf (State.memWf_update h)) (fun h1 => State.levelTo_memWf h1)

theorem State.runTmb_memWf {s : State} {v : Word} (h : s.memWf = true) : (s.runTmb v).memWf = true := by
  unfold State.runTmb
  split
  · exact State.tmbNonce_memWf h
  · exact State.tmbToken_memWf h
  · exact State.tmbAttest_memWf h
  · exact State.tmbLoadKey_memWf h
  · exact State.tmbEraseKey_memWf h
  · exact State.tmbEnrol_memWf h
  · exact h

theorem State.tmbCmd_memWf {s : State} {v : Word} (h : s.memWf = true) : (s.tmbCmd v).memWf = true :=
  State.ite_memWf h (State.ite_memWf (State.memWf_update h) (State.runTmb_memWf h))

theorem State.tumblerTick_memWf {s : State} (h : s.memWf = true) : s.tumblerTick.memWf = true := by
  unfold State.tumblerTick
  refine State.finishInstall_memWf (State.ite_memWf_of ?_ (fun h1 => State.startLoad_memWf h1))
  split
  · exact State.finishEnrol_memWf h
  · exact State.ite_memWf_of' (State.finishEnrol_memWf h) (fun h1 => State.runTmb_memWf (State.memWf_update h1))

theorem execTmbNonce_memWf {s : State} (h : s.memWf = true) : AnswerWf (execTmbNonce s) := answer_next (State.tmbCmd_memWf h)

theorem execTmbToken_memWf {s : State} (h : s.memWf = true) : AnswerWf (execTmbToken s) := answer_next (State.tmbCmd_memWf h)

theorem execTmbAttest_memWf {s : State} (h : s.memWf = true) : AnswerWf (execTmbAttest s) := answer_next (State.tmbCmd_memWf h)

theorem execTmbLoadDraftKey_memWf {s : State} (h : s.memWf = true) : AnswerWf (execTmbLoadDraftKey s) :=
  answer_next (State.tmbCmd_memWf h)

theorem execTmbEraseDraftKey_memWf {keyId : Nat} {s : State} (h : s.memWf = true) : AnswerWf (execTmbEraseDraftKey keyId s) :=
  answer_next (State.tmbCmd_memWf h)

theorem execTmbEnrol_memWf {s : State} (h : s.memWf = true) : AnswerWf (execTmbEnrol s) := answer_next (State.tmbCmd_memWf h)

theorem execKprDebugWrite_memWf {value : Word} {s : State} (h : s.memWf = true) : AnswerWf (execKprDebugWrite value s) :=
  answer_ite (answer_next h) (answer_next (State.ite_memWf_of (State.ite_memWf (State.setReg_memWf h) h)
    (fun h1 => State.levelTo_memWf h1)))

/-! ### Memories through `Machine/RegAccess` -/

theorem State.answer_memWf {s : State} {v : Word} (h : s.memWf = true) : (s.answer v).memWf = true := by
  unfold State.answer
  exact State.memWf_update h

theorem State.accessErr_memWf {s : State} (h : s.memWf = true) : s.accessErr.memWf = true := State.setReg_memWf h

theorem State.dbgCount_memWf {s : State} {d : Weft} {l : Level} {write : Bool} {o : Nat} (h : s.memWf = true) :
    (s.dbgCount d l write o).memWf = true := State.wordTo_memWf (State.ite_memWf (State.gddrBytes_memWf h) (State.beamBytes_memWf h))

theorem State.dbgLoad_memWf {s : State} {d : Weft} {l : Level} {o : Nat} {chk : ReadChecks} (h : s.memWf = true) :
    (s.dbgLoad d l o chk).memWf = true :=
  State.ite_memWf (State.answer_memWf (State.readChecks_memWf (State.dbgCount_memWf h))) (State.answer_memWf (State.accessErr_memWf h))

theorem State.dbgStore_memWf {s : State} {d : Weft} {l : Level} {o : Nat} {v : Word} (h : s.memWf = true) :
    (s.dbgStore d l o v).memWf = true := by
  unfold State.dbgStore
  refine State.ite_memWf (State.modWeft_memWf (fun w hw => ?_) (State.dbgCount_memWf h)) (State.accessErr_memWf h)
  split
  · simp [hw, Memory.wf_writeBytes]
  · simp [hw, Memory.wf_writeBytes]

theorem execKprDbgDataRead_memWf {chk : ReadChecks} {s : State} (h : s.memWf = true) : AnswerWf (execKprDbgDataRead chk s) := by
  unfold execKprDbgDataRead
  refine answer_ite (answer_next h) (answer_ite (answer_next (State.answer_memWf h)) ?_)
  split
  · exact answer_next (State.dbgLoad_memWf h)
  · exact answer_fault

theorem execKprDbgDataWrite_memWf {value : Word} {s : State} (h : s.memWf = true) : AnswerWf (execKprDbgDataWrite value s) := by
  unfold execKprDbgDataWrite
  refine answer_ite (answer_next h) ?_
  split
  · exact answer_next (State.dbgStore_memWf h)
  · exact answer_fault

theorem State.badAccess_memWf {s : State} {v : View} {off : Nat} (h : s.memWf = true) : (s.badAccess v off).memWf = true :=
  State.raise_memWf h

theorem State.regTraffic_memWf {s : State} {v : View} {off : Nat} {write : Bool} (h : s.memWf = true) :
    (s.regTraffic v off write).memWf = true := by
  unfold State.regTraffic
  split
  · exact State.controlWord_memWf h
  · exact h

theorem State.regRead_memWf {s : State} {v : View} {off : Nat} (h : s.memWf = true) : (s.regRead v off).memWf = true := by
  unfold State.regRead
  split
  · exact State.memWf_update h
  · split
    · exact State.badAccess_memWf (State.answer_memWf h)
    · exact State.ite_memWf (State.memWf_update (State.regTraffic_memWf h)) (State.answer_memWf (State.regTraffic_memWf h))

theorem State.reply_memWf {s : State} {kind : BadAccess} {w : Word} (h : s.memWf = true) : (s.reply kind w).memWf = true :=
  State.ite_memWf (State.answer_memWf h) h

theorem State.badSup_memWf {s : State} {v : View} {kind : BadAccess} {off width : Nat} (h : s.memWf = true) :
    (s.badSup v kind off width).memWf = true :=
  State.ite_memWf_of' (State.reply_memWf h) (fun h1 => State.ite_memWf (State.badAccess_memWf (State.reply_memWf h)) (State.ite_memWf
    (State.badAccess_memWf h1) h))

theorem execBadRegisterAccess_memWf {v : View} {kind : BadAccess} {off width : Nat} {s : State} (h : s.memWf = true) :
    AnswerWf (execBadRegisterAccess v kind off width s) := by
  unfold execBadRegisterAccess
  refine answer_next (State.ite_memWf h ?_)
  split
  · exact State.badSup_memWf h
  · exact State.badSup_memWf h
  · exact State.ite_memWf (State.badAccess_memWf (State.reply_memWf h)) (State.ite_memWf (State.reply_memWf h) h)
  · exact State.ite_memWf h (State.reply_memWf h)
  · exact State.ite_memWf (State.badAccess_memWf (State.reply_memWf h)) h

theorem execRegisterLowWordRead_memWf {v : View} {off : Nat} {s : State} (h : s.memWf = true) :
    AnswerWf (execRegisterLowWordRead v off s) :=
  answer_ite (execKprDbgDataRead_memWf h) (answer_ite (answer_next h) (answer_next (State.regRead_memWf h)))

theorem State.timeCtlTo_memWf {s : State} {v : Word} (h : s.memWf = true) : (s.timeCtlTo v).memWf = true :=
  State.ite_memWf_of' (State.setReg_memWf h) (fun h1 => State.memWf_update h1)

theorem State.syncCtlTo_memWf {s : State} {v : Word} (h : s.memWf = true) : (s.syncCtlTo v).memWf = true :=
  State.ite_memWf_of' (State.setReg_memWf h) (fun h1 => State.memWf_update h1)

theorem State.bootTo_memWf {s : State} {v : Word} (h : s.memWf = true) : (s.bootTo v).memWf = true :=
  State.ite_memWf_of (State.setReg_memWf h) (fun h1 => State.install_memWf (State.memWf_update h1))

theorem State.kprStore_memWf {s : State} {off : Nat} {v : Word} (h : s.memWf = true) : (s.kprStore off v).memWf = true := by
  unfold State.kprStore
  split
  · exact State.timeCtlTo_memWf h
  · exact State.syncCtlTo_memWf h
  · exact State.setReg_memWf h
  · exact State.setReg_memWf h
  · exact State.setReg_memWf h
  · exact State.setReg_memWf h
  · exact State.bootTo_memWf h
  · exact State.setReg_memWf h
  · exact State.setReg_memWf h
  · exact h

theorem State.hspStore_memWf {s : State} {off : Nat} {v : Word} (h : s.memWf = true) : (s.hspStore off v).memWf = true := by
  unfold State.hspStore
  refine State.ite_memWf (State.setReg_memWf h) (State.ite_memWf (State.setReg_memWf h) ?_)
  split
  · exact State.putMail_memWf h
  · exact h

theorem State.hdlStore_memWf {s : State} {off : Nat} {v : Word} (h : s.memWf = true) : (s.hdlStore off v).memWf = true :=
  State.ite_memWf (State.ite_memWf h (State.setReg_memWf h)) h

theorem State.crlStore_memWf {s : State} {off : Nat} {v : Word} (h : s.memWf = true) : (s.crlStore off v).memWf = true := by
  unfold State.crlStore
  split
  · exact State.setReg_memWf h
  · exact State.ite_memWf h (State.setReg_memWf h)
  · exact State.ite_memWf h (State.setReg_memWf h)
  · exact State.ite_memWf h (State.setReg_memWf h)
  · exact h

theorem State.ctrWrpStore_memWf {s : State} {off : Nat} {v : Word} (h : s.memWf = true) : (s.ctrWrpStore off v).memWf = true := by
  unfold State.ctrWrpStore
  refine State.ite_memWf (State.ctrAccess_memWf h) ?_
  split
  · exact State.setReg_memWf h
  · exact State.ite_memWf (State.memWf_update h) h
  · exact h

theorem State.supStore_memWf {s : State} {off : Nat} {v : Word} (h : s.memWf = true) : (s.supStore off v).memWf = true :=
  State.ite_memWf (State.kprStore_memWf h) (State.ite_memWf (State.hspStore_memWf h) (State.ite_memWf (State.hdlStore_memWf h)
    (State.ite_memWf (State.crlStore_memWf h) (State.ite_memWf h (State.ctrWrpStore_memWf h)))))

theorem hspAction_memWf {v : Word} {s : State} (h : s.memWf = true) : AnswerWf (hspAction v s) := by
  unfold hspAction
  dsimp only
  split
  · exact execHspActionKill_memWf h
  · split
    · exact execHspActionUnitReset_memWf h
    · exact answer_next h
  · split
    · exact execHspActionDieReset_memWf h
    · exact answer_next h
  · exact execHspActionModuleReset_memWf h
  · exact answer_next h

theorem ownRowLow_memWf {off : Nat} {v : Word} {s : State} (h : s.memWf = true) : OwnRowWf (ownRowLow off v s) := by
  unfold ownRowLow
  split
  · exact execKprSafetyWrite_memWf h
  · exact execKprFrameWrite_memWf h
  · exact execKprFramePhaseWrite_memWf h
  · exact execKprProofWrite_memWf h
  · exact execKprStestWrite_memWf h
  · exact answer_ite (execKprRollbackCommit_memWf h) (answer_next h)
  · exact execKprDebugWrite_memWf h
  · exact execKprDbgDataWrite_memWf h
  · exact answer_ite (execHspFirstClear_memWf h) (answer_next h)
  · exact hspAction_memWf h
  · exact answer_next (State.tmbCmd_memWf h)
  · split
    · exact execHspRaisedAck_memWf h
    · exact execHspProgWinWrite_memWf h
    · exact trivial

theorem ownRowHdl_memWf {off : Nat} {v : Word} {s : State} (h : s.memWf = true) : OwnRowWf (ownRowHdl off v s) := by
  unfold ownRowHdl
  split
  · exact execHdlGatherCtlWrite_memWf h
  · exact execHdlDeterminismWrite_memWf h
  · exact execHdlSchedGapWrite_memWf h
  · exact execHdlSchedSaveWrite_memWf h
  · split
    · split
      · exact execHdlPartLoomWrite_memWf h
      · exact execHdlPartMemWrite_memWf h
      · exact execHdlPartQuotaWrite_memWf h
      · exact execHdlPartLatchWrite_memWf h
      · exact trivial
    · exact execHdlMirrorWrite_memWf h
    · exact execHdlGatherGrpWrite_memWf h
    · exact trivial

theorem ownRowHigh_memWf {off : Nat} {v : Word} {s : State} (h : s.memWf = true) : OwnRowWf (ownRowHigh off v s) := by
  unfold ownRowHigh
  split
  · exact answer_ite (execCrlSlotEnable_memWf h) (execCrlSlotDisable_memWf h)
  · exact answer_ite (execCrlBatchEnable_memWf h) (execCrlBatchDisable_memWf h)
  · exact execCtrWatchCfgWrite_memWf h
  · exact execWrpWheelWrite_memWf h
  · exact trivial

theorem supWrite_memWf {w : View} {off : Nat} {v : Word} {s : State} (h : s.memWf = true) : AnswerWf (supWrite w off v s) := by
  have hown : OwnRowWf (if off < 0x100000 then ownRowLow off v s else if off < 0x200000 then ownRowHdl off v s else ownRowHigh off v s)
    := by
    split
    · exact ownRowLow_memWf h
    · split
      · exact ownRowHdl_memWf h
      · exact ownRowHigh_memWf h
  unfold supWrite
  dsimp only
  split
  · rename_i o ho
    rw [ho] at hown
    exact hown
  · exact answer_ite (answer_next h) (answer_ite (answer_next (State.badAccess_memWf h))
      (answer_next (State.supStore_memWf (State.regTraffic_memWf h))))

theorem State.fnStore_memWf {s : State} {f : FnId} {o : Nat} {v : Word} (h : s.memWf = true) : (s.fnStore f o v).memWf = true :=
  State.ite_memWf (State.setFnReg_memWf h) h

theorem fnWinWrite_memWf {f : FnId} {o : Nat} {v : Word} {s : State} (h : s.memWf = true) : AnswerWf (fnWinWrite f o v s) := by
  unfold fnWinWrite
  split
  · exact answer_ite (execHdlFnCtxOpenGo_memWf h) (answer_next (State.fnStore_memWf h))
  · exact answer_ite (execHdlFnCtxCloseGo_memWf h) (answer_next (State.fnStore_memWf h))
  · split
    · exact execRingCreate_memWf h
    · exact execRingDestroy_memWf h
    · exact answer_next h
  · exact answer_ite (execFaultStatusAck_memWf h) (answer_next h)
  · split
    · exact execLatchTake_memWf h
    · exact execLatchRelease_memWf h
    · exact answer_next (State.fnStore_memWf h)
  · exact answer_next (State.fnStore_memWf h)

theorem State.msixStore_memWf {s : State} {f : IrqFn} {i : Nat} {v : Word} (h : s.memWf = true) : (s.msixStore f i v).memWf = true :=
  State.ite_memWf (State.ite_memWf (State.memWf_update h) (State.unmask_memWf h)) (State.ite_memWf (State.memWf_update h)
    (State.memWf_update h))

theorem execRegisterWrite_memWf {v : View} {off : Nat} {value : Word} {s : State} (h : s.memWf = true) :
    AnswerWf (execRegisterWrite v off value s) := by
  unfold execRegisterWrite
  refine answer_ite (answer_next h) ?_
  split
  · exact supWrite_memWf h
  · exact supWrite_memWf h
  · refine answer_ite ?_ ?_
    · generalize off - 0x1000000 = o
      exact fnWinWrite_memWf h
    · split
      · exact answer_next (State.msixStore_memWf h)
      · exact answer_next h
  · split
    · exact answer_next (State.msixStore_memWf h)
    · exact answer_next h
  · exact answer_next (State.ite_memWf (State.modWeft_memWf (fun _ hw => by simp [hw, Memory.wf_writeBytes]) h) h)

/-! ### Memories through `Machine/Jtag` -/

theorem State.pairLoad_memWf {s : State} {n a : Nat} (h : s.memWf = true) : AnswerWf (s.pairLoad n a) := by
  unfold State.pairLoad
  refine answer_ite (answer_next (State.answer_memWf (State.accessErr_memWf h))) ?_
  split
  · exact answer_next (State.answer_memWf h)
  · exact answer_next (State.answer_memWf h)
  · exact answer_fault

theorem State.pairStore_memWf {s : State} {n a : Nat} {v : Word} (h : s.memWf = true) : AnswerWf (s.pairStore n a v) := by
  unfold State.pairStore
  refine answer_ite (answer_next (State.accessErr_memWf h)) ?_
  split
  · exact answer_next (State.modPair_memWf (fun _ hp => by simp [hp, Memory.wf_writeBytes]) h)
  · exact answer_next (State.modPair_memWf (fun _ hp => by simp [hp, Memory.wf_writeBytes]) h)
  · exact answer_fault

theorem State.pairDebug_memWf {s : State} {n : Nat} {f : Pair → Pair} (h : s.memWf = true) (hf : ∀ p : Pair, (f p).memWf = p.memWf) :
    (s.pairDebug n f).memWf = true := State.ite_memWf (State.modPair_keeps hf h) (State.accessErr_memWf h)

theorem State.jtagRead_memWf {s : State} {off : Nat} (h : s.memWf = true) : (s.jtagRead off).memWf = true :=
  State.ite_memWf h (State.ite_memWf (State.answer_memWf (State.accessErr_memWf h)) (State.regRead_memWf h))

theorem State.scanned_memWf {s : State} (h : s.memWf = true) : s.scanned.memWf = true := State.answer_memWf (State.memWf_update h)

theorem jtagOpen_memWf {op : JtagOp} {chk : ReadChecks} {s : State} (h : s.memWf = true) : AnswerWf (jtagOpen op chk s) := by
  unfold jtagOpen
  split
  · exact answer_next (State.answer_memWf h)
  · exact answer_next (State.scanned_memWf h)
  · exact answer_next (State.scanned_memWf h)
  · exact answer_ite (execKprDbgDataRead_memWf h) (answer_next (State.jtagRead_memWf h))
  · exact answer_ite (answer_next h) (answer_ite (answer_next (State.accessErr_memWf h)) (supWrite_memWf h))
  · exact answer_ite (answer_next (State.dbgLoad_memWf h)) answer_fault
  · exact answer_ite (answer_next (State.dbgStore_memWf h)) answer_fault
  · exact State.pairLoad_memWf h
  · exact State.pairStore_memWf h
  · exact answer_next (State.pairDebug_memWf h (fun _ => rfl))
  · exact answer_next (State.pairDebug_memWf h (fun _ => rfl))
  · exact answer_next (State.pairDebug_memWf h (fun _ => rfl))
  · refine answer_next (State.ite_memWf ?_ (State.answer_memWf (State.accessErr_memWf h)))
    split
    · exact State.answer_memWf h
    · exact h

theorem execJtagAccess_memWf {op : JtagOp} {chk : ReadChecks} {s : State} (h : s.memWf = true) : AnswerWf (execJtagAccess op chk s) := by
  unfold execJtagAccess
  refine answer_ite (jtagOpen_memWf h) ?_
  split
  · exact answer_next (State.answer_memWf h)
  · exact answer_next (State.ite_memWf (State.jtagRead_memWf h) h)
  · exact answer_next (State.scanned_memWf h)
  · exact answer_next h
  · exact answer_next h
  · exact answer_next h
  · exact answer_next h
  · exact answer_next h
  · exact answer_next h
  · exact answer_next h
  · exact answer_next h
  · exact answer_next h
  · exact answer_next h

/-! ### Memories through `Machine/Dispatch` -/

/-- Every command keeps the memories canonical. -/
theorem exec_memWf {s : State} (h : s.memWf = true) : ∀ c : Instr, AnswerWf (exec c s)
  | .prsnt1Low => execPrsnt1Low_memWf h
  | .prsnt1DebounceExpiry => execPrsnt1DebounceExpiry_memWf h
  | .standbyRailUp => execStandbyRailUp_memWf h
  | .pwrEnRise _ _ _ _ => execPwrEnRise_memWf h
  | .railInRegulation => execRailInRegulation_memWf h
  | .powerGood => execPowerGood_memWf h
  | .bootVerified => execBootVerified_memWf h
  | .wakeNTimeout => execWakeNTimeout_memWf h
  | .pwrEnFall => execPwrEnFall_memWf h
  | .pwrEnLowTimeout => execPwrEnLowTimeout_memWf h
  | .powerDownStep => execPowerDownStep_memWf h
  | .offReached => execOffReached_memWf h
  | .inputUndervoltage => execInputUndervoltage_memWf h
  | .inputOvervoltage => execInputOvervoltage_memWf h
  | .prsnt1High => execPrsnt1High_memWf h
  | .removalDeclared => execRemovalDeclared_memWf h
  | .thermalWarning _ _ => execThermalWarning_memWf h
  | .thermalTrip _ _ => execThermalTrip_memWf h
  | .railFault => execRailFault_memWf h
  | .referenceLost => execReferenceLost_memWf h
  | .pllLockLoss _ => execPllLockLoss_memWf h
  | .pllRelock _ => execPllRelock_memWf h
  | .heartbeatMissing => execHeartbeatMissing_memWf h
  | .aliveToggle => execAliveToggle_memWf h
  | .perstAssert _ => execPerstAssert_memWf h
  | .perstDeassert _ => execPerstDeassert_memWf h
  | .hostLinkLoss _ => execHostLinkLoss_memWf h
  | .hostLinkUp _ _ _ _ _ => execHostLinkUp_memWf h
  | .hostLinkDegraded _ _ _ _ => execHostLinkDegraded_memWf h
  | .hostLinkRestored _ _ => execHostLinkRestored_memWf h
  | .hostLinkRecovery _ => execHostLinkRecovery_memWf h
  | .supervisorLinkLoss => execSupervisorLinkLoss_memWf h
  | .supervisorLinkUp _ => execSupervisorLinkUp_memWf h
  | .flr _ => execFlr_memWf h
  | .vfEnableClear _ => execVfEnableClear_memWf h
  | .msixVectorUnmask _ _ => execMsixVectorUnmask_memWf h
  | .syncInEdge _ _ => execSyncInEdge_memWf h
  | .syncOutRise => execSyncOutRise_memWf h
  | .syncOutFall => execSyncOutFall_memWf h
  | .smbusEepromRead _ _ _ _ => execSmbusEepromRead_memWf h
  | .jtagAccess _ _ => execJtagAccess_memWf h
  | .ptmDialogue _ _ => execPtmDialogue_memWf h
  | .gptpFrame _ _ => execGptpFrame_memWf h
  | .timeSourceFail => execTimeSourceFail_memWf h
  | .csi2FrameStart _ _ _ => execCsi2FrameStart_memWf h
  | .csi2LongPacket _ _ _ _ _ _ _ _ _ _ => execCsi2LongPacket_memWf h
  | .csi2FrameEnd _ _ _ => execCsi2FrameEnd_memWf h
  | .csi2PacketDiscard _ _ _ _ _ => execCsi2PacketDiscard_memWf h
  | .phyLinkLoss _ => execPhyLinkLoss_memWf h
  | .ethernetFrame _ _ _ _ _ => execEthernetFrame_memWf h
  | .holdCopyDone _ _ => execHoldCopyDone_memWf h
  | .batchCloseTimeout _ _ => execBatchCloseTimeout_memWf h
  | .substituteCopyDone _ _ _ _ => execSubstituteCopyDone_memWf h
  | .batchReady _ _ => execBatchReady_memWf h
  | .doorbellTail _ _ _ _ => execDoorbellTail_memWf h
  | .doorbellHead _ _ _ => execDoorbellHead_memWf h
  | .nop _ => execNop_memWf h
  | .nopFenceRelease _ => execNopFenceRelease_memWf h
  | .step _ _ _ => execStep_memWf h
  | .stepAdmission _ _ => execStepAdmission_memWf h
  | .batchWaitTimeout _ => execBatchWaitTimeout_memWf h
  | .draftLoad _ => execDraftLoad_memWf h
  | .draftLoadDone _ _ _ => execDraftLoadDone_memWf h
  | .draftUnload _ => execDraftUnload_memWf h
  | .draftUnloadDone _ => execDraftUnloadDone_memWf h
  | .recipeLoad _ _ _ => execRecipeLoad_memWf h
  | .recipeUnload _ => execRecipeUnload_memWf h
  | .inject _ _ _ => execInject_memWf h
  | .injectReadDone _ _ _ _ _ => execInjectReadDone_memWf h
  | .transfer _ => execTransfer_memWf h
  | .receive _ => execReceive_memWf h
  | .wakeRequest _ _ => execWakeRequest_memWf h
  | .wakeComplete _ _ => execWakeComplete_memWf h
  | .idleTimeout _ _ => execIdleTimeout_memWf h
  | .restTimeout _ _ => execRestTimeout_memWf h
  | .stateEntryDone _ _ => execStateEntryDone_memWf h
  | .rv64Instruction _ _ _ _ _ => execRv64Instruction_memWf h
  | .rdtime _ _ => execRdtime_memWf h
  | .ecall _ => execEcall_memWf h
  | .ebreak _ => execEbreak_memWf h
  | .lmOp _ _ _ => execLmOp_memWf h
  | .lmReed _ _ _ => execLmReed_memWf h
  | .lmFin _ _ _ => execLmFin_memWf h
  | .lmStage _ _ _ _ => execLmStage_memWf h
  | .lmEvict _ _ _ _ => execLmEvict_memWf h
  | .lmSpawn _ _ _ _ => execLmSpawn_memWf h
  | .lmWait _ _ => execLmWait_memWf h
  | .lmSync _ => execLmSync_memWf h
  | .lmHinge _ _ => execLmHinge_memWf h
  | .lmDec _ _ _ _ _ => execLmDec_memWf h
  | .lmEnc _ _ _ _ _ => execLmEnc_memWf h
  | .lmLacq _ _ _ => execLmLacq_memWf h
  | .lmLrel _ _ => execLmLrel_memWf h
  | .lmRd _ _ _ => execLmRd_memWf h
  | .queuedOpStart _ _ _ => execQueuedOpStart_memWf h
  | .gatherHoldExpiry _ _ => execGatherHoldExpiry_memWf h
  | .wholeBarrier => execWholeBarrier_memWf h
  | .arrayOpRetire _ _ _ _ => execArrayOpRetire_memWf h
  | .reedOpRetire _ _ _ => execReedOpRetire_memWf h
  | .finishOpRetire _ _ _ => execFinishOpRetire_memWf h
  | .stageCopyDone _ _ => execStageCopyDone_memWf h
  | .shuttleBudgetExpiry _ => execShuttleBudgetExpiry_memWf h
  | .hingeSaveDone _ => execHingeSaveDone_memWf h
  | .hingeRestoreDone _ => execHingeRestoreDone_memWf h
  | .stepFinish _ => execStepFinish_memWf h
  | .wardVerdict _ => execWardVerdict_memWf h
  | .resultWritesDone _ _ => execResultWritesDone_memWf h
  | .deadlineMonitorExpiry _ _ => execDeadlineMonitorExpiry_memWf h
  | .ageMonitorExpiry _ _ => execAgeMonitorExpiry_memWf h
  | .scrubLine _ _ => execScrubLine_memWf h
  | .gddr6Refresh _ _ => execGddr6Refresh_memWf h
  | .gddr6EdcFail _ _ _ _ => execGddr6EdcFail_memWf h
  | .transactionTimeout _ _ _ => execTransactionTimeout_memWf h
  | .warpFlitCrcFail _ => execWarpFlitCrcFail_memWf h
  | .warpE2eMismatch _ _ => execWarpE2eMismatch_memWf h
  | .warpLinkDown _ => execWarpLinkDown_memWf h
  | .warpLinkRetrainDone _ => execWarpLinkRetrainDone_memWf h
  | .warpRetrainTimeout _ => execWarpRetrainTimeout_memWf h
  | .gddr6TrainingDone _ _ => execGddr6TrainingDone_memWf h
  | .gddr6ZeroingDone _ => execGddr6ZeroingDone_memWf h
  | .moduleFrameStart => execModuleFrameStart_memWf h
  | .proofDue _ => execProofDue_memWf h
  | .proofRelease _ => execProofRelease_memWf h
  | .proofVerdict _ _ => execProofVerdict_memWf h
  | .selftestSliceStart _ => execSelftestSliceStart_memWf h
  | .sliceFallbackTimer _ => execSliceFallbackTimer_memWf h
  | .selftestSliceEnd _ _ => execSelftestSliceEnd_memWf h
  | .pairTestStart _ => execPairTestStart_memWf h
  | .pairTestDone _ _ => execPairTestDone_memWf h
  | .injectionDone _ _ => execInjectionDone_memWf h
  | .bootProofVerdict _ _ => execBootProofVerdict_memWf h
  | .ready _ => execReady_memWf h
  | .graceTimerExpiry _ => execGraceTimerExpiry_memWf h
  | .progressMonitorTrip _ _ _ _ _ => execProgressMonitorTrip_memWf h
  | .killComplete _ _ => execKillComplete_memWf h
  | .unitResetDone _ => execUnitResetDone_memWf h
  | .rungDeadlineExpiry _ => execRungDeadlineExpiry_memWf h
  | .isolationConfirmed _ => execIsolationConfirmed_memWf h
  | .dieInService _ => execDieInService_memWf h
  | .hdlFnCtxOpenGo _ _ => execHdlFnCtxOpenGo_memWf h
  | .hdlFnCtxCloseGo _ _ => execHdlFnCtxCloseGo_memWf h
  | .contextCloseDone _ => execContextCloseDone_memWf h
  | .ringCreate _ => execRingCreate_memWf h
  | .ringDestroy _ => execRingDestroy_memWf h
  | .latchTake _ _ => execLatchTake_memWf h
  | .latchRelease _ _ => execLatchRelease_memWf h
  | .faultStatusAck _ => execFaultStatusAck_memWf h
  | .hspRaisedAck _ _ => execHspRaisedAck_memWf h
  | .hspFirstClear => execHspFirstClear_memWf h
  | .hspActionKill _ => execHspActionKill_memWf h
  | .hspActionUnitReset _ => execHspActionUnitReset_memWf h
  | .hspActionDieReset _ => execHspActionDieReset_memWf h
  | .hspActionModuleReset => execHspActionModuleReset_memWf h
  | .tmbNonce => execTmbNonce_memWf h
  | .tmbToken => execTmbToken_memWf h
  | .tmbAttest => execTmbAttest_memWf h
  | .tmbLoadDraftKey => execTmbLoadDraftKey_memWf h
  | .tmbEraseDraftKey _ => execTmbEraseDraftKey_memWf h
  | .tmbEnrol => execTmbEnrol_memWf h
  | .kprBootInstall _ => execKprBootInstall_memWf h
  | .kprRollbackCommit => execKprRollbackCommit_memWf h
  | .kprDebugWrite _ => execKprDebugWrite_memWf h
  | .kprDbgDataRead _ => execKprDbgDataRead_memWf h
  | .kprDbgDataWrite _ => execKprDbgDataWrite_memWf h
  | .kprSafetyWrite _ => execKprSafetyWrite_memWf h
  | .hdlDeterminismWrite _ => execHdlDeterminismWrite_memWf h
  | .kprFrameWrite _ => execKprFrameWrite_memWf h
  | .kprFramePhaseWrite _ => execKprFramePhaseWrite_memWf h
  | .kprProofWrite _ => execKprProofWrite_memWf h
  | .kprStestWrite _ => execKprStestWrite_memWf h
  | .hspProgWinWrite _ _ => execHspProgWinWrite_memWf h
  | .hdlPartLoomWrite _ _ => execHdlPartLoomWrite_memWf h
  | .hdlPartMemWrite _ _ => execHdlPartMemWrite_memWf h
  | .hdlPartQuotaWrite _ _ => execHdlPartQuotaWrite_memWf h
  | .hdlPartLatchWrite _ _ => execHdlPartLatchWrite_memWf h
  | .hdlSchedGapWrite _ => execHdlSchedGapWrite_memWf h
  | .hdlSchedSaveWrite _ => execHdlSchedSaveWrite_memWf h
  | .hdlMirrorWrite _ _ => execHdlMirrorWrite_memWf h
  | .hdlGatherCtlWrite _ => execHdlGatherCtlWrite_memWf h
  | .hdlGatherGrpWrite _ _ => execHdlGatherGrpWrite_memWf h
  | .wrpWheelWrite _ _ _ _ => execWrpWheelWrite_memWf h
  | .crlSlotEnable _ _ => execCrlSlotEnable_memWf h
  | .crlSlotDisable _ _ => execCrlSlotDisable_memWf h
  | .crlBatchEnable _ _ => execCrlBatchEnable_memWf h
  | .crlBatchDisable _ _ => execCrlBatchDisable_memWf h
  | .ctrSelWrite _ _ _ => execCtrSelWrite_memWf h
  | .ctrWatchCfgWrite _ _ => execCtrWatchCfgWrite_memWf h
  | .registerLowWordRead _ _ => execRegisterLowWordRead_memWf h
  | .badRegisterAccess _ _ _ _ => execBadRegisterAccess_memWf h
  | .registerWrite _ _ _ => execRegisterWrite_memWf h
  | .inputTurnOn => execInputTurnOn_memWf h
  | .electronicBreakerTrip => execElectronicBreakerTrip_memWf h
  | .vfEnableSet _ _ _ => execVfEnableSet_memWf h
  | .poisonedBarWrite _ _ => execPoisonedBarWrite_memWf h
  | .flrComplete _ _ => execFlrComplete_memWf h
  | .transferDone _ _ => execTransferDone_memWf h
  | .inputPowerUpdate _ _ _ => execInputPowerUpdate_memWf h

/-! ### Memories through `Machine/Tick` -/

theorem loomRun_memWf {s : State} {d : Weft} (h : s.memWf = true) : (loomRun s d).memWf = true :=
  State.ite_memWf (bumpAon_memWf (countEv_memWf h)) h

theorem holdTick_memWf {s : State} (h : s.memWf = true) : (holdTick s).memWf = true := by
  unfold holdTick
  split
  · exact h
  · exact State.ite_memWf (State.holdClocks_memWf h) h

theorem checkTick_memWf {s : State} {d : Weft} (h : s.memWf = true) : (checkTick s d).memWf = true :=
  State.ite_memWf (bumpAon_memWf (countEv_memWf h)) h

theorem tickIdle_memWf {s : State} (h : s.memWf = true) : (tickIdle s).memWf = true :=
  State.ite_memWf h (State.tumblerTick_memWf (State.choose_memWf (State.retestNow_memWf (checkTick_memWf (checkTick_memWf
    (holdTick_memWf (loomRun_memWf (loomRun_memWf (bumpAon_memWf (countEv_memWf (State.memWf_update h)))))))))))

/-! ### Memories through `Machine/Step` -/

/-- The step lemma: a command, or a Tick clock, keeps the memories canonical. -/
theorem step_memWf {s : State} (h : s.memWf = true) : AnswerWf (step s) := by
  unfold step
  split
  · exact answer_next (tickIdle_memWf h)
  · exact exec_memWf (State.memWf_update h) _

end Machine

end Sys2Proof

namespace Sys2Proof

namespace Machine

/-! ### The invariants: every step keeps the memories canonical, and reset meets both -/

/-- Settles O58: the step lemma `step_memWf`, read off at the next state. -/
theorem memoryStaysCanonical : Obligations.MemoryStaysCanonical := by
  unfold Obligations.MemoryStaysCanonical
  intro s t hst h
  have ht := step_memWf h
  rw [hst] at ht
  exact ht

/-- Settles O59: the empty fuse box and the empty memories of the reset state. -/
theorem resetMeetsTheInvariants : Obligations.ResetMeetsTheInvariants := by
  unfold Obligations.ResetMeetsTheInvariants
  exact ⟨by unfold Security.fusesKept; decide, by decide, rfl⟩

end Machine

end Sys2Proof

namespace Sys2Proof

namespace Machine

-- One at a time: side by side, lemmas that wait for the checks before them each hold a thread and its stack.
set_option Elab.async false

/-! ### What register traffic leaves: counters and free values (R270) -/

/-- t is s but for counters and the free values drawn: what traffic over the links leaves. -/
def State.sameButDraws (t s : State) : Prop := State.sameButCounters { t with freshCtr := s.freshCtr } s

theorem State.sameButDraws.refl (s : State) : s.sameButDraws s := State.sameButCounters.refl s

theorem State.sameButDraws.trans {a b c : State} (h : a.sameButDraws b) (k : b.sameButDraws c) : a.sameButDraws c := by
  refine ⟨?_, fun o ho => (h.2 o ho).trans (k.2 o ho)⟩
  obtain ⟨h, -⟩ := h
  obtain ⟨k, -⟩ := k
  rw [← k, ← h]

theorem State.sameButDraws.foldl {α : Type} {f : State → α → State} (h : ∀ t x, (f t x).sameButDraws t) (l : List α) :
    ∀ s, (l.foldl f s).sameButDraws s := by
  induction l with
  | nil => exact fun s => .refl s
  | cons x l ih => exact fun s => (ih (f s x)).trans (h s x)

theorem State.sameButDraws.bus {t s : State} (h : t.sameButDraws s) : t.bus = s.bus := (congrArg (fun x : State => x.bus) h.1 :)

/-- Counting on a state that has drawn a free value. -/
theorem countEv_drawn_onlyDraws (s : State) (k : Nat) (e : Ev) (he : e.die < 3) :
    (countEv { s with freshCtr := k } e).sameButDraws s := by
  obtain ⟨h, hr⟩ := countEv_onlyCounters { s with freshCtr := k } e he
  refine ⟨?_, hr⟩
  have := congrArg (fun x : State => { x with freshCtr := s.freshCtr }) h
  exact this

theorem State.countFree_onlyDraws (s : State) (e : Ev) (he : e.die < 3) : (s.countFree e).sameButDraws s :=
  countEv_drawn_onlyDraws s _ _ he

theorem State.transfer_onlyDraws {src dst : Nat} (hs : src < 3) (hd : dst < 3) (e : Ev) (s : State) (n : Nat) :
    (s.transfer src dst e n).sameButDraws s := by
  simp only [State.transfer]
  split
  · exact .refl s
  next l _ =>
    exact ((State.countFree_onlyDraws _ _ hs).trans (State.countFree_onlyDraws _ _ hs)).trans
      ((countEv_drawn_onlyDraws _ _ _ hd).trans (countEv_drawn_onlyDraws s _ _ hs))

theorem State.controlWord_onlyDraws (s : State) (d : Weft) (write : Bool) (master : Nat) :
    (s.controlWord d write master).sameButDraws s := by
  have hd : dieNo d < 3 := by cases d <;> decide
  unfold State.controlWord State.wordTo State.linkBytes
  split
  · exact .foldl (State.transfer_onlyDraws (by decide) hd _) _ s
  · exact .foldl (State.transfer_onlyDraws hd (by decide) _) _ s

theorem State.regTraffic_onlyDraws (s : State) (v : View) (off : Nat) (write : Bool) : (s.regTraffic v off write).sameButDraws s := by
  unfold State.regTraffic
  split
  · exact State.controlWord_onlyDraws s _ _ _
  · exact .refl s

theorem State.sameButDraws.reads {t s : State} (h : t.sameButDraws s) : t.sameButReads s := by
  have hwa : t.wa = s.wa := (congrArg (fun x : State => x.wa) h.1 :)
  have hwb : t.wb = s.wb := (congrArg (fun x : State => x.wb) h.1 :)
  refine ⟨?_, fun d => ?_⟩
  · rw [← hwa, ← hwb]
    exact h
  · cases d
    · simp [State.weft, hwa]
    · simp [State.weft, hwb]

/-! ### Reads (R11, R555) -/

theorem State.missionOn_of_mission {s : State} (h : s.pwr.phase = .mission) : s.missionOn = true := by
  simp [State.missionOn, h]

/-- The supervisor's view and Keeper's are live in mission power. -/
theorem State.viewLive_of_mission {s : State} {v : View} (hv : v = .sup ∨ v = .keeper) (h : s.pwr.phase = .mission) :
    s.viewLive v = true := by
  obtain rfl | rfl := hv <;> exact State.missionOn_of_mission h

theorem State.valueAt_readSup {v : View} (hv : v = .sup ∨ v = .keeper) (s : State) (off : Nat) : s.valueAt v off = s.readSup off := by
  obtain rfl | rfl := hv <;> rfl

/-- An access that goes through reads the register. -/
theorem exec_registerLowWordRead {v : View} {off : Nat} {s : State} (hl : s.viewLive v = true) (ha : off % 4 = 0)
    (hd : ¬((v = .sup ∨ v = .keeper) ∧ off = 0x518)) : exec (.registerLowWordRead v off) s = .next (s.regRead v off) := by
  change execRegisterLowWordRead v off s = _
  simp [execRegisterLowWordRead, hd, hl, ha]

theorem State.regRead_of_latched {s : State} {v : View} {off : Nat} {w : Word} (h : lookupN s.bus.hiLatch (viewKey v off) = some w) :
    s.regRead v off = { s with bus := { s.bus with
      hiLatch := eraseN s.bus.hiLatch (viewKey v off), data := if s.latchOpen v off then w else 0 } } := by
  simp [State.regRead, h]

theorem State.regRead_of_unassigned {s : State} {v : View} {off : Nat} (h : lookupN s.bus.hiLatch (viewKey v off) = none)
    (hv : s.valueAt v off = none) : s.regRead v off = (s.answer 0).badAccess v off := by
  simp [State.regRead, h, hv]

/-- The bus after a read of the word w: a low word latches the high word beside it. -/
def State.busRead (s : State) (v : View) (off : Nat) (w : Word) : RegBus :=
  { s.bus with
    hiLatch := if isLow v off then insertN s.bus.hiLatch (viewKey v (off + 4)) ((s.valueAt v (off + 4)).getD 0) else s.bus.hiLatch
    data := w }

theorem State.regRead_of_value {s : State} {v : View} {off : Nat} {w : Word} (h : lookupN s.bus.hiLatch (viewKey v off) = none)
    (hv : s.valueAt v off = some w) : s.regRead v off = { s.regTraffic v off false with bus := s.busRead v off w } := by
  have hb := (s.regTraffic_onlyDraws v off false).bus
  simp only [State.regRead, h, hv, State.busRead, State.answer]
  split <;> simp [hb]

/-- Reading a word changes nothing but the bus and what the traffic leaves. -/
theorem State.regRead_frame (s : State) (v : View) (off : Nat) :
    State.sameButReads { s.regTraffic v off false with bus := s.bus } s ∧
      (s.regReaches v off = none → { s.regTraffic v off false with bus := s.bus } = s) := by
  have hu := s.regTraffic_onlyDraws v off false
  have hb : { s.regTraffic v off false with bus := s.bus } = s.regTraffic v off false := by rw [← hu.bus]
  rw [hb]
  exact ⟨hu.reads, fun hr => by simp [State.regTraffic, hr]⟩

/-! ### Accesses that are turned away (R12, R555) -/

/-- The bad-access source, raised while it is silent, captures the master and the address. -/
theorem State.badAccess_silent {s : State} (v : View) (off : Nat) (h : s.silent 0x000) :
    (s.badAccess v off).captured 0x000 (cap none (viewMaster v) 8 (BitVec.ofNat 64 off) 4) ∧ (s.badAccess v off).sameButHealth s := by
  obtain ⟨hs, hc, -⟩ := s.raise_silent 0x000 (cap none (viewMaster v) 8 (BitVec.ofNat 64 off) 4) h
  exact ⟨hc, hs⟩

/-- The same of a read, which answers a word as well. -/
theorem State.answer_badAccess_silent {s : State} (v : View) (off : Nat) (w : Word) (h : s.silent 0x000) :
    ((s.answer w).badAccess v off).bus.data = w ∧
      ((s.answer w).badAccess v off).captured 0x000 (cap none (viewMaster v) 8 (BitVec.ofNat 64 off) 4) ∧
      State.sameButHealth { (s.answer w).badAccess v off with bus := s.bus } s := by
  obtain ⟨hc, hs, hr⟩ := State.badAccess_silent (s := s.answer w) v off h
  exact ⟨congrArg (fun x : State => x.bus.data) hs, hc, congrArg (fun x : State => { x with bus := s.bus }) hs, hr⟩

theorem exec_badRegisterAccess_sup {v : View} (hv : v = .sup ∨ v = .keeper) {s : State} (hl : s.viewLive v = true) (kind : BadAccess)
    (off width : Nat) : exec (.badRegisterAccess v kind off width) s = .next (s.badSup v kind off width) := by
  change execBadRegisterAccess v kind off width s = _
  obtain rfl | rfl := hv <;> simp [execBadRegisterAccess, hl]

/-- A wrong width or alignment is turned away through every view that R12 names. -/
theorem exec_badRegisterAccess_of_badShape {v : View} {off width : Nat} {s : State}
    (hv : (v = .sup ∨ v = .keeper) ∧ ((regDie off).map s.dieHeld).getD false = false ∨ (∃ f, v = .fn f) ∧ fnAssigned off = true)
    (hl : s.viewLive v = true) (hb : width ≠ 4 ∨ off % 4 ≠ 0) (kind : BadAccess) :
    exec (.badRegisterAccess v kind off width) s = .next ((s.reply kind 0xFFFFFFFF#32).badAccess v off) := by
  have hs : badShape off width = true := by simpa [badShape] using hb
  obtain ⟨hv, hd⟩ | ⟨⟨f, rfl⟩, ha⟩ := hv
  · rw [exec_badRegisterAccess_sup hv hl]
    simp only [State.badSup, hd, hs, Bool.false_eq_true, if_false, if_true]
  · change execBadRegisterAccess (.fn f) kind off width s = _
    simp [execBadRegisterAccess, hl, ha, hs]

/-- A write of an unassigned offset of the supervisor view is turned away. -/
theorem State.badSup_of_unassigned {v : View} {off : Nat} {s : State} (ha : off % 4 = 0)
    (hd : ((regDie off).map s.dieHeld).getD false = false) (hr : s.readSup off = none) :
    s.badSup v .write off 4 = s.badAccess v off := by
  simp [State.badSup, hd, badShape, ha, hr, State.reply]

/-- A read of a reserved offset of a host's window answers 0. -/
theorem exec_badRegisterAccess_of_reserved {f : FnId} {off : Nat} {s : State} (hl : s.viewLive (.fn f) = true)
    (ha : fnAssigned off = false) (ho : off < 0x1010000) : exec (.badRegisterAccess (.fn f) .read off 4) s = .next (s.answer 0) := by
  change execBadRegisterAccess (.fn f) .read off 4 s = _
  simp [execBadRegisterAccess, hl, ha, Nat.not_le.mpr ho, State.reply]

/-- Settles O28: a read by what the latch and the offset hold, and an access turned away by its view and shape. -/
theorem registerReadsAnswerOrRaiseBadAccess : Obligations.RegisterReadsAnswerOrRaiseBadAccess := by
  unfold Obligations.RegisterReadsAnswerOrRaiseBadAccess
  refine ⟨?value, ?latched, ?unassigned, ?writeUnassigned, ?readShape, ?writeShape, ?reserved⟩
  case value =>
    intro v off w s hl ha hd hk hw
    obtain ⟨hf, hn⟩ := s.regRead_frame v off
    refine ⟨_, exec_registerLowWordRead hl ha hd, ?_⟩
    rw [State.regRead_of_value hk hw]
    exact ⟨rfl, rfl, fun h => by simp [State.busRead, h], fun h => by simp [State.busRead, h], hf, hn⟩
  case latched =>
    intro v off w s hl ha hd hk
    refine ⟨_, exec_registerLowWordRead hl ha hd, ?_⟩
    rw [State.regRead_of_latched hk]
    exact ⟨rfl, by simp [lookupN_eraseN], rfl⟩
  case unassigned =>
    intro v off s hv hm ha ho hk hr hs
    refine ⟨_, exec_registerLowWordRead (State.viewLive_of_mission hv hm) ha (fun h => ho h.2), ?_⟩
    rw [State.regRead_of_unassigned hk ((State.valueAt_readSup hv s off).trans hr)]
    exact State.answer_badAccess_silent v off 0 hs
  case writeUnassigned =>
    intro v off s hv hm ha hd hr hs
    refine ⟨_, exec_badRegisterAccess_sup hv (State.viewLive_of_mission hv hm) .write off 4, ?_⟩
    rw [State.badSup_of_unassigned ha hd hr]
    exact State.badAccess_silent v off hs
  case readShape =>
    intro v off width s hv hl hb hs
    exact ⟨_, exec_badRegisterAccess_of_badShape hv hl hb .read, State.answer_badAccess_silent v off 0xFFFFFFFF#32 hs⟩
  case writeShape =>
    intro v off width s hv hl hb hs
    exact ⟨_, exec_badRegisterAccess_of_badShape hv hl hb .write, State.badAccess_silent v off hs⟩
  case reserved =>
    intro f off s hl ha ho
    exact ⟨_, exec_badRegisterAccess_of_reserved hl ha ho, rfl, rfl⟩

end Machine

end Sys2Proof

namespace Sys2Proof

namespace Machine

-- One at a time: side by side, lemmas that wait for the checks before them each hold a thread and its stack.
set_option Elab.async false

/-! ### Writes (R13, R556, R331) -/

/-- A write of the supervisor's view, in mission power, goes where its register's row or fields say. -/
theorem exec_registerWrite_sup {off : Nat} {s : State} (hm : s.pwr.phase = .mission) (ha : off % 4 = 0) (w : Word) :
    exec (.registerWrite .sup off w) s = supWrite .sup off w s := by
  change execRegisterWrite .sup off w s = _
  simp [execRegisterWrite, State.viewLive_of_mission (.inl rfl) hm, ha]

/-- No register of Selvedge is reached over a link. -/
theorem State.regTraffic_of_selvedge {v : View} (hv : v = .sup ∨ v = .keeper) {off : Nat} (hd : regDie off = none) (s : State)
    (write : Bool) : s.regTraffic v off write = s := by
  obtain rfl | rfl := hv <;> simp [State.regTraffic, State.regReaches, hd]

/-- KPR, HSP, WRD and TMB are Selvedge's. -/
theorem regDie_of_low {off : Nat} (h : off < 0x100000) : regDie off = none := by
  simp [regDie, show ¬0x300000 ≤ off by omega, show ¬0x400000 ≤ off by omega, show ¬0x500000 ≤ off by omega,
    show ¬0x700000 ≤ off by omega, show ¬0x700030 ≤ off by omega]

/-- A register of Selvedge in KPR, HSP, WRD or TMB without a row of its own takes the write by its fields. -/
theorem supWrite_of_low {off : Nat} {s : State} {w : Word} (ho : off < 0x100000) (hown : ownRowLow off w s = none)
    (hr : (s.readSup off).isSome = true) : supWrite .sup off w s = .next (s.supStore off w) := by
  have hd := regDie_of_low ho
  simp [supWrite, ho, hown, hd, Option.isNone_eq_false_iff.mpr hr, State.regTraffic_of_selvedge (.inl rfl) hd]

/-- The same store goes through both views to an assigned register of Selvedge. -/
theorem supWrite_keeper {off : Nat} {s : State} (hd : regDie off = none) (hr : (s.readSup off).isSome = true) (w : Word) :
    supWrite .keeper off w s = supWrite .sup off w s := by
  simp only [supWrite, Option.isNone_eq_false_iff.mpr hr, State.regTraffic_of_selvedge (.inl rfl) hd,
    State.regTraffic_of_selvedge (.inr rfl) hd, Bool.false_eq_true, if_false]

theorem exec_registerWrite_keeper {off : Nat} {s : State} (hd : regDie off = none) (hr : (s.readSup off).isSome = true) (w : Word) :
    exec (.registerWrite .keeper off w) s = exec (.registerWrite .sup off w) s := by
  change execRegisterWrite .keeper off w s = execRegisterWrite .sup off w s
  simp only [execRegisterWrite, supWrite_keeper hd hr]
  rfl

theorem idxIn_of_lt {off base : Nat} (h : off < base) (stride n : Nat) : idxIn off base stride n = none := by
  simp [idxIn, Nat.not_le.mpr h]

theorem oSrcCfg_bounds {n : Nat} (hn : n < 768) : 0x40000 ≤ oSrcCfg n ∧ oSrcCfg n < 0x40C00 := by
  simp only [oSrcCfg]
  omega

theorem idxIn_oSrcCfg {n : Nat} (hn : n < 768) : idxIn (oSrcCfg n) 0x40000 4 768 = some n := by
  simp [idxIn, hn]

/-- HSP_SRC_CFG_n is assigned. -/
theorem State.readSup_srcCfg (s : State) {n : Nat} (hn : n < 768) : (s.readSup (oSrcCfg n)).isSome = true := by
  obtain ⟨hlo, hhi⟩ := oSrcCfg_bounds hn
  have ha : oSrcCfg n % 4 = 0 := by simp only [oSrcCfg]; omega
  have hd : regDie (oSrcCfg n) = none := regDie_of_low (by omega)
  generalize oSrcCfg n = off at hlo hhi ha hd ⊢
  have hi : (regInfo off).isSome = true := by
    simp [regInfo, ha, Nat.not_lt.mpr hlo, hhi]
  have hk : s.readHsp off = s.kept off := by
    simp [State.readHsp, idxIn_of_lt, hhi, show off < 0x40C80 by omega, show off < 0x41000 by omega, show off < 0x48000 by omega,
      show off ≠ 0x40D30 by omega, show off ≠ 0x40D40 by omega]
  simp [State.readSup, hd, State.readBlock, show ¬off < 0x200 by omega, Nat.not_lt.mpr hlo, show off < 0x80000 by omega, hk,
    State.kept, hi]

/-- HSP_SRC_CFG_n has no row of its own. -/
theorem ownRowLow_srcCfg {n : Nat} (hn : n < 768) (w : Word) (s : State) : ownRowLow (oSrcCfg n) w s = none := by
  obtain ⟨hlo, hhi⟩ := oSrcCfg_bounds hn
  generalize oSrcCfg n = off at hlo hhi ⊢
  unfold ownRowLow
  split
  -- every row with an offset of its own lies outside the range
  any_goals omega
  simp only [idxIn_of_lt hhi, idxIn_of_lt (show off < 0x40D10 by omega)]

/-- HSP_SRC_CFG_n takes every bit but 15. -/
theorem State.supStore_srcCfg (s : State) {n : Nat} (hn : n < 768) (w : Word) :
    s.supStore (oSrcCfg n) w = s.setReg (oSrcCfg n) (w &&& 0xFFFF7FFF#32) := by
  obtain ⟨hlo, hhi⟩ := oSrcCfg_bounds hn
  have h := idxIn_oSrcCfg hn
  generalize oSrcCfg n = off at hlo hhi h ⊢
  simp [State.supStore, State.hspStore, h, Nat.not_lt.mpr hlo, show off < 0x100000 by omega]

/-- HDL_FN_EVENT takes a write by its fields. -/
theorem exec_registerWrite_fnEvent {f : FnId} {s : State} (hl : s.viewLive (.fn f) = true) (w : Word) :
    exec (.registerWrite (.fn f) 0x1000060 w) s = .next (s.fnStore f 0x60 w) := by
  change execRegisterWrite (.fn f) 0x1000060 w s = _
  simp [execRegisterWrite, hl, fnWinWrite]

/-- The staging window stores four bytes in die A's Beam SRAM in Recovery (R332). -/
theorem exec_registerWrite_staging {off : Nat} {s : State} (hm : s.pwr.phase = .mission) (hr : s.pwr.recovery = true)
    (ha : off % 4 = 0) (ho : off < 0x1000000) (w : Word) :
    exec (.registerWrite .supStaging off w) s =
      .next { s with wa := { s.wa with beam := s.wa.beam.writeBytes off (leBytes 4 w.toNat) } } := by
  change execRegisterWrite .supStaging off w s = _
  simp [execRegisterWrite, State.viewLive, State.missionOn_of_mission hm, ha, hr, ho, State.modWeft]

/-- Settles O29: each write by the row or the fields of its register, Keeper's by the supervisor's. -/
theorem registerWritesFollowTheirFields : Obligations.RegisterWritesFollowTheirFields := by
  unfold Obligations.RegisterWritesFollowTheirFields
  refine ⟨?kpr, ?srcCfg, ?keeper, ?fn, ?staging⟩
  case kpr =>
    intro v s hm
    refine ⟨⟨_, ?_, s.sets_setReg oDbgLo v⟩, ⟨_, ?_, s.sets_setReg oSyncPhase (v &&& 0xFFFFF#32)⟩,
      ⟨_, ?_, s.sets_setReg oSyncStatus (s.reg oSyncStatus &&& ~~~v)⟩, ?_⟩
    all_goals
      rw [exec_registerWrite_sup hm (by decide), supWrite_of_low (by decide) rfl rfl]
      rfl
  case srcCfg =>
    intro n v s hm hn
    refine ⟨_, ?_, s.sets_setReg (oSrcCfg n) (v &&& 0xFFFF7FFF#32)⟩
    rw [exec_registerWrite_sup hm (by simp only [oSrcCfg]; omega), supWrite_of_low (by simp only [oSrcCfg]; omega) (ownRowLow_srcCfg hn v s)
      (s.readSup_srcCfg hn), s.supStore_srcCfg hn]
  case keeper =>
    intro off v s
    cases hr : s.readSup off with
    | none => exact .inr (.inl rfl)
    | some w =>
      cases hd : regDie off with
      | some d => exact .inr (.inr rfl)
      | none => exact .inl (exec_registerWrite_keeper hd (by simp [hr]) v)
  case fn =>
    intro f v s hl
    refine ⟨_, exec_registerWrite_fnEvent hl v, ?_, rfl⟩
    have hk : fnKept 0x60 = true := by decide
    simp [State.fnStore, hk, State.fnReg_setFnReg, fnMask]
  case staging =>
    intro off v s hm hr ha ho hw
    refine ⟨_, exec_registerWrite_staging hm hr ha ho v, fun a => ?_, rfl, rfl⟩
    exact Memory.read_writeBytes _ _ _ _ hw

end Machine

end Sys2Proof

namespace Sys2Proof

namespace Machine

/-! ### Transfers and unloads of a mirror target (R317): the record has entry 0 -/

/-- A mirror target context on host port A. -/
def targetCtx : Ctx :=
  { id := 1, fn := { port := .hostA, num := 0 }, lc := false, role := .mirrorTarget, version := 3, counterGrant := false, save64k := 0,
    saveA := 0, saveB := 0, latchBase := 0, latchCount := 0, spillAddr := 0, spillLen := 0, stepCounter := 0, closing := false, bound := [] }

/-- A descriptor of that context of a type, which names draft table entry 5. -/
def targetDesc (type : Byte) : ReadDesc :=
  { seq := 0, ctx := 1, ring := 0, slot := 0, time := 0, bytes := type :: 0 :: 5 :: List.replicate 61 0 }

/-- An entry 5 without weights. -/
def targetEntry (x : EntryState) : Entry :=
  { index := 5, partition := 0, state := x, draft := parseDraft [] [], baseA := 0, baseB := 0 }

/-- A submission ring of the context, and its completion ring, which is full. -/
def targetRings : List Ring :=
  [{ ctx := 1, index := 0, completion := false, base := 0, log2 := 4, cq := 1, vector := 0, head := 0, tail := 1, read := 1, done := [],
     phase := true, held := [] },
   { ctx := 1, index := 1, completion := true, base := 0, log2 := 4, cq := 0, vector := 0, head := 0, tail := 15, read := 0, done := [],
     phase := true, held := [] }]

/-- The block with host link A up and that context, its rings and its entry. -/
def targetState (x : EntryState) : State :=
  { State.reset with
    portA := { PortSt.reset with up := true }
    ctxs := [targetCtx]
    rings := targetRings
    drafts := [targetEntry x] }

/-- A full completion ring holds the record that falls due. -/
theorem State.recordDue.held {t s : State} {cx : Ctx} {c : Completion} (h : t.recordDue s cx c) {r cr : Ring}
    (hr : s.ring? cx.id c.ring = some r) (hcr : s.ring? cx.id r.cq = some cr) (hp : (s.hport cx.fn.port).carries = true)
    (hf : cr.full = true) : (t.ring? cx.id r.cq).map (fun x => x.held) = some (cr.held ++ [c]) :=
  ((h r cr hr hcr hp).2 (.inl hf)).1

/-- The posted TRANSFER of a mirror target, with no bytes to copy. -/
def targetTransfer : State := { targetState .loaded with posted := [targetDesc 7] }

/-- The unload under way of a mirror target. -/
def targetUnload : State := { targetState .unloading with loadBusy := some (targetDesc 3) }

/-- The completion ring's held records after a command. -/
def heldAfter (i : Instr) (s : State) : Option (List Completion) :=
  match exec i s with
  | .next t => (t.ring? 1 1).map (fun x => x.held)
  | .fault _ => none
  | .refused _ => none

theorem heldAfter_eq {i : Instr} {s t : State} (h : exec i s = .next t) : heldAfter i s = (t.ring? 1 1).map (fun x => x.held) := by
  simp only [heldAfter, h]

theorem heldAfter_targetTransfer :
    heldAfter (.transferDone 1 { fixed := [], hit := none }) targetTransfer = some [{ (targetDesc 7).completion 0 0 with entry := 0 }] := by
  decide +kernel

theorem heldAfter_targetUnload : heldAfter (.draftUnloadDone 1) targetUnload = some [{ (targetDesc 3).completion 0 0 with entry := 0 }] := by
  decide +kernel

/-- Refutes O40: a TRANSFER posted by a mirror target completes with entry 0 in its record (R317), not with the entry it names; the clause
on TRANSFER_DONE does not exclude that role. -/
theorem not_nopReceiveAndTransferDescriptors : ¬ Obligations.NopReceiveAndTransferDescriptors := by
  unfold Obligations.NopReceiveAndTransferDescriptors
  rintro ⟨-, -, -, -, -, -, -, -, hdone, -⟩
  obtain ⟨t, u, ht, hdue, -, -, -, hrings, hu, -⟩ :=
    hdone 1 targetCtx (targetDesc 7) (targetEntry .loaded) [] targetTransfer rfl rfl rfl ⟨rfl, rfl, rfl⟩ rfl rfl rfl
  obtain ⟨⟨hu, -⟩, -⟩ := hu
  have hport : u.portA = targetTransfer.portA := (congrArg State.portA hu :)
  have hring : ∀ i, u.ring? 1 i = targetTransfer.ring? 1 i := fun i => by simp only [State.ring?, hrings]
  have hheld := hdue.held (hring 0) (hring 1) (congrArg PortSt.carries hport) rfl
  have hrun := (heldAfter_eq ht).symm.trans heldAfter_targetTransfer
  exact absurd (hheld.symm.trans hrun) (by decide)

/-- Refutes O41: an unload of a mirror target completes with entry 0 in its record (R317), not with the entry it frees; the clause on
DRAFT_UNLOAD_DONE does not exclude that role. -/
theorem not_draftsLoadAndUnload : ¬ Obligations.DraftsLoadAndUnload := by
  unfold Obligations.DraftsLoadAndUnload
  rintro ⟨-, -, -, -, -, -, -, -, -, hdone, -⟩
  obtain ⟨t, ht, -, -, -, hdue, -⟩ :=
    hdone 1 5 targetCtx (targetDesc 3) (targetEntry .unloading) targetUnload rfl rfl rfl rfl rfl rfl rfl rfl rfl rfl
      (fun _ h => nomatch h) rfl rfl rfl
  have hheld := hdue.held rfl rfl rfl rfl
  have hrun := (heldAfter_eq ht).symm.trans heldAfter_targetUnload
  exact absurd (hheld.symm.trans hrun) (by decide)

end Machine

end Sys2Proof

namespace Sys2Proof

namespace Machine

set_option Elab.async false

/-! ### What counting leaves, and what Creel's writes leave -/

theorem dieNo_lt (d : Weft) : dieNo d < 3 := by cases d <;> decide

theorem State.sameButDraws.of_counters {t s : State} (h : t.sameButCounters s) : t.sameButDraws s := by
  have hk : t.freshCtr = s.freshCtr := (congrArg (fun x : State => x.freshCtr) h.1 :)
  unfold State.sameButDraws
  rw [← hk]
  exact h

theorem State.sameButDraws.reg {t s : State} (h : t.sameButDraws s) {o : Nat} (ho : isOverflowReg o = false) : t.reg o = s.reg o := h.2 o ho

/-- A state that differs in counters and draws alone, written out. -/
theorem State.sameButDraws.eq {t s : State} (h : t.sameButDraws s) :
    t = { s with regs := t.regs, ctr := t.ctr, mon := t.mon, freshCtr := t.freshCtr } := by
  have h1 := h.1
  conv_rhs => rw [← h1]

theorem State.progress_onlyDraws (s : State) (k : Nat) : (s.progress k).sameButDraws s := ⟨rfl, fun _ _ => rfl⟩

theorem bumpAon_onlyDraws (s : State) (d j n : Nat) (hd : d < 3) : (bumpAon s d j n).sameButDraws s := .of_counters (bumpAon_onlyCounters s d j n hd)

theorem countEv_onlyDraws (s : State) (e : Ev) (he : e.die < 3) : (countEv s e).sameButDraws s := .of_counters (countEv_onlyCounters s e he)

theorem State.linkBytes_onlyDraws {src dst : Nat} (hs : src < 3) (hd : dst < 3) (s : State) (e : Ev) (n : Nat) :
    (s.linkBytes src dst e n).sameButDraws s := .foldl (State.transfer_onlyDraws hs hd e) _ s

theorem State.tracked_onlyDraws {d : Nat} (hd : d < 3) (s : State) (e : Ev) : (s.tracked d e).sameButDraws s := State.countFree_onlyDraws s _ hd

theorem State.beamBytes_onlyDraws (s : State) (d : Weft) (write : Bool) (off n : Nat) (e : Ev) :
    (s.beamBytes d write off n e).sameButDraws s := countEv_onlyDraws s _ (dieNo_lt d)

theorem State.gddrBytes_onlyDraws (s : State) (d : Weft) (write : Bool) (off n : Nat) (e : Ev) :
    (s.gddrBytes d write off n e).sameButDraws s :=
  (bumpAon_onlyDraws _ _ _ _ (dieNo_lt d)).trans ((State.tracked_onlyDraws (dieNo_lt d) _ e).trans
    (.foldl (fun u _ => countEv_onlyDraws u _ (dieNo_lt d)) _ s))

theorem State.slotEv_onlyDraws (s : State) (code k n : Nat) (addr : Option (Nat × Nat)) : (s.slotEv code k n addr).sameButDraws s :=
  countEv_onlyDraws s _ (by simp [Ev.plain])

/-- t is s but for counters, draws and the dies. -/
def State.sameButDies (t s : State) : Prop := State.sameButDraws { t with wa := s.wa, wb := s.wb } s

theorem State.sameButDies.refl (s : State) : s.sameButDies s := State.sameButDraws.refl s

theorem State.sameButDies.trans {a b c : State} (h : a.sameButDies b) (k : b.sameButDies c) : a.sameButDies c := by
  refine ⟨?_, fun o ho => (h.2 o ho).trans (k.2 o ho)⟩
  obtain ⟨h, -⟩ := h
  obtain ⟨k, -⟩ := k
  rw [← k, ← h]

theorem State.sameButDies.foldl {α : Type} {f : State → α → State} (h : ∀ t x, (f t x).sameButDies t) (l : List α) :
    ∀ s, (l.foldl f s).sameButDies s := by
  induction l with
  | nil => exact fun s => .refl s
  | cons x l ih => exact fun s => (ih (f s x)).trans (h s x)

theorem State.sameButDraws.dies {t s : State} (h : t.sameButDraws s) : t.sameButDies s := by
  refine ⟨?_, h.2⟩
  have h1 := h.1
  conv_rhs => rw [← h1]
  conv_lhs => rw [← h1]

theorem State.modWeft_onlyDies (s : State) (d : Weft) (f : WeftDie → WeftDie) : (s.modWeft d f).sameButDies s := by
  cases d <;> exact ⟨rfl, fun _ _ => rfl⟩

theorem State.sameButDies.slots {t s : State} (h : t.sameButDies s) : t.slots = s.slots := (congrArg (fun x : State => x.slots) h.1 :)

theorem State.sameButDies.batches {t s : State} (h : t.sameButDies s) : t.batches = s.batches := (congrArg (fun x : State => x.batches) h.1 :)

theorem State.creelPut_onlyDies (s : State) (k off : Nat) (i : Instance) (onA onB : List Byte) : (s.creelPut k off i onA onB).sameButDies s := by
  have hcounts : ∀ u : State, ((((u.linkBytes 0 1 (slotAccess k) onA.length).linkBytes 0 2 (slotAccess k) onB.length).beamBytes .a true
      (i.baseA + off) onA.length (slotAccess k)).beamBytes .b true (i.baseB + off) onB.length (slotAccess k)).sameButDraws u := fun u =>
    (State.beamBytes_onlyDraws _ _ _ _ _ _).trans ((State.beamBytes_onlyDraws _ _ _ _ _ _).trans
      ((State.linkBytes_onlyDraws (by decide) (by decide) _ _ _).trans (State.linkBytes_onlyDraws (by decide) (by decide) u _ _)))
  exact ((State.slotEv_onlyDraws _ _ _ _ _).trans (hcounts _)).dies.trans
    ((State.modWeft_onlyDies _ .b _).trans (State.modWeft_onlyDies s .a _))

theorem State.putRow_onlyDies (s : State) (b : Nat) (i : Instance) (q k : Nat) (rec : Recipe) (cb : Codebook) (r scale : Nat)
    (codes : List Nat) : (s.putRow b i q k rec cb r scale codes).sameButDies s :=
  (State.creelPut_onlyDies _ _ _ _ _ _).trans (State.creelPut_onlyDies s _ _ _ _ _)

theorem State.zeroPos_onlyDies (s : State) (b : Nat) (i : Instance) (q k : Nat) (rec : Recipe) : (s.zeroPos b i q k rec).sameButDies s :=
  .foldl (fun _ _ => State.putRow_onlyDies _ _ _ _ _ _ _ _ _ _) _ s

theorem State.copyBytes_onlyDies (k : Nat) (s : State) (x : Weft × Nat × Nat × Nat) : (State.copyBytes k s x).sameButDies s :=
  ((State.beamBytes_onlyDraws _ _ _ _ _ _).trans (State.beamBytes_onlyDraws s _ _ _ _ _)).dies

theorem State.toHold_onlyDies (s : State) (k b : Nat) (i : Instance) (q : Nat) (rec : Recipe) (half : Bool) :
    (s.toHold k b i q rec half).sameButDies s :=
  (State.sameButDies.foldl (fun _ _ => (State.copyBytes_onlyDies _ _ _).trans (State.copyBytes_onlyDies _ _ _)) _ _).trans
    ((State.modWeft_onlyDies _ _ _).trans (State.modWeft_onlyDies s _ _))

theorem State.fromHold_onlyDies (s : State) (k b : Nat) (i : Instance) (q : Nat) (rec : Recipe) (h : Hold) :
    (s.fromHold k b i q rec h).sameButDies s :=
  (State.sameButDies.foldl (fun _ _ => (State.copyBytes_onlyDies _ _ _).trans (State.copyBytes_onlyDies _ _ _)) _ _).trans
    ((State.modWeft_onlyDies _ _ _).trans (State.modWeft_onlyDies s _ _))

end Machine

end Sys2Proof

namespace Sys2Proof

namespace Machine

set_option Elab.async false

/-! ### What records leave -/

@[simp] theorem bumpProg_mon (s : State) (d i n : Nat) : (bumpProg s d i n).mon = s.mon := by
  simp only [bumpProg]
  split <;> rfl

@[simp] theorem bumpAon_mon (s : State) (d j n : Nat) : (bumpAon s d j n).mon = s.mon := by
  simp only [bumpAon]
  split <;> rfl

@[simp] theorem countEv_mon (s : State) (e : Ev) : (countEv s e).mon = s.mon := by
  have one : ∀ (l : List Nat) (t : State), (l.foldl (fun t i => if ctrMatches s i e.listed then bumpProg t e.die i e.amount else t) t).mon
      = t.mon := by
    intro l
    induction l with
    | nil => exact fun t => rfl
    | cons i l ih => exact fun t => (ih _).trans (by dsimp only; split <;> simp)
  exact one _ s

theorem State.sameButRecords.refl (s : State) : s.sameButRecords s := ⟨rfl, fun _ _ => rfl⟩

theorem State.sameButRecords.trans {a b c : State} (h : a.sameButRecords b) (k : b.sameButRecords c) : a.sameButRecords c := by
  refine ⟨?_, fun o ho => (h.2 o ho).trans (k.2 o ho)⟩
  obtain ⟨h, -⟩ := h
  obtain ⟨k, -⟩ := k
  rw [← k, ← h]

theorem State.sameButRecords.of_counters {t s : State} (h : t.sameButCounters s) (hm : t.mon = s.mon) : t.sameButRecords s := by
  refine ⟨?_, h.2⟩
  have h1 := h.1
  rw [← hm] at h1
  conv_rhs => rw [← h1]
  conv_lhs => rw [← h1]

theorem State.modRing_onlyRecords (s : State) (c r : Nat) (f : Ring → Ring) : (s.modRing c r f).sameButRecords s := ⟨rfl, fun _ _ => rfl⟩

theorem countEv_onlyRecords (s : State) (e : Ev) (he : e.die < 3) : (countEv s e).sameButRecords s :=
  .of_counters (countEv_onlyCounters s e he) (countEv_mon s e)

theorem bumpAon_onlyRecords (s : State) (d j n : Nat) (hd : d < 3) : (bumpAon s d j n).sameButRecords s :=
  .of_counters (bumpAon_onlyCounters s d j n hd) (bumpAon_mon s d j n)

theorem sendMsix_onlyRecords (s : State) (f : IrqFn) (v : Nat) : (sendMsix s f v).sameButRecords s := by
  simp only [sendMsix]
  split
  · exact .refl s
  · split
    · exact (countEv_onlyRecords _ _ (by simp [Ev.plain])).trans ⟨rfl, fun _ _ => rfl⟩
    · exact ⟨rfl, fun _ _ => rfl⟩

theorem hostWrite_onlyRecords (s : State) (p : HostPort) (m : Byte) (c : Nat) (lc : Bool) (a : Nat) (bs : List Byte) :
    (hostWrite s p m c lc a bs).sameButRecords s := by
  unfold hostWrite
  split
  · exact .refl s
  · refine (countEv_onlyRecords _ _ (by simp [Ev.plain])).trans ((bumpAon_onlyRecords _ _ _ _ (by decide)).trans ?_)
    cases p <;> exact ⟨rfl, fun _ _ => rfl⟩

theorem writeRecord_onlyRecords (s : State) (cx : Ctx) (cr : Ring) (c : Completion) : (writeRecord s cx cr c).sameButRecords s := by
  have hdone : (if c.event then s else s.modRing cx.id c.ring (fun r => r.complete c.slot)).sameButRecords s := by
    split
    · exact .refl s
    · exact State.modRing_onlyRecords s _ _ _
  simp only [writeRecord]
  split
  · exact (sendMsix_onlyRecords _ _ _).trans ((State.modRing_onlyRecords _ _ _ _).trans ((hostWrite_onlyRecords _ _ _ _ _ _ _).trans hdone))
  · exact (State.modRing_onlyRecords _ _ _ _).trans ((hostWrite_onlyRecords _ _ _ _ _ _ _).trans hdone)

theorem dueRecord_onlyRecords (s : State) (cx : Ctx) (cr : Ring) (c : Completion) : (dueRecord s cx cr c).sameButRecords s := by
  unfold dueRecord
  split
  · exact State.modRing_onlyRecords s _ _ _
  · exact writeRecord_onlyRecords s _ _ _

theorem bumpPart_onlyRecords (s : State) (p k : Nat) : (bumpPart s p k).sameButRecords s := ⟨rfl, fun _ _ => rfl⟩

theorem completeDesc_onlyRecords (s : State) (n : Nat) (c : Completion) : (completeDesc s n c).sameButRecords s := by
  unfold completeDesc
  split
  · exact .refl s
  next cx _ =>
    have hcount : (if c.status = 0x13 then bumpPart s cx.part 7 else s).sameButRecords s := by
      split
      · exact bumpPart_onlyRecords s _ _
      · exact .refl s
    simp only
    generalize (if c.status = 0x13 then bumpPart s cx.part 7 else s) = s0 at hcount ⊢
    split
    · exact hcount
    · split
      · exact hcount
      · split
        · exact hcount
        · exact (dueRecord_onlyRecords _ _ _ _).trans hcount

theorem State.sameButRecords.eq {t s : State} (h : t.sameButRecords s) :
    t = { s with rings := t.rings, hostMemA := t.hostMemA, hostMemB := t.hostMemB, msix := t.msix, ctr := t.ctr, regs := t.regs } := by
  have h1 := h.1
  conv_rhs => rw [← h1]

end Machine

end Sys2Proof

namespace Sys2Proof

namespace Machine

set_option Elab.async false

/-! ### Slots and instances: a read after an update -/

theorem getElem?_modAt {α : Type} (l : List α) (i j : Nat) (f : α → α) : (modAt l i f)[j]? = if j = i then l[i]?.map f else l[j]? := by
  unfold modAt
  split
  next h =>
    split
    next hj => rw [hj, h]; rfl
    next => rfl
  next a h =>
    have hi : i < l.length := (List.getElem?_eq_some_iff.mp h).1
    split
    next hj => rw [hj, h]; simp [hi]
    next hj => simp [Ne.symm hj]

@[simp] theorem length_modAt {α : Type} (l : List α) (i : Nat) (f : α → α) : (modAt l i f).length = l.length := by
  unfold modAt
  split <;> simp

theorem modAt_modAt {α : Type} (l : List α) (i : Nat) (f g : α → α) : modAt (modAt l i f) i g = modAt l i (fun x => g (f x)) := by
  refine List.ext_getElem? fun j => ?_
  simp only [getElem?_modAt, if_true, Option.map_map]
  split <;> rfl

/-- Giving a member back what it is changes nothing. -/
theorem modAt_of_eq {α : Type} {l : List α} {i : Nat} {f : α → α} (h : ∀ a, l[i]? = some a → f a = a) : modAt l i f = l := by
  refine List.ext_getElem? fun j => ?_
  rw [getElem?_modAt]
  split
  next hj =>
    subst hj
    cases ha : l[j]? with
    | none => rfl
    | some a => simp [h a ha]
  next => rfl

theorem State.slot_modSlot {s : State} {k : Nat} (hk : k < s.slots.length) (f : Slot → Slot) (j : Nat) :
    (s.modSlot k f).slot j = if j = k then f (s.slot k) else s.slot j := by
  simp only [State.slot, State.modSlot, getElem?_modAt]
  split <;> simp [hk]

theorem State.slot_modSlot_self {s : State} {k : Nat} (hk : k < s.slots.length) (f : Slot → Slot) : (s.modSlot k f).slot k = f (s.slot k) := by
  rw [State.slot_modSlot hk, if_pos rfl]

theorem State.slot_modSlot_ne (s : State) {k j : Nat} (f : Slot → Slot) (h : j ≠ k) : (s.modSlot k f).slot j = s.slot j := by
  simp only [State.slot, State.modSlot, getElem?_modAt, if_neg h]

@[simp] theorem State.length_modSlot (s : State) (k : Nat) (f : Slot → Slot) : (s.modSlot k f).slots.length = s.slots.length := length_modAt _ _ _

theorem State.modSlot_modSlot (s : State) (k : Nat) (f g : Slot → Slot) : (s.modSlot k f).modSlot k g = s.modSlot k (fun x => g (f x)) := by
  simp only [State.modSlot, modAt_modAt]

theorem State.modSlot_of_eq {s : State} {k : Nat} {f : Slot → Slot} (h : f (s.slot k) = s.slot k) : s.modSlot k f = s := by
  have : modAt s.slots k f = s.slots := modAt_of_eq fun a ha => by simpa [State.slot, ha] using h
  simp only [State.modSlot, this]

/-- A slot beyond the table reads as one that is not bound. -/
theorem State.slot_of_le {s : State} {k : Nat} (h : s.slots.length ≤ k) : s.slot k = Slot.reset := by
  simp [State.slot, List.getElem?_eq_none h]

theorem State.lt_of_open {s : State} {k : Nat} {sm : Sample} (h : (s.slot k).phase = .open sm) : k < s.slots.length := by
  by_contra hk
  rw [State.slot_of_le (Nat.le_of_not_lt hk)] at h
  cases h

theorem State.lt_of_copying {s : State} {k : Nat} {h : Hold} (hc : (s.slot k).copying = some h) : k < s.slots.length := by
  by_contra hk
  rw [State.slot_of_le (Nat.le_of_not_lt hk)] at hc
  cases hc

/-- An instance after a change of one, which may be another of the same batch or of another. -/
theorem State.inst?_modInst_at (s : State) (b c b' c' : Nat) {f : Instance → Instance} (hf : ∀ i, (f i).counter = i.counter) :
    (s.modInst b' c' f).inst? b c = (s.inst? b c).map (fun i => if b = b' ∧ c = c' then f i else i) := by
  have hfind : ∀ l : List Instance, (l.map (fun i => if i.counter = c' then f i else i)).find? (fun i => i.counter == c)
      = (l.find? (fun i => i.counter == c)).map (fun i => if c = c' then f i else i) := by
    intro l
    induction l with
    | nil => rfl
    | cons i l ih =>
      have hi : (if i.counter = c' then f i else i).counter = i.counter := by
        split
        · exact hf i
        · rfl
      by_cases hc : i.counter = c
      · simp only [List.map_cons, List.find?_cons, hi, beq_iff_eq.mpr hc, Option.map_some]
        rw [hc]
      · simp only [List.map_cons, List.find?_cons, hi, beq_eq_false_iff_ne.mpr hc, ih]
  simp only [State.inst?, State.batch, State.modInst, State.modBatch, getElem?_modAt]
  by_cases hb : b = b'
  · subst hb
    simp only [if_true, true_and]
    cases s.batches[b]? with
    | none => rfl
    | some x => exact hfind x.instances
  · simp [hb]

theorem State.inst?_modInst (s : State) (b c : Nat) {f : Instance → Instance} (hf : ∀ i, (f i).counter = i.counter) :
    (s.modInst b c f).inst? b c = (s.inst? b c).map f := by
  simp [State.inst?_modInst_at s b c b c hf]

theorem State.inst?_modPos (s : State) (b c q : Nat) (f : Pos → Pos) :
    (s.modPos b c q f).inst? b c = (s.inst? b c).map (fun i => { i with pos := modAt i.pos q f }) := State.inst?_modInst s b c fun _ => rfl

theorem State.inst?_congr {t s : State} (h : t.batches = s.batches) (b c : Nat) : t.inst? b c = s.inst? b c := by
  simp only [State.inst?, State.batch, h]

theorem State.slot_congr {t s : State} (h : t.slots = s.slots) (k : Nat) : t.slot k = s.slot k := by
  simp only [State.slot, h]

theorem State.counter_of_inst? {s : State} {b c : Nat} {i : Instance} (h : s.inst? b c = some i) : i.counter = c := by
  simpa using List.find?_some h

/-- An open instance that lacks the sample of a stream is in its batch index. -/
theorem State.inst?_of_openFor {s : State} {k c : Nat} (h : s.openFor k = some c) : ∃ i, s.inst? (s.slotBatch k) c = some i := by
  obtain ⟨j, hj, rfl⟩ := Option.map_eq_some_iff.mp h
  exact Option.isSome_iff_exists.mp (List.find?_isSome.mpr ⟨j, List.mem_of_find?_eq_some hj, by simp⟩)

/-! ### What samples leave -/

/-- t is s but for counters, draws, the dies, the stream slots and the batches: what Creel's own work changes. -/
def State.sameButCreel (t s : State) : Prop := State.sameButDies { t with slots := s.slots, batches := s.batches } s

theorem State.sameButCreel.refl (s : State) : s.sameButCreel s := State.sameButDies.refl s

theorem State.sameButCreel.trans {a b c : State} (h : a.sameButCreel b) (k : b.sameButCreel c) : a.sameButCreel c := by
  refine ⟨?_, fun o ho => (h.2 o ho).trans (k.2 o ho)⟩
  obtain ⟨h, -⟩ := h
  obtain ⟨k, -⟩ := k
  rw [← k, ← h]

theorem State.sameButDies.creel {t s : State} (h : t.sameButDies s) : t.sameButCreel s := by
  have h1 := h.1
  refine ⟨?_, h.2⟩
  conv_rhs => rw [← h1]
  conv_lhs => rw [← h1]

theorem State.modSlot_onlyCreel (s : State) (k : Nat) (f : Slot → Slot) : (s.modSlot k f).sameButCreel s := ⟨rfl, fun _ _ => rfl⟩

theorem State.modPos_onlyCreel (s : State) (b c q : Nat) (f : Pos → Pos) : (s.modPos b c q f).sameButCreel s := ⟨rfl, fun _ _ => rfl⟩

/-- t is s but for what Creel's own work changes and what its event records write: rings, host memory, messages, lost event records. -/
def State.sameButIntake (t s : State) : Prop :=
  State.sameButCreel { t with rings := s.rings, hostMemA := s.hostMemA, hostMemB := s.hostMemB, msix := s.msix, eventLost := s.eventLost } s

theorem State.sameButIntake.refl (s : State) : s.sameButIntake s := State.sameButCreel.refl s

theorem State.sameButIntake.trans {a b c : State} (h : a.sameButIntake b) (k : b.sameButIntake c) : a.sameButIntake c := by
  refine ⟨?_, fun o ho => (h.2 o ho).trans (k.2 o ho)⟩
  obtain ⟨h, -⟩ := h
  obtain ⟨k, -⟩ := k
  rw [← k, ← h]

theorem State.sameButCreel.intake {t s : State} (h : t.sameButCreel s) : t.sameButIntake s := by
  have h1 := h.1
  refine ⟨?_, h.2⟩
  conv_rhs => rw [← h1]
  conv_lhs => rw [← h1]

theorem State.sameButRecords.intake {t s : State} (h : t.sameButRecords s) : t.sameButIntake s := by
  have h1 := h.1
  refine ⟨?_, h.2⟩
  conv_rhs => rw [← h1]
  conv_lhs => rw [← h1]

theorem State.sameButIntake.steps {t s : State} (h : t.sameButIntake s) : t.steps = s.steps := (congrArg (fun x : State => x.steps) h.1 :)

theorem State.sameButIntake.ctxs {t s : State} (h : t.sameButIntake s) : t.ctxs = s.ctxs := (congrArg (fun x : State => x.ctxs) h.1 :)

theorem State.sameButIntake.hasp {t s : State} (h : t.sameButIntake s) : t.hasp = s.hasp := (congrArg (fun x : State => x.hasp) h.1 :)

theorem State.sameButIntake.recipes {t s : State} (h : t.sameButIntake s) : t.recipes = s.recipes :=
  (congrArg (fun x : State => x.recipes) h.1 :)

/-- A silent source stays silent while samples go on. -/
theorem State.sameButIntake.silent {t s : State} (h : t.sameButIntake s) {n : Nat} (hs : s.silent n) : t.silent n := by
  obtain ⟨hn, hr, hc⟩ := hs
  exact ⟨hn, h.hasp ▸ hr, (h.2 _ (oSrcCfg_plain n hn).1).trans hc⟩

/-- An event record leaves the slots, the batches and everything that is no record. -/
theorem eventRecord_onlyIntake (s : State) (f : FnId) (status detail : Nat) : (eventRecord s f status detail).sameButIntake s := by
  unfold eventRecord
  simp only
  split
  · exact .refl s
  · split
    · split
      · exact .refl s
      · split
        · exact ⟨rfl, fun _ _ => rfl⟩
        · exact (writeRecord_onlyRecords _ _ _ _).intake.trans ⟨rfl, fun _ _ => rfl⟩
    · exact .refl s

theorem eventRecord_slots (s : State) (f : FnId) (status detail : Nat) : (eventRecord s f status detail).slots = s.slots := by
  have hw : ∀ (u : State) (cx : Ctx) (cr : Ring) (c : Completion), (writeRecord u cx cr c).slots = u.slots := fun u cx cr c =>
    (congrArg (fun x : State => x.slots) (writeRecord_onlyRecords u cx cr c).eq :)
  unfold eventRecord
  simp only
  split
  · rfl
  · split
    · split
      · rfl
      · split
        · rfl
        · exact hw _ _ _ _
    · rfl

/-! ### Substitution (R239) -/

/-- A position filled with zero rows. -/
def Pos.zeroed (cause : Nat) (time : Dword) (p : Pos) : Pos :=
  { p with state := .zeroSub, cause := cause, sat := 0, time := time, corrupt := cause == 1 }

/-- A position that takes the stream's hold sample. -/
def Pos.fromHold (cause : Nat) (h : Hold) (p : Pos) : Pos :=
  { p with state := .copying, cause := cause, sat := h.sat, time := h.time, corrupt := cause == 1 }

/-- How a substituted position is filled: from a hold sample that is young enough, or from zero rows. -/
def State.filling (s : State) (rec : Recipe) (hold : Option Hold) (i : Instance) (cause : Nat) : Pos → Pos :=
  match rec.lastGood, hold with
  | true, some h => if s.time.now.toNat - h.time.toNat ≤ rec.maxAgeUs * 1000 then Pos.fromHold cause h else Pos.zeroed cause i.openTime
  | _, _ => Pos.zeroed cause i.openTime

theorem State.filling_zeroed (s : State) {rec : Recipe} {hold : Option Hold} (h : rec.lastGood = false ∨ hold = none) (i : Instance)
    (cause : Nat) : s.filling rec hold i cause = Pos.zeroed cause i.openTime := by
  rcases h with h | h
  · simp only [State.filling, h]
  · cases hl : rec.lastGood <;> simp only [State.filling, h, hl]

theorem State.filling_fromHold {s : State} {rec : Recipe} {h : Hold} (hl : rec.lastGood = true)
    (hage : s.time.now.toNat - h.time.toNat ≤ rec.maxAgeUs * 1000) (i : Instance) (cause : Nat) :
    s.filling rec (some h) i cause = Pos.fromHold cause h := by
  simp only [State.filling, hl, if_pos hage]

/-- A stream counts a substituted position. -/
def Slot.countSubst (x : Slot) : Slot := { x with substituted := inc32 x.substituted }

/-- What a substitution does to an empty position: the stream's count, data in Beam SRAM, and the position from the hold sample or from
zero rows. -/
theorem State.substitute_empty {s : State} {b c q : Nat} {i : Instance} {p : Pos} {rec : Recipe} (cause : Nat)
    (hi : s.inst? b c = some i) (hp : i.pos[q]? = some p) (he : p.state = .empty) (hr : s.slotRec p.stream = some rec) :
    ∃ u : State, u.sameButDies (s.modSlot p.stream Slot.countSubst) ∧ s.substitute b c q cause = u.modPos b c q
      (s.filling rec ((s.modSlot p.stream Slot.countSubst).slot p.stream).hold i cause) := by
  set s0 := s.modSlot p.stream Slot.countSubst with hs0
  set s2 := bumpAon (s0.slotEv 0x0A3 p.stream 1 none) 0 9 1 with hs2
  have h2 : s2.sameButDies s0 := ((bumpAon_onlyDraws _ _ _ _ (by decide)).trans (State.slotEv_onlyDraws s0 _ _ _ _)).dies
  have hhold : (s2.slot p.stream).hold = (s0.slot p.stream).hold := by rw [State.slot_congr h2.slots]
  have key : s.substitute b c q cause =
      (match rec.lastGood, (s2.slot p.stream).hold with
        | true, some h =>
          if s.time.now.toNat - h.time.toNat ≤ rec.maxAgeUs * 1000 then
            (s2.fromHold p.stream b i q rec h).modPos b c q (Pos.fromHold cause h)
          else (s2.zeroPos b i q p.stream rec).modPos b c q (Pos.zeroed cause i.openTime)
        | _, _ => (s2.zeroPos b i q p.stream rec).modPos b c q (Pos.zeroed cause i.openTime)) := by
    simp only [State.substitute, hi, hp, he, hr, bne_self_eq_false, Bool.false_eq_true, if_false]
    rfl
  have zero : ∃ u : State, u.sameButDies s0 ∧ (s2.zeroPos b i q p.stream rec).modPos b c q (Pos.zeroed cause i.openTime) =
      u.modPos b c q (Pos.zeroed cause i.openTime) := ⟨_, (State.zeroPos_onlyDies _ _ _ _ _ _).trans h2, rfl⟩
  rw [key, hhold]
  generalize (s0.slot p.stream).hold = hold
  cases hl : rec.lastGood with
  | false => rw [State.filling_zeroed s (.inl hl)]; exact zero
  | true =>
    cases hold with
    | none => rw [State.filling_zeroed s (.inr rfl)]; exact zero
    | some h =>
      by_cases hage : s.time.now.toNat - h.time.toNat ≤ rec.maxAgeUs * 1000
      · rw [State.filling_fromHold hl hage]
        simp only [if_pos hage]
        exact ⟨_, (State.fromHold_onlyDies _ _ _ _ _ _ _).trans h2, rfl⟩
      · have hf : s.filling rec (some h) i cause = Pos.zeroed cause i.openTime := by simp only [State.filling, hl, if_neg hage]
        rw [hf]
        simpa only [if_neg hage] using zero

/-- A substitution changes nothing, or it counts at one stream and changes one position. -/
theorem State.substitute_cases (s : State) (b c q cause : Nat) : s.substitute b c q cause = s ∨
    ∃ (k : Nat) (f : Pos → Pos) (u : State), u.sameButDies (s.modSlot k Slot.countSubst) ∧ s.substitute b c q cause = u.modPos b c q f := by
  cases hi : s.inst? b c with
  | none => exact .inl (by simp [State.substitute, hi])
  | some i =>
    cases hp : i.pos[q]? with
    | none => exact .inl (by simp [State.substitute, hi, hp])
    | some p =>
      by_cases he : p.state = .empty
      · cases hr : s.slotRec p.stream with
        | none => exact .inl (by simp [State.substitute, hi, hp, he, hr])
        | some rec =>
          obtain ⟨u, hu, h⟩ := State.substitute_empty cause hi hp he hr
          exact .inr ⟨_, _, u, hu, h⟩
      · exact .inl (by simp [State.substitute, hi, hp, he])

theorem State.substitute_onlyCreel (s : State) (b c q cause : Nat) : (s.substitute b c q cause).sameButCreel s := by
  obtain h | ⟨k, f, u, hu, h⟩ := State.substitute_cases s b c q cause
  · rw [h]; exact .refl s
  · rw [h]; exact (State.modPos_onlyCreel u _ _ _ _).trans (hu.creel.trans (State.modSlot_onlyCreel s _ _))

/-- A substitution changes of a slot the count of substituted positions alone. -/
theorem State.substitute_slot (s : State) (b c q cause j : Nat) :
    ∃ w, (s.substitute b c q cause).slot j = { s.slot j with substituted := w } := by
  obtain h | ⟨k, f, u, hu, h⟩ := State.substitute_cases s b c q cause
  · exact ⟨(s.slot j).substituted, by rw [h]⟩
  · have hslot : (s.substitute b c q cause).slot j = (s.modSlot k Slot.countSubst).slot j := by rw [h]; exact State.slot_congr hu.slots j
    by_cases hk : j = k ∧ k < s.slots.length
    · obtain ⟨rfl, hlt⟩ := hk
      exact ⟨_, hslot.trans (State.slot_modSlot_self hlt _)⟩
    · refine ⟨(s.slot j).substituted, hslot.trans ?_⟩
      by_cases hj : j = k
      · subst hj
        have hle : s.slots.length ≤ j := by omega
        rw [State.slot_of_le hle, State.slot_of_le (by simpa using hle)]
      · exact State.slot_modSlot_ne s _ hj

/-! ### A corrupt sample (R239, R573) -/

/-- The open sample of a slot becomes corrupt: counted, late from now on, its position substituted. -/
theorem State.corruptSample_open {s : State} {k : Nat} {sm : Sample} (h : (s.slot k).phase = .open sm) :
    (∃ w, (s.corruptSample k).slot k = { s.slot k with corrupt := inc32 (s.slot k).corrupt, phase := .late, substituted := w }) ∧
      (s.corruptSample k).sameButIntake s := by
  have hk := State.lt_of_open h
  set s1 := s.modSlot k (fun x => { x with corrupt := inc32 x.corrupt, phase := .late }) with hs1
  have hc : s.corruptSample k = eventRecord (s1.substitute (s.slotBatch k) sm.counter sm.position 1)
      { port := partPort (s.batchOwner (s.slotBatch k)), num := 0 } 0x12 k := by
    simp only [State.corruptSample, h]
    rfl
  rw [hc]
  refine ⟨?_, (eventRecord_onlyIntake _ _ _ _).trans ((State.substitute_onlyCreel _ _ _ _ _).trans (State.modSlot_onlyCreel s _ _)).intake⟩
  obtain ⟨w, hw⟩ := State.substitute_slot s1 (s.slotBatch k) sm.counter sm.position 1 k
  exact ⟨w, (State.slot_congr (eventRecord_slots _ _ _ _) k).trans (hw.trans (by rw [hs1, State.slot_modSlot_self hk]))⟩

theorem State.corruptSample_of_not_open {s : State} {k : Nat} (h : ∀ sm, (s.slot k).phase ≠ .open sm) : s.corruptSample k = s := by
  unfold State.corruptSample
  split
  · exact absurd ‹_› (h _)
  · rfl

end Machine

end Sys2Proof

namespace Sys2Proof

namespace Machine

set_option Elab.async false

/-! ### The registers of stream slots -/

theorem oSlotBind_plain {k : Nat} (hk : k < 32) : isOverflowReg (oSlotBind k) = false := by
  simp only [isOverflowReg, oSlotBind, oCtrOvf, oCtrOvfAon]
  simp
  omega

theorem State.sameButDraws.slotBatch {t s : State} (h : t.sameButDraws s) {k : Nat} (hk : k < 32) : t.slotBatch k = s.slotBatch k := by
  simp only [State.slotBatch, h.reg (oSlotBind_plain hk)]

theorem State.sameButDraws.slotRec {t s : State} (h : t.sameButDraws s) {k : Nat} (hk : k < 32) : t.slotRec k = s.slotRec k := by
  have hrec : t.recipes = s.recipes := (congrArg (fun x : State => x.recipes) h.1 :)
  simp only [State.slotRec, State.slotRecipe, State.recipe?, h.reg (oSlotBind_plain hk), hrec]

theorem State.sameButDraws.recipeCb {t s : State} (h : t.sameButDraws s) (rec : Recipe) : t.recipeCb rec = s.recipeCb rec := by
  have ha : t.wa = s.wa := (congrArg (fun x : State => x.wa) h.1 :)
  have hb : t.wb = s.wb := (congrArg (fun x : State => x.wb) h.1 :)
  simp only [State.recipeCb, ha, hb]

theorem State.sameButDraws.slot {t s : State} (h : t.sameButDraws s) (k : Nat) : t.slot k = s.slot k := State.slot_congr h.dies.slots k

theorem State.sameButDraws.inst? {t s : State} (h : t.sameButDraws s) (b c : Nat) : t.inst? b c = s.inst? b c :=
  State.inst?_congr h.dies.batches b c

theorem State.lt_of_slotOf {s : State} {p sel k : Nat} (h : s.slotOf p sel = some k) : k < 32 := List.mem_range.mp (List.mem_of_find?_eq_some h)

/-! ### Packets reach a slot (R217) -/

/-- A slot with nothing in its input queue. -/
def Slot.cleared (x : Slot) : Slot := { x with input := [] }

theorem State.intakeOn_of_creelOn {s : State} (h : s.creelOn = true) : s.intakeOn = true := by
  simp only [State.creelOn, Bool.and_eq_true] at h
  simp only [State.intakeOn, Bool.and_eq_true]
  exact ⟨h.1.1.1, h.1.2⟩

/-- While Creel works, a packet is worked on after what waits. -/
theorem State.receive_drains {s : State} {k : Nat} (hc : s.creelOn = true) (hk : k < s.slots.length) (p : Packet) :
    s.receive k false p = ((s.slot k).input ++ [(s.time.now, p)]).foldl (State.takeOne k) (s.modSlot k Slot.cleared) := by
  have hon : (s.modSlot k (fun x => { x with input := x.input ++ [(s.time.now, p)] })).creelOn = true := hc
  simp only [State.receive, State.intakeOn_of_creelOn hc, hc, Bool.not_true, Bool.or_false, Bool.false_eq_true, if_false, State.drainInput,
    State.slot_modSlot_self hk, State.modSlot_modSlot]
  rfl

theorem State.receive_now {s : State} {k : Nat} (hc : s.creelOn = true) (hk : k < s.slots.length) (hi : (s.slot k).input = []) (p : Packet) :
    s.receive k false p = State.takeOne k s (s.time.now, p) := by
  have hcl : Slot.cleared (s.slot k) = s.slot k := by rw [Slot.cleared, ← hi]
  rw [State.receive_drains hc hk, hi, State.modSlot_of_eq hcl]
  rfl

/-- While Creel does not work, or by choice, a packet waits in the slot's input queue. -/
theorem State.receive_waits {s : State} (hi : s.intakeOn = true) {waits : Bool} (hw : waits = true ∨ s.creelOn = false) (k : Nat) (p : Packet) :
    s.receive k waits p = s.modSlot k (fun x => { x with input := x.input ++ [(s.time.now, p)] }) := by
  have hwait : (waits || !s.creelOn) = true := by simpa using hw
  simp only [State.receive, hi, hwait, Bool.not_true, Bool.false_eq_true, if_false, if_true]

theorem State.csi2_receive {s : State} {p vc k : Nat} (hs : s.slotOf p vc = some k) (hp : s.portOn p = true) (fixed waits : Bool) (x : Packet) :
    s.csi2 p vc fixed waits x = (s.headerFix k fixed).receive k waits x := by
  simp only [State.csi2, hs, hp, if_true]

theorem State.csi2_now {s : State} {p vc k : Nat} (hs : s.slotOf p vc = some k) (hp : s.portOn p = true) (hc : s.creelOn = true)
    (hk : k < s.slots.length) (hi : (s.slot k).input = []) (x : Packet) :
    s.csi2 p vc false false x = State.takeOne k s (s.time.now, x) :=
  (State.csi2_receive hs hp false false x).trans (State.receive_now hc hk hi x)

theorem State.csi2_none {s : State} {p vc : Nat} (h : s.slotOf p vc = none ∨ s.portOn p = false) (fixed waits : Bool) (x : Packet) :
    s.csi2 p vc fixed waits x = s := by
  unfold State.csi2
  split
  next k hk =>
    have hp : s.portOn p = false := h.resolve_left (by simp [hk])
    simp [hp]
  next => rfl

/-- A slot that counts a corrected header, where there was one. -/
def Slot.fixes (fixed : Bool) (x : Slot) : Slot := { x with headerFixed := if fixed then inc32 x.headerFixed else x.headerFixed }

/-- A slot in whose input queue a packet waits. -/
def Slot.waits (time : Dword) (p : Packet) (x : Slot) : Slot := { x with input := x.input ++ [(time, p)] }

/-- A slot that counts a discarded packet. -/
def Slot.drops (x : Slot) : Slot := { x with dropped := inc32 x.dropped }

theorem State.headerFix_eq (s : State) (k : Nat) (fixed : Bool) : s.headerFix k fixed = s.modSlot k (Slot.fixes fixed) := by
  cases fixed
  · exact (State.modSlot_of_eq rfl).symm
  · rfl

theorem State.csi2_plain {s : State} {p vc k : Nat} (hs : s.slotOf p vc = some k) (hp : s.portOn p = true) (waits : Bool) (x : Packet) :
    s.csi2 p vc false waits x = s.receive k waits x := State.csi2_receive hs hp false waits x

/-- A packet that waits, with its header's correction counted. -/
theorem State.csi2_waits {s : State} {p vc k : Nat} (hs : s.slotOf p vc = some k) (hp : s.portOn p = true) (hi : s.intakeOn = true) {waits : Bool}
    (hw : waits = true ∨ s.creelOn = false) (fixed : Bool) (x : Packet) :
    s.csi2 p vc fixed waits x = s.modSlot k (fun y => Slot.waits s.time.now x (Slot.fixes fixed y)) := by
  have hw1 : waits = true ∨ (s.modSlot k (Slot.fixes fixed)).creelOn = false := hw
  rw [State.csi2_receive hs hp, State.headerFix_eq, State.receive_waits (by exact hi) hw1]
  exact State.modSlot_modSlot s k (Slot.fixes fixed) (Slot.waits s.time.now x)

/-- A packet that is discarded and counted, with its header's correction counted. -/
theorem State.csi2_drops {s : State} {p vc k : Nat} (hs : s.slotOf p vc = some k) (hp : s.portOn p = true) (hc : s.creelOn = true)
    (hk : k < s.slots.length) (hi : (s.slot k).input = []) (fixed : Bool) {x : Packet}
    (hx : ∀ u : State, State.takeOne k u (s.time.now, x) = u.dropOne k) :
    s.csi2 p vc fixed false x = s.modSlot k (fun y => Slot.drops (Slot.fixes fixed y)) := by
  have hi1 : ((s.modSlot k (Slot.fixes fixed)).slot k).input = [] := by rw [State.slot_modSlot_self hk]; exact hi
  have hk1 : k < (s.modSlot k (Slot.fixes fixed)).slots.length := by rw [State.length_modSlot]; exact hk
  rw [State.csi2_receive hs hp, State.headerFix_eq, State.receive_now (by exact hc) hk1 hi1]
  exact (hx _).trans (State.modSlot_modSlot s k (Slot.fixes fixed) Slot.drops)

/-! ### A sample begins (R20, R238) -/

/-- The sample of a stream slot that begins in an instance. -/
def State.newSample (s : State) (k c : Nat) (time : Dword) (sweep : Nat) : Sample :=
  { time := time, counter := c, position := s.slotPos k, lines := [], sat := 0, sweep := sweep, nextSeq := 0, kept := 0, pillars := [] }

theorem State.corruptSample_idle {s : State} {k : Nat} (h : (s.slot k).phase = .idle) : s.corruptSample k = s :=
  State.corruptSample_of_not_open fun sm => by rw [h]; exact nofun

/-- An image sample begins in an open instance that lacks it. -/
theorem State.startSample_image {s : State} {k c : Nat} {rec : Recipe} (hph : (s.slot k).phase = .idle) (hrec : s.slotRec k = some rec)
    (hpt : rec.points = false) (hof : s.openFor k = some c) (hcb : (s.recipeCb rec).isSome = true) (time : Dword) (sweep : Nat) :
    s.startSample k time sweep = s.modSlot k (fun x => { x with phase := .open (s.newSample k c time sweep) }) := by
  obtain ⟨cb, hcb⟩ := Option.isSome_iff_exists.mp hcb
  obtain ⟨i, hi⟩ := State.inst?_of_openFor hof
  set s1 := s.modSlot k (fun x => { x with phase := .open (s.newSample k c time sweep) }) with hs1
  have hcb1 : s1.recipeCb rec = some cb := hcb
  have hi1 : s1.inst? (s.slotBatch k) c = some i := hi
  have hb : s.beginSample k rec c time sweep = (match s1.recipeCb rec, s1.inst? (s.slotBatch k) c with
    | some _, some i => if rec.points then s1.zeroPos (s.slotBatch k) i (s.slotPos k) k rec else s1
    | _, _ => s1.corruptSample k) := rfl
  simp only [State.startSample, State.corruptSample_idle hph, hrec, hof, hb, hcb1, hi1, hpt, Bool.false_eq_true, if_false]

/-- A sample that finds no instance and no buffer is dropped whole. -/
theorem State.startSample_dropped {s : State} {k : Nat} {rec : Recipe} (hph : (s.slot k).phase = .idle) (hrec : s.slotRec k = some rec)
    (hof : s.openFor k = none) {time : Dword} (hoi : s.openInst (s.slotBatch k) time = none) (sweep : Nat) :
    s.startSample k time sweep =
      State.raise { s.modSlot k (fun x => { x with dropped := inc32 x.dropped, phase := .dropping }) with freshCtr := s.freshCtr + 1 } 0x20
        (cap none (slotMaster k) 0 (Config.freeDword s.freshCtr) k) := by
  simp only [State.startSample, State.corruptSample_idle hph, hrec, hof, hoi]
  rfl

/-! ### A sample goes on, and ends -/

theorem State.lt_of_phase {s : State} {k : Nat} (h : (s.slot k).phase ≠ .idle) : k < s.slots.length := by
  by_contra hk
  exact h (by rw [State.slot_of_le (Nat.le_of_not_lt hk)]; rfl)

theorem State.workOn_onlyDraws (s : State) (k : Nat) (points : Bool) (c : IntakeCheck) : (s.workOn k points c).sameButDraws s :=
  (State.sameButDraws.foldl (fun u a => (bumpAon_onlyDraws _ _ _ _ (by decide)).trans (countEv_onlyDraws u _ (by simp [Ev.plain]))) _ _).trans
    ((State.progress_onlyDraws _ _).trans (State.slotEv_onlyDraws s _ _ _ _))

/-- Work on a line whose memory has no error draws nothing. -/
theorem State.workOn_onlyCounters (s : State) (k : Nat) (points : Bool) {c : IntakeCheck} (hc : c.fixed = []) :
    (s.workOn k points c).sameButCounters s := by
  have hev : (s.slotEv (if points then 0x0A1 else 0x0A0) k 1 none).sameButCounters s := countEv_onlyCounters s _ (by simp [Ev.plain])
  have hw : s.workOn k points c = (s.slotEv (if points then 0x0A1 else 0x0A0) k 1 none).progress (monKey .slot k 0) := by
    simp only [State.workOn, State.intakeFixed, hc, List.foldl_nil]
  rw [hw]
  exact .trans ⟨rfl, fun _ _ => rfl⟩ hev

theorem State.sameButDies.foldl_fst {α β : Type} {f : State × β → α → State × β} (h : ∀ a x, (f a x).1.sameButDies a.1) (l : List α) :
    ∀ a, (l.foldl f a).1.sameButDies a.1 := by
  induction l with
  | nil => exact fun a => .refl a.1
  | cons x l ih => exact fun a => (ih (f a x)).trans (h a x)

/-- An accepted line joins the open sample, whose rows are written on the dies. -/
theorem State.acceptLine_frame {s : State} {k : Nat} {sm : Sample} {rec : Recipe} (comps : List Nat) (hcb : (s.recipeCb rec).isSome = true)
    (hi : (s.inst? (s.slotBatch k) sm.counter).isSome = true) :
    ∃ (u : State) (w : Nat), u.sameButDies s ∧ s.acceptLine k sm rec comps =
      u.modSlot k (fun x => { x with phase := .open { sm with lines := sm.lines ++ [rec.planes sm.lines.length comps], sat := w } }) := by
  obtain ⟨cb, hcb⟩ := Option.isSome_iff_exists.mp hcb
  obtain ⟨i, hi⟩ := Option.isSome_iff_exists.mp hi
  simp only [State.acceptLine, hcb, hi]
  refine ⟨_, _, ?_, rfl⟩
  refine State.sameButDies.foldl_fst (fun a b => ?_) _ _
  exact State.sameButDies.foldl_fst (fun a xb => State.putRow_onlyDies _ _ _ _ _ _ _ _ _ _) _ (a.1, 0)

/-- A long packet of an image type for an open sample: Creel works on it, and it joins the sample or makes it corrupt. -/
theorem State.takeLine_open {s : State} {k ty : Nat} {sm : Sample} {rec : Recipe} (hk : k < 32) (hph : (s.slot k).phase = .open sm)
    (hrec : s.slotRec k = some rec) (him : isImageType ty = true) (hty : ty ≠ 0x12) (bs : List Byte) (crc lanes ovf : Bool) (ecc : IntakeCheck) :
    s.takeLine k ty bs crc lanes ovf ecc =
      if ovf then (s.workOn k false ecc).corruptRaise k 0x21 sm.counter
      else if !crc || ty != rec.dataType || bs.length != lineBytes rec.dataType rec.wIn || decide (rec.hIn ≤ sm.lines.length) then
        (s.workOn k false ecc).corruptSample k
      else match State.intakeError k ecc lanes with
        | some err => err (s.workOn k false ecc)
        | none => (s.workOn k false ecc).acceptLine k sm rec (unpackLine ty bs) := by
  have hw := s.workOn_onlyDraws k false ecc
  simp only [State.takeLine, if_neg hty, him, Bool.not_true, Bool.false_eq_true, if_false, hw.slot k, hw.slotRec hk, hph, hrec] <;> rfl

/-- A line that the recipe expects passes the checks of its form. -/
theorem goodLine {rec : Recipe} {sm : Sample} {ty : Nat} {bs : List Byte} (hty : ty = rec.dataType)
    (hlen : bs.length = lineBytes rec.dataType rec.wIn) (hl : sm.lines.length < rec.hIn) :
    ¬(!true || ty != rec.dataType || bs.length != lineBytes rec.dataType rec.wIn || decide (rec.hIn ≤ sm.lines.length)) = true := by
  simp [hty, hlen, hl]

/-- The open sample becomes corrupt and a silent source is raised: the sample is late and counted, the source captured. -/
theorem State.corruptSample_raise {s : State} {k n : Nat} {sm : Sample} (h : (s.slot k).phase = .open sm) (hn : s.silent n) (c : Capture) :
    (((s.corruptSample k).raise n c).slot k).phase = .late ∧ (((s.corruptSample k).raise n c).slot k).corrupt = inc32 (s.slot k).corrupt ∧
      ((s.corruptSample k).raise n c).captured n c ∧ ((s.corruptSample k).raise n c).steps = s.steps := by
  obtain ⟨⟨w, hw⟩, hf⟩ := State.corruptSample_open h
  obtain ⟨hr, hcap, -⟩ := State.raise_silent _ n c (hf.silent hn)
  have hslot : ((s.corruptSample k).raise n c).slot k = (s.corruptSample k).slot k :=
    State.slot_congr (congrArg (fun x : State => x.slots) hr.1 :) k
  have hsteps : ((s.corruptSample k).raise n c).steps = (s.corruptSample k).steps := (congrArg (fun x : State => x.steps) hr.1 :)
  rw [hslot, hw]
  exact ⟨rfl, rfl, hcap, hsteps.trans hf.steps⟩

/-- A slot that copies its sample to its hold. -/
def Slot.copies (h : Hold) (x : Slot) : Slot := { x with copying := some h }

/-- A complete sample fills its position; what enters the hold under last-good touches the dies and the copy under way alone. -/
theorem State.completeSample_frame (s : State) (k : Nat) (sm : Sample) :
    ∃ (u : State) (f : Slot → Slot), u.sameButDies ((s.modPos (s.slotBatch k) sm.counter sm.position
        (fun p => { p with state := .received, cause := 0, sat := sm.sat, time := sm.time })).modSlot k
          (fun x => { x with phase := .idle, good := inc32 x.good })) ∧
      (∀ x, (f x).phase = x.phase ∧ (f x).good = x.good) ∧ s.completeSample k sm = u.modSlot k f := by
  set s1 := (s.modPos (s.slotBatch k) sm.counter sm.position
        (fun p => { p with state := .received, cause := 0, sat := sm.sat, time := sm.time })).modSlot k
          (fun x => { x with phase := .idle, good := inc32 x.good }) with hs1
  set s2 := bumpAon (s1.slotEv 0x0A2 k 1 none) 0 8 1 with hs2
  have h2 : s2.sameButDies s1 := ((bumpAon_onlyDraws _ _ _ _ (by decide)).trans (State.slotEv_onlyDraws s1 _ _ _ _)).dies
  have hkeep : s2 = s2.modSlot k id := (State.modSlot_of_eq rfl).symm
  have hc : s.completeSample k sm = (match s2.slotRec k, s2.inst? (s.slotBatch k) sm.counter with
    | some rec, some i =>
      if rec.lastGood then
        (s2.toHold k (s.slotBatch k) i sm.position rec (!(s2.slot k).half)).modSlot k
          (Slot.copies { time := sm.time, sat := sm.sat, comp := i.complemented })
      else s2
    | _, _ => s2) := rfl
  rw [hc]
  split
  · split
    · exact ⟨_, Slot.copies _, (State.toHold_onlyDies _ _ _ _ _ _ _).trans h2, fun _ => ⟨rfl, rfl⟩, rfl⟩
    · exact ⟨s2, id, h2, fun _ => ⟨rfl, rfl⟩, hkeep⟩
  · exact ⟨s2, id, h2, fun _ => ⟨rfl, rfl⟩, hkeep⟩

end Machine

end Sys2Proof

namespace Sys2Proof

namespace Machine

set_option Elab.async false

/-! ### O54: image samples -/

theorem exec_csi2FrameStart {p vc : Nat} {fixed : Bool} {s t : State} (h : s.csi2 p vc fixed false .frameStart = t) :
    exec (.csi2FrameStart p vc fixed) s = .next t := by rw [← h]; rfl

theorem exec_csi2FrameEnd {p vc : Nat} {fixed : Bool} {s t : State} (h : s.csi2 p vc fixed false .frameEnd = t) :
    exec (.csi2FrameEnd p vc fixed) s = .next t := by rw [← h]; rfl

theorem exec_csi2LongPacket {p vc ty : Nat} {bs : List Byte} {crc lanes ovf fixed waits : Bool} {ecc : IntakeCheck} {s t : State}
    (h : s.csi2 p vc fixed waits (.line ty bs crc lanes ovf ecc) = t) :
    exec (.csi2LongPacket p vc ty bs crc lanes ovf ecc fixed waits) s = .next t := by rw [← h]; rfl

theorem exec_csi2PacketDiscard {p vc ty : Nat} {bad fixed : Bool} {s t : State}
    (h : s.csi2 p vc (fixed && !bad) false (.discard ty bad) = t) : exec (.csi2PacketDiscard p vc ty bad fixed) s = .next t := by rw [← h]; rfl

/-- A long packet of an image type while no sample of its slot is open. -/
theorem State.takeLine_closed {s : State} {k ty : Nat} (him : isImageType ty = true) (hty : ty ≠ 0x12) (bs : List Byte) :
    ((s.slot k).phase = .late → s.takeLine k ty bs true true false { fixed := [], hit := none } =
      (s.workOn k false { fixed := [], hit := none }).lateOne k) ∧
    ((s.slot k).phase = .dropping → s.takeLine k ty bs true true false { fixed := [], hit := none } =
      s.workOn k false { fixed := [], hit := none }) ∧
    ((s.slot k).phase = .idle → s.takeLine k ty bs true true false { fixed := [], hit := none } =
      (s.workOn k false { fixed := [], hit := none }).dropOne k) := by
  have hw := s.workOn_onlyDraws k false { fixed := [], hit := none }
  refine ⟨fun h => ?_, fun h => ?_, fun h => ?_⟩ <;>
    simp only [State.takeLine, if_neg hty, him, Bool.not_true, Bool.false_eq_true, if_false, hw.slot k, h]

/-- A packet that is dropped with a header or checksum error corrupts the open sample. -/
theorem State.dropOne_corrupt {s : State} {k : Nat} {sm : Sample} (h : (s.slot k).phase = .open sm) :
    (((s.dropOne k).corruptSample k).slot k).phase = .late ∧
      (((s.dropOne k).corruptSample k).slot k).dropped = inc32 (s.slot k).dropped ∧
      (((s.dropOne k).corruptSample k).slot k).corrupt = inc32 (s.slot k).corrupt ∧ ((s.dropOne k).corruptSample k).steps = s.steps := by
  have hslot : (s.dropOne k).slot k = { s.slot k with dropped := inc32 (s.slot k).dropped } := State.slot_modSlot_self (State.lt_of_open h) _
  have hph : ((s.dropOne k).slot k).phase = .open sm := by rw [hslot]; exact h
  obtain ⟨⟨w, hw⟩, hf⟩ := State.corruptSample_open hph
  rw [hw, hslot]
  exact ⟨rfl, rfl, rfl, hf.steps⟩

/-- A frame that finds no buffer is dropped whole, and the overrun source captured. -/
theorem State.startSample_overrun {s : State} {k : Nat} {rec : Recipe} (hph : (s.slot k).phase = .idle) (hk : k < s.slots.length)
    (hrec : s.slotRec k = some rec) (hof : s.openFor k = none) {time : Dword} (hoi : s.openInst (s.slotBatch k) time = none)
    (hn : s.silent 0x020) (sweep : Nat) :
    (s.startSample k time sweep).slot k = { s.slot k with dropped := inc32 (s.slot k).dropped, phase := .dropping } ∧
      (s.startSample k time sweep).captured 0x020 (cap none (slotMaster k) 0 (Config.freeDword s.freshCtr) k) ∧
      (∀ j, j ≠ k → (s.startSample k time sweep).slot j = s.slot j) ∧
      State.sameButHealth { s.startSample k time sweep with slots := s.slots, freshCtr := s.freshCtr } s := by
  rw [State.startSample_dropped hph hrec hof hoi sweep]
  obtain ⟨hr, hcap, -⟩ := State.raise_silent
    { s.modSlot k (fun x => { x with dropped := inc32 x.dropped, phase := .dropping }) with freshCtr := s.freshCtr + 1 } 0x020
    (cap none (slotMaster k) 0 (Config.freeDword s.freshCtr) k) hn
  generalize State.raise _ 0x020 _ = t at hr hcap ⊢
  have hslots : ∀ j, t.slot j = (s.modSlot k (fun x => { x with dropped := inc32 x.dropped, phase := .dropping })).slot j := fun j =>
    State.slot_congr (congrArg (fun x : State => x.slots) hr.1 :) j
  refine ⟨?_, hcap, fun j hj => (hslots j).trans (State.slot_modSlot_ne s _ hj), ?_, hr.2⟩
  · rw [hslots, State.slot_modSlot_self hk]
  · exact (congrArg (fun x : State => { x with slots := s.slots, freshCtr := s.freshCtr }) hr.1 :)

/-- A good line joins the open sample. -/
theorem State.takeLine_joins {s : State} {k ty : Nat} {bs : List Byte} {sm : Sample} {rec : Recipe} (hk : k < 32)
    (hph : (s.slot k).phase = .open sm) (hrec : s.slotRec k = some rec) (him : isImageType ty = true) (hty : ty ≠ 0x12) (hdt : ty = rec.dataType)
    (hlen : bs.length = lineBytes rec.dataType rec.wIn) (hl : sm.lines.length < rec.hIn) (hcb : (s.recipeCb rec).isSome = true)
    (hin : (s.inst? (s.slotBatch k) sm.counter).isSome = true) :
    ∃ w, ((s.takeLine k ty bs true true false { fixed := [], hit := none }).slot k).phase =
        .open { sm with lines := sm.lines ++ [rec.planes sm.lines.length (unpackLine ty bs)], sat := w } ∧
      State.sameButCounters { s.takeLine k ty bs true true false { fixed := [], hit := none } with
        slots := s.slots, wa := s.wa, wb := s.wb, freshCtr := s.freshCtr } s := by
  have hw := s.workOn_onlyDraws k false { fixed := [], hit := none }
  obtain ⟨u, w, hu, ht⟩ := State.acceptLine_frame (s := s.workOn k false { fixed := [], hit := none }) (k := k) (sm := sm) (rec := rec)
    (unpackLine ty bs) (by rw [hw.recipeCb]; exact hcb) (by rw [hw.slotBatch hk, hw.inst?]; exact hin)
  have hus := hu.trans hw.dies
  have htake := State.takeLine_open hk hph hrec him hty bs true true false { fixed := [], hit := none }
  rw [if_neg Bool.false_ne_true, if_neg (goodLine hdt hlen hl)] at htake
  rw [htake.trans ht]
  refine ⟨w, ?_, ?_, hus.2⟩
  · rw [State.slot_modSlot_self (by rw [hus.slots]; exact State.lt_of_open hph)]
  · exact (congrArg (fun x : State => { x with slots := s.slots }) hus.1 :)

/-- An error found in a line corrupts the open sample and is captured at its silent source. -/
theorem State.takeLine_error {s : State} {k ty n : Nat} {sm : Sample} (hph : (s.slot k).phase = .open sm) (hn : s.silent n)
    {bs : List Byte} {lanes ovf : Bool} {ecc : IntakeCheck} {c : Capture}
    (ht : s.takeLine k ty bs true lanes ovf ecc = ((s.workOn k false ecc).corruptSample k).raise n c) :
    ((s.takeLine k ty bs true lanes ovf ecc).slot k).phase = .late ∧
      ((s.takeLine k ty bs true lanes ovf ecc).slot k).corrupt = inc32 (s.slot k).corrupt ∧
      (s.takeLine k ty bs true lanes ovf ecc).captured n c ∧ (s.takeLine k ty bs true lanes ovf ecc).steps = s.steps := by
  have hw := s.workOn_onlyDraws k false ecc
  have hf := hw.dies.creel.intake
  obtain ⟨h1, h2, h3, h4⟩ := State.corruptSample_raise ((congrArg Slot.phase (hw.slot k)).trans hph) (hf.silent hn) c
  rw [ht]
  exact ⟨h1, h2.trans (by rw [hw.slot]), h3, h4.trans hf.steps⟩

section
variable {s : State} {k ty : Nat} {sm : Sample} {rec : Recipe} (hk : k < 32) (hph : (s.slot k).phase = .open sm)
  (hrec : s.slotRec k = some rec) (him : isImageType ty = true) (hty : ty ≠ 0x12)
include hk hph hrec him hty

/-- A long packet whose checksum fails corrupts the open sample. -/
theorem State.takeLine_badCrc (bs : List Byte) :
    ((s.takeLine k ty bs false true false { fixed := [], hit := none }).slot k).phase = .late ∧
      ((s.takeLine k ty bs false true false { fixed := [], hit := none }).slot k).corrupt = inc32 (s.slot k).corrupt ∧
      (s.takeLine k ty bs false true false { fixed := [], hit := none }).sameButIntake s := by
  have hw := s.workOn_onlyDraws k false { fixed := [], hit := none }
  have htake : s.takeLine k ty bs false true false { fixed := [], hit := none } = (s.workOn k false { fixed := [], hit := none }).corruptSample k :=
    (State.takeLine_open hk hph hrec him hty bs false true false { fixed := [], hit := none }).trans rfl
  obtain ⟨⟨w, hc⟩, hf⟩ := State.corruptSample_open ((congrArg Slot.phase (hw.slot k)).trans hph)
  rw [htake, hc, hw.slot]
  exact ⟨rfl, rfl, hf.trans hw.dies.creel.intake⟩

/-- A line that overflows the intake's buffers. -/
theorem State.takeLine_overflow (bs : List Byte) :
    s.takeLine k ty bs true true true { fixed := [], hit := none } = ((s.workOn k false { fixed := [], hit := none }).corruptSample k).raise 0x21
      (cap none (slotMaster k) 0 (BitVec.ofNat 64 sm.counter) k) :=
  (State.takeLine_open hk hph hrec him hty bs true true true { fixed := [], hit := none }).trans rfl

variable {bs : List Byte} (hdt : ty = rec.dataType) (hlen : bs.length = lineBytes rec.dataType rec.wIn) (hl : sm.lines.length < rec.hIn)
include hdt hlen hl

/-- Lanes that differ, or a recipe that cannot be read: a Creel integrity error. -/
theorem State.takeLine_integrity {l r : Bool} (hlr : (l && !r) = false) :
    s.takeLine k ty bs true l false { fixed := [], hit := none, recipe := r } =
      ((s.workOn k false { fixed := [], hit := none, recipe := r }).corruptSample k).raise 0x22
        (cap none (slotMaster k) 0 (BitVec.ofNat 64 sm.counter) k) := by
  have hw := s.workOn_onlyDraws k false { fixed := [], hit := none, recipe := r }
  have ht := State.takeLine_open hk hph hrec him hty bs true l false { fixed := [], hit := none, recipe := r }
  have herr : State.intakeError k { fixed := [], hit := none, recipe := r } l = some (fun u => u.corruptRaise k 0x22 (u.openCounter k)) := by
    simp only [State.intakeError, hlr]
  have hctr : (s.workOn k false { fixed := [], hit := none, recipe := r }).openCounter k = sm.counter := by
    simp only [State.openCounter, hw.slot, hph]
  rw [if_neg Bool.false_ne_true, if_neg (goodLine hdt hlen hl), herr] at ht
  rw [ht]
  exact congrArg (State.corruptRaise _ k 0x22) hctr

/-- An uncorrectable error of the intake SRAM in a line. -/
theorem State.takeLine_uncorrectable (a : Nat) (os : List Nat) :
    s.takeLine k ty bs true true false { fixed := os, hit := some a } =
      ((s.workOn k false { fixed := os, hit := some a }).corruptSample k).raise 0x0D (cap none (slotMaster k) 1 (BitVec.ofNat 64 a) 3) := by
  have ht := State.takeLine_open hk hph hrec him hty bs true true false { fixed := os, hit := some a }
  rw [if_neg Bool.false_ne_true, if_neg (goodLine hdt hlen hl)] at ht
  exact ht

end

theorem State.sameButCounters.slots {t s : State} (h : t.sameButCounters s) : t.slots = s.slots := (congrArg (fun x : State => x.slots) h.1 :)

theorem State.sameButCounters.modSlot {t s : State} (h : t.sameButCounters s) (k : Nat) (f : Slot → Slot) :
    State.sameButCounters { t.modSlot k f with slots := s.slots } s :=
  ⟨(congrArg (fun x : State => { x with slots := s.slots }) h.1 :), h.2⟩

/-- A line whose sample is gone changes the slot by its count alone. -/
theorem State.workOn_modSlot {s : State} {k : Nat} (hk : k < s.slots.length) (f : Slot → Slot) :
    ((s.workOn k false { fixed := [], hit := none }).modSlot k f).slot k = f (s.slot k) ∧
      State.sameButCounters { (s.workOn k false { fixed := [], hit := none }).modSlot k f with slots := s.slots } s := by
  have hw := s.workOn_onlyCounters k false (c := { fixed := [], hit := none }) rfl
  refine ⟨?_, hw.modSlot k f⟩
  rw [State.slot_modSlot_self (by rw [hw.slots]; exact hk), State.slot_congr hw.slots]

/-- A packet that waited starts its sample with the time at which it was received. -/
theorem State.receive_after_frameStart {s : State} {k c : Nat} {tm : Dword} {rec : Recipe} (hc : s.creelOn = true)
    (hi : (s.slot k).input = [(tm, .frameStart)]) (hph : (s.slot k).phase = .idle) (hk : k < s.slots.length) (hrec : s.slotRec k = some rec)
    (hpt : rec.points = false) (hof : s.openFor k = some c) (hcb : (s.recipeCb rec).isSome = true) :
    s.receive k false (.discard 0x12 false) =
      s.modSlot k (fun x => { x with input := [], phase := .open (s.newSample k c tm 0) }) := by
  have hsl1 : (s.modSlot k Slot.cleared).slot k = Slot.cleared (s.slot k) := State.slot_modSlot_self hk _
  have hph1 : ((s.modSlot k Slot.cleared).slot k).phase = .idle := by rw [hsl1]; exact hph
  have hstart : (s.modSlot k Slot.cleared).startSample k tm 0 =
      (s.modSlot k Slot.cleared).modSlot k (fun x => { x with phase := .open (s.newSample k c tm 0) }) :=
    State.startSample_image hph1 hrec hpt hof hcb tm 0
  rw [State.modSlot_modSlot] at hstart
  refine (State.receive_drains hc hk _).trans ?_
  rw [hi]
  exact hstart

/-- A frame of all its lines completes its sample. -/
theorem State.completeSample_fills {s : State} {k : Nat} {sm : Sample} {i : Instance} {q : Pos} (hk : k < s.slots.length)
    (hin : s.inst? (s.slotBatch k) sm.counter = some i) (hq : i.pos[sm.position]? = some q) :
    ((s.completeSample k sm).slot k).phase = .idle ∧ ((s.completeSample k sm).slot k).good = inc32 (s.slot k).good ∧
      ((s.completeSample k sm).inst? (s.slotBatch k) sm.counter).map (fun j => j.pos[sm.position]?) =
        some (some { q with state := .received, cause := 0, sat := sm.sat, time := sm.time }) ∧
      State.sameButCreel (s.completeSample k sm) s := by
  obtain ⟨u, f, hu, hf, ht⟩ := s.completeSample_frame k sm
  have hku : k < u.slots.length := by rw [hu.slots, State.length_modSlot]; exact hk
  have hsl : (u.modSlot k f).slot k = f ({ s.slot k with phase := .idle, good := inc32 (s.slot k).good }) := by
    rw [State.slot_modSlot_self hku, State.slot_congr hu.slots]
    exact congrArg f (State.slot_modSlot_self hk _)
  have hus := hu.creel.trans ((State.modSlot_onlyCreel _ _ _).trans (State.modPos_onlyCreel s _ _ _ _))
  have hib := State.inst?_congr (show (u.modSlot k f).batches = _ from hu.batches) (s.slotBatch k) sm.counter
  rw [ht, hsl, hib]
  refine ⟨(hf _).1, (hf _).2, ?_, (State.modSlot_onlyCreel u k f).trans hus⟩
  refine (congrArg _ (State.inst?_modPos s _ _ _ _)).trans ?_
  rw [hin]
  simp [getElem?_modAt, hq]

/-- A frame of another number of lines corrupts its sample. -/
theorem State.endFrame_short {s : State} {k : Nat} {sm : Sample} {rec : Recipe} (hph : (s.slot k).phase = .open sm)
    (hrec : s.slotRec k = some rec) (hl : sm.lines.length ≠ rec.hIn) :
    ((s.endFrame k).slot k).phase = .idle ∧ ((s.endFrame k).slot k).corrupt = inc32 (s.slot k).corrupt ∧ (s.endFrame k).sameButIntake s := by
  have he : s.endFrame k = (s.corruptSample k).idleSlot k := by simp only [State.endFrame, hph, hrec, if_neg hl]
  obtain ⟨⟨w, hw⟩, hf⟩ := State.corruptSample_open hph
  have hlate : ((s.corruptSample k).slot k).phase ≠ .idle := by rw [hw]; exact nofun
  have hsl : ((s.corruptSample k).idleSlot k).slot k = { (s.corruptSample k).slot k with phase := .idle } :=
    State.slot_modSlot_self (State.lt_of_phase hlate) _
  rw [he, hsl, hw]
  exact ⟨rfl, rfl, (State.modSlot_onlyCreel _ _ _).intake.trans hf⟩

/-- The loss of a port's link reaches the one slot that listens to it. -/
theorem exec_phyLinkLoss {p k : Nat} {s t : State} (hp : p < 0x18) (hpo : s.portOn p = true)
    (hl : (List.range 32).filter (fun k => s.slotOn k && s.slotPort k == p) = [k]) (h : s.receive k false .linkLoss = t) :
    exec (.phyLinkLoss p) s = .next t := by
  change execPhyLinkLoss p s = _
  simp only [execPhyLinkLoss, hpo, hl, decide_eq_true hp, Bool.and_self, if_true, List.foldl_cons, List.foldl_nil, h]

/-- Settles O54: each packet is worked on when it arrives, or waits; what becomes of the sample follows from its phase. -/
theorem imageSamplesArrive : Obligations.ImageSamplesArrive := by
  unfold Obligations.ImageSamplesArrive
  refine ⟨?_, ?_, ?_, ?_, ?_, ?_, ?_, ?_, ?_, ?_, ?_, ?_, ?_, ?_, ?_⟩
  · intro p vc k c rec s hs hc hp hi hph hk hrec hpt hof hcb
    have ht := (State.csi2_now hs hp hc hk hi .frameStart).trans (State.startSample_image hph hrec hpt hof hcb s.time.now 0)
    refine ⟨_, s.newSample k c s.time.now 0, exec_csi2FrameStart ht, ?_, rfl, rfl, rfl, rfl, rfl, fun j hj => State.slot_modSlot_ne s _ hj, rfl⟩
    rw [State.slot_modSlot_self hk]
  · intro p vc k rec s hs hc hp hi hph hk hrec hof hoi hn
    exact ⟨_, exec_csi2FrameStart (State.csi2_now hs hp hc hk hi .frameStart), State.startSample_overrun hph hk hrec hof hoi hn 0⟩
  · intro p vc k ty bs sm rec s hs hc hp hi hph hrec him hty hdt hlen hl hcb hin
    obtain ⟨w, hw, hf⟩ := State.takeLine_joins (State.lt_of_slotOf hs) hph hrec him hty hdt hlen hl hcb hin
    exact ⟨_, _, exec_csi2LongPacket (State.csi2_now hs hp hc (State.lt_of_open hph) hi _), hw, rfl, rfl, rfl, rfl, hf⟩
  · intro p vc k ty bs sm rec s hs hc hp hi hph hrec him hty
    have hk := State.lt_of_slotOf hs
    have hline := fun crc lanes ovf ecc => exec_csi2LongPacket
      (State.csi2_now hs hp hc (State.lt_of_open hph) hi (.line ty bs crc lanes ovf ecc))
    refine ⟨?_, fun hn => ?_, fun hn hdt hlen hl l r hlr => ?_, fun a os hn hdt hlen hl => ?_⟩
    · obtain ⟨h1, h2, hf⟩ := State.takeLine_badCrc hk hph hrec him hty bs
      exact ⟨_, hline _ _ _ _, h1, h2, hf.steps, hf.ctxs, hf.hasp⟩
    · obtain ⟨h1, -, h3, h4⟩ := State.takeLine_error hph hn (State.takeLine_overflow hk hph hrec him hty bs)
      exact ⟨_, hline _ _ _ _, h1, h3, h4⟩
    · obtain ⟨h1, -, h3, h4⟩ := State.takeLine_error hph hn (State.takeLine_integrity hk hph hrec him hty hdt hlen hl hlr)
      exact ⟨_, hline _ _ _ _, h1, h3, h4⟩
    · exact ⟨_, hline _ _ _ _,
        State.takeLine_error hph hn (State.takeLine_uncorrectable hk hph hrec him hty hdt hlen hl a os)⟩
  · intro p vc k ty bs sm s hs hc hp hi hph hty him
    have ht : s.takeLine k ty bs false true false { fixed := [], hit := none } = (s.dropOne k).corruptSample k := by
      simp [State.takeLine, hty, him]
    exact ⟨_, exec_csi2LongPacket ((State.csi2_now hs hp hc (State.lt_of_open hph) hi _).trans ht), State.dropOne_corrupt hph⟩
  · intro p vc k ty bs s hs hc hp hi hrec hk him hty
    have hline := State.csi2_now hs hp hc hk hi (.line ty bs true true false { fixed := [], hit := none })
    have hend := State.csi2_now hs hp hc hk hi .frameEnd
    obtain ⟨hlate, hdrop, hidle⟩ := State.takeLine_closed (s := s) him hty bs
    have hslot : ∀ f : Slot → Slot, (s.modSlot k f).slot k = f (s.slot k) := State.slot_modSlot_self hk
    refine ⟨fun hph => ⟨?_, ?_⟩, fun hph => ⟨?_, ?_⟩, fun hph => ⟨?_, ?_⟩⟩
    · exact ⟨_, exec_csi2LongPacket (hline.trans (hlate hph)), State.workOn_modSlot hk _⟩
    · have he : s.endFrame k = (s.lateOne k).idleSlot k := by simp only [State.endFrame, hph]
      exact ⟨_, exec_csi2FrameEnd ((hend.trans he).trans (State.modSlot_modSlot _ _ _ _)), hslot _, rfl⟩
    · have hkeep := (State.modSlot_of_eq (s := s.workOn k false { fixed := [], hit := none }) (k := k) (f := id) rfl).symm
      exact ⟨_, exec_csi2LongPacket (hline.trans ((hdrop hph).trans hkeep)), State.workOn_modSlot hk _⟩
    · have he : s.endFrame k = s.idleSlot k := by simp only [State.endFrame, hph]
      exact ⟨_, exec_csi2FrameEnd (hend.trans he), hslot _, rfl⟩
    · exact ⟨_, exec_csi2LongPacket (hline.trans (hidle hph)), State.workOn_modSlot hk _⟩
    · have he : s.endFrame k = s.dropOne k := by simp only [State.endFrame, hph]
      exact ⟨_, exec_csi2FrameEnd (hend.trans he), hslot _, rfl⟩
  · intro p vc k ty bs crc lanes ovf fixed waits ecc s hs hp hin hk hw
    exact ⟨_, exec_csi2LongPacket (State.csi2_waits hs hp hin hw fixed _),
      State.slot_modSlot_self hk (fun y => Slot.waits s.time.now (.line ty bs crc lanes ovf ecc) (Slot.fixes fixed y)),
      fun j hj => State.slot_modSlot_ne s _ hj, rfl⟩
  · intro p vc k c tm rec s hs hc hp hi hph hk hrec hpt hof hcb
    have ht := (State.csi2_plain hs hp false (.discard 0x12 false)).trans
      (State.receive_after_frameStart hc hi hph hk hrec hpt hof hcb)
    have hslot := State.slot_modSlot_self hk (fun x => { x with input := [], phase := .open (s.newSample k c tm 0) })
    refine ⟨_, s.newSample k c tm 0, exec_csi2PacketDiscard ht, ?_, ?_, rfl, rfl, fun j hj => State.slot_modSlot_ne s _ hj, rfl⟩
    · rw [hslot]
    · rw [hslot]
  · intro p vc ty bs b c d e f h ecc s hno
    exact ⟨exec_csi2FrameStart (State.csi2_none hno _ _ _), exec_csi2FrameEnd (State.csi2_none hno _ _ _),
      exec_csi2PacketDiscard (State.csi2_none hno _ _ _), exec_csi2LongPacket (State.csi2_none hno _ _ _)⟩
  · intro p vc k sm rec i q s hs hc hp hi hph hrec hl hin hq
    have hk := State.lt_of_open hph
    have he : s.endFrame k = s.completeSample k sm := by simp only [State.endFrame, hph, hrec, if_pos hl]
    obtain ⟨h1, h2, h3, hf⟩ := State.completeSample_fills (sm := sm) hk hin hq
    exact ⟨_, exec_csi2FrameEnd ((State.csi2_now hs hp hc hk hi _).trans he), h1, h2, h3, hf⟩
  · intro p vc k sm rec s hs hc hp hi hph hrec hl
    obtain ⟨h1, h2, hf⟩ := State.endFrame_short hph hrec hl
    exact ⟨_, exec_csi2FrameEnd (State.csi2_now hs hp hc (State.lt_of_open hph) hi _), h1, h2, hf.steps, hf.ctxs, hf.hasp⟩
  · intro p vc k sm ty fx s hs hc hp hi hph
    refine ⟨_, exec_csi2PacketDiscard ?_, State.dropOne_corrupt hph⟩
    rw [Bool.not_true, Bool.and_false]
    exact State.csi2_now hs hp hc (State.lt_of_open hph) hi _
  · intro p vc k ty fx s hs hc hp hi h4 hty him hk
    have ht : ∀ u : State, u.takeDiscard k ty false = u.dropOne k := fun u => by
      simp [State.takeDiscard, him, hty, show ¬ ty ≤ 3 by omega]
    refine ⟨_, exec_csi2PacketDiscard (State.csi2_drops hs hp hc hk hi _ ht), ?_, fun j hj => State.slot_modSlot_ne s _ hj, rfl⟩
    rw [State.slot_modSlot_self hk, Bool.not_false, Bool.and_true]
    rfl
  · intro p k s hp hin hc hpo hk hl
    exact ⟨_, exec_phyLinkLoss hp hpo hl (State.receive_waits hin (.inr hc) k _), State.slot_modSlot_self hk _,
      fun j hj => State.slot_modSlot_ne s _ hj, rfl⟩
  · intro p k sm s hp hc hpo hl hph hi
    obtain ⟨⟨w, hw⟩, hf⟩ := State.corruptSample_open hph
    exact ⟨_, exec_phyLinkLoss hp hpo hl (State.receive_now hc (State.lt_of_open hph) hi _), congrArg Slot.phase hw, congrArg Slot.corrupt hw,
      hf.steps, hf.ctxs, hf.hasp⟩

end Machine

end Sys2Proof

namespace Sys2Proof

namespace Machine

set_option Elab.async false

/-! ### What reads leave, and what data lost leaves while there is no step (R248, R251, R265) -/

theorem State.sameButReads.refl (s : State) : s.sameButReads s := (State.sameButDraws.refl s).reads

theorem State.sameButReads.dies {t s : State} (h : t.sameButReads s) : t.sameButDies s := h.1

theorem State.sameButReads.trans {a b c : State} (h : a.sameButReads b) (k : b.sameButReads c) : a.sameButReads c := by
  refine ⟨h.dies.trans k.dies, fun d => ?_⟩
  have hd := h.2 d
  have kd := k.2 d
  rw [← kd, ← hd]

theorem State.sameButReads.foldl {α : Type} {f : State → α → State} (h : ∀ t x, (f t x).sameButReads t) (l : List α) :
    ∀ s, (l.foldl f s).sameButReads s := by
  induction l with
  | nil => exact fun s => .refl s
  | cons x l ih => exact fun s => (ih (f s x)).trans (h s x)

theorem dataCorrected_onlyReads (s : State) (x : DataAt) : (dataCorrected s x).sameButReads s := by
  cases x with
  | beam d a => exact ((bumpAon_onlyDraws _ _ _ _ (dieNo_lt d)).trans (countEv_onlyDraws s _ (dieNo_lt d))).reads
  | gddr d a =>
    refine ((bumpAon_onlyDraws _ _ _ _ (dieNo_lt d)).trans (countEv_onlyDraws _ _ (dieNo_lt d))).reads.trans ?_
    refine ⟨State.modWeft_onlyDies s d _, fun d' => ?_⟩
    cases d <;> cases d' <;> rfl
  | host c a => exact .refl s
  | pair n a => exact .refl s

/-- Checks that find no uncorrectable error. -/
theorem State.readChecks_onlyReads (s : State) (fs : List DataAt) (work : Option Nat) :
    (s.readChecks { fixed := fs, hit := none } work).sameButReads s := .foldl dataCorrected_onlyReads fs s

theorem State.endCtx_noSteps {s : State} (h : s.steps = []) (c status : Nat) : s.endCtx c status = s := by
  simp [State.endCtx, State.begunStep, h]

theorem State.begunCtxs_noSteps {s : State} (h : s.steps = []) (p : Step → Bool) : s.begunCtxs p = [] := by
  simp [State.begunCtxs, h]

/-- Without steps, data lost to an owner marks an instance or a draft table entry at most. -/
theorem State.eccOwner_noSteps {s : State} (h : s.steps = []) (o : Owner) :
    { s.eccOwner o with batches := s.batches, drafts := s.drafts } = s := by
  cases o with
  | step c => rw [State.eccOwner, State.endCtx_noSteps h]
  | batch b c => rw [State.eccOwner, State.begunCtxs_noSteps h]; rfl
  | entry e => rw [State.eccOwner, State.begunCtxs_noSteps h]; rfl
  | nothing => rfl

/-- An instance that loses its data. -/
def Instance.loses (i : Instance) : Instance := { i with eccFail := true }

theorem State.eccOwner_batch_noSteps {s : State} (h : s.steps = []) (b c : Nat) : s.eccOwner (.batch b c) = s.modInst b c Instance.loses := by
  rw [State.eccOwner, State.begunCtxs_noSteps h]
  rfl

theorem State.eccOwner_inst? {s : State} (h : s.steps = []) (o : Owner) {b c : Nat} {i : Instance} (hi : s.inst? b c = some i) :
    (s.eccOwner o).inst? b c = some i ∨ (s.eccOwner o).inst? b c = some i.loses := by
  cases o with
  | step c' => rw [State.eccOwner, State.endCtx_noSteps h]; exact .inl hi
  | batch b' c' =>
    rw [State.eccOwner_batch_noSteps h, State.inst?_modInst_at s b c b' c' (f := Instance.loses) (fun _ => rfl), hi, Option.map_some]
    split
    · exact .inr rfl
    · exact .inl rfl
  | entry e => rw [State.eccOwner, State.begunCtxs_noSteps h]; exact .inl hi
  | nothing => exact .inl hi

/-- A line of Beam SRAM is lost while there is no step: its owner is marked and its silent source raised. -/
theorem State.dataLost_beam_noSteps {s : State} (hs : s.steps = []) {w : Weft} (hn : s.silent (weftSrc w 0x20)) (a : Nat) (m : Byte)
    (work : Option Nat) :
    ∃ o, (s.dataLost { place := .beam w a, master := m } work).sameButHealth (s.eccOwner o) ∧
      (s.dataLost { place := .beam w a, master := m } work).hasp.raised.contains (weftSrc w 0x20) = true := by
  set o := s.beamOwner w a with ho
  have hso := State.eccOwner_noSteps hs o
  have hno : (s.eccOwner o).silent (weftSrc w 0x20) := by
    obtain ⟨h1, h2, h3⟩ := hn
    have hh : (s.eccOwner o).hasp = s.hasp := (congrArg (fun x : State => x.hasp) hso :)
    have hr : ∀ r, (s.eccOwner o).reg r = s.reg r := fun r => (congrArg (fun x : State => x.reg r) hso :)
    exact ⟨h1, hh ▸ h2, (hr _).trans h3⟩
  set c := cap ((ownerCtx o).or work) m 1 (BitVec.ofNat 64 a) 0 with hc
  have ht : s.dataLost { place := .beam w a, master := m } work = bumpAon ((s.eccOwner o).raise (weftSrc w 0x20) c) (dieNo w) 5 1 := rfl
  obtain ⟨hr, hcap, -⟩ := State.raise_silent _ _ c hno
  have hb := bumpAon_onlyCounters ((s.eccOwner o).raise (weftSrc w 0x20) c) (dieNo w) 5 1 (dieNo_lt w)
  rw [ht]
  refine ⟨o, (State.sameButHealth.of_counters hb).trans hr, ?_⟩
  rw [hb.hasp]
  exact hcap.1

/-! ### Instances that become ready (R21, R241, R242) -/

/-- A read of the bytes just written. -/
theorem Memory.readBytes_writeBytes {m : Memory} (h : m.wf = true) (a : Nat) (bs : List Byte) :
    (m.writeBytes a bs).readBytes a bs.length = bs := by
  simp only [Memory.readBytes, fromTo, List.map_map]
  refine List.ext_getElem (by simp) fun i hi hb => ?_
  simp [Memory.read_writeBytes _ _ _ _ h, hb]

/-- The dies after Creel writes: the bytes given for each, at the instance's bases. -/
theorem State.creelPut_beams (s : State) (k off : Nat) (i : Instance) (onA onB : List Byte) :
    (s.creelPut k off i onA onB).wa = { s.wa with beam := s.wa.beam.writeBytes (i.baseA + off) onA } ∧
      (s.creelPut k off i onA onB).wb = { s.wb with beam := s.wb.beam.writeBytes (i.baseB + off) onB } := by
  set s2 := (s.modWeft .a (fun w => { w with beam := w.beam.writeBytes (i.baseA + off) onA })).modWeft .b
    (fun w => { w with beam := w.beam.writeBytes (i.baseB + off) onB }) with hs2
  have hcounts : (s.creelPut k off i onA onB).sameButDraws s2 :=
    (State.slotEv_onlyDraws _ _ _ _ _).trans ((State.beamBytes_onlyDraws _ _ _ _ _ _).trans ((State.beamBytes_onlyDraws _ _ _ _ _ _).trans
      ((State.linkBytes_onlyDraws (by decide) (by decide) _ _ _).trans (State.linkBytes_onlyDraws (by decide) (by decide) s2 _ _))))
  exact ⟨(congrArg (fun x : State => x.wa) hcounts.1 :), (congrArg (fun x : State => x.wb) hcounts.1 :)⟩

/-- What Creel has written on both dies reads back. -/
theorem State.creelPut_read {s : State} (hwa : s.wa.memWf = true) (hwb : s.wb.memWf = true) (k off : Nat) (i : Instance) (onA onB : List Byte) :
    (s.creelPut k off i onA onB).wa.beam.readBytes (i.baseA + off) onA.length = onA ∧
      (s.creelPut k off i onA onB).wb.beam.readBytes (i.baseB + off) onB.length = onB := by
  obtain ⟨ha, hb⟩ := State.creelPut_beams s k off i onA onB
  rw [ha, hb]
  exact ⟨Memory.readBytes_writeBytes (s.wa.beam_wf hwa) _ _, Memory.readBytes_writeBytes (s.wb.beam_wf hwb) _ _⟩

theorem State.releaseInsts_onlyBatches (s : State) (b : Nat) : { s.releaseInsts b with batches := s.batches } = s := rfl

theorem find?_counter {l : List Instance} {i : Instance} (hi : i ∈ l) (honly : ∀ j ∈ l, j.counter = i.counter → j = i) :
    l.find? (fun j => j.counter == i.counter) = some i := by
  obtain ⟨j, hj⟩ := Option.isSome_iff_exists.mp (List.find?_isSome (p := fun j => j.counter == i.counter) |>.mpr ⟨i, hi, by simp⟩)
  rw [hj, honly j (List.mem_of_find?_eq_some hj) (by simpa using List.find?_some hj)]

/-- Releasing buffers keeps an instance that is not in use, the last of its batch. -/
theorem State.releaseInsts_keeps {s : State} {b : Nat} {i : Instance} (hi : i ∈ (s.batch b).instances)
    (honly : ∀ j ∈ (s.batch b).instances, j.counter = i.counter → j = i) (hlast : ∀ j ∈ (s.batch b).instances, j.counter ≤ i.counter)
    (hst : i.started = false) (hd : i.discarded = false) (hr : i.released = false) :
    (s.releaseInsts b).inst? b i.counter = some i := by
  have hb : ∃ x, s.batches[b]? = some x := by
    cases h : s.batches[b]? with
    | none => simp [State.batch, h, Batch.reset] at hi
    | some x => exact ⟨x, rfl⟩
  obtain ⟨x, hx⟩ := hb
  have hxi : s.batch b = x := by simp [State.batch, hx]
  have hlater : (s.batch b).instances.any (fun j => decide (i.counter < j.counter) && j.ready) = false := by
    refine List.any_eq_false.mpr fun j hj => ?_
    simp [Nat.not_lt.mpr (hlast j hj)]
  simp only [State.releaseInsts, State.inst?, State.batch, State.modBatch, getElem?_modAt, if_true, hx, Option.map_some, Option.getD_some]
  rw [hxi] at hi honly hlater
  refine find?_counter ?_ fun j hj hc => ?_
  · refine List.mem_filter.mpr ⟨List.mem_map.mpr ⟨i, hi, ?_⟩, by simp [hr]⟩
    simp [hst, hd, hlater]
  · obtain ⟨j', hj', rfl⟩ := List.mem_map.mp (List.mem_filter.mp hj).1
    have hc' : j'.counter = i.counter := by
      rw [← hc]
      split <;> rfl
    rw [honly j' hj' hc']
    simp [hst, hd, hlater]

theorem State.sameButDies.onlyBatches {t s : State} (h : State.sameButDies { t with batches := s.batches } s) :
    State.sameButCounters { t with batches := s.batches, wa := s.wa, wb := s.wb, freshCtr := s.freshCtr } s := h

theorem State.inst?_mem {s : State} {b c : Nat} {i : Instance} (h : s.inst? b c = some i) : i ∈ (s.batch b).instances :=
  List.mem_of_find?_eq_some h

/-- A full instance becomes ready, with its manifest behind its tensor on both dies. -/
theorem State.instReady_frame {s : State} {b c : Nat} {i r : Instance} {bs : List Byte} (hr : r = { i with ready := true, readyTime := s.time.now })
    (hbs : bs = r.manifest b) (hi : s.inst? b c = some i) (hd : i.discarded = false)
    (hrel : i.released = false) (hu : ∀ x ∈ s.steps, x.uses b c = false) (hlast : ∀ j ∈ (s.batch b).instances, j.counter ≤ c)
    (hst : i.started = false) (hwa : s.wa.memWf = true) (hwb : s.wb.memWf = true) :
    (s.instReady b c i).inst? b c = some r ∧
      (s.instReady b c i).wa.beam.readBytes (r.baseA + i.tensorBytes) bs.length = bs ∧
      (s.instReady b c i).wb.beam.readBytes (r.baseB + i.tensorBytes) bs.length = bs ∧
      State.sameButDies { s.instReady b c i with batches := s.batches } s := by
  have hc : r.counter = c := (congrArg Instance.counter hr).trans (State.counter_of_inst? (i := i) hi)
  have hfl : r.started = false ∧ r.discarded = false ∧ r.released = false := hr ▸ ⟨hst, hd, hrel⟩
  have hunf : s.instReady b c i = ((((s.modInst b c (fun _ => r)).creelPut (s.batchSlot b) i.tensorBytes r bs bs).steps.filter
      (fun t => t.uses b c && t.stage != .waiting)).foldl State.armAge
        (((s.modInst b c (fun _ => r)).creelPut (s.batchSlot b) i.tensorBytes r bs bs).releaseInsts b)) := by rw [hbs, hr]; rfl
  have hf := State.creelPut_onlyDies (s.modInst b c (fun _ => r)) (s.batchSlot b) i.tensorBytes r bs bs
  obtain ⟨hra, hrb⟩ := State.creelPut_read (s := s.modInst b c (fun _ => r)) hwa hwb (s.batchSlot b) i.tensorBytes r bs bs
  generalize (s.modInst b c (fun _ => r)).creelPut (s.batchSlot b) i.tensorBytes r bs bs = s1 at hunf hf hra hrb
  have hsteps : s1.steps.filter (fun t => t.uses b c && t.stage != .waiting) = [] := by
    have : s1.steps = s.steps := (congrArg (fun x : State => x.steps) hf.1 :)
    rw [this]
    refine List.filter_eq_nil_iff.mpr fun t ht => ?_
    simp [hu t ht]
  have hbatch : (s1.batch b).instances = (s.batch b).instances.map (fun j => if j.counter = c then r else j) := by
    have : s1.batches = (s.modInst b c (fun _ => r)).batches := hf.batches
    simp only [State.batch, this, State.modInst, State.modBatch, getElem?_modAt, if_true]
    cases s.batches[b]? <;> rfl
  rw [hunf, hsteps, List.foldl_nil]
  refine ⟨?_, hra, hrb, (congrArg (fun x : State => { x with batches := s.batches }) hf.1 :), hf.2⟩
  rw [← hc]
  refine State.releaseInsts_keeps ?_ (fun j hj hcj => ?_) (fun j hj => ?_) hfl.1 hfl.2.1 hfl.2.2
  · rw [hbatch]
    exact List.mem_map.mpr ⟨i, State.inst?_mem hi, if_pos (State.counter_of_inst? hi)⟩
  · rw [hbatch] at hj
    obtain ⟨j', hj', rfl⟩ := List.mem_map.mp hj
    split at hcj
    next h => rw [if_pos h]
    next h => exact absurd (hcj.trans hc) h
  · rw [hbatch] at hj
    obtain ⟨j', hj', rfl⟩ := List.mem_map.mp hj
    split
    next h => exact le_refl _
    next h => exact hc ▸ hlast j' hj'

end Machine

end Sys2Proof

namespace Sys2Proof

namespace Machine

set_option Elab.async false

/-! ### Point sweeps (R214, R215, R231) -/

/-- t is s but for counters, draws, the dies and the stream slots. -/
def State.sameButSlots (t s : State) : Prop := State.sameButDies { t with slots := s.slots } s

theorem State.sameButSlots.refl (s : State) : s.sameButSlots s := State.sameButDies.refl s

theorem State.sameButSlots.trans {a b c : State} (h : a.sameButSlots b) (k : b.sameButSlots c) : a.sameButSlots c := by
  refine ⟨?_, fun o ho => (h.2 o ho).trans (k.2 o ho)⟩
  obtain ⟨h, -⟩ := h
  obtain ⟨k, -⟩ := k
  rw [← k, ← h]

theorem State.sameButDies.onlySlots {t s : State} (h : t.sameButDies s) : t.sameButSlots s := by
  have h1 := h.1
  refine ⟨?_, h.2⟩
  conv_rhs => rw [← h1]
  conv_lhs => rw [← h1]

theorem State.modSlot_onlySlots (s : State) (k : Nat) (f : Slot → Slot) : (s.modSlot k f).sameButSlots s := ⟨rfl, fun _ _ => rfl⟩

theorem State.sameButDraws.openFor {t s : State} (h : t.sameButDraws s) {k : Nat} (hk : k < 32) : t.openFor k = s.openFor k := by
  have hb : t.batch (s.slotBatch k) = s.batch (s.slotBatch k) := by simp only [State.batch, h.dies.batches]
  have hp : t.slotPos k = s.slotPos k := by simp only [State.slotPos, h.reg (oSlotBind_plain hk)]
  unfold State.openFor
  rw [h.slotBatch hk, hb, hp]

/-- A sample begins in an open instance that lacks it; a sweep's rows are zero rows first. -/
theorem State.startSample_open {s : State} {k c : Nat} {rec : Recipe} (hph : (s.slot k).phase = .idle) (hrec : s.slotRec k = some rec)
    (hof : s.openFor k = some c) (hcb : (s.recipeCb rec).isSome = true) (time : Dword) (sweep : Nat) :
    (s.startSample k time sweep).sameButDies (s.modSlot k (fun x => { x with phase := .open (s.newSample k c time sweep) })) := by
  obtain ⟨cb, hcb⟩ := Option.isSome_iff_exists.mp hcb
  obtain ⟨i, hi⟩ := State.inst?_of_openFor hof
  set s1 := s.modSlot k (fun x => { x with phase := .open (s.newSample k c time sweep) }) with hs1
  have hcb1 : s1.recipeCb rec = some cb := hcb
  have hi1 : s1.inst? (s.slotBatch k) c = some i := hi
  have hb : s.beginSample k rec c time sweep = (match s1.recipeCb rec, s1.inst? (s.slotBatch k) c with
    | some _, some i => if rec.points then s1.zeroPos (s.slotBatch k) i (s.slotPos k) k rec else s1
    | _, _ => s1.corruptSample k) := rfl
  simp only [State.startSample, State.corruptSample_idle hph, hrec, hof, hb, hcb1, hi1]
  split
  · exact State.zeroPos_onlyDies _ _ _ _ _ _
  · exact .refl _

/-- A slot that goes on with a sweep: its open sample is of the same instance, time, sweep and next packet, its sensor time the same. -/
def Slot.sweeps (sm : Sample) (st : Dword) (x : Slot) : Prop :=
  (∃ m, x.phase = .open m ∧ m.counter = sm.counter ∧ m.time = sm.time ∧ m.sweep = sm.sweep ∧ m.nextSeq = sm.nextSeq) ∧ x.sensorTime = st

theorem State.takePoint_sweeps {s : State} {k : Nat} {sm : Sample} {st : Dword} (h : (s.slot k).sweeps sm st) (rec : Recipe) (p : Point) :
    ((s.takePoint k rec p).slot k).sweeps sm st ∧ (s.takePoint k rec p).sameButSlots s := by
  have keep : (s.slot k).sweeps sm st ∧ s.sameButSlots s := ⟨h, .refl s⟩
  obtain ⟨⟨m, hm, hkeep⟩, hst⟩ := h
  have hk := State.lt_of_open hm
  have drop : ((s.dropOne k).slot k).sweeps sm st ∧ (s.dropOne k).sameButSlots s := by
    refine ⟨?_, State.modSlot_onlySlots s _ _⟩
    rw [State.dropOne, State.slot_modSlot_self hk]
    exact ⟨⟨m, hm, hkeep⟩, hst⟩
  simp only [State.takePoint, hm]
  split
  · exact keep
  · split
    · exact drop
    · split
      · exact drop
      · split
        · refine ⟨?_, (State.modSlot_onlySlots _ _ _).trans (State.putRow_onlyDies s _ _ _ _ _ _ _ _ _).onlySlots⟩
          rw [State.slot_modSlot_self (by rw [(State.putRow_onlyDies s _ _ _ _ _ _ _ _ _).slots]; exact hk),
            State.slot_congr (State.putRow_onlyDies s _ _ _ _ _ _ _ _ _).slots]
          exact ⟨⟨_, rfl, hkeep⟩, hst⟩
        · exact keep

theorem State.takePoints_sweep {k : Nat} {sm : Sample} {st : Dword} (rec : Recipe) (bs : List Byte) (l : List Nat) : ∀ s : State,
    (s.slot k).sweeps sm st → ((l.foldl (fun t i => t.takePoint k rec (pointAt bs i)) s).slot k).sweeps sm st ∧
      (l.foldl (fun t i => t.takePoint k rec (pointAt bs i)) s).sameButSlots s := by
  induction l with
  | nil => exact fun s h => ⟨h, .refl s⟩
  | cons i l ih =>
    intro s h
    obtain ⟨h1, hf⟩ := State.takePoint_sweeps h rec (pointAt bs i)
    obtain ⟨h2, hg⟩ := ih _ h1
    exact ⟨h2, hg.trans hf⟩

/-- A packet that is not the last of its sweep: its points join the sweep, which waits for the next. -/
theorem State.takePacket_sweeps {s : State} {k : Nat} {sm : Sample} (h : (s.slot k).phase = .open sm) (rec : Recipe) {bs : List Byte}
    (hlast : bitN (leAt bs 5 1) 1 = false) :
    ((s.takePacket k rec bs).slot k).sweeps { sm with nextSeq := sm.nextSeq + 1 } (BitVec.ofNat 64 (leAt bs 16 8)) ∧
      (s.takePacket k rec bs).sameButSlots s := by
  have hk := State.lt_of_open h
  set s0 := s.modSlot k (fun x => { x with sensorTime := BitVec.ofNat 64 (leAt bs 16 8) }) with hs0
  have h0 : (s0.slot k).sweeps sm (BitVec.ofNat 64 (leAt bs 16 8)) := by
    rw [hs0, State.slot_modSlot_self hk]
    exact ⟨⟨sm, h, rfl, rfl, rfl, rfl⟩, rfl⟩
  obtain ⟨h1, hf⟩ := State.takePoints_sweep rec bs (List.range (leAt bs 14 2)) s0 h0
  have ht : s.takePacket k rec bs = (match (((List.range (leAt bs 14 2)).foldl (fun t i => t.takePoint k rec (pointAt bs i)) s0).slot k).phase with
    | .open sm =>
      if bitN (leAt bs 5 1) 1 then
        ((List.range (leAt bs 14 2)).foldl (fun t i => t.takePoint k rec (pointAt bs i)) s0).completeSample k { sm with nextSeq := sm.nextSeq + 1 }
      else ((List.range (leAt bs 14 2)).foldl (fun t i => t.takePoint k rec (pointAt bs i)) s0).modSlot k
        (fun x => { x with phase := .open { sm with nextSeq := sm.nextSeq + 1 } })
    | _ => (List.range (leAt bs 14 2)).foldl (fun t i => t.takePoint k rec (pointAt bs i)) s0) := rfl
  rw [ht]
  generalize (List.range (leAt bs 14 2)).foldl (fun t i => t.takePoint k rec (pointAt bs i)) s0 = s1 at h1 hf ⊢
  obtain ⟨⟨m, hm, hc, htm, hsw, hn⟩, hst⟩ := h1
  simp only [hm, hlast, Bool.false_eq_true, if_false]
  refine ⟨?_, (State.modSlot_onlySlots _ _ _).trans (hf.trans (State.modSlot_onlySlots s _ _))⟩
  rw [State.slot_modSlot_self (State.lt_of_open hm)]
  exact ⟨⟨_, rfl, hc, htm, hsw, by rw [hn]⟩, hst⟩

/-- The first packet of a sweep opens its sample. -/
theorem State.pointPacket_first {s : State} {k c : Nat} {rec : Recipe} {bs : List Byte} (hph : (s.slot k).phase = .idle)
    (hk : k < s.slots.length) (hrec : s.slotRec k = some rec)
    (hof : s.openFor k = some c) (hcb : (s.recipeCb rec).isSome = true) (hok : packetOk bs = true) (hfirst : bitN (leAt bs 5 1) 0 = true)
    (hlast : bitN (leAt bs 5 1) 1 = false) (hseq : leAt bs 12 2 = 0) (time : Dword) :
    ((s.pointPacket k rec bs time none).slot k).sweeps { s.newSample k c time (leAt bs 8 4) with nextSeq := 1 } (BitVec.ofNat 64 (leAt bs 16 8)) ∧
      (s.pointPacket k rec bs time none).sameButSlots s := by
  have hs := State.startSample_open hph hrec hof hcb time (leAt bs 8 4)
  have hph1 : ((s.startSample k time (leAt bs 8 4)).slot k).phase = .open (s.newSample k c time (leAt bs 8 4)) := by
    rw [State.slot_congr hs.slots, State.slot_modSlot_self hk]
  have ht : s.pointPacket k rec bs time none = (s.startSample k time (leAt bs 8 4)).takePacket k rec bs := by
    simp [State.pointPacket, hok, hfirst, hseq, hph1]
  obtain ⟨h1, hf⟩ := State.takePacket_sweeps hph1 rec hlast
  rw [ht]
  exact ⟨h1, hf.trans (hs.onlySlots.trans (State.modSlot_onlySlots s _ _))⟩

/-! ### Ethernet frames (R213) -/

/-- A frame that carries no datagram for a slot, or one whose checks fail, is discarded. -/
theorem exec_ethernetFrame_drops {e k : Nat} {f ip udp : List Byte} {lanes waits : Bool} {ecc : IntakeCheck} {s : State}
    (hin : s.intakeOn = true) (hp : s.portOn (0x18 + e) = true) (hip : ipv4Of f = some ip) (hudp : udpOf ip = some udp)
    (hk : s.udpSlots e (beAt udp 2 2) = [k])
    (hbad : 9022 < f.length ∨ sumsOk ip udp = false ∨ fld (s.reg (oSlotSel k)) 15 0 ≠ leAt (udp.drop 8) 6 2) :
    exec (.ethernetFrame e f lanes ecc waits) s = .next (s.dropOne k) := by
  change execEthernetFrame e f lanes ecc waits s = _
  simp only [execEthernetFrame, hin, hp, Bool.and_self, Bool.not_true, Bool.false_eq_true, if_false, hip, hudp, hk]
  split
  next k' hfind hok =>
    simp only [Bool.and_eq_true, decide_eq_true_eq] at hok
    have hsel := List.find?_some hfind
    have hmem := List.mem_of_find?_eq_some hfind
    obtain rfl : k' = k := by simpa using hmem
    simp only [beq_iff_eq] at hsel
    rcases hbad with h | h | h
    · omega
    · rw [hok.2] at h; cases h
    · exact absurd hsel h
  next => rfl

theorem exec_ethernetFrame_receives {e k : Nat} {f ip udp : List Byte} {lanes waits : Bool} {ecc : IntakeCheck} {s : State}
    (hin : s.intakeOn = true) (hp : s.portOn (0x18 + e) = true) (hip : ipv4Of f = some ip) (hudp : udpOf ip = some udp)
    (hk : s.udpSlots e (beAt udp 2 2) = [k]) (hlen : f.length ≤ 9022) (hsum : sumsOk ip udp = true)
    (hsel : fld (s.reg (oSlotSel k)) 15 0 = leAt (udp.drop 8) 6 2) :
    exec (.ethernetFrame e f lanes ecc waits) s = .next (s.receive k waits (.point (udp.drop 8) lanes ecc)) := by
  change execEthernetFrame e f lanes ecc waits s = _
  simp only [execEthernetFrame, hin, hp, Bool.and_self, Bool.not_true, Bool.false_eq_true, if_false, hip, hudp, hk, hsum, decide_eq_true hlen,
    List.find?_cons, hsel, beq_self_eq_true]

theorem State.lt_of_udpSlots {s : State} {e dst k : Nat} (h : s.udpSlots e dst = [k]) : k < 32 :=
  List.mem_range.mp (List.mem_filter.mp (h ▸ List.mem_singleton_self k : k ∈ s.udpSlots e dst)).1

end Machine

end Sys2Proof

namespace Sys2Proof

namespace Machine

set_option Elab.async false

/-! ### Close times (R31, R239) -/

/-- A slot whose open sample, when it is of an instance, is late. -/
def Slot.lateFor (c : Nat) (x : Slot) : Slot :=
  match x.phase with
  | .open sm => if sm.counter = c then { x with phase := .late } else x
  | _ => x

theorem State.markLate_eq (s : State) (k c : Nat) : s.markLate k c = s.modSlot k (Slot.lateFor c) := rfl

theorem Slot.lateFor_hold (c : Nat) (x : Slot) : (x.lateFor c).hold = x.hold := by
  unfold Slot.lateFor
  split
  · split <;> rfl
  · rfl

theorem Slot.lateFor_substituted (c : Nat) (x : Slot) : (x.lateFor c).substituted = x.substituted := by
  unfold Slot.lateFor
  split
  · split <;> rfl
  · rfl

/-- The close time of an instance's one position comes while it is empty: the sample being received is late, and the position is filled from
the hold sample or from zero rows, with cause 2. -/
theorem State.close_frame {s : State} {b c : Nat} {i : Instance} {p : Pos} {rec : Recipe} (hi : s.inst? b c = some i) (hp : i.pos = [p])
    (he : p.state = .empty) (hr : s.slotRec p.stream = some rec) (hk : p.stream < s.slots.length) :
    ∃ u : State, u.sameButSlots s ∧
      (u.slot p.stream) = Slot.countSubst ((s.slot p.stream).lateFor c) ∧
      (s.markLate p.stream c).substitute b c 0 2 = u.modPos b c 0 (s.filling rec (s.slot p.stream).hold i 2) := by
  have hlen : p.stream < (s.modSlot p.stream (Slot.lateFor c)).slots.length := by rw [State.length_modSlot]; exact hk
  obtain ⟨u, hu, ht⟩ := State.substitute_empty (s := s.modSlot p.stream (Slot.lateFor c)) (b := b) (c := c) (q := 0) (i := i) (p := p) (rec := rec) 2
    hi (by rw [hp]; rfl) he hr
  have hslot : ((s.modSlot p.stream (Slot.lateFor c)).modSlot p.stream Slot.countSubst).slot p.stream =
      Slot.countSubst ((s.slot p.stream).lateFor c) := by rw [State.slot_modSlot_self hlen, State.slot_modSlot_self hk]
  have hhold : (Slot.countSubst ((s.slot p.stream).lateFor c)).hold = (s.slot p.stream).hold := Slot.lateFor_hold c _
  refine ⟨u, hu.onlySlots.trans ((State.modSlot_onlySlots _ _ _).trans (State.modSlot_onlySlots s _ _)), ?_, ?_⟩
  · rw [State.slot_congr hu.slots, hslot]
  · rw [hslot, hhold] at ht
    exact ht

theorem State.sameButSlots.batches {t s : State} (h : t.sameButSlots s) : t.batches = s.batches := (congrArg (fun x : State => x.batches) h.1 :)

/-- The one position of an instance after a change of it. -/
theorem State.onePos_modPos {s u : State} (hu : u.sameButSlots s) {b c : Nat} {i : Instance} {p : Pos} (hi : s.inst? b c = some i)
    (hp : i.pos = [p]) (f : Pos → Pos) : ((u.modPos b c 0 f).inst? b c).map (fun j => j.pos) = some [f p] := by
  rw [State.inst?_modPos, State.inst?_congr hu.batches, hi]
  simp [hp, modAt]

theorem exec_batchCloseTimeout {s : State} {b c : Nat} {i : Instance} {p : Pos} {rec : Recipe} (hi : s.inst? b c = some i)
    (hready : i.ready = false) (hd : i.discarded = false) (hp : i.pos = [p]) (he : p.state = .empty) (hr : s.slotRec p.stream = some rec)
    (hdue : i.openTime.toNat + rec.closeUs * 1000 ≤ s.time.now.toNat) :
    exec (.batchCloseTimeout b c) s = .next ((s.markLate p.stream c).substitute b c 0 2) := by
  change execBatchCloseTimeout b c s = _
  have hcd : s.closeDue i p = true := by simp [State.closeDue, he, hr, hdue]
  simp [execBatchCloseTimeout, hi, hready, hd, hp, hcd]

/-! ### Copies of hold samples (R239, R240, R265) -/

/-- A slot whose copy into its hold is complete. -/
def Slot.holds (h : Hold) (x : Slot) : Slot := { x with hold := some h, half := !x.half, copying := none }

/-- A slot whose copy lost lines. -/
def Slot.copyLost (x : Slot) : Slot := { x with copying := none }

theorem exec_holdCopyDone_fixed {s : State} {k : Nat} {h : Hold} (hc : (s.slot k).copying = some h) (fs : List DataAt) :
    exec (.holdCopyDone k { fixed := fs, hit := none }) s = .next ((s.readChecks { fixed := fs, hit := none } none).modSlot k (Slot.holds h)) := by
  change execHoldCopyDone k { fixed := fs, hit := none } s = _
  simp only [execHoldCopyDone, hc]
  rfl

theorem exec_holdCopyDone_lost {s : State} {k : Nat} {h : Hold} (hc : (s.slot k).copying = some h) (hit : EccHit) :
    exec (.holdCopyDone k { fixed := [], hit := some hit }) s = .next ((s.dataLost hit none).modSlot k Slot.copyLost) := by
  change execHoldCopyDone k { fixed := [], hit := some hit } s = _
  simp only [execHoldCopyDone, hc]
  rfl

/-- A position whose copy from the hold is complete. -/
def Pos.copied (p : Pos) : Pos := { p with state := .lastGood }

theorem exec_substituteCopyDone {s : State} {b c q : Nat} {i : Instance} {p : Pos} (hi : s.inst? b c = some i) (hq : i.pos[q]? = some p)
    (chk : ReadChecks) : exec (.substituteCopyDone b c q chk) s = .next (if p.state ≠ .copying then s else
      (if chk.hit.isSome then (s.readChecks chk none).eccOwner (.batch b c) else s.readChecks chk none).modPos b c q Pos.copied) := by
  change execSubstituteCopyDone b c q chk s = _
  simp only [execSubstituteCopyDone, hi, Option.bind_some, hq]
  rfl

theorem State.sameButHealth.steps {t s : State} (h : t.sameButHealth s) : t.steps = s.steps := (congrArg (fun x : State => x.steps) h.1 :)

theorem State.eccOwner_steps {s : State} (h : s.steps = []) (o : Owner) : (s.eccOwner o).steps = [] :=
  (congrArg (fun x : State => x.steps) (State.eccOwner_noSteps h o) :).trans h

/-- An instance whose lines are lost keeps its positions. -/
theorem State.dataLost_inst? {t s : State} {o : Owner} (hs : s.steps = []) (hf : t.sameButHealth (s.eccOwner o)) {b c : Nat} {i : Instance}
    (hi : s.inst? b c = some i) : ∃ j, t.inst? b c = some j ∧ j.pos = i.pos := by
  rw [State.inst?_congr (t := t) (s := s.eccOwner o) (congrArg (fun x : State => x.batches) hf.1 :)]
  rcases State.eccOwner_inst? hs o hi with h | h
  · exact ⟨i, h, rfl⟩
  · exact ⟨i.loses, h, rfl⟩

/-- Settles O55: each command does one thing to a slot, a position or an instance, and its counts and copies leave the rest. -/
theorem sweepsCopiesAndBatches : Obligations.SweepsCopiesAndBatches := by
  unfold Obligations.SweepsCopiesAndBatches
  refine ⟨?_, ?_, ?_, ?_, ?_, ?_, ?_, ?_, ?_, ?_, ?_, ?_⟩
  · intro e k f ip udp lanes waits ecc s hin hp hip hudp hk hbad hlen
    exact ⟨_, exec_ethernetFrame_drops hin hp hip hudp hk hbad, State.slot_modSlot_self hlen _, fun j hj => State.slot_modSlot_ne s _ hj, rfl⟩
  · intro e f lanes waits ecc s hip
    change execEthernetFrame e f lanes ecc waits s = _
    simp only [execEthernetFrame, hip]
    split <;> rfl
  · intro e k c f ip udp bs rec s hc hp hip hudp hk hlen hsum hbs hsel hrec hpt hok hfirst hlast hseq hi hph hkl hof hcb
    subst hbs
    have hk32 := State.lt_of_udpSlots hk
    have hw := s.workOn_onlyDraws k true { fixed := [], hit := none }
    have ht : s.receive k false (.point (udp.drop 8) true { fixed := [], hit := none }) =
        (s.workOn k true { fixed := [], hit := none }).pointPacket k rec (udp.drop 8) s.time.now none := by
      rw [State.receive_now hc hkl hi]
      simp only [State.takeOne, hrec]
      rfl
    obtain ⟨⟨⟨m, hm, hctr, htm, hsw, hn⟩, hst⟩, hf⟩ := State.pointPacket_first (s := s.workOn k true { fixed := [], hit := none }) (c := c)
      (by rw [hw.slot]; exact hph) (by rw [hw.dies.slots]; exact hkl) (by rw [hw.slotRec hk32]; exact hrec)
      (by rw [hw.openFor hk32]; exact hof) (by rw [hw.recipeCb]; exact hcb) hok hfirst hlast hseq s.time.now
    exact ⟨_, m, (exec_ethernetFrame_receives (State.intakeOn_of_creelOn hc) hp hip hudp hk hlen hsum hsel).trans (congrArg _ ht), hm, htm,
      hctr, hsw, hn, hst, hf.trans hw.dies.onlySlots⟩
  · intro k h fs s hc
    have hf := s.readChecks_onlyReads fs none
    have hk : k < (s.readChecks { fixed := fs, hit := none } none).slots.length := by rw [hf.dies.slots]; exact State.lt_of_copying hc
    have hsl := fun j => State.slot_congr hf.dies.slots j
    refine ⟨_, exec_holdCopyDone_fixed hc fs, ?_, fun j hj => (State.slot_modSlot_ne _ _ hj).trans (hsl j), ?_⟩
    · rw [State.slot_modSlot_self hk, hsl]
      rfl
    · exact ⟨⟨(congrArg (fun x : State => { x with slots := s.slots }) hf.1.1 :), hf.1.2⟩, hf.2⟩
  · intro k a h w m s hc hs hn
    obtain ⟨o, hf, hr⟩ := State.dataLost_beam_noSteps hs hn a m none
    have hslots : (s.dataLost { place := .beam w a, master := m } none).slots = s.slots :=
      (congrArg (fun x : State => x.slots) hf.1 :).trans (congrArg (fun x : State => x.slots) (State.eccOwner_noSteps hs o) :)
    refine ⟨_, exec_holdCopyDone_lost hc _, ?_, fun j hj => (State.slot_modSlot_ne _ _ hj).trans (State.slot_congr hslots j), hr⟩
    rw [State.slot_modSlot_self (by rw [hslots]; exact State.lt_of_copying hc), State.slot_congr hslots]
    rfl
  · intro b c i p rec s hi hready hd hp he hr hdue hk hnohold
    obtain ⟨u, hu, hslot, ht⟩ := State.close_frame (c := c) hi hp he hr hk
    rw [State.filling_zeroed s hnohold] at ht
    refine ⟨_, (exec_batchCloseTimeout hi hready hd hp he hr hdue).trans (congrArg _ ht), State.onePos_modPos hu hi hp _, ?_, ?_, ?_⟩
    · exact (congrArg Slot.substituted hslot).trans (congrArg inc32 (Slot.lateFor_substituted c _))
    · intro sm hsm hctr
      refine (congrArg Slot.phase hslot).trans ?_
      simp [Slot.countSubst, Slot.lateFor, hsm, hctr]
    · exact ⟨(congrArg (fun x : State => { x with batches := s.batches }) hu.1 :), hu.2⟩
  · intro b c i p rec h s hi hready hd hp he hr hdue hk hl hh hage
    obtain ⟨u, hu, hslot, ht⟩ := State.close_frame (c := c) hi hp he hr hk
    rw [hh, State.filling_fromHold hl hage] at ht
    exact ⟨_, (exec_batchCloseTimeout hi hready hd hp he hr hdue).trans (congrArg _ ht), State.onePos_modPos hu hi hp _,
      (congrArg (fun x : State => { x with batches := s.batches }) hu.1 :), hu.2⟩
  · intro k chk s hc
    change execHoldCopyDone k chk s = _
    simp only [execHoldCopyDone, hc]
  · intro b c q i p fs s hi hq
    have ht := exec_substituteCopyDone hi hq { fixed := fs, hit := none }
    by_cases hcp : p.state = .copying
    · have hf := s.readChecks_onlyReads fs none
      rw [if_neg (not_not.mpr hcp), if_neg (by simp)] at ht
      refine ⟨_, ht, ?_, ⟨(congrArg (fun x : State => { x with batches := s.batches }) hf.1.1 :), hf.1.2⟩, hf.2⟩
      rw [State.inst?_modPos, State.inst?_congr hf.dies.batches, hi, if_pos hcp]
      simp [getElem?_modAt, hq, Pos.copied]
    · rw [if_pos hcp] at ht
      exact ⟨_, ht, by rw [hi, if_neg hcp, Option.map_some, hq], .refl s⟩
  · intro b c q a i p w m s hi hq hcp hs hn
    have ht := exec_substituteCopyDone hi hq { fixed := [], hit := some { place := .beam w a, master := m } }
    obtain ⟨o, hf, hr⟩ := State.dataLost_beam_noSteps hs hn a m none
    obtain ⟨j, hj, hjq⟩ := State.dataLost_inst? hs hf hi
    rw [if_neg (not_not.mpr hcp), if_pos (by rfl),
      State.eccOwner_batch_noSteps (by exact (State.sameButHealth.steps hf).trans (State.eccOwner_steps hs o))] at ht
    refine ⟨_, ht, ?_, hr⟩
    rw [State.inst?_modPos, State.inst?_modInst _ _ _ (f := Instance.loses) (fun _ => rfl)]
    refine (congrArg _ (congrArg _ (congrArg _ hj))).trans ?_
    simp [getElem?_modAt, hjq, hq, Pos.copied, Instance.loses]
  · intro b c i bs s hi hfull hready hd hrel hu hlast hst hwa hwb hbs
    obtain ⟨h1, h2, h3, hf⟩ := State.instReady_frame rfl hbs hi hd hrel hu hlast hst hwa hwb
    refine ⟨_, ?_, h1, h2, h3, hf.onlyBatches⟩
    change execBatchReady b c s = _
    simp [execBatchReady, hi, hfull, hready, hd]
  · intro b c i s hi hfull
    change execBatchReady b c s = _
    simp [execBatchReady, hi, hfull]

end Machine

end Sys2Proof

namespace Sys2Proof

namespace Machine

set_option Elab.async false

/-! ### Completion records (R303, R304, R307, R317) -/

theorem State.ring?_modRing (s : State) (c i j : Nat) {f : Ring → Ring} (hf : ∀ r, (f r).ctx = r.ctx ∧ (f r).index = r.index) :
    (s.modRing c i f).ring? c j = if j = i then (s.ring? c j).map f else s.ring? c j := by
  simp only [State.ring?, State.modRing]
  induction s.rings with
  | nil => simp
  | cons r l ih =>
    have hr : (if r.ctx = c ∧ r.index = i then f r else r).ctx = r.ctx ∧ (if r.ctx = c ∧ r.index = i then f r else r).index = r.index := by
      split
      · exact hf r
      · exact ⟨rfl, rfl⟩
    by_cases hc : r.ctx = c ∧ r.index = j
    · obtain ⟨rfl, rfl⟩ := hc
      by_cases hi : r.index = i
      · simp [hi, hf r]
      · simp [hi]
    · have hne : (r.ctx == c && r.index == j) = false := by simpa using hc
      simp only [List.map_cons, List.find?_cons, hr.1, hr.2, hne]
      exact ih

theorem countEv_msix_frame (s : State) (x : MsixSt) (e : Ev) (he : e.die < 3) :
    State.sameButCounters { countEv { s with msix := x } e with msix := s.msix } s := by
  obtain ⟨h1, h2⟩ := countEv_onlyCounters { s with msix := x } e he
  generalize countEv { s with msix := x } e = t at h1 h2
  exact ⟨(congrArg (fun y : State => { y with msix := s.msix }) h1 :), h2⟩

/-- A message leaves all but the messages and counters. -/
theorem sendMsix_frame (s : State) (f : IrqFn) (v : Nat) : State.sameButCounters { sendMsix s f v with msix := s.msix } s := by
  simp only [sendMsix]
  split
  · exact .refl s
  · split
    · exact countEv_msix_frame s _ _ (by simp [Ev.plain])
    · exact .refl s

/-- The memory of a host with bytes written. -/
def State.putHost (s : State) (p : HostPort) (a : Nat) (bs : List Byte) : State :=
  match p with
  | .hostA => { s with hostMemA := s.hostMemA.writeBytes a bs }
  | .hostB => { s with hostMemB := s.hostMemB.writeBytes a bs }

theorem State.hostMem_putHost (s : State) (p : HostPort) (a : Nat) (bs : List Byte) :
    (s.putHost p a bs).hostMem p = (s.hostMem p).writeBytes a bs := by cases p <;> rfl

theorem State.putHost_msix (s : State) (p : HostPort) (a : Nat) (bs : List Byte) : (s.putHost p a bs).msix = s.msix := by cases p <;> rfl

theorem State.putHost_rings (s : State) (p : HostPort) (a : Nat) (bs : List Byte) : (s.putHost p a bs).rings = s.rings := by cases p <;> rfl

theorem State.hostMem_modRing (s : State) (c i : Nat) (f : Ring → Ring) (p : HostPort) : (s.modRing c i f).hostMem p = s.hostMem p := by
  cases p <;> rfl

/-- What Heddle writes to a host that takes it is in its memory; counters apart, nothing else changes. -/
theorem hostWrite_frame {s : State} {p : HostPort} (hp : (s.hport p).carries = true) {bs : List Byte} (hbs : bs ≠ []) (m : Byte) (c : Nat)
    (lc : Bool) (a : Nat) : (hostWrite s p m c lc a bs).sameButCounters (s.putHost p a bs) := by
  have hne : bs.isEmpty = false := by simpa using hbs
  simp only [hostWrite, hp, hne, Bool.not_true, Bool.or_self, Bool.false_eq_true, if_false]
  cases p <;> exact (countEv_onlyCounters _ _ (by simp [Ev.plain])).trans (bumpAon_onlyCounters _ _ _ _ (by decide))

theorem length_leBytes (n v : Nat) : (leBytes n v).length = n := by
  induction n generalizing v with
  | zero => rfl
  | succ n ih => simp [leBytes, ih]

theorem recordBytes_length (c : Completion) (phase : Bool) (sqHead : Nat) : (recordBytes c phase sqHead).length = 32 := by
  simp [recordBytes, length_leBytes]

theorem recordBytes_ne_nil (c : Completion) (phase : Bool) (sqHead : Nat) : recordBytes c phase sqHead ≠ [] := fun h => by
  simpa [h] using recordBytes_length c phase sqHead

/-- A ring whose tail moves past a record just written. -/
def Ring.pushed (r : Ring) : Ring := { r with tail := (r.tail + 1) % r.size, phase := if r.tail + 1 = r.size then !r.phase else r.phase }

/-- The bytes of a record go to the tail of its completion ring, which moves on. -/
def State.pushRecord (s : State) (cx : Ctx) (cr : Ring) (bs : List Byte) : State :=
  (hostWrite s cx.fn.port (fnMaster cx.fn) cx.id cx.lc (cr.base + 32 * cr.tail) bs).modRing cx.id cr.index Ring.pushed

theorem State.pushRecord_frame {s : State} {cx : Ctx} (hp : (s.hport cx.fn.port).carries = true) (cr : Ring) {bs : List Byte} (hbs : bs ≠ []) :
    (s.pushRecord cx cr bs).sameButCounters ((s.putHost cx.fn.port (cr.base + 32 * cr.tail) bs).modRing cx.id cr.index Ring.pushed) := by
  have hw := hostWrite_frame hp hbs (fnMaster cx.fn) cx.id cx.lc (cr.base + 32 * cr.tail)
  unfold State.pushRecord
  generalize hostWrite s cx.fn.port (fnMaster cx.fn) cx.id cx.lc (cr.base + 32 * cr.tail) bs = t at hw ⊢
  exact ⟨(congrArg (fun x : State => x.modRing cx.id cr.index Ring.pushed) hw.1 :), hw.2⟩

/-- A submission ring after the record of a slot. -/
def Ring.completed (slot : Nat) (r : Ring) : Ring := r.complete slot

theorem writeRecord_eq {s : State} {cx : Ctx} {c : Completion} {r : Ring} (cr : Ring) (he : c.event = false)
    (hr : s.ring? cx.id c.ring = some r) :
    writeRecord s cx cr c = (if c.irq then sendMsix
        ((s.modRing cx.id c.ring (Ring.completed c.slot)).pushRecord cx cr (recordBytes c cr.phase (r.complete c.slot).head)) (.fn cx.fn) cr.vector
      else (s.modRing cx.id c.ring (Ring.completed c.slot)).pushRecord cx cr (recordBytes c cr.phase (r.complete c.slot).head)) := by
  have hr1 : (s.modRing cx.id c.ring (fun r => r.complete c.slot)).ring? cx.id c.ring = some (r.complete c.slot) := by
    rw [State.ring?_modRing s _ _ _ (f := fun r => r.complete c.slot) (fun _ => ⟨rfl, rfl⟩), if_pos rfl, hr]
    rfl
  unfold writeRecord
  simp only [he, Bool.false_eq_true, if_false, hr1]
  rfl

/-- A record is written: it is at the tail of its completion ring in host memory, the tail moves on, the submission ring's slot is done. -/
theorem writeRecord_frame {s : State} {cx : Ctx} {c : Completion} {r : Ring} (cr : Ring) (hp : (s.hport cx.fn.port).carries = true)
    (he : c.event = false) (hr : s.ring? cx.id c.ring = some r) :
    State.sameButCounters { writeRecord s cx cr c with msix := s.msix }
      (((s.modRing cx.id c.ring (Ring.completed c.slot)).putHost cx.fn.port (cr.base + 32 * cr.tail)
        (recordBytes c cr.phase (r.complete c.slot).head)).modRing cx.id cr.index Ring.pushed) := by
  have hp1 : ((s.modRing cx.id c.ring (Ring.completed c.slot)).hport cx.fn.port).carries = true := hp
  have hm1 : (s.modRing cx.id c.ring (Ring.completed c.slot)).msix = s.msix := rfl
  have hbs := recordBytes_ne_nil c cr.phase (r.complete c.slot).head
  rw [writeRecord_eq cr he hr]
  generalize recordBytes c cr.phase (r.complete c.slot).head = bs at hbs ⊢
  generalize s.modRing cx.id c.ring (Ring.completed c.slot) = u at hp1 hm1 ⊢
  have hm := (u.putHost_msix cx.fn.port (cr.base + 32 * cr.tail) bs).trans hm1
  have h3 := State.pushRecord_frame hp1 cr hbs
  generalize u.putHost cx.fn.port (cr.base + 32 * cr.tail) bs = v at hm h3 ⊢
  generalize u.pushRecord cx cr bs = s3 at h3 ⊢
  have hm3 : s3.msix = s.msix := (congrArg (fun x : State => x.msix) h3.1 :).trans hm
  rw [← hm3]
  split
  · exact (sendMsix_frame s3 (.fn cx.fn) cr.vector).trans h3
  · exact h3

theorem State.ctx?_id {s : State} {n : Nat} {cx : Ctx} (h : s.ctx? n = some cx) : cx.id = n := by simpa using List.find?_some h

theorem State.ring?_index {s : State} {c j : Nat} {r : Ring} (h : s.ring? c j = some r) : r.index = j := by
  have := List.find?_some h
  simp only [Bool.and_eq_true, beq_iff_eq] at this
  exact this.2

theorem State.ring?_congr {t s : State} (h : t.rings = s.rings) (c j : Nat) : t.ring? c j = s.ring? c j := by simp only [State.ring?, h]

theorem State.hostMem_congr {t s : State} (ha : t.hostMemA = s.hostMemA) (hb : t.hostMemB = s.hostMemB) (p : HostPort) :
    t.hostMem p = s.hostMem p := by cases p <;> assumption

/-- A ring that holds one more record. -/
def Ring.holds (c : Completion) (r : Ring) : Ring := { r with held := r.held ++ [c] }

theorem completeDesc_eq {s : State} {n : Nat} {cx : Ctx} {c : Completion} {r cr : Ring} (hcx : s.ctx? n = some cx) (hst : c.status ≠ 0x13)
    (hr : s.ring? n c.ring = some r) (hcr : s.ring? n r.cq = some cr) (hp : (s.hport cx.fn.port).carries = true) :
    completeDesc s n c = dueRecord s cx cr c := by
  simp only [completeDesc, hcx, if_neg hst, hp, Bool.not_true, Bool.false_eq_true, if_false, hr, hcr]

theorem dueRecord_held {s : State} {cx : Ctx} {cr : Ring} {c : Completion} (h : cr.full = true ∨ cr.held ≠ []) :
    dueRecord s cx cr c = s.modRing cx.id cr.index (Ring.holds c) := by
  have hb : (cr.full || !cr.held.isEmpty) = true := by simpa using h
  simp only [dueRecord, hb, if_true]
  rfl

theorem dueRecord_written {s : State} {cx : Ctx} {cr : Ring} {c : Completion} (hf : cr.full = false) (hh : cr.held = []) :
    dueRecord s cx cr c = writeRecord s cx cr c := by
  simp [dueRecord, hf, hh]

theorem writeRecord_hostMem {s : State} {cx : Ctx} {c : Completion} {r : Ring} (cr : Ring) (hp : (s.hport cx.fn.port).carries = true)
    (he : c.event = false) (hr : s.ring? cx.id c.ring = some r) : (writeRecord s cx cr c).hostMem cx.fn.port =
      (s.hostMem cx.fn.port).writeBytes (cr.base + 32 * cr.tail) (recordBytes c cr.phase (r.complete c.slot).head) := by
  have hw := writeRecord_frame cr hp he hr
  generalize recordBytes c cr.phase (r.complete c.slot).head = bs at hw ⊢
  generalize writeRecord s cx cr c = t at hw ⊢
  refine (State.hostMem_congr (congrArg (fun x : State => x.hostMemA) hw.1 :) (congrArg (fun x : State => x.hostMemB) hw.1 :) _).trans ?_
  rw [State.hostMem_modRing, State.hostMem_putHost, State.hostMem_modRing]

theorem writeRecord_rings {s : State} {cx : Ctx} {c : Completion} {r : Ring} (cr : Ring) (hp : (s.hport cx.fn.port).carries = true)
    (he : c.event = false) (hr : s.ring? cx.id c.ring = some r) :
    (writeRecord s cx cr c).rings = ((s.modRing cx.id c.ring (Ring.completed c.slot)).modRing cx.id cr.index Ring.pushed).rings := by
  have hw := writeRecord_frame cr hp he hr
  generalize recordBytes c cr.phase (r.complete c.slot).head = bs at hw
  generalize writeRecord s cx cr c = t at hw ⊢
  generalize s.modRing cx.id c.ring (Ring.completed c.slot) = u at hw ⊢
  refine (congrArg (fun x : State => x.rings) hw.1 :).trans ?_
  simp only [State.modRing, State.putHost_rings]

/-- What a completion record asks for, of a state with the same rings and host memories. -/
theorem State.recordDue.congr {t u s : State} {cx : Ctx} {c : Completion} (h : u.recordDue s cx c) (hr : t.rings = u.rings)
    (ha : t.hostMemA = u.hostMemA) (hb : t.hostMemB = u.hostMemB) : t.recordDue s cx c := by
  intro r cr h1 h2 h3
  rw [State.ring?_congr hr, State.hostMem_congr ha hb]
  exact h r cr h1 h2 h3

/-- The record of a descriptor is written at the tail of its completion ring, or held there. -/
theorem completeDesc_recordDue {s : State} {n : Nat} {cx : Ctx} {c : Completion} (hcx : s.ctx? n = some cx) (hst : c.status ≠ 0x13)
    (he : c.event = false) : (completeDesc s n c).recordDue s cx c := by
  obtain rfl := State.ctx?_id hcx
  intro r cr hr hcr hp
  have hi := State.ring?_index hcr
  rw [completeDesc_eq hcx hst hr hcr hp]
  refine ⟨fun hf hh hwf => ?_, fun h => ?_⟩
  · have hlen := recordBytes_length c cr.phase (r.complete c.slot).head
    rw [dueRecord_written hf hh, writeRecord_hostMem cr hp he hr, State.ring?_congr (writeRecord_rings cr hp he hr),
      State.ring?_modRing _ _ _ _ (f := Ring.pushed) (fun _ => ⟨rfl, rfl⟩), if_pos hi.symm,
      State.ring?_modRing _ _ _ _ (f := Ring.completed c.slot) (fun _ => ⟨rfl, rfl⟩), hcr]
    generalize recordBytes c cr.phase (r.complete c.slot).head = bs at hlen ⊢
    refine ⟨?_, fun a ha => ?_, ?_⟩
    · have := Memory.readBytes_writeBytes hwf (cr.base + 32 * cr.tail) bs
      rwa [hlen] at this
    · rw [Memory.read_writeBytes _ _ _ _ hwf, hlen, if_neg (by omega)]
    · split <;> rfl
  · rw [dueRecord_held h, State.ring?_modRing _ _ _ _ (f := Ring.holds c) (fun _ => ⟨rfl, rfl⟩), if_pos hi.symm, hcr, State.hostMem_modRing]
    exact ⟨rfl, rfl⟩

end Machine

end Sys2Proof

namespace Sys2Proof

namespace Machine

set_option Elab.async false

/-! ### A step completes (R29, R319) -/

/-- t is s but for what the end of a delivered step changes: records, κ values, batches, the step, the dies, counters and draws. -/
def State.sameButDelivered (t s : State) : Prop :=
  State.sameButDies { t with
    rings := s.rings
    hostMemA := s.hostMemA
    hostMemB := s.hostMemB
    msix := s.msix
    kappas := s.kappas
    batches := s.batches
    steps := s.steps } s

theorem State.sameButDelivered.refl (s : State) : s.sameButDelivered s := State.sameButDies.refl s

theorem State.sameButDelivered.trans {a b c : State} (h : a.sameButDelivered b) (k : b.sameButDelivered c) : a.sameButDelivered c := by
  refine ⟨?_, fun o ho => (h.2 o ho).trans (k.2 o ho)⟩
  obtain ⟨h, -⟩ := h
  obtain ⟨k, -⟩ := k
  rw [← k, ← h]

theorem State.sameButDies.delivered {t s : State} (h : t.sameButDies s) : t.sameButDelivered s := by
  have h1 := h.1
  refine ⟨?_, h.2⟩
  conv_rhs => rw [← h1]
  conv_lhs => rw [← h1]

theorem State.sameButRecords.delivered {t s : State} (h : t.sameButRecords s) : t.sameButDelivered s := by
  have h1 := h.1
  refine ⟨?_, h.2⟩
  conv_rhs => rw [← h1]
  conv_lhs => rw [← h1]

theorem State.sameButDelivered.of_kappas {t s : State} (h : { t with kappas := s.kappas } = s) : t.sameButDelivered s := by
  refine ⟨?_, fun o _ => (congrArg (fun u : State => u.reg o) h :)⟩
  conv_rhs => rw [← h]
  conv_lhs => rw [← h]

theorem State.sameButDelivered.of_batches {t s : State} (h : { t with batches := s.batches } = s) : t.sameButDelivered s := by
  refine ⟨?_, fun o _ => (congrArg (fun u : State => u.reg o) h :)⟩
  conv_rhs => rw [← h]
  conv_lhs => rw [← h]

theorem State.sameButDelivered.of_steps {t s : State} (h : State.sameButDies { t with steps := s.steps } s) : t.sameButDelivered s := by
  have h1 := h.1
  refine ⟨?_, h.2⟩
  conv_rhs => rw [← h1]
  conv_lhs => rw [← h1]

theorem State.foldl_kappas {α : Type} (key : α → Nat × Nat × Nat) (v : α → Nat) (l : List α) : ∀ s : State,
    { l.foldl (fun (u : State) k => { u with kappas := u.kappas.filter (fun x => decide (x.1 ≠ key k)) ++ [(key k, v k)] }) s with
      kappas := s.kappas } = s := by
  induction l with
  | nil => exact fun s => rfl
  | cons k l ih =>
    exact fun s => (congrArg (fun x : State => { x with kappas := s.kappas })
      (ih { s with kappas := s.kappas.filter (fun x => decide (x.1 ≠ key k)) ++ [(key k, v k)] }) :)

theorem State.updateKappas_frame (s : State) (t : Step) : { s.updateKappas t with kappas := s.kappas } = s := by
  unfold State.updateKappas
  split
  · rfl
  · exact State.foldl_kappas (fun k => (t.ctx, (s.stepDraft t).digest.toNat, k.1))
      (fun k => adaptKappa ((s.stepDraft t).tensor k.1).adaptCurve k.2 (t.satCount (s.stepDraft t) k.1)) t.kappas s

theorem bumpPart_onlyDraws (s : State) (p k : Nat) : (bumpPart s p k).sameButDraws s := ⟨rfl, fun _ _ => rfl⟩

theorem countStep_onlyDraws (s : State) (ctx : Nat) (lc : Bool) (status : Nat) : (countStep s ctx lc status).sameButDraws s := by
  have aon : ∀ (u : State) (j : Nat), (bumpAon u 0 j 1).sameButDraws u := fun u j => bumpAon_onlyDraws u 0 j 1 (by decide)
  unfold countStep
  simp only
  set s1 := bumpAon s 0 1 1 with hs1
  have h1 : s1.sameButDraws s := aon s 1
  generalize hs2 : (if status = 3 then bumpAon s1 0 2 1 else if status = 1 then bumpAon s1 0 3 1 else if status = 0x10 then bumpAon s1 0 4 1
    else if (status = 2 || status = 4) = true then bumpAon s1 0 5 1 else s1) = s2
  have h2 : s2.sameButDraws s1 := by
    rw [← hs2]
    split_ifs
    · exact aon s1 2
    · exact aon s1 3
    · exact aon s1 4
    · exact aon s1 5
    · exact .refl s1
  have h3 := (countEv_onlyDraws s2 { Ev.plain 0 0x083 none 1 with ctx := some ctx, cls := some (b2n (!lc)) } (by simp [Ev.plain])).trans (h2.trans h1)
  split
  · exact h3
  · split_ifs
    · exact (bumpPart_onlyDraws _ _ _).trans h3
    · exact (bumpPart_onlyDraws _ _ _).trans h3
    · exact (bumpPart_onlyDraws _ _ _).trans h3
    · exact h3

/-- The one step of a state is forgotten. -/
theorem State.dropStep_frame {s : State} {y : Step} (hs : s.steps = [y]) :
    (s.dropStep y.id).steps = [] ∧ State.sameButDies { s.dropStep y.id with steps := s.steps } s := by
  have hw : ∀ (u : State) (e : Entry), (u.wipeEntry e).sameButDies u := fun u e => ⟨rfl, fun _ _ => rfl⟩
  have h0 : ({ s with steps := s.steps.filter (fun t => t.id != y.id) } : State).steps = [] := by simp [hs]
  unfold State.dropStep
  simp only
  split
  · split
    · exact ⟨h0, .refl s⟩
    · exact ⟨h0, hw s _⟩
  · exact ⟨h0, .refl s⟩

/-- Without a step there is nothing to choose, whatever holds the array. -/
theorem State.choose_of_steps_nil {s : State} (hs : s.steps = []) (hn : s.sched.nextStart = none) : s.choose = s := by
  cases hr : s.sched.running with
  | none => exact State.choose_noSteps s ⟨hs, hr, hn⟩
  | some id => simp [State.choose, State.chooseN, hr]

/-- A step that has completed is gone; with no other, nothing is chosen. -/
theorem State.finishStep_frame {s : State} {x y : Step} (hs : s.steps = [y]) (hid : x.id = y.id)
    (hn : s.sched.nextStart = none) (st : Nat) :
    (s.finishStep x st).steps = [] ∧ (s.finishStep x st).rings = s.rings ∧ (s.finishStep x st).hostMemA = s.hostMemA ∧
      (s.finishStep x st).hostMemB = s.hostMemB ∧ (s.finishStep x st).sameButDelivered s := by
  set s1 := (if st ≤ 1 then s.updateKappas x else s) with hs1
  have h1 : { s1 with kappas := s.kappas } = s := by
    rw [hs1]
    split
    · exact s.updateKappas_frame x
    · rfl
  have h2 := countStep_onlyDraws s1 x.ctx x.lc st
  generalize hc : countStep s1 x.ctx x.lc st = s2 at h2
  have hs2 : s2.steps = [y] := ((congrArg (fun u : State => u.steps) h2.1 :).trans (congrArg (fun u : State => u.steps) h1 :)).trans hs
  obtain ⟨h3, h4⟩ := State.dropStep_frame hs2
  have hf : s.finishStep x st = ((s2.dropStep y.id).releaseInsts x.batchIndex).choose := by rw [← hid, ← hc]; rfl
  have h12 : s2.sameButDelivered s := by
    exact h2.dies.delivered.trans (.of_kappas h1)
  have hring2 : s2.rings = s.rings ∧ s2.hostMemA = s.hostMemA ∧ s2.hostMemB = s.hostMemB ∧ s2.sched = s.sched :=
    ⟨(congrArg (fun u : State => u.rings) h2.1 :).trans (congrArg (fun u : State => u.rings) h1 :),
      (congrArg (fun u : State => u.hostMemA) h2.1 :).trans (congrArg (fun u : State => u.hostMemA) h1 :),
      (congrArg (fun u : State => u.hostMemB) h2.1 :).trans (congrArg (fun u : State => u.hostMemB) h1 :),
      (congrArg (fun u : State => u.sched) h2.1 :).trans (congrArg (fun u : State => u.sched) h1 :)⟩
  generalize s2.dropStep y.id = s3 at h3 h4 hf
  have hsched : s3.sched = s.sched := (congrArg (fun u : State => u.sched) h4.1 :).trans hring2.2.2.2
  have hno : (s3.releaseInsts x.batchIndex).choose = s3.releaseInsts x.batchIndex := State.choose_of_steps_nil h3 (hsched ▸ hn)
  rw [hf, hno]
  refine ⟨h3, (congrArg (fun u : State => u.rings) h4.1 :).trans hring2.1, (congrArg (fun u : State => u.hostMemA) h4.1 :).trans hring2.2.1,
    (congrArg (fun u : State => u.hostMemB) h4.1 :).trans hring2.2.2.1, 
    (State.sameButDelivered.of_batches (s3.releaseInsts_onlyBatches x.batchIndex)).trans ((State.sameButDelivered.of_steps h4).trans h12)⟩

/-! ### The record of a delivered step -/

theorem State.recordHeld_congr {t s : State} (h : t.rings = s.rings) (id : Nat) : t.recordHeld id = s.recordHeld id := by
  simp only [State.recordHeld, h]

theorem State.recordHeld_modRing (s : State) (c i : Nat) {f : Ring → Ring} (hf : ∀ r, (f r).held = r.held) (id : Nat) :
    (s.modRing c i f).recordHeld id = s.recordHeld id := by
  simp only [State.recordHeld, State.modRing, List.any_map]
  refine congrArg (fun g => s.rings.any g) (funext fun r => ?_)
  simp only [Function.comp_apply]
  split
  · rw [hf]
  · rfl

theorem writeRecord_recordHeld {s : State} {cx : Ctx} {c : Completion} {r : Ring} (cr : Ring) (hp : (s.hport cx.fn.port).carries = true)
    (he : c.event = false) (hr : s.ring? cx.id c.ring = some r) (id : Nat) : (writeRecord s cx cr c).recordHeld id = s.recordHeld id := by
  rw [State.recordHeld_congr (writeRecord_rings cr hp he hr), State.recordHeld_modRing _ _ _ (f := Ring.pushed) (fun _ => rfl),
    State.recordHeld_modRing _ _ _ (f := Ring.completed c.slot) (fun _ => rfl)]

/-- A descriptor's record is dropped, where a ring is gone or the host takes none, or it falls due on its completion ring. -/
theorem completeDesc_cases {s : State} {n : Nat} {cx : Ctx} {c : Completion} (hcx : s.ctx? n = some cx) (hst : c.status ≠ 0x13) :
    completeDesc s n c = s ∨ ∃ r cr, s.ring? n c.ring = some r ∧ s.ring? n r.cq = some cr ∧ (s.hport cx.fn.port).carries = true ∧
      completeDesc s n c = dueRecord s cx cr c := by
  by_cases hp : (s.hport cx.fn.port).carries = true
  · cases hr : s.ring? n c.ring with
    | none => exact .inl (by simp [completeDesc, hcx, hst, hp, hr])
    | some r =>
      cases hcr : s.ring? n r.cq with
      | none => exact .inl (by simp [completeDesc, hcx, hst, hp, hr, hcr])
      | some cr => exact .inr ⟨r, cr, rfl, hcr, hp, completeDesc_eq hcx hst hr hcr hp⟩
  · exact .inl (by simp [completeDesc, hcx, hst, hp])

/-- A record that its ring can take is not held. -/
theorem completeDesc_recordHeld {s : State} {y : Step} {cx : Ctx} {c : Completion} (hcx : s.ctx? y.ctx = some cx) (hst : c.status ≠ 0x13)
    (he : c.event = false) (hc : c.ring = y.ring) (hbl : s.recordBlocked y = false) (id : Nat) :
    (completeDesc s y.ctx c).recordHeld id = s.recordHeld id := by
  rcases completeDesc_cases hcx hst with h | ⟨r, cr, hr, hcr, hp, h⟩
  · rw [h]
  · have hid := State.ctx?_id hcx
    have hb : cr.blocked = false := by
      simpa [State.recordBlocked, ← hc, hr, hcr] using hbl
    simp only [Ring.blocked, Bool.or_eq_false_iff] at hb
    rw [h, dueRecord_written hb.1 (by simpa using hb.2)]
    exact writeRecord_recordHeld cr hp he (by rw [hid]; exact hr) id

theorem State.endRun_eq {s : State} {y : Step} (hrun : s.sched.running = some y.id) : s.endRun y = { s with
    latches := s.latches.filter (fun l => decide (l.2 ≠ LatchHolder.program y.ctx))
    ladder := { s.ladder with kills := eraseN s.ladder.kills y.ctx }
    ward := { s.ward with summaries := s.ward.summaries.filter (fun w => w.step != y.id) }
    sched := { s.sched with running := none } } := by
  simp only [State.endRun, State.releaseArray, hrun, if_true]

/-- Without a mirror and a step record, a step's records are its completion record. -/
theorem State.writeRecords_plain {s : State} {y : Step} (hm : y.mirror = false) (hrec : y.record = false) (st : Nat) :
    s.writeRecords y st = completeDesc s y.ctx (s.ranRecord y st (s.ageOf y st) false) := by
  have hs : s.writeStepRecord y st = s := by simp [State.writeStepRecord, hrec]
  simp [State.writeRecords, hs, hm]

theorem State.completeStep_delivering {s : State} {y : Step} (hs : s.steps = [y]) (hst : y.stage = .delivering) (st : Nat)
    (ho : (s.endRun y).ctxOpen y.ctx = true) : s.completeStep y.id st =
      (if ((s.endRun y).writeRecords y st).recordHeld y.id then
        (((s.endRun y).writeRecords y st).modStep y.id (fun x => { x with stage := .due st })).choose
      else ((s.endRun y).writeRecords y st).finishStep y st) := by
  have hy : s.step? y.id = some y := by simp [State.step?, hs]
  simp only [State.completeStep, hy, hst, ho, Bool.not_true, Bool.false_eq_true, if_false]

theorem State.ctxOpen_of {s : State} {n : Nat} {cx : Ctx} (h : s.ctx? n = some cx) (hcl : cx.closing = false) : s.ctxOpen n = true := by
  simp [State.ctxOpen, h, hcl]

/-- A delivered step whose ring can take its record: the record is written and the step has completed. -/
theorem State.completeStep_written {s : State} {y : Step} {cx : Ctx} {st : Nat} (hs : s.steps = [y]) (hst : y.stage = .delivering)
    (hcx : s.ctx? y.ctx = some cx) (hcl : cx.closing = false) (hbl : s.recordBlocked y = false) (hh : s.recordHeld y.id = false)
    (hm : y.mirror = false) (hrec : y.record = false) (hrun : s.sched.running = some y.id) (hn : s.sched.nextStart = none) (hok : st ≠ 0x13) :
    (s.completeStep y.id st).recordDue (s.endRun y) cx (s.ranRecord y st (s.ageOf y st) false) ∧
      (s.completeStep y.id st).steps = [] ∧ (s.completeStep y.id st).sameButDelivered (s.endRun y) := by
  have he := State.endRun_eq hrun
  have hcx1 : (s.endRun y).ctx? y.ctx = some cx := by rw [he]; exact hcx
  have hrr : (s.endRun y).ranRecord y st ((s.endRun y).ageOf y st) false = s.ranRecord y st (s.ageOf y st) false := by rw [he]; rfl
  have hrings : (s.endRun y).rings = s.rings := by rw [he]
  have hsteps : (s.endRun y).steps = s.steps := by rw [he]
  have hsched : (s.endRun y).sched.nextStart = none := by rw [he]; exact hn
  have hbl1 : (s.endRun y).recordBlocked y = false := by rw [he]; exact hbl
  have hdue := completeDesc_recordDue (c := s.ranRecord y st (s.ageOf y st) false) hcx1 hok rfl
  have hheld := completeDesc_recordHeld (c := s.ranRecord y st (s.ageOf y st) false) hcx1 hok rfl rfl hbl1 y.id
  have hfr := completeDesc_onlyRecords (s.endRun y) y.ctx (s.ranRecord y st (s.ageOf y st) false)
  rw [State.recordHeld_congr hrings, hh] at hheld
  rw [State.completeStep_delivering hs hst st (State.ctxOpen_of hcx1 hcl), State.writeRecords_plain hm hrec, hrr]
  generalize s.ranRecord y st (s.ageOf y st) false = c at hdue hheld hfr ⊢
  generalize completeDesc (s.endRun y) y.ctx c = v at hdue hheld hfr ⊢
  rw [hheld, if_neg Bool.false_ne_true]
  have hsv : v.sched = (s.endRun y).sched := (congrArg (fun u : State => u.sched) hfr.1 :)
  have hv : v.steps = [y] := ((congrArg (fun u : State => u.steps) hfr.1 :).trans hsteps).trans hs
  obtain ⟨h1, h2, h3, h4, h5⟩ := State.finishStep_frame hv rfl (hsv ▸ hsched) st
  exact ⟨hdue.congr h2 h3 h4, h1, h5.trans hfr.delivered⟩

end Machine

end Sys2Proof

namespace Sys2Proof

namespace Machine

set_option Elab.async false

/-! ### Choices beside a step that only waits for its record (R277, R307) -/

/-- A step that is neither admitted nor pre-empted is not chosen. -/
theorem State.pick_none {s : State} {y : Step} (hs : s.steps = [y]) (ha : y.stage ≠ .admitted) (hp : y.stage ≠ .preempted) : s.pick = none := by
  have hready : s.stepReady y = false := by simp [State.stepReady, ha]
  have hres : s.resumable y = false := by simp [State.resumable, hp]
  simp [State.pick, State.lcChoices, State.firstBe, earliest, hs, hready, hres]

theorem State.choose_pickNone {s : State} (h : s.pick = none) :
    s.choose = s ∨ s.choose = { s with sched := { s.sched with nextStart := none } } := by
  unfold State.choose
  split
  · unfold State.chooseN
    split
    · exact .inl rfl
    · rw [h]; exact .inr rfl
  · exact .inl rfl

/-- A delivered step whose ring is full: its record is held, and the step stays until it is written. -/
theorem State.completeStep_held {s : State} {y : Step} {cx : Ctx} {st : Nat} (hs : s.steps = [y]) (hst : y.stage = .delivering)
    (hcx : s.ctx? y.ctx = some cx) (hcl : cx.closing = false) (hbl : s.recordBlocked y = true)
    (hm : y.mirror = false) (hp : (s.hport cx.fn.port).carries = true) (hrun : s.sched.running = some y.id) (hok : st ≠ 0x13) :
    (s.completeStep y.id st).recordDue (s.endRun y) cx (s.ranRecord y st (s.ageOf y st) false) ∧
      (s.completeStep y.id st).steps = [{ y with stage := .due st }] ∧ (s.completeStep y.id st).sched.running = none ∧
      (s.completeStep y.id st).ctxs = s.ctxs ∧ (s.completeStep y.id st).drafts = s.drafts ∧ (s.completeStep y.id st).hasp = s.hasp := by
  have he := State.endRun_eq hrun
  have hid := State.ctx?_id hcx
  have hcx1 : (s.endRun y).ctx? y.ctx = some cx := by rw [he]; exact hcx
  have hrr : (s.endRun y).ranRecord y st ((s.endRun y).ageOf y st) false = s.ranRecord y st (s.ageOf y st) false := by rw [he]; rfl
  have hsteps : (s.endRun y).steps = s.steps := by rw [he]
  have hsched : (s.endRun y).sched.running = none := by rw [he]
  have hctxs : (s.endRun y).ctxs = s.ctxs ∧ (s.endRun y).drafts = s.drafts ∧ (s.endRun y).hasp = s.hasp := by rw [he]; exact ⟨rfl, rfl, rfl⟩
  have hp1 : ((s.endRun y).hport cx.fn.port).carries = true := by rw [he]; exact hp
  have hbl1 : (s.endRun y).recordBlocked y = true := by rw [he]; exact hbl
  have hdue := completeDesc_recordDue (c := s.ranRecord y st (s.ageOf y st) false) hcx1 hok rfl
  have hcr : (s.ranRecord y st (s.ageOf y st) false).ring = y.ring := rfl
  have hco : (s.ranRecord y st (s.ageOf y st) false).owner = some y.id := rfl
  have hcst : (s.ranRecord y st (s.ageOf y st) false).status = st := rfl
  have hwr : (s.endRun y).writeRecords y st = completeDesc (s.endRun y) y.ctx (s.ranRecord y st (s.ageOf y st) false) := by
    rw [← hrr]
    simp [State.writeRecords, hbl1, hm]
  rw [State.completeStep_delivering hs hst st (State.ctxOpen_of hcx1 hcl), hwr]
  generalize s.ranRecord y st (s.ageOf y st) false = c at hdue hcr hco hcst ⊢
  generalize s.endRun y = s1 at *
  obtain ⟨r, hr, hb⟩ : ∃ r, s1.ring? y.ctx y.ring = some r ∧ ((s1.ring? y.ctx r.cq).map Ring.blocked).getD false = true := by
    cases hr : s1.ring? y.ctx y.ring with
    | none => simp [State.recordBlocked, hr] at hbl1
    | some r => exact ⟨r, rfl, by simpa [State.recordBlocked, hr] using hbl1⟩
  obtain ⟨cr, hcq, hb⟩ : ∃ cr, s1.ring? y.ctx r.cq = some cr ∧ cr.blocked = true := by
    cases hcq : s1.ring? y.ctx r.cq with
    | none => simp [hcq] at hb
    | some cr => exact ⟨cr, rfl, by simpa [hcq] using hb⟩
  have hd : completeDesc s1 y.ctx c = s1.modRing cx.id cr.index (Ring.holds c) := by
    rw [completeDesc_eq hcx1 (by rw [hcst]; exact hok) (by rw [hcr]; exact hr) hcq hp1]
    exact dueRecord_held (by simpa [Ring.blocked] using hb)
  have hheld : (completeDesc s1 y.ctx c).recordHeld y.id = true := by
    have hq : (completeDesc s1 y.ctx c).ring? y.ctx r.cq = some (cr.holds c) := by
      rw [hd, ← hid, State.ring?_modRing _ _ _ _ (f := Ring.holds c) (fun _ => ⟨rfl, rfl⟩), if_pos (State.ring?_index hcq).symm, hid, hcq]
      rfl
    exact List.any_eq_true.mpr ⟨_, List.mem_of_find?_eq_some hq, List.any_eq_true.mpr ⟨c, by simp [Ring.holds], by simp [hco]⟩⟩
  rw [hheld, if_pos rfl]
  rw [hd] at hdue ⊢
  generalize hv : (s1.modRing cx.id cr.index (Ring.holds c)).modStep y.id (fun x => { x with stage := .due st }) = v
  have hvs : v.steps = [{ y with stage := .due st }] := by
    rw [← hv]
    simp [State.modStep, State.modRing, hsteps, hs]
  have hdv : v.recordDue s1 cx c := hdue.congr (by rw [← hv]; rfl) (by rw [← hv]; rfl) (by rw [← hv]; rfl)
  have hv1 : v.sched = s1.sched ∧ v.ctxs = s1.ctxs ∧ v.drafts = s1.drafts ∧ v.hasp = s1.hasp := by rw [← hv]; exact ⟨rfl, rfl, rfl, rfl⟩
  have hvf : v.sched.running = none ∧ v.ctxs = s.ctxs ∧ v.drafts = s.drafts ∧ v.hasp = s.hasp :=
    ⟨hv1.1 ▸ hsched, hv1.2.1.trans hctxs.1, hv1.2.2.1.trans hctxs.2.1, hv1.2.2.2.trans hctxs.2.2⟩
  rcases State.choose_pickNone (State.pick_none hvs nofun nofun) with h | h
  · rw [h]
    exact ⟨hdv, hvs, hvf⟩
  · rw [h]
    exact ⟨hdv.congr rfl rfl rfl, hvs, hvf⟩

end Machine

end Sys2Proof

namespace Sys2Proof

namespace Machine

set_option Elab.async false

/-! ### Delivery: the result set in host memory (R29, R137) -/

theorem State.live_single {s : State} {x : Step} (hs : s.steps = [x]) (hk : lookupN s.ladder.kills x.ctx = none) : s.live x.id = true := by
  simp [State.live, State.step?, hs, hk]

/-- The step that a context delivers, when it is the only one. -/
theorem State.find_delivering {s : State} {x : Step} (hs : s.steps = [x]) (hst : x.stage = .delivering) (hl : s.live x.id = true) :
    s.steps.find? (fun t => t.ctx == x.ctx && decide (t.stage = .delivering) && s.live t.id) = some x := by
  simp [hs, hst, hl]

/-- The state in which a step's result set is in host memory, its reads and its way counted. -/
def State.delivered (s : State) (x : Step) (set : List Byte) : State :=
  ((hostWrite s x.fn.port (fnMaster x.fn) x.ctx x.lc x.resultAddr (qualified set (s.qualBits x))).linkBytes (if x.onA then 1 else 2) 0
    { workEv 0 0 none 0 x with master := some (fnMaster x.fn).toNat } set.length).tracked (if x.onA then 1 else 2) (workEv 0 0 none 0 x)

theorem State.delivered_frame {s : State} {x : Step} (hp : (s.hport x.fn.port).carries = true) (set : List Byte) :
    (s.delivered x set).sameButDraws (s.putHost x.fn.port x.resultAddr (qualified set (s.qualBits x))) := by
  have hd : (if x.onA then 1 else 2) < 3 := by split <;> decide
  have hne : qualified set (s.qualBits x) ≠ [] := by
    intro h
    have := congrArg List.length h
    simp [qualified, length_leBytes] at this
  exact (State.tracked_onlyDraws hd _ _).trans ((State.linkBytes_onlyDraws hd (by decide) _ _ _).trans
    (.of_counters (hostWrite_frame hp hne (fnMaster x.fn) x.ctx x.lc x.resultAddr)))

/-- A delivery whose reads meet no uncorrectable error: the result set is written, the monitors look, and the step completes. -/
theorem exec_resultWritesDone {s : State} {x : Step} {set : List Byte} (hs : s.steps = [x]) (hst : x.stage = .delivering)
    (hk : lookupN s.ladder.kills x.ctx = none) (hset : x.resultSet = some set) (fs : List DataAt) :
    exec (.resultWritesDone x.ctx { fixed := fs, hit := none }) s =
      .next (let t := ((((s.readChecks { fixed := fs, hit := none } (some x.ctx)).delivered x set).deadlineFault x).ageFaultNow x)
        if t.live x.id then t.completeStep x.id (t.okOrLate x) else t) := by
  have hf := s.readChecks_onlyReads fs (some x.ctx)
  have hs1 : (s.readChecks { fixed := fs, hit := none } (some x.ctx)).steps = [x] := (congrArg (fun u : State => u.steps) hf.1.1 :).trans hs
  have hk1 : lookupN (s.readChecks { fixed := fs, hit := none } (some x.ctx)).ladder.kills x.ctx = none := by
    have : (s.readChecks { fixed := fs, hit := none } (some x.ctx)).ladder = s.ladder := (congrArg (fun u : State => u.ladder) hf.1.1 :)
    rw [this]; exact hk
  change execResultWritesDone x.ctx { fixed := fs, hit := none } s = _
  unfold execResultWritesDone
  simp only [State.find_delivering hs hst (State.live_single hs hk), State.find_delivering hs1 hst (State.live_single hs1 hk1), hset]
  rfl

/-- t is s but for host memory, the dies, counters and draws. -/
def State.sameButHosts (t s : State) : Prop := State.sameButDies { t with hostMemA := s.hostMemA, hostMemB := s.hostMemB } s

theorem State.sameButHosts.trans {a b c : State} (h : a.sameButHosts b) (k : b.sameButHosts c) : a.sameButHosts c := by
  refine ⟨?_, fun o ho => (h.2 o ho).trans (k.2 o ho)⟩
  obtain ⟨h, -⟩ := h
  obtain ⟨k, -⟩ := k
  rw [← k, ← h]

theorem State.sameButDies.hosts {t s : State} (h : t.sameButDies s) : t.sameButHosts s := by
  have h1 := h.1
  refine ⟨?_, h.2⟩
  conv_rhs => rw [← h1]
  conv_lhs => rw [← h1]

theorem State.putHost_onlyHosts (s : State) (p : HostPort) (a : Nat) (bs : List Byte) : (s.putHost p a bs).sameButHosts s := by
  cases p <;> exact ⟨rfl, fun _ _ => rfl⟩

theorem State.sameButDies.hostMem {t s : State} (h : t.sameButDies s) (p : HostPort) : t.hostMem p = s.hostMem p :=
  State.hostMem_congr (congrArg (fun u : State => u.hostMemA) h.1 :) (congrArg (fun u : State => u.hostMemB) h.1 :) p

/-- Before its monitors look, a delivery has changed the host's memory, beside dies, counters and draws. -/
theorem State.delivered_readChecks {s : State} {x : Step} (hp : (s.hport x.fn.port).carries = true) (set : List Byte) (fs : List DataAt) :
    ((s.readChecks { fixed := fs, hit := none } (some x.ctx)).delivered x set).hostMem x.fn.port =
        (s.hostMem x.fn.port).writeBytes x.resultAddr (qualified set (s.qualBits x)) ∧
      ((s.readChecks { fixed := fs, hit := none } (some x.ctx)).delivered x set).sameButHosts s := by
  have hf := (s.readChecks_onlyReads fs (some x.ctx)).dies
  generalize s.readChecks { fixed := fs, hit := none } (some x.ctx) = r at hf ⊢
  have hpr : (r.hport x.fn.port).carries = true := by
    have ha : r.portA = s.portA := (congrArg (fun u : State => u.portA) hf.1 :)
    have hb : r.portB = s.portB := (congrArg (fun u : State => u.portB) hf.1 :)
    simpa [State.hport, ha, hb] using hp
  have hq : r.qualBits x = s.qualBits x := by
    simp only [State.qualBits, State.stepSubst, State.stepInst, State.inst?_congr hf.batches]
  have hd := (State.delivered_frame hpr set).dies
  rw [hq] at hd
  generalize r.delivered x set = w at hd ⊢
  generalize qualified set (s.qualBits x) = bs at hd ⊢
  exact ⟨(hd.hostMem _).trans ((State.hostMem_putHost r _ _ _).trans (by rw [hf.hostMem])),
    hd.hosts.trans ((State.putHost_onlyHosts r _ _ _).trans hf.hosts)⟩

/-! ### The monitors (R294, R295) -/

theorem State.deadlineFault_none {s : State} {x : Step} (h : ∀ a, x.deadline = some a → s.time.now.toNat ≤ a)
    (hlc : x.lc = true → x.deadline ≠ none) : s.deadlineFault x = s := by
  unfold State.deadlineFault
  split
  next hd =>
    cases hx : x.deadline with
    | none =>
      have : x.lc = false := by simpa using fun hl => hlc hl hx
      simp [State.deadlineRaise, this]
    | some a =>
      have := h a hx
      simp [hx] at hd
      omega
  next => rfl

theorem State.ageFaultNow_none {s : State} {x : Step} (h : ∀ a, x.ageAt = some a → s.time.now.toNat ≤ a) : s.ageFaultNow x = s := by
  unfold State.ageFaultNow
  split
  · rfl
  next a ha => rw [if_neg (by simpa using h a ha)]

/-- A step whose deadline source has been raised. -/
def Step.late (x : Step) : Step := { x with deadlineFault := true }

/-- The deadline source of an LC step, raised while it is silent: the step is marked, the source captured. -/
theorem State.deadlineRaise_silent {s : State} {x : Step} (hlc : x.lc = true) (hd : x.deadlineFault = false) (hn : s.silent 0x011) :
    (s.deadlineRaise x).captured 0x011 (cap (some x.ctx) noMaster 7 x.counter 0) ∧
      (s.deadlineRaise x).sameButHealth (s.modStep x.id Step.late) := by
  have ht : s.deadlineRaise x = (bumpPart (s.modStep x.id Step.late) (portPart x.fn.port) 3).raise 0x011
      (cap (some x.ctx) noMaster 7 x.counter 0) := by
    simp only [State.deadlineRaise, hlc, hd, Bool.not_false, Bool.and_self, if_true]
    rfl
  obtain ⟨h, hc, -⟩ := State.raise_silent (bumpPart (s.modStep x.id Step.late) (portPart x.fn.port) 3) 0x011
    (cap (some x.ctx) noMaster 7 x.counter 0) hn
  rw [ht]
  exact ⟨hc, h.trans ⟨rfl, fun _ _ _ => rfl⟩⟩

end Machine

end Sys2Proof

namespace Sys2Proof

namespace Machine

set_option Elab.async false

/-! ### What a delivery asks for, of states that agree -/

/-- Two states that agree on what the completion of a step looks at. -/
structure State.AgreesFor (t s : State) : Prop where
  ctxs : t.ctxs = s.ctxs
  rings : t.rings = s.rings
  drafts : t.drafts = s.drafts
  batches : t.batches = s.batches
  time : t.time = s.time
  sched : t.sched = s.sched
  portA : t.portA = s.portA
  portB : t.portB = s.portB

theorem State.sameButHosts.agrees {t s : State} (h : t.sameButHosts s) : t.AgreesFor s :=
  ⟨(congrArg (fun u : State => u.ctxs) h.1 :), (congrArg (fun u : State => u.rings) h.1 :), (congrArg (fun u : State => u.drafts) h.1 :),
    (congrArg (fun u : State => u.batches) h.1 :), (congrArg (fun u : State => u.time) h.1 :), (congrArg (fun u : State => u.sched) h.1 :),
    (congrArg (fun u : State => u.portA) h.1 :), (congrArg (fun u : State => u.portB) h.1 :)⟩

theorem State.sameButHealth.agrees {t s : State} (h : t.sameButHealth s) : t.AgreesFor s :=
  ⟨(congrArg (fun u : State => u.ctxs) h.1 :), (congrArg (fun u : State => u.rings) h.1 :), (congrArg (fun u : State => u.drafts) h.1 :),
    (congrArg (fun u : State => u.batches) h.1 :), (congrArg (fun u : State => u.time) h.1 :), (congrArg (fun u : State => u.sched) h.1 :),
    (congrArg (fun u : State => u.portA) h.1 :), (congrArg (fun u : State => u.portB) h.1 :)⟩

theorem State.AgreesFor.trans {a b c : State} (h : a.AgreesFor b) (k : b.AgreesFor c) : a.AgreesFor c :=
  ⟨h.ctxs.trans k.ctxs, h.rings.trans k.rings, h.drafts.trans k.drafts, h.batches.trans k.batches, h.time.trans k.time, h.sched.trans k.sched,
    h.portA.trans k.portA, h.portB.trans k.portB⟩

theorem State.AgreesFor.modStep (s : State) (id : Nat) (f : Step → Step) : (s.modStep id f).AgreesFor s := ⟨rfl, rfl, rfl, rfl, rfl, rfl, rfl, rfl⟩

section
variable {t s : State} (h : t.AgreesFor s)
include h

theorem State.AgreesFor.ctx? (n : Nat) : t.ctx? n = s.ctx? n := by simp only [State.ctx?, h.ctxs]

theorem State.AgreesFor.recordBlocked (x : Step) : t.recordBlocked x = s.recordBlocked x := by
  simp only [State.recordBlocked, State.ring?_congr h.rings]

theorem State.AgreesFor.stepInst (x : Step) : t.stepInst x = s.stepInst x := by
  simp only [State.stepInst, State.inst?_congr h.batches]

theorem State.AgreesFor.ageOf (x : Step) (st : Nat) : t.ageOf x st = s.ageOf x st := by
  simp only [State.ageOf, State.ageAnchor, h.stepInst, h.time]

theorem State.AgreesFor.ranRecord (x : Step) (st age : Nat) (short : Bool) : t.ranRecord x st age short = s.ranRecord x st age short := by
  simp only [State.ranRecord, State.stepSubst, h.stepInst, State.stepDraft, State.stepEntry, State.entry?, h.drafts]

theorem State.AgreesFor.hport (p : HostPort) : t.hport p = s.hport p := by
  cases p
  · exact h.portA
  · exact h.portB

end

theorem qualified_length (bs : List Byte) (p q : Nat) : (qualified bs p).length = (qualified bs q).length := by
  simp [qualified, length_leBytes]

/-- The result set of a delivery is in the host's memory, and every other byte is as it was. -/
theorem Memory.writeBytes_qualified {m : Memory} (h : m.wf = true) (a : Nat) (bs : List Byte) (q : Nat) :
    (m.writeBytes a (qualified bs q)).readBytes a (qualified bs 0).length = qualified bs q ∧
      ∀ b, b < a ∨ a + (qualified bs 0).length ≤ b → (m.writeBytes a (qualified bs q)).read b = m.read b := by
  rw [qualified_length bs 0 q]
  refine ⟨Memory.readBytes_writeBytes h _ _, fun b hb => ?_⟩
  rw [Memory.read_writeBytes _ _ _ _ h, if_neg (by omega)]

theorem State.okOrLate_inTime {s : State} {x : Step} (hd : ∀ a, x.deadline = some a → s.time.now.toNat ≤ a) : s.okOrLate x = 0 := by
  unfold State.okOrLate
  split
  · rfl
  next a hax => rw [if_neg (Nat.not_lt.mpr (hd a hax))]

theorem State.captured.congr {t s : State} {n : Nat} {c : Capture} (h : s.captured n c) (hh : t.hasp = s.hasp) (ht : t.time = s.time) :
    t.captured n c := by
  unfold State.captured
  rw [hh, ht]
  exact h

/-- After a delivered step the array and its latches are free; contexts, drafts, pins, Hasp and time are as they were. -/
theorem State.sameButDelivered.ended {t s : State} {x : Step} (h : t.sameButDelivered (s.endRun x)) (hrun : s.sched.running = some x.id) :
    t.sched.running = none ∧ t.ctxs = s.ctxs ∧ t.drafts = s.drafts ∧ t.pins = s.pins ∧ t.hasp = s.hasp ∧ t.time = s.time ∧
      ∀ l ∈ t.latches, l.2 ≠ .program x.ctx := by
  have he := State.endRun_eq hrun
  have hlat : t.latches = (s.endRun x).latches := (congrArg (fun u : State => u.latches) h.1 :)
  refine ⟨(congrArg (fun u : State => u.sched.running) h.1 :).trans ?_, (congrArg (fun u : State => u.ctxs) h.1 :).trans ?_,
    (congrArg (fun u : State => u.drafts) h.1 :).trans ?_, (congrArg (fun u : State => u.pins) h.1 :).trans ?_,
    (congrArg (fun u : State => u.hasp) h.1 :).trans ?_, (congrArg (fun u : State => u.time) h.1 :).trans ?_, fun l hl => ?_⟩
  · rw [he]
  · rw [he]
  · rw [he]
  · rw [he]
  · rw [he]
  · rw [he]
  · rw [hlat, he] at hl
    simpa using (List.mem_filter.mp hl).2

/-! ### O51: the clauses of a delivery -/

section
variable {x : Step} {set : List Byte} {cx : Ctx} {s : State} (hs : s.steps = [x]) (hst : x.stage = .delivering)
  (hk : lookupN s.ladder.kills x.ctx = none) (hset : x.resultSet = some set) (hcx : s.ctx? x.ctx = some cx)
  (hcl : cx.closing = false) (hm : x.mirror = false) (hp : (s.hport x.fn.port).carries = true) (hrun : s.sched.running = some x.id)
include hs hst hk hset hcx hcl hm hp hrun

/-- A step delivered in time: the result set is written, then its record. -/
theorem delivery_ok (hbl : s.recordBlocked x = false) (hh : s.recordHeld x.id = false) (hrec : x.record = false)
    (hwf : (s.hostMem x.fn.port).wf = true) (hn : s.sched.nextStart = none) (hd : ∀ a, x.deadline = some a → s.time.now.toNat ≤ a)
    (hlc : x.lc = true → x.deadline ≠ none) (ha : ∀ a, x.ageAt = some a → s.time.now.toNat ≤ a) (fs : List DataAt) :
    ∃ t u, exec (.resultWritesDone x.ctx { fixed := fs, hit := none }) s = .next t ∧
      (u.hostMem x.fn.port).readBytes x.resultAddr (qualified set 0).length = qualified set (s.qualBits x) ∧
      (∀ a, a < x.resultAddr ∨ x.resultAddr + (qualified set 0).length ≤ a → (u.hostMem x.fn.port).read a = (s.hostMem x.fn.port).read a) ∧
      t.recordDue u cx (s.ranRecord x 0 (ceilDiv (s.time.now.toNat - (s.ageAnchor x).toNat) 1000) false) ∧ u.rings = s.rings ∧
      t.steps = [] ∧ t.sched.running = none ∧ t.ctxs = s.ctxs ∧ t.drafts = s.drafts ∧ t.pins = s.pins ∧ t.hasp = s.hasp ∧
      (∀ l ∈ t.latches, l.2 ≠ .program x.ctx) := by
  obtain ⟨hmem, hf⟩ := State.delivered_readChecks hp set fs
  have ht := exec_resultWritesDone hs hst hk hset fs
  generalize (s.readChecks { fixed := fs, hit := none } (some x.ctx)).delivered x set = w at hmem hf ht
  have ag := hf.agrees
  have hws : w.steps = [x] := (congrArg (fun u : State => u.steps) hf.1 :).trans hs
  have hwk : lookupN w.ladder.kills x.ctx = none := (congrArg (fun u : State => lookupN u.ladder.kills x.ctx) hf.1 :).trans hk
  rw [State.deadlineFault_none (by rw [ag.time]; exact hd) hlc, State.ageFaultNow_none (by rw [ag.time]; exact ha)] at ht
  simp only [State.live_single hws hwk, if_true, State.okOrLate_inTime (s := w) (by rw [ag.time]; exact hd)] at ht
  obtain ⟨hdue, hsteps, hfr⟩ := State.completeStep_written (st := 0) hws hst (by rw [ag.ctx?]; exact hcx) hcl (by rw [ag.recordBlocked]; exact hbl)
    (by rw [State.recordHeld_congr ag.rings]; exact hh) hm hrec (by rw [ag.sched]; exact hrun) (by rw [ag.sched]; exact hn) (by decide)
  rw [ag.ranRecord, ag.ageOf] at hdue
  have hwr : w.sched.running = some x.id := by rw [ag.sched]; exact hrun
  have he := State.endRun_eq hwr
  obtain ⟨hq1, hq2⟩ := Memory.writeBytes_qualified hwf x.resultAddr set (s.qualBits x)
  rw [← hmem] at hq1 hq2
  have hum : (w.endRun x).hostMem x.fn.port = w.hostMem x.fn.port := by rw [he]; exact State.hostMem_congr rfl rfl _
  obtain ⟨hrn, hc, hdr, hpin, hh, -, hlat⟩ := hfr.ended hwr
  exact ⟨_, w.endRun x, ht, by rw [hum]; exact hq1, by rw [hum]; exact hq2, hdue, by rw [he]; exact ag.rings, hsteps, hrn, hc.trans ag.ctxs,
    hdr.trans ag.drafts, hpin.trans (congrArg (fun u : State => u.pins) hf.1 :), hh.trans (congrArg (fun u : State => u.hasp) hf.1 :), hlat⟩

/-- A step delivered after its deadline: the source is captured, and its record says LATE. -/
theorem delivery_late {a : Nat} (hbl : s.recordBlocked x = false) (hh : s.recordHeld x.id = false) (hrec : x.record = false)
    (hn : s.sched.nextStart = none) (hd : x.deadline = some a) (hnow : a < s.time.now.toNat) (hlc : x.lc = true)
    (hdf : x.deadlineFault = false) (ha : x.ageAt = none) (hsil : s.silent 0x011) (fs : List DataAt) :
    ∃ t u, exec (.resultWritesDone x.ctx { fixed := fs, hit := none }) s = .next t ∧
      t.recordDue u cx (s.ranRecord x 1 (ceilDiv (s.time.now.toNat - (s.ageAnchor x).toNat) 1000) false) ∧ u.rings = s.rings ∧
      t.captured 0x011 (cap (some x.ctx) noMaster 7 x.counter 0) ∧ t.steps = [] ∧ t.sched.running = none ∧ t.ctxs = s.ctxs ∧
      t.drafts = s.drafts := by
  obtain ⟨-, hf⟩ := State.delivered_readChecks hp set fs
  have ht := exec_resultWritesDone hs hst hk hset fs
  generalize (s.readChecks { fixed := fs, hit := none } (some x.ctx)).delivered x set = w at hf ht
  have hws : w.steps = [x] := (congrArg (fun u : State => u.steps) hf.1 :).trans hs
  have hwk : lookupN w.ladder.kills x.ctx = none := (congrArg (fun u : State => lookupN u.ladder.kills x.ctx) hf.1 :).trans hk
  have hwn : w.silent 0x011 := by
    obtain ⟨h1, h2, h3⟩ := hsil
    exact ⟨h1, (congrArg (fun u : State => u.hasp.raised.contains 0x011) hf.1 :).trans h2, (hf.2 _ (oSrcCfg_plain _ h1).1).trans h3⟩
  have hdl : w.deadlineFault x = w.deadlineRaise x := by
    have htime : w.time = s.time := hf.agrees.time
    unfold State.deadlineFault
    rw [if_pos (by simp [hd, htime, hnow])]
  obtain ⟨hcap, hr⟩ := State.deadlineRaise_silent hlc hdf hwn
  rw [hdl] at ht
  generalize w.deadlineRaise x = v at hcap hr ht
  have ag : v.AgreesFor s := hr.agrees.trans ((State.AgreesFor.modStep w x.id Step.late).trans hf.agrees)
  have hvs : v.steps = [x.late] := by
    refine (congrArg (fun u : State => u.steps) hr.1 :).trans ?_
    simp [State.modStep, hws]
  have hvk : lookupN v.ladder.kills x.late.ctx = none := (congrArg (fun u : State => lookupN u.ladder.kills x.ctx) hr.1 :).trans hwk
  have hor : v.okOrLate x = 1 := by simp [State.okOrLate, hd, ag.time, hnow]
  rw [State.ageFaultNow_none (by rw [ha]; exact nofun)] at ht
  have hl : v.live x.id = true := State.live_single (x := x.late) hvs hvk
  simp only [hl, if_true, hor] at ht
  obtain ⟨hdue, hsteps, hfr⟩ := State.completeStep_written (y := x.late) (st := 1) hvs hst (by rw [ag.ctx?]; exact hcx) hcl
    (by rw [ag.recordBlocked]; exact hbl) (by rw [State.recordHeld_congr ag.rings]; exact hh) hm hrec (by rw [ag.sched]; exact hrun)
    (by rw [ag.sched]; exact hn) (by decide)
  rw [ag.ranRecord, ag.ageOf] at hdue
  have hv : v.sched.running = some x.late.id := by rw [ag.sched]; exact hrun
  obtain ⟨hrn, hc, hdr, -, hh, htm, -⟩ := hfr.ended hv
  exact ⟨_, v.endRun x.late, ht, hdue, by rw [State.endRun_eq hv]; exact ag.rings, hcap.congr hh htm, hsteps, hrn, hc.trans ag.ctxs,
    hdr.trans ag.drafts⟩

/-- A step delivered in time whose completion ring is full: its record is held. -/
theorem delivery_held (hfn : cx.fn = x.fn) (hbl : s.recordBlocked x = true) (hd : ∀ a, x.deadline = some a → s.time.now.toNat ≤ a)
    (hlc : x.lc = true → x.deadline ≠ none) (ha : ∀ a, x.ageAt = some a → s.time.now.toNat ≤ a) (fs : List DataAt) :
    ∃ t u, exec (.resultWritesDone x.ctx { fixed := fs, hit := none }) s = .next t ∧ t.steps = [{ x with stage := .due 0 }] ∧
      t.sched.running = none ∧ t.recordDue u cx (s.ranRecord x 0 (ceilDiv (s.time.now.toNat - (s.ageAnchor x).toNat) 1000) false) ∧
      u.rings = s.rings ∧ t.ctxs = s.ctxs ∧ t.drafts = s.drafts ∧ t.hasp = s.hasp := by
  obtain ⟨-, hf⟩ := State.delivered_readChecks hp set fs
  have ht := exec_resultWritesDone hs hst hk hset fs
  generalize (s.readChecks { fixed := fs, hit := none } (some x.ctx)).delivered x set = w at hf ht
  have ag := hf.agrees
  have hws : w.steps = [x] := (congrArg (fun u : State => u.steps) hf.1 :).trans hs
  have hwk : lookupN w.ladder.kills x.ctx = none := (congrArg (fun u : State => lookupN u.ladder.kills x.ctx) hf.1 :).trans hk
  rw [State.deadlineFault_none (by rw [ag.time]; exact hd) hlc, State.ageFaultNow_none (by rw [ag.time]; exact ha)] at ht
  simp only [State.live_single hws hwk, if_true, State.okOrLate_inTime (s := w) (by rw [ag.time]; exact hd)] at ht
  obtain ⟨hdue, hsteps, hr, hc, hdr, hh⟩ := State.completeStep_held (st := 0) hws hst (by rw [ag.ctx?]; exact hcx) hcl
    (by rw [ag.recordBlocked]; exact hbl) hm (by rw [hfn, ag.hport]; exact hp) (by rw [ag.sched]; exact hrun) (by decide)
  rw [ag.ranRecord, ag.ageOf] at hdue
  have he := State.endRun_eq (s := w) (y := x) (by rw [ag.sched]; exact hrun)
  exact ⟨_, w.endRun x, ht, hsteps, hr, hdue, by rw [he]; exact ag.rings, hc.trans ag.ctxs, hdr.trans ag.drafts,
    hh.trans (congrArg (fun u : State => u.hasp) hf.1 :)⟩

end

end Machine

end Sys2Proof

namespace Sys2Proof

namespace Machine

set_option Elab.async false

/-! ### Monitor expiries (R294, R295) -/

theorem State.step?_modStep (s : State) (id : Nat) {f : Step → Step} (hf : ∀ x, (f x).id = x.id) :
    (s.modStep id f).step? id = (s.step? id).map f := by
  simp only [State.step?, State.modStep]
  induction s.steps with
  | nil => rfl
  | cons x l ih =>
    by_cases hx : x.id = id
    · simp [hx, hf]
    · simp [hx, ih]

/-- A step whose age source has been raised. -/
def Step.aged (x : Step) : Step := { x with ageFault := true }

theorem State.ageRaise_silent {s : State} {x : Step} (hlc : x.lc = true) (ha : x.ageFault = false) (hn : s.silent 0x012) :
    (s.ageRaise x).captured 0x012 (cap (some x.ctx) noMaster 7 x.counter 0) ∧
      (s.ageRaise x).sameButHealth (s.modStep x.id Step.aged) := by
  have ht : s.ageRaise x = (s.modStep x.id Step.aged).raise 0x012 (cap (some x.ctx) noMaster 7 x.counter 0) := by
    simp only [State.ageRaise, hlc, ha, Bool.not_false, Bool.and_self, if_true]
    rfl
  obtain ⟨h, hc, -⟩ := State.raise_silent (s.modStep x.id Step.aged) 0x012 (cap (some x.ctx) noMaster 7 x.counter 0) hn
  rw [ht]
  exact ⟨hc, h⟩

theorem State.monitored_lc {s : State} {c n : Nat} {x : Step} (h : s.monitored c n = some x) : x.lc = true := by
  have := List.find?_some h
  simp only [Bool.and_eq_true] at this
  exact this.1.1.2

theorem State.step?_isSome_of_monitored {s : State} {c n : Nat} {x : Step} (h : s.monitored c n = some x) : ∃ y, s.step? x.id = some y :=
  Option.isSome_iff_exists.mp (List.find?_isSome.mpr ⟨x, List.mem_of_find?_eq_some h, by simp⟩)

/-- A step that a monitor has marked: the mark stands in the table, all else but Hasp's state and counters is as it was. -/
theorem State.marked_step {t s : State} {id : Nat} {y : Step} {f : Step → Step} (h : t.sameButHealth (s.modStep id f)) (hf : ∀ x, (f x).id = x.id)
    (hy : s.step? id = some y) : t.step? id = some (f y) ∧ State.sameButHealth { t with steps := s.steps } s := by
  refine ⟨?_, (congrArg (fun u : State => { u with steps := s.steps }) h.1 :), h.2⟩
  have hs : t.steps = (s.modStep id f).steps := (congrArg (fun u : State => u.steps) h.1 :)
  have hq : t.step? id = (s.modStep id f).step? id := by simp only [State.step?, hs]
  rw [hq, State.step?_modStep s id hf, hy]
  rfl

theorem exec_deadlineMonitorExpiry {s : State} {c n : Nat} {x : Step} (h : s.monitored c n = some x) :
    exec (.deadlineMonitorExpiry c n) s = .next (if decide (x.deadline.getD 0 ≤ s.time.now.toNat) then s.deadlineRaise x else s) := by
  change execDeadlineMonitorExpiry c n s = _
  simp only [execDeadlineMonitorExpiry, h]

theorem exec_ageMonitorExpiry {s : State} {c n a : Nat} {x : Step} (h : s.monitored c n = some x) (ha : x.ageAt = some a) :
    exec (.ageMonitorExpiry c n) s = .next (if decide (a ≤ s.time.now.toNat) then s.ageRaise x else s) := by
  change execAgeMonitorExpiry c n s = _
  simp only [execAgeMonitorExpiry, h, ha]

/-- A deadline that has passed is raised once. -/
theorem deadlineMonitor_expires {s : State} {c n : Nat} {x : Step} (h : s.monitored c n = some x) (hd : x.deadline.getD 0 ≤ s.time.now.toNat)
    (hf : x.deadlineFault = false) (hn : s.silent 0x011) :
    ∃ t, exec (.deadlineMonitorExpiry c n) s = .next t ∧ t.captured 0x011 (cap (some x.ctx) noMaster 7 x.counter 0) ∧
      (t.step? x.id).map (fun y => y.deadlineFault) = some true ∧ State.sameButHealth { t with steps := s.steps } s := by
  obtain ⟨y, hy⟩ := State.step?_isSome_of_monitored h
  obtain ⟨hc, hr⟩ := State.deadlineRaise_silent (State.monitored_lc h) hf hn
  obtain ⟨hst, hfr⟩ := State.marked_step (f := Step.late) hr (fun _ => rfl) hy
  exact ⟨_, (exec_deadlineMonitorExpiry h).trans (by rw [decide_eq_true hd, if_pos rfl]), hc, by rw [hst]; rfl, hfr⟩

theorem deadlineMonitor_quiet {s : State} {c n : Nat} {x : Step} (h : s.monitored c n = some x)
    (hq : s.time.now.toNat < x.deadline.getD 0 ∨ x.deadlineFault = true) : exec (.deadlineMonitorExpiry c n) s = .next s := by
  rw [exec_deadlineMonitorExpiry h]
  rcases hq with hq | hq
  · rw [decide_eq_false (by omega), if_neg Bool.false_ne_true]
  · have : s.deadlineRaise x = s := by simp [State.deadlineRaise, hq]
    rw [this, ite_self]

/-- An age limit that has passed is raised once. -/
theorem ageMonitor_expires {s : State} {c n a : Nat} {x : Step} (h : s.monitored c n = some x) (ha : x.ageAt = some a)
    (hd : a ≤ s.time.now.toNat) (hf : x.ageFault = false) (hn : s.silent 0x012) :
    ∃ t, exec (.ageMonitorExpiry c n) s = .next t ∧ t.captured 0x012 (cap (some x.ctx) noMaster 7 x.counter 0) ∧
      (t.step? x.id).map (fun y => y.ageFault) = some true ∧ State.sameButHealth { t with steps := s.steps } s := by
  obtain ⟨y, hy⟩ := State.step?_isSome_of_monitored h
  obtain ⟨hc, hr⟩ := State.ageRaise_silent (State.monitored_lc h) hf hn
  obtain ⟨hst, hfr⟩ := State.marked_step (f := Step.aged) hr (fun _ => rfl) hy
  exact ⟨_, (exec_ageMonitorExpiry h ha).trans (by rw [decide_eq_true hd, if_pos rfl]), hc, by rw [hst]; rfl, hfr⟩

theorem ageMonitor_quiet {s : State} {c n a : Nat} {x : Step} (h : s.monitored c n = some x) (ha : x.ageAt = some a)
    (hq : s.time.now.toNat < a ∨ x.ageFault = true) : exec (.ageMonitorExpiry c n) s = .next s := by
  rw [exec_ageMonitorExpiry h ha]
  rcases hq with hq | hq
  · rw [decide_eq_false (by omega), if_neg Bool.false_ne_true]
  · have : s.ageRaise x = s := by simp [State.ageRaise, hq]
    rw [this, ite_self]

end Machine

end Sys2Proof

namespace Sys2Proof

namespace Machine

set_option Elab.async false

/-! ### Dropping a step's work (R98, R122, R472) -/

/-- No operation of a state serves a step. -/
def State.servesNot (s : State) (id : Nat) : Prop := ∀ d, ∀ o ∈ (s.weft d).ops, ∀ m ∈ o.members, m.step ≠ id

/-- No request of a gather window is a step's. -/
def Window.servesNot (w : Window) (id : Nat) : Prop := ∀ a ∈ w.asked, a.2.step ≠ id

theorem Op.without_members {id : Nat} {o q : Op} (h : o.without id = some q) : ∀ m ∈ q.members, m.step ≠ id := by
  unfold Op.without at h
  dsimp only at h
  split at h
  · cases h
  · cases h
    intro m hm
    simpa using (List.mem_filter.mp hm).2

theorem Window.without_servesNot {id : Nat} {w q : Window} (h : w.without id = some q) : q.servesNot id := by
  unfold Window.without at h
  dsimp only at h
  split at h
  · cases h
  · cases h
    intro a ha
    simpa using (List.mem_filter.mp ha).2

theorem WeftDie.dropStep_ops (id k : Nat) (w : WeftDie) : ∀ o ∈ (w.dropStep id k).ops, ∀ m ∈ o.members, m.step ≠ id := by
  have queue : ∀ (l : List Op), ∀ o ∈ l.filterMap (Op.without id), ∀ m ∈ o.members, m.step ≠ id := fun l o ho => by
    obtain ⟨q, -, hq⟩ := List.mem_filterMap.mp ho
    exact Op.without_members hq
  have unit : ∀ (r : Option Op), ∀ o ∈ (r.bind (Op.without id)).toList, ∀ m ∈ o.members, m.step ≠ id := fun r o ho => by
    obtain ⟨q, -, hq⟩ := Option.bind_eq_some_iff.mp (Option.mem_toList.mp ho)
    exact Op.without_members hq
  intro o ho
  simp only [WeftDie.ops, WeftDie.dropStep, List.mem_append] at ho
  rcases ho with ((((((ho | ho) | ho) | ho) | ho) | ho) | ho) | ho
  · exact queue _ o ho
  · exact queue _ o ho
  · exact queue _ o ho
  · exact queue _ o ho
  · exact unit _ o ho
  · exact unit _ o ho
  · exact unit _ o ho
  · exact unit _ o ho

theorem Window.opOn_members {id : Nat} {w : Window} (h : w.servesNot id) (d : Weft) : ∀ m ∈ (w.opOn d).members, m.step ≠ id := by
  intro m hm
  obtain ⟨m', -, hm'⟩ := List.mem_filterMap.mp hm
  obtain ⟨a, ha, rfl⟩ := Option.map_eq_some_iff.mp hm'
  exact h a (List.mem_of_find?_eq_some ha)

/-- A die that gets a window's operation. -/
def WeftDie.queued (o : Op) (x : WeftDie) : WeftDie := { x with arrayQ := x.arrayQ ++ [o] }

theorem WeftDie.mem_queued_ops {o q : Op} {w : WeftDie} (h : q ∈ (w.queued o).ops) : q = o ∨ q ∈ w.ops := by
  simp only [WeftDie.ops, WeftDie.queued, List.mem_append, List.mem_singleton] at h ⊢
  tauto

theorem State.weft_modWeft_self (s : State) (d : Weft) (f : WeftDie → WeftDie) : (s.modWeft d f).weft d = f (s.weft d) := by cases d <;> rfl

theorem State.weft_modWeft_ne (s : State) {d e : Weft} (h : e ≠ d) (f : WeftDie → WeftDie) : (s.modWeft d f).weft e = s.weft e := by
  cases d with
  | a =>
    cases e with
    | a => exact absurd rfl h
    | b => rfl
  | b =>
    cases e with
    | a => rfl
    | b => exact absurd rfl h

theorem State.sendTo_keeps {a : State × Window} {id : Nat} (hs : a.1.servesNot id) (hw : a.2.servesNot id) (d : Weft) :
    (State.sendTo a d).1.servesNot id ∧ (State.sendTo a d).2.servesNot id ∧ (State.sendTo a d).1.sameButDies a.1 := by
  unfold State.sendTo
  split
  · refine ⟨fun e o ho => ?_, hw, State.modWeft_onlyDies _ _ _⟩
    by_cases he : e = d
    · subst he
      have ho' : o ∈ ((a.1.weft e).queued (a.2.opOn e)).ops := by
        simp only [State.weft_modWeft_self] at ho
        exact ho
      rcases WeftDie.mem_queued_ops ho' with rfl | ho'
      · exact Window.opOn_members hw e
      · exact hs e o ho'
    · simp only [State.weft_modWeft_ne _ he] at ho
      exact hs e o ho
  · exact ⟨hs, hw, .refl _⟩

/-- One window gives the dies that are complete their operation, and stays where it owes more. -/
def State.sendWindow (s : State) (a : State × List Window) (w : Window) : State × List Window :=
  let p := [Weft.a, Weft.b].foldl State.sendTo (a.1, w)
  (p.1, if s.windowDone p.2 then a.2 else a.2 ++ [p.2])

theorem State.sendWindows_eq (s : State) : s.sendWindows = { (s.sched.windows.foldl s.sendWindow (s, [])).1 with
    sched := { (s.sched.windows.foldl s.sendWindow (s, [])).1.sched with windows := (s.sched.windows.foldl s.sendWindow (s, [])).2 } } := rfl

theorem State.foldl_sendWindow_keeps (s : State) {id : Nat} (l : List Window) : ∀ a : State × List Window, (∀ w ∈ l, w.servesNot id) →
    a.1.servesNot id → (l.foldl s.sendWindow a).1.servesNot id ∧ (l.foldl s.sendWindow a).1.sameButDies a.1 := by
  induction l with
  | nil => exact fun a _ ha => ⟨ha, .refl _⟩
  | cons w l ih =>
    intro a hl ha
    obtain ⟨h1, h2, h3⟩ := State.sendTo_keeps (a := (a.1, w)) ha (hl w List.mem_cons_self) .a
    obtain ⟨k1, -, k3⟩ := State.sendTo_keeps h1 h2 .b
    obtain ⟨h4, h5⟩ := ih (s.sendWindow a w) (fun v hv => hl v (List.mem_cons_of_mem _ hv)) k1
    exact ⟨h4, h5.trans (k3.trans h3)⟩

/-- t is s but for the dies, the scheduler, latches, kills, host memory, counters and draws: what ending a step's work changes. -/
def State.sameButWork (t s : State) : Prop :=
  State.sameButDies { t with
    sched := s.sched
    latches := s.latches
    ladder := s.ladder
    hostMemA := s.hostMemA
    hostMemB := s.hostMemB } s

theorem State.sameButWork.trans {a b c : State} (h : a.sameButWork b) (k : b.sameButWork c) : a.sameButWork c := by
  refine ⟨?_, fun o ho => (h.2 o ho).trans (k.2 o ho)⟩
  obtain ⟨h, -⟩ := h
  obtain ⟨k, -⟩ := k
  rw [← k, ← h]

theorem State.sameButDies.work {t s : State} (h : t.sameButDies s) : t.sameButWork s := by
  have h1 := h.1
  refine ⟨?_, h.2⟩
  conv_rhs => rw [← h1]
  conv_lhs => rw [← h1]

/-- Windows that hold nothing of a step bring nothing of it to a queue. -/
theorem State.sendWindows_keeps {s : State} {id : Nat} (hs : s.servesNot id) (hw : ∀ w ∈ s.sched.windows, w.servesNot id) :
    s.sendWindows.servesNot id ∧ State.sameButDies { s.sendWindows with sched := s.sched } s := by
  obtain ⟨h1, h2⟩ := s.foldl_sendWindow_keeps s.sched.windows (s, []) hw hs
  rw [State.sendWindows_eq]
  generalize s.sched.windows.foldl s.sendWindow (s, []) = r at h1 h2
  exact ⟨h1, (congrArg (fun u : State => { u with sched := s.sched }) h2.1 :), h2.2⟩

theorem State.cutFreezes_onlyDraws (s : State) (t : Step) (d : Weft) : (s.cutFreezes t d).sameButDraws s := by
  unfold State.cutFreezes
  split
  · refine .foldl (fun u c => ?_) _ s
    exact (bumpAon_onlyDraws _ _ _ _ (dieNo_lt d)).trans (countEv_drawn_onlyDraws u _ _ (dieNo_lt d))
  · exact .refl s

theorem State.putMem_onlyDies (s : State) (e : Env) (k : Nat) : State.sameButDies { s.putMem e with freshCtr := k } s := ⟨rfl, fun _ _ => rfl⟩

theorem State.cutShort_onlyDies (s : State) (t : Step) (d : Weft) : (s.cutShort t d).sameButDies s := by
  unfold State.cutShort
  exact .foldl (fun u l => State.putMem_onlyDies u _ _) _ s

/-- Every unit without a step's work: the dies, the latches and the gather windows. -/
def State.dropped (s : State) (t : Step) : State := { s with
    wa := s.wa.dropStep t.id s.freshCtr
    wb := s.wb.dropStep t.id (s.freshCtr + 4 * pairDraws)
    freshCtr := s.freshCtr + 8 * pairDraws
    latches := s.latches.filter (fun l => decide (l.2 ≠ .program t.ctx))
    sched := { s.sched with windows := s.sched.windows.filterMap (Window.without t.id) } }

theorem State.dropped_servesNot (s : State) (t : Step) : (s.dropped t).servesNot t.id := fun d => by
  cases d
  · exact WeftDie.dropStep_ops t.id _ s.wa
  · exact WeftDie.dropStep_ops t.id _ s.wb

theorem State.dropped_windows (s : State) (t : Step) : ∀ w ∈ (s.dropped t).sched.windows, w.servesNot t.id := fun w hw => by
  obtain ⟨q, -, hq⟩ := List.mem_filterMap.mp hw
  exact Window.without_servesNot hq

theorem State.dropped_frame (s : State) (t : Step) : (s.dropped t).sameButWork s := ⟨rfl, fun _ _ => rfl⟩

theorem State.sameButWork.of_sched {t s : State} (h : State.sameButDies { t with sched := s.sched } s) : t.sameButWork s := by
  have h1 := h.1
  refine ⟨?_, h.2⟩
  conv_rhs => rw [← h1]
  conv_lhs => rw [← h1]

/-- After a step's work is dropped no operation serves it, and its latches are free. -/
theorem State.dropWork_frame (s : State) (t : Step) :
    (s.dropWork t).servesNot t.id ∧ (∀ l ∈ (s.dropWork t).latches, l.2 ≠ .program t.ctx) ∧ (s.dropWork t).ladder = s.ladder ∧
      (s.dropWork t).hostMemA = s.hostMemA ∧ (s.dropWork t).hostMemB = s.hostMemB ∧ (s.dropWork t).sameButWork s := by
  have hcut : ((((s.cutFreezes t .a).cutFreezes t .b).cutShort t .a).cutShort t .b).sameButDies s :=
    (State.cutShort_onlyDies _ t .b).trans ((State.cutShort_onlyDies _ t .a).trans
      ((State.cutFreezes_onlyDraws _ t .b).trans (State.cutFreezes_onlyDraws s t .a)).dies)
  have ht : s.dropWork t = (State.dropped ((((s.cutFreezes t .a).cutFreezes t .b).cutShort t .a).cutShort t .b) t).sendWindows := rfl
  rw [ht]
  generalize (((s.cutFreezes t .a).cutFreezes t .b).cutShort t .a).cutShort t .b = u at hcut ⊢
  obtain ⟨h1, h2⟩ := State.sendWindows_keeps (u.dropped_servesNot t) (u.dropped_windows t)
  have h3 := u.dropped_frame t
  have hlat : (u.dropped t).latches = u.latches.filter (fun l => decide (l.2 ≠ .program t.ctx)) := rfl
  have hlad : (u.dropped t).ladder = u.ladder ∧ (u.dropped t).hostMemA = u.hostMemA ∧ (u.dropped t).hostMemB = u.hostMemB := ⟨rfl, rfl, rfl⟩
  generalize u.dropped t = v at h1 h2 h3 hlat hlad ⊢
  generalize v.sendWindows = w at h1 h2 ⊢
  refine ⟨h1, fun l hl => ?_, ?_, ?_, ?_, ?_⟩
  · have : w.latches = v.latches := (congrArg (fun x : State => x.latches) h2.1 :)
    rw [this, hlat] at hl
    simpa using (List.mem_filter.mp hl).2
  · exact ((congrArg (fun x : State => x.ladder) h2.1 :).trans hlad.1).trans (congrArg (fun x : State => x.ladder) hcut.1 :)
  · exact ((congrArg (fun x : State => x.hostMemA) h2.1 :).trans hlad.2.1).trans (congrArg (fun x : State => x.hostMemA) hcut.1 :)
  · exact ((congrArg (fun x : State => x.hostMemB) h2.1 :).trans hlad.2.2).trans (congrArg (fun x : State => x.hostMemB) hcut.1 :)
  · exact (State.sameButWork.of_sched h2).trans (h3.trans hcut.work)

end Machine

end Sys2Proof

namespace Sys2Proof

namespace Machine

set_option Elab.async false

/-! ### A kill with its source (R265, R472) -/

theorem State.sameButWork.of_spoil {t s : State} (h : { t with hostMemA := s.hostMemA, hostMemB := s.hostMemB, freshCtr := s.freshCtr } = s) :
    t.sameButWork s := by
  refine ⟨?_, fun o _ => (congrArg (fun u : State => u.reg o) h :)⟩
  conv_rhs => rw [← h]
  conv_lhs => rw [← h]

theorem State.spoil_of_stage (s : State) {t : Step} (h : t.stage ≠ .delivering) : s.spoil t = s := by
  simp only [State.spoil, if_pos h]

theorem State.endCtx_kills {s : State} {x : Step} (hb : s.begunStep x.ctx = some x) (hk : lookupN s.ladder.kills x.ctx = none) (status : Nat) :
    s.endCtx x.ctx status = { (s.dropWork x).spoil x with ladder := { s.ladder with
      kills := insertN s.ladder.kills x.ctx status
      flush := s.ladder.flush ++ s.flushUnits x.ctx } } := by
  simp only [State.endCtx, hb, hk]

/-- A kill drops the step's work, and leaves all that is neither work nor memory. -/
theorem State.endCtx_frame {s : State} {x : Step} (hb : s.begunStep x.ctx = some x) (hk : lookupN s.ladder.kills x.ctx = none) (status : Nat) :
    (s.endCtx x.ctx status).servesNot x.id ∧ (∀ l ∈ (s.endCtx x.ctx status).latches, l.2 ≠ .program x.ctx) ∧
      lookupN (s.endCtx x.ctx status).ladder.kills x.ctx = some status ∧
      (x.stage ≠ .delivering → (s.endCtx x.ctx status).hostMemA = s.hostMemA ∧ (s.endCtx x.ctx status).hostMemB = s.hostMemB) ∧
      (s.endCtx x.ctx status).sameButWork s := by
  obtain ⟨h1, h2, -, h4, h5, h6⟩ := s.dropWork_frame x
  have hsp := (s.dropWork x).spoil_frame x
  have hst := (s.dropWork x).spoil_of_stage (t := x)
  rw [State.endCtx_kills hb hk]
  generalize s.dropWork x = v at h1 h2 h4 h5 h6 hsp hst ⊢
  generalize v.spoil x = w at hsp hst ⊢
  have hlat : w.latches = v.latches := (congrArg (fun u : State => u.latches) hsp :)
  have hw : ∀ d, w.weft d = v.weft d := fun d => (congrArg (fun u : State => u.weft d) hsp :)
  refine ⟨fun d o ho => h1 d o (hw d ▸ ho), fun l hl => h2 l (hlat ▸ hl), ?_, fun h => ?_, ?_⟩
  · simp
  · rw [hst h]
    exact ⟨h4, h5⟩
  · have hwv : w.sameButWork s := (State.sameButWork.of_spoil hsp).trans h6
    exact ⟨hwv.1, hwv.2⟩

theorem State.sameButWork.silent {t s : State} (h : t.sameButWork s) {n : Nat} (hs : s.silent n) : t.silent n := by
  obtain ⟨hn, hr, hc⟩ := hs
  exact ⟨hn, (congrArg (fun u : State => u.hasp.raised.contains n) h.1 :).trans hr, (h.2 _ (oSrcCfg_plain n hn).1).trans hc⟩

/-- A step is killed with a silent source. -/
theorem State.endCtx_killed {s : State} {x : Step} {n : Nat} (h : s.killable x n) (status : Nat) (c : Capture) :
    ((s.endCtx x.ctx status).raise n c).killed s x status n c := by
  obtain ⟨hb, hk, hn⟩ := h
  obtain ⟨h1, h2, h3, h4, h5⟩ := State.endCtx_frame hb hk status
  generalize s.endCtx x.ctx status = v at h1 h2 h3 h4 h5
  obtain ⟨hr, hcap, -⟩ := State.raise_silent v n c (h5.silent hn)
  generalize v.raise n c = t at hr hcap ⊢
  have hw : ∀ d, t.weft d = v.weft d := fun d => (congrArg (fun u : State => u.weft d) hr.1 :)
  have hl : t.latches = v.latches := (congrArg (fun u : State => u.latches) hr.1 :)
  have hma : t.hostMemA = v.hostMemA := (congrArg (fun u : State => u.hostMemA) hr.1 :)
  have hmb : t.hostMemB = v.hostMemB := (congrArg (fun u : State => u.hostMemB) hr.1 :)
  refine ⟨(congrArg (fun u : State => lookupN u.ladder.kills x.ctx) hr.1 :).trans h3, hcap, ?_, fun d o ho => h1 d o (hw d ▸ ho),
    fun l hl' => h2 l (hl ▸ hl'), ?_, ?_, ?_, fun hd => ⟨hma.trans (h4 hd).1, hmb.trans (h4 hd).2⟩⟩
  · exact (congrArg (fun u : State => u.steps) hr.1 :).trans (congrArg (fun u : State => u.steps) h5.1 :)
  · exact (congrArg (fun u : State => u.ctxs) hr.1 :).trans (congrArg (fun u : State => u.ctxs) h5.1 :)
  · exact (congrArg (fun u : State => u.drafts) hr.1 :).trans (congrArg (fun u : State => u.drafts) h5.1 :)
  · exact (congrArg (fun u : State => u.rings) hr.1 :).trans (congrArg (fun u : State => u.rings) h5.1 :)

/-- Counting takes nothing from a kill. -/
theorem State.killed.counted {t u s : State} {x : Step} {status n : Nat} {c : Capture} (h : u.killed s x status n c) (hf : t.sameButCounters u) :
    t.killed s x status n c := by
  obtain ⟨h1, h2, h3, h4, h5, h6, h7, h8, h9⟩ := h
  rw [State.sameButCounters.eq hf]
  exact ⟨h1, h2, h3, fun d => by cases d; exact h4 .a; exact h4 .b, h5, h6, h7, h8, h9⟩

/-- A step whose lines of Beam SRAM are lost is killed with ECC_FAIL. -/
theorem State.dataLost_beam_killed {s : State} {x : Step} {w : Weft} {a : Nat} (ho : s.beamOwner w a = .step x.ctx)
    (h : s.killable x (weftSrc w 0x20)) (b : Byte) (work : Option Nat) :
    (s.dataLost { place := .beam w a, master := b } work).killed s x 2 (weftSrc w 0x20) (cap (some x.ctx) b 1 (BitVec.ofNat 64 a) 0) := by
  have ht : s.dataLost { place := .beam w a, master := b } work =
      bumpAon ((s.eccOwner (s.beamOwner w a)).raise (weftSrc w 0x20) (cap ((ownerCtx (s.beamOwner w a)).or work) b 1 (BitVec.ofNat 64 a) 0))
        (dieNo w) 5 1 := rfl
  rw [ht, ho]
  exact (State.endCtx_killed h 2 _).counted (bumpAon_onlyCounters _ _ _ _ (dieNo_lt w))

/-- A step whose lines of GDDR6 are lost is killed with ECC_FAIL. -/
theorem State.dataLost_gddr_killed {s : State} {x : Step} {w : Weft} {a : Nat} (ho : s.gddrOwner w a = .step x.ctx)
    (h : s.killable x (weftSrc w 0x22)) (b : Byte) (work : Option Nat) :
    (s.dataLost { place := .gddr w a, master := b } work).killed s x 2 (weftSrc w 0x22) (cap (some x.ctx) b 1 (BitVec.ofNat 64 a) 1) := by
  have ht : s.dataLost { place := .gddr w a, master := b } work =
      bumpAon ((s.eccOwner (s.gddrOwner w a)).raise (weftSrc w 0x22) (cap ((ownerCtx (s.gddrOwner w a)).or work) b 1 (BitVec.ofNat 64 a) 1))
        (dieNo w) 7 1 := rfl
  rw [ht, ho]
  exact (State.endCtx_killed h 2 _).counted (bumpAon_onlyCounters _ _ _ _ (dieNo_lt w))

theorem State.live_of_kill {s : State} {x : Step} {st : Nat} (hs : s.steps = [x]) (hk : lookupN s.ladder.kills x.ctx = some st) :
    s.live x.id = false := by
  simp [State.live, State.step?, hs, hk]

/-- A result set whose lines are lost is not delivered. -/
theorem delivery_lost {s : State} {x : Step} {w : Weft} {a : Nat} (hs : s.steps = [x]) (hst : x.stage = .delivering)
    (ho : s.beamOwner w a = .step x.ctx) (h : s.killable x (weftSrc w 0x20)) (b : Byte) :
    ∃ t, exec (.resultWritesDone x.ctx { fixed := [], hit := some { place := .beam w a, master := b } }) s = .next t ∧
      t.killed s x 2 (weftSrc w 0x20) (cap (some x.ctx) b 1 (BitVec.ofNat 64 a) 0) := by
  have hkill := State.dataLost_beam_killed ho h b (some x.ctx)
  refine ⟨_, ?_, hkill⟩
  obtain ⟨hk, -, hts, -⟩ := hkill
  have hlive := State.live_of_kill (hts.trans hs) hk
  change execResultWritesDone x.ctx _ s = _
  unfold execResultWritesDone
  simp only [State.find_delivering hs hst (State.live_single hs h.2.1)]
  have hrc : s.readChecks { fixed := [], hit := some { place := .beam w a, master := b } } (some x.ctx) =
      s.dataLost { place := .beam w a, master := b } (some x.ctx) := rfl
  rw [hrc]
  generalize s.dataLost { place := .beam w a, master := b } (some x.ctx) = t at hts hlive ⊢
  simp [hts, hs, hlive]

end Machine

end Sys2Proof

namespace Sys2Proof

namespace Machine

set_option Elab.async false

/-! ### A held record is written (R307) -/

/-- A completion ring whose head moves over used entries has room. -/
theorem mod_room {size head tail idx : Nat} (hh : head < size) (hi : idx < size) (hne : idx ≠ head)
    (hroom : (idx + size - head) % size ≤ (tail + size - head) % size) : (tail + size - idx) % size + 1 ≠ size := by
  have hdiv := Nat.div_add_mod (tail + size - head) size
  have hlt := Nat.mod_lt (tail + size - head) (Nat.lt_of_le_of_lt (Nat.zero_le _) hh)
  generalize (tail + size - head) % size = used at *
  generalize (tail + size - head) / size = n at *
  rcases Nat.lt_or_gt_of_ne hne with hlt' | hgt
  · have hk : (idx + size - head) % size = idx + size - head := Nat.mod_eq_of_lt (by omega)
    rw [hk] at hroom
    have he : tail + size - idx = size * (n + 1) + (used - (idx + size - head)) := by rw [Nat.mul_succ]; omega
    rw [he, Nat.mul_add_mod, Nat.mod_eq_of_lt (by omega)]
    omega
  · have hk : (idx + size - head) % size = idx - head := by
      rw [show idx + size - head = idx - head + size by omega, Nat.add_mod_right, Nat.mod_eq_of_lt (by omega)]
    rw [hk] at hroom
    have he : tail + size - idx = size * n + (used - (idx - head)) := by omega
    rw [he, Nat.mul_add_mod, Nat.mod_eq_of_lt (by omega)]
    omega

/-- A completion ring whose head the host has moved. -/
def Ring.headAt (index : Nat) (r : Ring) : Ring := { r with head := index }

/-- A completion ring whose first held record leaves. -/
def Ring.release (r : Ring) : Ring := { r with held := r.held.drop 1 }

theorem Ring.headAt_full {r : Ring} {index : Nat} (hh : r.head < r.size) (hi : index < r.size) (hne : index ≠ r.head)
    (hroom : (index + r.size - r.head) % r.size ≤ r.used) : (r.headAt index).full = false := by
  have := mod_room hh hi hne hroom
  simpa [Ring.full, Ring.used, Ring.headAt, Ring.size] using this

/-- A doorbell of a completion ring that moves its head over used entries is accepted. -/
theorem exec_doorbellHead {f : FnId} {v : Word} {page : Nat} {cx : Ctx} {r : Ring} {s : State} (hl : s.fnLive f = true)
    (hcx : s.ctx? page = some cx) (hfn : cx.fn = f) (hcl : cx.closing = false) (hr : s.ring? page (fld v 31 24) = some r)
    (hc : r.completion = true) (hi : fld v 15 0 < r.size) (hroom : (fld v 15 0 + r.size - r.head) % r.size ≤ r.used)
    (hne : fld v 15 0 ≠ r.head) :
    exec (.doorbellHead f page v) s = .next (drainHeld r.held.length
      (countEv (s.modRing cx.id r.index (Ring.headAt (fld v 15 0))) { Ev.plain 0 0x080 none 1 with master := some (fnMaster cx.fn).toNat, ctx := some cx.id })
      cx.id r.index) := by
  change execDoorbellHead f page v s = _
  have hbad : ¬(r.size ≤ fld v 15 0 ∨ r.used < (fld v 15 0 + r.size - r.head) % r.size) := by omega
  simp only [execDoorbellHead, hl, if_true, State.doorbell, hcx, hfn, ne_eq, not_true, if_false, hcl, Bool.false_eq_true, hr, hc, hbad, hne,
    State.headBell]
  rfl

/-- A held record with the status and the age of the moment at which it is written. -/
def Completion.retaken (c : Completion) (status age : Nat) (fault : Bool) : Completion :=
  { c with status := status, ageUs := age, ageFault := fault }

/-- One held record of a live step falls due while its ring has room: the monitors look, the record is written with what the step is now, and
the step completes when it was its last. -/
theorem drainHeld_one {s : State} {n idx : Nat} {cx : Ctx} {r : Ring} {c : Completion} {x : Step} {id : Nat} (hcx : s.ctx? n = some cx)
    (hr : s.ring? n idx = some r) (hh : r.held = [c]) (hf : r.full = false) (ho : c.owner = some id) (hx : s.step? id = some x)
    (hm : c.mirrorCopy = false) (hrec : x.record = false) (hl : (s.monitorsNow x).live x.id = true) :
    drainHeld 1 s n idx =
      (let u := s.monitorsNow x
       let w := writeRecord (u.modRing n idx Ring.release) cx r
        (c.retaken (u.dueStatus x) (u.ageOf x (u.dueStatus x)) (((u.step? x.id).map (fun x => x.ageFault)).getD false))
       if w.recordHeld x.id then w else w.finishStep x (u.dueStatus x)) := by
  have hws : ∀ (u : State) (st : Nat), u.writeStepRecord x st = u := fun u st => by simp [State.writeStepRecord, hrec]
  simp only [drainHeld, hcx, hr, hh, hf, Bool.false_eq_true, if_false, ho, Option.bind_some, hx, hl, Bool.not_true, hm, hws,
    Completion.retaken]
  rfl

end Machine

end Sys2Proof

namespace Sys2Proof

namespace Machine

set_option Elab.async false

theorem State.ring?_ctx {s : State} {c j : Nat} {r : Ring} (h : s.ring? c j = some r) : r.ctx = c := by
  have := List.find?_some h
  simp only [Bool.and_eq_true, beq_iff_eq] at this
  exact this.1

/-- With the only record of a step released, no ring holds one. -/
theorem State.recordHeld_release {s : State} {n idx id : Nat} {r : Ring} {c : Completion} (hr : s.ring? n idx = some r) (hh : r.held = [c])
    (honly : ∀ y ∈ s.rings, ∀ h ∈ y.held, h.owner = some id → y = r) : (s.modRing n idx Ring.release).recordHeld id = false := by
  refine List.any_eq_false.mpr fun y hy => ?_
  obtain ⟨z, hz, rfl⟩ := List.mem_map.mp hy
  have hrm : r.ctx = n ∧ r.index = idx := ⟨State.ring?_ctx hr, State.ring?_index hr⟩
  simp only [List.any_eq_true, not_exists, not_and]
  intro h hmem ho
  have hown : h.owner = some id := by simpa using ho
  split at hmem
  next hc =>
    have hz' := honly z hz h (List.mem_of_mem_drop hmem) hown
    rw [hz', Ring.release, hh] at hmem
    simp at hmem
  next hc =>
    exact hc (honly z hz h hmem hown ▸ hrm)

section
variable {s : State} {n idx : Nat} {cx : Ctx} {r q : Ring} {c : Completion} {x : Step} {a : Nat}
  (hcx : s.ctx? n = some cx) (hr : s.ring? n idx = some r) (hh : r.held = [c]) (hs : s.steps = [x])
  (hst : x.stage = .due 0) (hlc : x.lc = true) (hd : x.deadline = some a) (hnow : a < s.time.now.toNat)
  (hdf : x.deadlineFault = false) (ha : x.ageAt = none) (hn : s.silent 0x011)
include hs hst hlc hd hnow hdf ha hn

/-- The monitors at the write of an LC step's record after its deadline: the source is raised, the step marked. -/
theorem State.monitorsNow_late : s.dueStatus x = 1 ∧
    (s.monitorsNow x).captured 0x011 (cap (some x.ctx) noMaster 7 x.counter 0) ∧ (s.monitorsNow x).steps = [x.late] ∧
      (s.monitorsNow x).sameButHealth (s.modStep x.id Step.late) := by
  have hdue : s.dueStatus x = 1 := by simp [State.dueStatus, hst, State.okOrLate, hd, hnow]
  have hdl : s.deadlineFault x = s.deadlineRaise x := by
    unfold State.deadlineFault
    rw [if_pos (by simp [hd, hnow])]
  have hmon : s.monitorsNow x = s.deadlineRaise x := by
    rw [State.monitorsNow, hdue, if_pos (by decide), hdl, State.ageFaultNow_none (by rw [ha]; exact nofun)]
  obtain ⟨hc, hf⟩ := State.deadlineRaise_silent hlc hdf hn
  rw [hmon]
  refine ⟨hdue, hc, (congrArg (fun u : State => u.steps) hf.1 :).trans ?_, hf⟩
  simp [State.modStep, hs]

include hcx hr hh

/-- The only held record of an LC step past its deadline is written with LATE, and the step has completed. -/
theorem drainHeld_late (hf : r.full = false) (ho : c.owner = some x.id) (hm : c.mirrorCopy = false) (hev : c.event = false)
    (hrec : x.record = false) (hl : lookupN s.ladder.kills x.ctx = none)
    (honly : ∀ y ∈ s.rings, ∀ h ∈ y.held, h.owner = some x.id → y = r) (hq : s.ring? n c.ring = some q) (hne : c.ring ≠ idx)
    (hns : s.sched.nextStart = none) (hp : (s.hport cx.fn.port).carries = true) :
    (drainHeld 1 s n idx).steps = [] ∧ (drainHeld 1 s n idx).captured 0x011 (cap (some x.ctx) noMaster 7 x.counter 0) ∧
      (drainHeld 1 s n idx).ring? n idx = some r.release.pushed ∧
      (drainHeld 1 s n idx).hostMem cx.fn.port = (s.hostMem cx.fn.port).writeBytes (r.base + 32 * r.tail)
        (recordBytes (c.retaken 1 (ceilDiv (s.time.now.toNat - (s.ageAnchor x).toNat) 1000) x.ageFault) r.phase (q.complete c.slot).head) := by
  obtain ⟨-, hcap, hvs, hv⟩ := State.monitorsNow_late hs hst hlc hd hnow hdf ha hn
  have ag := hv.agrees.trans (State.AgreesFor.modStep s x.id Step.late)
  have hid := State.ctx?_id hcx
  have hvl : (s.monitorsNow x).live x.id = true :=
    State.live_single (x := x.late) hvs ((congrArg (fun u : State => lookupN u.ladder.kills x.ctx) hv.1 :).trans hl)
  have hdr := drainHeld_one hcx hr hh hf ho (by simp [State.step?, hs]) hm hrec hvl
  have hmem : ∀ p, (s.monitorsNow x).hostMem p = s.hostMem p := State.hostMem_congr (congrArg (fun u : State => u.hostMemA) hv.1 :)
    (congrArg (fun u : State => u.hostMemB) hv.1 :)
  generalize s.monitorsNow x = v at hcap hvs hv ag hvl hdr hmem
  have hdue : v.dueStatus x = 1 := by simp [State.dueStatus, hst, State.okOrLate, hd, ag.time, hnow]
  have hage : v.ageOf x 1 = ceilDiv (s.time.now.toNat - (s.ageAnchor x).toNat) 1000 := (ag.ageOf x 1).trans rfl
  have hfault : ((v.step? x.id).map (fun x => x.ageFault)).getD false = x.ageFault := by
    have : v.step? x.id = some x.late := by simp [State.step?, hvs, Step.late]
    rw [this]
    rfl
  dsimp only at hdr
  rw [hdue, hage, hfault] at hdr
  have hcring : (c.retaken 1 (ceilDiv (s.time.now.toNat - (s.ageAnchor x).toNat) 1000) x.ageFault).ring = c.ring := rfl
  have hcev : (c.retaken 1 (ceilDiv (s.time.now.toNat - (s.ageAnchor x).toNat) 1000) x.ageFault).event = false := hev
  have hcslot : (c.retaken 1 (ceilDiv (s.time.now.toNat - (s.ageAnchor x).toNat) 1000) x.ageFault).slot = c.slot := rfl
  generalize c.retaken 1 (ceilDiv (s.time.now.toNat - (s.ageAnchor x).toNat) 1000) x.ageFault = c' at hdr hcring hcev hcslot ⊢
  have hvr : v.ring? n idx = some r := by rw [State.ring?_congr ag.rings]; exact hr
  have hpv : ((v.modRing n idx Ring.release).hport cx.fn.port).carries = true := by
    have : (v.modRing n idx Ring.release).hport cx.fn.port = v.hport cx.fn.port := by cases cx.fn.port <;> rfl
    rw [this, ag.hport]
    exact hp
  have hqv : (v.modRing n idx Ring.release).ring? cx.id c'.ring = some q := by
    rw [hid, hcring, State.ring?_modRing _ _ _ _ (f := Ring.release) (fun _ => ⟨rfl, rfl⟩), if_neg hne, State.ring?_congr ag.rings]
    exact hq
  have hheld : (writeRecord (v.modRing n idx Ring.release) cx r c').recordHeld x.id = false := by
    rw [writeRecord_recordHeld r hpv hcev hqv]
    exact State.recordHeld_release hvr hh (ag.rings ▸ honly)
  have hwm := writeRecord_hostMem r hpv hcev hqv
  have hwr := writeRecord_rings r hpv hcev hqv
  have hwf := writeRecord_onlyRecords (v.modRing n idx Ring.release) cx r c'
  rw [hheld, if_neg Bool.false_ne_true] at hdr
  rw [hdr]
  generalize writeRecord (v.modRing n idx Ring.release) cx r c' = w at hwm hwr hwf
  have hws : w.steps = [x.late] := (congrArg (fun u : State => u.steps) hwf.1 :).trans hvs
  have hwn : w.sched.nextStart = none := (congrArg (fun u : State => u.sched.nextStart) hwf.1 :).trans (by
    rw [show (v.modRing n idx Ring.release).sched = v.sched from rfl, ag.sched]; exact hns)
  obtain ⟨h1, h2, h3, h4, h5⟩ := State.finishStep_frame (x := x) (y := x.late) hws rfl hwn 1
  have hri := State.ring?_index hr
  refine ⟨h1, ?_, ?_, ?_⟩
  · refine (hcap.congr (s := v) (t := w) (congrArg (fun u : State => u.hasp) hwf.1 :) (congrArg (fun u : State => u.time) hwf.1 :)).congr
      (congrArg (fun u : State => u.hasp) h5.1 :) (congrArg (fun u : State => u.time) h5.1 :)
  · rw [State.ring?_congr h2, State.ring?_congr hwr, hid, hri, State.ring?_modRing _ _ _ _ (f := Ring.pushed) (fun _ => ⟨rfl, rfl⟩), if_pos rfl,
      State.ring?_modRing _ _ _ _ (f := Ring.completed c'.slot) (fun _ => ⟨rfl, rfl⟩), hcring, if_neg hne.symm,
      State.ring?_modRing _ _ _ _ (f := Ring.release) (fun _ => ⟨rfl, rfl⟩), if_pos rfl, hvr]
    rfl
  · rw [State.hostMem_congr h3 h4, hwm, State.hostMem_modRing, hmem, hcslot]

end

end Machine

end Sys2Proof

namespace Sys2Proof

namespace Machine

set_option Elab.async false

/-- The ring whose head moves is the only one to hold a record of a step when it was the only one before. -/
theorem State.headAt_onlyHolder {s : State} {n idx id k : Nat} {r : Ring} (hr : s.ring? n idx = some r)
    (honly : ∀ y ∈ s.rings, ∀ h ∈ y.held, h.owner = some id → y = r) :
    ∀ y ∈ (s.modRing n idx (Ring.headAt k)).rings, ∀ h ∈ y.held, h.owner = some id → y = r.headAt k := by
  intro y hy h hmem ho
  obtain ⟨z, hz, rfl⟩ := List.mem_map.mp hy
  have hheld : h ∈ z.held := by
    split at hmem
    · exact hmem
    · exact hmem
  obtain rfl := honly z hz h hheld ho
  exact if_pos ⟨State.ring?_ctx hr, State.ring?_index hr⟩

/-- The first record of a held ring is written at a doorbell that makes room, with the late status of its step. -/
theorem doorbell_drainsLate {f : FnId} {v : Word} {a : Nat} {x : Step} {cx : Ctx} {r q : Ring} {c : Completion} {s : State}
    (hf : s.fnLive f = true) (hcx : s.ctx? x.ctx = some cx) (hfn : cx.fn = f) (hcl : cx.closing = false)
    (hr : s.ring? x.ctx (fld v 31 24) = some r) (hc : r.completion = true) (hi : fld v 15 0 < r.size)
    (hroom : (fld v 15 0 + r.size - r.head) % r.size ≤ r.used) (hne : fld v 15 0 ≠ r.head) (hh : r.head < r.size) (hheld : r.held = [c])
    (ho : c.owner = some x.id) (hm : c.mirrorCopy = false) (hev : c.event = false)
    (honly : ∀ y ∈ s.rings, ∀ h ∈ y.held, h.owner = some x.id → y = r) (hq : s.ring? x.ctx c.ring = some q) (hqc : q.completion = false)
    (hs : s.steps = [x]) (hst : x.stage = .due 0) (hrec : x.record = false) (hl : s.live x.id = true) (hlc : x.lc = true)
    (hd : x.deadline = some a) (hnow : a < s.time.now.toNat) (hdf : x.deadlineFault = false) (ha : x.ageAt = none)
    (hns : s.sched.nextStart = none) (hn : s.silent 0x011) (hp : (s.hport f.port).carries = true) (hwf : (s.hostMem f.port).wf = true) :
    ∃ t, exec (.doorbellHead f x.ctx v) s = .next t ∧ t.steps = [] ∧ t.captured 0x011 (cap (some x.ctx) noMaster 7 x.counter 0) ∧
      (t.ring? x.ctx (fld v 31 24)).map (fun y => (y.head, y.tail, y.held)) = some (fld v 15 0, (r.tail + 1) % r.size, []) ∧
      (t.hostMem f.port).readBytes (r.base + 32 * r.tail) 32 = recordBytes
        (c.retaken 1 (ceilDiv (s.time.now.toNat - (s.ageAnchor x).toNat) 1000) x.ageFault) r.phase (q.complete c.slot).head := by
  subst hfn
  have hex := exec_doorbellHead hf hcx rfl hcl hr hc hi hroom hne
  have hk : lookupN s.ladder.kills x.ctx = none := by simpa [State.live, State.step?, hs] using hl
  have hcr : c.ring ≠ fld v 31 24 := by
    intro h
    rw [h, hr] at hq
    obtain rfl := Option.some.inj hq
    simp [hc] at hqc
  rw [State.ctx?_id hcx, State.ring?_index hr, hheld] at hex
  have honly1 := State.headAt_onlyHolder (k := fld v 15 0) hr honly
  have hring : ∀ j, (s.modRing x.ctx (fld v 31 24) (Ring.headAt (fld v 15 0))).ring? x.ctx j = _ :=
    fun j => State.ring?_modRing s x.ctx (fld v 31 24) j (f := Ring.headAt (fld v 15 0)) (fun _ => ⟨rfl, rfl⟩)
  have hr1 := (hring (fld v 31 24)).trans ((if_pos rfl).trans (congrArg (Option.map (Ring.headAt (fld v 15 0))) hr))
  have hq1 := (hring c.ring).trans ((if_neg hcr).trans hq)
  clear hring
  have hce := countEv_onlyCounters (s.modRing x.ctx (fld v 31 24) (Ring.headAt (fld v 15 0)))
    { Ev.plain 0 0x080 none 1 with master := some (fnMaster cx.fn).toNat, ctx := some x.ctx } (by simp [Ev.plain])
  generalize countEv (s.modRing x.ctx (fld v 31 24) (Ring.headAt (fld v 15 0))) _ = u at hce hex
  have hrings : u.rings = (s.modRing x.ctx (fld v 31 24) (Ring.headAt (fld v 15 0))).rings := (congrArg (fun y : State => y.rings) hce.1 :)
  have hctxs : u.ctxs = s.ctxs := (congrArg (fun y : State => y.ctxs) hce.1 :)
  have htime : u.time = s.time := (congrArg (fun y : State => y.time) hce.1 :)
  have hport : u.portA = s.portA ∧ u.portB = s.portB := ⟨(congrArg (fun y : State => y.portA) hce.1 :), (congrArg (fun y : State => y.portB) hce.1 :)⟩
  have hmem := State.hostMem_congr (t := u) (s := s) (congrArg (fun y : State => y.hostMemA) hce.1 :)
    (congrArg (fun y : State => y.hostMemB) hce.1 :)
  have hanchor : u.ageAnchor x = s.ageAnchor x := by
    have hb : u.batches = s.batches := (congrArg (fun y : State => y.batches) hce.1 :)
    simp only [State.ageAnchor, State.stepInst, State.inst?_congr hb]
  have hcarr : (u.hport cx.fn.port).carries = true := by
    cases hpt : cx.fn.port <;> simp_all [State.hport]
  obtain ⟨h1, h2, h3, h4⟩ := drainHeld_late (s := u) (n := x.ctx) (idx := fld v 31 24) (cx := cx) (r := r.headAt (fld v 15 0)) (q := q) (c := c)
    (x := x) (a := a) (by simpa [State.ctx?, hctxs] using hcx) (((State.ring?_congr hrings) _ _).trans hr1) hheld
    ((congrArg (fun y : State => y.steps) hce.1 :).trans hs) hst hlc hd (htime ▸ hnow) hdf ha
    ⟨hn.1, (congrArg (fun y : State => y.hasp.raised.contains 0x011) hce.1 :).trans hn.2.1, (hce.2 _ (by decide)).trans hn.2.2⟩ (Ring.headAt_full hh hi hne hroom)
    ho hm hev hrec ((congrArg (fun y : State => lookupN y.ladder.kills x.ctx) hce.1 :).trans hk) (by rw [hrings]; exact honly1)
    (((State.ring?_congr hrings) _ _).trans hq1) hcr ((congrArg (fun y : State => y.sched.nextStart) hce.1 :).trans hns) hcarr
  rw [hanchor, htime, hmem] at h4
  refine ⟨_, hex, h1, h2, ?_, ?_⟩
  · rw [show [c].length = 1 from rfl, h3]
    simp [Ring.pushed, Ring.release, Ring.headAt, hheld, Ring.size]
  · rw [show [c].length = 1 from rfl, h4]
    have hw := Memory.readBytes_writeBytes hwf (r.base + 32 * r.tail)
      (recordBytes (c.retaken 1 (ceilDiv (s.time.now.toNat - (s.ageAnchor x).toNat) 1000) x.ageFault) r.phase (q.complete c.slot).head)
    rw [recordBytes_length] at hw
    exact hw

/-- Settles O51: a delivery in time, late, held by a full ring and lost; the write of a held record; and the two monitors. -/
theorem stepsAreDelivered : Obligations.StepsAreDelivered := by
  unfold Obligations.StepsAreDelivered
  refine ⟨?_, ?_, ?_, ?_, ?_, ?_, ?_, ?_, ?_⟩
  · intro x set cx fs s hs hst hk hset hcx hfn hcl hbl hh hm hrec hp hwf hrun hn hd hlc ha
    exact delivery_ok hs hst hk hset hcx hcl hm hp hrun hbl hh hrec hwf hn hd hlc ha fs
  · intro x set cx a fs s hs hst hk hset hcx hfn hcl hbl hh hm hrec hp hrun hn hd hnow hlc hdf ha hsil
    exact delivery_late hs hst hk hset hcx hcl hm hp hrun hbl hh hrec hn hd hnow hlc hdf ha hsil fs
  · intro x set cx fs s hs hst hk hset hcx hfn hcl hbl hm hp hrun hd hlc ha
    exact delivery_held hs hst hk hset hcx hcl hm hp hrun hfn hbl hd hlc ha fs
  · intro w a b x s hs hst ho h
    exact delivery_lost hs hst ho h b
  · intro f v a x cx r q c s hf hcx hfn hcl hr hc hi hroom hne hh hheld ho hm hev honly hq hqc hs hst hrec hl hlc hd hnow hdf ha hns hn hp hwf
    exact doorbell_drainsLate hf hcx hfn hcl hr hc hi hroom hne hh hheld ho hm hev honly hq hqc hs hst hrec hl hlc hd hnow hdf ha hns hn hp hwf
  · intro c n x s h hd hf hn
    exact deadlineMonitor_expires h hd hf hn
  · intro c n x s h hq
    exact deadlineMonitor_quiet h hq
  · intro c n a x s h ha hd hf hn
    exact ageMonitor_expires h ha hd hf hn
  · intro c n a x s h ha hq
    exact ageMonitor_quiet h ha hq

end Machine

end Sys2Proof

namespace Sys2Proof

namespace Machine

set_option Elab.async false

/-! ### What hinges keep: contexts, drafts, memories and pairs (R121, R156, R289) -/

/-- t has the steps' surroundings of s: its contexts, drafts, memories and pairs. -/
structure State.HoldsAs (t s : State) : Prop where
  ctxs : t.ctxs = s.ctxs
  drafts : t.drafts = s.drafts
  gddr : ∀ d, (t.weft d).gddr = (s.weft d).gddr
  beam : ∀ d, (t.weft d).beam = (s.weft d).beam
  pairs : ∀ d, (t.weft d).pairs = (s.weft d).pairs

theorem State.HoldsAs.refl (s : State) : s.HoldsAs s := ⟨rfl, rfl, fun _ => rfl, fun _ => rfl, fun _ => rfl⟩

theorem State.HoldsAs.trans {a b c : State} (h : a.HoldsAs b) (k : b.HoldsAs c) : a.HoldsAs c :=
  ⟨h.ctxs.trans k.ctxs, h.drafts.trans k.drafts, fun d => (h.gddr d).trans (k.gddr d), fun d => (h.beam d).trans (k.beam d),
    fun d => (h.pairs d).trans (k.pairs d)⟩

theorem State.sameButReads.holds {t s : State} (h : t.sameButReads s) : t.HoldsAs s :=
  ⟨(congrArg (fun u : State => u.ctxs) h.1.1 :), (congrArg (fun u : State => u.drafts) h.1.1 :), fun d => (congrArg (fun w : WeftDie => w.gddr) (h.2 d) :),
    fun d => (congrArg (fun w : WeftDie => w.beam) (h.2 d) :), fun d => (congrArg (fun w : WeftDie => w.pairs) (h.2 d) :)⟩

theorem State.HoldsAs.stepDraft {t s : State} (h : t.HoldsAs s) (x : Step) : t.stepDraft x = s.stepDraft x := by
  simp only [State.stepDraft, State.stepEntry, State.entry?, h.drafts]

theorem State.HoldsAs.ctx? {t s : State} (h : t.HoldsAs s) (n : Nat) : t.ctx? n = s.ctx? n := by simp only [State.ctx?, h.ctxs]

/-- A change of the scheduler alone. -/
theorem State.HoldsAs.of_sched (s : State) (x : Sched) : State.HoldsAs { s with sched := x } s :=
  ⟨rfl, rfl, fun d => by cases d <;> rfl, fun d => by cases d <;> rfl, fun d => by cases d <;> rfl⟩

theorem State.HoldsAs.modStep (s : State) (id : Nat) (f : Step → Step) : (s.modStep id f).HoldsAs s :=
  ⟨rfl, rfl, fun d => by cases d <;> rfl, fun d => by cases d <;> rfl, fun d => by cases d <;> rfl⟩

theorem State.modStep_single {s : State} {x : Step} (hs : s.steps = [x]) (f : Step → Step) : (s.modStep x.id f).steps = [f x] := by
  simp [State.modStep, hs]

/-- A change of a die that leaves its memories and pairs. -/
theorem State.HoldsAs.modWeft (s : State) (d : Weft) {f : WeftDie → WeftDie}
    (hf : ∀ w, (f w).gddr = w.gddr ∧ (f w).beam = w.beam ∧ (f w).pairs = w.pairs) : (s.modWeft d f).HoldsAs s := by
  have he : ∀ e, (s.modWeft d f).weft e = f (s.weft e) ∨ (s.modWeft d f).weft e = s.weft e := fun e => by
    by_cases h : e = d
    · exact .inl (h ▸ State.weft_modWeft_self s d f)
    · exact .inr (State.weft_modWeft_ne s h f)
  refine ⟨State.modWeft_ctxs s d f, State.modWeft_drafts s d f, fun e => ?_, fun e => ?_, fun e => ?_⟩
  · rcases he e with h | h
    · rw [h, (hf _).1]
    · rw [h]
  · rcases he e with h | h
    · rw [h, (hf _).2.1]
    · rw [h]
  · rcases he e with h | h
    · rw [h, (hf _).2.2]
    · rw [h]

theorem WeftDie.setGrp_holdings (w : WeftDie) (g : Grp) (x : GState) :
    (w.setGrp g x).gddr = w.gddr ∧ (w.setGrp g x).beam = w.beam ∧ (w.setGrp g x).pairs = w.pairs := by
  cases g <;> exact ⟨rfl, rfl, rfl⟩

/-- A wake request changes the groups' states alone. -/
theorem State.wake_holds (s : State) (d : Weft) (g : Grp) : (s.wake d g).HoldsAs s := by
  unfold State.wake
  split
  · exact .refl s
  · exact .modWeft s d fun w => w.setGrp_holdings g _

theorem State.wakeDie_frame (s : State) (d : Weft) : (s.wakeDie d).HoldsAs s ∧ { s.wakeDie d with wa := s.wa, wb := s.wb } = s := by
  suffices h : ∀ (l : List Grp) (u : State), (l.foldl (fun t g => t.wake d g) u).HoldsAs u ∧
      { l.foldl (fun t g => t.wake d g) u with wa := u.wa, wb := u.wb } = u from h allGrps s
  intro l
  induction l with
  | nil => exact fun u => ⟨.refl u, rfl⟩
  | cons g l ih =>
    intro u
    obtain ⟨h1, h2⟩ := ih (u.wake d g)
    have h3 := State.wake_frame u d g
    simp only [List.foldl_cons]
    generalize l.foldl (fun t g => t.wake d g) (u.wake d g) = v at h1 h2
    refine ⟨h1.trans (State.wake_holds u d g), ?_⟩
    have h4 := congrArg (fun t : State => { t with wa := u.wa, wb := u.wb }) h2
    exact h4.trans h3

/-- Waking the dies that a step needs changes the groups' states alone. -/
theorem State.wakeFor_frame (s : State) (whole : Bool) : (s.wakeFor whole).HoldsAs s ∧ { s.wakeFor whole with wa := s.wa, wb := s.wb } = s := by
  have hA : (if s.needs whole .a then s.wakeDie .a else s).HoldsAs s ∧
      { (if s.needs whole .a then s.wakeDie .a else s) with wa := s.wa, wb := s.wb } = s := by
    split
    · exact State.wakeDie_frame s .a
    · exact ⟨.refl s, rfl⟩
  unfold State.wakeFor
  generalize (if s.needs whole .a then s.wakeDie .a else s) = u at hA
  obtain ⟨h1, h2⟩ := hA
  dsimp only
  split
  · obtain ⟨k1, k2⟩ := State.wakeDie_frame u .b
    generalize u.wakeDie .b = v at k1 k2
    exact ⟨k1.trans h1, (congrArg (fun t : State => { t with wa := s.wa, wb := s.wb }) k2 :).trans h2⟩
  · exact ⟨h1, h2⟩

/-! ### The choice beside one pre-empted step (R277, R289) -/

/-- A choice among one step takes it or none. -/
theorem State.pick_single {s : State} {y : Step} (hs : s.steps = [y]) (ha : y.stage ≠ .admitted) : s.pick = none ∨ s.pick = some y := by
  have hready : s.stepReady y = false := by simp [State.stepReady, ha]
  by_cases hr : s.resumable y = true
  · right
    cases hlc : y.lc <;> simp [State.pick, State.lcChoices, earliest, hs, hready, hr, hlc]
  · left
    simp [State.pick, State.lcChoices, State.firstBe, earliest, hs, hready, hr]

/-- A step whose hinge has saved live ranges. -/
def State.savedAt (s : State) (y : Step) : Prop :=
  y.stage = .preempted ∧ ∃ h g, y.hinge = some h ∧ (s.stepDraft y).hinges[h]? = some g ∧ g.lrCount ≠ 0

/-- What follows a pre-empted step that stays as it is, or begins its restore. -/
def State.followsPreempted (t s : State) (y : Step) : Prop :=
  t.HoldsAs s ∧ (t.steps = [y] ∨ t.steps = [{ y with stage := .restoring }])

theorem State.startOrWait_preempted {s : State} {y : Step} (hs : s.steps = [y]) (hy : s.savedAt y) : (s.startOrWait y).followsPreempted s y := by
  obtain ⟨hst, h, g, hh, hg, hl⟩ := hy
  unfold State.startOrWait
  split
  · obtain ⟨h1, h2⟩ := State.wakeFor_frame s (s.stepDraft y).whole
    generalize s.wakeFor (s.stepDraft y).whole = u at h1 h2
    exact ⟨(State.HoldsAs.of_sched u _).trans h1, .inl ((congrArg (fun t : State => t.steps) h2 :).trans hs)⟩
  · have hn : s.restoreStep y = { s.modStep y.id (fun x => { x with stage := .restoring }) with
        sched := { s.sched with running := some y.id, nextStart := none } } := by
      simp only [State.restoreStep, hh, hg, Option.map_some, Option.getD_some, beq_eq_false_iff_ne.mpr hl, Bool.false_eq_true, if_false]
      rfl
    rw [hn]
    exact ⟨(State.HoldsAs.of_sched _ _).trans (.modStep s _ _), .inr (State.modStep_single hs _)⟩

theorem State.choose_preempted {s : State} {y : Step} (hs : s.steps = [y]) (hy : s.savedAt y) : s.choose.followsPreempted s y := by
  unfold State.choose
  split
  · rw [hs]
    unfold State.chooseN
    split
    · exact ⟨.refl s, .inl hs⟩
    · rcases State.pick_single hs (by rw [hy.1]; exact nofun) with h | h
      · rw [h]
        exact ⟨.of_sched s _, .inl hs⟩
      · rw [h]
        simp only [hy.1, reduceCtorEq, decide_false, Bool.false_and, Bool.false_eq_true, if_false]
        exact State.startOrWait_preempted hs hy
  · exact ⟨.refl s, .inl hs⟩

theorem State.startPicked_preempted {s : State} {y : Step} (hs : s.steps = [y]) (hy : s.savedAt y) : s.startPicked.followsPreempted s y := by
  have hframe := State.HoldsAs.of_sched s { s.sched with picked := none }
  suffices h : s.startPicked.followsPreempted { s with sched := { s.sched with picked := none } } y from ⟨h.1.trans hframe, h.2⟩
  unfold State.startPicked
  generalize hu : ({ s with sched := { s.sched with picked := none } } : State) = u at hframe
  have hus : u.steps = [y] := by rw [← hu]; exact hs
  have huy : u.savedAt y := by
    obtain ⟨hst, h, g, hh, hg, hl⟩ := hy
    exact ⟨hst, h, g, hh, (hframe.stepDraft y).symm ▸ hg, hl⟩
  dsimp only
  split
  next v hv =>
    have hvy : v = y := by
      obtain ⟨i, -, hi⟩ := Option.bind_eq_some_iff.mp hv
      have := List.mem_of_find?_eq_some hi
      rw [hus] at this
      exact List.mem_singleton.mp this
    subst hvy
    split
    · exact State.startOrWait_preempted hus huy
    · exact State.choose_preempted hus huy
  · exact State.choose_preempted hus huy

end Machine

end Sys2Proof

namespace Sys2Proof

namespace Machine

set_option Elab.async false

/-! ### A pre-empted step's pairs (R121) -/

/-- A pair runs a program of a step. -/
def Pair.runs (p : Pair) (id : Nat) : Bool := (p.run.map (fun r => r.step == id)).getD false

theorem Pair.not_runs {p : Pair} {id : Nat} (h : p.runs id = false) : p.run.map (fun r => r.step) ≠ some id := by
  intro hr
  cases hp : p.run with
  | none => simp [hp] at hr
  | some r =>
    simp only [hp, Option.map_some, Option.some.injEq] at hr
    simp [Pair.runs, hp, hr] at h

/-- A pair with no program queued begins none. -/
theorem State.pairNext_of_queued_nil (s : State) {p : Pair} (h : p.queued = []) : s.pairNext p = p := by
  unfold State.pairNext
  rw [h]
  split
  next hq => exact absurd hq nofun
  · rfl

/-- A pair once a step's program has left it. -/
def Pair.freed (id k : Nat) (p : Pair) : Pair :=
  if p.runs id then { (p.lost k) with run := none, stall := none, debugStep := false } else p

theorem Pair.freed_queued (id k : Nat) (p : Pair) : (p.freed id k).queued = p.queued := by
  unfold Pair.freed
  split <;> rfl

theorem Pair.freed_runs (id k : Nat) (p : Pair) : (p.freed id k).runs id = false := by
  unfold Pair.freed
  split
  · rfl
  next h => exact Bool.eq_false_iff.mpr h

/-- A die whose pairs a step has left. -/
def WeftDie.freed (id k : Nat) (w : WeftDie) : WeftDie :=
  { w with pairs := w.pairs.zipIdx.map (fun x => x.1.freed id (k + x.2 * pairDraws)) }

theorem WeftDie.mem_freed {id k : Nat} {w : WeftDie} {q : Pair} (h : q ∈ (w.freed id k).pairs) : ∃ p ∈ w.pairs, ∃ j, q = p.freed id j := by
  obtain ⟨⟨p, i⟩, hp, rfl⟩ := List.mem_map.mp h
  exact ⟨p, List.fst_mem_of_mem_zipIdx hp, _, rfl⟩

/-- Pairs with no program queued are free once a step has left them, and the dies' memories are as they were. -/
theorem State.freePairs_eq {s : State} (id : Nat) (hq : ∀ d, ∀ p ∈ (s.weft d).pairs, p.queued = []) :
    s.freePairs id = { s with
      wa := s.wa.freed id s.freshCtr
      wb := s.wb.freed id (s.freshCtr + 4 * pairDraws)
      freshCtr := s.freshCtr + 8 * pairDraws } := by
  have hn : ∀ (u : State) (d : Weft) (k : Nat), ((s.weft d).freed id k).pairs.map u.pairNext = ((s.weft d).freed id k).pairs := fun u d k => by
    refine (List.map_congr_left fun q hm => ?_).trans (List.map_id _)
    obtain ⟨p, hp, j, rfl⟩ := WeftDie.mem_freed hm
    exact u.pairNext_of_queued_nil ((Pair.freed_queued id j p).trans (hq d p hp))
  set u : State := { s with
    wa := s.wa.freed id s.freshCtr
    wb := s.wb.freed id (s.freshCtr + 4 * pairDraws)
    freshCtr := s.freshCtr + 8 * pairDraws } with hu
  have ht : s.freePairs id = { u with
    wa := { u.wa with pairs := u.wa.pairs.map u.pairNext }
    wb := { u.wb with pairs := u.wb.pairs.map u.pairNext } } := rfl
  have ha : u.wa.pairs.map u.pairNext = u.wa.pairs := hn u .a _
  have hb : u.wb.pairs.map u.pairNext = u.wb.pairs := hn u .b _
  rw [ht, ha, hb]

/-- A pre-empted step that saved live ranges: it has left the pairs, and it waits or is restored. -/
theorem State.preempted_frame {s : State} {y : Step} {h : Nat} {g : Hinge} (hs : s.steps = [y]) (hh : y.hinge = some h)
    (hg : (s.stepDraft y).hinges[h]? = some g) (hl : g.lrCount ≠ 0) (hq : ∀ d, ∀ p ∈ (s.weft d).pairs, p.queued = []) :
    ((s.preempted y.id).steps = [{ y with stage := .preempted }] ∨ (s.preempted y.id).steps = [{ y with stage := .restoring }]) ∧
      (s.preempted y.id).ctxs = s.ctxs ∧ (s.preempted y.id).drafts = s.drafts ∧
      (∀ d, ((s.preempted y.id).weft d).gddr = (s.weft d).gddr ∧ ((s.preempted y.id).weft d).beam = (s.weft d).beam) ∧
      ∀ d, ∀ p ∈ ((s.preempted y.id).weft d).pairs, p.run.map (fun r => r.step) ≠ some y.id := by
  unfold State.preempted
  have hfree := State.freePairs_eq y.id hq
  have hfs : (s.freePairs y.id).steps = [y] := by rw [hfree]; exact hs
  have hfc : (s.freePairs y.id).ctxs = s.ctxs ∧ (s.freePairs y.id).drafts = s.drafts := by rw [hfree]; exact ⟨rfl, rfl⟩
  have hfm : ∀ d, ((s.freePairs y.id).weft d).gddr = (s.weft d).gddr ∧ ((s.freePairs y.id).weft d).beam = (s.weft d).beam := fun d => by
    rw [hfree]
    cases d <;> exact ⟨rfl, rfl⟩
  have hfp : ∀ d, ∀ p ∈ ((s.freePairs y.id).weft d).pairs, p.runs y.id = false := fun d p hp => by
    rw [hfree] at hp
    obtain ⟨k, hk⟩ : ∃ k, p ∈ ((s.weft d).freed y.id k).pairs := by cases d <;> exact ⟨_, hp⟩
    obtain ⟨q, -, j, rfl⟩ := WeftDie.mem_freed hk
    exact Pair.freed_runs _ _ _
  generalize s.freePairs y.id = u at hfs hfc hfm hfp
  have hm := State.HoldsAs.modStep u y.id (fun x => { x with stage := .preempted })
  have hms := State.modStep_single hfs (fun x => { x with stage := .preempted })
  generalize u.modStep y.id (fun x => { x with stage := .preempted }) = v at hm hms
  have hr : (v.releaseArray y.id).HoldsAs v ∧ (v.releaseArray y.id).steps = v.steps := by
    unfold State.releaseArray
    split
    · exact ⟨.of_sched v _, rfl⟩
    · exact ⟨.refl v, rfl⟩
  generalize v.releaseArray y.id = w at hr
  have hw : w.HoldsAs u := hr.1.trans hm
  have hd : w.stepDraft { y with stage := .preempted } = s.stepDraft y := by
    simp only [State.stepDraft, State.stepEntry, State.entry?, hw.drafts, hfc.2]
  obtain ⟨hp, hst⟩ := State.startPicked_preempted (hr.2.trans hms) ⟨rfl, h, g, hh, by rw [hd]; exact hg, hl⟩
  have ht := hp.trans hw
  refine ⟨hst, ht.ctxs.trans hfc.1, ht.drafts.trans hfc.2, fun d => ⟨(ht.gddr d).trans (hfm d).1, (ht.beam d).trans (hfm d).2⟩, fun d p hp => ?_⟩
  rw [ht.pairs d] at hp
  exact Pair.not_runs (hfp d p hp)

end Machine

end Sys2Proof

namespace Sys2Proof

namespace Machine

set_option Elab.async false

/-! ### The save of a hinge (R156, R260, R289) -/

theorem State.countMoves_onlyDraws (s : State) (d : Weft) (write : Bool) (ws : List (Step × BeamMove)) : (s.countMoves d write ws).sameButDraws s := by
  refine State.sameButDraws.foldl (fun u x => ?_) ws s
  dsimp only
  split
  · exact State.beamBytes_onlyDraws _ _ _ _ _ _
  · exact (State.linkBytes_onlyDraws (dieNo_lt d) (dieNo_lt _) _ _ _).trans (State.beamBytes_onlyDraws _ _ _ _ _ _)

theorem State.bankLost_onlyDraws (s : State) (d : Weft) (master : Byte) (t : Step) : (s.bankLost (dieNo d) master t).sameButDraws s :=
  State.countFree_onlyDraws s _ (dieNo_lt d)

/-- A die whose GDDR6 holds bytes. -/
def WeftDie.store (a : Nat) (bs : List Byte) (w : WeftDie) : WeftDie := { w with gddr := w.gddr.writeBytes a bs }

/-- t is s but that a die's save area holds bytes: steps, contexts, drafts, Beam SRAM, pairs and the other die's GDDR6 are as they were. -/
structure State.SavedOn (t s : State) (d : Weft) (a : Nat) (bs : List Byte) : Prop where
  steps : t.steps = s.steps
  ctxs : t.ctxs = s.ctxs
  drafts : t.drafts = s.drafts
  beam : ∀ e, (t.weft e).beam = (s.weft e).beam
  pairs : ∀ e, (t.weft e).pairs = (s.weft e).pairs
  gddr : (t.weft d).gddr = (s.weft d).gddr.writeBytes a bs
  other : ∀ e, e ≠ d → (t.weft e).gddr = (s.weft e).gddr

theorem Memory.writeBytes_nil (m : Memory) (a : Nat) : m.writeBytes a [] = m := rfl

/-- A die saves a step's live ranges, where the step is on it. -/
theorem State.saveDie_saved (s : State) {x : Step} {cx : Ctx} {d : Weft} {bs : List Byte} (rs : List LiveRange) (h : x.on d = false → bs = []) :
    (s.saveDie x cx d rs bs).SavedOn s d (cx.saveAt d) bs := by
  cases hon : x.on d with
  | false =>
    rw [h hon, show s.saveDie x cx d rs [] = s by simp [State.saveDie, hon]]
    exact ⟨rfl, rfl, rfl, fun _ => rfl, fun _ => rfl, (Memory.writeBytes_nil _ _).symm, fun _ _ => rfl⟩
  | true =>
    have ht : (s.saveDie x cx d rs bs).sameButDraws (s.modWeft d (WeftDie.store (cx.saveAt d) bs)) := by
      unfold State.saveDie
      rw [if_pos hon]
      exact (State.gddrBytes_onlyDraws _ _ _ _ _ _).trans ((State.bankLost_onlyDraws _ _ _ _).trans (State.countMoves_onlyDraws _ _ _ _))
    have hh := ht.reads.holds
    have hst : (s.saveDie x cx d rs bs).steps = (s.modWeft d (WeftDie.store (cx.saveAt d) bs)).steps := (congrArg (fun u : State => u.steps) ht.1 :)
    generalize s.saveDie x cx d rs bs = t at hh hst
    have hd := State.weft_modWeft_self s d (WeftDie.store (cx.saveAt d) bs)
    have hne := fun e (he : e ≠ d) => State.weft_modWeft_ne s he (WeftDie.store (cx.saveAt d) bs)
    refine ⟨hst.trans (State.modWeft_steps _ _ _), hh.ctxs.trans (State.modWeft_ctxs _ _ _), hh.drafts.trans (State.modWeft_drafts _ _ _),
      fun e => (hh.beam e).trans ?_, fun e => (hh.pairs e).trans ?_, (hh.gddr d).trans (by rw [hd]; rfl),
      fun e he => (hh.gddr e).trans (by rw [hne e he])⟩
    · by_cases he : e = d
      · rw [he, hd]
        rfl
      · rw [hne e he]
    · by_cases he : e = d
      · rw [he, hd]
        rfl
      · rw [hne e he]

/-- What a die saves of a step. -/
def State.rangesOf (s : State) (x : Step) (g : Hinge) (d : Weft) : List Byte :=
  if x.on d then (s.env x d).saveBytes g (s.progDmem x.id d) d else []

theorem State.rangesOf_off {s : State} {x : Step} {g : Hinge} {d : Weft} (h : x.on d = false) : s.rangesOf x g d = [] := by
  simp [State.rangesOf, h]

theorem State.sameButReads.rangesOf {t s : State} (h : t.sameButReads s) (x : Step) (g : Hinge) : t.rangesOf x g = s.rangesOf x g := by
  funext d
  have hb : t.batches = s.batches := (congrArg (fun u : State => u.batches) h.1.1 :)
  have hcb : (t.weft d).codebooks = (s.weft d).codebooks := (congrArg (fun w : WeftDie => w.codebooks) (h.2 d) :)
  have hcu : (t.weft d).curves = (s.weft d).curves := (congrArg (fun w : WeftDie => w.curves) (h.2 d) :)
  have ha : t.wa.beam = s.wa.beam := h.holds.beam .a
  have hbb : t.wb.beam = s.wb.beam := h.holds.beam .b
  have henv : t.env x d = s.env x d := by
    unfold State.env
    rw [h.holds.stepDraft, hcb, hcu, ha, hbb]
    simp only [State.inst?_congr hb]
  simp only [State.rangesOf, henv, State.progDmem, h.holds.pairs]

theorem State.find_stage {s : State} {x : Step} (hs : s.steps = [x]) (hl : s.live x.id = true) {st : Stage} (hst : x.stage = st) :
    s.steps.find? (fun t => decide (t.stage = st) && s.live t.id) = some x := by
  simp [hs, hst, hl]

/-- A step whose live ranges have been saved. -/
def Step.saves (n : Nat × Nat) (x : Step) : Step := { x with saved := some n }

/-- HINGE_SAVE_DONE with no lost data, once the live ranges are in the save area. -/
theorem exec_hingeSaveDone {s : State} {x : Step} {cx : Ctx} {h : Nat} {g : Hinge} (hs : s.steps = [x]) (hst : x.stage = .saving)
    (hl : s.live x.id = true) (hh : x.hinge = some h) (hg : (s.stepDraft x).hinges[h]? = some g) (hcx : s.ctx? x.ctx = some cx) (fs : List DataAt) :
    ∃ u : State, u.sameButReads s ∧ ∃ rs e, e.die < 3 ∧ exec (.hingeSaveDone { fixed := fs, hit := none }) s = .next
      ((countEv (((u.saveDie x cx .a rs (s.rangesOf x g .a)).saveDie x cx .b rs (s.rangesOf x g .b)).modStep x.id
        (Step.saves ((s.rangesOf x g .a).length, (s.rangesOf x g .b).length))) e).preempted x.id) := by
  have hu := State.readChecks_onlyReads s fs (some x.ctx)
  have hul : (s.readChecks { fixed := fs, hit := none } (some x.ctx)).live x.id = true := by
    refine State.live_single ((congrArg (fun u : State => u.steps) hu.1.1 :).trans hs)
      ((congrArg (fun u : State => lookupN u.ladder.kills x.ctx) hu.1.1 :).trans ?_)
    simpa [State.live, State.step?, hs] using hl
  refine ⟨_, hu, ((s.readChecks { fixed := fs, hit := none } (some x.ctx)).stepDraft x).ranges g,
    { Ev.plain 0 0x087 none 1 with ctx := some x.ctx, cls := some (b2n (!x.lc)) }, by simp [Ev.plain], ?_⟩
  change execHingeSaveDone _ s = _
  unfold execHingeSaveDone
  rw [State.find_stage hs hl hst, ← hu.rangesOf x g]
  have hug : (x.hinge.bind (fun h => ((s.readChecks { fixed := fs, hit := none } (some x.ctx)).stepDraft x).hinges[h]?)) = some g := by
    rw [hh, hu.holds.stepDraft]
    exact hg
  have huc : (s.readChecks { fixed := fs, hit := none } (some x.ctx)).ctx? x.ctx = some cx := by
    rw [hu.holds.ctx?]
    exact hcx
  dsimp only
  generalize s.readChecks { fixed := fs, hit := none } (some x.ctx) = u at hu hul hug huc ⊢
  simp only [hug, huc, hul, if_true]
  rfl

/-- The save area holds a hinge's live ranges; the step has left its pairs. -/
theorem hingeSaveDone_saved {s : State} {x : Step} {cx : Ctx} {h : Nat} {g : Hinge} (hs : s.steps = [x]) (hst : x.stage = .saving)
    (hl : s.live x.id = true) (hh : x.hinge = some h) (hg : (s.stepDraft x).hinges[h]? = some g) (hlr : g.lrCount ≠ 0)
    (hcx : s.ctx? x.ctx = some cx) (hq : ∀ d, ∀ p ∈ (s.weft d).pairs, p.queued = []) (hwa : s.wa.memWf = true) (hwb : s.wb.memWf = true)
    (fs : List DataAt) :
    ∃ t y, exec (.hingeSaveDone { fixed := fs, hit := none }) s = .next t ∧ t.steps = [y] ∧ y.id = x.id ∧
      (y.stage = .preempted ∨ y.stage = .restoring) ∧ y.saved = some ((s.rangesOf x g .a).length, (s.rangesOf x g .b).length) ∧
      (∀ d, (t.weft d).gddr.readBytes (cx.saveAt d) (s.rangesOf x g d).length = s.rangesOf x g d) ∧
      (∀ d a, a < cx.saveAt d ∨ cx.saveAt d + (s.rangesOf x g d).length ≤ a → (t.weft d).gddr.read a = (s.weft d).gddr.read a) ∧
      y.hinge = some h ∧ y.resumeA = x.resumeA ∧ y.resumeB = x.resumeB ∧ y.measured = x.measured ∧
      (∀ d, ∀ p ∈ (t.weft d).pairs, p.run.map (fun r => r.step) ≠ some x.id) ∧ t.ctxs = s.ctxs ∧ t.drafts = s.drafts ∧
      t.wa.beam = s.wa.beam ∧ t.wb.beam = s.wb.beam := by
  obtain ⟨u, hu, rs, e, he, hex⟩ := exec_hingeSaveDone hs hst hl hh hg hcx fs
  have hA := State.saveDie_saved u (x := x) (cx := cx) (d := .a) rs (State.rangesOf_off (s := s) (g := g))
  generalize u.saveDie x cx .a rs (s.rangesOf x g .a) = va at hA hex
  have hB := State.saveDie_saved va (x := x) (cx := cx) (d := .b) rs (State.rangesOf_off (s := s) (g := g))
  generalize va.saveDie x cx .b rs (s.rangesOf x g .b) = vb at hB hex
  have hbs : vb.steps = [x] := hB.steps.trans (hA.steps.trans ((congrArg (fun u : State => u.steps) hu.1.1 :).trans hs))
  have hm := State.HoldsAs.modStep vb x.id (Step.saves ((s.rangesOf x g .a).length, (s.rangesOf x g .b).length))
  have hms := State.modStep_single hbs (Step.saves ((s.rangesOf x g .a).length, (s.rangesOf x g .b).length))
  generalize vb.modStep x.id _ = vm at hm hms hex
  have hc := (countEv_onlyDraws vm e he).reads
  have hcs : (countEv vm e).steps = vm.steps := (congrArg (fun u : State => u.steps) hc.1.1 :)
  generalize countEv vm e = w at hc hcs hex
  have hwv := hc.holds.trans hm
  have hgd : ∀ d, (w.weft d).gddr = (s.weft d).gddr.writeBytes (cx.saveAt d) (s.rangesOf x g d) := fun d => by
    rw [hwv.gddr, ← hu.holds.gddr]
    cases d with
    | a => rw [hB.other .a nofun, hA.gddr]
    | b => rw [hB.gddr, hA.other .b nofun]
  have hwp : ∀ d, (w.weft d).pairs = (s.weft d).pairs := fun d => by
    rw [hwv.pairs, hB.pairs, hA.pairs, hu.holds.pairs]
  have hwb' : ∀ d, (w.weft d).beam = (s.weft d).beam := fun d => by
    rw [hwv.beam, hB.beam, hA.beam, hu.holds.beam]
  have hwc : w.ctxs = s.ctxs := hwv.ctxs.trans (hB.ctxs.trans (hA.ctxs.trans hu.holds.ctxs))
  have hwd : w.drafts = s.drafts := hwv.drafts.trans (hB.drafts.trans (hA.drafts.trans hu.holds.drafts))
  have hdr : w.stepDraft (x.saves ((s.rangesOf x g .a).length, (s.rangesOf x g .b).length)) = s.stepDraft x := by
    simp only [State.stepDraft, State.stepEntry, State.entry?, hwd]
    rfl
  obtain ⟨hst', hpc, hpd, hpm, hpp⟩ := State.preempted_frame (hcs.trans hms) hh (by rw [hdr]; exact hg) hlr
    (fun d p hp => hq d p (by rw [hwp] at hp; exact hp))
  have hwf : ∀ d, ((s.weft d).gddr).wf = true := fun d => by
    cases d with
    | a => exact s.wa.gddr_wf hwa
    | b => exact s.wb.gddr_wf hwb
  have hmem : ∀ d, ((w.preempted x.id).weft d).gddr.readBytes (cx.saveAt d) (s.rangesOf x g d).length = s.rangesOf x g d ∧
      ∀ a, a < cx.saveAt d ∨ cx.saveAt d + (s.rangesOf x g d).length ≤ a →
        ((w.preempted x.id).weft d).gddr.read a = (s.weft d).gddr.read a := fun d => by
    have := (hpm d).1.trans (hgd d)
    rw [show (w.preempted x.id).weft d = (w.preempted (x.saves _).id).weft d from rfl, this]
    refine ⟨Memory.readBytes_writeBytes (hwf d) _ _, fun a ha => ?_⟩
    rw [Memory.read_writeBytes _ _ _ _ (hwf d), if_neg (by omega)]
  have hbm : ∀ d, ((w.preempted x.id).weft d).beam = (s.weft d).beam := fun d => (hpm d).2.trans (hwb' d)
  rcases hst' with hst' | hst'
  · exact ⟨_, _, hex, hst', rfl, .inl rfl, rfl, fun d => (hmem d).1, fun d => (hmem d).2, hh, rfl, rfl, rfl, hpp, hpc.trans hwc, hpd.trans hwd,
      hbm .a, hbm .b⟩
  · exact ⟨_, _, hex, hst', rfl, .inr rfl, rfl, fun d => (hmem d).1, fun d => (hmem d).2, hh, rfl, rfl, rfl, hpp, hpc.trans hwc, hpd.trans hwd,
      hbm .a, hbm .b⟩

end Machine

end Sys2Proof

namespace Sys2Proof

namespace Machine

set_option Elab.async false

/-! ### Lost data and sleeping groups at a hinge (R26, R265) -/

theorem State.restoreTraffic_onlyDraws (s : State) (x : Step) (rs : List LiveRange) (d : Weft) : (s.restoreTraffic x rs d).sameButDraws s := by
  unfold State.restoreTraffic
  split
  · split
    · exact (State.bankLost_onlyDraws _ _ _ _).trans ((State.countMoves_onlyDraws _ _ _ _).trans (State.gddrBytes_onlyDraws _ _ _ _ _ _))
    · exact .refl s
  · exact .refl s

/-- The live ranges of the hinge at which a step stands. -/
def State.hingeRanges (s : State) (x : Step) : List LiveRange :=
  ((x.hinge.bind (fun h => (s.stepDraft x).hinges[h]?)).map (fun h => (s.stepDraft x).ranges h)).getD []

/-- The state of a restore that has read the save areas of both dies. -/
def State.restoreRead (s : State) (x : Step) : State := (s.restoreTraffic x (s.hingeRanges x) .a).restoreTraffic x (s.hingeRanges x) .b

theorem State.restoreRead_onlyDraws (s : State) (x : Step) : (s.restoreRead x).sameButDraws s :=
  (State.restoreTraffic_onlyDraws _ _ _ _).trans (State.restoreTraffic_onlyDraws s _ _ _)

/-- What follows the reads of a restore. -/
def State.restoreAfter (s u : State) (x : Step) : State :=
  if u.live x.id && !u.groupsReady (u.stepDraft x).whole then u.wakeFor (u.stepDraft x).whole
  else if u.live x.id then ((u.resumeStep x).restoreDie x.id .a (s.hingeRanges x) (u.savedBytes x .a)).restoreDie x.id .b (s.hingeRanges x) (u.savedBytes x .b)
  else u

theorem exec_hingeRestoreDone {s : State} {x : Step} (hs : s.steps = [x]) (hst : x.stage = .restoring) (hl : s.live x.id = true) (chk : ReadChecks) :
    exec (.hingeRestoreDone chk) s = .next (s.restoreAfter ((s.restoreRead x).readChecks chk (some x.ctx)) x) := by
  change execHingeRestoreDone chk s = _
  unfold execHingeRestoreDone
  rw [State.find_stage hs hl hst]
  rfl

theorem State.restoreAfter_dead {s u : State} {x : Step} (h : u.live x.id = false) : s.restoreAfter u x = u := by
  simp [State.restoreAfter, h]

/-- A kill in a state that differs in counters and draws alone. -/
theorem State.killed.of_draws {t u s : State} {x : Step} {status n : Nat} {c : Capture} (h : t.killed u x status n c) (hd : u.sameButDraws s) :
    t.killed s x status n c := by
  obtain ⟨h1, h2, h3, h4, h5, h6, h7, h8, h9⟩ := h
  exact ⟨h1, h2, h3.trans (congrArg (fun v : State => v.steps) hd.1 :), h4, h5, h6.trans (congrArg (fun v : State => v.ctxs) hd.1 :),
    h7.trans (congrArg (fun v : State => v.drafts) hd.1 :), h8.trans (congrArg (fun v : State => v.rings) hd.1 :),
    fun hx => ⟨(h9 hx).1.trans (congrArg (fun v : State => v.hostMemA) hd.1 :), (h9 hx).2.trans (congrArg (fun v : State => v.hostMemB) hd.1 :)⟩⟩

theorem State.killable_of_draws {u s : State} {x : Step} {n : Nat} (h : s.killable x n) (hd : u.sameButDraws s) : u.killable x n := by
  obtain ⟨hb, hk, hn, hr, hc⟩ := h
  refine ⟨?_, (congrArg (fun v : State => lookupN v.ladder.kills x.ctx) hd.1 :).trans hk, hn,
    (congrArg (fun v : State => v.hasp.raised.contains n) hd.1 :).trans hr, (hd.2 _ (oSrcCfg_plain n hn).1).trans hc⟩
  have : u.steps = s.steps := (congrArg (fun v : State => v.steps) hd.1 :)
  simpa only [State.begunStep, this] using hb

theorem State.gddrOwner_of_draws {u s : State} (hd : u.sameButDraws s) (w : Weft) (a : Nat) : u.gddrOwner w a = s.gddrOwner w a := by
  rw [hd.eq]
  rfl

/-- A restore whose lines of the save area are lost: the step ends. -/
theorem hingeRestore_lost {s : State} {x : Step} {w : Weft} {a : Nat} (hs : s.steps = [x]) (ho : s.gddrOwner w a = .step x.ctx)
    (h : s.killable x (weftSrc w 0x22)) (hst : x.stage = .restoring) (b : Byte) :
    ∃ t, exec (.hingeRestoreDone { fixed := [], hit := some { place := .gddr w a, master := b } }) s = .next t ∧
      t.killed s x 2 (weftSrc w 0x22) (cap (some x.ctx) b 1 (BitVec.ofNat 64 a) 1) := by
  have hd := s.restoreRead_onlyDraws x
  have hkill := State.dataLost_gddr_killed ((State.gddrOwner_of_draws hd w a).trans ho) (State.killable_of_draws h hd) b (some x.ctx)
  refine ⟨_, (exec_hingeRestoreDone hs hst (State.live_single hs h.2.1) _).trans ?_, hkill.of_draws hd⟩
  have hlive := State.live_of_kill ((hkill.of_draws hd).2.2.1.trans hs) hkill.1
  exact congrArg Host.Outcome.next (State.restoreAfter_dead hlive)

/-- A save whose reads end the step does nothing else. -/
theorem exec_hingeSaveDone_dead {s : State} {x : Step} {chk : ReadChecks} (hs : s.steps = [x]) (hst : x.stage = .saving)
    (hl : s.live x.id = true) (hd : (s.readChecks chk (some x.ctx)).live x.id = false) :
    exec (.hingeSaveDone chk) s = .next (s.readChecks chk (some x.ctx)) := by
  change execHingeSaveDone chk s = _
  unfold execHingeSaveDone
  rw [State.find_stage hs hl hst]
  simp only [hd, Bool.false_eq_true, if_false]
  split <;> rfl

/-- A save whose lines of the save area are lost: the step ends. -/
theorem hingeSave_lost {s : State} {x : Step} {w : Weft} {a : Nat} (hs : s.steps = [x]) (ho : s.gddrOwner w a = .step x.ctx)
    (h : s.killable x (weftSrc w 0x22)) (hst : x.stage = .saving) (b : Byte) :
    ∃ t, exec (.hingeSaveDone { fixed := [], hit := some { place := .gddr w a, master := b } }) s = .next t ∧
      t.killed s x 2 (weftSrc w 0x22) (cap (some x.ctx) b 1 (BitVec.ofNat 64 a) 1) := by
  have hkill := State.dataLost_gddr_killed ho h b (some x.ctx)
  exact ⟨_, exec_hingeSaveDone_dead hs hst (State.live_single hs h.2.1) (State.live_of_kill (hkill.2.2.1.trans hs) hkill.1), hkill⟩

theorem State.sameButReads.groupsReady {t s : State} (h : t.sameButReads s) (whole : Bool) : t.groupsReady whole = s.groupsReady whole := by
  have hmode : t.mode = s.mode := congrArg (fun w => fld w 1 0) (h.1.2 oSafety (by decide))
  have hrun : ∀ d, t.dieRun d = s.dieRun d := fun d => by
    have hg : ∀ g, (t.weft d).grp g = (s.weft d).grp g := fun g => (congrArg (fun w : WeftDie => w.grp g) (h.2 d) :)
    simp only [State.dieRun, hg]
  simp only [State.groupsReady, State.needs, hmode, hrun]

/-- A restore whose step needs groups that have left Run wakes them first. -/
theorem hingeRestore_wakes {s : State} {x : Step} (hs : s.steps = [x]) (hst : x.stage = .restoring) (hl : s.live x.id = true)
    (hg : s.groupsReady (s.stepDraft x).whole = false) (fs : List DataAt) :
    ∃ t, exec (.hingeRestoreDone { fixed := fs, hit := none }) s = .next t ∧ t.steps = s.steps ∧ t.sched = s.sched ∧ t.ctxs = s.ctxs ∧
      t.wa.gddr = s.wa.gddr ∧ t.wb.gddr = s.wb.gddr := by
  have hex := exec_hingeRestoreDone hs hst hl { fixed := fs, hit := none }
  have hu := (State.readChecks_onlyReads (s.restoreRead x) fs (some x.ctx)).trans (s.restoreRead_onlyDraws x).reads
  generalize (s.restoreRead x).readChecks { fixed := fs, hit := none } (some x.ctx) = u at hex hu
  have hus : u.steps = s.steps := (congrArg (fun v : State => v.steps) hu.1.1 :)
  have hul : u.live x.id = true := by
    refine State.live_single (hus.trans hs) ((congrArg (fun v : State => lookupN v.ladder.kills x.ctx) hu.1.1 :).trans ?_)
    simpa [State.live, State.step?, hs] using hl
  have ht : s.restoreAfter u x = u.wakeFor (u.stepDraft x).whole := by
    simp [State.restoreAfter, hul, hu.groupsReady, hu.holds.stepDraft, hg]
  obtain ⟨hw, hf⟩ := State.wakeFor_frame u (u.stepDraft x).whole
  rw [← ht] at hw hf
  exact ⟨_, hex, (congrArg (fun v : State => v.steps) hf :).trans hus,
    (congrArg (fun v : State => v.sched) hf :).trans (congrArg (fun v : State => v.sched) hu.1.1 :), hw.ctxs.trans hu.holds.ctxs,
    (hw.gddr .a).trans (hu.holds.gddr .a), (hw.gddr .b).trans (hu.holds.gddr .b)⟩

end Machine

end Sys2Proof

namespace Sys2Proof

namespace Machine

set_option Elab.async false

/-! ### Programs that resume (R121, R157) -/

/-- t is s but for the dies, counters and draws, and the dies hold the same GDDR6: what putting a program back on its pairs changes. -/
def State.sameButPairs (t s : State) : Prop := t.sameButDies s ∧ ∀ d, (t.weft d).gddr = (s.weft d).gddr

theorem State.sameButPairs.refl (s : State) : s.sameButPairs s := ⟨.refl s, fun _ => rfl⟩

theorem State.sameButPairs.trans {a b c : State} (h : a.sameButPairs b) (k : b.sameButPairs c) : a.sameButPairs c :=
  ⟨h.1.trans k.1, fun d => (h.2 d).trans (k.2 d)⟩

theorem State.modWeft_onlyPairs (s : State) (d : Weft) {f : WeftDie → WeftDie} (hf : ∀ w, (f w).gddr = w.gddr) : (s.modWeft d f).sameButPairs s := by
  refine ⟨State.modWeft_onlyDies s d f, fun e => ?_⟩
  by_cases h : e = d
  · rw [h, State.weft_modWeft_self, hf]
  · rw [State.weft_modWeft_ne s h]

theorem State.weftOf_lowestPair {s : State} {d : Weft} {n : Nat} (h : s.lowestPair d = some n) : weftOf n = d ∧ n < 8 := by
  have hm := List.mem_of_find?_eq_some h
  cases d <;> simp only [enginesOf, List.mem_cons, List.not_mem_nil, or_false] at hm <;>
    rcases hm with rfl | rfl | rfl | rfl <;> exact ⟨rfl, by decide⟩

/-- A step's program as it resumes: its clocks, and a0 = hinge index. -/
def Step.resumedRun (x : Step) (g : Hinge) (h clocks : Nat) : Running :=
  { step := x.id, program := g.program, tickets := [], clocks := clocks, instrs := 0, ticket := none, arg := BitVec.ofNat 64 h, start := g.resume }

/-- A die without the work of a program changes nothing of the other. -/
theorem State.runOn_frame (s : State) (n : Nat) (pg : Program) (r : Running) :
    (s.runOn n pg r).sameButPairs s ∧ ∀ e, e ≠ weftOf n → (s.runOn n pg r).weft e = s.weft e :=
  ⟨State.modWeft_onlyPairs s _ fun _ => rfl, fun _ he => State.weft_modWeft_ne s he _⟩

theorem State.resumeSeq_frame (s : State) (x : Step) (d : Weft) (h c : Nat) :
    (s.resumeSeq x d h c).sameButPairs s ∧ ∀ e, e ≠ d → (s.resumeSeq x d h c).weft e = s.weft e := by
  unfold State.resumeSeq
  dsimp only
  split
  · exact ⟨.refl s, fun _ _ => rfl⟩
  · split
    next hn =>
      obtain ⟨h1, h2⟩ := State.runOn_frame s _ _ _
      exact ⟨h1, fun e he => h2 e ((State.weftOf_lowestPair hn).1 ▸ he)⟩
    · exact ⟨.refl s, fun _ _ => rfl⟩

/-- On a free pair the program begins at the hinge's resume entry. -/
theorem State.resumeSeq_begins {s : State} {x : Step} {d : Weft} {h n : Nat} {g : Hinge} {pg : Program} {p : Pair}
    (hg : (s.stepDraft x).hinges[h]? = some g) (hpg : (s.stepDraft x).programs[g.program]? = some pg) (hn : s.lowestPair d = some n)
    (hp : s.pair? n = some p) (hr : p.run = none) (hq : p.queued = []) (c : Nat) :
    (s.resumeSeq x d h c).pair? n = some (Pair.begin { p with testing := false } pg (x.resumedRun g h c)) := by
  obtain ⟨-, hn8⟩ := State.weftOf_lowestPair hn
  have hrun : s.resumeSeq x d h c = s.runOn n pg (x.resumedRun g h c) := by
    simp only [State.resumeSeq, hg, hpg, hn]
    rfl
  have hpp : (s.weft (weftOf n)).pairs[n % 4]? = some p := by simpa [State.pair?, hn8] using hp
  rw [hrun, State.pair?, if_pos hn8, State.runOn, State.weft_modWeft_self, getElem?_modAt, if_pos rfl, hpp]
  simp [hr, hq]

/-- A step that resumes. -/
def Step.resumes (x : Step) : Step :=
  { x with
    stage := .running
    saved := none
    hinge := none
    resumeA := none
    resumeB := none }

/-- The clocks with which a step's program resumes on a die. -/
def Step.resumeClocks (x : Step) (d : Weft) : Option Nat := if d = .a then x.resumeA else x.resumeB

/-- A step holds the array again. -/
def State.takesArray (s : State) (x : Step) : State :=
  { s.modStep x.id Step.resumes with sched := { s.sched with running := some x.id, nextStart := none } }

/-- A step's program resumes on a die where it ran. -/
def State.resumeOn (s : State) (x : Step) (h : Nat) (d : Weft) : State :=
  match x.resumeClocks d with
  | some c => s.resumeSeq x d h c
  | none => s

theorem State.resumeStep_eq {s : State} {x : Step} {h : Nat} (hh : x.hinge = some h) :
    s.resumeStep x = (((s.takesArray x).resumeOn x h .a).resumeOn x h .b).busyNow := by
  simp only [State.resumeStep, hh, State.resumeOn, Step.resumeClocks, if_true, reduceCtorEq, if_false]
  rfl

theorem State.resumeOn_frame (s : State) (x : Step) (h : Nat) (d : Weft) :
    (s.resumeOn x h d).sameButPairs s ∧ ∀ e, e ≠ d → (s.resumeOn x h d).weft e = s.weft e := by
  unfold State.resumeOn
  split
  · exact State.resumeSeq_frame s x d h _
  · exact ⟨.refl s, fun _ _ => rfl⟩

theorem State.busyNow_frame (s : State) : s.busyNow.sameButPairs s ∧ ∀ d, (s.busyNow.weft d).pairs = (s.weft d).pairs := by
  refine ⟨?_, fun d => by cases d <;> rfl⟩
  simp only [State.busyNow, List.foldl_cons, List.foldl_nil]
  refine (State.modWeft_onlyPairs _ .b ?_).trans (State.modWeft_onlyPairs s .a ?_) <;> exact fun _ => rfl

theorem State.restoreDie_frame (s : State) (id : Nat) (d : Weft) (rs : List LiveRange) (bs : List Byte) :
    (s.restoreDie id d rs bs).sameButPairs s ∧ ∀ e, e ≠ d → ((s.restoreDie id d rs bs).weft e).pairs = (s.weft e).pairs := by
  unfold State.restoreDie
  split
  · exact ⟨.refl s, fun _ _ => rfl⟩
  next t ht =>
    split
    · exact ⟨.refl s, fun _ _ => rfl⟩
    · dsimp only
      have hput : ∀ (e : Env) (k : Nat), State.sameButPairs { s.putMem e with freshCtr := k } s ∧
          ∀ c, (State.weft { s.putMem e with freshCtr := k } c).pairs = (s.weft c).pairs := fun e k =>
        ⟨⟨State.putMem_onlyDies s e k, fun c => by cases c <;> rfl⟩, fun c => by cases c <;> rfl⟩
      obtain ⟨h1, h2⟩ := hput (((s.env t d).scramble d s.freshCtr).restore d rs bs) (s.freshCtr + 2 ^ 48)
      generalize ({ s.putMem (((s.env t d).scramble d s.freshCtr).restore d rs bs) with freshCtr := s.freshCtr + 2 ^ 48 } : State) = u at h1 h2
      refine ⟨(State.modWeft_onlyPairs u d ?_).trans h1, fun e he => by rw [State.weft_modWeft_ne u he]; exact h2 e⟩
      exact fun _ => rfl

/-- The data memory that a die's restore gives a pair which runs the step's program: its live ranges, all else free. -/
theorem State.restoreDie_pair {s : State} {y : Step} {d : Weft} {i : Nat} {q : Pair} (hs : s.steps = [y])
    (hq : (s.weft d).pairs[i]? = some q) (hr : q.runs y.id = true) (rs : List LiveRange) (bs : List Byte) :
    ∃ k, ((s.restoreDie y.id d rs bs).weft d).pairs[i]? =
      some (if y.on d then { q with dmem := restoreDmem d (freeMem k 131072) rs bs } else q) := by
  have hy : s.step? y.id = some y := by simp [State.step?, hs]
  refine ⟨s.freshCtr + 2 ^ 47, ?_⟩
  unfold State.restoreDie
  rw [hy]
  dsimp only
  cases hon : y.on d with
  | false => simpa using hq
  | true =>
    simp only [Bool.not_true, Bool.false_eq_true, if_false, if_true, State.weft_modWeft_self]
    have hp : ∀ (e : Env) (k : Nat), (State.weft { s.putMem e with freshCtr := k } d).pairs = (s.weft d).pairs := fun e k => by cases d <;> rfl
    rw [hp, List.getElem?_map, hq]
    simp only [Option.map_some]
    rw [if_pos (show ((q.run.map (fun r => r.step == y.id)).getD false) = true from hr)]

end Machine

end Sys2Proof

namespace Sys2Proof

namespace Machine

set_option Elab.async false

theorem State.lowestPair_congr {t s : State} {d : Weft} (hd : t.disabled = s.disabled) (hl : t.ladder = s.ladder)
    (hw : (t.weft d).injectFailed = (s.weft d).injectFailed) : t.lowestPair d = s.lowestPair d := by
  have hup : ∀ u, t.unitUp u = s.unitUp u := fun u => by simp only [State.unitUp, State.unitPhase, hl]
  have hon : ∀ n ∈ enginesOf d, t.pairOn n = s.pairOn n := fun n hn => by
    have : weftOf n = d := by
      cases d <;> simp only [enginesOf, List.mem_cons, List.not_mem_nil, or_false] at hn <;> rcases hn with rfl | rfl | rfl | rfl <;> rfl
    simp only [State.pairOn, State.isDisabled, hd, this, hw]
  cases d <;> simp only [enginesOf, List.mem_cons, List.not_mem_nil, or_false, forall_eq_or_imp, forall_eq] at hon <;>
    simp only [State.lowestPair, enginesOf, List.find?_cons, List.find?_nil, hon, hup]

theorem State.pair?_congr {t s : State} {n : Nat} (h : (t.weft (weftOf n)).pairs = (s.weft (weftOf n)).pairs) : t.pair? n = s.pair? n := by
  simp only [State.pair?, h]

section
variable {s : State} {x : Step} {d : Weft} {h n c : Nat} {g : Hinge} {pg : Program} {p : Pair} (hh : x.hinge = some h)
  (hg : (s.stepDraft x).hinges[h]? = some g) (hpg : (s.stepDraft x).programs[g.program]? = some pg) (hc : x.resumeClocks d = some c)
  (hn : s.lowestPair d = some n) (hp : s.pair? n = some p) (hr : p.run = none) (hq : p.queued = [])
include hh hg hpg hc hn hp hr hq

/-- A step that resumes has its program on the lowest pair of each die where it ran, when that pair is free. -/
theorem State.resumeStep_pair : (s.resumeStep x).pair? n = some (Pair.begin { p with testing := false } pg (x.resumedRun g h c)) := by
  have hd := (State.weftOf_lowestPair hn).1
  rw [State.resumeStep_eq hh, State.pair?_congr ((State.busyNow_frame _).2 _)]
  have htl : ∀ e, (s.takesArray x).weft e = s.weft e := fun e => by cases e <;> rfl
  have htg : ((s.takesArray x).stepDraft x).hinges[h]? = some g := hg
  have htpg : ((s.takesArray x).stepDraft x).programs[g.program]? = some pg := hpg
  have htn : (s.takesArray x).lowestPair d = some n := (State.lowestPair_congr rfl rfl (by rw [htl])).trans hn
  have htp : (s.takesArray x).pair? n = some p := (State.pair?_congr (by rw [htl])).trans hp
  generalize s.takesArray x = u at htg htpg htn htp
  cases d with
  | a =>
    obtain ⟨-, hB⟩ := State.resumeOn_frame (u.resumeOn x h .a) x h .b
    have hpair : ((u.resumeOn x h .a).resumeOn x h .b).pair? n = (u.resumeOn x h .a).pair? n := State.pair?_congr (by rw [hd, hB .a nofun])
    rw [hpair, State.resumeOn, hc]
    exact State.resumeSeq_begins htg htpg htn htp hr hq c
  | b =>
    obtain ⟨hA, hA'⟩ := State.resumeOn_frame u x h .a
    have hsd : (u.resumeOn x h .a).stepDraft x = u.stepDraft x := by
      have : (u.resumeOn x h .a).drafts = u.drafts := (congrArg (fun v : State => v.drafts) hA.1.1 :)
      simp only [State.stepDraft, State.stepEntry, State.entry?, this]
    have hvd : (u.resumeOn x h .a).disabled = u.disabled := (congrArg (fun v : State => v.disabled) hA.1.1 :)
    have hvl : (u.resumeOn x h .a).ladder = u.ladder := (congrArg (fun v : State => v.ladder) hA.1.1 :)
    have hvn : (u.resumeOn x h .a).lowestPair .b = some n := (State.lowestPair_congr hvd hvl (by rw [hA' .b nofun])).trans htn
    have hvp : (u.resumeOn x h .a).pair? n = some p := (State.pair?_congr (by rw [hd, hA' .b nofun])).trans htp
    generalize u.resumeOn x h .a = v at hsd hvn hvp
    rw [State.resumeOn, hc]
    exact State.resumeSeq_begins (by rw [hsd]; exact htg) (by rw [hsd]; exact htpg) hvn hvp hr hq c

end

theorem State.resumeStep_frame {s : State} {x : Step} {h : Nat} (hh : x.hinge = some h) : (s.resumeStep x).sameButPairs (s.takesArray x) := by
  rw [State.resumeStep_eq hh]
  exact (State.busyNow_frame _).1.trans ((State.resumeOn_frame _ x h .b).1.trans (State.resumeOn_frame _ x h .a).1)

/-- Both dies of a resuming step. -/
def State.restoreBoth (s : State) (id : Nat) (rs : List LiveRange) (bs : Weft → List Byte) : State :=
  (s.restoreDie id .a rs (bs .a)).restoreDie id .b rs (bs .b)

theorem State.restoreBoth_frame (s : State) (id : Nat) (rs : List LiveRange) (bs : Weft → List Byte) : (s.restoreBoth id rs bs).sameButPairs s :=
  (State.restoreDie_frame _ id .b rs _).1.trans (State.restoreDie_frame s id .a rs _).1

/-- The pair that runs a restored step's program has its live ranges of data memory, all else free. -/
theorem State.restoreBoth_pair {s : State} {y : Step} {d : Weft} {n : Nat} {q : Pair} (hs : s.steps = [y]) (hd : weftOf n = d) (hn : n < 8)
    (hq : s.pair? n = some q) (hr : q.runs y.id = true) (rs : List LiveRange) (bs : Weft → List Byte) :
    ∃ k, (s.restoreBoth y.id rs bs).pair? n = some (if y.on d then { q with dmem := restoreDmem d (freeMem k 131072) rs (bs d) } else q) := by
  subst hd
  have hqp : (s.weft (weftOf n)).pairs[n % 4]? = some q := by simpa [State.pair?, hn] using hq
  simp only [State.pair?, if_pos hn, State.restoreBoth]
  cases hd : weftOf n with
  | a =>
    rw [(State.restoreDie_frame _ y.id .b rs _).2 .a nofun]
    exact State.restoreDie_pair hs (hd ▸ hqp) hr rs _
  | b =>
    obtain ⟨hA, hA'⟩ := State.restoreDie_frame s y.id .a rs (bs .a)
    have hAs : (s.restoreDie y.id .a rs (bs .a)).steps = [y] := (congrArg (fun v : State => v.steps) hA.1.1 :).trans hs
    have hAq : ((s.restoreDie y.id .a rs (bs .a)).weft .b).pairs[n % 4]? = some q := by
      rw [hA' .b nofun]
      exact hd ▸ hqp
    exact State.restoreDie_pair hAs hAq hr rs _

end Machine

end Sys2Proof

namespace Sys2Proof

namespace Machine

set_option Elab.async false

theorem Pair.begin_a0 (p : Pair) (pg : Program) (r : Running) : (p.begin pg r).getX 10 = r.arg := by
  simp [Pair.getX, Pair.begin]

theorem Pair.begin_runs (p : Pair) (pg : Program) (r : Running) : (p.begin pg r).runs r.step = true := by
  simp [Pair.runs, Pair.begin]

theorem Step.resumes_on (x : Step) (d : Weft) : x.resumes.on d = x.on d := by cases d <;> rfl

/-- A restore of one live range of data memory reads back what was saved. -/
theorem restoreDmem_single {d : Weft} {r : LiveRange} {m : Memory} {bs : List Byte} (hm : m.wf = true) (ht : r.tensor = 0xFFFE)
    (hd : bitN r.dies (weftNo d) = true) (hl : bs.length = r.length) : (restoreDmem d m [r] bs).readBytes r.start r.length = bs := by
  have he : restoreDmem d m [r] bs = m.writeBytes r.start bs := by
    cases d <;> simp only [weftNo] at hd <;> simp [restoreDmem, hd, ht, ← hl]
  rw [he, ← hl]
  exact Memory.readBytes_writeBytes hm _ _

theorem State.restoreAfter_ready {s u : State} {x : Step} (hl : u.live x.id = true) (hg : u.groupsReady (u.stepDraft x).whole = true) :
    s.restoreAfter u x = (u.resumeStep x).restoreBoth x.id (s.hingeRanges x) (u.savedBytes x) := by
  simp only [State.restoreAfter, hl, hg, Bool.not_true, Bool.and_false, Bool.false_eq_true, if_false, if_true]
  rfl

/-- Data memory that is restored leaves a pair's registers and its program. -/
theorem Pair.dmem_ite (q : Pair) (b : Bool) (m : Memory) : (if b then { q with dmem := m } else q).pc = q.pc ∧
    (if b then { q with dmem := m } else q).getX 10 = q.getX 10 ∧ (if b then { q with dmem := m } else q).run = q.run := by
  cases b <;> exact ⟨rfl, rfl, rfl⟩

/-- A restored step holds the array, its program is back on the lowest pair of each die where it ran. -/
theorem hingeRestore_resumes {s : State} {x : Step} {d : Weft} {h n c : Nat} {g : Hinge} {pg : Program} {p : Pair} (hs : s.steps = [x])
    (hst : x.stage = .restoring) (hl : s.live x.id = true) (hgr : s.groupsReady (s.stepDraft x).whole = true) (hh : x.hinge = some h)
    (hg : (s.stepDraft x).hinges[h]? = some g) (hpg : (s.stepDraft x).programs[g.program]? = some pg) (hc : x.resumeClocks d = some c)
    (hn : s.lowestPair d = some n) (hp : s.pair? n = some p) (hr : p.run = none) (hq : p.queued = []) (fs : List DataAt) :
    ∃ t y q, exec (.hingeRestoreDone { fixed := fs, hit := none }) s = .next t ∧ t.steps = [y] ∧ y.id = x.id ∧ y.stage = .running ∧
      y.hinge = none ∧ y.saved = none ∧ t.sched.running = some x.id ∧ t.pair? n = some q ∧ q.pc = BitVec.ofNat 64 g.resume ∧
      q.getX 10 = BitVec.ofNat 64 h ∧ q.run.map (fun r => (r.step, r.program, r.clocks)) = some (x.id, g.program, c) ∧
      (∀ (r : LiveRange) (cx : Ctx) (l : Nat × Nat), (s.stepDraft x).ranges g = [r] → r.tensor = 0xFFFE → bitN r.dies (weftNo d) = true →
        x.on d = true → s.ctx? x.ctx = some cx → x.saved = some l → (if d = .a then l.1 else l.2) = r.length →
        q.dmem.readBytes r.start r.length = (s.weft d).gddr.readBytes (cx.saveAt d) r.length) ∧
      t.ctxs = s.ctxs ∧ t.drafts = s.drafts ∧ t.wa.gddr = s.wa.gddr ∧ t.wb.gddr = s.wb.gddr := by
  have hex := exec_hingeRestoreDone hs hst hl { fixed := fs, hit := none }
  have hu := (State.readChecks_onlyReads (s.restoreRead x) fs (some x.ctx)).trans (s.restoreRead_onlyDraws x).reads
  generalize (s.restoreRead x).readChecks { fixed := fs, hit := none } (some x.ctx) = u at hex hu
  have hus : u.steps = [x] := (congrArg (fun v : State => v.steps) hu.1.1 :).trans hs
  have hul : u.live x.id = true := by
    refine State.live_single hus ((congrArg (fun v : State => lookupN v.ladder.kills x.ctx) hu.1.1 :).trans ?_)
    simpa [State.live, State.step?, hs] using hl
  rw [State.restoreAfter_ready hul (by rw [hu.groupsReady, hu.holds.stepDraft]; exact hgr)] at hex
  have hud : u.disabled = s.disabled := (congrArg (fun v : State => v.disabled) hu.1.1 :)
  have hulad : u.ladder = s.ladder := (congrArg (fun v : State => v.ladder) hu.1.1 :)
  have hun : u.lowestPair d = some n := (State.lowestPair_congr hud hulad (congrArg (fun w : WeftDie => w.injectFailed) (hu.2 d) :)).trans hn
  have hup : u.pair? n = some p := (State.pair?_congr (hu.holds.pairs _)).trans hp
  obtain ⟨hwd, hn8⟩ := State.weftOf_lowestPair hn
  have hpair := State.resumeStep_pair hh (by rw [hu.holds.stepDraft]; exact hg) (by rw [hu.holds.stepDraft]; exact hpg) hc hun hup hr hq
  have hf := State.resumeStep_frame (s := u) hh
  have hws : (u.resumeStep x).steps = [x.resumes] := (congrArg (fun v : State => v.steps) hf.1.1 :).trans (State.modStep_single hus _)
  obtain ⟨k, hres⟩ := State.restoreBoth_pair hws hwd hn8 hpair (Pair.begin_runs _ pg (x.resumedRun g h c)) (s.hingeRanges x) (u.savedBytes x)
  have ht := (State.restoreBoth_frame (u.resumeStep x) x.id (s.hingeRanges x) (u.savedBytes x)).trans hf
  rw [Step.resumes_on] at hres
  change ((u.resumeStep x).restoreBoth x.id (s.hingeRanges x) (u.savedBytes x)).pair? n = _ at hres
  generalize (u.resumeStep x).restoreBoth x.id (s.hingeRanges x) (u.savedBytes x) = t at hex hres ht
  have hts : t.steps = [x.resumes] := (congrArg (fun v : State => v.steps) ht.1.1 :).trans (State.modStep_single hus _)
  have htr : t.sched.running = some x.id := (congrArg (fun v : State => v.sched.running) ht.1.1 :)
  have htc : t.ctxs = s.ctxs := (congrArg (fun v : State => v.ctxs) ht.1.1 :).trans hu.holds.ctxs
  have htd : t.drafts = s.drafts := (congrArg (fun v : State => v.drafts) ht.1.1 :).trans hu.holds.drafts
  have htg : ∀ e, (t.weft e).gddr = (s.weft e).gddr := fun e =>
    (ht.2 e).trans (Eq.trans (by cases e <;> rfl) (hu.holds.gddr e))
  obtain ⟨hpc, hx, hrun⟩ := Pair.dmem_ite (Pair.begin { p with testing := false } pg (x.resumedRun g h c)) (x.on d)
    (restoreDmem d (freeMem k 131072) (s.hingeRanges x) (u.savedBytes x d))
  refine ⟨t, x.resumes, _, hex, hts, rfl, rfl, rfl, rfl, htr, hres, hpc, hx.trans (Pair.begin_a0 _ _ _), by rw [hrun]; rfl, ?_, htc, htd,
    htg .a, htg .b⟩
  intro r cx l hrs htens hbit hon hcx hsv hlen
  have hsb : u.savedBytes x d = (s.weft d).gddr.readBytes (cx.saveAt d) r.length := by
    rw [← hlen, ← hu.holds.gddr d]
    cases d <;> simp [State.savedBytes, hu.holds.ctx?, hcx, hsv]
  have hhr : s.hingeRanges x = [r] := by simp [State.hingeRanges, hh, hg, hrs]
  rw [if_pos hon, hhr, hsb]
  exact restoreDmem_single (freeMem_wf _ _) htens hbit (by simp [Memory.readBytes, fromTo])

/-- Settles O49: a save, a restore whose groups are in Run or wake, and lost data of the save area. -/
theorem hingesSaveAndRestore : Obligations.HingesSaveAndRestore := by
  unfold Obligations.HingesSaveAndRestore
  refine ⟨?_, ?_, ?_, ?_⟩
  · rintro h x g cx fs bs s hs hst hl hh hg hlr hcx hq hwa hwb rfl
    exact hingeSaveDone_saved hs hst hl hh hg hlr hcx hq hwa hwb fs
  · intro h n c d x g pg p fs s hs hst hl hgr hh hg hpg hc hn hp hr hq
    exact hingeRestore_resumes hs hst hl hgr hh hg hpg hc hn hp hr hq fs
  · intro x fs s hs hst hl hg
    exact hingeRestore_wakes hs hst hl hg fs
  · intro w a b x s hs ho h
    exact ⟨fun hst => hingeRestore_lost hs ho h hst b, fun hst => hingeSave_lost hs ho h hst b⟩

end Machine

end Sys2Proof

namespace Sys2Proof

namespace Machine

set_option Elab.async false

/-! ### How the end of an operation leaves the dies (R118, R121) -/

/-- A die on which a ticket completes. -/
def WeftDie.completes (k : Nat) (w : WeftDie) : WeftDie := { w with tickets := w.tickets.filter (fun x => x != k) }

/-- t is s but for the dies' pairs, counters and draws. -/
def State.pairsAside (t s : State) : Prop := t.sameButDies s ∧ ∀ d, { t.weft d with pairs := (s.weft d).pairs } = s.weft d

theorem State.pairsAside.refl (s : State) : s.pairsAside s := ⟨.refl s, fun _ => rfl⟩

theorem State.pairsAside.trans {a b c : State} (h : a.pairsAside b) (k : b.pairsAside c) : a.pairsAside c :=
  ⟨h.1.trans k.1, fun d => by rw [← k.2 d, ← h.2 d]⟩

theorem WeftDie.eq_of_pairs {w v : WeftDie} (h : { w with pairs := v.pairs } = v) : w = { v with pairs := w.pairs } :=
  (congrArg (fun u : WeftDie => { u with pairs := w.pairs }) h :)

theorem State.pairsAside.weft {t s : State} (h : t.pairsAside s) (d : Weft) : t.weft d = { s.weft d with pairs := (t.weft d).pairs } :=
  WeftDie.eq_of_pairs (h.2 d)

theorem State.step?_single {s : State} {x : Step} (hs : s.steps = [x]) : s.step? x.id = some x := by simp [State.step?, hs]

/-- A step that runs alone is pre-empted by none. -/
theorem State.preemptor_running {s : State} {x : Step} (hs : s.steps = [x]) (hx : x.stage = .running) : s.preemptor x = none := by
  simp [State.preemptor, State.lcChoices, earliest, hs, State.stepReady, State.resumable, hx]

/-- A step that runs alone passes its hinges: its pairs go on. -/
theorem State.tryHinge_running {s : State} {x : Step} (hs : s.steps = [x]) (hx : x.stage = .running) : (s.tryHinge x.id).pairsAside s := by
  simp only [State.tryHinge, State.step?_single hs, hx, ne_eq, not_true, if_false, State.preemptor_running hs hx]
  split
  · exact .refl s
  · exact ⟨⟨rfl, fun _ _ => rfl⟩, fun d => by cases d <;> rfl⟩

/-- The ticket of an operation's one member completes. -/
theorem State.opDone_single (s : State) (d : Weft) {o : Op} {m : OpMember} (hm : o.members = [m]) :
    (s.opDone d o).pairsAside (s.modWeft d (WeftDie.completes m.ticket)) := by
  simp only [State.opDone, hm, List.foldl_cons, List.foldl_nil, State.layerProgress]
  split
  · cases d <;> exact ⟨⟨rfl, fun _ _ => rfl⟩, fun e => by cases e <;> rfl⟩
  · cases d <;> exact ⟨⟨rfl, fun _ _ => rfl⟩, fun e => by cases e <;> rfl⟩

/-- What stands at the end of every retirement: tickets complete, a due proof input may enter, and a reached hinge is passed. -/
def State.opEnds (s : State) (d : Weft) (o : Op) : State := o.members.foldl (fun u m => u.tryHinge m.step) (s.opDone d o).proofEnter

theorem State.checks_modWeft (s : State) (d : Weft) {f : WeftDie → WeftDie} (hf : ∀ w, (f w).checks = w.checks) (e : Weft) :
    ((s.modWeft d f).weft e).checks = (s.weft e).checks := by
  by_cases h : e = d
  · rw [h, State.weft_modWeft, hf]
  · rw [State.weft_modWeft_ne s h]

theorem State.proofEnter_noneDue {s : State} (h : ∀ e, (s.weft e).checks.phase ≠ .due) : s.proofEnter = s :=
  s.proofEnter_none (h .a) (h .b)

/-- At the end of the one operation of a step that runs alone, with no proof input due, its ticket completes. -/
theorem State.opEnds_single {s : State} {d : Weft} {o : Op} {m : OpMember} {x : Step} (hm : o.members = [m]) (hs : s.steps = [x])
    (hid : m.step = x.id) (hx : x.stage = .running) (hp : ∀ e, (s.weft e).checks.phase ≠ .due) :
    (s.opEnds d o).pairsAside (s.modWeft d (WeftDie.completes m.ticket)) := by
  have h := State.opDone_single s d hm
  have hc : ∀ e, ((s.opDone d o).weft e).checks = (s.weft e).checks := fun e =>
    (congrArg (fun w : WeftDie => w.checks) (h.2 e) :).trans (s.checks_modWeft d (f := WeftDie.completes m.ticket) (fun _ => rfl) e)
  have hds : (s.opDone d o).steps = [x] := (congrArg (fun u : State => u.steps) h.1.1 :).trans ((State.modWeft_steps s d _).trans hs)
  have hpe : (s.opDone d o).proofEnter = s.opDone d o := State.proofEnter_noneDue fun e => by rw [hc e]; exact hp e
  rw [State.opEnds, hpe, hm, List.foldl_cons, List.foldl_nil, hid]
  exact (State.tryHinge_running hds hx).trans h

/-! ### What an operation's counts leave (R86, R92, R270, R297, R518) -/

theorem State.sameButDraws.weft {t s : State} (h : t.sameButDraws s) (d : Weft) : t.weft d = s.weft d := by
  cases d
  · exact (congrArg (fun u : State => u.wa) h.1 :)
  · exact (congrArg (fun u : State => u.wb) h.1 :)

theorem State.unitProgress_onlyDraws (s : State) (d : Weft) (u : OpUnit) : (s.unitProgress d u).sameButDraws s := by
  cases u with
  | array => exact .foldl (fun t e => State.progress_onlyDraws t _) _ s
  | reed => exact State.progress_onlyDraws s _
  | finish => exact State.progress_onlyDraws s _
  | stage => exact .refl s

theorem State.beamReads_onlyDraws (s : State) (d : Weft) (master : Byte) (t : Step) : (s.beamReads (dieNo d) master t).sameButDraws s := by
  refine (State.bankLost_onlyDraws _ d master t).trans ((State.countFree_onlyDraws _ _ (dieNo_lt d)).trans ?_)
  exact ⟨rfl, fun _ _ => rfl⟩

theorem State.opReads_onlyDraws (s : State) (d : Weft) (u : OpUnit) (o : Op) (t : Step) : (s.opReads d u o t).sameButDraws s := by
  unfold State.opReads
  dsimp only
  split
  · exact State.beamReads_onlyDraws s d _ t
  · exact (State.bankLost_onlyDraws _ d _ t).trans (State.countMoves_onlyDraws s d _ _)
  · exact State.bankLost_onlyDraws s d _ t
  · exact State.bankLost_onlyDraws s d _ t
  · exact State.bankLost_onlyDraws s d _ t

theorem State.countFreezes_onlyDraws (s : State) (d : Weft) (t : Step) (o : Op) (f : Freezes) : (s.countFreezes d t o f).sameButDraws s :=
  (bumpAon_onlyDraws _ _ _ _ (dieNo_lt d)).trans (.foldl (fun u _ => countEv_onlyDraws u _ (dieNo_lt d)) _ s)

theorem State.crossTraffic_onlyDraws (s : State) (d : Weft) (t : Step) : (s.crossTraffic d t).sameButDraws s := by
  refine .foldl (fun u g => (State.linkBytes_onlyDraws (dieNo_lt d) (dieNo_lt _) _ _ _).trans ?_) _ s
  exact ⟨rfl, fun _ _ => rfl⟩

theorem State.countAcc_onlyDraws (s : State) (d : Weft) (o : Op) : (s.countAcc d o).sameButDraws s := by
  refine .foldl (fun u m => ?_) _ s
  split
  · exact .foldl (fun v _ => (bumpAon_onlyDraws _ _ _ _ (dieNo_lt d)).trans (countEv_onlyDraws v _ (dieNo_lt d))) _ u
  · exact .refl u

/-- A step that has held the array for n clocks more. -/
def Step.held (n : Nat) (x : Step) : Step := { x with measured := x.measured + n }

/-- The clocks by which an operation lengthens the hold of a step: none where the step does not hold the array. -/
def State.holdOf (s : State) (x : Step) (n : Nat) : Nat := if s.sched.running = some x.id then n else 0

/-- The state in which a step alone has held the array for n clocks more. -/
def State.heldBy (s : State) (x : Step) (n : Nat) : State := { s with steps := [x.held (s.holdOf x n)] }

theorem State.holdClocks_single {s : State} {x : Step} (hs : s.steps = [x]) (n : Nat) : (s.holdClocks n).sameButDraws (s.heldBy x n) := by
  have hz : ∀ k, s.sched.running ≠ some x.id → s.heldBy x k = s := fun k h => by
    simp only [State.heldBy, State.holdOf, if_neg h]
    rw [show x.held 0 = x from rfl, ← hs]
  unfold State.holdClocks
  split
  next h =>
    have hr : s.sched.running ≠ some x.id := fun hr => by simp [hr, State.step?_single hs] at h
    rw [hz n hr]
    exact .refl s
  next t h =>
    obtain ⟨i, hi, ht⟩ := Option.bind_eq_some_iff.mp h
    have htx : t = x := by simpa [hs] using List.mem_of_find?_eq_some ht
    have hid : t.id = i := by simpa using List.find?_some ht
    subst htx
    have hm : s.modStep t.id (fun y => { y with measured := y.measured + n }) = s.heldBy t n := by
      simp [State.modStep, State.heldBy, State.holdOf, Step.held, hs, hi, hid]
    rw [hm]
    refine .foldl (fun u d => ?_) _ _
    split
    · exact (bumpAon_onlyDraws _ _ _ _ (dieNo_lt d)).trans (countEv_onlyDraws u _ (dieNo_lt d))
    · exact .refl u

end Machine

end Sys2Proof

namespace Sys2Proof

namespace Machine

set_option Elab.async false

/-! ### What a layer's effect leaves (R66, R135, R137, R408, R525) -/

/-- A source whose HSP_SRC_CFG selects no reaction and no grace time. -/
def State.unset (s : State) (n : Nat) : Prop := n < 768 ∧ s.reg (oSrcCfg n) = 0

/-- Raising a source without reactions, the first time or again, changes Hasp and the counters alone. -/
theorem State.raise_unset {s : State} {n : Nat} (h : s.unset n) (c : Capture) : (s.raise n c).sameButHealth s := by
  by_cases hr : s.hasp.raised.contains n = true
  · have hset : s.firstSet n = 0 := by simp [State.firstSet, h.2, fld, bitsN]
    simp only [State.raise, if_pos hr, hset, State.fireReset, bitN]
    exact .of_hasp s _
  · exact (s.raise_silent n c ⟨h.1, by simpa using hr, h.2⟩).1

/-- y is x but for its work on the dies. -/
def Step.sameButDone (y x : Step) : Prop := { y with workA := x.workA, workB := x.workB } = x

theorem Step.sameButDone.trans {x y z : Step} (h : x.sameButDone y) (k : y.sameButDone z) : x.sameButDone z :=
  (congrArg (fun u : Step => { u with workA := z.workA, workB := z.workB }) h :).trans k

theorem Step.sameButDone.id {y x : Step} (h : y.sameButDone x) : y.id = x.id := (congrArg (fun u : Step => u.id) h :)

theorem Step.sameButDone.stage {y x : Step} (h : y.sameButDone x) : y.stage = x.stage := (congrArg (fun u : Step => u.stage) h :)

theorem Step.modWork_onlyDone (x : Step) (d : Weft) (f : DieWork → DieWork) : (x.modWork d f).sameButDone x := by cases d <;> rfl

@[simp] theorem Step.work_modWork (x : Step) (d : Weft) (f : DieWork → DieWork) : (x.modWork d f).work d = f (x.work d) := by cases d <;> rfl

/-- t is s but for Beam SRAM, Hasp's own state and counters, and the work of a step that is alone: what a layer's effect changes. -/
def State.sameButDone (t s : State) : Prop :=
  State.sameButHealth { t with wa := { t.wa with beam := s.wa.beam }, wb := { t.wb with beam := s.wb.beam }, steps := s.steps } s ∧
    ∀ x, s.steps = [x] → ∃ y, t.steps = [y] ∧ y.sameButDone x

theorem State.sameButDone.trans {a b c : State} (h : a.sameButDone b) (k : b.sameButDone c) : a.sameButDone c := by
  refine ⟨⟨?_, fun o ho hf => (h.1.2 o ho hf).trans (k.1.2 o ho hf)⟩, fun x hx => ?_⟩
  · obtain ⟨⟨h, -⟩, -⟩ := h
    obtain ⟨⟨k, -⟩, -⟩ := k
    rw [← k, ← h]
  · obtain ⟨y, hy, hyx⟩ := k.2 x hx
    obtain ⟨z, hz, hzy⟩ := h.2 y hy
    exact ⟨z, hz, hzy.trans hyx⟩

theorem State.sameButHealth.done {t s : State} (h : t.sameButHealth s) : t.sameButDone s := by
  have hwa : t.wa = s.wa := (congrArg (fun u : State => u.wa) h.1 :)
  have hwb : t.wb = s.wb := (congrArg (fun u : State => u.wb) h.1 :)
  have hst : t.steps = s.steps := (congrArg (fun u : State => u.steps) h.1 :)
  refine ⟨?_, fun x hx => ⟨x, hst.trans hx, rfl⟩⟩
  rw [← hwa, ← hwb, ← hst]
  exact h

theorem State.sameButDone.refl (s : State) : s.sameButDone s := (State.sameButHealth.refl s).done

theorem State.sameButDone.unset {t s : State} (h : t.sameButDone s) {n : Nat} (hn : s.unset n) : t.unset n :=
  ⟨hn.1, (h.1.2 _ (oSrcCfg_plain n hn.1).1 (oSrcCfg_plain n hn.1).2).trans hn.2⟩

/-- A fold of effects that need a source without reactions. -/
theorem State.sameButDone.foldl {α : Type} {n : Nat} {f : State → α → State} (h : ∀ t x, t.unset n → (f t x).sameButDone t) (l : List α) :
    ∀ s : State, s.unset n → (l.foldl f s).sameButDone s := by
  induction l with
  | nil => exact fun s _ => .refl s
  | cons x l ih => exact fun s hs => (ih (f s x) ((h s x hs).unset hs)).trans (h s x hs)

theorem State.putMem_onlyDone (s : State) (e : Env) : (s.putMem e).sameButDone s := ⟨.refl s, fun x hx => ⟨x, hx, rfl⟩⟩

theorem State.modStep_onlyDone (s : State) (id : Nat) {f : Step → Step} (hf : ∀ x, (f x).sameButDone x) : (s.modStep id f).sameButDone s := by
  refine ⟨⟨rfl, fun _ _ _ => rfl⟩, fun x hx => ?_⟩
  by_cases h : x.id = id
  · exact ⟨f x, by simp [State.modStep, hx, h], hf x⟩
  · exact ⟨x, by simp [State.modStep, hx, h], rfl⟩

theorem State.modWork_onlyDone (s : State) (id : Nat) (d : Weft) (f : DieWork → DieWork) :
    (s.modStep id (fun u => u.modWork d f)).sameButDone s := State.modStep_onlyDone s id fun x => x.modWork_onlyDone d f

theorem State.addSatsAt_onlyDone {s : State} {d : Weft} (h : s.unset (weftSrc d 0x25)) (id key j n : Nat) : (s.addSatsAt id d key j n).sameButDone s := by
  unfold State.addSatsAt
  split
  · exact .refl s
  · dsimp only
    have hm := State.modWork_onlyDone s id d (fun w => { w with sats := insertN w.sats key (satAdd 32 ((lookupN w.sats key).getD 0) n) })
    split
    · exact (State.raise_unset (hm.unset h) _).done.trans hm
    · exact hm

theorem State.firstPassInput_onlyDone {s : State} {d : Weft} (h : s.unset (weftSrc d 0x25)) (id : Nat) (e : Env) (j : Nat) (rows : List Nat) :
    (s.firstPassInput id d e j rows).sameButDone s := by
  unfold State.firstPassInput
  split
  · exact .refl s
  · split
    · exact .refl s
    · exact (State.modWork_onlyDone _ id d _).trans (State.addSatsAt_onlyDone h _ _ _ _)

theorem State.firstPassWords_onlyDone {s : State} {d : Weft} (h : s.unset (weftSrc d 0x25)) (id : Nat) (e : Env) (out j : Nat) (rows : List Nat) :
    (s.firstPassWords id d e out j rows).sameButDone s := by
  unfold State.firstPassWords
  dsimp only
  split
  · exact .refl s
  · exact State.addSatsAt_onlyDone h _ _ _ _

theorem State.rewritten_onlyDone (s : State) (id : Nat) (d : Weft) (e : Env) (j : Nat) (rows : List Nat) : (s.rewritten id d e j rows).sameButDone s := by
  unfold State.rewritten
  dsimp only
  split
  · exact .refl s
  · refine State.modStep_onlyDone s id fun x => ?_
    split
    · exact (Step.modWork_onlyDone _ .b _).trans (x.modWork_onlyDone .a _)
    · exact x.modWork_onlyDone d _

/-- A layer that completes publishes into watch slots alone. -/
theorem State.publish_onlyCounters (s : State) (id : Nat) (d : Weft) (l : Nat) : (s.publish id d l).sameButCounters s := by
  have or_stays : ∀ (c : Prop) [Decidable c] {u v : State}, u.sameButCounters v → (if c then v else u).sameButCounters v := fun c _ u v h => by
    split
    · exact .refl v
    · exact h
  unfold State.publish
  split
  · exact .refl s
  · refine or_stays _ (.foldl _ _ (fun t w => ?_) s)
    split
    · exact .of_ctr t _
    · exact .refl t

/-- A die's work with a layer more that is done. -/
def DieWork.withLayer (l digest : Nat) (w : DieWork) : DieWork :=
  { w with layersDone := addSet w.layersDone l, digests := insertN w.digests l digest }

theorem State.layerDone_onlyCounters (s : State) (id : Nat) (d : Weft) (l digest : Nat) :
    (s.layerDone id d l digest).sameButCounters (s.modStep id (fun u => u.modWork d (DieWork.withLayer l digest))) :=
  State.publish_onlyCounters _ id d l

theorem State.layerDone_onlyDone (s : State) (id : Nat) (d : Weft) (l digest : Nat) : (s.layerDone id d l digest).sameButDone s :=
  (State.sameButHealth.of_counters (State.layerDone_onlyCounters s id d l digest)).done.trans (State.modWork_onlyDone s id d _)

/-- The work of a step that is alone, after a layer of it is done on a die. -/
theorem State.layerDone_steps {s : State} {x : Step} (hs : s.steps = [x]) (d : Weft) (l digest : Nat) :
    (s.layerDone x.id d l digest).steps = [x.modWork d (DieWork.withLayer l digest)] :=
  (congrArg (fun u : State => u.steps) (State.layerDone_onlyCounters s x.id d l digest).1 :).trans (State.modStep_single hs _)

theorem DieWork.mem_withLayer (l digest : Nat) (w : DieWork) : l ∈ (w.withLayer l digest).layersDone := (mem_addSet _ _ _).mpr (.inr rfl)

/-- What a layer's effect on a die gives the step x, which becomes y: the layer done, and by result packing (R137) a packed set. -/
def Step.doneOn (y x : Step) (d : Weft) (l : Nat) (packs : Prop) : Prop :=
  y.sameButDone x ∧ l ∈ (y.work d).layersDone ∧ (packs → (y.work d).set.isSome = true)

end Machine

end Sys2Proof

namespace Sys2Proof

namespace Machine

set_option Elab.async false

/-- The layer of a step is done where its effect left no more than its work, and where packing left a set. -/
theorem State.layerDone_doneOn {s u : State} {x : Step} {d : Weft} {l : Nat} {packs : Prop} (hs : s.steps = [x]) (hu : u.sameButDone s)
    (hp : packs → ∀ y, u.steps = [y] → (y.work d).set.isSome = true) (digest : Nat) :
    (u.layerDone x.id d l digest).sameButDone s ∧ ∃ y, (u.layerDone x.id d l digest).steps = [y] ∧ y.doneOn x d l packs := by
  obtain ⟨y, hy, hyx⟩ := hu.2 x hs
  have hst := State.layerDone_steps hy d l digest
  rw [hyx.id] at hst
  refine ⟨(State.layerDone_onlyDone u x.id d l digest).trans hu, _, hst, (y.modWork_onlyDone d _).trans hyx, ?_, fun h => ?_⟩
  · rw [Step.work_modWork]
    exact DieWork.mem_withLayer l digest _
  · rw [Step.work_modWork]
    exact hp h y hy

/-- Rows of the inputs that a layer codes first count in the step's work. -/
theorem State.firstPass_onlyDone {s : State} {d : Weft} (h : s.unset (weftSrc d 0x25)) (id : Nat) (e : Env) (out : Nat) (rows : Nat → List Nat)
    (js : List Nat) :
    (js.foldl (fun u j => (u.firstPassInput id d e j (rows j)).firstPassWords id d e out j (rows j)) s).sameButDone s := by
  refine State.sameButDone.foldl (fun t j ht => ?_) js s h
  have h1 := State.firstPassInput_onlyDone ht id e j (rows j)
  exact (State.firstPassWords_onlyDone (h1.unset ht) id e out j (rows j)).trans h1

/-- A layer that runs for a step alone on a die is done there, and result packing leaves its set (R135, R137, R408). -/
theorem State.layerEffect_doneOn {s : State} {x : Step} {d : Weft} (hs : s.steps = [x]) (h : s.unset (weftSrc d 0x25)) (l : Nat) (us : List Upset) :
    (s.layerEffect x.id d l us).sameButDone s ∧
      ∃ y, (s.layerEffect x.id d l us).steps = [y] ∧ y.doneOn x d l (((s.stepDraft x).layer l).op = 0x16) := by
  unfold State.layerEffect
  rw [State.step?_single hs]
  dsimp -zeta only
  generalize he : ({ s.env x d with upsets := us.filter (fun u => u.step == x.id) } : Env) = e
  have hl : e.draft.layer l = (s.stepDraft x).layer l := by rw [← he]; rfl
  dsimp only
  rw [hl]
  have h0 := State.firstPass_onlyDone h x.id e ((s.stepDraft x).layer l).out (fun j => e.readRows ((s.stepDraft x).layer l) j)
    ((e.draft.inputs ((s.stepDraft x).layer l)).foldl addSet [])
  generalize List.foldl _ s _ = s0 at h0 ⊢
  have hmem : ∀ v, (s0.putMem v).sameButDone s := fun v => (State.putMem_onlyDone s0 v).trans h0
  split
  · refine State.layerDone_doneOn hs ((State.modWork_onlyDone _ _ _ _).trans (hmem _)) (fun _ y hy => ?_) _
    obtain ⟨z, hz, hzx⟩ := (hmem (e.put d ((s.stepDraft x).layer l).out 0 (e.resultSet (x.writtenOn e) (s.stepBatchTime x) (x.digest e)))).2 x hs
    rw [← hzx.id, State.modStep_single hz] at hy
    rw [← List.singleton_injective hy, Step.work_modWork]
    rfl
  next hop =>
    split
    · exact State.layerDone_doneOn hs ((State.modWork_onlyDone _ _ _ _).trans (hmem _)) (fun hp => absurd hp hop) _
    · refine State.layerDone_doneOn hs ((State.rewritten_onlyDone _ _ _ _ _ _).trans ?_) (fun hp => absurd hp hop) _
      have hsat := (State.addSatsAt_onlyDone ((hmem (e.runLayer ((s.stepDraft x).layer l)).1.1).unset h) x.id ((s.stepDraft x).layer l).out
        ((s.stepDraft x).layer l).out (e.runLayer ((s.stepDraft x).layer l)).1.2.2).trans (hmem _)
      split
      · exact hsat
      · exact (State.sameButHealth.of_counters (countEv_onlyCounters _ _ (dieNo_lt d))).done.trans hsat

/-! ### An operation on a layer ends (R99, R118, R191) -/

/-- t is s after an operation of die d has ended: contexts, rings, drafts and host memory stay, and the die is w but for Beam SRAM and
pairs. -/
structure State.EndedOn (t s : State) (d : Weft) (w : WeftDie) : Prop where
  ctxs : t.ctxs = s.ctxs
  rings : t.rings = s.rings
  drafts : t.drafts = s.drafts
  hostMemA : t.hostMemA = s.hostMemA
  hostMemB : t.hostMemB = s.hostMemB
  die : ∃ b p, t.weft d = { w with beam := b, pairs := p }

theorem State.EndedOn.of_reads {t u s : State} {d : Weft} {w : WeftDie} (h : t.EndedOn u d w) (hu : u.sameButReads s) : t.EndedOn s d w :=
  ⟨h.ctxs.trans (congrArg (fun v : State => v.ctxs) hu.1.1 :), h.rings.trans (congrArg (fun v : State => v.rings) hu.1.1 :),
    h.drafts.trans (congrArg (fun v : State => v.drafts) hu.1.1 :), h.hostMemA.trans (congrArg (fun v : State => v.hostMemA) hu.1.1 :),
    h.hostMemB.trans (congrArg (fun v : State => v.hostMemB) hu.1.1 :), h.die⟩

/-- An operation's end where its effect was a layer's: nothing but the die, and Beam SRAM on both. -/
theorem State.sameButDone.ends {v s : State} {d : Weft} (hv : v.sameButDone s) {f : WeftDie → WeftDie}
    (hf : ∀ w b, f { w with beam := b } = { f w with beam := b }) (k : Nat) {t : State}
    (ht : t.pairsAside ((v.modWeft d f).modWeft d (WeftDie.completes k))) : t.EndedOn s d ((f (s.weft d)).completes k) := by
  have hvd : ∃ b, v.weft d = { s.weft d with beam := b } := by
    refine ⟨(v.weft d).beam, ?_⟩
    cases d with
    | a => exact (congrArg (fun u : State => { u.wa with beam := v.wa.beam }) hv.1.1 :)
    | b => exact (congrArg (fun u : State => { u.wb with beam := v.wb.beam }) hv.1.1 :)
  obtain ⟨b, hb⟩ := hvd
  refine ⟨?_, ?_, ?_, ?_, ?_, b, (t.weft d).pairs, ?_⟩
  · exact (congrArg (fun u : State => u.ctxs) ht.1.1 :).trans (by simpa using (congrArg (fun u : State => u.ctxs) hv.1.1 :))
  · exact (congrArg (fun u : State => u.rings) ht.1.1 :).trans (by simpa using (congrArg (fun u : State => u.rings) hv.1.1 :))
  · exact (congrArg (fun u : State => u.drafts) ht.1.1 :).trans (by simpa using (congrArg (fun u : State => u.drafts) hv.1.1 :))
  · exact (congrArg (fun u : State => u.hostMemA) ht.1.1 :).trans (by simpa using (congrArg (fun u : State => u.hostMemA) hv.1.1 :))
  · exact (congrArg (fun u : State => u.hostMemB) ht.1.1 :).trans (by simpa using (congrArg (fun u : State => u.hostMemB) hv.1.1 :))
  · rw [ht.weft d, State.weft_modWeft, State.weft_modWeft, hb, hf]
    rfl

/-- The effect of an operation on a layer with one member. -/
theorem State.opEffect_single {s : State} {d : Weft} {o : Op} {m : OpMember} {l : Nat} (hm : o.members = [m]) (hk : o.kind = .layer l) :
    s.opEffect d o = s.layerEffect m.step d l o.upsets := by
  simp [State.opEffect, hm, hk]

/-- What holds of s when a layer's one operation, of the step x that is alone, may retire: its source of drift (R67) has no reaction and no
proof input is due. -/
structure State.Retiring (s : State) (d : Weft) (o : Op) (m : OpMember) (l : Nat) (x : Step) : Prop where
  steps : s.steps = [x]
  running : x.stage = .running
  members : o.members = [m]
  kind : o.kind = .layer l
  id : m.step = x.id
  drift : s.unset (weftSrc d 0x25)
  proofs : ∀ e, (s.weft e).checks.phase ≠ .due

/-- The one operation on a layer of a step that is alone ends: the layer is done, the unit is as f leaves it, and the ticket completes. -/
theorem State.Retiring.ends {s : State} {d : Weft} {o : Op} {m : OpMember} {l : Nat} {x : Step} (h : s.Retiring d o m l x)
    {f : WeftDie → WeftDie} (hf : ∀ w b, f { w with beam := b } = { f w with beam := b }) (hfc : ∀ w, (f w).checks = w.checks) :
    (((s.opEffect d o).modWeft d f).opEnds d o).EndedOn s d ((f (s.weft d)).completes m.ticket) ∧
      ∃ y, (((s.opEffect d o).modWeft d f).opEnds d o).steps = [y] ∧ y.doneOn x d l (((s.stepDraft x).layer l).op = 0x16) := by
  obtain ⟨hv, y, hy, hyx⟩ := State.layerEffect_doneOn (d := d) h.steps h.drift l o.upsets
  rw [State.opEffect_single h.members h.kind, h.id]
  generalize s.layerEffect x.id d l o.upsets = v at hv hy ⊢
  have hve : ∀ e, (v.weft e).checks = (s.weft e).checks := fun e => by
    cases e with
    | a => exact (congrArg (fun u : State => u.wa.checks) hv.1.1 :)
    | b => exact (congrArg (fun u : State => u.wb.checks) hv.1.1 :)
  have ht := State.opEnds_single (d := d) h.members ((State.modWeft_steps v d f).trans hy) (h.id.trans hyx.1.id.symm)
    (hyx.1.stage.trans h.running) (fun e => by rw [v.checks_modWeft d hfc e, hve e]; exact h.proofs e)
  refine ⟨hv.ends hf m.ticket ht, y, ?_, hyx⟩
  exact (congrArg (fun u : State => u.steps) ht.1.1 :).trans ((State.modWeft_steps _ d _).trans ((State.modWeft_steps v d f).trans hy))

end Machine

end Sys2Proof

namespace Sys2Proof

namespace Machine

set_option Elab.async false

/-! ### Engines at the end of an operation (R77, R83, R91) -/

/-- What a state with x' in place of the one step x shows of the dies' work is what s shows of it. -/
structure State.ShowsAs (t s : State) (x' x : Step) : Prop where
  here : s.steps = [x]
  there : t.steps = [x']
  id : x'.id = x.id
  draft : t.stepDraft x' = s.stepDraft x
  env : ∀ d, t.env x' d = s.env x d
  engines : ∀ d, (t.weft d).engines = (s.weft d).engines

theorem State.ShowsAs.step? {t s : State} {x' x : Step} (h : t.ShowsAs s x' x) (i : Nat) :
    (t.step? i = none ∧ s.step? i = none) ∨ (t.step? i = some x' ∧ s.step? i = some x) := by
  simp only [State.step?, h.here, h.there, List.find?_cons, List.find?_nil, h.id]
  cases x.id == i
  · exact .inl ⟨rfl, rfl⟩
  · exact .inr ⟨rfl, rfl⟩

/-- The step of an operation's first member. -/
theorem State.ShowsAs.first {t s : State} {x' x : Step} (h : t.ShowsAs s x' x) (o : Op) :
    ((o.members.head?).bind (fun m => t.step? m.step) = none ∧ (o.members.head?).bind (fun m => s.step? m.step) = none) ∨
      ((o.members.head?).bind (fun m => t.step? m.step) = some x' ∧ (o.members.head?).bind (fun m => s.step? m.step) = some x) := by
  cases o.members.head? with
  | none => exact .inl ⟨rfl, rfl⟩
  | some m => exact h.step? m.step

theorem State.ShowsAs.opLast {t s : State} {x' x : Step} (h : t.ShowsAs s x' x) (o : Op) : t.opLast o = s.opLast o := by
  unfold State.opLast
  rcases h.first o with ⟨h1, h2⟩ | ⟨h1, h2⟩
  · rw [h1, h2]
    cases o.kind <;> rfl
  · rw [h1, h2]
    cases o.kind with
    | layer l => exact congrArg (fun dr : Draft => decide ((dr.layer l).batches ≤ o.pass + 1)) h.draft
    | _ => rfl

theorem State.ShowsAs.opWhole {t s : State} {x' x : Step} (h : t.ShowsAs s x' x) (o : Op) : t.opWhole o = s.opWhole o := by
  unfold State.opWhole
  rcases h.first o with ⟨h1, h2⟩ | ⟨h1, h2⟩
  · rw [h1, h2]
    rfl
  · rw [h1, h2, Option.map_some, Option.map_some, h.draft]

theorem State.ShowsAs.opRow {t s : State} {x' x : Step} (h : t.ShowsAs s x' x) (o : Op) (l : Layer) (row : Nat) :
    (t.opRow o l row = none ∧ s.opRow o l row = none) ∨ ∃ r, t.opRow o l row = some (x', r) ∧ s.opRow o l row = some (x, r) := by
  unfold State.opRow
  cases rowOwner o.members row with
  | none => exact .inl ⟨rfl, rfl⟩
  | some m =>
    rcases h.step? m.step with ⟨h1, h2⟩ | ⟨h1, h2⟩
    · exact .inl ⟨by simp [h1], by simp [h2]⟩
    · exact .inr ⟨_, by rw [Option.bind_some, h1, Option.map_some], by rw [Option.bind_some, h2, Option.map_some]⟩

theorem State.ShowsAs.columnsOf {t s : State} {x' x : Step} (h : t.ShowsAs s x' x) (d : Weft) (l : Layer) (o : Op) :
    t.columnsOf d l o = s.columnsOf d l o := by
  funext rows at'
  unfold State.columnsOf
  refine List.map_congr_left fun i _ => ?_
  dsimp only
  rcases h.opRow o l (rows.1 + (rows.2 - 1) / 8 * 8 + i / 8 % 8) with ⟨h1, h2⟩ | ⟨r, h1, h2⟩
  · rw [h1, h2]
  · rw [h1, h2]
    dsimp only
    rw [h.env]

theorem State.ShowsAs.halfOf {t s : State} {x' x : Step} (h : t.ShowsAs s x' x) (d : Weft) (l : Layer) (o : Op) :
    t.halfOf d l o = s.halfOf d l o := by
  funext m dr c
  unfold State.halfOf
  refine congrArg (fun vs : List Rat => vs.drop (vs.length - 32768)) (List.flatMap_congr fun row _ => List.map_congr_left fun n _ => ?_)
  rcases h.opRow o l row with ⟨h1, h2⟩ | ⟨r, h1, h2⟩
  · rw [h1, h2]
  · rw [h1, h2]
    dsimp only
    rw [h.env, h.id]

theorem State.ShowsAs.streamed {t s : State} {x' x : Step} (h : t.ShowsAs s x' x) (d : Weft) (l : Layer) (o : Op) (tiles : List Nat) :
    t.streamed d x' l o tiles = s.streamed d x l o tiles := by
  have hc : t.engineChunks d x' l o = s.engineChunks d x l o := by
    funext js
    unfold State.engineChunks
    rw [h.draft]
  have ht : t.passTile d x' l o = s.passTile d x l o := by
    funext cs i
    unfold State.passTile
    rw [h.env]
  unfold State.streamed
  rw [h.draft, hc, ht, h.columnsOf, h.halfOf]

theorem State.ShowsAs.opLayer {t s : State} {x' x : Step} (h : t.ShowsAs s x' x) (o : Op) :
    (t.opLayer o = none ∧ s.opLayer o = none) ∨ ∃ l, t.opLayer o = some (x', l) ∧ s.opLayer o = some (x, l) := by
  unfold State.opLayer
  rcases h.first o with ⟨h1, h2⟩ | ⟨h1, h2⟩
  · rw [h1, h2]
    cases o.kind <;> exact .inl ⟨rfl, rfl⟩
  · rw [h1, h2]
    cases o.kind with
    | layer l => exact .inr ⟨(s.stepDraft x).layer l, by rw [← h.draft], rfl⟩
    | _ => exact .inl ⟨rfl, rfl⟩

/-- The engines after an operation of a step that has only held the array longer. -/
theorem State.ShowsAs.endEngines {t s : State} {x' x : Step} (h : t.ShowsAs s x' x) (d : Weft) (o : Op) : t.endEngines d o = s.endEngines d o := by
  unfold State.endEngines
  rw [h.engines]
  refine List.map_congr_left fun g _ => ?_
  rcases h.opLayer o with ⟨h1, h2⟩ | ⟨l, h1, h2⟩
  · rw [h1, h2]
    cases g.op <;> rfl
  · rw [h1, h2]
    cases g.op with
    | none => rfl
    | some _ => exact congrArg g.finish (h.streamed d l o g.tiles)

/-- After an operation no engine of its die has one. -/
theorem State.mem_endEngines {s : State} {d : Weft} {o : Op} {g : Engine} (h : g ∈ s.endEngines d o) : g.op = none ∧ g.tiles = [] := by
  obtain ⟨g0, -, rfl⟩ := List.mem_map.mp h
  split <;> exact ⟨rfl, rfl⟩

end Machine

end Sys2Proof

namespace Sys2Proof

namespace Machine

set_option Elab.async false

/-! ### Array operations retire (R99, R135, R191, R297) -/

theorem State.sameButReads.env {t s : State} (h : t.sameButReads s) (x : Step) (d : Weft) : t.env x d = s.env x d := by
  have hb : t.batches = s.batches := (congrArg (fun u : State => u.batches) h.1.1 :)
  have hcb : (t.weft d).codebooks = (s.weft d).codebooks := (congrArg (fun w : WeftDie => w.codebooks) (h.2 d) :)
  have hcu : (t.weft d).curves = (s.weft d).curves := (congrArg (fun w : WeftDie => w.curves) (h.2 d) :)
  have ha : t.wa.beam = s.wa.beam := h.holds.beam .a
  have hbb : t.wb.beam = s.wb.beam := h.holds.beam .b
  unfold State.env
  rw [h.holds.stepDraft, hcb, hcu, ha, hbb]
  simp only [State.inst?_congr hb]

/-- Reads after a step has held the array longer show the dies' work as it was. -/
theorem State.ShowsAs.of_held {u s : State} {x : Step} (hs : s.steps = [x]) {n : Nat} (hu : u.sameButReads (s.heldBy x n)) :
    u.ShowsAs s (x.held (s.holdOf x n)) x where
  here := hs
  there := (congrArg (fun v : State => v.steps) hu.1.1 :)
  id := rfl
  draft := hu.holds.stepDraft _
  env d := hu.env _ d
  engines d := (congrArg (fun w : WeftDie => w.engines) (hu.2 d) :).trans (by cases d <;> rfl)

/-- The counts of an array operation that ends, of its step t. -/
def State.arrayCounts (s : State) (d : Weft) (t : Step) (o : Op) (f : Freezes) : State :=
  let es := (enginesOf d).filter s.engineTakes
  let s1 := es.foldl (fun u e => countEv u (workEv (dieNo d) 0x007 (some (e % 4)) 1 t)) (bumpAon (s.unitProgress d .array) (dieNo d) 2 1)
  let s2 := (if s1.opWhole o then s1.crossTraffic d t else s1).countMoves d true (s.opWrites d .array o)
  es.foldl (fun u e => (countEv u (workEv (dieNo d) 0x008 (some (e % 4)) (s.engineProducts d o (e % 4)) t)).beamReads
    (dieNo d) (BitVec.ofNat 8 (0x70 + e)) t) ((s2.countFreezes d t o f).countAcc d o)

theorem State.arrayCounts_onlyDraws (s : State) (d : Weft) (t : Step) (o : Op) (f : Freezes) : (s.arrayCounts d t o f).sameButDraws s := by
  unfold State.arrayCounts
  dsimp only
  have h1 : (((enginesOf d).filter s.engineTakes).foldl (fun u e => countEv u (workEv (dieNo d) 0x007 (some (e % 4)) 1 t))
      (bumpAon (s.unitProgress d .array) (dieNo d) 2 1)).sameButDraws s :=
    (State.sameButDraws.foldl (fun u _ => countEv_onlyDraws u _ (dieNo_lt d)) _ _).trans
      ((bumpAon_onlyDraws _ _ _ _ (dieNo_lt d)).trans (State.unitProgress_onlyDraws s d .array))
  generalize ((enginesOf d).filter s.engineTakes).foldl (fun u e => countEv u (workEv (dieNo d) 0x007 (some (e % 4)) 1 t)) _ = s1 at h1 ⊢
  have h2 : (if s1.opWhole o then s1.crossTraffic d t else s1).sameButDraws s1 := by
    split
    · exact State.crossTraffic_onlyDraws s1 d t
    · exact .refl s1
  exact (State.sameButDraws.foldl (fun u _ => (State.beamReads_onlyDraws _ d _ t).trans (countEv_onlyDraws u _ (dieNo_lt d))) _ _).trans
    ((State.countAcc_onlyDraws _ d o).trans ((State.countFreezes_onlyDraws _ d t o f).trans ((State.countMoves_onlyDraws _ d _ _).trans (h2.trans h1))))

/-- A die whose array is idle. -/
def WeftDie.idleArray (gs : List Engine) (w : WeftDie) : WeftDie := { w with arrayRun := none, barrier := none, engines := gs }

/-- A die whose array goes on with the next operation of a batched layer. -/
def WeftDie.queueNext (o : Op) (w : WeftDie) : WeftDie := { w with arrayQ := { o with pass := o.pass + 1 } :: w.arrayQ }

/-- An array operation ends after its counts: the last one of its layer with the layer's effect, another with the next in the queue. -/
def State.arrayEnds (s : State) (d : Weft) (o : Op) : State :=
  if s.opLast o then ((if s.opWhole o then s else s.opEffect d o).modWeft d (WeftDie.idleArray (s.endEngines d o))).opEnds d o
  else ((s.modWeft d (WeftDie.idleArray (s.endEngines d o))).modWeft d (WeftDie.queueNext o)).proofEnter

/-- ARRAY_OP_RETIRE whose reads lost no data. -/
theorem exec_arrayOpRetire {s : State} {d : Weft} {n : Nat} {o : Op} {m : OpMember} {x : Step} (f : Freezes) (fs : List DataAt)
    (hrun : (s.weft d).arrayRun = some o) (hck : s.clocked (.loom d) = true) (hb : s.opWhole o = true → (s.weft d).barrier.isSome = true)
    (hm : o.members = [m]) (hs : s.steps = [x]) (hid : m.step = x.id) :
    ∃ u : State, u.sameButReads (s.heldBy x n) ∧ exec (.arrayOpRetire d n f { fixed := fs, hit := none }) s = .next (u.arrayEnds d o) := by
  have hgate : (!s.clocked (.loom d) || (s.opWhole o && (s.weft d).barrier.isNone)) = false := by
    cases hw : s.opWhole o with
    | false => simp [hck]
    | true => simp [hck, hb hw]
  have hu := (State.readChecks_onlyReads (s.holdClocks n) fs (s.opCtxs [o]).head?).trans (State.holdClocks_single hs n).reads
  have hrun' : (((s.holdClocks n).readChecks { fixed := fs, hit := none } (s.opCtxs [o]).head?).weft d).arrayRun = some o :=
    (congrArg (fun w : WeftDie => w.arrayRun) (hu.2 d) :).trans (by cases d <;> exact hrun)
  have hst : ((s.holdClocks n).readChecks { fixed := fs, hit := none } (s.opCtxs [o]).head?).steps = [x.held (s.holdOf x n)] :=
    (congrArg (fun v : State => v.steps) hu.1.1 :)
  refine ⟨_, (State.arrayCounts_onlyDraws _ d (x.held (s.holdOf x n)) o f).reads.trans hu, ?_⟩
  change execArrayOpRetire d n f { fixed := fs, hit := none } s = _
  unfold execArrayOpRetire
  rw [hrun]
  dsimp -zeta only
  rw [hgate]
  generalize (s.holdClocks n).readChecks { fixed := fs, hit := none } (s.opCtxs [o]).head? = u at hu hrun' hst ⊢
  have ht : (o.first).bind (fun m => u.step? m.step) = some (x.held (s.holdOf x n)) := by
    rw [Op.first, hm, List.head?_cons, Option.bind_some, hid]
    exact State.step?_single hst
  simp only [Bool.false_eq_true, if_false, hrun', ht]
  rfl

theorem State.weft_heldBy (s : State) (x : Step) (n : Nat) (d : Weft) : (s.heldBy x n).weft d = s.weft d := by cases d <;> rfl

/-- A retirement is as it was after reads and a longer hold. -/
theorem State.Retiring.of_held {u s : State} {d : Weft} {o : Op} {m : OpMember} {l : Nat} {x : Step} (h : s.Retiring d o m l x) {n : Nat}
    (hu : u.sameButReads (s.heldBy x n)) : u.Retiring d o m l (x.held (s.holdOf x n)) where
  steps := (congrArg (fun v : State => v.steps) hu.1.1 :)
  running := h.running
  members := h.members
  kind := h.kind
  id := h.id
  drift := ⟨h.drift.1, (hu.1.2 _ (oSrcCfg_plain _ h.drift.1).1).trans h.drift.2⟩
  proofs e := by
    have hc : (u.weft e).checks = (s.weft e).checks :=
      (congrArg (fun w : WeftDie => w.checks) (hu.2 e) :).trans (by rw [State.weft_heldBy])
    rw [hc]
    exact h.proofs e

/-- A die after reads and a longer hold of the array. -/
theorem State.sameButReads.die_held {u s : State} {x : Step} {n : Nat} (hu : u.sameButReads (s.heldBy x n)) (d : Weft) :
    { u.weft d with chans := (s.weft d).chans } = s.weft d := by
  simpa only [State.weft_heldBy] using hu.2 d

/-- The last operation of a layer retires. -/
theorem arrayOpRetire_last {s : State} {d : Weft} {o : Op} {m : OpMember} {l : Nat} {x : Step} (h : s.Retiring d o m l x) (n : Nat) (f : Freezes)
    (fs : List DataAt) (hck : s.clocked (.loom d) = true) (hrun : (s.weft d).arrayRun = some o) (hw : s.opWhole o = false)
    (hlast : s.opLast o = true) :
    ∃ t y, exec (.arrayOpRetire d n f { fixed := fs, hit := none }) s = .next t ∧ (t.weft d).arrayRun = none ∧ (t.weft d).barrier = none ∧
      (t.weft d).engines = s.endEngines d o ∧ (∀ g ∈ (t.weft d).engines, g.op = none ∧ g.tiles = []) ∧
      (t.weft d).tickets = (s.weft d).tickets.filter (fun k => k != m.ticket) ∧
      t.steps = [y] ∧ y.id = x.id ∧ y.stage = .running ∧ l ∈ (y.work d).layersDone ∧
      y.measured = x.measured + (if s.sched.running = some x.id then n else 0) ∧ (t.weft d).arrayQ = (s.weft d).arrayQ ∧
      t.ctxs = s.ctxs ∧ t.rings = s.rings ∧ t.drafts = s.drafts ∧ t.hostMemA = s.hostMemA ∧ t.hostMemB = s.hostMemB := by
  obtain ⟨u, hu, hex⟩ := exec_arrayOpRetire (n := n) f fs hrun hck (fun hb => absurd hb (by simp [hw])) h.members h.steps h.id
  have hsh := State.ShowsAs.of_held h.steps hu
  have hend : u.arrayEnds d o = ((u.opEffect d o).modWeft d (WeftDie.idleArray (s.endEngines d o))).opEnds d o := by
    simp [State.arrayEnds, hsh.opLast, hlast, hsh.opWhole, hw, hsh.endEngines]
  obtain ⟨ht, y, hy, hdone, hl, -⟩ := (h.of_held hu).ends (f := WeftDie.idleArray (s.endEngines d o)) (fun _ _ => rfl) (fun _ => rfl)
  rw [← hend] at ht hy
  obtain ⟨hc, hr, hd, hma, hmb, b, p, hdie⟩ := ht.of_reads hu
  have hdw := hu.die_held d
  refine ⟨_, y, hex, by rw [hdie]; rfl, by rw [hdie]; rfl, by rw [hdie]; rfl, ?_, ?_, hy, hdone.id, hdone.stage.trans h.running, hl,
    (congrArg (fun v : Step => v.measured) hdone :), ?_, hc, hr, hd, hma, hmb⟩
  · rw [hdie]
    exact fun g hg => State.mem_endEngines hg
  · rw [hdie, ← hdw]
    rfl
  · rw [hdie, ← hdw]
    rfl

/-- An operation of a batched layer retires before the last: the next one goes to the front of the queue. -/
theorem arrayOpRetire_next {s : State} {d : Weft} {o : Op} {m : OpMember} {x : Step} (hrun : (s.weft d).arrayRun = some o)
    (hck : s.clocked (.loom d) = true) (hm : o.members = [m]) (hs : s.steps = [x]) (hid : m.step = x.id)
    (hb : s.opWhole o = true → (s.weft d).barrier.isSome = true) (hlast : s.opLast o = false) (hp : ∀ e, (s.weft e).checks.phase ≠ .due)
    (n : Nat) (f : Freezes) (fs : List DataAt) :
    ∃ t, exec (.arrayOpRetire d n f { fixed := fs, hit := none }) s = .next t ∧ (t.weft d).arrayRun = none ∧ (t.weft d).barrier = none ∧
      (t.weft d).arrayQ = { o with pass := o.pass + 1 } :: (s.weft d).arrayQ ∧ (t.weft d).tickets = (s.weft d).tickets ∧
      (t.weft d).beam = (s.weft d).beam ∧ t.hostMemA = s.hostMemA ∧ t.hostMemB = s.hostMemB := by
  obtain ⟨u, hu, hex⟩ := exec_arrayOpRetire (n := n) f fs hrun hck hb hm hs hid
  have hsh := State.ShowsAs.of_held hs hu
  have hend : u.arrayEnds d o = (u.modWeft d (WeftDie.idleArray (s.endEngines d o))).modWeft d (WeftDie.queueNext o) := by
    rw [State.arrayEnds, hsh.opLast, hlast, if_neg Bool.false_ne_true, hsh.endEngines]
    refine State.proofEnter_noneDue fun e => ?_
    rw [State.checks_modWeft _ d (f := WeftDie.queueNext o) (fun _ => rfl),
      State.checks_modWeft _ d (f := WeftDie.idleArray (s.endEngines d o)) (fun _ => rfl)]
    exact (congrArg (fun w : WeftDie => w.checks.phase) (hu.die_held e) :).symm ▸ hp e
  have hd : (u.arrayEnds d o).weft d = ((u.weft d).idleArray (s.endEngines d o)).queueNext o := by
    rw [hend, State.weft_modWeft, State.weft_modWeft]
  have hdw := hu.die_held d
  refine ⟨_, hex, by rw [hd]; rfl, by rw [hd]; rfl, ?_, ?_, ?_, ?_, ?_⟩
  · rw [hd, ← hdw]
    rfl
  · rw [hd, ← hdw]
    rfl
  · rw [hd, ← hdw]
    rfl
  · rw [hend, State.modWeft_hostMemA, State.modWeft_hostMemA]
    exact (congrArg (fun v : State => v.hostMemA) hu.1.1 :)
  · rw [hend, State.modWeft_hostMemB, State.modWeft_hostMemB]
    exact (congrArg (fun v : State => v.hostMemB) hu.1.1 :)

/-- An operation of a Whole step stands until its barrier, and any while the clock stands. -/
theorem arrayOpRetire_waits {s : State} {d : Weft} {o : Op} (hrun : (s.weft d).arrayRun = some o)
    (h : s.opWhole o = true ∧ (s.weft d).barrier = none ∨ s.clocked (.loom d) = false) (n : Nat) (f : Freezes) (k : ReadChecks) :
    exec (.arrayOpRetire d n f k) s = .next s := by
  change execArrayOpRetire d n f k s = _
  have hgate : (!s.clocked (.loom d) || (s.opWhole o && (s.weft d).barrier.isNone)) = true := by
    rcases h with ⟨hw, hb⟩ | hc
    · simp [hw, hb]
    · simp [hc]
  unfold execArrayOpRetire
  rw [hrun]
  dsimp -zeta only
  rw [hgate, if_pos rfl]

end Machine

end Sys2Proof

namespace Sys2Proof

namespace Machine

set_option Elab.async false

/-! ### Reed, Finish and stage operations retire (R118, R126, R133, R137) -/

/-- A unit becomes free. -/
def WeftDie.frees (u : OpUnit) (w : WeftDie) : WeftDie := w.setRun u none

theorem WeftDie.frees_beam (u : OpUnit) (w : WeftDie) (b : Memory) : WeftDie.frees u { w with beam := b } = { w.frees u with beam := b } := by
  cases u <;> rfl

theorem WeftDie.frees_checks (u : OpUnit) (w : WeftDie) : (w.frees u).checks = w.checks := by cases u <;> rfl

/-- An operation whose reads lost no data retires: what its counts leave of the checked state, its effect, and its unit free. -/
theorem State.retireChecked_ends {s : State} {d : Weft} {u : OpUnit} {o : Op} {m : OpMember} {x : Step} {counts : Op → Step → State → State}
    (hrun : (s.weft d).runOf u = some o) (hm : o.members = [m]) (hs : s.steps = [x]) (hid : m.step = x.id)
    (hc : ∀ v t, (counts o t v).sameButDraws v) (fs : List DataAt) :
    ∃ (v : State) (work : Option Nat), v.sameButDraws (s.readChecks { fixed := fs, hit := none } work) ∧
      s.retireChecked d u { fixed := fs, hit := none } counts = ((v.opEffect d o).modWeft d (WeftDie.frees u)).opEnds d o := by
  obtain ⟨r, hrd⟩ : ∃ r, r = s.readChecks { fixed := fs, hit := none } (s.opCtxs ((s.weft d).runOf u).toList).head? := ⟨_, rfl⟩
  have hr : r.sameButReads s := hrd ▸ State.readChecks_onlyReads s fs _
  have hrun' : (r.weft d).runOf u = some o := by
    rw [← hrun, ← hr.2 d]
    cases u <;> rfl
  have ht : (o.first).bind (fun m => r.step? m.step) = some x := by
    rw [Op.first, hm, List.head?_cons, Option.bind_some, hid]
    exact State.step?_single ((congrArg (fun v : State => v.steps) hr.1.1 :).trans hs)
  refine ⟨(((counts o x r).opReads d u o x).countMoves d true (r.opWrites d u o)).unitProgress d u,
    (s.opCtxs ((s.weft d).runOf u).toList).head?, ?_, ?_⟩
  · rw [← hrd]
    exact (State.unitProgress_onlyDraws _ d u).trans ((State.countMoves_onlyDraws _ d _ _).trans ((State.opReads_onlyDraws _ d u o x).trans (hc r x)))
  · unfold State.retireChecked
    rw [← hrd]
    simp only [hrun', ht]
    rfl

/-- A Reed or Finish operation on a layer retires, after the step that is alone has held the array longer. -/
theorem State.Retiring.retireChecked {s r : State} {d : Weft} {u : OpUnit} {o : Op} {m : OpMember} {l : Nat} {x : Step}
    (h : s.Retiring d o m l x) (hrun : (s.weft d).runOf u = some o) {n : Nat} (hr : r.sameButDraws (s.heldBy x n))
    {counts : Op → Step → State → State} (hc : ∀ v t, (counts o t v).sameButDraws v) (fs : List DataAt) :
    ∃ (v : State) (y : Step), v.sameButReads (s.heldBy x n) ∧ (r.retireChecked d u { fixed := fs, hit := none } counts).steps = [y] ∧
      y.doneOn (x.held (s.holdOf x n)) d l (((s.stepDraft x).layer l).op = 0x16) ∧
      (r.retireChecked d u { fixed := fs, hit := none } counts).EndedOn s d (((v.weft d).frees u).completes m.ticket) := by
  have hrr : (r.weft d).runOf u = some o := by
    rw [← hrun, ← State.weft_heldBy s x n d, hr.weft]
  have hrs : r.steps = [x.held (s.holdOf x n)] := (congrArg (fun v : State => v.steps) hr.1 :)
  obtain ⟨v, work, hv, hend⟩ := State.retireChecked_ends hrr h.members hrs h.id hc fs
  have hvs : v.sameButReads (s.heldBy x n) := hv.reads.trans ((State.readChecks_onlyReads r fs work).trans hr.reads)
  obtain ⟨ht, y, hy, hdone⟩ := (h.of_held hvs).ends (WeftDie.frees_beam u) (WeftDie.frees_checks u)
  rw [(State.ShowsAs.of_held h.steps hvs).draft] at hdone
  rw [hend]
  obtain ⟨h1, h2, h3, h4, h5, h6⟩ := ht.of_reads hvs
  exact ⟨v, y, hvs, hy, hdone, h1, h2, h3, h4, h5, h6⟩

/-- A Reed operation on a layer retires. -/
theorem reedOpRetire_done {s : State} {d : Weft} {o : Op} {m : OpMember} {l : Nat} {x : Step} (h : s.Retiring d o m l x) (n : Nat)
    (fs : List DataAt) (hrun : (s.weft d).reedRun = some o) (hck : s.clocked (.loom d) = true) :
    ∃ t y, exec (.reedOpRetire d n { fixed := fs, hit := none }) s = .next t ∧ (t.weft d).reedRun = none ∧
      (t.weft d).tickets = (s.weft d).tickets.filter (fun k => k != m.ticket) ∧ t.steps = [y] ∧ y.id = x.id ∧ y.stage = .running ∧
      l ∈ (y.work d).layersDone ∧ y.measured = x.measured + (if s.sched.running = some x.id then n else 0) ∧
      (t.weft d).reedQ = (s.weft d).reedQ ∧ t.ctxs = s.ctxs ∧ t.rings = s.rings ∧ t.drafts = s.drafts := by
  have hr : (bumpAon (s.holdClocks n) (dieNo d) 3 1).sameButDraws (s.heldBy x n) :=
    (bumpAon_onlyDraws _ _ _ _ (dieNo_lt d)).trans (State.holdClocks_single h.steps n)
  obtain ⟨v, y, hv, hy, ⟨hdone, hl, -⟩, hc, hri, hd, -, -, b, p, hdie⟩ := h.retireChecked (u := .reed) hrun hr
    (counts := fun _ t u => u.countFree (workEv (dieNo d) 0x020 none 0 t)) (fun v t => State.countFree_onlyDraws v _ (dieNo_lt d)) fs
  have hdw := hv.die_held d
  have hex : exec (.reedOpRetire d n { fixed := fs, hit := none }) s = .next ((bumpAon (s.holdClocks n) (dieNo d) 3 1).retireChecked d .reed
      { fixed := fs, hit := none } (fun _ t u => u.countFree (workEv (dieNo d) 0x020 none 0 t))) := by
    change execReedOpRetire d n { fixed := fs, hit := none } s = _
    simp only [execReedOpRetire, hrun, hck, Bool.not_true, Bool.false_eq_true, if_false]
  refine ⟨_, y, hex, by rw [hdie]; rfl, ?_, hy, hdone.id, hdone.stage.trans h.running, hl, (congrArg (fun z : Step => z.measured) hdone :), ?_, hc,
    hri, hd⟩
  · rw [hdie, ← hdw]
    rfl
  · rw [hdie, ← hdw]
    rfl

/-- A Finish operation on a layer retires; result packing leaves its set. -/
theorem finishOpRetire_done {s : State} {d : Weft} {o : Op} {m : OpMember} {l : Nat} {x : Step} (h : s.Retiring d o m l x) (n : Nat)
    (fs : List DataAt) (hrun : (s.weft d).finishRun = some o) (hck : s.clocked (.loom d) = true) :
    ∃ t y, exec (.finishOpRetire d n { fixed := fs, hit := none }) s = .next t ∧ (t.weft d).finishRun = none ∧
      (t.weft d).tickets = (s.weft d).tickets.filter (fun k => k != m.ticket) ∧ t.steps = [y] ∧ y.id = x.id ∧ y.stage = .running ∧
      l ∈ (y.work d).layersDone ∧ (((s.stepDraft x).layer l).op = 0x16 → (y.work d).set.isSome = true) ∧
      (t.weft d).finishQ = (s.weft d).finishQ ∧ t.ctxs = s.ctxs ∧ t.rings = s.rings ∧ t.drafts = s.drafts := by
  obtain ⟨v, y, hv, hy, ⟨hdone, hl, hset⟩, hc, hri, hd, -, -, b, p, hdie⟩ := h.retireChecked (u := .finish) hrun (State.holdClocks_single h.steps n)
    (counts := fun _ t u => u.countFree (workEv (dieNo d) 0x022 none 0 t)) (fun v t => State.countFree_onlyDraws v _ (dieNo_lt d)) fs
  have hdw := hv.die_held d
  have hex : exec (.finishOpRetire d n { fixed := fs, hit := none }) s = .next ((s.holdClocks n).retireChecked d .finish
      { fixed := fs, hit := none } (fun _ t u => u.countFree (workEv (dieNo d) 0x022 none 0 t))) := by
    change execFinishOpRetire d n { fixed := fs, hit := none } s = _
    simp only [execFinishOpRetire, hrun, hck, Bool.not_true, Bool.false_eq_true, if_false]
  refine ⟨_, y, hex, by rw [hdie]; rfl, ?_, hy, hdone.id, hdone.stage.trans h.running, hl, hset, ?_, hc, hri, hd⟩
  · rw [hdie, ← hdw]
    rfl
  · rw [hdie, ← hdw]
    rfl

end Machine

end Sys2Proof

namespace Sys2Proof

namespace Machine

set_option Elab.async false

/-! ### A staging copy ends (R251, R257) -/

/-- A die with part `part` of placement p, whose home is GDDR6, copied from there to Beam SRAM. -/
def Entry.copiesPart (e : Entry) (d : Weft) (p part : Nat) (w : WeftDie) : WeftDie :=
  let pl := e.draft.placements.getD p Placement.zero
  { w with beam := w.beam.writeBytes (pl.partAt d part) (w.gddr.readBytes (e.base d + (pl.homeOff + part * pl.partBytes)) (e.draft.partLen p part)) }

/-- A part whose home is GDDR6 is copied to Beam SRAM. -/
theorem State.copyPart_home {s : State} {d : Weft} {m : OpMember} {p part : Nat} {x : Step} {e : Entry} {cx : Ctx} (hs : s.steps = [x])
    (hid : m.step = x.id) (he : s.stepEntry x = some e) (hcx : s.ctx? x.ctx = some cx) (hh : (e.draft.placements.getD p Placement.zero).home = 1) :
    (s.copyPart d m p part false).sameButDraws (s.modWeft d (e.copiesPart d p part)) := by
  unfold State.copyPart
  rw [hid, State.step?_single hs]
  dsimp only
  rw [he, hcx]
  dsimp only
  rw [if_pos hh]
  exact (State.beamBytes_onlyDraws _ d _ _ _ _).trans (State.gddrBytes_onlyDraws _ d _ _ _ _)

/-- The part is in Beam SRAM, and every other byte there is as before. -/
theorem Entry.copiesPart_beam {e : Entry} {d : Weft} {p part : Nat} {w : WeftDie} {pr : Placement} (h : w.beam.wf = true)
    (hpr : pr = e.draft.placements.getD p Placement.zero) :
    (e.copiesPart d p part w).beam.readBytes (pr.partAt d part) (e.draft.partLen p part) =
        w.gddr.readBytes (e.base d + (pr.homeOff + part * pr.partBytes)) (e.draft.partLen p part) ∧
      ∀ b, b < pr.partAt d part ∨ pr.partAt d part + e.draft.partLen p part ≤ b → (e.copiesPart d p part w).beam.read b = w.beam.read b := by
  subst hpr
  unfold Entry.copiesPart
  dsimp only
  generalize (e.draft.placements.getD p Placement.zero).partAt d part = a
  generalize e.base d + _ = base
  generalize e.draft.partLen p part = n
  have hn : (w.gddr.readBytes base n).length = n := by simp [Memory.readBytes, fromTo]
  have hr := Memory.readBytes_writeBytes h a (w.gddr.readBytes base n)
  rw [hn] at hr
  refine ⟨hr, fun b hb => ?_⟩
  rw [Memory.read_writeBytes _ _ _ _ h, hn, if_neg (by omega)]

/-- A die whose copy of a part has ended: the unit is free, the ticket k is complete, and the part alone is copied. -/
theorem Entry.copiesPart_ended {e : Entry} {d : Weft} {p part k : Nat} {w v : WeftDie}
    (h : w = { ((e.copiesPart d p part v).frees .stage).completes k with pairs := w.pairs }) :
    w.stageRun = none ∧ w.tickets = v.tickets.filter (fun x => x != k) ∧ w.beam = (e.copiesPart d p part v).beam ∧ w.gddr = v.gddr ∧
      w.chans = v.chans := by
  rw [h]
  simp only [WeftDie.completes, WeftDie.frees, WeftDie.setRun, Entry.copiesPart, and_self]

/-- One corrected error of a GDDR6 channel is counted there. -/
theorem State.readChecks_gddr (s : State) (d : Weft) (a : Nat) (work : Option Nat) :
    ((s.readChecks { fixed := [.gddr d a], hit := none } work).weft d).chans =
      modAt (s.weft d).chans (gddrChan a) (fun c => { c with corrected := add16 c.corrected 1 }) := by
  have h : (s.readChecks { fixed := [.gddr d a], hit := none } work).sameButDraws
      (s.modWeft d (fun w => { w with chans := modAt w.chans (gddrChan a) (fun c => { c with corrected := add16 c.corrected 1 }) })) :=
    (bumpAon_onlyDraws _ _ _ _ (dieNo_lt d)).trans (countEv_onlyDraws _ _ (dieNo_lt d))
  rw [h.weft, State.weft_modWeft]

theorem exec_stageCopyDone {s : State} {d : Weft} {o : Op} (hrun : (s.weft d).stageRun = some o) (hck : s.clocked (.weftFabric d) = true)
    (chk : ReadChecks) :
    exec (.stageCopyDone d chk) s = .next (s.retireChecked d .stage chk (fun _ t u =>
      (List.range 12).foldl (fun x c => x.countFree (workEv (dieNo d) 0x046 (some c) 0 t)) u)) := by
  change execStageCopyDone d chk s = _
  simp only [execStageCopyDone, hrun, hck, Bool.not_true, Bool.false_eq_true, if_false]

/-- A staging copy ends: its part is in Beam SRAM, and a corrected error is in its channel's count. -/
theorem stageCopyDone_copies {s : State} {d : Weft} {pl part : Nat} {o : Op} {m : OpMember} {x : Step} {e : Entry} {cx : Ctx} {pr : Placement}
    (fs : List DataAt) (hck : s.clocked (.weftFabric d) = true) (hrun : (s.weft d).stageRun = some o) (hm : o.members = [m])
    (hk : o.kind = .stage pl part) (hs : s.steps = [x]) (hid : m.step = x.id) (hx : x.stage = .running) (he : s.stepEntry x = some e)
    (hcx : s.ctx? x.ctx = some cx) (hpr : pr = e.draft.placements.getD pl Placement.zero) (hh : pr.home = 1) (hwf : (s.weft d).memWf = true)
    (hp : ∀ e, (s.weft e).checks.phase ≠ .due) :
    ∃ t, exec (.stageCopyDone d { fixed := fs, hit := none }) s = .next t ∧ (t.weft d).stageRun = none ∧
      (t.weft d).tickets = (s.weft d).tickets.filter (fun k => k != m.ticket) ∧
      (t.weft d).beam.readBytes (pr.partAt d part) (e.draft.partLen pl part) =
        (s.weft d).gddr.readBytes ((if d = .a then e.baseA else e.baseB) + (pr.homeOff + part * pr.partBytes)) (e.draft.partLen pl part) ∧
      (∀ a, (a < pr.partAt d part ∨ pr.partAt d part + e.draft.partLen pl part ≤ a) →
        (t.weft d).beam.read a = (s.weft d).beam.read a) ∧ (t.weft d).gddr = (s.weft d).gddr ∧ t.steps = [x] ∧ t.ctxs = s.ctxs ∧
      t.hostMemA = s.hostMemA ∧ t.hostMemB = s.hostMemB ∧
      (∀ a, fs = [.gddr d a] → ∀ k, (t.weft d).chans[k]? = ((s.weft d).chans[k]?).map (fun y => if k = a / 256 % 12 then
        { y with corrected := BitVec.ofNat 16 (min 0xFFFF (y.corrected.toNat + 1)) } else y)) := by
  have hex := exec_stageCopyDone hrun hck { fixed := fs, hit := none }
  obtain ⟨v, work, hv, hend⟩ := State.retireChecked_ends (u := .stage) hrun hm hs hid (counts := fun _ t u =>
    (List.range 12).foldl (fun x c => x.countFree (workEv (dieNo d) 0x046 (some c) 0 t)) u)
    (fun v t => .foldl (fun u c => State.countFree_onlyDraws u _ (dieNo_lt d)) _ v) fs
  rw [hend] at hex
  have hr := State.readChecks_onlyReads s fs work
  have hvs := hv.reads.trans hr
  have hvst : v.steps = [x] := (congrArg (fun u : State => u.steps) hvs.1.1 :).trans hs
  have hve : v.stepEntry x = some e := by
    rw [← he]
    simp only [State.stepEntry, State.entry?, hvs.holds.drafts]
  have hvc : v.ctx? x.ctx = some cx := (hvs.holds.ctx? _).trans hcx
  have hcopy := State.copyPart_home (d := d) (part := part) hvst hid hve hvc (hpr ▸ hh)
  rw [show v.copyPart d m pl part false = v.opEffect d o by simp [State.opEffect, hm, hk]] at hcopy
  generalize v.opEffect d o = c at hcopy hex
  have hce : ∀ f, (c.weft f).checks = (s.weft f).checks := fun f => by
    rw [hcopy.weft, v.checks_modWeft d (f := e.copiesPart d pl part) (fun _ => rfl)]
    exact (congrArg (fun w : WeftDie => w.checks) (hvs.2 f) :)
  have hcd : c.sameButDies s := hcopy.dies.trans ((State.modWeft_onlyDies v d _).trans hvs.1)
  have hcs : c.steps = [x] := (congrArg (fun u : State => u.steps) hcd.1 :).trans hs
  have ht := State.opEnds_single (d := d) hm ((State.modWeft_steps c d (WeftDie.frees .stage)).trans hcs) hid hx
    (fun f => by rw [c.checks_modWeft d (WeftDie.frees_checks .stage), hce]; exact hp f)
  generalize (c.modWeft d (WeftDie.frees .stage)).opEnds d o = t at ht hex
  have hcw : c.weft d = e.copiesPart d pl part (v.weft d) := (hcopy.weft d).trans (State.weft_modWeft v d _)
  have hdie := ht.weft d
  rw [State.weft_modWeft, State.weft_modWeft, hcw] at hdie
  obtain ⟨hfree, htick, hbeam, hgddr, hchans⟩ := Entry.copiesPart_ended hdie
  obtain ⟨hin, hout⟩ := Entry.copiesPart_beam (d := d) (part := part) (w := v.weft d) (by rw [hvs.holds.beam]; exact (s.weft d).beam_wf hwf) hpr
  rw [hvs.holds.gddr] at hin
  rw [hvs.holds.beam] at hout
  have hts : t.sameButDies s := ht.1.trans ((State.modWeft_onlyDies _ d _).trans ((State.modWeft_onlyDies c d _).trans hcd))
  refine ⟨t, hex, hfree, ?_, ?_, fun a ha => ?_, hgddr.trans (hvs.holds.gddr d), (congrArg (fun u : State => u.steps) hts.1 :).trans hs,
    (congrArg (fun u : State => u.ctxs) hts.1 :), (congrArg (fun u : State => u.hostMemA) hts.1 :), (congrArg (fun u : State => u.hostMemB) hts.1 :),
    fun a ha k => ?_⟩
  · rw [htick, ← hvs.2 d]
  · rw [hbeam, show (if d = .a then e.baseA else e.baseB) = e.base d by cases d <;> rfl, hin]
  · rw [hbeam, hout a ha]
  · rw [hchans, hv.weft, ha, State.readChecks_gddr, getElem?_modAt, show gddrChan a = a / 256 % 12 from rfl]
    by_cases hka : k = a / 256 % 12
    · simp only [hka]
      rfl
    · simp only [if_neg hka, Option.map_id']

end Machine

end Sys2Proof

namespace Sys2Proof

namespace Machine

set_option Elab.async false

/-! ### Lost data ends an operation with its step (R98, R265) -/

/-- Every unit of t runs what it runs in s. -/
def State.sameRuns (t s : State) : Prop := ∀ d u, (t.weft d).runOf u = (s.weft d).runOf u

theorem State.sameRuns.trans {a b c : State} (h : a.sameRuns b) (k : b.sameRuns c) : a.sameRuns c := fun d u => (h d u).trans (k d u)

theorem State.sameRuns.of_dies {t s : State} (ha : t.wa = s.wa) (hb : t.wb = s.wb) : t.sameRuns s := fun d u => by
  cases d
  · exact congrArg (fun w : WeftDie => w.runOf u) ha
  · exact congrArg (fun w : WeftDie => w.runOf u) hb

theorem State.sameButDraws.runs {t s : State} (h : t.sameButDraws s) : t.sameRuns s := fun d u => by rw [h.weft]

theorem State.sameRuns.foldl {α : Type} {f : State → α → State} (h : ∀ t x, (f t x).sameRuns t) (l : List α) :
    ∀ s, (l.foldl f s).sameRuns s := by
  induction l with
  | nil => exact fun _ _ _ => rfl
  | cons x l ih => exact fun s => (ih (f s x)).trans (h s x)

theorem State.modWeft_runs (s : State) (d : Weft) {f : WeftDie → WeftDie} (hf : ∀ w u, (f w).runOf u = w.runOf u) : (s.modWeft d f).sameRuns s :=
  fun e u => by
    by_cases h : e = d
    · rw [h, State.weft_modWeft, hf]
    · rw [State.weft_modWeft_ne s h]

theorem WeftDie.runOf_queued (o : Op) (w : WeftDie) (u : OpUnit) : (w.queued o).runOf u = w.runOf u := by cases u <;> rfl

theorem WeftDie.runOf_beam (b : Memory) (w : WeftDie) (u : OpUnit) : WeftDie.runOf { w with beam := b } u = w.runOf u := by cases u <;> rfl

theorem State.sendTo_runs (a : State × Window) (d : Weft) : (State.sendTo a d).1.sameRuns a.1 := by
  unfold State.sendTo
  split
  · exact State.modWeft_runs a.1 d (WeftDie.runOf_queued (a.2.opOn d))
  · exact fun _ _ => rfl

theorem State.sendWindows_runs (s : State) : s.sendWindows.sameRuns s := by
  have h : ∀ (ws : List Window) (a : State × List Window), (ws.foldl s.sendWindow a).1.sameRuns a.1 := fun ws => by
    induction ws with
    | nil => exact fun _ _ _ => rfl
    | cons w ws ih => exact fun a => (ih (s.sendWindow a w)).trans ((State.sendTo_runs _ .b).trans (State.sendTo_runs (a.1, w) .a))
  rw [State.sendWindows_eq]
  exact h s.sched.windows (s, [])

theorem State.putMem_runs (s : State) (e : Env) (k : Nat) : State.sameRuns { s.putMem e with freshCtr := k } s := fun d u => by
  cases d
  · exact WeftDie.runOf_beam e.ma s.wa u
  · exact WeftDie.runOf_beam e.mb s.wb u

theorem State.cutShort_runs (s : State) (t : Step) (d : Weft) : (s.cutShort t d).sameRuns s :=
  .foldl (fun u _ => State.putMem_runs u _ _) _ s

/-- A unit without a step's work. -/
theorem WeftDie.runOf_dropStep (id k : Nat) (w : WeftDie) (u : OpUnit) : (w.dropStep id k).runOf u = (w.runOf u).bind (Op.without id) := by
  cases u <;> rfl

/-- A unit of a die after a step's work is dropped. -/
theorem State.runOf_dropWork (s : State) (t : Step) (d : Weft) (u : OpUnit) :
    ((s.dropWork t).weft d).runOf u = ((s.weft d).runOf u).bind (Op.without t.id) := by
  have hcut : ((((s.cutFreezes t .a).cutFreezes t .b).cutShort t .a).cutShort t .b).sameRuns s :=
    (State.cutShort_runs _ t .b).trans ((State.cutShort_runs _ t .a).trans
      ((State.cutFreezes_onlyDraws _ t .b).trans (State.cutFreezes_onlyDraws s t .a)).runs)
  have ht : s.dropWork t = (State.dropped ((((s.cutFreezes t .a).cutFreezes t .b).cutShort t .a).cutShort t .b) t).sendWindows := rfl
  rw [ht, State.sendWindows_runs _ d u, ← hcut d u]
  generalize (((s.cutFreezes t .a).cutFreezes t .b).cutShort t .a).cutShort t .b = v
  cases d
  · exact WeftDie.runOf_dropStep _ _ v.wa u
  · exact WeftDie.runOf_dropStep _ _ v.wb u

/-- An operation whose one member is a step's has nothing left without it. -/
theorem Op.without_single {o : Op} {id : Nat} (h : o.members.map (fun m => m.step) = [id]) : o.without id = none := by
  obtain ⟨m, hm, rfl⟩ := List.map_eq_singleton_iff.mp h
  simp [Op.without, hm]

/-- A unit whose operation served the killed step alone is free. -/
theorem State.kill_frees {s : State} {x : Step} {n : Nat} (h : s.killable x n) {d : Weft} {u : OpUnit} {o : Op} (hrun : (s.weft d).runOf u = some o)
    (hm : o.members.map (fun m => m.step) = [x.id]) (status : Nat) (c : Capture) :
    (((s.endCtx x.ctx status).raise n c).weft d).runOf u = none := by
  obtain ⟨hb, hk, hn⟩ := h
  have hr := (State.raise_silent (s.endCtx x.ctx status) n c ((State.endCtx_frame hb hk status).2.2.2.2.silent hn)).1
  have hsp := (s.dropWork x).spoil_frame x
  have hraise : ((s.endCtx x.ctx status).raise n c).sameRuns (s.endCtx x.ctx status) :=
    .of_dies (congrArg (fun v : State => v.wa) hr.1 :) (congrArg (fun v : State => v.wb) hr.1 :)
  have hend : (s.endCtx x.ctx status).sameRuns ((s.dropWork x).spoil x) := by
    rw [State.endCtx_kills hb hk]
    exact .of_dies rfl rfl
  have hspoil : ((s.dropWork x).spoil x).sameRuns (s.dropWork x) :=
    .of_dies (congrArg (fun v : State => v.wa) hsp :) (congrArg (fun v : State => v.wb) hsp :)
  rw [hraise.trans (hend.trans hspoil), State.runOf_dropWork, hrun, Option.bind_some, Op.without_single hm]

/-- A lost line of Beam SRAM of a step frees the units that served it alone. -/
theorem State.dataLost_beam_frees {s : State} {x : Step} {w : Weft} {a : Nat} (ho : s.beamOwner w a = .step x.ctx)
    (h : s.killable x (weftSrc w 0x20)) {d : Weft} {u : OpUnit} {o : Op} (hrun : (s.weft d).runOf u = some o)
    (hm : o.members.map (fun m => m.step) = [x.id]) (b : Byte) (work : Option Nat) :
    ((s.dataLost { place := .beam w a, master := b } work).weft d).runOf u = none := by
  have ht : s.dataLost { place := .beam w a, master := b } work =
      bumpAon ((s.eccOwner (s.beamOwner w a)).raise (weftSrc w 0x20) (cap ((ownerCtx (s.beamOwner w a)).or work) b 1 (BitVec.ofNat 64 a) 0))
        (dieNo w) 5 1 := rfl
  rw [ht, (bumpAon_onlyDraws _ _ _ _ (dieNo_lt w)).weft, ho]
  exact State.kill_frees h hrun hm 2 _

/-- A lost line of GDDR6 of a step frees the units that served it alone. -/
theorem State.dataLost_gddr_frees {s : State} {x : Step} {w : Weft} {a : Nat} (ho : s.gddrOwner w a = .step x.ctx)
    (h : s.killable x (weftSrc w 0x22)) {d : Weft} {u : OpUnit} {o : Op} (hrun : (s.weft d).runOf u = some o)
    (hm : o.members.map (fun m => m.step) = [x.id]) (b : Byte) (work : Option Nat) :
    ((s.dataLost { place := .gddr w a, master := b } work).weft d).runOf u = none := by
  have ht : s.dataLost { place := .gddr w a, master := b } work =
      bumpAon ((s.eccOwner (s.gddrOwner w a)).raise (weftSrc w 0x22) (cap ((ownerCtx (s.gddrOwner w a)).or work) b 1 (BitVec.ofNat 64 a) 1))
        (dieNo w) 7 1 := rfl
  rw [ht, (bumpAon_onlyDraws _ _ _ _ (dieNo_lt w)).weft, ho]
  exact State.kill_frees h hrun hm 2 _

/-- A retirement whose reads free the unit does nothing else. -/
theorem State.retireChecked_freed {s : State} {d : Weft} {u : OpUnit} {k : ReadChecks} {o : Op} (hrun : (s.weft d).runOf u = some o)
    (h : ((s.readChecks k (s.opCtxs [o]).head?).weft d).runOf u = none) (counts : Op → Step → State → State) :
    s.retireChecked d u k counts = s.readChecks k (s.opCtxs [o]).head? := by
  unfold State.retireChecked
  rw [hrun]
  dsimp -zeta only [Option.toList]
  generalize s.readChecks k (s.opCtxs [o]).head? = t at h ⊢
  simp only [h]

/-- A read of a staging copy that loses a line of GDDR6 of the step ends the step, and the copy with it. -/
theorem stageCopyDone_lost {s : State} {d w : Weft} {a : Nat} {o : Op} {x : Step} (hrun : (s.weft d).stageRun = some o)
    (ho : s.gddrOwner w a = .step x.ctx) (hck : s.clocked (.weftFabric d) = true) (hm : o.members.map (fun m => m.step) = [x.id])
    (h : s.killable x (weftSrc w 0x22)) (c : Byte) :
    ∃ t, exec (.stageCopyDone d { fixed := [], hit := some { place := .gddr w a, master := c } }) s = .next t ∧
      t.killed s x 2 (weftSrc w 0x22) (cap (some x.ctx) c 1 (BitVec.ofNat 64 a) 1) := by
  have hfree := State.dataLost_gddr_frees (u := .stage) ho h hrun hm c (s.opCtxs [o]).head?
  have hend := State.retireChecked_freed (u := .stage) (k := { fixed := [], hit := some { place := .gddr w a, master := c } }) hrun hfree
  exact ⟨_, (exec_stageCopyDone hrun hck _).trans (congrArg Host.Outcome.next (hend _)), State.dataLost_gddr_killed ho h c _⟩

theorem State.beamOwner_of_draws {u s : State} (hd : u.sameButDraws s) (w : Weft) (a : Nat) : u.beamOwner w a = s.beamOwner w a := by
  rw [hd.eq]
  rfl

/-- A longer hold of the array changes no line's owner. -/
theorem State.beamOwner_heldBy {s : State} {x : Step} (hs : s.steps = [x]) (n : Nat) (w : Weft) (a : Nat) :
    (s.heldBy x n).beamOwner w a = s.beamOwner w a := by
  have hr : (s.heldBy x n).sched.running.bind (s.heldBy x n).step? = (s.sched.running.bind s.step?).map (Step.held (s.holdOf x n)) := by
    change s.sched.running.bind (s.heldBy x n).step? = _
    cases s.sched.running with
    | none => rfl
    | some i =>
      simp only [Option.bind_some, State.step?, State.heldBy, hs, List.find?_singleton, Step.held]
      split <;> rfl
  have hi : (s.heldBy x n).instAt w a = s.instAt w a := rfl
  unfold State.beamOwner
  rw [hr, hi]
  cases s.instAt w a with
  | some i => rfl
  | none =>
    cases s.sched.running.bind s.step? with
    | none => rfl
    | some t => rfl

/-- A step stays one that a source may kill while it holds the array longer. -/
theorem State.killable_heldBy {s : State} {x : Step} {k : Nat} (hs : s.steps = [x]) (h : s.killable x k) (n : Nat) :
    (s.heldBy x n).killable (x.held (s.holdOf x n)) k := by
  obtain ⟨hb, hrest⟩ := h
  refine ⟨?_, hrest⟩
  rw [State.begunStep, hs, List.find?_singleton] at hb
  split at hb
  next hx => exact (List.find?_singleton ..).trans (if_pos hx)
  next => cases hb

/-- ARRAY_OP_RETIRE whose reads free the array does nothing else. -/
theorem exec_arrayOpRetire_freed {s : State} {d : Weft} {n : Nat} {f : Freezes} {k : ReadChecks} {o : Op} (hrun : (s.weft d).arrayRun = some o)
    (hw : s.opWhole o = false) (hck : s.clocked (.loom d) = true)
    (h : (((s.holdClocks n).readChecks k (s.opCtxs [o]).head?).weft d).arrayRun = none) :
    exec (.arrayOpRetire d n f k) s = .next ((s.holdClocks n).readChecks k (s.opCtxs [o]).head?) := by
  change execArrayOpRetire d n f k s = _
  unfold execArrayOpRetire
  rw [hrun]
  dsimp -zeta only
  rw [hw, hck]
  generalize (s.holdClocks n).readChecks k (s.opCtxs [o]).head? = t at h ⊢
  simp only [Bool.not_true, Bool.false_and, Bool.or_self, Bool.false_eq_true, if_false, h]

/-- A read of an array operation that loses a line of Beam SRAM of the step ends the step, and the operation with it. -/
theorem arrayOpRetire_lost {s : State} {d w : Weft} {a : Nat} {o : Op} {x : Step} (hrun : (s.weft d).arrayRun = some o)
    (hw : s.opWhole o = false) (hck : s.clocked (.loom d) = true) (hm : o.members.map (fun m => m.step) = [x.id]) (hs : s.steps = [x])
    (ho : s.beamOwner w a = .step x.ctx) (h : s.killable x (weftSrc w 0x20)) (n : Nat) (f : Freezes) (b : Byte) :
    ∃ t, exec (.arrayOpRetire d n f { fixed := [], hit := some { place := .beam w a, master := b } }) s = .next t ∧
      (t.weft d).arrayRun = none ∧ lookupN t.ladder.kills x.ctx = some 2 ∧
      t.captured (weftSrc w 0x20) (cap (some x.ctx) b 1 (BitVec.ofNat 64 a) 0) ∧
      (∀ y ∈ t.steps, x.id = y.id ∧ (y.work d).layersDone = (x.work d).layersDone) ∧
      (x.stage ≠ .delivering → t.hostMemA = s.hostMemA ∧ t.hostMemB = s.hostMemB) := by
  have hd := State.holdClocks_single hs n
  have hok : (s.holdClocks n).killable (x.held (s.holdOf x n)) (weftSrc w 0x20) := State.killable_of_draws (State.killable_heldBy hs h n) hd
  have hown : (s.holdClocks n).beamOwner w a = .step x.ctx :=
    (State.beamOwner_of_draws hd w a).trans ((State.beamOwner_heldBy hs n w a).trans ho)
  have hrun' : ((s.holdClocks n).weft d).runOf .array = some o := by
    rw [hd.weft, State.weft_heldBy]
    exact hrun
  have hfree : (((s.holdClocks n).dataLost { place := .beam w a, master := b } (s.opCtxs [o]).head?).weft d).arrayRun = none :=
    State.dataLost_beam_frees (x := x.held (s.holdOf x n)) (u := .array) hown hok hrun' hm b _
  obtain ⟨hk, hcap, hst, -, -, -, -, -, hmem⟩ := State.dataLost_beam_killed (x := x.held (s.holdOf x n)) hown hok b (s.opCtxs [o]).head?
  have hst' : (s.holdClocks n).steps = [x.held (s.holdOf x n)] := (congrArg (fun v : State => v.steps) hd.1 :)
  refine ⟨_, exec_arrayOpRetire_freed hrun hw hck hfree, hfree, hk, hcap, fun y hy => ?_, fun hx => ?_⟩
  · have hyx : y = x.held (s.holdOf x n) := List.mem_singleton.mp (hst' ▸ hst ▸ hy)
    subst hyx
    exact ⟨rfl, rfl⟩
  · obtain ⟨ha, hb⟩ := hmem hx
    exact ⟨ha.trans (congrArg (fun v : State => v.hostMemA) hd.1 :), hb.trans (congrArg (fun v : State => v.hostMemB) hd.1 :)⟩

end Machine

end Sys2Proof

namespace Sys2Proof

namespace Machine

set_option Elab.async false

/-! ### Operations retire -/

/-- No die's proof is due. -/
theorem State.noneDue {s : State} (ha : s.wa.checks.phase ≠ .due) (hb : s.wb.checks.phase ≠ .due) (e : Weft) : (s.weft e).checks.phase ≠ .due := by
  cases e
  · exact ha
  · exact hb

theorem State.silent_unset {s : State} {n : Nat} (h : s.silent n) : s.unset n := ⟨h.1, h.2.2⟩

/-- Settles O48: a unit's operation of a step that is alone ends by one rule for the three engines' units (`State.Retiring.ends`: layer done,
ticket completed, unit free), a staging copy by its own, and lost data kills the step, whose work every unit then drops. -/
theorem operationsRetire : Obligations.OperationsRetire := by
  unfold Obligations.OperationsRetire
  refine ⟨?_, ?_, ?_, ?_, ?_, ?_, ?_, ?_⟩
  · intro d n l f fs o m x s hck hrun hm hk hs hid hx hw hlast hsilent hwa hwb
    exact arrayOpRetire_last ⟨hs, hx, hm, hk, hid, State.silent_unset hsilent, State.noneDue hwa hwb⟩ n f fs hck hrun hw hlast
  · intro d n f fs o m x s hrun hck hm hs hid hb hlast hwa hwb
    exact arrayOpRetire_next hrun hck hm hs hid hb hlast (State.noneDue hwa hwb) n f fs
  · intro d n f k o s hrun h
    exact arrayOpRetire_waits hrun h n f k
  · intro d w n a f b o x s hrun hw hck hm hs ho h
    exact arrayOpRetire_lost hrun hw hck hm hs ho h n f b
  · intro d n l fs o m x s hrun hm hck hk hs hid hx hsilent hwa hwb
    exact reedOpRetire_done ⟨hs, hx, hm, hk, hid, State.silent_unset hsilent, State.noneDue hwa hwb⟩ n fs hrun hck
  · intro d n l fs o m x s hrun hm hck hk hs hid hx hsilent hwa hwb
    exact finishOpRetire_done ⟨hs, hx, hm, hk, hid, State.silent_unset hsilent, State.noneDue hwa hwb⟩ n fs hrun hck
  · intro d pl part fs o m x e cx pr s hck hrun hm hk hs hid hx he hcx hpr hh hwf hwa hwb
    exact stageCopyDone_copies fs hck hrun hm hk hs hid hx he hcx hpr hh hwf (State.noneDue hwa hwb)
  · intro d w a c o x s hrun ho hck hm h
    exact stageCopyDone_lost hrun ho hck hm h c

end Machine

end Sys2Proof

namespace Sys2Proof

namespace Machine

set_option Elab.async false

/-! ### One pair of a die (R109) -/

theorem State.pair?_weft {s : State} {n : Nat} {p : Pair} (h : s.pair? n = some p) : n < 8 ∧ (s.weft (weftOf n)).pairs[n % 4]? = some p := by
  unfold State.pair? at h
  split at h
  next hn => exact ⟨hn, h⟩
  next => cases h

theorem State.pair?_of_weft {s : State} {n : Nat} {p : Pair} (hn : n < 8) (h : (s.weft (weftOf n)).pairs[n % 4]? = some p) :
    s.pair? n = some p := by rw [State.pair?, if_pos hn, h]

theorem State.modPair_eq (s : State) {n : Nat} (hn : n < 8) (f : Pair → Pair) :
    s.modPair n f = s.modWeft (weftOf n) (fun w => { w with pairs := modAt w.pairs (n % 4) f }) := if_pos hn

/-- A pair after an update of it. -/
theorem State.pair?_modPair {s : State} {n : Nat} {p : Pair} (h : s.pair? n = some p) (f : Pair → Pair) : (s.modPair n f).pair? n = some (f p) := by
  obtain ⟨hn, hp⟩ := State.pair?_weft h
  refine State.pair?_of_weft hn ?_
  rw [State.modPair_eq s hn, State.weft_modWeft]
  simp [getElem?_modAt, hp]

theorem State.modWeft_modWeft (s : State) (d : Weft) (f g : WeftDie → WeftDie) :
    (s.modWeft d f).modWeft d g = s.modWeft d (fun w => g (f w)) := by cases d <;> rfl

theorem State.modWeft_of_eq {s : State} {d : Weft} {f : WeftDie → WeftDie} (h : f (s.weft d) = s.weft d) : s.modWeft d f = s := by
  cases d
  · exact (congrArg (fun w : WeftDie => { s with wa := w }) h :)
  · exact (congrArg (fun w : WeftDie => { s with wb := w }) h :)

/-- Putting a pair back undoes an update of it. -/
theorem State.modPair_undo {s : State} {n : Nat} {p : Pair} (h : s.pair? n = some p) (f : Pair → Pair) :
    (s.modPair n f).modPair n (fun _ => p) = s := by
  obtain ⟨hn, hp⟩ := State.pair?_weft h
  rw [State.modPair_eq _ hn, State.modPair_eq s hn, State.modWeft_modWeft]
  refine State.modWeft_of_eq ?_
  have hl : modAt (modAt (s.weft (weftOf n)).pairs (n % 4) f) (n % 4) (fun _ => p) = (s.weft (weftOf n)).pairs := by
    rw [modAt_modAt]
    exact modAt_of_eq fun a ha => Option.some.inj (hp.symm.trans ha)
  simp only [hl]

theorem State.modPair_onlyDies (s : State) (n : Nat) (f : Pair → Pair) : { s.modPair n f with wa := s.wa, wb := s.wb } = s := by
  unfold State.modPair
  split
  · cases weftOf n <;> rfl
  · rfl

theorem State.modPair_freshCtr (s : State) (n : Nat) (f : Pair → Pair) : (s.modPair n f).freshCtr = s.freshCtr :=
  (congrArg (fun u : State => u.freshCtr) (s.modPair_onlyDies n f) :)

theorem State.sameButCounters.modPair {t s : State} (h : t.sameButCounters s) (n : Nat) (f : Pair → Pair) :
    (t.modPair n f).sameButCounters (s.modPair n f) := by
  rw [h.eq]
  unfold State.modPair
  split
  · cases weftOf n
    · exact ⟨rfl, h.2⟩
    · exact ⟨rfl, h.2⟩
  · exact ⟨rfl, h.2⟩

theorem State.sameButCounters.weft {t s : State} (h : t.sameButCounters s) (d : Weft) : t.weft d = s.weft d := by rw [h.eq]; cases d <;> rfl

/-- A pair is updated, and nothing else but counters. -/
theorem State.onlyPair_of {t s : State} {n : Nat} {p : Pair} {f : Pair → Pair} (h : s.pair? n = some p) (ht : t.sameButCounters (s.modPair n f)) :
    t.onlyPair s n p (f p) := by
  refine ⟨?_, ?_⟩
  · rw [State.pair?_congr (congrArg WeftDie.pairs (ht.weft (weftOf n))), State.pair?_modPair h]
  · rw [← State.modPair_undo h f]
    exact ht.modPair n _

/-- The same for an update that draws free values. -/
theorem State.onlyPair_of_draws {t s : State} {n : Nat} {p : Pair} {f : Pair → Pair} (h : s.pair? n = some p)
    (ht : t.sameButDraws (s.modPair n f)) : State.onlyPair { t with freshCtr := s.freshCtr } s n p (f p) := by
  refine State.onlyPair_of h ?_
  rw [State.sameButDraws, State.modPair_freshCtr] at ht
  exact ht

/-- Beside its dies, a state of which one pair changed is the same but for counters. -/
theorem State.onlyPair.diesAside {t s : State} {n : Nat} {p q : Pair} (h : t.onlyPair s n p q) :
    State.sameButCounters { t with wa := s.wa, wb := s.wb } s := by
  obtain ⟨-, hc, hr⟩ := h
  have hm := t.modPair_onlyDies n (fun _ => p)
  refine ⟨?_, fun o ho => (congrArg (fun u : State => u.reg o) hm :).symm.trans (hr o ho)⟩
  have hl : { t with wa := s.wa, wb := s.wb, ctr := s.ctr, regs := s.regs, mon := s.mon } =
      { t.modPair n (fun _ => p) with wa := s.wa, wb := s.wb, ctr := s.ctr, regs := s.regs, mon := s.mon } :=
    (congrArg (fun u : State => { u with wa := s.wa, wb := s.wb, ctr := s.ctr, regs := s.regs, mon := s.mon }) hm.symm :)
  exact hl.trans (congrArg (fun u : State => { u with wa := s.wa, wb := s.wb }) hc :)

/-! ### Instructions that stand at a pair's pc (R109, R118) -/

theorem Pair.active_runs {p : Pair} {r : Running} (h : p.active = some r) : p.run = some r ∧ p.stall = none := by
  unfold Pair.active at h
  split at h
  · cases h
  next hc =>
    refine ⟨h, ?_⟩
    cases hs : p.stall with
    | none => rfl
    | some x => simp [hs] at hc

/-- An instruction acts on the pair that executes it. -/
theorem State.onPair_executes {s : State} {n : Nat} {p : Pair} {r : Running} {x : Step} (h : s.executes n p r x)
    (go : Pair → Running → Step → State) : s.onPair n go = go p r x := by
  obtain ⟨hp, hr, hx, hc, ho, hu⟩ := h
  simp [State.onPair, hp, hr, hx, hc, ho, hu]

/-- A command acts on the pair whose pc it stands at. -/
theorem State.onRow_performs {s : State} {n : Nat} {p : Pair} {r : Running} {x : Step} {mv : Move} {i : Instr} (h : s.performs n p r x mv i)
    (go : Pair → Running → Step → State) : s.onRow n mv i go = go p r x := by
  obtain ⟨he, hs⟩ := h
  rw [State.onRow_eq s n mv i go p he.1 hs, State.onPair_executes he]

/-- The step of an executing program bears the number that the program names. -/
theorem State.step?_of_executes {s : State} {n : Nat} {p : Pair} {r : Running} {x : Step} (h : s.executes n p r x) : s.step? x.id = some x := by
  obtain ⟨-, -, hx, -⟩ := h
  have hid : x.id = r.step := by simpa using List.find?_some hx
  rw [hid, hx]

theorem State.instrDone_onlyCounters (s : State) (ctx : Nat) : (s.instrDone ctx).sameButCounters s := by
  unfold State.instrDone
  dsimp only
  split
  · exact ⟨rfl, fun _ _ => rfl⟩
  · exact ⟨rfl, fun _ _ => rfl⟩

theorem State.retired_onlyCounters (s : State) (n : Nat) (t : Step) (loom : Bool) : (s.retired n t loom).sameButCounters s := by
  have h1 : ((countEv s (workEv (dieNo (weftOf n)) 0x023 (some (n % 4)) 1 t)).instrDone t.ctx).sameButCounters s :=
    (State.instrDone_onlyCounters _ _).trans (countEv_onlyCounters s _ (dieNo_lt _))
  unfold State.retired
  dsimp only
  split
  · exact (countEv_onlyCounters _ _ (dieNo_lt _)).trans h1
  · exact h1

/-- A Loom control instruction that retires changes its pair, and nothing else but counters. -/
theorem State.doneLm_onlyPair {s : State} {n : Nat} {p : Pair} (h : s.pair? n = some p) (x : Step) (f : Pair → Pair) :
    (s.doneLm n x f).onlyPair s n p (f p.advance) :=
  State.onlyPair_of (f := fun q => f q.advance) h (State.retired_onlyCounters _ _ _ _)

/-- A standard instruction that retires changes its pair, and nothing else but counters. -/
theorem State.doneStd_onlyPair {s : State} {n : Nat} {p : Pair} (h : s.pair? n = some p) (x : Step) (f : Pair → Pair) :
    (s.doneStd n x f).onlyPair s n p (f p.advance) :=
  State.onlyPair_of (f := fun q => f q.advance) h (State.retired_onlyCounters _ _ _ _)

/-- The pair whose instruction wrote a register, whatever its program has run. -/
theorem Pair.wrote_setX (p : Pair) (rd : Nat) (v : Dword) (b : Bool) (g : Option Running) :
    (Pair.setX { p with pc := p.pc + 4, debugStep := b, run := g } rd v).wrote p rd v := by
  refine ⟨Pair.setX_pc _ _ _, fun hl i => Pair.getX_setX { p with pc := p.pc + 4, debugStep := b, run := g } hl rd i v, ?_⟩
  unfold Pair.setX
  split
  · rfl
  · rfl

/-- The pair whose instruction wrote no register. -/
theorem Pair.wrote_none (p : Pair) (b : Bool) (g : Option Running) :
    Pair.wrote { p with pc := p.pc + 4, debugStep := b, run := g } p 0 0 :=
  ⟨rfl, fun _ i => by simp; rfl, rfl⟩

theorem Pair.advance_wrote (p : Pair) : p.advance.wrote p 0 0 := Pair.wrote_none p _ _

theorem Pair.advance_setX_wrote (p : Pair) (rd : Nat) (v : Dword) : (p.advance.setX rd v).wrote p rd v := Pair.wrote_setX p rd v _ _

/-- A program fault kills the context of its step (R115). -/
theorem State.progFault_killed {s : State} {n : Nat} {x : Step} (h : s.killable x (weftSrc (weftOf n) (0x14 + n % 4))) (r : Running) (pc : Dword) :
    (s.progFault n x r pc).killed s x 3 (weftSrc (weftOf n) (0x14 + n % 4)) (cap (some x.ctx) (pairMaster n) 0 pc r.program) :=
  State.endCtx_killed h 3 _

end Machine

end Sys2Proof

namespace Sys2Proof

namespace Machine

set_option Elab.async false

/-! ### Waiting, latches and what a step is (R118, R119, R122) -/

theorem State.stallOn_onlyPair {s : State} {n : Nat} {p : Pair} (h : s.pair? n = some p) (x : Step) (k : Stall) :
    State.onlyPair { s.stallOn n x k with freshCtr := s.freshCtr } s n p { p.advance with stall := some k } := by
  have hd : (s.stallOn n x k).sameButDraws (s.modPair n (fun q => { q.advance with stall := some k })) :=
    (State.countFree_onlyDraws _ _ (dieNo_lt _)).trans (.of_counters (State.retired_onlyCounters _ _ _ _))
  exact State.onlyPair_of_draws (f := fun q => { q.advance with stall := some k }) h hd

/-- A pair that stalls at its pc has retired the instruction. -/
theorem Pair.stalled_wrote (p : Pair) (k : Option Stall) : Pair.wrote { { p.advance with stall := k } with stall := p.stall } p 0 0 :=
  Pair.wrote_none p _ _

theorem lmWait_passes {s : State} {n rs1 : Nat} {p : Pair} {r : Running} {x : Step} (h : s.performs n p r x Move.none (.lmWait n rs1))
    (hk : (s.weft (weftOf n)).tickets.contains ((p.getX rs1).toNat % 256) = false) :
    ∃ t q, exec (.lmWait n rs1) s = .next t ∧ t.onlyPair s n p q ∧ q.wrote p 0 0 := by
  refine ⟨s.doneLm n x id, p.advance, ?_, State.doneLm_onlyPair h.1.1 x id, p.advance_wrote⟩
  change execLmWait n rs1 s = _
  rw [execLmWait, State.onRow_performs h]
  dsimp only
  rw [if_neg (by rw [hk]; exact Bool.false_ne_true)]

theorem lmWait_stalls {s : State} {n rs1 : Nat} {p : Pair} {r : Running} {x : Step} (h : s.performs n p r x Move.none (.lmWait n rs1))
    (hk : (s.weft (weftOf n)).tickets.contains ((p.getX rs1).toNat % 256) = true) :
    ∃ t q, exec (.lmWait n rs1) s = .next t ∧ State.onlyPair { t with freshCtr := s.freshCtr } s n p q ∧
      q.stall = some (.ticket ((p.getX rs1).toNat % 256)) ∧ Pair.wrote { q with stall := p.stall } p 0 0 := by
  refine ⟨s.stallOn n x (.ticket ((p.getX rs1).toNat % 256)), _, ?_, State.stallOn_onlyPair h.1.1 x _, rfl, p.stalled_wrote _⟩
  change execLmWait n rs1 s = _
  rw [execLmWait, State.onRow_performs h]
  dsimp only
  rw [if_pos hk]

theorem lmSync_passes {s : State} {n : Nat} {p : Pair} {r : Running} {x : Step} (h : s.performs n p r x Move.none (.lmSync n))
    (hr : r.tickets = []) : ∃ t q, exec (.lmSync n) s = .next t ∧ t.onlyPair s n p q ∧ q.wrote p 0 0 := by
  refine ⟨s.doneLm n x id, p.advance, ?_, State.doneLm_onlyPair h.1.1 x id, p.advance_wrote⟩
  change execLmSync n s = _
  rw [execLmSync, State.onRow_performs h, hr]
  rfl

theorem lmSync_stalls {s : State} {n : Nat} {p : Pair} {r : Running} {x : Step} (h : s.performs n p r x Move.none (.lmSync n))
    (hr : r.tickets ≠ []) :
    ∃ t q, exec (.lmSync n) s = .next t ∧ State.onlyPair { t with freshCtr := s.freshCtr } s n p q ∧ q.stall = some .all ∧
      Pair.wrote { q with stall := p.stall } p 0 0 := by
  refine ⟨s.stallOn n x .all, _, ?_, State.stallOn_onlyPair h.1.1 x _, rfl, p.stalled_wrote _⟩
  change execLmSync n s = _
  rw [execLmSync, State.onRow_performs h, if_neg (by simpa using hr)]

/-- A latch instruction within the grant does what the holder of the latch asks for. -/
theorem exec_lmLacq {s : State} {n rd rs1 : Nat} {p : Pair} {r : Running} {x : Step} (h : s.performs n p r x Move.none (.lmLacq n rd rs1))
    (hg : s.latchGrant x r ((p.getX rs1).toNat % 2 ^ 12) = true) :
    exec (.lmLacq n rd rs1) s = .next (match lookupN s.latches ((p.getX rs1).toNat % 2 ^ 12) with
      | none => ({ s with latches := insertN s.latches ((p.getX rs1).toNat % 2 ^ 12) (.program x.ctx) }).doneLm n x (fun q => q.setX rd 1)
      | some k => s.doneLm n x (fun q => q.setX rd (if k = .program x.ctx then 1 else 0))) := by
  change execLmLacq n rd rs1 s = _
  rw [execLmLacq, State.onRow_performs h]
  dsimp only
  rw [hg]
  rfl

theorem State.modPair_latches (s : State) (n : Nat) (f : Pair → Pair) (ls : List (Nat × LatchHolder)) :
    State.modPair { s with latches := ls } n f = { s.modPair n f with latches := ls } := by
  unfold State.modPair
  split
  · cases weftOf n <;> rfl
  · rfl

/-- An instruction retires beside a change of the latches. -/
theorem State.doneLm_latches {s : State} {n : Nat} {p : Pair} (h : s.pair? n = some p) (x : Step) (f : Pair → Pair) (ls : List (Nat × LatchHolder)) :
    State.onlyPair { State.doneLm { s with latches := ls } n x f with latches := s.latches } s n p (f p.advance) ∧
      (State.doneLm { s with latches := ls } n x f).latches = ls := by
  have hd : (State.doneLm { s with latches := ls } n x f).sameButCounters { s.modPair n (fun q => f q.advance) with latches := ls } := by
    rw [← State.modPair_latches]
    exact State.retired_onlyCounters _ _ _ _
  have hl : s.latches = (s.modPair n (fun q => f q.advance)).latches :=
    (congrArg (fun u : State => u.latches) (s.modPair_onlyDies n _).symm :)
  refine ⟨State.onlyPair_of (f := fun q => f q.advance) h ⟨?_, hd.2⟩, (congrArg (fun u : State => u.latches) hd.1 :)⟩
  rw [hl]
  exact (congrArg (fun u : State => { u with latches := (s.modPair n (fun q => f q.advance)).latches }) hd.1 :)

theorem lmLacq_takes {s : State} {n rd rs1 l : Nat} {p : Pair} {r : Running} {x : Step} (h : s.performs n p r x Move.none (.lmLacq n rd rs1))
    (hl : l = (p.getX rs1).toNat % 2 ^ 12) (hg : s.latchGrant x r l = true) (hf : lookupN s.latches l = none) :
    ∃ t q, exec (.lmLacq n rd rs1) s = .next t ∧ State.onlyPair { t with latches := s.latches } s n p q ∧ q.wrote p rd 1 ∧
      ∀ i, lookupN t.latches i = if i = l then some (.program x.ctx) else lookupN s.latches i := by
  have he := exec_lmLacq h (hl ▸ hg)
  rw [← hl, hf] at he
  obtain ⟨ho, hls⟩ := State.doneLm_latches h.1.1 x (fun q => q.setX rd 1) (insertN s.latches l (.program x.ctx))
  refine ⟨_, _, he, ho, p.advance_setX_wrote rd 1, fun i => ?_⟩
  rw [hls, lookupN_insertN]
  simp only [eq_comm]

theorem lmLacq_held {s : State} {n rd rs1 l : Nat} {p : Pair} {r : Running} {x : Step} {k : LatchHolder}
    (h : s.performs n p r x Move.none (.lmLacq n rd rs1)) (hl : l = (p.getX rs1).toNat % 2 ^ 12) (hg : s.latchGrant x r l = true)
    (hf : lookupN s.latches l = some k) :
    ∃ t q, exec (.lmLacq n rd rs1) s = .next t ∧ t.onlyPair s n p q ∧ q.wrote p rd (if k = .program x.ctx then 1 else 0) := by
  have he := exec_lmLacq h (hl ▸ hg)
  rw [← hl, hf] at he
  exact ⟨_, _, he, State.doneLm_onlyPair h.1.1 x _, p.advance_setX_wrote rd _⟩

theorem exec_lmLrel {s : State} {n rs1 l : Nat} {p : Pair} {r : Running} {x : Step} (h : s.performs n p r x Move.none (.lmLrel n rs1))
    (hl : l = (p.getX rs1).toNat % 2 ^ 12) (hg : s.latchGrant x r l = true) :
    exec (.lmLrel n rs1) s = .next (State.doneLm
      (if lookupN s.latches l = some (.program x.ctx) then { s with latches := eraseN s.latches l } else s) n x id) := by
  subst hl
  change execLmLrel n rs1 s = _
  rw [execLmLrel, State.onRow_performs h]
  dsimp only
  rw [hg]
  rfl

theorem lmLrel_leaves {s : State} {n rs1 l : Nat} {p : Pair} {r : Running} {x : Step} (h : s.performs n p r x Move.none (.lmLrel n rs1))
    (hl : l = (p.getX rs1).toNat % 2 ^ 12) (hg : s.latchGrant x r l = true) (hf : lookupN s.latches l ≠ some (.program x.ctx)) :
    ∃ t q, exec (.lmLrel n rs1) s = .next t ∧ t.onlyPair s n p q ∧ q.wrote p 0 0 := by
  have he := exec_lmLrel h hl hg
  rw [if_neg hf] at he
  exact ⟨_, _, he, State.doneLm_onlyPair h.1.1 x id, p.advance_wrote⟩

theorem lmLrel_frees {s : State} {n rs1 l : Nat} {p : Pair} {r : Running} {x : Step} (h : s.performs n p r x Move.none (.lmLrel n rs1))
    (hl : l = (p.getX rs1).toNat % 2 ^ 12) (hg : s.latchGrant x r l = true) (hf : lookupN s.latches l = some (.program x.ctx)) :
    ∃ t q, exec (.lmLrel n rs1) s = .next t ∧ State.onlyPair { t with latches := s.latches } s n p q ∧ q.wrote p 0 0 ∧
      ∀ i, lookupN t.latches i = if i = l then none else lookupN s.latches i := by
  have he := exec_lmLrel h hl hg
  rw [if_pos hf] at he
  obtain ⟨ho, hls⟩ := State.doneLm_latches h.1.1 x id (eraseN s.latches l)
  refine ⟨_, _, he, ho, p.advance_wrote, fun i => ?_⟩
  rw [hls, lookupN_eraseN]
  simp only [eq_comm]

/-- A latch instruction outside the grant is a program fault (R122, R154). -/
theorem latch_faults {s : State} {n rd rs1 : Nat} {i : Instr} {p : Pair} {r : Running} {x : Step} (hi : i = .lmLacq n rd rs1 ∨ i = .lmLrel n rs1)
    (h : s.performs n p r x Move.none i) (hg : s.latchGrant x r ((p.getX rs1).toNat % 2 ^ 12) = false) :
    exec i s = .next (s.progFault n x r p.pc) := by
  rcases hi with rfl | rfl
  · change execLmLacq n rd rs1 s = _
    rw [execLmLacq, State.onRow_performs h]
    dsimp only
    rw [hg]
    rfl
  · change execLmLrel n rs1 s = _
    rw [execLmLrel, State.onRow_performs h]
    dsimp only
    rw [hg]
    rfl

/-- lm.rd reads what its selector names of the step, and 0 beyond the list. -/
theorem lmRd_reads {s : State} {n rd sel : Nat} {p : Pair} {r : Running} {x : Step} (h : s.performs n p r x Move.none (.lmRd n rd sel)) :
    ∃ v, exec (.lmRd n rd sel) s = .next (s.doneLm n x (fun q => q.setX rd v)) ∧ (sel = 0 → v = BitVec.ofNat 64 x.ctx) ∧
      (sel = 1 → v = x.counter) ∧ (sel = 2 → x.batch = true → v = BitVec.ofNat 64 x.batchIndex) ∧ (sel = 4 → v = x.seed) ∧
      (sel = 3 → v = BitVec.ofNat 64 (s.stepSubst x)) ∧ (sel = 5 → v = BitVec.ofNat 64 s.mode) ∧ (sel = 6 → v = if weftOf n = .a then 0 else 1) ∧
      (7 ≤ sel → v = 0) := by
  have hrow : execLmRd n rd sel s = _ := congrArg Host.Outcome.next (State.onRow_performs h _)
  refine ⟨_, hrow, ?_, ?_, ?_, ?_, ?_, ?_, ?_, ?_⟩
  · rintro rfl; rfl
  · rintro rfl; rfl
  · rintro rfl hb
    change BitVec.ofNat 64 (if x.batch then x.batchIndex else 0) = _
    rw [hb]
    rfl
  · rintro rfl; rfl
  · rintro rfl; rfl
  · rintro rfl; rfl
  · rintro rfl
    cases weftOf n <;> rfl
  · intro hs
    obtain ⟨k, rfl⟩ := Nat.exists_eq_add_of_le' hs
    rfl

/-! ### Hinges (R121) -/

/-- Pairs that a step's program runs on go on; every other pair stays. -/
theorem WeftDie.passHinge_pair {w : WeftDie} {i : Nat} {q : Pair} (h : w.pairs[i]? = some q) (id : Nat) :
    (w.passHinge id).pairs[i]? = some (if q.runs id then { q with stall := none } else q) := by
  simp only [WeftDie.passHinge, List.getElem?_map, h]
  rfl

/-- A step that is alone passes its hinge, or waits for its other die: its pairs may go on, and nothing else but a progress counter moves. -/
theorem State.tryHinge_alone {s : State} {x : Step} (hs : s.steps = [x]) (hx : x.stage = .running) :
    s.tryHinge x.id = s ∨ s.tryHinge x.id = State.progress { s with wa := s.wa.passHinge x.id, wb := s.wb.passHinge x.id } (monKey .context x.ctx 0) := by
  simp only [State.tryHinge, State.step?_single hs, hx, ne_eq, not_true, if_false, State.preemptor_running hs hx]
  split
  · exact .inl rfl
  · exact .inr rfl

theorem State.weft_passHinge (s : State) (id : Nat) (k : Nat) (d : Weft) :
    (State.progress { s with wa := s.wa.passHinge id, wb := s.wb.passHinge id } k).weft d = (s.weft d).passHinge id := by cases d <;> rfl

/-- A reported hinge is passed at once or waited at, with every register of the pair intact. -/
theorem State.tryHinge_pair {s : State} {x : Step} {n : Nat} {q : Pair} (hs : s.steps = [x]) (hx : x.stage = .running) (hq : s.pair? n = some q) :
    ((s.tryHinge x.id).pair? n = some q ∨ (s.tryHinge x.id).pair? n = some { q with stall := none }) ∧ (s.tryHinge x.id).steps = s.steps ∧
      State.sameButCounters { s.tryHinge x.id with wa := s.wa, wb := s.wb } s := by
  rcases State.tryHinge_alone hs hx with h | h
  · rw [h]
    exact ⟨.inl hq, rfl, .refl s⟩
  · rw [h]
    refine ⟨?_, rfl, rfl, fun _ _ => rfl⟩
    obtain ⟨hn, hw⟩ := State.pair?_weft hq
    have hp := WeftDie.passHinge_pair hw x.id
    rw [← State.weft_passHinge s x.id (monKey .context x.ctx 0)] at hp
    rw [State.pair?_of_weft hn hp]
    split
    · exact .inr rfl
    · exact .inl rfl

/-- The hinge that an instruction names exists: the context is killed where it holds a latch, and else the program waits there (R121). -/
theorem exec_lmHinge {s : State} {n rs1 : Nat} {p : Pair} {r : Running} {x : Step} (h : s.performs n p r x Move.none (.lmHinge n rs1))
    (hl : (p.getX rs1).toNat % 2 ^ 14 < (s.stepDraft x).hinges.length) :
    exec (.lmHinge n rs1) s = .next (if s.latches.any (fun l => decide (l.2 = .program x.ctx)) then
        (s.endCtx x.ctx 3).raise (weftSrc (weftOf n) 0x1E) (cap (some x.ctx) (pairMaster n) 0 0 0)
      else (s.doneLm n x (fun q => { q with stall := some (.hinge ((p.getX rs1).toNat % 2 ^ 14)) })).tryHinge x.id) := by
  change execLmHinge n rs1 s = _
  rw [execLmHinge, State.onRow_performs h]
  dsimp only
  rw [if_neg (Nat.not_le.mpr hl)]

theorem lmHinge_waits {s : State} {n rs1 : Nat} {p : Pair} {r : Running} {x : Step} (h : s.performs n p r x Move.none (.lmHinge n rs1))
    (hx : x.stage = .running) (hs : s.steps = [x]) (hl : (p.getX rs1).toNat % 2 ^ 14 < (s.stepDraft x).hinges.length)
    (hf : ∀ l ∈ s.latches, l.2 ≠ .program x.ctx) :
    ∃ t q, exec (.lmHinge n rs1) s = .next t ∧ t.pair? n = some q ∧ Pair.wrote { q with stall := p.stall } p 0 0 ∧
      (q.stall = none ∨ q.stall = some (.hinge ((p.getX rs1).toNat % 2 ^ 14))) ∧ t.steps = s.steps ∧
      State.sameButCounters { t with wa := s.wa, wb := s.wb } s := by
  have he := exec_lmHinge h hl
  rw [if_neg (by simpa using fun a ha => hf (a, _) ha rfl)] at he
  have hd := State.doneLm_onlyPair h.1.1 x (fun q => { q with stall := some (.hinge ((p.getX rs1).toNat % 2 ^ 14)) })
  generalize s.doneLm n x (fun q => { q with stall := some (.hinge ((p.getX rs1).toNat % 2 ^ 14)) }) = u at he hd
  have hfr := hd.diesAside
  have hus : u.steps = s.steps := (congrArg (fun v : State => v.steps) hfr.1 :)
  obtain ⟨hp, hts, htc⟩ := State.tryHinge_pair (hus.trans hs) hx hd.1
  have htf : State.sameButCounters { u.tryHinge x.id with wa := s.wa, wb := s.wb } s :=
    State.sameButCounters.trans (b := { u with wa := s.wa, wb := s.wb })
      ⟨(congrArg (fun v : State => { v with wa := s.wa, wb := s.wb }) htc.1 :), htc.2⟩ hfr
  rcases hp with hp | hp
  · exact ⟨_, _, he, hp, p.stalled_wrote _, .inr rfl, hts.trans hus, htf⟩
  · exact ⟨_, _, he, hp, p.stalled_wrote none, .inl rfl, hts.trans hus, htf⟩

theorem lmHinge_faults {s : State} {n rs1 : Nat} {p : Pair} {r : Running} {x : Step} (h : s.performs n p r x Move.none (.lmHinge n rs1))
    (hl : (s.stepDraft x).hinges.length ≤ (p.getX rs1).toNat % 2 ^ 14) : exec (.lmHinge n rs1) s = .next (s.progFault n x r p.pc) := by
  change execLmHinge n rs1 s = _
  rw [execLmHinge, State.onRow_performs h]
  dsimp only
  rw [if_pos hl]

/-- Settles O46, instruction by instruction: each reads what it waits for or names, and retires on its pair alone. -/
theorem loomInstructionsWaitAndRead : Obligations.LoomInstructionsWaitAndRead := by
  unfold Obligations.LoomInstructionsWaitAndRead
  refine ⟨?_, ?_, ?_, ?_, ?_, ?_, ?_, ?_, ?_, ?_⟩
  · exact fun n rs1 p r x s h hk => lmWait_passes h hk
  · exact fun n rs1 p r x s h hk => lmWait_stalls h hk
  · exact fun n p r x s h hr => lmSync_passes h hr
  · exact fun n p r x s h hr => lmSync_stalls h hr
  · intro n rd rs1 l p r x s he hl hg
    refine ⟨fun hf hp => lmLacq_takes ⟨he, hp⟩ hl hg hf, fun hf hp => ?_, fun k hf hk hp => ?_,
      fun hf hp => lmLrel_leaves ⟨he, hp⟩ hl hg hf, fun hf hp => lmLrel_frees ⟨he, hp⟩ hl hg hf⟩
    · simpa using lmLacq_held ⟨he, hp⟩ hl hg hf
    · simpa [hk] using lmLacq_held ⟨he, hp⟩ hl hg hf
  · intro n rd rs1 i p r x s hi h hg hk
    exact ⟨_, latch_faults hi h hg, State.progFault_killed hk r p.pc⟩
  · intro n rd sel p r x s h
    obtain ⟨v, hex, hv⟩ := lmRd_reads h
    exact ⟨_, _, v, hex, State.doneLm_onlyPair h.1.1 x _, p.advance_setX_wrote rd v, hv⟩
  · exact fun n rs1 p r x s h hx hs hl hf => lmHinge_waits h hx hs hl hf
  · intro n rs1 p r x s h hl hf hk
    have he := exec_lmHinge h hl
    rw [if_pos (by simpa using hf)] at he
    exact ⟨_, he, State.endCtx_killed hk 3 _⟩
  · intro n rs1 p r x s h hl hk
    exact ⟨_, lmHinge_faults h hl, State.progFault_killed hk r p.pc⟩

end Machine

end Sys2Proof

namespace Sys2Proof

namespace Machine

set_option Elab.async false

/-! ### Tickets and issue queues (R118, R119) -/

/-- A free ticket is picked while one is left. -/
theorem State.pickTicket_free {s : State} {d : Weft} (h : ∃ k, k < 256 ∧ (s.weft d).tickets.contains k = false) :
    ∃ k, k < 256 ∧ (s.weft d).tickets.contains k = false ∧ s.pickTicket d = some k := by
  have hmem : ∀ k, k ∈ (List.range 256).filter (fun k => !(s.weft d).tickets.contains k) ↔ k < 256 ∧ (s.weft d).tickets.contains k = false :=
    fun k => by rw [List.mem_filter, List.mem_range, Bool.not_eq_true']
  obtain ⟨j, hj⟩ := h
  unfold State.pickTicket
  dsimp only
  generalize (List.range 256).filter (fun k => !(s.weft d).tickets.contains k) = free at hmem
  have hpos : 0 < free.length := List.length_pos_of_mem ((hmem j).mpr hj)
  have hlt : (Config.freeDword s.freshCtr).toNat % max 1 free.length < free.length := by
    rw [max_eq_right hpos]
    exact Nat.mod_lt _ hpos
  obtain ⟨h1, h2⟩ := (hmem _).mp (List.getElem_mem hlt)
  exact ⟨_, h1, h2, List.getElem?_eq_getElem hlt⟩

/-- A program that holds one more ticket. -/
def Pair.takesTicket (rd k : Nat) (p : Pair) : Pair :=
  ({ p with run := p.run.map (fun (x : Running) => { x with tickets := x.tickets ++ [k] }) }).setX rd (BitVec.ofNat 64 k)

/-- A die with one more ticket in flight. -/
def WeftDie.addTicket (k : Nat) (w : WeftDie) : WeftDie := { w with tickets := w.tickets ++ [k] }

/-- The state in which pair n has issued with ticket k, its operation not yet put where it belongs. -/
def State.ticketed (s : State) (n rd : Nat) (x : Step) (k : Nat) : State :=
  (({ s with freshCtr := s.freshCtr + 1 } : State).modWeft (weftOf n) (WeftDie.addTicket k)).doneLm n x (Pair.takesTicket rd k)

/-- A pair with tickets left that meets a queue with room issues with a free ticket. -/
theorem State.issue_free {s : State} {n rd : Nat} (x : Step) {full : Bool} (put : Nat → State → State) (hf : full = false)
    (ht : s.pairTickets n < 64) (hk : ∃ k, k < 256 ∧ (s.weft (weftOf n)).tickets.contains k = false) :
    ∃ k, k < 256 ∧ (s.weft (weftOf n)).tickets.contains k = false ∧ s.issue n rd x full put = put k (s.ticketed n rd x k) := by
  obtain ⟨k, h1, h2, h3⟩ := State.pickTicket_free hk
  refine ⟨k, h1, h2, ?_⟩
  unfold State.issue
  dsimp only
  rw [if_neg (by simpa [hf] using ht), h3]
  rfl

/-- A pair at 64 tickets, or one that meets a full queue, stalls: it only counts the clock. -/
theorem State.issue_stalls {s : State} {n : Nat} (rd : Nat) (x : Step) {full : Bool} (put : Nat → State → State)
    (h : 64 ≤ s.pairTickets n ∨ full = true) : (s.issue n rd x full put).sameButDraws s := by
  unfold State.issue
  dsimp only
  rw [if_pos (by rcases h with h | h <;> simp [h])]
  exact State.countFree_onlyDraws s _ (dieNo_lt _)

/-- t is s after pair n (p) has taken ticket k into rd: the queues of its die, its other pairs and the other die are as they were. -/
structure State.Issuing (t s : State) (n : Nat) (p : Pair) (rd k : Nat) : Prop where
  tickets : (t.weft (weftOf n)).tickets = (s.weft (weftOf n)).tickets ++ [k]
  pair : ∃ q, t.pair? n = some q ∧ q.wrote p rd (BitVec.ofNat 64 k)
  others : ∀ i, i ≠ n % 4 → (t.weft (weftOf n)).pairs[i]? = (s.weft (weftOf n)).pairs[i]?
  queues : ∀ u, (t.weft (weftOf n)).queue u = (s.weft (weftOf n)).queue u
  other : t.weft (otherDie (weftOf n)) = s.weft (otherDie (weftOf n))
  rest : t.sameButDies s

theorem WeftDie.queue_addTicket (k : Nat) (l : List Pair) (w : WeftDie) (u : OpUnit) :
    WeftDie.queue { w.addTicket k with pairs := l } u = w.queue u := by cases u <;> rfl

theorem State.ticketed_issuing {s : State} {n : Nat} {p : Pair} (h : s.pair? n = some p) (rd : Nat) (x : Step) (k : Nat) :
    (s.ticketed n rd x k).Issuing s n p rd k := by
  obtain ⟨hn, hp⟩ := State.pair?_weft h
  have hc : (s.ticketed n rd x k).sameButCounters (({ s with freshCtr := s.freshCtr + 1 } : State).modWeft (weftOf n)
      (fun w => { w.addTicket k with pairs := modAt w.pairs (n % 4) (fun q => (Pair.advance q).takesTicket rd k) })) := by
    have hr := State.retired_onlyCounters (((({ s with freshCtr := s.freshCtr + 1 } : State).modWeft (weftOf n) (WeftDie.addTicket k)).modPair n
      (fun q => (Pair.advance q).takesTicket rd k))) n x true
    rw [State.modPair_eq _ hn, State.modWeft_modWeft] at hr
    rw [State.ticketed, State.doneLm, State.modPair_eq _ hn, State.modWeft_modWeft]
    exact hr
  generalize s.ticketed n rd x k = t at hc
  have hd : t.weft (weftOf n) = { (s.weft (weftOf n)).addTicket k with
      pairs := modAt (s.weft (weftOf n)).pairs (n % 4) (fun q => (Pair.advance q).takesTicket rd k) } := by
    rw [hc.weft, State.weft_modWeft]
    cases weftOf n <;> rfl
  have ho : t.weft (otherDie (weftOf n)) = s.weft (otherDie (weftOf n)) := by
    rw [hc.weft, State.weft_modWeft_other]
    cases weftOf n <;> rfl
  refine ⟨by rw [hd]; rfl, ⟨p.advance.takesTicket rd k, State.pair?_of_weft hn ?_, Pair.wrote_setX p rd _ _ _⟩, fun i hi => ?_,
    fun u => by rw [hd, WeftDie.queue_addTicket], ho, ?_⟩
  · rw [hd]
    simp [getElem?_modAt, hp]
  · rw [hd]
    simp [getElem?_modAt, hi]
  · refine (State.sameButDraws.dies (.of_counters hc)).trans ((State.modWeft_onlyDies _ _ _).trans ?_)
    exact ⟨rfl, fun _ _ => rfl⟩

theorem WeftDie.queue_setQueue (w : WeftDie) (u : OpUnit) (q : List Op) : (w.setQueue u q).queue u = q := by cases u <;> rfl

theorem WeftDie.setQueue_frame (w : WeftDie) (u : OpUnit) (q : List Op) :
    (w.setQueue u q).tickets = w.tickets ∧ (w.setQueue u q).pairs = w.pairs := by cases u <;> exact ⟨rfl, rfl⟩

/-- An operation goes to its unit's queue with the ticket that the pair took. -/
theorem State.Issuing.queues_op {t s : State} {n : Nat} {p : Pair} {rd k : Nat} (h : t.Issuing s n p rd k) (hk : k < 256)
    (hf : (s.weft (weftOf n)).tickets.contains k = false) (u : OpUnit) (op : Nat → Op) :
    (t.pushOp (weftOf n) u (op k)).issued s n p rd (fun j v => (v.weft (weftOf n)).queue u = (s.weft (weftOf n)).queue u ++ [op j] ∧ v.sameButDies t ∧
      v.sameButDies s) := by
  obtain ⟨hq, hx⟩ := WeftDie.setQueue_frame (t.weft (weftOf n)) u ((t.weft (weftOf n)).queue u ++ [op k])
  have hw : (t.pushOp (weftOf n) u (op k)).weft (weftOf n) = (t.weft (weftOf n)).setQueue u ((t.weft (weftOf n)).queue u ++ [op k]) :=
    State.weft_modWeft t (weftOf n) _
  have hd : (t.pushOp (weftOf n) u (op k)).sameButDies t := State.modWeft_onlyDies t _ _
  obtain ⟨q, hp, hwr⟩ := h.pair
  refine ⟨k, q, hk, hf, by rw [hw, hq, h.tickets], ?_, hwr, ?_, ?_, hd, hd.trans h.rest⟩
  · exact (State.pair?_congr ((congrArg WeftDie.pairs hw).trans hx)).trans hp
  · rw [← h.other]
    exact State.weft_modWeft_other t (weftOf n) _
  · rw [hw, WeftDie.queue_setQueue, h.queues]

/-- What waits for an issued operation may be said otherwise. -/
theorem State.issued.mono {t s : State} {n : Nat} {p : Pair} {rd : Nat} {P Q : Nat → State → Prop} (h : t.issued s n p rd P)
    (hPQ : ∀ k, P k t → Q k t) : t.issued s n p rd Q := by
  obtain ⟨k, q, h1, h2, h3, h4, h5, h6, h7⟩ := h
  exact ⟨k, q, h1, h2, h3, h4, h5, h6, hPQ k h7⟩

end Machine

end Sys2Proof

namespace Sys2Proof

namespace Machine

set_option Elab.async false

/-! ### Layers, copies and moves are queued (R118, R123, R257) -/

theorem State.sameButDies.stepDraft {t s : State} (h : t.sameButDies s) (x : Step) : t.stepDraft x = s.stepDraft x := by
  have hd : t.drafts = s.drafts := (congrArg (fun u : State => u.drafts) h.1 :)
  simp only [State.stepDraft, State.stepEntry, State.entry?, hd]

theorem State.sameButDies.reg {t s : State} (h : t.sameButDies s) {o : Nat} (ho : isOverflowReg o = false) : t.reg o = s.reg o := h.2 o ho

theorem State.sameButDies.holdUs {t s : State} (h : t.sameButDies s) : t.holdUs = s.holdUs := by
  simp only [State.holdUs, h.reg (o := oGatherCtl) (by decide)]

theorem State.sameButDies.det {t s : State} (h : t.sameButDies s) : t.det = s.det := by
  simp only [State.det, h.reg (o := oDeterminism) (by decide)]

theorem State.sameButDies.sched {t s : State} (h : t.sameButDies s) : t.sched = s.sched := (congrArg (fun u : State => u.sched) h.1 :)

/-- The member of an operation that a pair issues for a step. -/
def Step.asks (x : Step) (n rows k : Nat) : OpMember := { step := x.id, pair := n, ticket := k, rows := rows }

/-- The layer instruction of a unit. -/
def layerInstr (u : OpUnit) (n rd rs1 : Nat) : Instr :=
  match u with
  | .array => .lmOp n rd rs1
  | .reed => .lmReed n rd rs1
  | .finish => .lmFin n rd rs1
  | .stage => .lmStage n rd rs1 0

/-- Where the request of a layer instruction goes: an array layer's to the gather windows, every other one into its unit's queue. -/
def State.putLayer (s : State) (n l : Nat) (u : OpUnit) (x : Step) (k : Nat) (v : State) : State :=
  if u = .array then v.request (weftOf n) x l (x.asks n ((s.stepDraft x).layer l).m k)
  else v.pushOp (weftOf n) u (x.opOf n (.layer l) ((s.stepDraft x).layer l).m k)

theorem exec_layerInstr {s : State} {n rd rs1 : Nat} {u : OpUnit} {p : Pair} {r : Running} {x : Step} (hu : u ≠ .stage)
    (h : s.performs n p r x Move.none (layerInstr u n rd rs1)) :
    exec (layerInstr u n rd rs1) s = .next (if !(decide ((p.getX rs1).toNat % 2 ^ 14 < (s.stepDraft x).layers.length) &&
        decide (((s.stepDraft x).layer ((p.getX rs1).toNat % 2 ^ 14)).unit = u)) then s.progFault n x r p.pc
      else s.issue n rd x (s.queueFull (weftOf n) u) (s.putLayer n ((p.getX rs1).toNat % 2 ^ 14) u x)) := by
  have hi : exec (layerInstr u n rd rs1) s = .next (s.issueLayer n rd rs1 u (layerInstr u n rd rs1)) := by
    cases u with
    | stage => exact absurd rfl hu
    | array => rfl
    | reed => rfl
    | finish => rfl
  rw [hi, State.issueLayer, State.onRow_performs h]
  rfl

/-- A layer instruction of the layer's unit issues. -/
theorem exec_layerInstr_issues {s : State} {n rd rs1 l : Nat} {u : OpUnit} {p : Pair} {r : Running} {x : Step} (hs : u ≠ .stage)
    (h : s.performs n p r x Move.none (layerInstr u n rd rs1)) (hl : l = (p.getX rs1).toNat % 2 ^ 14)
    (hlt : l < (s.stepDraft x).layers.length) (hu : ((s.stepDraft x).layer l).unit = u) :
    exec (layerInstr u n rd rs1) s = .next (s.issue n rd x (s.queueFull (weftOf n) u) (s.putLayer n l u x)) := by
  rw [exec_layerInstr hs h, ← hl, if_neg (by simp [hlt, hu])]

/-- A layer that is absent is a program fault. -/
theorem exec_layerInstr_faults {s : State} {n rd rs1 : Nat} {u : OpUnit} {p : Pair} {r : Running} {x : Step} (hs : u ≠ .stage)
    (h : s.performs n p r x Move.none (layerInstr u n rd rs1)) (hl : (s.stepDraft x).layers.length ≤ (p.getX rs1).toNat % 2 ^ 14) :
    exec (layerInstr u n rd rs1) s = .next (s.progFault n x r p.pc) := by
  rw [exec_layerInstr hs h, if_pos (by rw [decide_eq_false (Nat.not_lt.mpr hl)]; rfl)]

/-- What an issue gives: the operation waits in its unit's queue. -/
abbrev State.queuedOp (s : State) (n : Nat) (u : OpUnit) (op : Nat → Op) (k : Nat) (v : State) : Prop :=
  (v.weft (weftOf n)).queue u = (s.weft (weftOf n)).queue u ++ [op k] ∧ v.sameButDies s

/-- A free issue that queues an operation. -/
theorem State.issue_queues {s : State} {n rd : Nat} {p : Pair} (hp : s.pair? n = some p) (x : Step) {u : OpUnit} {op : Nat → Op} {full : Bool}
    {put : Nat → State → State} (hput : ∀ k v, v.sameButDies s → put k v = v.pushOp (weftOf n) u (op k)) (hf : full = false)
    (ht : s.pairTickets n < 64) (hk : ∃ k, k < 256 ∧ (s.weft (weftOf n)).tickets.contains k = false) :
    (s.issue n rd x full put).issued s n p rd (s.queuedOp n u op) := by
  obtain ⟨k, h1, h2, he⟩ := State.issue_free x put hf ht hk
  have hi := State.ticketed_issuing hp rd x k
  rw [he, hput k _ hi.rest]
  exact (hi.queues_op h1 h2 u op).mono fun j hj => ⟨hj.1, hj.2.2⟩

/-- A Reed or Finish layer is queued. -/
theorem layer_queues {s : State} {n rd rs1 l : Nat} {u : OpUnit} {p : Pair} {r : Running} {x : Step} (hs : u ≠ .stage) (ha : u ≠ .array)
    (h : s.performs n p r x Move.none (layerInstr u n rd rs1)) (hl : l = (p.getX rs1).toNat % 2 ^ 14)
    (hlt : l < (s.stepDraft x).layers.length) (hu : ((s.stepDraft x).layer l).unit = u) (hq : s.queueFull (weftOf n) u = false)
    (ht : s.pairTickets n < 64) (hk : ∃ k, k < 256 ∧ (s.weft (weftOf n)).tickets.contains k = false) :
    ∃ t, exec (layerInstr u n rd rs1) s = .next t ∧
      t.issued s n p rd (s.queuedOp n u (x.opOf n (.layer l) ((s.stepDraft x).layer l).m)) := by
  refine ⟨_, exec_layerInstr_issues hs h hl hlt hu, State.issue_queues h.1.1 x (fun k v _ => ?_) hq ht hk⟩
  rw [State.putLayer, if_neg ha]

/-- A request that gathers with none goes to the array queue at once (R101, R535). -/
theorem State.request_alone {s : State} {d : Weft} {x : Step} {l : Nat} {m : OpMember}
    (h : ((s.stepDraft x).layer l).gatherable = false ∨ x.on (otherDie d) = false ∧ (s.holdUs = 0 ∨
      (s.stepDraft x).gatherTarget ((s.stepDraft x).layer l) ≤ m.rows)) :
    s.request d x l m = s.pushOp d .array { entry := x.entry, kind := .layer l, members := [m], pass := 0 } := by
  unfold State.request
  dsimp only
  rw [if_pos]
  rcases h with h | ⟨ho, h | h⟩
  · simp [h]
  · simp [ho, h]
  · simp [ho, h]

theorem lmOp_queues {s : State} {n rd rs1 l : Nat} {p : Pair} {r : Running} {x : Step}
    (h : s.performs n p r x Move.none (.lmOp n rd rs1)) (hl : l = (p.getX rs1).toNat % 2 ^ 14)
    (hlt : l < (s.stepDraft x).layers.length) (hu : ((s.stepDraft x).layer l).unit = .array) (hq : s.queueFull (weftOf n) .array = false)
    (ht : s.pairTickets n < 64) (hk : ∃ k, k < 256 ∧ (s.weft (weftOf n)).tickets.contains k = false)
    (ha : ((s.stepDraft x).layer l).gatherable = false ∨ x.on (otherDie (weftOf n)) = false ∧ (s.holdUs = 0 ∨
      (s.stepDraft x).gatherTarget ((s.stepDraft x).layer l) ≤ ((s.stepDraft x).layer l).m)) :
    ∃ t, exec (.lmOp n rd rs1) s = .next t ∧
      t.issued s n p rd (s.queuedOp n .array (x.opOf n (.layer l) ((s.stepDraft x).layer l).m)) := by
  refine ⟨_, exec_layerInstr_issues (u := .array) (by decide) h hl hlt hu, State.issue_queues h.1.1 x (fun k v hv => ?_) hq ht hk⟩
  rw [State.putLayer, if_pos rfl, State.request_alone (by rw [hv.stepDraft, hv.holdUs]; exact ha)]
  rfl

/-- The gather window that a request opens (R100, R101). -/
def State.firstWindow (s : State) (d : Weft) (x : Step) (l : Nat) (m : OpMember) : Window :=
  { entry := x.entry, layer := l, lc := x.lc, group := none, openTime := s.time.now,
    limitUs := if x.lc then min s.holdUs x.holdUs else s.holdUs, members := [m], asked := [(d, m)] }

/-- The state with its one gather window. -/
def State.withWindow (s : State) (w : Window) : State := { s with sched := { s.sched with windows := [w] } }

theorem State.groupFull_none (s : State) {w : Window} (h : w.group = none) : s.groupFull w = false := by simp only [State.groupFull, h]

/-- A request below the gather target opens the first window. -/
theorem State.request_opens {s : State} {d : Weft} {x : Step} {l : Nat} {m : OpMember} (hh : s.holdUs ≠ 0) (hd : s.det = false)
    (hg : ((s.stepDraft x).layer l).gatherable = true) (hm : m.rows < (s.stepDraft x).gatherTarget ((s.stepDraft x).layer l))
    (hw : s.sched.windows = []) : s.request d x l m = s.withWindow (s.firstWindow d x l m) := by
  have hr : decide ((s.stepDraft x).gatherTarget ((s.stepDraft x).layer l) ≤ (s.firstWindow d x l m).rows) = false := by
    simpa [Window.rows, State.firstWindow] using hm
  have hj : s.joinWindow ((s.stepDraft x).gatherTarget ((s.stepDraft x).layer l)) (s.firstWindow d x l m) =
      s.withWindow (s.firstWindow d x l m) := by
    unfold State.joinWindow
    dsimp only
    rw [hr, Bool.and_false, Bool.false_or, State.groupFull_none _ rfl, if_neg Bool.false_ne_true, hw]
    rfl
  rw [← hj]
  simp [State.request, State.fixedFor, hh, hd, hg, hw, Nat.not_le.mpr hm, State.firstWindow]

/-- The first request of a gatherable layer waits in a gather window. -/
theorem lmOp_gathers {s : State} {n rd rs1 l : Nat} {p : Pair} {r : Running} {x : Step}
    (h : s.performs n p r x Move.none (.lmOp n rd rs1)) (hl : l = (p.getX rs1).toNat % 2 ^ 14)
    (hlt : l < (s.stepDraft x).layers.length) (hu : ((s.stepDraft x).layer l).unit = .array) (hq : s.queueFull (weftOf n) .array = false)
    (ht : s.pairTickets n < 64) (hk : ∃ k, k < 256 ∧ (s.weft (weftOf n)).tickets.contains k = false) (hh : s.holdUs ≠ 0) (hd : s.det = false)
    (hg : ((s.stepDraft x).layer l).gatherable = true)
    (hm : ((s.stepDraft x).layer l).m < (s.stepDraft x).gatherTarget ((s.stepDraft x).layer l)) (hw : s.sched.windows = []) :
    ∃ t, exec (.lmOp n rd rs1) s = .next t ∧
      t.issued s n p rd (fun k u => (u.weft (weftOf n)).arrayQ = (s.weft (weftOf n)).arrayQ ∧
        u.sched.windows = [s.firstWindow (weftOf n) x l (x.asks n ((s.stepDraft x).layer l).m k)] ∧
        State.sameButDies { u with sched := s.sched } s) := by
  obtain ⟨k, h1, h2, he⟩ := State.issue_free x (s.putLayer n l .array x) (rd := rd) hq ht hk
  have hi := State.ticketed_issuing h.1.1 rd x k
  have hx := exec_layerInstr_issues (u := .array) (by decide) h hl hlt hu
  rw [he] at hx
  generalize s.ticketed n rd x k = v at hx hi
  obtain ⟨q, hq1, hq2⟩ := hi.pair
  have hwin : s.putLayer n l .array x k v = v.withWindow (s.firstWindow (weftOf n) x l (x.asks n ((s.stepDraft x).layer l).m k)) := by
    have hf : v.firstWindow (weftOf n) x l (x.asks n ((s.stepDraft x).layer l).m k) =
        s.firstWindow (weftOf n) x l (x.asks n ((s.stepDraft x).layer l).m k) := by
      have hn : v.time.now = s.time.now := (congrArg (fun u : State => u.time.now) hi.rest.1 :)
      simp only [State.firstWindow, hi.rest.holdUs, hn]
    rw [State.putLayer, if_pos rfl, State.request_opens (by rw [hi.rest.holdUs]; exact hh) (by rw [hi.rest.det]; exact hd)
      (by rw [hi.rest.stepDraft]; exact hg) (by rw [hi.rest.stepDraft]; exact hm) (by rw [hi.rest.sched]; exact hw), hf]
  rw [hwin] at hx
  have hwt : ∀ (w : Window) (e : Weft), (v.withWindow w).weft e = v.weft e := fun w e => by cases e <;> rfl
  refine ⟨_, hx, k, q, h1, h2, ?_, hq1, hq2, ?_, ?_, rfl, ?_⟩
  · rw [hwt, hi.tickets]
  · rw [hwt, hi.other]
  · rw [hwt]
    exact hi.queues .array
  · exact ⟨(congrArg (fun u : State => { u with sched := s.sched }) hi.rest.1 :), hi.rest.2⟩

/-- A layer instruction that meets a full queue, or whose pair bears 64 tickets, stalls. -/
theorem layer_stalls {s : State} {n rd rs1 l : Nat} {u : OpUnit} {p : Pair} {r : Running} {x : Step} (hs : u ≠ .stage)
    (h : s.performs n p r x Move.none (layerInstr u n rd rs1)) (hl : l = (p.getX rs1).toNat % 2 ^ 14)
    (hlt : l < (s.stepDraft x).layers.length) (hu : ((s.stepDraft x).layer l).unit = u)
    (hf : 64 ≤ s.pairTickets n ∨ s.queueFull (weftOf n) u = true) :
    ∃ t, exec (layerInstr u n rd rs1) s = .next t ∧ State.sameButCounters { t with freshCtr := s.freshCtr } s :=
  ⟨_, exec_layerInstr_issues hs h hl hlt hu, State.issue_stalls rd x _ hf⟩

end Machine

end Sys2Proof

namespace Sys2Proof

namespace Machine

set_option Elab.async false

/-! ### Copies, moves and programs (R118, R123, R257) -/

/-- The copy instruction of a direction: an evict, or a stage. -/
def copyInstr (out : Bool) (n rd rs1 rs2 : Nat) : Instr := if out then .lmEvict n rd rs1 rs2 else .lmStage n rd rs1 rs2

/-- How often a step has used a placement in a direction. -/
def Step.copiesUsed (x : Step) (out : Bool) : List (Nat × Nat) := if out then x.evictsUsed else x.stagesUsed

/-- How often a placement may be used in a direction. -/
def Placement.copies (pr : Placement) (out : Bool) : Nat := if out then pr.evicts else pr.stages

/-- A copy in a direction as an operation. -/
def copyKind (out : Bool) (pl part : Nat) : OpKind := if out then .evict pl part else .stage pl part

/-- A step that has used a placement once more. -/
def Step.usesCopy (out : Bool) (key used : Nat) (y : Step) : Step :=
  if out then { y with evictsUsed := insertN y.evictsUsed key (used + 1) } else { y with stagesUsed := insertN y.stagesUsed key (used + 1) }

theorem Step.usesCopy_id (out : Bool) (key used : Nat) (y : Step) : (y.usesCopy out key used).id = y.id := by cases out <;> rfl

theorem Step.copiesUsed_usesCopy (out : Bool) (key used : Nat) (y : Step) :
    useCount ((y.usesCopy out key used).copiesUsed out) key = used + 1 := by
  cases out
  · exact congrArg (fun o : Option Nat => o.getD 0) (lookupN_insertN_self y.stagesUsed key (used + 1))
  · exact congrArg (fun o : Option Nat => o.getD 0) (lookupN_insertN_self y.evictsUsed key (used + 1))

/-- Where a copy instruction puts its operation: into the stage queue, with the use counted. -/
def State.putCopy (n pl part : Nat) (out : Bool) (key : Nat) (x : Step) (k : Nat) (v : State) : State :=
  (v.modStep x.id (Step.usesCopy out key (useCount (x.copiesUsed out) key))).pushOp (weftOf n) .stage (x.opOf n (copyKind out pl part) 0 k)

theorem exec_copyInstr {s : State} {n rd rs1 rs2 : Nat} {out : Bool} {p : Pair} {r : Running} {x : Step}
    (h : s.performs n p r x Move.none (copyInstr out n rd rs1 rs2)) {pl part key : Nat} (hpl : pl = (p.getX rs1).toNat)
    (hpart : part = (p.getX rs2).toNat) (hkey : key = 2 * pl + dieNo (weftOf n) - 1) :
    exec (copyInstr out n rd rs1 rs2) s = .next
      (if !(decide (pl < (s.stepDraft x).placements.length) && decide (((s.stepDraft x).placements.getD pl Placement.zero).parts ≠ 0)
          && decide (part < ((s.stepDraft x).placements.getD pl Placement.zero).parts)
          && decide (useCount (x.copiesUsed out) key < ((s.stepDraft x).placements.getD pl Placement.zero).copies out)) then s.progFault n x r p.pc
      else s.issue n rd x (s.queueFull (weftOf n) .stage) (State.putCopy n pl part out key x)) := by
  have hi : exec (copyInstr out n rd rs1 rs2) s = .next (s.issueCopy n rd rs1 rs2 out) := by cases out <;> rfl
  have hk : key = 2 * (p.getX rs1).toNat + (match weftOf n with | .a => 0 | .b => 1) := by
    rw [hkey, hpl]
    cases weftOf n <;> rfl
  rw [hi, State.issueCopy, show (if out = true then Instr.lmEvict n rd rs1 rs2 else .lmStage n rd rs1 rs2) = copyInstr out n rd rs1 rs2 from rfl,
    State.onRow_performs h, hk, hpl, hpart]
  cases out <;> rfl

theorem State.Issuing.modStep {t s : State} {n : Nat} {p : Pair} {rd k : Nat} (h : t.Issuing s n p rd k) (id : Nat) (f : Step → Step) :
    (t.modStep id f).Issuing (s.modStep id f) n p rd k where
  tickets := h.tickets
  pair := h.pair
  others := h.others
  queues := h.queues
  other := h.other
  rest := ⟨(congrArg (fun u : State => u.modStep id f) h.rest.1 :), h.rest.2⟩

/-- A use that is counted in the step changes nothing of what an issue says of pairs and dies. -/
theorem State.issued.of_modStep {t s : State} {n : Nat} {p : Pair} {rd id : Nat} {f : Step → Step} {P : Nat → State → Prop}
    (h : t.issued (s.modStep id f) n p rd P) : t.issued s n p rd P := h

/-- A copy of a part that exists, within the uses its placement allows, is queued and counted. -/
theorem copy_queues {s : State} {n rd rs1 rs2 pl part key : Nat} {out : Bool} {pr : Placement} {p : Pair} {r : Running} {x : Step}
    (h : s.performs n p r x Move.none (copyInstr out n rd rs1 rs2)) (hpl : pl = (p.getX rs1).toNat)
    (hpart : part = (p.getX rs2).toNat) (hpr : (s.stepDraft x).placements[pl]? = some pr) (hlt : part < pr.parts)
    (hkey : key = 2 * pl + dieNo (weftOf n) - 1) (hu : useCount (x.copiesUsed out) key < pr.copies out) (ht : s.pairTickets n < 64)
    (hq : s.queueFull (weftOf n) .stage = false) (hk : ∃ k, k < 256 ∧ (s.weft (weftOf n)).tickets.contains k = false) :
    ∃ t, exec (copyInstr out n rd rs1 rs2) s = .next t ∧
      t.issued s n p rd (fun k u => (u.weft (weftOf n)).stageQ = (s.weft (weftOf n)).stageQ ++ [x.opOf n (copyKind out pl part) 0 k] ∧
        (u.step? x.id).map (fun y => useCount (y.copiesUsed out) key) = some (useCount (x.copiesUsed out) key + 1) ∧
        State.sameButDies { u with steps := s.steps } s) := by
  have hget : (s.stepDraft x).placements.getD pl Placement.zero = pr := by rw [List.getD_eq_getElem?_getD, hpr]; rfl
  have hlen : pl < (s.stepDraft x).placements.length := (List.getElem?_eq_some_iff.mp hpr).1
  have he := exec_copyInstr h hpl hpart hkey
  rw [hget, if_neg (by simp [hlen, hlt, hu]; omega)] at he
  obtain ⟨k, h1, h2, hx⟩ := State.issue_free x (State.putCopy n pl part out key x) (rd := rd) hq ht hk
  rw [hx] at he
  have hi := (State.ticketed_issuing h.1.1 rd x k).modStep x.id (Step.usesCopy out key (useCount (x.copiesUsed out) key))
  refine ⟨_, he, State.issued.of_modStep ((hi.queues_op h1 h2 .stage (x.opOf n (copyKind out pl part) 0)).mono fun j hj => ⟨hj.1, ?_, ?_⟩)⟩
  · obtain ⟨-, -, hj⟩ := hj
    have hst := s.step?_modStep x.id (Step.usesCopy_id out key (useCount (x.copiesUsed out) key))
    rw [State.step?, (congrArg (fun u : State => u.steps) hj.1 :)]
    change Option.map _ (State.step? (s.modStep x.id _) x.id) = _
    rw [hst, State.step?_of_executes h.1, Option.map_some, Option.map_some, Step.copiesUsed_usesCopy]
  · exact ⟨(congrArg (fun u : State => { u with steps := s.steps }) hj.2.2.1 :), hj.2.2.2⟩

theorem copy_faults {s : State} {n rd rs1 rs2 : Nat} {out : Bool} {p : Pair} {r : Running} {x : Step}
    (h : s.performs n p r x Move.none (copyInstr out n rd rs1 rs2))
    (hp : ((s.stepDraft x).placements.getD (p.getX rs1).toNat Placement.zero).parts ≤ (p.getX rs2).toNat) :
    exec (copyInstr out n rd rs1 rs2) s = .next (s.progFault n x r p.pc) := by
  rw [exec_copyInstr h rfl rfl rfl, decide_eq_false (Nat.not_lt.mpr hp), Bool.and_false, Bool.false_and, Bool.not_false, if_pos rfl]

/-- The move instruction of a direction: a coding, or a decode. -/
def moveInstr (enc : Bool) (n rd rs1 rs2 : Nat) (mv : Move) : Instr := if enc then .lmEnc n rd rs1 rs2 mv else .lmDec n rd rs1 rs2 mv

/-- A move in a direction as an operation. -/
def moveKind (enc : Bool) (mv : Move) (off : Nat) : OpKind :=
  if enc then .enc mv.tensor mv.row mv.count mv.channels off else .dec mv.tensor mv.row mv.count mv.channels off

/-- What a move names exists: counts in range, rows of a coded tensor, and data memory that holds them (R123). -/
def Draft.moves (dr : Draft) (mv : Move) (off : Nat) : Bool :=
  between 1 mv.count 4096 && between 1 mv.channels 4096 && decide (mv.tensor < dr.tensors.length) && decide ((dr.tensor mv.tensor).type = 0)
    && decide (mv.row + mv.count ≤ (dr.tensor mv.tensor).rows) && decide (mv.channels ≤ (dr.tensor mv.tensor).rowLen)
    && decide (off + 4 * mv.count * mv.channels ≤ 131072)

theorem exec_moveInstr {s : State} {n rd rs1 rs2 : Nat} {enc : Bool} {mv : Move} {p : Pair} {r : Running} {x : Step}
    (h : s.performs n p r x mv (moveInstr enc n rd rs1 rs2 mv)) :
    exec (moveInstr enc n rd rs1 rs2 mv) s = .next (if !(s.stepDraft x).moves mv (p.getX rs2).toNat then s.progFault n x r p.pc
      else s.issue n rd x (s.queueFull (weftOf n) .reed)
        (fun k v => v.pushOp (weftOf n) .reed (x.opOf n (moveKind enc mv (p.getX rs2).toNat) mv.count k))) := by
  have hi : exec (moveInstr enc n rd rs1 rs2 mv) s = .next (s.issueMove n rd rs1 rs2 mv enc) := by cases enc <;> rfl
  rw [hi, State.issueMove, show (if enc = true then Instr.lmEnc n rd rs1 rs2 mv else .lmDec n rd rs1 rs2 mv) = moveInstr enc n rd rs1 rs2 mv from rfl,
    State.onRow_performs h]
  cases enc <;> rfl

theorem move_queues {s : State} {n rd rs1 rs2 : Nat} {enc : Bool} {mv : Move} {p : Pair} {r : Running} {x : Step}
    (h : s.performs n p r x mv (moveInstr enc n rd rs1 rs2 mv)) (hm : (s.stepDraft x).moves mv (p.getX rs2).toNat = true)
    (ht : s.pairTickets n < 64) (hq : s.queueFull (weftOf n) .reed = false)
    (hk : ∃ k, k < 256 ∧ (s.weft (weftOf n)).tickets.contains k = false) :
    ∃ t, exec (moveInstr enc n rd rs1 rs2 mv) s = .next t ∧
      t.issued s n p rd (s.queuedOp n .reed (x.opOf n (moveKind enc mv (p.getX rs2).toNat) mv.count)) := by
  have he := exec_moveInstr h
  rw [hm, Bool.not_true, if_neg Bool.false_ne_true] at he
  exact ⟨_, he, State.issue_queues h.1.1 x (fun _ _ _ => rfl) hq ht hk⟩

theorem move_faults {s : State} {n rd rs1 rs2 : Nat} {enc : Bool} {mv : Move} {p : Pair} {r : Running} {x : Step}
    (h : s.performs n p r x mv (moveInstr enc n rd rs1 rs2 mv)) (hm : mv.count = 0 ∨ mv.channels = 0) :
    exec (moveInstr enc n rd rs1 rs2 mv) s = .next (s.progFault n x r p.pc) := by
  have hf : (s.stepDraft x).moves mv (p.getX rs2).toNat = false := by
    rcases hm with hm | hm
    · simp [Draft.moves, between, hm]
    · simp [Draft.moves, between, hm]
  rw [exec_moveInstr h, hf]
  rfl

/-- The pair after a pair on its die. -/
theorem State.nextPair_die {s : State} {n m : Nat} (h : s.nextPair n = m) (hm : m ≠ n) : weftOf m = weftOf n ∧ (n < 8 → m % 4 ≠ n % 4) := by
  have hmem : m ∈ (List.range 4).map (fun i => n / 4 * 4 + (n + 1 + i) % 4) := by
    unfold State.nextPair at h
    dsimp only at h
    cases hf : ((List.range 4).map (fun i => n / 4 * 4 + (n + 1 + i) % 4)).find? (fun k => s.pairOn k && s.unitUp (.pair k)) with
    | none => rw [hf] at h; exact absurd h.symm hm
    | some k =>
      rw [hf, Option.getD_some] at h
      exact h ▸ List.mem_of_find?_eq_some hf
  obtain ⟨i, -, hi⟩ := List.mem_map.mp hmem
  refine ⟨?_, fun _ => by omega⟩
  have h4 : m < 4 ↔ n < 4 := by omega
  simp only [weftOf, h4]

/-- The registers of a program that begins: a0 holds its argument (R114). -/
theorem Pair.begin_getX (p : Pair) (pg : Program) (r : Running) (i : Nat) : (p.begin pg r).getX i = if i % 32 = 10 then r.arg else 0 := by
  have hi : i % 32 < 32 := Nat.mod_lt _ (by decide)
  by_cases h0 : i % 32 = 0
  · simp [Pair.getX, h0]
  · by_cases h : i % 32 = 10
    · simp [Pair.getX, Pair.begin, h]
    · rw [if_neg h, Pair.getX, if_neg h0, Pair.begin, List.getD_eq_getElem?_getD, List.getElem?_set_ne (Ne.symm h), List.getElem?_replicate,
        if_pos hi]
      rfl

/-- A program begins on a free pair. -/
theorem State.runOn_begins {s : State} {m : Nat} {y : Pair} (hy : s.pair? m = some y) (hr : y.run = none) (hq : y.queued = []) (pg : Program)
    (r : Running) : (s.runOn m pg r).pair? m = some (Pair.begin { y with testing := false } pg r) := by
  obtain ⟨hm, hp⟩ := State.pair?_weft hy
  refine State.pair?_of_weft hm ?_
  rw [State.runOn, State.weft_modWeft, getElem?_modAt, if_pos rfl, hp]
  simp [hr, hq]

/-- A program that begins on a pair of the die leaves the die's other pairs and its tickets. -/
theorem State.weft_runOn (s : State) {n m : Nat} (hd : weftOf m = weftOf n) (hne : n % 4 ≠ m % 4) (pg : Program) (r : Running) :
    ((s.runOn m pg r).weft (weftOf n)).pairs[n % 4]? = (s.weft (weftOf n)).pairs[n % 4]? ∧
      ((s.runOn m pg r).weft (weftOf n)).tickets = (s.weft (weftOf n)).tickets := by
  rw [State.runOn, hd, State.weft_modWeft]
  exact ⟨by rw [getElem?_modAt, if_neg hne], rfl⟩

/-- What a spawned program runs as. -/
def Step.spawns (x : Step) (n i : Nat) (pg : Program) (arg : Dword) (k : Nat) : Running :=
  { step := x.id, program := i, tickets := [], clocks := 0, instrs := 0, ticket := some k, arg := arg, start := pg.entry, parent := n }

theorem exec_lmSpawn {s : State} {n rd rs1 rs2 : Nat} {p : Pair} {r : Running} {x : Step} (h : s.performs n p r x Move.none (.lmSpawn n rd rs1 rs2)) :
    exec (.lmSpawn n rd rs1 rs2) s = .next (match (s.stepDraft x).programs[(p.getX rs1).toNat % 256]? with
      | none => s.progFault n x r p.pc
      | some pg => s.issue n rd x false
          (fun k v => v.runOn (s.nextPair n) pg (x.spawns n ((p.getX rs1).toNat % 256) pg (p.getX rs2) k))) :=
  congrArg Host.Outcome.next (State.onRow_performs h _)

theorem lmSpawn_begins {s : State} {n rd rs1 rs2 m : Nat} {p y : Pair} {r : Running} {x : Step} {pg : Program}
    (h : s.performs n p r x Move.none (.lmSpawn n rd rs1 rs2)) (hpg : (s.stepDraft x).programs[(p.getX rs1).toNat % 256]? = some pg)
    (hn : s.nextPair n = m) (hm : m ≠ n) (hy : s.pair? m = some y) (hr : y.run = none) (hq : y.queued = []) (ht : s.pairTickets n < 64)
    (hk : ∃ k, k < 256 ∧ (s.weft (weftOf n)).tickets.contains k = false) :
    ∃ t, exec (.lmSpawn n rd rs1 rs2) s = .next t ∧ t.issued s n p rd (fun k u =>
      u.pair? m = some (Pair.begin { y with testing := false } pg (x.spawns n ((p.getX rs1).toNat % 256) pg (p.getX rs2) k)) ∧ u.sameButDies s) := by
  have he := exec_lmSpawn h
  rw [hpg, hn] at he
  obtain ⟨k, h1, h2, hx⟩ := State.issue_free x (rd := rd)
    (fun k v => State.runOn v m pg (x.spawns n ((p.getX rs1).toNat % 256) pg (p.getX rs2) k)) rfl ht hk
  have hi := State.ticketed_issuing h.1.1 rd x k
  dsimp only at he
  rw [hx] at he
  generalize s.ticketed n rd x k = v at he hi
  obtain ⟨hn8, -⟩ := State.pair?_weft h.1.1
  obtain ⟨hd, hne⟩ := State.nextPair_die hn hm
  obtain ⟨hm8, hym⟩ := State.pair?_weft hy
  have hvy : v.pair? m = some y := State.pair?_of_weft hm8 (by rw [hd, hi.others _ (hne hn8), ← hd]; exact hym)
  obtain ⟨q, hq1, hq2⟩ := hi.pair
  obtain ⟨hwp, hwt⟩ := v.weft_runOn hd (Ne.symm (hne hn8)) pg (x.spawns n ((p.getX rs1).toNat % 256) pg (p.getX rs2) k)
  refine ⟨_, he, k, q, h1, h2, hwt.trans hi.tickets, State.pair?_of_weft hn8 (hwp.trans (State.pair?_weft hq1).2), hq2, ?_,
    State.runOn_begins hvy hr hq pg _, (State.runOn_frame v m pg _).1.1.trans hi.rest⟩
  rw [← hi.other, ← hd]
  exact State.weft_modWeft_other v (weftOf m) _

theorem lmSpawn_faults {s : State} {n rd rs1 rs2 : Nat} {p : Pair} {r : Running} {x : Step}
    (h : s.performs n p r x Move.none (.lmSpawn n rd rs1 rs2)) (hl : (s.stepDraft x).programs.length ≤ (p.getX rs1).toNat % 256) :
    exec (.lmSpawn n rd rs1 rs2) s = .next (s.progFault n x r p.pc) := by
  rw [exec_lmSpawn h, List.getElem?_eq_none hl]

end Machine

end Sys2Proof

namespace Sys2Proof

namespace Machine

set_option Elab.async false

/-! ### The words of the Loom control instructions (R118) -/

/-- A field of a word given as a number. -/
theorem extractLsb'_ofNat (v lo len : Nat) (h : v < 2 ^ 32) : ((BitVec.ofNat 32 v).extractLsb' lo len).toNat = v / 2 ^ lo % 2 ^ len := by
  rw [BitVec.extractLsb'_toNat, BitVec.toNat_ofNat, Nat.mod_eq_of_lt h, Nat.shiftRight_eq_div_pow]

/-- The word of a Loom control instruction. -/
def loomWord (f b a rd : Nat) : Nat := f * 2 ^ 25 + b * 2 ^ 20 + a * 2 ^ 15 + rd * 2 ^ 7 + 0x0B

theorem isLoomWord_loomWord {f b a rd : Nat} (hrd : rd < 32) (ha : a < 32) (hb : b < 32) (hf : f < 128) :
    isLoomWord (BitVec.ofNat 32 (loomWord f b a rd)) = true := by
  have hlt : loomWord f b a rd < 2 ^ 32 := by unfold loomWord; omega
  have hop : (BitVec.ofNat 32 (loomWord f b a rd)).extractLsb' 0 7 = 0b0001011#7 := by
    apply BitVec.eq_of_toNat_eq
    rw [extractLsb'_ofNat _ _ _ hlt, loomWord, BitVec.toNat_ofNat]
    omega
  have hf3 : (BitVec.ofNat 32 (loomWord f b a rd)).extractLsb' 12 3 = 0#3 := by
    apply BitVec.eq_of_toNat_eq
    rw [extractLsb'_ofNat _ _ _ hlt, loomWord, BitVec.toNat_ofNat]
    omega
  rw [isLoomWord, hop, hf3]
  rfl

/-- The fields of a Loom control instruction: funct7, rs2, rs1 and rd. -/
theorem loomWord_fields {f b a rd : Nat} (hrd : rd < 32) (ha : a < 32) (hb : b < 32) (hf : f < 128) :
    ((BitVec.ofNat 32 (loomWord f b a rd)).extractLsb' 25 7).toNat = f ∧ ((BitVec.ofNat 32 (loomWord f b a rd)).extractLsb' 20 5).toNat = b ∧
      ((BitVec.ofNat 32 (loomWord f b a rd)).extractLsb' 15 5).toNat = a ∧ ((BitVec.ofNat 32 (loomWord f b a rd)).extractLsb' 7 5).toNat = rd := by
  have hlt : loomWord f b a rd < 2 ^ 32 := by unfold loomWord; omega
  rw [extractLsb'_ofNat _ _ _ hlt, extractLsb'_ofNat _ _ _ hlt, extractLsb'_ofNat _ _ _ hlt, extractLsb'_ofNat _ _ _ hlt, loomWord]
  omega

/-- The instructions of funct7 0 on (R118). -/
def loomRows (n rd a b : Nat) (mv : Move) : List Instr :=
  [.lmOp n rd a, .lmReed n rd a, .lmFin n rd a, .lmStage n rd a b, .lmEvict n rd a b, .lmSpawn n rd a b, .lmWait n a, .lmSync n, .lmHinge n a,
    .lmDec n rd a b mv, .lmEnc n rd a b mv, .lmLacq n rd a, .lmLrel n a, .lmRd n rd b]

theorem decodeLoom_loomWord {f b a rd : Nat} (n : Nat) (mv : Move) (hrd : rd < 32) (ha : a < 32) (hb : b < 32) (hf : f < 128) :
    decodeLoom n mv (BitVec.ofNat 32 (loomWord f b a rd)) = (loomRows n rd a b mv)[f]? := by
  obtain ⟨h1, h2, h3, h4⟩ := loomWord_fields hrd ha hb hf
  unfold decodeLoom
  simp only [h1, h2, h3, h4]
  by_cases h : f < 14
  · interval_cases f
    all_goals rfl
  · obtain ⟨k, rfl⟩ := Nat.exists_eq_add_of_le' (Nat.not_lt.mp h)
    rfl

/-- No word with another opcode than SYSTEM is an ecall, an ebreak or a rdtime. -/
theorem rowOf_loom {w : BitVec 32} (h : isLoomWord w = true) (n : Nat) (mv : Move) : rowOf n mv w = decodeLoom n mv w := by
  have hop : w.extractLsb' 0 7 = 0b0001011#7 := by
    rw [isLoomWord, Bool.and_eq_true, beq_iff_eq] at h
    exact h.1
  have h1 : w ≠ 0x73#32 := by rintro rfl; exact absurd hop (by decide)
  have h2 : w ≠ 0x100073#32 := by rintro rfl; exact absurd hop (by decide)
  have h3 : ¬ (w.extractLsb' 0 7 = 0x73#7 ∧ w.extractLsb' 12 20 = 0xC0102#20) := fun ⟨h3, _⟩ => by
    rw [hop] at h3
    exact absurd h3 (by decide)
  rw [rowOf, if_neg h1, if_neg h2, if_neg h3, if_pos h]

/-- Settles O45: the layer, copy, move and spawn instructions share one issue (`State.issue_free`), which takes a free ticket, writes it to rd
and puts the operation where it belongs; a full queue or 64 tickets stall it, and what does not exist is a program fault. -/
theorem loomInstructionsIssue : Obligations.LoomInstructionsIssue := by
  unfold Obligations.LoomInstructionsIssue
  refine ⟨?_, ?_, ?_, ?_, ?_, ?_, ?_, ?_, ?_, ?_⟩
  · intro n rd rs1 l p r x s he hl hlt ht hk
    refine ⟨fun hu hq hp => ?_, fun hu hq hp => ?_, fun hu hq ha hp => ?_, fun hu hq hh hd hg hm hw hp => ?_⟩
    · exact layer_queues (u := .reed) (by decide) (by decide) ⟨he, hp⟩ hl hlt hu hq ht hk
    · exact layer_queues (u := .finish) (by decide) (by decide) ⟨he, hp⟩ hl hlt hu hq ht hk
    · exact lmOp_queues ⟨he, hp⟩ hl hlt hu hq ht hk ha
    · exact lmOp_gathers ⟨he, hp⟩ hl hlt hu hq ht hk hh hd hg hm hw
  · rintro n rd rs1 i p r x s (rfl | rfl | rfl) h hl hk
    · exact ⟨_, exec_layerInstr_faults (u := .array) (by decide) h hl, State.progFault_killed hk r p.pc⟩
    · exact ⟨_, exec_layerInstr_faults (u := .reed) (by decide) h hl, State.progFault_killed hk r p.pc⟩
    · exact ⟨_, exec_layerInstr_faults (u := .finish) (by decide) h hl, State.progFault_killed hk r p.pc⟩
  · intro n rd rs1 l p r x u s he hl hlt hu hf
    refine ⟨?_, ?_, ?_⟩
    · rintro rfl hp
      exact layer_stalls (u := .array) (by decide) ⟨he, hp⟩ hl hlt hu hf
    · rintro rfl hp
      exact layer_stalls (u := .reed) (by decide) ⟨he, hp⟩ hl hlt hu hf
    · rintro rfl hp
      exact layer_stalls (u := .finish) (by decide) ⟨he, hp⟩ hl hlt hu hf
  · intro n rd rs1 rs2 pl part key pr p r x s he hpl hpart hpr hlt hkey ht hq hk
    exact ⟨fun hu hp => copy_queues (out := false) ⟨he, hp⟩ hpl hpart hpr hlt hkey hu ht hq hk,
      fun hu hp => copy_queues (out := true) ⟨he, hp⟩ hpl hpart hpr hlt hkey hu ht hq hk⟩
  · rintro n rd rs1 rs2 i p r x s (rfl | rfl) h hp hk
    · exact ⟨_, copy_faults (out := false) h hp, State.progFault_killed hk r p.pc⟩
    · exact ⟨_, copy_faults (out := true) h hp, State.progFault_killed hk r p.pc⟩
  · intro n rd rs1 rs2 j row m ch p r x s he hm1 hm2 hc1 hc2 hj hty hrow hch hoff ht hq hk
    have hmv : (s.stepDraft x).moves { tensor := j, row := row, count := m, channels := ch } (p.getX rs2).toNat = true := by
      simp [Draft.moves, between, hm1, hm2, hc1, hc2, hj, hty, hrow, hch, hoff]
    exact ⟨fun hp => move_queues (enc := false) ⟨he, hp⟩ hmv ht hq hk, fun hp => move_queues (enc := true) ⟨he, hp⟩ hmv ht hq hk⟩
  · rintro n rd rs1 rs2 mv i p r x s (rfl | rfl) h hm hk
    · exact ⟨_, move_faults (enc := false) h hm, State.progFault_killed hk r p.pc⟩
    · exact ⟨_, move_faults (enc := true) h hm, State.progFault_killed hk r p.pc⟩
  · intro n rd rs1 rs2 m p y r x pg s h hpg hn hm hy hr hq ht hk
    obtain ⟨t, ht, hi⟩ := lmSpawn_begins h hpg hn hm hy hr hq ht hk
    refine ⟨t, ht, hi.mono fun k hu => ?_⟩
    obtain ⟨hu, hs⟩ := hu
    exact ⟨_, hu, rfl, rfl, Pair.begin_getX _ pg _, rfl, rfl, hs⟩
  · intro n rd rs1 rs2 p r x s h hl hk
    exact ⟨_, lmSpawn_faults h hl, State.progFault_killed hk r p.pc⟩
  · rintro n rd a b f mv w hrd ha hb hf rfl
    have hw := isLoomWord_loomWord hrd ha hb hf
    exact ⟨hw, (rowOf_loom hw n mv).symm, decodeLoom_loomWord n mv hrd ha hb hf⟩

end Machine

end Sys2Proof

namespace Sys2Proof

namespace Machine

set_option Elab.async false

/-! ### An operation starts (R94, R119, R120) -/

/-- A die on which a unit starts the front of its queue; `gs`: the engines where it is the array. -/
def WeftDie.starts (u : OpUnit) (o : Op) (rest : List Op) (gs : List Engine) (w : WeftDie) : WeftDie :=
  if u = .array then { (w.setQueue u rest).setRun u (some o) with engines := gs } else (w.setQueue u rest).setRun u (some o)

/-- The state in which a unit has started an operation, its checkers still to report. -/
def State.started (s : State) (d : Weft) (u : OpUnit) (o : Op) (rest : List Op) : State :=
  s.modWeft d (WeftDie.starts u o rest (s.startEngines d o))

/-- QUEUED_OP_START on a queue that is not empty. -/
theorem exec_queuedOpStart {s : State} {d : Weft} {u : OpUnit} {o : Op} {rest : List Op} (h : (s.weft d).queue u = o :: rest) (chk : OpCheck) :
    exec (.queuedOpStart d u chk) s = .next
      (if !s.unitFree d u || ((s.weft d).runOf u).isSome || s.opHeld d u o then s
      else if s.hazard d o then
        (s.endCtxs (s.opCtxs [o]) 3).raise (weftSrc d 0x1C) (cap (s.opCtxs [o]).head? (unitMaster d u o) 0 0 0)
      else (s.started d u o rest).checked d u o chk) := by
  change execQueuedOpStart d u chk s = _
  unfold execQueuedOpStart
  rw [h]
  dsimp only
  have hst : (if u = .array then (s.modWeft d (fun w => (w.setQueue u rest).setRun u (some o))).modWeft d
      (fun w => { w with engines := s.startEngines d o }) else s.modWeft d (fun w => (w.setQueue u rest).setRun u (some o))) = s.started d u o rest := by
    unfold State.started WeftDie.starts
    split
    · rw [State.modWeft_modWeft]
    · rfl
  rw [hst]

/-- The unit of a queue can start its front now: it is free, nothing holds it, and it touches no region being written. -/
structure State.Startable (s : State) (d : Weft) (u : OpUnit) (o : Op) (rest : List Op) : Prop where
  queue : (s.weft d).queue u = o :: rest
  free : s.unitFree d u = true
  idle : (s.weft d).runOf u = none
  open' : s.opHeld d u o = false

theorem State.Startable.exec {s : State} {d : Weft} {u : OpUnit} {o : Op} {rest : List Op} (h : s.Startable d u o rest) (hz : s.hazard d o = false)
    (chk : OpCheck) : exec (.queuedOpStart d u chk) s = .next ((s.started d u o rest).checked d u o chk) := by
  rw [exec_queuedOpStart h.queue, h.free, h.idle, h.open', hz]
  rfl

/-- A unit that is busy, out of service or held starts nothing. -/
theorem queuedOpStart_waits {s : State} {d : Weft} {u : OpUnit} {o : Op} {rest : List Op} (hq : (s.weft d).queue u = o :: rest)
    (h : (s.weft d).runOf u ≠ none ∨ s.unitFree d u = false ∨ s.opHeld d u o = true) (k : OpCheck) : exec (.queuedOpStart d u k) s = .next s := by
  rw [exec_queuedOpStart hq, if_pos]
  rcases h with h | h | h
  · simp [Option.isSome_iff_ne_none.mpr h]
  · simp [h]
  · simp [h]

/-- The context of an operation's one member. -/
theorem State.opCtxs_single {s : State} {o : Op} {m : OpMember} {x : Step} (hm : o.members = [m]) (hx : s.step? m.step = some x) :
    s.opCtxs [o] = [x.ctx] := by
  simp [State.opCtxs, hm, hx, addSet]

theorem queuedOpStart_hazard {s : State} {d : Weft} {u : OpUnit} {o : Op} {rest : List Op} {m : OpMember} {x : Step} (h : s.Startable d u o rest)
    (hz : s.hazard d o = true) (hm : o.members = [m]) (hx : s.step? m.step = some x) (hk : s.killable x (weftSrc d 0x1C)) (k : OpCheck) :
    ∃ t, exec (.queuedOpStart d u k) s = .next t ∧ t.killed s x 3 (weftSrc d 0x1C) (cap (some x.ctx) (unitMaster d u o) 0 0 0) := by
  refine ⟨_, ?_, State.endCtx_killed hk 3 _⟩
  rw [exec_queuedOpStart h.queue, h.free, h.idle, h.open', hz, State.opCtxs_single hm hx]
  rfl

theorem WeftDie.starts_self (u : OpUnit) (o : Op) (rest : List Op) (gs : List Engine) (w : WeftDie) :
    (w.starts u o rest gs).queue u = rest ∧ (w.starts u o rest gs).runOf u = some o := by cases u <;> exact ⟨rfl, rfl⟩

theorem WeftDie.starts_other {u v : OpUnit} (h : v ≠ u) (o : Op) (rest : List Op) (gs : List Engine) (w : WeftDie) :
    (w.starts u o rest gs).queue v = w.queue v ∧ (w.starts u o rest gs).runOf v = w.runOf v := by
  cases u with
  | array => cases v with
    | array => exact absurd rfl h
    | reed => exact ⟨rfl, rfl⟩
    | finish => exact ⟨rfl, rfl⟩
    | stage => exact ⟨rfl, rfl⟩
  | reed => cases v with
    | reed => exact absurd rfl h
    | array => exact ⟨rfl, rfl⟩
    | finish => exact ⟨rfl, rfl⟩
    | stage => exact ⟨rfl, rfl⟩
  | finish => cases v with
    | finish => exact absurd rfl h
    | array => exact ⟨rfl, rfl⟩
    | reed => exact ⟨rfl, rfl⟩
    | stage => exact ⟨rfl, rfl⟩
  | stage => cases v with
    | stage => exact absurd rfl h
    | array => exact ⟨rfl, rfl⟩
    | reed => exact ⟨rfl, rfl⟩
    | finish => exact ⟨rfl, rfl⟩

theorem WeftDie.starts_engines {u : OpUnit} (h : u ≠ .array) (o : Op) (rest : List Op) (gs : List Engine) (w : WeftDie) :
    (w.starts u o rest gs).engines = w.engines := by
  cases u with
  | array => exact absurd rfl h
  | reed => rfl
  | finish => rfl
  | stage => rfl

theorem WeftDie.starts_holdings (u : OpUnit) (o : Op) (rest : List Op) (gs : List Engine) (w : WeftDie) :
    (w.starts u o rest gs).beam = w.beam ∧ (w.starts u o rest gs).pairs = w.pairs := by cases u <;> exact ⟨rfl, rfl⟩

/-- A starting operation is what every engine that takes work runs (R90, R94). -/
theorem State.startEngines_op (s : State) (d : Weft) (o : Op) (k : Nat) : ((s.startEngines d o)[k]?).map (fun g => g.op) =
    ((s.weft d).engines[k]?).map (fun g => if s.engineTakes (4 * weftNo d + k) then some o else g.op) := by
  unfold State.startEngines
  rw [List.getElem?_map, List.getElem?_zipIdx, Option.map_map, Option.map_map]
  congr 1
  funext g
  dsimp only [Function.comp_apply]
  rw [Nat.zero_add]
  cases s.engineTakes (4 * weftNo d + k) with
  | false => rfl
  | true =>
    cases s.opLayer o with
    | none => rfl
    | some x => rfl

theorem State.modWeft_dies (s : State) (d : Weft) (f : WeftDie → WeftDie) : { s.modWeft d f with wa := s.wa, wb := s.wb } = s := by cases d <;> rfl

/-- An operation whose checkers report nothing runs on its unit. -/
theorem queuedOpStart_runs {s : State} {d : Weft} {u : OpUnit} {o : Op} {rest : List Op} (h : s.Startable d u o rest) (hz : s.hazard d o = false) :
    ∃ t, exec (.queuedOpStart d u .ok) s = .next t ∧ (t.weft d).queue u = rest ∧ (t.weft d).runOf u = some o ∧
      (∀ v, v ≠ u → (t.weft d).queue v = (s.weft d).queue v ∧ (t.weft d).runOf v = (s.weft d).runOf v) ∧
      (u = .array → (t.weft d).engines = s.startEngines d o ∧ ∀ k, ((t.weft d).engines[k]?).map (fun g => g.op) =
        ((s.weft d).engines[k]?).map (fun g => if s.engineTakes (4 * weftNo d + k) then some o else g.op)) ∧
      (u ≠ .array → (t.weft d).engines = (s.weft d).engines) ∧ (t.weft d).beam = (s.weft d).beam ∧ (t.weft d).pairs = (s.weft d).pairs ∧
      t.weft (otherDie d) = s.weft (otherDie d) ∧ { t with wa := s.wa, wb := s.wb } = s := by
  have hw : (s.started d u o rest).weft d = (s.weft d).starts u o rest (s.startEngines d o) := State.weft_modWeft s d _
  refine ⟨s.started d u o rest, h.exec hz .ok, ?_⟩
  rw [hw]
  obtain ⟨h1, h2⟩ := (s.weft d).starts_self u o rest (s.startEngines d o)
  obtain ⟨h3, h4⟩ := (s.weft d).starts_holdings u o rest (s.startEngines d o)
  refine ⟨h1, h2, fun v hv => WeftDie.starts_other hv o rest _ _, ?_, fun hu => WeftDie.starts_engines hu o rest _ _, h3, h4,
    State.weft_modWeft_other s d _, State.modWeft_dies s d _⟩
  rintro rfl
  exact ⟨rfl, s.startEngines_op d o⟩

/-! ### What a start leaves for the checkers (R105, R106) -/

/-- A die without its queues, its units' operations and its engines. -/
def WeftDie.unitless (w : WeftDie) : WeftDie :=
  { w with arrayQ := [], reedQ := [], finishQ := [], stageQ := [], arrayRun := none, reedRun := none, finishRun := none, stageRun := none, engines := [] }

theorem WeftDie.starts_unitless (u : OpUnit) (o : Op) (rest : List Op) (gs : List Engine) (w : WeftDie) :
    (w.starts u o rest gs).unitless = w.unitless := by cases u <;> rfl

/-- t is s but for queues, units' operations and engines. -/
def State.sameButUnits (t s : State) : Prop := { t with wa := s.wa, wb := s.wb } = s ∧ ∀ d, (t.weft d).unitless = (s.weft d).unitless

theorem State.started_units (s : State) (d : Weft) (u : OpUnit) (o : Op) (rest : List Op) : (s.started d u o rest).sameButUnits s := by
  refine ⟨State.modWeft_dies s d _, fun e => ?_⟩
  by_cases h : e = d
  · rw [h, State.started, State.weft_modWeft, WeftDie.starts_unitless]
  · rw [State.started, State.weft_modWeft_ne s h]

section
variable {t s : State} (h : t.sameButUnits s)
include h

theorem State.sameButUnits.step? (i : Nat) : t.step? i = s.step? i := (congrArg (fun u : State => u.step? i) h.1 :)

theorem State.sameButUnits.stepDraft (x : Step) : t.stepDraft x = s.stepDraft x := (congrArg (fun u : State => u.stepDraft x) h.1 :)

theorem State.sameButUnits.engineTakes (n : Nat) : t.engineTakes n = s.engineTakes n := by
  have hd : t.isDisabled (.engine n) = s.isDisabled (.engine n) := (congrArg (fun u : State => u.isDisabled (.engine n)) h.1 :)
  have hu : t.unitUp (.engine n) = s.unitUp (.engine n) := (congrArg (fun u : State => u.unitUp (.engine n)) h.1 :)
  have ho : ∀ d, t.enginesOut d = s.enginesOut d := fun d => (congrArg (fun w : WeftDie => w.trainFailed || w.injectFailed) (h.2 d) :)
  simp only [State.engineTakes, State.engineOn, hd, hu, ho]

theorem State.sameButUnits.env (x : Step) (d : Weft) : t.env x d = s.env x d := by
  have hb : ∀ e, (t.weft e).beam = (s.weft e).beam := fun e => (congrArg (fun w : WeftDie => w.beam) (h.2 e) :)
  have hc : (t.weft d).codebooks = (s.weft d).codebooks := (congrArg (fun w : WeftDie => w.codebooks) (h.2 d) :)
  have hv : (t.weft d).curves = (s.weft d).curves := (congrArg (fun w : WeftDie => w.curves) (h.2 d) :)
  have hi : ∀ b c, t.inst? b c = s.inst? b c := fun b c => (congrArg (fun u : State => u.inst? b c) h.1 :)
  have ha : t.wa.beam = s.wa.beam := hb .a
  have hb' : t.wb.beam = s.wb.beam := hb .b
  simp only [State.env, h.stepDraft, hc, hv, hi, ha, hb']

theorem State.sameButUnits.tileEngine (d : Weft) (whole : Bool) (j : Nat) : t.tileEngine d whole j = s.tileEngine d whole j := by
  simp only [State.tileEngine, h.engineTakes]

theorem State.sameButUnits.strike (d : Weft) (x : Step) (l : Layer) (o : Op) (p r n : Nat) (f : Env → Strike) (delta : Int) :
    t.strike d x l o p r n f delta = s.strike d x l o p r n f delta := by
  simp only [State.strike, h.env, h.tileEngine]

theorem State.sameButUnits.opLayer (o : Op) : t.opLayer o = s.opLayer o := (congrArg (fun u : State => u.opLayer o) h.1 :)

theorem State.sameButUnits.killable {x : Step} {n : Nat} (hk : s.killable x n) : t.killable x n := by
  obtain ⟨hb, hl, hn, hr, hc⟩ := hk
  exact ⟨(congrArg (fun u : State => u.begunStep x.ctx) h.1 :).trans hb, (congrArg (fun u : State => lookupN u.ladder.kills x.ctx) h.1 :).trans hl,
    hn, (congrArg (fun u : State => u.hasp.raised.contains n) h.1 :).trans hr, (congrArg (fun u : State => u.reg (oSrcCfg n)) h.1 :).trans hc⟩

/-- A kill after a start is a kill of the state before it. -/
theorem State.sameButUnits.killed {v : State} {x : Step} {status n : Nat} {c : Capture} (hk : v.killed t x status n c) :
    v.killed s x status n c := by
  obtain ⟨h1, h2, h3, h4, h5, h6, h7, h8, h9⟩ := hk
  refine ⟨h1, h2, h3.trans (congrArg (fun u : State => u.steps) h.1 :), h4, h5, h6.trans (congrArg (fun u : State => u.ctxs) h.1 :),
    h7.trans (congrArg (fun u : State => u.drafts) h.1 :), h8.trans (congrArg (fun u : State => u.rings) h.1 :), fun hx => ?_⟩
  obtain ⟨ha, hb⟩ := h9 hx
  exact ⟨ha.trans (congrArg (fun u : State => u.hostMemA) h.1 :), hb.trans (congrArg (fun u : State => u.hostMemB) h.1 :)⟩

end

/-- A checker's report kills the step of the operation's member (R106, R429). -/
theorem State.checkFault_killed {s : State} {d : Weft} {m : OpMember} {x : Step} {src : Nat} (hx : s.step? m.step = some x)
    (hk : s.killable x (weftSrc d src)) (master : Byte) (access row detail : Nat) (counts : Option (Nat × Nat × Nat)) :
    (s.checkFault d (some m) src master access row detail counts).killed s x 3 (weftSrc d src)
      (cap (some x.ctx) master access (BitVec.ofNat 64 row) detail) := by
  unfold State.checkFault
  rw [Option.bind_some, hx]
  dsimp only
  cases counts with
  | none => exact State.endCtx_killed hk 3 _
  | some c =>
    obtain ⟨code, inst, j⟩ := c
    have hd : (bumpAon (countEv s { Ev.plain (dieNo d) code (some inst) 1 with ctx := some x.ctx }) (dieNo d) j 1).sameButDraws s :=
      (bumpAon_onlyDraws _ _ _ _ (dieNo_lt d)).trans (countEv_onlyDraws s _ (dieNo_lt d))
    exact (State.endCtx_killed (State.killable_of_draws hk hd) 3 _).of_draws hd

/-- The one member of an operation owns its rows. -/
theorem rowOwner_single {o : Op} {m : OpMember} {row : Nat} (hm : o.members = [m]) (hb : m.base = 0) (hr : row < m.rows) :
    rowOwner o.members row = some m := by simp [rowOwner, hm, hb, hr]

theorem State.opLayer_single {s : State} {o : Op} {m : OpMember} {x : Step} {l : Nat} (hm : o.members = [m]) (hx : s.step? m.step = some x)
    (hk : o.kind = .layer l) : s.opLayer o = some (x, (s.stepDraft x).layer l) := by simp [State.opLayer, hm, hk, hx]

/-- What the residue check makes of an error in a row of a member: nothing, a report, or an upset of the operation. -/
def State.afterStrike (s : State) (d : Weft) (m : OpMember) (row : Nat) : Struck → State
  | .missed => s
  | .reported e cube col =>
    s.checkFault d (some m) (e % 4) (BitVec.ofNat 8 (0x70 + e)) 4 row (e + 256 * cube + 65536 * col) (some (0x00A, e % 4, 9))
  | .silent u => s.modWeft d (fun w => { w with arrayRun := w.arrayRun.map (fun x => { x with upsets := u :: x.upsets }) })

/-- What an error does that strikes an operation of one member on a layer of one operation. -/
theorem State.struck_single {s : State} {d : Weft} {o : Op} {m : OpMember} {x : Step} {l row chan : Nat} {delta : Int} {f : Layer → Env → Strike}
    (hm : o.members = [m]) (hb : m.base = 0) (hr : row < m.rows) (hx : s.step? m.step = some x) (hk : o.kind = .layer l)
    (hl : ((s.stepDraft x).layer l).batches ≤ 1) :
    s.struck d o row chan f delta =
      s.afterStrike d m row (s.strike d x ((s.stepDraft x).layer l) o row row chan (f ((s.stepDraft x).layer l)) delta) := by
  unfold State.struck
  rw [rowOwner_single hm hb hr, State.opLayer_single hm hx hk]
  dsimp only
  rw [hx]
  dsimp only
  rw [if_neg (Nat.not_lt.mpr hl), hb, Nat.sub_zero]
  cases s.strike d x ((s.stepDraft x).layer l) o row row chan (f ((s.stepDraft x).layer l)) delta with
  | missed => rfl
  | reported e cube col => rfl
  | silent u => rfl

/-- An error that the residue check does not see stays in the operation. -/
theorem State.upset_stays (s : State) (d : Weft) (o : Op) (rest : List Op) (u : Upset) :
    (((s.started d .array o rest).modWeft d (fun w => { w with arrayRun := w.arrayRun.map (fun x => { x with upsets := u :: x.upsets }) })).weft d).arrayRun =
      some { o with upsets := u :: o.upsets } := by
  rw [State.weft_modWeft, State.started, State.weft_modWeft]
  rfl

/-- The error that a check finds where it strikes the array. -/
theorem State.checked_strike {s : State} {d : Weft} {o : Op} {l row chan n : Nat} {delta : Int} {k : OpCheck} {f : Layer → Env → Strike}
    {x : Step} (ho : s.opLayer o = some (x, (s.stepDraft x).layer l))
    (h : (k = .product row chan n delta ∧ f = fun y v => v.strikeCube y n) ∨ (k = .lane row chan n delta ∧ f = fun y v => v.strikeLane y n) ∨
      (1 < ((s.stepDraft x).layer l).ks ∧ k = .combined row chan n delta ∧ f = fun y v => v.strikeSum y n)) :
    s.checked d .array o k = s.struck d o row chan f delta := by
  rcases h with ⟨rfl, rfl⟩ | ⟨rfl, rfl⟩ | ⟨hks, rfl, rfl⟩
  · rfl
  · rfl
  · simp only [State.checked, ho, Option.any_some, decide_eq_true hks, if_true]

/-- A sum that is off by a number is noticed unless the number is a multiple of 7 (R104, R107). -/
theorem predicted_eq (ca cw : Codebook) : ∀ as ws, (predicted ca cw as ws : Int) = exactSum ca cw as ws % 7
  | [], _ => by simp [predicted, exactSum]
  | _ :: _, [] => by simp [predicted, exactSum]
  | a :: as, b :: ws => by
    have hr : ∀ c i, (cbResidue c i : Int) = cbLevel c i % 7 := fun c i => Int.toNat_of_nonneg (Int.emod_nonneg _ (by decide))
    have ih := predicted_eq ca cw as ws
    rw [predicted, exactSum]
    push_cast
    rw [hr, hr, ih, Int.add_emod, ← Int.mul_emod, Int.emod_emod_of_dvd _ (dvd_refl 7), ← Int.add_emod]

theorem mismatch_eq_false (ca cw : Codebook) (as ws : List Nat) (delta : Int) : mismatch ca cw as ws delta = false ↔ (7 : Int) ∣ delta := by
  rw [mismatch, predicted_eq, bne_eq_false_iff_eq]
  omega

end Machine

end Sys2Proof

namespace Sys2Proof

namespace Machine

set_option Elab.async false

/-! ### The checkers of a starting operation report (R105, R106, R429, R132) -/

theorem State.checked_coder {s : State} {d : Weft} {o : Op} {m : OpMember} {e row : Nat} (hm : o.members = [m]) (hb : m.base = 0) (hr : row < m.rows)
    (he : (enginesOf d).contains e = true) (ht : s.engineTakes e = true) :
    s.checked d .array o (.coder e row) =
      s.checkFault d (some m) (4 + e % 4) (BitVec.ofNat 8 (0x70 + e)) 4 row e (some (0x00B, e % 4, 10)) := by
  simp only [State.checked, he, ht, Bool.and_self, if_true, rowOwner_single hm hb hr]

theorem State.checked_reedCoder {s : State} {d : Weft} {o : Op} {m : OpMember} (hm : o.members = [m]) (row : Nat) :
    s.checked d .reed o (.coder 8 row) =
      s.checkFault d (some m) 0x0D (unitMaster d .reed o) 5 row 8 (some (0x00B, 8, 10)) := by
  simp only [State.checked, Op.first, hm, List.head?_cons]
  cases d <;> rfl

theorem State.checked_reedIntegrity {s : State} {d : Weft} {o : Op} {m : OpMember} (hm : o.members = [m]) :
    s.checked d .reed o .reedIntegrity = s.checkFault d (some m) 0x0C (unitMaster d .reed o) 5 0 0 none := by
  simp only [State.checked, Op.first, hm, List.head?_cons]
  cases d <;> rfl

theorem State.afterStrike_reported (s : State) (d : Weft) (m : OpMember) (row e cube col : Nat) :
    s.afterStrike d m row (.reported e cube col) =
      s.checkFault d (some m) (e % 4) (BitVec.ofNat 8 (0x70 + e)) 4 row (e + 256 * cube + 65536 * col) (some (0x00A, e % 4, 9)) := rfl

theorem State.upset_holds (s : State) (d : Weft) (o : Op) (rest : List Op) (u : Upset) {m : OpMember} {row : Nat} :
    ((s.started d .array o rest).afterStrike d m row (.silent u)).hasp = s.hasp ∧
      ((s.started d .array o rest).afterStrike d m row (.silent u)).steps = s.steps ∧
      ((s.started d .array o rest).afterStrike d m row (.silent u)).ladder = s.ladder := by
  have h := s.started_units d .array o rest
  have hw := State.modWeft_dies (s.started d .array o rest) d
    (fun w => { w with arrayRun := w.arrayRun.map (fun x => { x with upsets := u :: x.upsets }) })
  exact ⟨(congrArg (fun v : State => v.hasp) hw :).trans (congrArg (fun v : State => v.hasp) h.1 :),
    (congrArg (fun v : State => v.steps) hw :).trans (congrArg (fun v : State => v.steps) h.1 :),
    (congrArg (fun v : State => v.ladder) hw :).trans (congrArg (fun v : State => v.ladder) h.1 :)⟩

/-- A checker that fires on a starting operation kills the step of its one member. -/
theorem queuedOpStart_reports {s : State} {d : Weft} {u : OpUnit} {o : Op} {rest : List Op} {m : OpMember} {x : Step} {k : OpCheck}
    {src row detail : Nat} {master : Byte} {access : Nat} {counts : Option (Nat × Nat × Nat)} (h : s.Startable d u o rest)
    (hz : s.hazard d o = false) (hx : s.step? m.step = some x) (hk : s.killable x (weftSrc d src))
    (hc : (s.started d u o rest).checked d u o k = (s.started d u o rest).checkFault d (some m) src master access row detail counts) :
    ∃ t, exec (.queuedOpStart d u k) s = .next t ∧ t.killed s x 3 (weftSrc d src) (cap (some x.ctx) master access (BitVec.ofNat 64 row) detail) := by
  have hu := s.started_units d u o rest
  refine ⟨_, h.exec hz k, ?_⟩
  rw [hc]
  exact hu.killed (State.checkFault_killed ((hu.step? _).trans hx) (hu.killable hk) master access row detail counts)

/-- An error in a row of a starting operation, as the state after the start shows it. -/
theorem State.started_struck {s : State} {d : Weft} {o : Op} {rest : List Op} {m : OpMember} {x : Step} {l row chan n : Nat} {delta : Int}
    {k : OpCheck} {f : Layer → Env → Strike} (hm : o.members = [m]) (hb : m.base = 0) (hr : row < m.rows) (hx : s.step? m.step = some x)
    (hl : o.kind = .layer l) (hbat : ((s.stepDraft x).layer l).batches ≤ 1)
    (hk : (k = .product row chan n delta ∧ f = fun y v => v.strikeCube y n) ∨ (k = .lane row chan n delta ∧ f = fun y v => v.strikeLane y n) ∨
      (1 < ((s.stepDraft x).layer l).ks ∧ k = .combined row chan n delta ∧ f = fun y v => v.strikeSum y n)) :
    (s.started d .array o rest).checked d .array o k = (s.started d .array o rest).afterStrike d m row
      (s.strike d x ((s.stepDraft x).layer l) o row row chan (f ((s.stepDraft x).layer l)) delta) := by
  have hu := s.started_units d .array o rest
  have hx' := (hu.step? m.step).trans hx
  have hd := hu.stepDraft x
  have ho := State.opLayer_single hm hx' hl
  rw [State.checked_strike (l := l) (f := f) ho (by rw [hd]; exact hk), State.struck_single hm hb hr hx' hl (by rw [hd]; exact hbat), hd, hu.strike]

theorem queuedOpStart_strike {s : State} {d : Weft} {o : Op} {rest : List Op} {m : OpMember} {x : Step} {l row chan n : Nat} {delta : Int}
    {k : OpCheck} {f : Layer → Env → Strike} (h : s.Startable d .array o rest) (hz : s.hazard d o = false) (hm : o.members = [m]) (hb : m.base = 0)
    (hr : row < m.rows) (hx : s.step? m.step = some x) (hl : o.kind = .layer l) (hbat : ((s.stepDraft x).layer l).batches ≤ 1)
    (hk : (k = .product row chan n delta ∧ f = fun y v => v.strikeCube y n) ∨ (k = .lane row chan n delta ∧ f = fun y v => v.strikeLane y n) ∨
      (1 < ((s.stepDraft x).layer l).ks ∧ k = .combined row chan n delta ∧ f = fun y v => v.strikeSum y n)) :
    (∀ e cube col, s.strike d x ((s.stepDraft x).layer l) o row row chan (f ((s.stepDraft x).layer l)) delta = .reported e cube col →
      s.killable x (weftSrc d (e % 4)) →
      ∃ t, exec (.queuedOpStart d .array k) s = .next t ∧ t.killed s x 3 (weftSrc d (e % 4))
        (cap (some x.ctx) (BitVec.ofNat 8 (0x70 + e)) 4 (BitVec.ofNat 64 row) (e + 256 * cube + 65536 * col))) ∧
    (∀ u, s.strike d x ((s.stepDraft x).layer l) o row row chan (f ((s.stepDraft x).layer l)) delta = .silent u →
      ∃ t, exec (.queuedOpStart d .array k) s = .next t ∧ (t.weft d).arrayRun = some { o with upsets := u :: o.upsets } ∧
        t.hasp = s.hasp ∧ t.steps = s.steps ∧ t.ladder = s.ladder) := by
  have hc := State.started_struck (d := d) (rest := rest) hm hb hr hx hl hbat hk
  refine ⟨fun e cube col hs hkill => ?_, fun u hs => ⟨_, h.exec hz k, ?_⟩⟩
  · rw [hs, State.afterStrike_reported] at hc
    exact queuedOpStart_reports h hz hx hkill hc
  · rw [hc, hs]
    exact ⟨s.upset_stays d o rest u, State.upset_holds s d o rest u⟩

end Machine

end Sys2Proof

namespace Sys2Proof

namespace Machine

set_option Elab.async false

/-! ### A gather window closes (R101, R102, R535) -/

/-- A member of a composition, at rows of its own. -/
def OpMember.placedFrom (m : OpMember) (ms : List OpMember) : Prop := ∃ k ∈ ms, ∃ b, m = { k with base := b }

theorem placeRows_placed : ∀ (b : Nat) (ms : List OpMember), ∀ m ∈ placeRows b ms, m.placedFrom ms
  | _, [], _, hm => absurd hm (List.not_mem_nil)
  | b, k :: ms, m, hm => by
    rw [placeRows, List.mem_cons] at hm
    rcases hm with rfl | hm
    · exact ⟨k, List.mem_cons_self, b, rfl⟩
    · obtain ⟨j, hj, c, rfl⟩ := placeRows_placed _ ms m hm
      exact ⟨j, List.mem_cons_of_mem _ hj, c, rfl⟩

theorem placeRows_steps : ∀ (b : Nat) (ms : List OpMember), (placeRows b ms).map (fun m => m.step) = ms.map (fun m => m.step)
  | _, [] => rfl
  | b, k :: ms => by rw [placeRows, List.map_cons, List.map_cons, placeRows_steps _ ms]

theorem State.placeGroup_placed (s : State) (ms : List OpMember) : ∀ (b : Nat) (cs : List (Nat × Nat)), ∀ m ∈ s.placeGroup ms b cs, m.placedFrom ms
  | _, [], _, hm => absurd hm (List.not_mem_nil)
  | b, (c, n) :: cs, m, hm => by
    rw [State.placeGroup, List.mem_append] at hm
    rcases hm with hm | hm
    · obtain ⟨k, hk, rfl⟩ := List.mem_map.mp hm
      exact ⟨k, List.mem_of_mem_filter hk, b, rfl⟩
    · exact State.placeGroup_placed s ms _ cs m hm

theorem State.shutWindow_placed (s : State) (w : Window) : ∀ m ∈ (s.shutWindow w).members, m.placedFrom w.members := by
  unfold State.shutWindow
  cases w.group with
  | none => exact placeRows_placed 0 w.members
  | some g => exact s.placeGroup_placed w.members 0 (s.groupRows g)

/-- What a window keeps as it closes. -/
theorem State.shutWindow_keeps (s : State) (w : Window) : (s.shutWindow w).closed = true ∧ (s.shutWindow w).asked = w.asked ∧
    (s.shutWindow w).sent = w.sent ∧ (s.shutWindow w).entry = w.entry ∧ (s.shutWindow w).layer = w.layer ∧ (s.shutWindow w).group = w.group := by
  unfold State.shutWindow
  cases w.group with
  | none => exact ⟨rfl, rfl, rfl, rfl, rfl, rfl⟩
  | some g => exact ⟨rfl, rfl, rfl, rfl, rfl, rfl⟩

theorem State.shutWindow_none (s : State) {w : Window} (h : w.group = none) :
    s.shutWindow w = { w with closed := true, members := placeRows 0 w.members } := by
  unfold State.shutWindow
  rw [h]

theorem State.shutWindow_some (s : State) {w : Window} {g : Nat} (h : w.group = some g) :
    (s.shutWindow w).members = s.placeGroup w.members 0 (s.groupRows g) ∧
      (s.shutWindow w).span = (s.groupRows g).foldl (fun (a : Nat) (y : Nat × Nat) => a + y.2) 0 := by
  unfold State.shutWindow
  rw [h]
  exact ⟨rfl, rfl⟩

section
variable {d : Weft} {ms : List OpMember} {v : Window} (ha : v.asked = ms.map (fun m => (d, m)))
include ha

/-- A window that one die alone asked gives nothing to the other. -/
theorem State.windowReady_other (s : State) {e : Weft} (he : e ≠ d) : s.windowReady v e = false := by
  have h : v.asked.any (fun a => decide (a.1 = e)) = false := by
    rw [ha, List.any_map, List.any_eq_false]
    exact fun m _ => by simp [he.symm]
  simp [State.windowReady, Window.waits, h]

/-- A closed window that a die asked for every member is ready there. -/
theorem State.windowReady_self (s : State) (hne : ms ≠ []) (hc : v.closed = true) (hs : v.sent = []) (hm : ∀ m ∈ v.members, m.placedFrom ms) :
    s.windowReady v d = true := by
  obtain ⟨m, hmem⟩ := List.exists_mem_of_ne_nil ms hne
  have hw : v.asked.any (fun a => decide (a.1 = d)) = true := by
    rw [ha, List.any_eq_true]
    exact ⟨(d, m), List.mem_map_of_mem hmem, decide_eq_true rfl⟩
  have hall : v.members.all (fun m => !s.memberOn d m || v.asked.any (fun a => decide (a.1 = d) && a.2.step == m.step)) = true := by
    rw [List.all_eq_true]
    intro j hj
    obtain ⟨k, hk, b, rfl⟩ := hm j hj
    have hany : v.asked.any (fun a => decide (a.1 = d) && a.2.step == k.step) = true := by
      rw [ha, List.any_eq_true]
      exact ⟨(d, k), List.mem_map_of_mem hk, by simp⟩
    rw [hany, Bool.or_true]
  simp [State.windowReady, Window.waits, hc, hs, hw, hall]

/-- The request of a member, in a window whose members are of different steps. -/
theorem Window.find_asked (hnd : (ms.map (fun m => m.step)).Nodup) {k : OpMember} (hk : k ∈ ms) :
    v.asked.find? (fun a => decide (a.1 = d) && a.2.step == k.step) = some (d, k) := by
  rw [ha]
  clear ha
  induction ms with
  | nil => exact absurd hk List.not_mem_nil
  | cons j ms ih =>
    rw [List.map_cons, List.nodup_cons] at hnd
    obtain ⟨hj, hnd⟩ := hnd
    rw [List.map_cons]
    rcases List.mem_cons.mp hk with rfl | hk
    · exact List.find?_cons_of_pos (by simp)
    · have hne : j.step ≠ k.step := fun he => hj (he ▸ List.mem_map_of_mem hk)
      exact (List.find?_cons_of_neg (by simp [hne])).trans (ih hnd hk)

/-- The operation of a window whose every member asked on the die: each member at its rows. -/
theorem Window.opOn_members_eq (hnd : (ms.map (fun m => m.step)).Nodup) (hm : ∀ m ∈ v.members, m.placedFrom ms) :
    v.opOn d = { entry := v.entry, kind := .layer v.layer, pass := 0, members := v.members, rows := if v.group.isSome then v.span else 0 } := by
  have h : v.members.filterMap (fun m => (v.asked.find? (fun a => decide (a.1 = d) && a.2.step == m.step)).map (fun a => { a.2 with base := m.base })) =
      v.members := by
    refine (List.filterMap_congr (g := some) fun m hmem => ?_).trans List.filterMap_some
    obtain ⟨k, hk, b, rfl⟩ := hm m hmem
    rw [Window.find_asked ha hnd hk]
    rfl
  unfold Window.opOn
  dsimp only
  rw [h, if_neg (lt_irrefl _)]

end

/-- A closed window that die d alone asked for, as the dies are served. -/
theorem State.foldl_sendTo {d : Weft} {s : State} {v : Window} (hd : s.windowReady v d = true) (ho : s.windowReady v (otherDie d) = false)
    (ho' : (s.modWeft d (WeftDie.queued (v.opOn d))).windowReady { v with sent := v.sent ++ [d] } (otherDie d) = false) :
    [Weft.a, Weft.b].foldl State.sendTo (s, v) = (s.modWeft d (WeftDie.queued (v.opOn d)), { v with sent := v.sent ++ [d] }) := by
  have h1 : State.sendTo (s, v) d = (s.modWeft d (WeftDie.queued (v.opOn d)), { v with sent := v.sent ++ [d] }) := if_pos hd
  have h2 : State.sendTo (s, v) (otherDie d) = (s, v) := if_neg (Bool.eq_false_iff.mp ho)
  have h3 : State.sendTo (s.modWeft d (WeftDie.queued (v.opOn d)), { v with sent := v.sent ++ [d] }) (otherDie d) =
      (s.modWeft d (WeftDie.queued (v.opOn d)), { v with sent := v.sent ++ [d] }) := if_neg (Bool.eq_false_iff.mp ho')
  cases d with
  | a => rw [List.foldl_cons, h1, List.foldl_cons, List.foldl_nil]; exact h3
  | b => rw [List.foldl_cons, List.foldl_cons, List.foldl_nil]; exact (congrArg (fun p => State.sendTo p .b) h2).trans h1

/-- The state in which a closing window's operation went to a die; `ws`: the windows left. -/
def State.gathered (s : State) (d : Weft) (o : Op) (ws : List Window) : State :=
  { s.modWeft d (WeftDie.queued o) with sched := { s.sched with windows := ws } }

/-- The one window closes: the die that asked gets its operation, and the window stays for the other die where it has members. -/
theorem State.closeWindow_single {s : State} {d : Weft} {w : Window} (hw : s.sched.windows = [w]) (hs : w.sent = []) (hne : w.members ≠ [])
    (ha : w.asked = w.members.map (fun m => (d, m))) :
    s.closeWindow w = s.gathered d ((s.shutWindow w).opOn d)
      (if (s.shutWindow w).members.any (s.memberOn (otherDie d)) then [{ s.shutWindow w with sent := [d] }] else []) := by
  obtain ⟨kc, ka, ks, -, -, -⟩ := s.shutWindow_keeps w
  set v := s.shutWindow w with hv
  have hva : v.asked = w.members.map (fun m => (d, m)) := ka.trans ha
  have hod : otherDie d ≠ d := by cases d <;> decide
  have hf : s.sched.windows.filter (fun x => decide (x ≠ w)) ++ [v] = [v] := by simp [hw]
  unfold State.closeWindow
  rw [← hv, hf, State.sendWindows_eq]
  set s1 : State := { s with sched := { s.sched with windows := [v] } } with hs1
  have hrd := State.windowReady_self hva s1 hne kc (ks.trans hs) (s.shutWindow_placed w)
  have hfold := State.foldl_sendTo hrd (State.windowReady_other hva s1 hod)
    (State.windowReady_other (v := { v with sent := v.sent ++ [d] }) hva (s1.modWeft d (WeftDie.queued (v.opOn d))) hod)
  have hdone : s1.windowDone { v with sent := v.sent ++ [d] } = !v.members.any (s.memberOn (otherDie d)) := by
    simp only [State.windowDone, kc, ks.trans hs, List.nil_append, Bool.true_and]
    cases d with
    | a => simp [otherDie]; rfl
    | b => simp [otherDie]; rfl
  have hsend : s1.sendWindow (s1, []) v = (s1.modWeft d (WeftDie.queued (v.opOn d)),
      if v.members.any (s.memberOn (otherDie d)) then [{ v with sent := [d] }] else []) := by
    unfold State.sendWindow
    rw [hfold]
    dsimp only
    rw [hdone, ks, hs]
    cases v.members.any (s.memberOn (otherDie d)) with
    | true => rfl
    | false => rfl
  have hone : s1.sched.windows.foldl s1.sendWindow (s1, []) = _ := hsend
  rw [hone]
  cases d <;> rfl

theorem State.gathered_weft (s : State) (d : Weft) (o : Op) (ws : List Window) : ((s.gathered d o ws).weft d).arrayQ = (s.weft d).arrayQ ++ [o] ∧
    (s.gathered d o ws).weft (otherDie d) = s.weft (otherDie d) ∧
    { s.gathered d o ws with wa := s.wa, wb := s.wb, sched := s.sched } = s := by cases d <;> exact ⟨rfl, rfl, rfl⟩

theorem exec_gatherHoldExpiry_single {s : State} {w : Window} (hw : s.sched.windows = [w]) (hc : w.closed = false)
    (ht : w.openTime.toNat + w.limitUs * 1000 ≤ s.time.now.toNat) : exec (.gatherHoldExpiry w.entry w.layer) s = .next (s.closeWindow w) := by
  change execGatherHoldExpiry w.entry w.layer s = _
  simp [execGatherHoldExpiry, hw, hc, ht]

/-- Before its hold limit no window closes (R101). -/
theorem gatherHoldExpiry_early {s : State} (h : ∀ w ∈ s.sched.windows, s.time.now.toNat < w.openTime.toNat + w.limitUs * 1000) (e l : Nat) :
    exec (.gatherHoldExpiry e l) s = .next s := by
  have hf : s.sched.windows.filter (fun w => !w.closed && w.entry == e && w.layer == l
      && decide (w.openTime.toNat + w.limitUs * 1000 ≤ s.time.now.toNat)) = [] := by
    rw [List.filter_eq_nil_iff]
    intro w hw
    simp [Nat.not_le.mpr (h w hw)]
  change execGatherHoldExpiry e l s = _
  rw [execGatherHoldExpiry, hf]
  rfl

theorem gatherHoldExpiry_runs {d : Weft} {w : Window} {s : State} (hw : s.sched.windows = [w]) (hc : w.closed = false) (hs : w.sent = [])
    (hne : w.members ≠ []) (hnd : (w.members.map (fun m => m.step)).Nodup) (ha : w.asked = w.members.map (fun m => (d, m)))
    (ht : w.openTime.toNat + w.limitUs * 1000 ≤ s.time.now.toNat) :
    ∃ t ms n, exec (.gatherHoldExpiry w.entry w.layer) s = .next t ∧
      (w.group = none → ms = placeRows 0 w.members ∧ n = 0) ∧
      (∀ g, w.group = some g → ms = s.placeGroup w.members 0 (s.groupRows g) ∧
        n = (s.groupRows g).foldl (fun (a : Nat) (y : Nat × Nat) => a + y.2) 0) ∧
      (t.weft d).arrayQ = (s.weft d).arrayQ ++ [{ entry := w.entry, kind := .layer w.layer, pass := 0, members := ms, rows := n }] ∧
      ((∀ m ∈ w.members, s.memberOn (otherDie d) m = false) → t.sched.windows = []) ∧
      ((∃ m ∈ w.members, s.memberOn (otherDie d) m = true) → w.group = none →
        t.sched.windows = [{ w with closed := true, members := ms, sent := [d] }]) ∧
      t.weft (otherDie d) = s.weft (otherDie d) ∧ { t with wa := s.wa, wb := s.wb, sched := s.sched } = s := by
  obtain ⟨-, ka, -, ke, kl, kg⟩ := s.shutWindow_keeps w
  have hpl := s.shutWindow_placed w
  have hop := Window.opOn_members_eq (ka.trans ha) hnd hpl
  rw [ke, kl, kg] at hop
  have hex := (exec_gatherHoldExpiry_single hw hc ht).trans (congrArg Host.Outcome.next (State.closeWindow_single hw hs hne ha))
  rw [hop] at hex
  refine ⟨_, _, _, hex, fun hg => ?_, fun g hg => ?_, (s.gathered_weft d _ _).1, fun hoff => ?_, fun hon hg => ?_, (s.gathered_weft d _ _).2⟩
  · rw [s.shutWindow_none hg, hg]
    exact ⟨rfl, rfl⟩
  · rw [hg]
    exact s.shutWindow_some hg
  · have hany : (s.shutWindow w).members.any (s.memberOn (otherDie d)) = false := by
      rw [List.any_eq_false]
      intro m hm
      obtain ⟨k, hk, b, rfl⟩ := hpl m hm
      exact Bool.eq_false_iff.mp (hoff k hk)
    exact if_neg (Bool.eq_false_iff.mp hany)
  · obtain ⟨k, hk, hkon⟩ := hon
    have hany : (s.shutWindow w).members.any (s.memberOn (otherDie d)) = true := by
      have hstep : k.step ∈ (s.shutWindow w).members.map (fun m => m.step) := by
        rw [s.shutWindow_none hg, placeRows_steps]
        exact List.mem_map_of_mem hk
      obtain ⟨j, hj, hjk⟩ := List.mem_map.mp hstep
      refine List.any_eq_true.mpr ⟨j, hj, ?_⟩
      rw [State.memberOn, hjk]
      exact hkon
    refine (if_pos hany).trans ?_
    rw [s.shutWindow_none hg]

end Machine

end Sys2Proof

namespace Sys2Proof

namespace Machine

set_option Elab.async false

/-! ### The layers that a step has done stay done (R408) -/

/-- A change of a die's work that forgets no layer that is done. -/
def DieWork.growsBy (f : DieWork → DieWork) : Prop := ∀ w k, k ∈ w.layersDone → k ∈ (f w).layersDone

/-- Every step of t is one of s, with no layer forgotten. -/
def State.remembers (t s : State) : Prop :=
  ∀ y ∈ t.steps, ∃ x ∈ s.steps, ∀ d k, k ∈ (x.work d).layersDone → k ∈ (y.work d).layersDone

theorem State.remembers.of_steps {t s : State} (h : t.steps = s.steps) : t.remembers s := fun y hy => ⟨y, h ▸ hy, fun _ _ hk => hk⟩

theorem State.remembers.refl (s : State) : s.remembers s := .of_steps rfl

theorem State.remembers.trans {a b c : State} (h : a.remembers b) (k : b.remembers c) : a.remembers c := by
  intro z hz
  obtain ⟨y, hy, hyz⟩ := h z hz
  obtain ⟨x, hx, hxy⟩ := k y hy
  exact ⟨x, hx, fun d l hl => hyz d l (hxy d l hl)⟩

theorem Step.modWork_remembers {f : DieWork → DieWork} (hf : DieWork.growsBy f) (x : Step) (d e : Weft) (k : Nat) (hk : k ∈ (x.work e).layersDone) :
    k ∈ ((x.modWork d f).work e).layersDone := by
  cases d with
  | a =>
    cases e with
    | a => exact hf _ k hk
    | b => exact hk
  | b =>
    cases e with
    | a => exact hk
    | b => exact hf _ k hk

theorem State.modStep_remembers (s : State) (id : Nat) {f : Step → Step}
    (hf : ∀ x d k, k ∈ (x.work d).layersDone → k ∈ ((f x).work d).layersDone) : (s.modStep id f).remembers s := by
  intro y hy
  obtain ⟨x, hx, rfl⟩ := List.mem_map.mp hy
  refine ⟨x, hx, fun d k hk => ?_⟩
  split
  · exact hf x d k hk
  · exact hk

theorem State.modWork_remembers (s : State) (id : Nat) (d : Weft) {f : DieWork → DieWork} (hf : DieWork.growsBy f) :
    (s.modStep id (fun u => u.modWork d f)).remembers s := State.modStep_remembers s id fun x e k hk => x.modWork_remembers hf d e k hk

theorem State.sameButHealth.remembers {t s : State} (h : t.sameButHealth s) : t.remembers s := .of_steps (congrArg (fun u : State => u.steps) h.1 :)

theorem State.addSatsAt_remembers {s : State} {d : Weft} (h : s.unset (weftSrc d 0x25)) (id key j n : Nat) : (s.addSatsAt id d key j n).remembers s := by
  unfold State.addSatsAt
  split
  · exact .refl s
  · dsimp only
    have hm := State.modWork_remembers s id d (f := fun w => { w with sats := insertN w.sats key (satAdd 32 ((lookupN w.sats key).getD 0) n) })
      fun _ _ hk => hk
    have hd := State.modWork_onlyDone s id d (fun w => { w with sats := insertN w.sats key (satAdd 32 ((lookupN w.sats key).getD 0) n) })
    split
    · exact (State.raise_unset (hd.unset h) _).remembers.trans hm
    · exact hm

theorem State.firstPassInput_remembers {s : State} {d : Weft} (h : s.unset (weftSrc d 0x25)) (id : Nat) (e : Env) (j : Nat) (rows : List Nat) :
    (s.firstPassInput id d e j rows).remembers s := by
  unfold State.firstPassInput
  split
  · exact .refl s
  · split
    · exact .refl s
    · refine (State.modWork_remembers _ id d ?_).trans (State.addSatsAt_remembers h _ _ _ _)
      exact fun _ _ hk => hk

theorem State.firstPassWords_remembers {s : State} {d : Weft} (h : s.unset (weftSrc d 0x25)) (id : Nat) (e : Env) (out j : Nat) (rows : List Nat) :
    (s.firstPassWords id d e out j rows).remembers s := by
  unfold State.firstPassWords
  dsimp only
  split
  · exact .refl s
  · exact State.addSatsAt_remembers h _ _ _ _

theorem State.rewritten_remembers (s : State) (id : Nat) (d : Weft) (e : Env) (j : Nat) (rows : List Nat) : (s.rewritten id d e j rows).remembers s := by
  have hf : DieWork.growsBy fun w => { w with codedRows := insertN w.codedRows j ((w.codedOf j).filter (fun r => !rows.contains r)) } := fun _ _ hk => hk
  unfold State.rewritten
  dsimp only
  split
  · exact .refl s
  · refine State.modStep_remembers s id fun x c k hk => ?_
    split
    · exact Step.modWork_remembers hf _ .b c k (x.modWork_remembers hf .a c k hk)
    · exact x.modWork_remembers hf d c k hk

theorem State.layerDone_remembers (s : State) (id : Nat) (d : Weft) (l digest : Nat) : (s.layerDone id d l digest).remembers s := by
  have hp := (State.sameButHealth.of_counters (State.layerDone_onlyCounters s id d l digest)).remembers
  exact hp.trans (State.modWork_remembers s id d fun w k hk => (mem_addSet _ _ _).mpr (.inl hk))

theorem State.firstPass_remembers {d : Weft} (id : Nat) (e : Env) (out : Nat) (rows : Nat → List Nat) (js : List Nat) : ∀ s : State,
    s.unset (weftSrc d 0x25) →
    (js.foldl (fun u j => (u.firstPassInput id d e j (rows j)).firstPassWords id d e out j (rows j)) s).remembers s := by
  induction js with
  | nil => exact fun s _ => .refl s
  | cons j js ih =>
    intro s h
    have h1 := State.firstPassInput_onlyDone h id e j (rows j)
    have h2 := State.firstPassWords_onlyDone (h1.unset h) id e out j (rows j)
    have r1 := State.firstPassInput_remembers h id e j (rows j)
    have r2 := State.firstPassWords_remembers (h1.unset h) id e out j (rows j)
    exact (ih _ (h2.unset (h1.unset h))).trans (r2.trans r1)

/-- A layer's effect on a die forgets no layer that the step has done. -/
theorem State.layerEffect_remembers {s : State} {d : Weft} (h : s.unset (weftSrc d 0x25)) (id l : Nat) (us : List Upset) :
    (s.layerEffect id d l us).remembers s := by
  unfold State.layerEffect
  split
  · exact .refl s
  next x hx =>
    generalize ({ s.env x d with upsets := us.filter (fun u => u.step == id) } : Env) = e
    dsimp only
    generalize e.draft.layer l = lay
    have h0 := State.firstPass_onlyDone h id e lay.out (fun j => e.readRows lay j) ((e.draft.inputs lay).foldl addSet [])
    have r0 := State.firstPass_remembers id e lay.out (fun j => e.readRows lay j) ((e.draft.inputs lay).foldl addSet []) s h
    generalize List.foldl _ s _ = s0 at h0 r0 ⊢
    have hput : ∀ v, (s0.putMem v).remembers s := fun v => (State.remembers.of_steps rfl).trans r0
    have hwork : ∀ (v : Env) {f : DieWork → DieWork}, DieWork.growsBy f → ((s0.putMem v).modStep id (fun u => u.modWork d f)).remembers s :=
      fun v f hf => (State.modWork_remembers _ id d hf).trans (hput v)
    split
    · exact (State.layerDone_remembers _ _ _ _ _).trans (hwork _ fun _ _ hk => hk)
    · split
      · exact (State.layerDone_remembers _ _ _ _ _).trans (hwork _ fun _ _ hk => hk)
      · refine (State.layerDone_remembers _ _ _ _ _).trans ((State.rewritten_remembers _ _ _ _ _ _).trans ?_)
        have hsat := (State.addSatsAt_remembers (((State.putMem_onlyDone s0 (e.runLayer lay).1.1).trans h0).unset h) id lay.out lay.out
          (e.runLayer lay).1.2.2).trans (hput _)
        split
        · exact hsat
        · exact (State.sameButHealth.of_counters (countEv_onlyCounters _ _ (dieNo_lt d))).remembers.trans hsat

/-! ### The barrier of a Whole draft (R94, R124) -/

/-- Both dies run an operation of a Whole draft, and neither stands at the barrier. -/
structure State.Meeting (s : State) (a b : Op) : Prop where
  runA : s.wa.arrayRun = some a
  runB : s.wb.arrayRun = some b
  openA : s.wa.barrier = none
  openB : s.wb.barrier = none
  wholeA : s.opWhole a = true
  wholeB : s.opWhole b = true

/-- Both dies at the barrier. -/
def State.met (s : State) (p q : Nat) : State := { s with wa := { s.wa with barrier := some p }, wb := { s.wb with barrier := some q } }

theorem State.Meeting.exec {s : State} {a b : Op} (h : s.Meeting a b) : exec .wholeBarrier s = .next
    (if a.kind ≠ b.kind ∨ a.pass ≠ b.pass then
      ((s.endCtxs (s.opCtxs [a, b]) 3).raise (weftSrc .a 0x1D) (cap (s.opCtxs [a, b]).head? noMaster 0 0 0)).raise (weftSrc .b 0x1D)
        (cap (s.opCtxs [a, b]).head? noMaster 0 0 0)
    else State.met (if s.opLast a then (s.opEffect .a a).opEffect .b b else s) a.pass b.pass) := by
  change execWholeBarrier s = _
  unfold execWholeBarrier
  rw [h.runA, h.runB, h.openA, h.openB]
  dsimp only
  rw [h.wholeA, h.wholeB]
  rfl

theorem wholeBarrier_goesOn {s : State} {a b : Op} (h : s.Meeting a b) (hk : a.kind = b.kind) (hp : a.pass = b.pass) (hl : s.opLast a = false) :
    exec .wholeBarrier s = .next { s with wa := { s.wa with barrier := some a.pass }, wb := { s.wb with barrier := some b.pass } } := by
  rw [h.exec, if_neg (by simp [hk, hp]), hl]
  rfl

/-- The effects of the two shares of a layer's last operation, for a step that is alone. -/
theorem State.opEffects_doneOn {s : State} {a b : Op} {m n : OpMember} {l : Nat} {x : Step} (ha : a.kind = .layer l) (hb : b.kind = .layer l)
    (hma : a.members = [m]) (hmb : b.members = [n]) (hs : s.steps = [x]) (hm : m.step = x.id) (hn : n.step = x.id)
    (hua : s.unset (weftSrc .a 0x25)) (hub : s.unset (weftSrc .b 0x25)) :
    ((s.opEffect .a a).opEffect .b b).sameButDone s ∧ ∃ y, ((s.opEffect .a a).opEffect .b b).steps = [y] ∧ y.sameButDone x ∧
      l ∈ y.workA.layersDone ∧ l ∈ y.workB.layersDone := by
  rw [State.opEffect_single hma ha, State.opEffect_single hmb hb, hm, hn]
  obtain ⟨hv, y, hy, hyx, hya, -⟩ := State.layerEffect_doneOn (d := .a) hs hua l a.upsets
  generalize s.layerEffect x.id .a l a.upsets = v at hv hy ⊢
  obtain ⟨ht, z, hz, hzy, hzb, -⟩ := State.layerEffect_doneOn (d := .b) hy (hv.unset hub) l b.upsets
  obtain ⟨y', hy', hgrow⟩ := State.layerEffect_remembers (hv.unset hub) y.id l b.upsets z (by rw [hz]; exact List.mem_singleton_self z)
  rw [hy, List.mem_singleton] at hy'
  rw [hyx.id] at ht hz
  exact ⟨ht.trans hv, z, hz, hzy.trans hyx, hgrow .a l (hy' ▸ hya), hzb⟩

theorem wholeBarrier_completes {s : State} {a b : Op} {m n : OpMember} {l : Nat} {x : Step} (h : s.Meeting a b) (ha : a.kind = .layer l)
    (hb : b.kind = .layer l) (hp : a.pass = b.pass) (hl : s.opLast a = true) (hma : a.members = [m]) (hmb : b.members = [n]) (hs : s.steps = [x])
    (hm : m.step = x.id) (hn : n.step = x.id) (hua : s.unset (weftSrc .a 0x25)) (hub : s.unset (weftSrc .b 0x25)) :
    ∃ t y, exec .wholeBarrier s = .next t ∧ t.wa.barrier = some a.pass ∧ t.wb.barrier = some b.pass ∧ t.wa.arrayRun = some a ∧
      t.wb.arrayRun = some b ∧ t.steps = [y] ∧ y.id = x.id ∧ y.stage = x.stage ∧ l ∈ y.workA.layersDone ∧ l ∈ y.workB.layersDone ∧
      t.ctxs = s.ctxs ∧ t.rings = s.rings ∧ t.hostMemA = s.hostMemA ∧ t.hostMemB = s.hostMemB := by
  obtain ⟨hv, y, hy, hyx, hya, hyb⟩ := State.opEffects_doneOn ha hb hma hmb hs hm hn hua hub
  have hex := h.exec
  rw [if_neg (by simp [ha, hb, hp]), hl, if_pos rfl] at hex
  generalize (s.opEffect .a a).opEffect .b b = v at hv hy hex
  refine ⟨_, y, hex, rfl, rfl, ?_, ?_, hy, hyx.id, hyx.stage, hya, hyb, ?_, ?_, ?_, ?_⟩
  · exact (congrArg (fun u : State => u.wa.arrayRun) hv.1.1 :).trans h.runA
  · exact (congrArg (fun u : State => u.wb.arrayRun) hv.1.1 :).trans h.runB
  · exact (congrArg (fun u : State => u.ctxs) hv.1.1 :)
  · exact (congrArg (fun u : State => u.rings) hv.1.1 :)
  · exact (congrArg (fun u : State => u.hostMemA) hv.1.1 :)
  · exact (congrArg (fun u : State => u.hostMemB) hv.1.1 :)

/-! ### A mismatch at the barrier (R124) -/

/-- Raising a silent source leaves the captures of the others. -/
theorem State.raise_keeps_caps {s : State} {n m : Nat} (h : s.silent n) (hm : m ≠ n) (c : Capture) :
    lookupN (s.raise n c).hasp.caps m = lookupN s.hasp.caps m := by
  obtain ⟨-, hr, hc⟩ := h
  have hset : s.firstSet n = 0 := by simp [State.firstSet, hc, fld, bitsN]
  have hset2 : s.secondSet n = 0 := by simp [State.secondSet, hc, fld, bitsN]
  have hgr : s.graceTicks n = 0 := by simp [State.graceTicks, hc, fld, bitsN, ceilDiv]
  have hnote : (s.noteFirst n).hasp.caps = s.hasp.caps := by
    unfold State.noteFirst
    dsimp only
    split
    · rfl
    · rfl
  simp only [State.raise, hr, Bool.false_eq_true, if_false, hset, hset2, hgr, State.fire_none, if_true, State.fireNext]
  set v : State := { s.noteFirst n with hasp := { (s.noteFirst n).hasp with
      caps := insertN (s.noteFirst n).hasp.caps n { c with time := s.time.now, count := 0 }
      raised := addSet (s.noteFirst n).hasp.raised n
      secondFired := delSet (s.noteFirst n).hasp.secondFired n } } with hv
  have hcnt : (bumpAon (countEv v (Ev.plain 0 0x0C1 (some (n / 256)) 1)) 0 12 1).hasp.caps = v.hasp.caps :=
    congrArg Hasp.caps ((bumpAon_onlyCounters _ _ _ _ (by decide)).trans (countEv_onlyCounters v _ (by simp [Ev.plain]))).hasp
  have hcaps : lookupN v.hasp.caps m = lookupN s.hasp.caps m := by simp [hv, hnote, lookupN_insertN, hm.symm]
  split
  · rw [hcnt, hcaps]
  · exact (congrArg (fun l => lookupN l m) hcnt).trans hcaps

/-- A kill stays as it is when another silent source is raised. -/
theorem State.killed.raised {t s : State} {x : Step} {status n m : Nat} {c e : Capture} (h : t.killed s x status n c) (hm : t.silent m)
    (hne : n ≠ m) : (t.raise m e).killed s x status n c := by
  obtain ⟨h1, ⟨hr, hc⟩, h3, h4, h5, h6, h7, h8, h9⟩ := h
  obtain ⟨hf, -, hraised⟩ := State.raise_silent t m e hm
  have hcaps := State.raise_keeps_caps hm hne e
  generalize t.raise m e = u at hf hraised hcaps ⊢
  have hw : ∀ d, u.weft d = t.weft d := fun d => (congrArg (fun v : State => v.weft d) hf.1 :)
  refine ⟨(congrArg (fun v : State => lookupN v.ladder.kills x.ctx) hf.1 :).trans h1, ⟨(hraised n hne).trans hr, ?_⟩,
    (congrArg (fun v : State => v.steps) hf.1 :).trans h3, fun d o ho => h4 d o (hw d ▸ ho), fun l hl => h5 l ?_,
    (congrArg (fun v : State => v.ctxs) hf.1 :).trans h6, (congrArg (fun v : State => v.drafts) hf.1 :).trans h7,
    (congrArg (fun v : State => v.rings) hf.1 :).trans h8, fun hd => ?_⟩
  · have htime : u.time = t.time := (congrArg (fun v : State => v.time) hf.1 :)
    rw [hcaps, hc, htime]
  · have hlat : u.latches = t.latches := (congrArg (fun v : State => v.latches) hf.1 :)
    exact hlat ▸ hl
  · obtain ⟨ha, hb⟩ := h9 hd
    exact ⟨(congrArg (fun v : State => v.hostMemA) hf.1 :).trans ha, (congrArg (fun v : State => v.hostMemB) hf.1 :).trans hb⟩

/-- Another source is silent after a kill with its own. -/
theorem State.silent_after_kill {s : State} {x : Step} {n m : Nat} (h : s.killable x n) (hm : s.silent m) (hne : m ≠ n) (status : Nat) (c : Capture) :
    ((s.endCtx x.ctx status).raise n c).silent m := by
  obtain ⟨hb, hk, hn⟩ := h
  obtain ⟨-, -, -, -, hw⟩ := State.endCtx_frame hb hk status
  obtain ⟨hf, -, hraised⟩ := State.raise_silent _ n c (hw.silent hn)
  obtain ⟨hlt, hr, hc⟩ := hw.silent hm
  obtain ⟨hov, hfst⟩ := oSrcCfg_plain m hlt
  exact ⟨hlt, (hraised m hne).trans hr, (hf.reg _ hov hfst).trans hc⟩

theorem State.opCtxs_pair {s : State} {a b : Op} {m n : OpMember} {x : Step} (ha : a.members = [m]) (hb : b.members = [n]) (hm : s.step? m.step = some x)
    (hn : s.step? n.step = some x) : s.opCtxs [a, b] = [x.ctx] := by
  simp [State.opCtxs, ha, hb, hm, hn, addSet]

theorem wholeBarrier_mismatch {s : State} {a b : Op} {m n : OpMember} {x : Step} (h : s.Meeting a b) (hne : a.kind ≠ b.kind) (ha : a.members = [m])
    (hb : b.members = [n]) (hm : s.step? m.step = some x) (hn : s.step? n.step = some x) (hk : s.killable x (weftSrc .a 0x1D))
    (hs : s.silent (weftSrc .b 0x1D)) :
    ∃ t, exec .wholeBarrier s = .next t ∧ t.killed s x 3 (weftSrc .a 0x1D) (cap (some x.ctx) noMaster 0 0 0) ∧
      t.captured (weftSrc .b 0x1D) (cap (some x.ctx) noMaster 0 0 0) := by
  have hsrc : weftSrc .a 0x1D ≠ weftSrc .b 0x1D := by decide
  have hex := h.exec
  rw [if_pos (.inl hne), State.opCtxs_pair ha hb hm hn] at hex
  have hsil := State.silent_after_kill hk hs hsrc.symm 3 (cap (some x.ctx) noMaster 0 0 0)
  exact ⟨_, hex, (State.endCtx_killed hk 3 _).raised hsil hsrc, (State.raise_silent _ _ _ hsil).2.1⟩

/-- Settles O47: a unit starts its front, waits, or ends the context of an operation whose checker fires; windows and barriers run theirs. -/
theorem queuedOperationsStart : Obligations.QueuedOperationsStart := by
  unfold Obligations.QueuedOperationsStart
  refine ⟨fun d u o rest s hq hf hr ho hz => queuedOpStart_runs ⟨hq, hf, hr, ho⟩ hz,
    fun d u o rest m x k s hq hf hr ho hz hm hx hk => queuedOpStart_hazard ⟨hq, hf, hr, ho⟩ hz hm hx hk k,
    fun d o rest m x l e cube col row chan n delta k f s hq hf hr ho hz hm hb hrow hx hl hbat hk => ?_,
    mismatch_eq_false,
    fun d o rest m x e row s hq hf hr ho hz hm hb hrow hx he ht hk => ?_,
    fun d o rest m x row s hq hf hr ho hz hm hx => ⟨fun hk => ?_, fun hk => ?_⟩,
    fun d u o rest k s hq h => queuedOpStart_waits hq h k,
    fun d w s hw hc hs hne hnd ha _ ht => gatherHoldExpiry_runs hw hc hs hne hnd ha ht,
    fun e l s h => gatherHoldExpiry_early h e l,
    fun a b s ha hb oa ob wa wb hk hp hl => wholeBarrier_goesOn ⟨ha, hb, oa, ob, wa, wb⟩ hk hp hl,
    fun a b m n l x s ha hb oa ob wa wb hka hkb hp hl hma hmb hs hm hn ua ub =>
      wholeBarrier_completes ⟨ha, hb, oa, ob, wa, wb⟩ hka hkb hp hl hma hmb hs hm hn ⟨ua.1, ua.2.2⟩ ⟨ub.1, ub.2.2⟩,
    fun a b m n x s ha hb oa ob wa wb hne hma hmb hm hn hk hsil =>
      wholeBarrier_mismatch ⟨ha, hb, oa, ob, wa, wb⟩ hne hma hmb hm hn hk hsil⟩
  · obtain ⟨hrep, hsil⟩ := queuedOpStart_strike ⟨hq, hf, hr, ho⟩ hz hm hb hrow hx hl hbat hk
    exact ⟨hrep e cube col, hsil⟩
  · have hu := s.started_units d .array o rest
    exact queuedOpStart_reports ⟨hq, hf, hr, ho⟩ hz hx hk (State.checked_coder hm hb hrow he ((hu.engineTakes e).trans ht))
  · exact queuedOpStart_reports ⟨hq, hf, hr, ho⟩ hz hx hk (State.checked_reedCoder hm row)
  · exact queuedOpStart_reports (row := 0) ⟨hq, hf, hr, ho⟩ hz hx hk (State.checked_reedIntegrity hm)

end Machine

end Sys2Proof

namespace Sys2Proof

namespace Machine

set_option Elab.async false

/-! ### A kill keeps the pairs in place (R472) -/

/-- Each die of t has as many pairs as in s. -/
def State.sameCores (t s : State) : Prop := ∀ d, (t.weft d).pairs.length = (s.weft d).pairs.length

theorem State.sameCores.trans {a b c : State} (h : a.sameCores b) (k : b.sameCores c) : a.sameCores c := fun d => (h d).trans (k d)

theorem State.sameCores.of_weft {t s : State} (h : ∀ d, t.weft d = s.weft d) : t.sameCores s := fun d => by rw [h d]

theorem State.sameCores.foldl {α : Type} {f : State → α → State} (h : ∀ t x, (f t x).sameCores t) (l : List α) : ∀ s, (l.foldl f s).sameCores s := by
  induction l with
  | nil => exact fun _ _ => rfl
  | cons x l ih => exact fun s => (ih (f s x)).trans (h s x)

theorem State.modWeft_cores (s : State) (d : Weft) {f : WeftDie → WeftDie} (hf : ∀ w, (f w).pairs.length = w.pairs.length) :
    (s.modWeft d f).sameCores s := fun e => by
  by_cases h : e = d
  · rw [h, State.weft_modWeft, hf]
  · rw [State.weft_modWeft_ne s h]

theorem State.sendTo_cores (a : State × Window) (d : Weft) : (State.sendTo a d).1.sameCores a.1 := by
  unfold State.sendTo
  split
  · exact State.modWeft_cores a.1 d fun _ => rfl
  · exact fun _ => rfl

theorem State.sendWindows_cores (s : State) : s.sendWindows.sameCores s := by
  have h : ∀ (ws : List Window) (a : State × List Window), (ws.foldl s.sendWindow a).1.sameCores a.1 := fun ws => by
    induction ws with
    | nil => exact fun _ _ => rfl
    | cons w ws ih => exact fun a => (ih (s.sendWindow a w)).trans ((State.sendTo_cores _ .b).trans (State.sendTo_cores (a.1, w) .a))
  rw [State.sendWindows_eq]
  exact h s.sched.windows (s, [])

theorem State.putMem_cores (s : State) (e : Env) (k : Nat) : State.sameCores { s.putMem e with freshCtr := k } s := fun d => by cases d <;> rfl

theorem State.cutShort_cores (s : State) (t : Step) (d : Weft) : (s.cutShort t d).sameCores s := .foldl (fun u _ => State.putMem_cores u _ _) _ s

theorem State.cutFreezes_cores (s : State) (t : Step) (d : Weft) : (s.cutFreezes t d).sameCores s :=
  .of_weft fun e => (congrArg (fun u : State => u.weft e) (State.cutFreezes_onlyDraws s t d).1 :)

theorem State.dropped_cores (s : State) (t : Step) : (s.dropped t).sameCores s := fun d => by
  cases d
  · simp [State.dropped, WeftDie.dropStep, State.weft]
  · simp [State.dropped, WeftDie.dropStep, State.weft]

theorem State.dropWork_cores (s : State) (t : Step) : (s.dropWork t).sameCores s := by
  have ht : s.dropWork t = (State.dropped ((((s.cutFreezes t .a).cutFreezes t .b).cutShort t .a).cutShort t .b) t).sendWindows := rfl
  rw [ht]
  exact (State.sendWindows_cores _).trans ((State.dropped_cores _ t).trans ((State.cutShort_cores _ t .b).trans ((State.cutShort_cores _ t .a).trans
    ((State.cutFreezes_cores _ t .b).trans (s.cutFreezes_cores t .a)))))

theorem State.endCtx_cores {s : State} {x : Step} (hb : s.begunStep x.ctx = some x) (hk : lookupN s.ladder.kills x.ctx = none) (status : Nat) :
    (s.endCtx x.ctx status).sameCores s := by
  have hsp := (s.dropWork x).spoil_frame x
  rw [State.endCtx_kills hb hk]
  refine State.sameCores.trans (fun d => ?_) (s.dropWork_cores x)
  exact (congrArg (fun u : State => (u.weft d).pairs.length) hsp :)

theorem State.sameCores.pair? {t s : State} (h : t.sameCores s) {n : Nat} {p : Pair} (hp : s.pair? n = some p) : ∃ q, t.pair? n = some q := by
  obtain ⟨hn, hg⟩ := State.pair?_weft hp
  obtain ⟨hlt, -⟩ := List.getElem?_eq_some_iff.mp hg
  rw [← h (weftOf n)] at hlt
  exact ⟨_, State.pair?_of_weft hn (List.getElem?_eq_getElem hlt)⟩

/-! ### Two cores that differ (R109) -/

/-- A kill of step x with a status has begun in t, no source raised yet. -/
structure State.Ended (t s : State) (x : Step) (status : Nat) : Prop where
  ops : t.servesNot x.id
  latches : ∀ l ∈ t.latches, l.2 ≠ .program x.ctx
  kills : lookupN t.ladder.kills x.ctx = some status
  hosts : x.stage ≠ .delivering → t.hostMemA = s.hostMemA ∧ t.hostMemB = s.hostMemB
  work : t.sameButWork s

theorem State.endCtx_ended {s : State} {x : Step} (hb : s.begunStep x.ctx = some x) (hk : lookupN s.ladder.kills x.ctx = none) (status : Nat) :
    (s.endCtx x.ctx status).Ended s x status := by
  obtain ⟨h1, h2, h3, h4, h5⟩ := State.endCtx_frame hb hk status
  exact ⟨h1, h2, h3, h4, h5⟩

theorem State.modPair_ops (s : State) (n : Nat) (f : Pair → Pair) (d : Weft) : ((s.modPair n f).weft d).ops = (s.weft d).ops := by
  unfold State.modPair
  split
  · cases weftOf n with
    | a => cases d <;> rfl
    | b => cases d <;> rfl
  · rfl

theorem State.Ended.modPair {t s : State} {x : Step} {status : Nat} (h : t.Ended s x status) (n : Nat) (f : Pair → Pair) :
    (t.modPair n f).Ended s x status := by
  have hd := t.modPair_onlyDies n f
  have hlat : (t.modPair n f).latches = t.latches := (congrArg (fun u : State => u.latches) hd :)
  have hw : (t.modPair n f).sameButWork t :=
    State.sameButDies.work ((congrArg (fun u : State => u.sameButDraws t) hd :).mpr (.refl t))
  refine ⟨fun d o ho => h.ops d o (t.modPair_ops n f d ▸ ho), fun l hl => h.latches l (hlat ▸ hl),
    (congrArg (fun u : State => lookupN u.ladder.kills x.ctx) hd :).trans h.kills, fun hs => ?_, hw.trans h.work⟩
  obtain ⟨ha, hb⟩ := h.hosts hs
  exact ⟨(congrArg (fun u : State => u.hostMemA) hd :).trans ha, (congrArg (fun u : State => u.hostMemB) hd :).trans hb⟩

theorem State.Ended.counted {t u s : State} {x : Step} {status : Nat} (h : u.Ended s x status) (hf : t.sameButCounters u) : t.Ended s x status := by
  have hw : t.sameButWork u := State.sameButDies.work (State.sameButDraws.dies (.of_counters hf))
  obtain ⟨h1, h2, h3, h4, h5⟩ := h
  refine ⟨fun d o ho => h1 d o (hf.weft d ▸ ho), ?_, ?_, ?_, hw.trans h5⟩
  · rw [hf.eq]; exact h2
  · rw [hf.eq]; exact h3
  · rw [hf.eq]; exact h4

/-- A kill that has begun, with its source raised. -/
theorem State.Ended.killed {t s : State} {x : Step} {status n : Nat} (h : t.Ended s x status) (hn : s.silent n) (c : Capture) :
    (t.raise n c).killed s x status n c := by
  obtain ⟨h1, h2, h3, h4, h5⟩ := h
  obtain ⟨hr, hcap, -⟩ := State.raise_silent t n c (h5.silent hn)
  generalize t.raise n c = u at hr hcap ⊢
  have hw : ∀ d, u.weft d = t.weft d := fun d => (congrArg (fun v : State => v.weft d) hr.1 :)
  have hl : u.latches = t.latches := (congrArg (fun v : State => v.latches) hr.1 :)
  refine ⟨(congrArg (fun v : State => lookupN v.ladder.kills x.ctx) hr.1 :).trans h3, hcap,
    (congrArg (fun v : State => v.steps) hr.1 :).trans (congrArg (fun v : State => v.steps) h5.1 :), fun d o ho => h1 d o (hw d ▸ ho),
    fun l hl' => h2 l (hl ▸ hl'), (congrArg (fun v : State => v.ctxs) hr.1 :).trans (congrArg (fun v : State => v.ctxs) h5.1 :),
    (congrArg (fun v : State => v.drafts) hr.1 :).trans (congrArg (fun v : State => v.drafts) h5.1 :),
    (congrArg (fun v : State => v.rings) hr.1 :).trans (congrArg (fun v : State => v.rings) h5.1 :), fun hd => ?_⟩
  obtain ⟨ha, hb⟩ := h4 hd
  exact ⟨(congrArg (fun v : State => v.hostMemA) hr.1 :).trans ha, (congrArg (fun v : State => v.hostMemB) hr.1 :).trans hb⟩

/-- Cores that differ halt their pair and kill the step. -/
theorem State.lockstepFault_killed {s : State} {n : Nat} {p : Pair} {x : Step} (hp : s.pair? n = some p)
    (hk : s.killable x (weftSrc (weftOf n) (0x10 + n % 4))) (r : Running) (pc : Dword) :
    ((s.lockstepFault n x r pc).pair? n).map (fun q => q.halted) = some true ∧
      (s.lockstepFault n x r pc).killed s x 3 (weftSrc (weftOf n) (0x10 + n % 4)) (cap (some x.ctx) (pairMaster n) 0 pc r.program) := by
  obtain ⟨hb, hkl, hn⟩ := hk
  have hcnt := bumpAon_onlyCounters ((s.endCtx x.ctx 3).modPair n (fun p => { p with halted := true })) (dieNo (weftOf n)) 11 1 (dieNo_lt (weftOf n))
  have hend := ((State.endCtx_ended hb hkl 3).modPair n (fun p => { p with halted := true })).counted hcnt
  obtain ⟨q, hq⟩ := (State.endCtx_cores hb hkl 3).pair? hp
  have hq' := State.pair?_modPair hq (fun p => { p with halted := true })
  rw [← State.pair?_congr (congrArg WeftDie.pairs (hcnt.weft (weftOf n)))] at hq'
  obtain ⟨hr, -⟩ := State.raise_silent _ _ (cap (some x.ctx) (pairMaster n) 0 pc r.program) (hend.work.silent hn)
  have hpair := State.pair?_congr (congrArg (fun u : State => (u.weft (weftOf n)).pairs) hr.1 :)
  refine ⟨?_, hend.killed hn _⟩
  exact (congrArg (fun z : Option Pair => z.map (fun q => q.halted)) (hpair.trans hq')).trans rfl

/-! ### The outcomes of RV64_INSTRUCTION (R109 to R115) -/

section
variable {s : State} {n : Nat} {p : Pair} {r : Running} {x : Step} (h : s.executes n p r x) (st : Option CoreStrike) (k : Nat) (c : ReadChecks)
include h

theorem rv64_ecc : exec (.rv64Instruction n st true k c) s = .next ((s.endCtx x.ctx 2).raisePair n 0x14 x r p.pc) := by
  change execRv64Instruction n st true k c s = _
  rw [execRv64Instruction, State.onPair_executes h]
  rfl

theorem rv64_unfetched (hf : p.fetch = none) : exec (.rv64Instruction n st false k c) s = .next (s.progFault n x r p.pc) := by
  change execRv64Instruction n st false k c s = _
  rw [execRv64Instruction, State.onPair_executes h, hf]
  rfl

variable {len w : Nat} (hf : p.fetch = some (len, w))
include hf

theorem rv64_row (hr : rowOf n Move.none (BitVec.ofNat 32 w) ≠ none) :
    exec (.rv64Instruction n st false k c) s = .next (if st.any (rowStruck w) then s.lockstepFault n x r p.pc else s) := by
  have hs : (rowOf n Move.none (BitVec.ofNat 32 w)).isSome = true := Option.isSome_iff_ne_none.mpr hr
  change execRv64Instruction n st false k c s = _
  rw [execRv64Instruction, State.onPair_executes h, hf]
  dsimp only
  rw [hs]
  rfl

variable (hr : rowOf n Move.none (BitVec.ofNat 32 w) = none)
include hr

theorem rv64_illegal (ho : s.coreStep n p x r len w = none) : exec (.rv64Instruction n st false k c) s = .next (s.progFault n x r p.pc) := by
  change execRv64Instruction n st false k c s = _
  rw [execRv64Instruction, State.onPair_executes h, hf]
  dsimp only
  rw [hr, ho]
  rfl

variable {o : RvOut} (ho : s.coreStep n p x r len w = some o)
include ho

theorem rv64_struck (hs : st.any o.struck = true) : exec (.rv64Instruction n st false k c) s = .next (s.lockstepFault n x r p.pc) := by
  change execRv64Instruction n st false k c s = _
  rw [execRv64Instruction, State.onPair_executes h, hf]
  dsimp only
  rw [hr, ho]
  dsimp only
  rw [hs]
  rfl

theorem rv64_completes (hs : st.any o.struck = false) : exec (.rv64Instruction n st false k c) s = .next
    (if !(s.readChecks c (some x.ctx)).live x.id then s.readChecks c (some x.ctx)
      else (s.readChecks c (some x.ctx)).retireRv n x r p.pc k o) := by
  change execRv64Instruction n st false k c s = _
  rw [execRv64Instruction, State.onPair_executes h, hf]
  dsimp only
  rw [hr, ho]
  dsimp only
  rw [hs]
  rfl

/-- An instruction whose reads meet no error retires. -/
theorem rv64_retires (hs : st.any o.struck = false) (hl : s.live x.id = true) :
    exec (.rv64Instruction n st false k { fixed := [], hit := none }) s = .next (s.retireRv n x r p.pc k o) := by
  have hrc : s.readChecks { fixed := [], hit := none } (some x.ctx) = s := rfl
  rw [rv64_completes h st k _ hf hr ho hs, hrc, hl]
  rfl

/-- Data of the step that an instruction's read has lost ends it. -/
theorem rv64_lost {y : Weft} {a : Nat} (hown : s.beamOwner y a = .step x.ctx) (hk : s.killable x (weftSrc y 0x20)) (b : Byte) :
    ∃ t, exec (.rv64Instruction n none false k { fixed := [], hit := some { place := .beam y a, master := b } }) s = .next t ∧
      t.killed s x 2 (weftSrc y 0x20) (cap (some x.ctx) b 1 (BitVec.ofNat 64 a) 0) := by
  have hkill := State.dataLost_beam_killed hown hk b (some x.ctx)
  have hrc : s.readChecks { fixed := [], hit := some { place := .beam y a, master := b } } (some x.ctx) =
      s.dataLost { place := .beam y a, master := b } (some x.ctx) := rfl
  have hex := rv64_completes h none k { fixed := [], hit := some { place := .beam y a, master := b } } hf hr ho rfl
  rw [hrc] at hex
  generalize s.dataLost { place := .beam y a, master := b } (some x.ctx) = t at hkill hex
  have hlive : t.live x.id = false := by
    obtain ⟨hkl, -, hsteps, -⟩ := hkill
    have hx : t.step? x.id = some x := by rw [State.step?, hsteps]; exact State.step?_of_executes h
    rw [State.live, hx]
    simp [hkl]
  rw [hlive] at hex
  exact ⟨t, hex, hkill⟩

end

/-- What makes a strike of an instruction show (R109). -/
theorem RvOut.struck_of {o : RvOut} {st : CoreStrike} (hm : st.mask ≠ 0)
    (h : st.place = .pc ∨ st.place = .dest ∧ o.writes = true ∨ (st.place = .storeAddr ∨ st.place = .storeData) ∧ o.stores ≠ []) :
    o.struck st = true := by
  have hst : o.stores ≠ [] → (!o.stores.isEmpty) = true := fun hne => by simpa using hne
  rcases h with hp | ⟨hp, hw⟩ | ⟨hp | hp, hs⟩
  · simp only [RvOut.struck, hp, decide_eq_true hm, Bool.and_self]
  · simp only [RvOut.struck, hp, hw, decide_eq_true hm, Bool.and_self]
  · simp only [RvOut.struck, hp, hst hs, decide_eq_true hm, Bool.and_self]
  · simp only [RvOut.struck, hp, hst hs, decide_eq_true hm, Bool.and_self]

theorem rv64_strike {s : State} {n : Nat} {p : Pair} {r : Running} {x : Step} {st : CoreStrike} {len w : Nat} {o : RvOut} (h : s.executes n p r x)
    (hf : p.fetch = some (len, w)) (hr : rowOf n Move.none (BitVec.ofNat 32 w) = none) (ho : s.coreStep n p x r len w = some o)
    (hs : o.struck st = true) (hk : s.killable x (weftSrc (weftOf n) (0x10 + n % 4))) (k : Nat) (c : ReadChecks) :
    ∃ t, exec (.rv64Instruction n (some st) false k c) s = .next t ∧ (t.pair? n).map (fun q => q.halted) = some true ∧
      t.killed s x 3 (weftSrc (weftOf n) (0x10 + n % 4)) (cap (some x.ctx) (pairMaster n) 0 p.pc r.program) :=
  ⟨_, rv64_struck h (some st) k c hf hr ho hs, State.lockstepFault_killed h.1 hk r p.pc⟩

theorem extractLsb'_op (w : Nat) : ((BitVec.ofNat 32 w).extractLsb' 0 7).toNat = w % 128 := by
  rw [BitVec.extractLsb'_toNat, BitVec.toNat_ofNat, Nat.shiftRight_zero]
  omega

/-- An instruction with a row of its own and the opcode of the Loom control instructions is one of them. -/
theorem isLoomWord_of_row {n w : Nat} (hr : rowOf n Move.none (BitVec.ofNat 32 w) ≠ none) (hop : w % 128 = 0x0B) :
    isLoomWord (BitVec.ofNat 32 w) = true := by
  have hx := extractLsb'_op w
  by_contra hl
  have h1 : BitVec.ofNat 32 w ≠ 0x73#32 := fun he => by rw [he, hop] at hx; exact absurd hx (by decide)
  have h2 : BitVec.ofNat 32 w ≠ 0x100073#32 := fun he => by rw [he, hop] at hx; exact absurd hx (by decide)
  have h3 : ¬((BitVec.ofNat 32 w).extractLsb' 0 7 = 0x73#7 ∧ (BitVec.ofNat 32 w).extractLsb' 12 20 = 0xC0102#20) := fun ⟨he, _⟩ => by
    rw [he, hop] at hx
    exact absurd hx (by decide)
  exact hr (by rw [rowOf, if_neg h1, if_neg h2, if_neg h3, if_neg hl])

theorem rowStruck_of {n w : Nat} {st : CoreStrike} (hr : rowOf n Move.none (BitVec.ofNat 32 w) ≠ none) (hm : st.mask ≠ 0)
    (h : st.place = .pc ∨ st.place = .loomOperands ∧ w % 128 = 0x0B) : rowStruck w st = true := by
  rcases h with hp | ⟨hp, hop⟩
  · simp only [rowStruck, hp, decide_eq_true hm, Bool.and_self]
  · simp only [rowStruck, hp, isLoomWord_of_row hr hop, decide_eq_true hm, Bool.and_self]

/-- An instruction with a row of its own is left to it, unless a strike shows. -/
theorem rv64_rowed {s : State} {n : Nat} {p : Pair} {r : Running} {x : Step} {st : CoreStrike} {len w : Nat} (h : s.executes n p r x)
    (hf : p.fetch = some (len, w)) (hr : rowOf n Move.none (BitVec.ofNat 32 w) ≠ none) (hs : rowStruck w st = true)
    (hk : s.killable x (weftSrc (weftOf n) (0x10 + n % 4))) (k : Nat) (c : ReadChecks) :
    exec (.rv64Instruction n none false k c) s = .next s ∧
    ∃ t, exec (.rv64Instruction n (some st) false k c) s = .next t ∧ (t.pair? n).map (fun q => q.halted) = some true ∧
      t.killed s x 3 (weftSrc (weftOf n) (0x10 + n % 4)) (cap (some x.ctx) (pairMaster n) 0 p.pc r.program) := by
  refine ⟨rv64_row h none k c hf hr, _, ?_, State.lockstepFault_killed h.1 hk r p.pc⟩
  rw [rv64_row h (some st) k c hf hr, Option.any_some, hs]
  rfl

theorem rv64_faults {s : State} {n : Nat} {p : Pair} {r : Running} {x : Step} (h : s.executes n p r x)
    (hw : p.fetch = none ∨ ∃ len w, p.fetch = some (len, w) ∧ rowOf n Move.none (BitVec.ofNat 32 w) = none ∧ s.coreStep n p x r len w = none)
    (hk : s.killable x (weftSrc (weftOf n) (0x14 + n % 4))) (st : Option CoreStrike) (k : Nat) (c : ReadChecks) :
    ∃ t, exec (.rv64Instruction n st false k c) s = .next t ∧
      t.killed s x 3 (weftSrc (weftOf n) (0x14 + n % 4)) (cap (some x.ctx) (pairMaster n) 0 p.pc r.program) := by
  rcases hw with hf | ⟨len, w, hf, hr, ho⟩
  · exact ⟨_, rv64_unfetched h st k c hf, State.progFault_killed hk r p.pc⟩
  · exact ⟨_, rv64_illegal h st k c hf hr ho, State.progFault_killed hk r p.pc⟩

/-! ### Budgets (R116) -/

theorem shuttleBudgetExpiry_kills {s : State} {n : Nat} {p : Pair} {r : Running} {x : Step} (hp : s.pair? n = some p) (hr : p.watched = some r)
    (hx : s.step? r.step = some x) (hc : s.clocked (.shuttle (weftOf n)) = true) (ho : s.pairOn n = true) (hu : s.unitUp (.pair n) = true)
    (hk : s.killable x (weftSrc (weftOf n) (0x18 + n % 4))) :
    ∃ t, exec (.shuttleBudgetExpiry n) s = .next t ∧
      t.killed s x 3 (weftSrc (weftOf n) (0x18 + n % 4)) (cap (some x.ctx) (pairMaster n) 0 p.pc r.program) := by
  have hex : exec (.shuttleBudgetExpiry n) s = .next ((s.endCtx x.ctx 3).raisePair n 0x18 x r p.pc) := by
    change execShuttleBudgetExpiry n s = _
    simp [execShuttleBudgetExpiry, hp, hr, hx, hc, ho, hu]
  exact ⟨_, hex, State.endCtx_killed hk 3 _⟩

/-- A pair that stalls on tickets runs against no budget. -/
theorem shuttleBudgetExpiry_stalled {s : State} {n : Nat} {p : Pair} (hp : s.pair? n = some p)
    (hs : p.stall = some .all ∨ ∃ k, p.stall = some (.ticket k)) : exec (.shuttleBudgetExpiry n) s = .next s := by
  have hw : p.watched = none := by
    rcases hs with hs | ⟨k, hs⟩
    · simp [Pair.watched, hs]
    · simp [Pair.watched, hs]
  change execShuttleBudgetExpiry n s = _
  simp [execShuttleBudgetExpiry, hp, hw]

end Machine

end Sys2Proof

namespace Sys2Proof

namespace Machine

set_option Elab.async false

/-! ### The words of the base instruction formats (log entry 12) -/

/-- The fields of an instruction word of 32 bits. -/
structure HasFields (w f7 rs2 rs1 f3 rd op : Nat) : Prop where
  opcode : w % 128 = op
  dest : bitsN w 11 7 = rd
  funct3 : bitsN w 14 12 = f3
  source1 : bitsN w 19 15 = rs1
  source2 : bitsN w 24 20 = rs2
  funct7 : bitsN w 31 25 = f7
  upper : bitsN w 31 20 = f7 * 32 + rs2
  lt : w < 2 ^ 32

theorem encR_fields {f7 rs2 rs1 f3 rd op : Nat} (h7 : f7 < 128) (h2 : rs2 < 32) (h1 : rs1 < 32) (h3 : f3 < 8) (hd : rd < 32) (ho : op < 128) :
    HasFields (encR f7 rs2 rs1 f3 rd op) f7 rs2 rs1 f3 rd op := by
  constructor
  all_goals
    simp only [encR, bitsN]
    omega

theorem encI_fields {m rs1 f3 rd op : Nat} (hm : m < 4096) (h1 : rs1 < 32) (h3 : f3 < 8) (hd : rd < 32) (ho : op < 128) :
    HasFields (encI m rs1 f3 rd op) (m / 32) (m % 32) rs1 f3 rd op := by
  have he : encI m rs1 f3 rd op = encR (m / 32) (m % 32) rs1 f3 rd op := by
    simp only [encI, encR]
    omega
  rw [he]
  exact encR_fields (by omega) (by omega) h1 h3 hd ho

theorem encS_fields {m rs2 rs1 f3 op : Nat} (hm : m < 4096) (h2 : rs2 < 32) (h1 : rs1 < 32) (h3 : f3 < 8) (ho : op < 128) :
    HasFields (encS m rs2 rs1 f3 op) (m / 32) rs2 rs1 f3 (m % 32) op := by
  have h7 : bitsN m 11 5 = m / 32 := by simp only [bitsN]; omega
  have hd : bitsN m 4 0 = m % 32 := by simp only [bitsN]; omega
  rw [encS, h7, hd]
  exact encR_fields (by omega) h2 h1 h3 (by omega) ho

/-- A word without the opcodes of SYSTEM and custom-0 has no row of its own. -/
theorem rowOf_eq_none {w : Nat} (h1 : w % 128 ≠ 0x73) (h2 : w % 128 ≠ 0x0B) (n : Nat) (mv : Move) : rowOf n mv (BitVec.ofNat 32 w) = none := by
  have hx := extractLsb'_op w
  have hop : (BitVec.ofNat 32 w).extractLsb' 0 7 ≠ 0x73#7 := fun he => h1 (by rw [← hx, he]; rfl)
  have hl : isLoomWord (BitVec.ofNat 32 w) ≠ true := fun hl => by
    rw [isLoomWord, Bool.and_eq_true, beq_iff_eq] at hl
    exact h2 (by rw [← hx, hl.1]; rfl)
  have he1 : BitVec.ofNat 32 w ≠ 0x73#32 := fun he => hop (by rw [he]; decide)
  have he2 : BitVec.ofNat 32 w ≠ 0x100073#32 := fun he => hop (by rw [he]; decide)
  rw [rowOf, if_neg he1, if_neg he2, if_neg (fun hc => hop hc.1), if_neg hl]

/-- What an instruction meets on a pair. -/
def State.rvIn (s : State) (p : Pair) : RvIn := { p := p, next := p.pc + BitVec.ofNat 64 4, now := s.time.now, k := s.freshCtr }

theorem State.coreStep_scalar {w : Nat} (h : isVecWord w = false) (s : State) (n : Nat) (p : Pair) (x : Step) (r : Running) :
    s.coreStep n p x r 4 w = (s.rvIn p).exec (s.loadAt n x r) w := by
  unfold State.coreStep
  dsimp only
  rw [h]
  rfl

theorem isVecWord_eq_false {w : Nat} (h1 : w % 128 ≠ 0x57) (h2 : w % 128 ≠ 0x07) (h3 : w % 128 ≠ 0x27) : isVecWord w = false := by
  simp [isVecWord, h1, h2, h3]

theorem sextN_small {m : Nat} (h : m < 2048) : sextN 12 m = BitVec.ofNat 64 m := by
  have hm : m % 2 ^ 12 = m := Nat.mod_eq_of_lt (by omega)
  rw [sextN, hm, signedOf, if_pos (by omega), BitVec.ofInt_natCast]

theorem sextN_dword (v : Nat) : sextN 64 v = BitVec.ofNat 64 v := by
  apply BitVec.eq_of_toNat_eq
  rw [sextN, signedOf, BitVec.toNat_ofInt, BitVec.toNat_ofNat]
  norm_num
  split
  · omega
  · omega

section
variable (c : RvIn) (ld : RvMem) {w a b d m : Nat}

theorem RvIn.exec_add (h : HasFields w 0 b a 0 d 0x33) : c.exec ld w = some { pair := c.on.setX d (c.p.getX a + c.p.getX b) } := by
  simp only [RvIn.exec, h.opcode, h.dest, h.funct3, h.source1, h.source2, h.funct7, rvOp, rvAlu, RvIn.x]
  rfl

theorem RvIn.load_dword (a : Nat) : c.load ld 3 d a = (ld a 8).map (fun v => { pair := c.on.setX d (BitVec.ofNat 64 v), loads := [(a, 8)] }) := by
  have h : c.load ld 3 d a = (ld a 8).map (fun v => { pair := c.on.setX d (sextN 64 v), loads := [(a, 8)] }) := rfl
  simp only [h, sextN_dword]

theorem RvIn.exec_ld (h : HasFields w (m / 32) (m % 32) a 3 d 0x03) (hm : m < 2048) : c.exec ld w =
    (ld (c.p.getX a + BitVec.ofNat 64 m).toNat 8).map (fun v =>
      { pair := c.on.setX d (BitVec.ofNat 64 v), loads := [((c.p.getX a + BitVec.ofNat 64 m).toNat, 8)] }) := by
  have hi : m / 32 * 32 + m % 32 = m := by omega
  simp only [RvIn.exec, h.opcode, h.dest, h.funct3, h.source1, h.upper, hi, sextN_small hm, RvIn.load_dword]

theorem RvIn.exec_store {f : Nat} (h : HasFields w (m / 32) b a f (m % 32) 0x23) (hf : f ≤ 3) (hm : m < 2048) : c.exec ld w = some
    { pair := c.on, stores := [((c.p.getX a + BitVec.ofNat 64 m).toNat, 2 ^ f, (c.p.getX b).toNat % 2 ^ (8 * 2 ^ f))], writes := false } := by
  have hi : m / 32 * 32 + m % 32 = m := by omega
  simp only [RvIn.exec, h.opcode, h.dest, h.funct3, h.source1, h.source2, h.funct7, hi, sextN_small hm, if_neg (Nat.not_lt.mpr hf)]

theorem RvIn.exec_vlenb (h : HasFields w 97 2 0 2 d 0x73) : c.exec ld w = some { pair := c.on.setX d 32, draws := 1 } := by
  simp only [RvIn.exec, h.opcode, h.dest, h.funct3, h.source1, h.upper, RvIn.csrOp, RvIn.csr]
  rfl

/-- The dynamic rounding mode is that of frm, where it is not reserved. -/
theorem Pair.rmOf_frm {p : Pair} (h : p.frm.toNat ≤ 4) : p.rmOf 7 = some p.frm.toNat := by simp [Pair.rmOf, h]

theorem RvIn.exec_fadd (h : HasFields w 1 b a 7 d 0x53) (hr : c.p.frm.toNat ≤ 4) : c.exec ld w =
    c.f 64 d (addF 64 c.p.frm.toNat (unpackF 64 (c.p.getF 64 a)) (unpackF 64 (c.p.getF 64 b))) := by
  simp only [RvIn.exec, h.opcode, h.dest, h.funct3, h.source1, h.source2, h.funct7, RvIn.opFp, Pair.rmOf_frm hr]
  rfl

end

end Machine

end Sys2Proof

namespace Sys2Proof

namespace Machine

set_option Elab.async false

/-! ### What a retiring instruction leaves (R109 to R115) -/

/-- The pair q when an instruction retires that gives its core the registers of o after k clocks. -/
def Pair.after (o : Pair) (k : Nat) (q : Pair) : Pair :=
  { q.take o with
    debugStep := false
    run := q.run.map (fun (x : Running) => { x with clocks := x.clocks + k, instrs := x.instrs + 1 }) }

theorem Pair.after_setX_wrote (p : Pair) (k d : Nat) (v : Dword) : (Pair.after (Pair.setX { p with pc := p.pc + 4 } d v) k p).wrote p d v := by
  have h : Pair.after (Pair.setX { p with pc := p.pc + 4 } d v) k p = Pair.setX { p with
      pc := p.pc + 4
      debugStep := false
      run := p.run.map (fun (x : Running) => { x with clocks := x.clocks + k, instrs := x.instrs + 1 }) } d v := by
    unfold Pair.setX
    split
    · rfl
    · rfl
  rw [h]
  exact Pair.wrote_setX p d v _ _

/-- A state of which the draws moved on, with a pair updated. -/
theorem State.modPair_draws (s : State) (j n : Nat) (f : Pair → Pair) : (State.modPair { s with freshCtr := j } n f).sameButDraws (s.modPair n f) := by
  unfold State.modPair
  split
  · cases weftOf n with
    | a => exact ⟨rfl, fun _ _ => rfl⟩
    | b => exact ⟨rfl, fun _ _ => rfl⟩
  · exact ⟨rfl, fun _ _ => rfl⟩

theorem State.modPair_modPair (s : State) (n : Nat) (f g : Pair → Pair) : (s.modPair n f).modPair n g = s.modPair n (fun p => g (f p)) := by
  unfold State.modPair
  split
  · rw [State.modWeft_modWeft]
    simp only [modAt_modAt]
  · rfl

theorem State.windowBytes_onlyCounters (s : State) (n : Nat) (x : Step) (r : Running) (a w : Nat) (write : Bool) :
    (s.windowBytes n x r a w write).sameButCounters s := by
  unfold State.windowBytes
  split
  · split
    · exact countEv_onlyCounters _ _ (dieNo_lt (weftOf n))
    · exact .refl s
  · exact .refl s

theorem State.windowReads_onlyCounters (n : Nat) (x : Step) (r : Running) (ls : List (Nat × Nat)) (s : State) :
    (ls.foldl (fun u m => u.windowBytes n x r m.1 m.2 false) s).sameButCounters s :=
  .foldl _ _ (fun u (m : Nat × Nat) => State.windowBytes_onlyCounters u n x r m.1 m.2 false) s

/-- Draws that follow a change of counters. -/
theorem State.sameButCounters.draws {t s : State} (h : t.sameButCounters s) (j : Nat) :
    State.sameButCounters { t with freshCtr := t.freshCtr + j } { s with freshCtr := s.freshCtr + j } := by
  have hk : t.freshCtr = s.freshCtr := (congrArg (fun u : State => u.freshCtr) h.1 :)
  rw [hk]
  exact ⟨(congrArg (fun u : State => { u with freshCtr := s.freshCtr + j }) h.1 :), h.2⟩

/-- An instruction that stores nothing changes its pair, the draws and counters. -/
theorem State.retireRv_noStores {o : RvOut} (ho : o.stores = []) (s : State) (n : Nat) (x : Step) (r : Running) (pc : Dword) (k : Nat) :
    (s.retireRv n x r pc k o).sameButCounters (State.modPair { s with freshCtr := s.freshCtr + o.draws } n (Pair.after o.pair k)) := by
  have h1 := State.windowReads_onlyCounters n x r o.loads s
  unfold State.retireRv
  rw [ho]
  exact (State.retired_onlyCounters _ n x false).trans ((h1.draws o.draws).modPair n (Pair.after o.pair k))

/-- An instruction of one store that lands. -/
theorem State.retireRv_stored {o : RvOut} {s u : State} {n : Nat} {x : Step} {r : Running} {a w v : Nat} (hl : o.loads = []) (hs : o.stores = [(a, w, v)])
    (hd : o.draws = 0) (hu : s.storeAt n x r a w v = some u) (pc : Dword) (k : Nat) :
    (s.retireRv n x r pc k o).sameButCounters (u.modPair n (Pair.after o.pair k)) := by
  have hst : State.stores n x r s [(a, w, v)] = (u.windowBytes n x r a w true, false) := by
    rw [State.stores, hu]
    rfl
  have h1 := State.windowBytes_onlyCounters u n x r a w true
  unfold State.retireRv
  rw [hl, hs]
  dsimp only [List.foldl_nil]
  rw [hst, hd]
  exact (State.retired_onlyCounters _ n x false).trans (h1.modPair n (Pair.after o.pair k))

/-- An instruction of one store that faults. -/
theorem State.retireRv_faulted {o : RvOut} {s : State} {n : Nat} {x : Step} {r : Running} {a w v : Nat} (hl : o.loads = []) (hs : o.stores = [(a, w, v)])
    (hu : s.storeAt n x r a w v = none) (pc : Dword) (k : Nat) : s.retireRv n x r pc k o = s.progFault n x r pc := by
  have hst : State.stores n x r s [(a, w, v)] = (s, true) := by
    rw [State.stores, hu]
  unfold State.retireRv
  rw [hl, hs]
  dsimp only [List.foldl_nil]
  rw [hst]
  rfl

theorem State.modPair_beam (s : State) (n : Nat) (f : Pair → Pair) (d : Weft) : ((s.modPair n f).weft d).beam = (s.weft d).beam := by
  unfold State.modPair
  split
  · cases weftOf n with
    | a => cases d <;> rfl
    | b => cases d <;> rfl
  · rfl

/-- A byte of a little-endian number. -/
theorem leBytes_getD (w : Nat) : ∀ v i : Nat, i < w → (leBytes w v).getD i 0 = BitVec.ofNat 8 (v / 256 ^ i) := by
  induction w with
  | zero => exact fun _ _ h => absurd h (Nat.not_lt_zero _)
  | succ w ih =>
    intro v i h
    cases i with
    | zero => simp [leBytes]
    | succ i => rw [leBytes, List.getD_cons_succ, ih _ i (by omega), Nat.div_div_eq_div_mul, Nat.pow_succ']

/-- csrrs of vlenb is not rdtime. -/
theorem rowOf_vlenb {d : Nat} (hd : d < 32) (n : Nat) : rowOf n Move.none (BitVec.ofNat 32 (encI 0xC22 0 2 d 0x73)) = none := by
  have hw := encI_fields (by decide : 0xC22 < 4096) (by decide : 0 < 32) (by decide : 2 < 8) hd (by decide : 0x73 < 128)
  have hval : (BitVec.ofNat 32 (encI 0xC22 0 2 d 0x73)).toNat = encI 0xC22 0 2 d 0x73 := by rw [BitVec.toNat_ofNat, Nat.mod_eq_of_lt hw.lt]
  have hbig : 0x100073 < encI 0xC22 0 2 d 0x73 := by simp only [encI]; omega
  have h1 : BitVec.ofNat 32 (encI 0xC22 0 2 d 0x73) ≠ 0x73#32 := fun he => by
    have : encI 0xC22 0 2 d 0x73 = 0x73 := hval.symm.trans (congrArg BitVec.toNat he)
    omega
  have h2 : BitVec.ofNat 32 (encI 0xC22 0 2 d 0x73) ≠ 0x100073#32 := fun he => by
    have : encI 0xC22 0 2 d 0x73 = 0x100073 := hval.symm.trans (congrArg BitVec.toNat he)
    omega
  have h3 : (BitVec.ofNat 32 (encI 0xC22 0 2 d 0x73)).extractLsb' 12 20 ≠ 0xC0102#20 := fun he => by
    have hx := (extractLsb'_ofNat _ 12 20 hw.lt).symm.trans (congrArg BitVec.toNat he)
    simp only [encI, BitVec.toNat_ofNat] at hx
    omega
  have h4 : isLoomWord (BitVec.ofNat 32 (encI 0xC22 0 2 d 0x73)) ≠ true := fun hl => by
    rw [isLoomWord, Bool.and_eq_true, beq_iff_eq] at hl
    have hx := (extractLsb'_op _).symm.trans (congrArg BitVec.toNat hl.1)
    rw [hw.opcode] at hx
    exact absurd hx (by decide)
  rw [rowOf, if_neg h1, if_neg h2, if_neg (fun hc => h3 hc.2), if_neg h4]

section
variable {s : State} {n : Nat} {p : Pair} {r : Running} {x : Step} (h : s.executes n p r x) (hl : s.live x.id = true)
include h hl

/-- An instruction without stores retires with its registers. -/
theorem rv64_writes {st : Option CoreStrike} {len w : Nat} {o : RvOut} (hf : p.fetch = some (len, w)) (hr : rowOf n Move.none (BitVec.ofNat 32 w) = none)
    (ho : s.coreStep n p x r len w = some o) (hs : o.stores = []) (hst : st.any o.struck = false) (k : Nat) :
    ∃ t, exec (.rv64Instruction n st false k { fixed := [], hit := none }) s = .next t ∧
      State.onlyPair { t with freshCtr := s.freshCtr } s n p (Pair.after o.pair k p) ∧ (o.draws = 0 → t.onlyPair s n p (Pair.after o.pair k p)) := by
  have ht := State.retireRv_noStores hs s n x r p.pc k
  refine ⟨_, rv64_retires h st k hf hr ho hst hl, State.onlyPair_of_draws h.1 ?_, fun hd => State.onlyPair_of h.1 ?_⟩
  · exact (State.sameButDraws.of_counters ht).trans (State.modPair_draws s _ n _)
  · rw [hd] at ht
    exact ht

/-- The same, in the words of the statement (R109 to R114). -/
theorem rv64_registers {st : Option CoreStrike} {len w : Nat} {o : RvOut} (hf : p.fetch = some (len, w))
    (hr : rowOf n Move.none (BitVec.ofNat 32 w) = none) (ho : s.coreStep n p x r len w = some o) (hs : o.stores = []) (hst : st.any o.struck = false)
    (k : Nat) :
    ∃ t q, exec (.rv64Instruction n st false k { fixed := [], hit := none }) s = .next t ∧ State.onlyPair { t with freshCtr := s.freshCtr } s n p q ∧
      q.x = o.pair.x ∧ q.f = o.pair.f ∧ q.v = o.pair.v ∧ q.pc = o.pair.pc ∧ q.frm = o.pair.frm ∧ q.fflags = o.pair.fflags ∧
      q.vcsr = o.pair.vcsr ∧ q.resv = o.pair.resv ∧ q.run = some { r with clocks := r.clocks + k, instrs := r.instrs + 1 } ∧
      { q with x := p.x, f := p.f, v := p.v, pc := p.pc, frm := p.frm, fflags := p.fflags, vcsr := p.vcsr, resv := p.resv,
               debugStep := p.debugStep, run := p.run } = p := by
  obtain ⟨t, ht, hq, -⟩ := rv64_writes h hl hf hr ho hs hst k
  obtain ⟨hrun, -⟩ := Pair.active_runs h.2.1
  refine ⟨t, _, ht, hq, rfl, rfl, rfl, rfl, rfl, rfl, rfl, rfl, ?_, rfl⟩
  simp [Pair.after, hrun]

/-- What a scalar instruction of four bytes does. -/
theorem rv64_scalar {w : Nat} {o : RvOut} (hf : p.fetch = some (4, w)) (hv : isVecWord w = false) (hr : rowOf n Move.none (BitVec.ofNat 32 w) = none)
    (ho : (s.rvIn p).exec (s.loadAt n x r) w = some o) (hs : o.stores = []) (k : Nat) :
    ∃ t, exec (.rv64Instruction n none false k { fixed := [], hit := none }) s = .next t ∧
      State.onlyPair { t with freshCtr := s.freshCtr } s n p (Pair.after o.pair k p) ∧ (o.draws = 0 → t.onlyPair s n p (Pair.after o.pair k p)) :=
  rv64_writes h hl hf hr ((State.coreStep_scalar hv s n p x r).trans ho) hs rfl k

theorem rv64_add {d a b : Nat} (hd : d < 32) (ha : a < 32) (hb : b < 32) (hf : p.fetch = some (4, encR 0 b a 0 d 0x33)) (k : Nat) :
    ∃ t q, exec (.rv64Instruction n none false k { fixed := [], hit := none }) s = .next t ∧ t.onlyPair s n p q ∧
      q.wrote p d (p.getX a + p.getX b) := by
  have hw := encR_fields (by decide : 0 < 128) hb ha (by decide : 0 < 8) hd (by decide : 0x33 < 128)
  obtain ⟨t, ht, -, hq⟩ := rv64_scalar h hl hf (isVecWord_eq_false (by rw [hw.opcode]; decide) (by rw [hw.opcode]; decide) (by rw [hw.opcode]; decide))
    (rowOf_eq_none (by rw [hw.opcode]; decide) (by rw [hw.opcode]; decide) n Move.none) (RvIn.exec_add _ _ hw) rfl k
  exact ⟨t, _, ht, hq rfl, Pair.after_setX_wrote p k d _⟩

theorem rv64_ld {d a m v : Nat} (hd : d < 32) (ha : a < 32) (hm : m < 2048) (hf : p.fetch = some (4, encI m a 3 d 0x03))
    (hv : s.loadAt n x r (p.getX a + BitVec.ofNat 64 m).toNat 8 = some v) (k : Nat) :
    ∃ t q, exec (.rv64Instruction n none false k { fixed := [], hit := none }) s = .next t ∧ t.onlyPair s n p q ∧ q.wrote p d (BitVec.ofNat 64 v) ∧
      (∀ o, placeOf (p.getX a + BitVec.ofNat 64 m).toNat 8 = .dmem o → v = p.dmem.readLe o 8) := by
  have hw := encI_fields (by omega : m < 4096) ha (by decide : 3 < 8) hd (by decide : 0x03 < 128)
  have ho := (RvIn.exec_ld (s.rvIn p) (s.loadAt n x r) hw hm).trans (congrArg _ hv)
  obtain ⟨t, ht, -, hq⟩ := rv64_scalar h hl hf (isVecWord_eq_false (by rw [hw.opcode]; decide) (by rw [hw.opcode]; decide) (by rw [hw.opcode]; decide))
    (rowOf_eq_none (by rw [hw.opcode]; decide) (by rw [hw.opcode]; decide) n Move.none) ho rfl k
  refine ⟨t, _, ht, hq rfl, Pair.after_setX_wrote p k d _, fun o hpl => ?_⟩
  rw [State.loadAt, hpl, h.1] at hv
  exact (Option.some.inj hv).symm

theorem rv64_vlenb {d : Nat} (hd : d < 32) (hf : p.fetch = some (4, encI 0xC22 0 2 d 0x73)) (k : Nat) :
    ∃ t q, exec (.rv64Instruction n none false k { fixed := [], hit := none }) s = .next t ∧ State.onlyPair { t with freshCtr := s.freshCtr } s n p q ∧
      q.wrote p d 32 := by
  have hw := encI_fields (by decide : 0xC22 < 4096) (by decide : 0 < 32) (by decide : 2 < 8) hd (by decide : 0x73 < 128)
  have hr := rowOf_vlenb hd n
  obtain ⟨t, ht, hq, -⟩ := rv64_scalar h hl hf (isVecWord_eq_false (by rw [hw.opcode]; decide) (by rw [hw.opcode]; decide) (by rw [hw.opcode]; decide))
    hr (RvIn.exec_vlenb _ _ hw) rfl k
  exact ⟨t, _, ht, hq, Pair.after_setX_wrote p k d _⟩

theorem rv64_fadd {d a b : Nat} {z : Nat × FFlags} (hd : d < 32) (ha : a < 32) (hb : b < 32) (hf : p.fetch = some (4, encR 1 b a 7 d 0x53))
    (hrm : p.frm.toNat ≤ 4) (hlen : p.f.length = 32)
    (hz : addF 64 p.frm.toNat (unpackF 64 (p.f.getD a 0).toNat) (unpackF 64 (p.f.getD b 0).toNat) = z) (k : Nat) :
    ∃ t q, exec (.rv64Instruction n none false k { fixed := [], hit := none }) s = .next t ∧ t.onlyPair s n p q ∧
      (∀ i, i < 32 → q.f.getD i 0 = if i = d then BitVec.ofNat 64 z.1 else p.f.getD i 0) ∧ q.fflags = (p.fflags ||| BitVec.ofNat 5 z.2) ∧
      Pair.wrote { q with f := p.f, fflags := p.fflags } p 0 0 := by
  have hw := encR_fields (by decide : 1 < 128) hb ha (by decide : 7 < 8) hd (by decide : 0x53 < 128)
  have hfa : p.getF 64 a = (p.f.getD a 0).toNat := by simp [Pair.getF, Nat.mod_eq_of_lt ha]
  have hfb : p.getF 64 b = (p.f.getD b 0).toNat := by simp [Pair.getF, Nat.mod_eq_of_lt hb]
  have ho := RvIn.exec_fadd (s.rvIn p) (s.loadAt n x r) hw hrm
  change _ = (s.rvIn p).f 64 d (addF 64 p.frm.toNat (unpackF 64 (p.getF 64 a)) (unpackF 64 (p.getF 64 b))) at ho
  rw [hfa, hfb, hz] at ho
  obtain ⟨t, ht, -, hq⟩ := rv64_scalar h hl hf (isVecWord_eq_false (by rw [hw.opcode]; decide) (by rw [hw.opcode]; decide) (by rw [hw.opcode]; decide))
    (rowOf_eq_none (by rw [hw.opcode]; decide) (by rw [hw.opcode]; decide) n Move.none) ho rfl k
  refine ⟨t, _, ht, hq rfl, fun i hi => ?_, rfl, Pair.wrote_none p _ _⟩
  change (p.f.set (d % 32) (BitVec.ofNat 64 z.1)).getD i 0 = _
  rw [Nat.mod_eq_of_lt hd]
  by_cases hid : i = d
  · subst hid
    simp [hlen, hd]
  · have hdi : d ≠ i := fun he => hid he.symm
    simp [List.getD_eq_getElem?_getD, hdi, hid]

/-- A store of a register retires or faults with its one access. -/
theorem rv64_store {a b m f : Nat} (ha : a < 32) (hb : b < 32) (hm : m < 2048) (hf3 : f ≤ 3) {w : Nat} (hn : 2 ^ f = w)
    (hf : p.fetch = some (4, encS m b a f 0x23)) (k : Nat) :
    ∃ o : RvOut, o.pair = { p with pc := p.pc + 4 } ∧ o.loads = [] ∧ o.draws = 0 ∧
      o.stores = [((p.getX a + BitVec.ofNat 64 m).toNat, w, (p.getX b).toNat % 2 ^ (8 * w))] ∧
      exec (.rv64Instruction n none false k { fixed := [], hit := none }) s = .next (s.retireRv n x r p.pc k o) := by
  subst hn
  have hw := encS_fields (by omega : m < 4096) hb ha (by omega : f < 8) (by decide : 0x23 < 128)
  have hv := isVecWord_eq_false (w := encS m b a f 0x23) (by rw [hw.opcode]; decide) (by rw [hw.opcode]; decide) (by rw [hw.opcode]; decide)
  have hr := rowOf_eq_none (w := encS m b a f 0x23) (by rw [hw.opcode]; decide) (by rw [hw.opcode]; decide) n Move.none
  have ho := (State.coreStep_scalar hv s n p x r).trans (RvIn.exec_store (s.rvIn p) (s.loadAt n x r) hw hf3 hm)
  exact ⟨_, rfl, rfl, rfl, rfl, rv64_retires h none k hf hr ho rfl hl⟩

theorem rv64_sd {a b m o : Nat} (ha : a < 32) (hb : b < 32) (hm : m < 2048) (hf : p.fetch = some (4, encS m b a 3 0x23))
    (hpl : placeOf (p.getX a + BitVec.ofNat 64 m).toNat 8 = .dmem o) (hwf : p.dmem.wf = true) (k : Nat) :
    ∃ t q, exec (.rv64Instruction n none false k { fixed := [], hit := none }) s = .next t ∧ t.onlyPair s n p q ∧ Pair.wrote { q with dmem := p.dmem } p 0 0 ∧
      ∀ i, q.dmem.read i = if o ≤ i ∧ i < o + 8 then BitVec.ofNat 8 ((p.getX b).toNat / 256 ^ (i - o)) else p.dmem.read i := by
  obtain ⟨u, hu, hlo, hd, hst, hex⟩ := rv64_store (w := 8) h hl ha hb hm (le_refl 3) rfl hf k
  have hlt : (p.getX b).toNat % 2 ^ (8 * 8) = (p.getX b).toNat := Nat.mod_eq_of_lt (p.getX b).isLt
  rw [hlt] at hst
  have hland : s.storeAt n x r (p.getX a + BitVec.ofNat 64 m).toNat 8 (p.getX b).toNat =
      some (s.modPair n (fun p' => { p' with dmem := p'.dmem.writeBytes o (leBytes 8 (p.getX b).toNat) })) := by
    rw [State.storeAt, hpl]
  have ht := State.retireRv_stored hlo hst hd hland p.pc k
  rw [State.modPair_modPair] at ht
  refine ⟨_, _, hex, State.onlyPair_of h.1 ht, ?_, fun i => ?_⟩
  · rw [hu]
    exact Pair.wrote_none p _ _
  · change (p.dmem.writeBytes o (leBytes 8 (p.getX b).toNat)).read i = _
    rw [Memory.read_writeBytes _ _ _ _ hwf, length_leBytes]
    split
    next hi => exact leBytes_getD 8 _ _ (by omega)
    next => rfl

theorem rv64_sw {a b m y o j : Nat} {e : Env} (ha : a < 32) (hb : b < 32) (hm : m < 2048) (hf : p.fetch = some (4, encS m b a 2 0x23))
    (hpl : placeOf (p.getX a + BitVec.ofNat 64 m).toNat 4 = .window y o) (hwin : s.window r y = some (j, true))
    (hwr : (s.env x (weftOf n)).winWrite j o 4 ((p.getX b).toNat % 2 ^ 32) = some (e, 0)) (k : Nat) :
    ∃ t q, exec (.rv64Instruction n none false k { fixed := [], hit := none }) s = .next t ∧ t.pair? n = some q ∧ q.wrote p 0 0 ∧
      t.wa.beam = e.ma ∧ t.wb.beam = e.mb ∧ State.sameButCounters { t with wa := s.wa, wb := s.wb } s := by
  obtain ⟨u, hu, hlo, hd, hst, hex⟩ := rv64_store (w := 4) h hl ha hb hm (by decide : 2 ≤ 3) rfl hf k
  have hland : s.storeAt n x r (p.getX a + BitVec.ofNat 64 m).toNat 4 ((p.getX b).toNat % 2 ^ (8 * 4)) = some (s.putMem e) := by
    rw [State.storeAt, hpl]
    dsimp only
    rw [hwin, Option.bind_some, (rfl : 2 ^ (8 * 4) = 2 ^ 32), hwr]
    rfl
  have ht := State.retireRv_stored hlo hst hd hland p.pc k
  have hp' : (s.putMem e).pair? n = some p := by
    rw [State.pair?_congr (s := s) (by cases weftOf n <;> rfl)]
    exact h.1
  have honly := State.onlyPair_of hp' ht
  have hbeam : ∀ d, ((s.retireRv n x r p.pc k u).weft d).beam = ((s.putMem e).weft d).beam := fun d => by
    rw [ht.weft d, State.modPair_beam]
  refine ⟨_, _, hex, honly.1, ?_, hbeam .a, hbeam .b, ?_⟩
  · rw [hu]
    exact Pair.wrote_none p _ _
  · obtain ⟨hc, hreg⟩ := honly.diesAside
    exact ⟨(congrArg (fun v : State => { v with wa := s.wa, wb := s.wb }) hc :), hreg⟩

/-- A store to instruction memory or to no place is a program fault (R111, R112, R115). -/
theorem rv64_storeFaults {a b m : Nat} (ha : a < 32) (hb : b < 32) (hm : m < 2048) (hf : p.fetch = some (4, encS m b a 3 0x23))
    (hpl : (∃ o, placeOf (p.getX a + BitVec.ofNat 64 m).toNat 8 = .imem o) ∨ placeOf (p.getX a + BitVec.ofNat 64 m).toNat 8 = .outside)
    (hk : s.killable x (weftSrc (weftOf n) (0x14 + n % 4))) (k : Nat) :
    ∃ t, exec (.rv64Instruction n none false k { fixed := [], hit := none }) s = .next t ∧
      t.killed s x 3 (weftSrc (weftOf n) (0x14 + n % 4)) (cap (some x.ctx) (pairMaster n) 0 p.pc r.program) := by
  obtain ⟨u, -, hlo, -, hst, hex⟩ := rv64_store (w := 8) h hl ha hb hm (le_refl 3) rfl hf k
  have hmiss : ∀ v, s.storeAt n x r (p.getX a + BitVec.ofNat 64 m).toNat 8 v = none := fun v => by
    rcases hpl with ⟨o, ho⟩ | ho
    · rw [State.storeAt, ho]
    · rw [State.storeAt, ho]
  rw [State.retireRv_faulted hlo hst (hmiss _)] at hex
  exact ⟨_, hex, State.progFault_killed hk r p.pc⟩

end

end Machine

end Sys2Proof

namespace Sys2Proof

namespace Machine

set_option Elab.async false

/-! ### Rows of the standard instruction set: rdtime, ebreak and ecall (R114, R115, R118) -/

section
variable {s : State} {n : Nat} {p : Pair} {r : Running} {x : Step}

theorem rdtime_reads {rd : Nat} (h : s.performs n p r x Move.none (.rdtime n rd)) :
    ∃ t q, exec (.rdtime n rd) s = .next t ∧ t.onlyPair s n p q ∧ q.wrote p rd s.time.now := by
  have hex : exec (.rdtime n rd) s = .next (s.doneStd n x (fun q => q.setX rd s.time.now)) := by
    change execRdtime n rd s = _
    rw [execRdtime, State.onRow_performs h]
  exact ⟨_, _, hex, State.doneStd_onlyPair h.1.1 x _, p.advance_setX_wrote rd _⟩

theorem ebreak_faults (h : s.performs n p r x Move.none (.ebreak n)) (hk : s.killable x (weftSrc (weftOf n) (0x14 + n % 4))) :
    ∃ t, exec (.ebreak n) s = .next t ∧
      t.killed s x 3 (weftSrc (weftOf n) (0x14 + n % 4)) (cap (some x.ctx) (pairMaster n) 0 p.pc r.program) := by
  have hex : exec (.ebreak n) s = .next (s.progFault n x r p.pc) := by
    change execEbreak n s = _
    rw [execEbreak, State.onRow_performs h]
  exact ⟨_, hex, State.progFault_killed hk r p.pc⟩

theorem ecall_faults (h : s.performs n p r x Move.none (.ecall n)) (ha : p.getX 17 ≠ 0) (hk : s.killable x (weftSrc (weftOf n) (0x14 + n % 4))) :
    ∃ t, exec (.ecall n) s = .next t ∧
      t.killed s x 3 (weftSrc (weftOf n) (0x14 + n % 4)) (cap (some x.ctx) (pairMaster n) 0 p.pc r.program) := by
  have hex : exec (.ecall n) s = .next (s.progFault n x r p.pc) := by
    change execEcall n s = _
    rw [execEcall, State.onRow_performs h, if_pos ha]
  exact ⟨_, hex, State.progFault_killed hk r p.pc⟩

end

/-! ### A program ends (R114) -/

/-- The ticket of a program that ends completes, where it was spawned with one. -/
def State.ticketsDone (s : State) (d : Weft) : Option Nat → State
  | some k => s.ticketDone d k
  | none => s

/-- A pair whose program has ended. -/
def Pair.ended (p : Pair) : Pair := { p.advance with run := none, stall := none }

/-- A pair without a program and with none queued. -/
def Pair.vacant (p : Pair) : Prop := p.run = none ∧ p.stall = none ∧ p.queued = []

/-- No program waits at a hinge. -/
def State.noHinges (s : State) : Prop := ∀ d, ∀ y ∈ (s.weft d).pairs, ∀ h, y.stall ≠ some (.hinge h)

theorem exec_ecall {s : State} {n : Nat} {p : Pair} {r : Running} {x : Step} (h : s.performs n p r x Move.none (.ecall n)) (ha : p.getX 17 = 0) :
    exec (.ecall n) s = .next
      ((((s.doneStd n x (fun q => { q with run := none, stall := none })).ticketsDone (weftOf n) r.ticket).modPair n
        ((s.doneStd n x (fun q => { q with run := none, stall := none })).ticketsDone (weftOf n) r.ticket).pairNext).tryHinge x.id) := by
  change execEcall n s = _
  rw [execEcall, State.onRow_performs h, if_neg (not_not.mpr ha)]
  dsimp only
  cases r.ticket with
  | none => rfl
  | some k => rfl

theorem Pair.ticketDone_vacant {p : Pair} (h : p.vacant) (k : Nat) : (p.ticketDone k).vacant := by
  obtain ⟨hr, hs, hq⟩ := h
  simp [Pair.vacant, Pair.ticketDone, hr, hs, hq]

theorem Pair.ticketDone_noHinge {p : Pair} (hp : ∀ h, p.stall ≠ some (.hinge h)) (k : Nat) : ∀ h, (p.ticketDone k).stall ≠ some (.hinge h) := by
  intro h he
  unfold Pair.ticketDone at he
  dsimp only at he
  split at he
  · split at he
    · cases he
    · exact hp h he
  · split at he
    · cases he
    · exact hp h he
  · exact hp h he

theorem State.ticketDone_pair {s : State} {n : Nat} {p : Pair} (h : s.pair? n = some p) (k : Nat) :
    (s.ticketDone (weftOf n) k).pair? n = some (p.ticketDone k) := by
  obtain ⟨hn, hg⟩ := State.pair?_weft h
  refine State.pair?_of_weft hn ?_
  rw [State.ticketDone, State.weft_modWeft]
  simp [hg]

theorem State.ticketDone_noHinges {s : State} (hs : s.noHinges) (d : Weft) (k : Nat) : (s.ticketDone d k).noHinges := by
  intro e y hy
  by_cases he : e = d
  · subst he
    rw [State.ticketDone, State.weft_modWeft] at hy
    obtain ⟨z, hz, rfl⟩ := List.mem_map.mp hy
    exact Pair.ticketDone_noHinge (hs e z hz) k
  · rw [State.ticketDone, State.weft_modWeft_ne s he] at hy
    exact hs e y hy

theorem State.ticketDone_tickets (s : State) (d : Weft) (k : Nat) : ((s.ticketDone d k).weft d).tickets.contains k = false := by
  rw [State.ticketDone, State.weft_modWeft]
  simp

section
variable {s : State} (d : Weft) (tk : Option Nat)

theorem State.ticketsDone_pair {n : Nat} {p : Pair} (h : s.pair? n = some p) (hp : p.vacant) :
    ∃ q, (s.ticketsDone (weftOf n) tk).pair? n = some q ∧ q.vacant := by
  cases tk with
  | none => exact ⟨p, h, hp⟩
  | some k => exact ⟨_, State.ticketDone_pair h k, Pair.ticketDone_vacant hp k⟩

theorem State.ticketsDone_noHinges (hs : s.noHinges) : (s.ticketsDone d tk).noHinges := by
  cases tk with
  | none => exact hs
  | some k => exact State.ticketDone_noHinges hs d k

theorem State.ticketsDone_aside (u : State) : { s.ticketsDone d tk with wa := u.wa, wb := u.wb } = { s with wa := u.wa, wb := u.wb } := by
  cases tk with
  | none => rfl
  | some k => cases d <;> rfl

end

/-- The next program of a pair that is vacant: none. -/
theorem State.pairNext_vacant (s : State) {p : Pair} (h : p.vacant) : s.pairNext p = p := by
  obtain ⟨hr, -, hq⟩ := h
  simp [State.pairNext, hr, hq]

theorem State.modPair_of_eq {s : State} {n : Nat} {p : Pair} {f : Pair → Pair} (h : s.pair? n = some p) (hf : f p = p) : s.modPair n f = s := by
  obtain ⟨hn, hg⟩ := State.pair?_weft h
  rw [State.modPair_eq s hn]
  refine State.modWeft_of_eq ?_
  have hl : modAt (s.weft (weftOf n)).pairs (n % 4) f = (s.weft (weftOf n)).pairs :=
    modAt_of_eq fun q hq => by rw [Option.some.inj (hq.symm.trans hg), hf]
  simp only [hl]

theorem State.hingeAt_none {s : State} (hs : s.noHinges) (x : Step) (d : Weft) : s.hingeAt x d = none := by
  unfold State.hingeAt
  dsimp only
  split
  · rfl
  · rw [Option.bind_eq_none_iff]
    intro q hq
    have hno := hs d q (List.mem_of_find?_eq_some hq)
    split
    next g hg => exact absurd hg (hno g)
    next => rfl

/-- Where no program waits at a hinge, no choice point is reached. -/
theorem State.tryHinge_none {s : State} (hs : s.noHinges) (id : Nat) : s.tryHinge id = s := by
  have hof : ∀ x, s.hingeOf x = none := fun x => by simp [State.hingeOf, State.hingeAt_none hs x]
  unfold State.tryHinge
  split
  · rfl
  · split
    · rfl
    · rw [hof]

theorem mem_modAt {α : Type} {l : List α} {i : Nat} {f : α → α} {y : α} (h : y ∈ modAt l i f) : y ∈ l ∨ ∃ q ∈ l, y = f q := by
  unfold modAt at h
  split at h
  · exact .inl h
  next q hq =>
    rcases List.mem_or_eq_of_mem_set h with h | h
    · exact .inl h
    · exact .inr ⟨q, List.mem_of_getElem? hq, h⟩

/-- After a pair's program has ended, still no program waits at a hinge. -/
theorem State.ended_noHinges {s : State} (hs : s.noHinges) (n : Nat) : (s.modPair n Pair.ended).noHinges := by
  unfold State.modPair
  split
  · intro e y hy h
    by_cases he : e = weftOf n
    · rw [he, State.weft_modWeft] at hy
      rcases mem_modAt hy with hy | ⟨q, -, rfl⟩
      · exact hs (weftOf n) y hy h
      · exact fun hc => by cases hc
    · rw [State.weft_modWeft_ne s he] at hy
      exact hs e y hy h
  · exact hs

theorem ecall_ends {s : State} {n : Nat} {p : Pair} {r : Running} {x : Step} (h : s.performs n p r x Move.none (.ecall n)) (ha : p.getX 17 = 0)
    (hq : p.queued = []) (hs : s.noHinges) :
    ∃ t q, exec (.ecall n) s = .next t ∧ t.pair? n = some q ∧ q.run = none ∧ q.stall = none ∧
      (∀ k, r.ticket = some k → (t.weft (weftOf n)).tickets.contains k = false) ∧ t.steps = s.steps ∧
      State.sameButCounters { t with wa := s.wa, wb := s.wb } s := by
  have hex := exec_ecall h ha
  have h1 : (s.doneStd n x (fun q => { q with run := none, stall := none })).sameButCounters (s.modPair n Pair.ended) :=
    State.retired_onlyCounters _ n x false
  have honly := State.onlyPair_of h.1.1 h1
  have hno : (s.doneStd n x (fun q => { q with run := none, stall := none })).noHinges := fun d y hy => by
    rw [h1.weft d] at hy
    exact State.ended_noHinges hs n d y hy
  generalize s.doneStd n x (fun q => { q with run := none, stall := none }) = u at hex honly hno
  have hv : p.ended.vacant := ⟨rfl, rfl, hq⟩
  obtain ⟨q, hp2, hv2⟩ := State.ticketsDone_pair r.ticket honly.1 hv
  have hno2 := State.ticketsDone_noHinges (weftOf n) r.ticket hno
  rw [State.modPair_of_eq hp2 (State.pairNext_vacant _ hv2), State.tryHinge_none hno2] at hex
  have haside := State.ticketsDone_aside (s := u) (weftOf n) r.ticket s
  have hcnt := honly.diesAside
  rw [← haside] at hcnt
  refine ⟨_, q, hex, hp2, hv2.1, hv2.2.1, fun k hk => ?_, (congrArg (fun v : State => v.steps) hcnt.1 :), hcnt⟩
  rw [hk]
  exact State.ticketDone_tickets u (weftOf n) k

/-- Settles O44: where the cores agree an instruction retires with what it does; a difference, a fault, lost data or a spent budget ends the step. -/
theorem shuttleCoresRetire : Obligations.ShuttleCoresRetire := by
  unfold Obligations.ShuttleCoresRetire
  refine ⟨fun n p r x st k len w o s h hl hf hr ho hs _ hst => rv64_registers h hl hf hr ho hs hst k,
    fun n p r x k d a b s h hl hd ha hb hf => rv64_add h hl hd ha hb hf k,
    fun n p r x k d a m v s h hl hd ha hm hf hv => rv64_ld h hl hd ha hm hf hv k,
    fun n p r x k a b m o s h hl ha hb hm hf hpl hwf => rv64_sd h hl ha hb hm hf hpl hwf k,
    fun n p r x k a b m y o j e s h hl ha hb hm hf hpl hwin hwr => rv64_sw h hl ha hb hm hf hpl hwin hwr k,
    fun n p r x k d a b z s h hl hd ha hb hf hrm hlen hz => rv64_fadd h hl hd ha hb hf hrm hlen hz k,
    fun n p r x k d s h hl hd hf => rv64_vlenb h hl hd hf k,
    fun n p r x st k len w o c s h hf hr ho hm hpl hk => rv64_strike h hf hr ho (RvOut.struck_of hm hpl) hk k c,
    fun n p r x st k len w c s h hf hr hm hpl hk => rv64_rowed h hf hr (rowStruck_of hr hm hpl) hk k c,
    fun n p r x st k c s h hw hk => rv64_faults h hw hk st k c,
    fun n p r x k a b m s h hl ha hb hm hf hpl hk => rv64_storeFaults h hl ha hb hm hf hpl hk k,
    fun n p r x st k c s h hk => ⟨_, rv64_ecc h st k c, State.endCtx_killed hk 2 _⟩,
    fun n p r x k len w a y b o s h hf hr ho hown hk => rv64_lost h k hf hr ho hown hk b,
    fun n rd p r x s h => rdtime_reads h,
    fun n p r x s h ha hq hs => ecall_ends h ha hq hs,
    fun n p r x s h ha hk => ecall_faults h ha hk,
    fun n p r x s h hk => ebreak_faults h hk,
    fun n p r x s hp hr hx hc ho hu hk => shuttleBudgetExpiry_kills hp hr hx hc ho hu hk,
    fun n p s hp hs => shuttleBudgetExpiry_stalled hp hs⟩

end Machine

end Sys2Proof

namespace Sys2Proof

namespace Machine

set_option Elab.async false

/-! ### A container whose second packet opens another sweep (R215, R235), and the reaction of the overrun source (R462) -/

/-- A work context of function 0 of host port A. -/
def injectCtx : Ctx :=
  { id := 1, fn := { port := .hostA, num := 0 }, lc := false, role := .work, version := 3, counterGrant := false, save64k := 0,
    saveA := 0, saveB := 0, latchBase := 0, latchCount := 0, spillAddr := 0, spillLen := 0, stepCounter := 0, closing := false, bound := [] }

/-- Its posted INJECT: stream tag 0, a container of two packets and 96 bytes, and the batch counter 1 of the sample that it began. -/
def injectDesc : ReadDesc :=
  { seq := 0, ctx := 1, ring := 0, slot := 0, time := 0
    bytes := 6 :: List.replicate 63 0 ++ (List.replicate 18 0 ++ leBytes 2 2 ++ List.replicate 4 0 ++ leBytes 4 96 ++ List.replicate 36 0)
      ++ leBytes 8 1 }

/-- A point packet of one point at the origin (R214), the first and not the last of its sweep, as a container holds it. -/
def firstPacket : List Byte :=
  leBytes 2 44 ++ leBytes 2 0 ++ (leBytes 4 0x54504B50 ++ [1, 1] ++ List.replicate 8 0 ++ leBytes 2 1 ++ List.replicate 28 0)

/-- A point recipe of one pillar with one point. -/
def pillarRecipe : Recipe :=
  { parseRecipe [] with
    points := true, codebook := 4, format := 2, kappa := 127, cell := 100, nx := 1, ny := 1, pmax := 1, nFeat := 1, maxPoints := 1
    rowPitch := 4 }

/-- A die in service whose Beam group is open, with the recipe's codebook. -/
def intakeDie : WeftDie :=
  { WeftDie.reset with
    inService := true, beamGrp := .at .run, codebooks := [(4, { format := 2, used := 1, levels := List.replicate 16 0 })] }

/-- The open instance of batch index 1, in its one buffer. -/
def sweepInst : Instance :=
  { counter := 1, buffer := 0, baseA := 0, baseB := 0, tensorBytes := 64, openTime := 0, readyTime := 0, ready := false, mode := 0,
    complemented := false, pos := [{ state := .empty, stream := 0, cause := 0, sat := 0, time := 0, corrupt := false }], started := false,
    eccFail := false, discarded := false, released := false }

/-- The sample of that instance's position. -/
def sweepSample : Sample :=
  { time := 0, counter := 1, position := 0, lines := [], sat := 0, sweep := 0, nextSeq := 0, kept := 0, pillars := [] }

/-- The block while the INJECT's container is read.  Stream slot 0 is bound to host A's injection port and batch index 1, which has one
buffer; HSP_SRC_CFG of source 0x020 selects a module reset. -/
def sweepState : State :=
  { State.reset with
    pwr := { State.reset.pwr with phase := .mission }
    clk := { State.reset.clk with creel := true }
    regs := [(oSrcCfg 0x020, 0x20), (oSlotBind 0, 0x1001001C), (oBatchCtl 1, 0x10001)]
    ctxs := [injectCtx]
    posted := [injectDesc]
    recipes := [{ slot := 0, partition := 0, recipe := pillarRecipe, digest := 0, bytes := 128 }]
    slots := State.reset.slots.set 0 { Slot.reset with phase := .open sweepSample }
    batches := State.reset.batches.set 1 { counter := 1, instances := [sweepInst] }
    wa := intakeDie
    wb := intakeDie }

/-- The open contexts after a command. -/
def ctxsAfter (i : Instr) (s : State) : Option (List Ctx) :=
  match exec i s with
  | .next t => some t.ctxs
  | .fault _ => none
  | .refused _ => none

theorem ctxsAfter_eq {i : Instr} {s t : State} (h : exec i s = .next t) : ctxsAfter i s = some t.ctxs := by
  simp only [ctxsAfter, h]

/-- The second packet opens a sweep for which no buffer is free: the overrun source is raised, and its reaction closes every context. -/
theorem ctxsAfter_sweepState : ctxsAfter (.injectReadDone 1 (firstPacket ++ firstPacket) false [] false) sweepState = some [] := by
  decide +kernel

theorem sweepState_hyps : sweepState.postedOf 1 6 = some injectDesc ∧ sweepState.injSlot .hostA (leAt injectDesc.bytes 2 2) = some 0 ∧
    sweepState.creelOn = true ∧ (sweepState.slot 0).input = [] ∧
    sweepState.injectOpen 0 injectDesc.bytes = true := by
  decide +kernel

/-- Refutes O42: a packet of the container with its first bit set opens another sweep (R215), which may find no buffer and raise source 0x020
(R238); the clause on a completed INJECT does not ask for that source to be silent, and a module reset as its reaction (R462, R480) closes the
contexts that the clause keeps. -/
theorem not_recipesAndInjection : ¬ Obligations.RecipesAndInjection := by
  unfold Obligations.RecipesAndInjection
  rintro ⟨-, -, -, -, -, -, -, -, -, -, -, -, -, -, hdone, -⟩
  obtain ⟨hposted, hslot, hon, hinput, hopen⟩ := sweepState_hyps
  obtain ⟨t, ht, -, -, -, hctxs, -⟩ :=
    hdone 1 0 injectCtx injectDesc (firstPacket ++ firstPacket) pillarRecipe sweepState rfl hposted hslot rfl hon hinput hopen
  have hkept : some t.ctxs = some [] := (ctxsAfter_eq ht).symm.trans ctxsAfter_sweepState
  rw [hctxs] at hkept
  exact absurd hkept (by decide)

end Machine

end Sys2Proof

namespace Sys2Proof

namespace Machine

set_option Elab.async false

/-! ### Fields of a register word -/

theorem fld_eq_extract (w : Word) (hi lo : Nat) : fld w hi lo = (w.extractLsb' lo (hi + 1 - lo)).toNat := by
  simp [fld, bitsN, BitVec.extractLsb'_toNat, Nat.shiftRight_eq_div_pow]

/-- A field depends on its own bits alone. -/
theorem fld_congr {w v : Word} {hi lo : Nat} (h : ∀ i, lo ≤ i → i ≤ hi → bitW w i = bitW v i) : fld w hi lo = fld v hi lo := by
  rw [fld_eq_extract, fld_eq_extract]
  congr 1
  refine BitVec.eq_of_getLsbD_eq fun i hi' => ?_
  have hbit : w.getLsbD (lo + i) = v.getLsbD (lo + i) := h (lo + i) (by omega) (by omega)
  simp [BitVec.getLsbD_extractLsb', hbit]

/-- Clearing one bit leaves the others. -/
theorem bitW_clear (w : Word) (b i : Nat) : bitW (setFld w b b 0) i = (bitW w i && decide (i ≠ b)) := by
  simp only [setFld, bitW, Nat.add_sub_cancel_left, Nat.zero_mul, BitVec.getLsbD_or, BitVec.getLsbD_and, BitVec.getLsbD_not,
    BitVec.getLsbD_ofNat, Nat.pow_one, Nat.reduceSub, Nat.one_mul, Nat.testBit_two_pow, Nat.zero_testBit, Bool.and_false, Bool.false_and,
    Bool.or_false]
  by_cases hi : i < 32
  · by_cases hib : i = b
    · simp [hib]
    · simp [hi, hib, Ne.symm hib]
  · simp [BitVec.getLsbD_of_ge w i (by omega)]

/-- CRL_SLOT_BIND of a slot that an enable binds. -/
def boundWord (v : Word) : Word := (v &&& 0x03FF3F3F#32) ||| 0x10000000#32

theorem boundWord_on (v : Word) : bitW (boundWord v) 28 = true := by simp [boundWord, bitW]

/-- A binding keeps the fields that are written: port, recipe slot, batch index and position. -/
theorem boundWord_fields (v : Word) : fld (boundWord v) 5 0 = fld v 5 0 ∧ fld (boundWord v) 13 8 = fld v 13 8 ∧
    fld (boundWord v) 20 16 = fld v 20 16 ∧ fld (boundWord v) 25 21 = fld v 25 21 := by
  refine ⟨fld_congr fun i _ hi => ?_, fld_congr fun i hlo hi => ?_, fld_congr fun i hlo hi => ?_, fld_congr fun i hlo hi => ?_⟩ <;>
    interval_cases i <;> simp [boundWord, bitW]

/-- CRL_BATCH_CTL of a batch index that an enable starts. -/
def startedWord (v : Word) : Word := (v &&& 0x1FF#32) ||| 0x10000#32

theorem startedWord_on (v : Word) : bitW (startedWord v) 16 = true := by simp [startedWord, bitW]

theorem startedWord_size (v : Word) : fld (startedWord v) 5 0 = fld v 5 0 :=
  fld_congr fun i _ hi => by interval_cases i <;> simp [startedWord, bitW]

/-! ### Creel's clock and the Beam groups follow what is enabled (R382, R386) -/

theorem State.creelClock_eq (s : State) (was : Bool) :
    s.creelClock was = { s with clk := { s.clk with creel := if s.anySlot = was then s.clk.creel else s.anySlot } } := by
  unfold State.creelClock
  split <;> rfl

theorem State.anySlot_of_on {s : State} {k : Nat} (hk : k < 32) (h : s.slotOn k = true) : s.anySlot = true :=
  List.any_eq_true.mpr ⟨k, List.mem_range.mpr hk, h⟩

/-- New work on the Beam group of one die. -/
def State.wakeBeam (s : State) (d : Weft) : State :=
  let u := s.modWeft d (fun w => { w with benchIdle := w.benchIdle.filter (fun x => x != .beam) })
  if (s.weft d).inService && (s.weft d).beamGrp.deep then u.wake d .beam else u

theorem State.wakeBeams_eq (s : State) : s.wakeBeams = (s.wakeBeam .a).wakeBeam .b := rfl

theorem State.wakeBeam_pwr (s : State) (d : Weft) : (s.wakeBeam d).pwr = s.pwr := by
  unfold State.wakeBeam State.wake
  simp only
  split_ifs <;> simp

theorem State.wakeBeam_other (s : State) (d : Weft) : (s.wakeBeam d).weft (otherDie d) = s.weft (otherDie d) := by
  unfold State.wakeBeam State.wake
  simp only
  split_ifs <;> simp

/-- New work wakes the Beam group of a die in service when it is in Cool or Rest; it changes that group and what is idle alone. -/
theorem State.wakeBeam_self (s : State) (d : Weft) :
    { (s.wakeBeam d).weft d with beamGrp := (s.weft d).beamGrp, benchIdle := (s.weft d).benchIdle } = s.weft d ∧
      (s.pwr.recovery = false → (s.weft d).inService = true → (s.weft d).beamGrp.deep = true →
        ((s.wakeBeam d).weft d).beamGrp = (s.weft d).beamGrp.wake) ∧
      ((s.weft d).beamGrp.deep = false → ((s.wakeBeam d).weft d).beamGrp = (s.weft d).beamGrp) := by
  have hwake : ∀ u : State, u.weft d = { s.weft d with benchIdle := (s.weft d).benchIdle.filter (fun x => x != .beam) } →
      { (u.wake d .beam).weft d with beamGrp := (s.weft d).beamGrp, benchIdle := (s.weft d).benchIdle } = s.weft d ∧
        (u.pwr.recovery = false → ((u.wake d .beam).weft d).beamGrp = (s.weft d).beamGrp.wake) := by
    intro u hu
    unfold State.wake
    split
    next hrec =>
      refine ⟨by rw [hu], fun h => ?_⟩
      simp [h] at hrec
    next => simp [hu, WeftDie.setGrp, WeftDie.grp]
  obtain ⟨hframe, hgrp⟩ := hwake (s.modWeft d (fun w => { w with benchIdle := w.benchIdle.filter (fun x => x != .beam) })) (by simp)
  unfold State.wakeBeam
  simp only
  split
  next hdeep =>
    simp only [Bool.and_eq_true] at hdeep
    refine ⟨hframe, fun hrec _ _ => hgrp (by simpa using hrec), fun h => ?_⟩
    simp [h] at hdeep
  next hdeep =>
    refine ⟨by simp, fun _ hin hd => ?_, fun _ => by simp⟩
    simp [hin, hd] at hdeep

/-- What new work on the Beam groups changes of a die. -/
theorem State.wakeBeams_weft (s : State) (d : Weft) :
    { s.wakeBeams.weft d with beamGrp := (s.weft d).beamGrp, benchIdle := (s.weft d).benchIdle } = s.weft d ∧
      (s.pwr.recovery = false → (s.weft d).inService = true → (s.weft d).beamGrp.deep = true →
        (s.wakeBeams.weft d).beamGrp = (s.weft d).beamGrp.wake) ∧
      ((s.weft d).beamGrp.deep = false → (s.wakeBeams.weft d).beamGrp = (s.weft d).beamGrp) := by
  rw [State.wakeBeams_eq]
  cases d with
  | a =>
    have hkeep : ((s.wakeBeam .a).wakeBeam .b).weft .a = (s.wakeBeam .a).weft .a := (s.wakeBeam .a).wakeBeam_other .b
    rw [hkeep]
    exact s.wakeBeam_self .a
  | b =>
    have hkeep : (s.wakeBeam .a).weft .b = s.weft .b := s.wakeBeam_other .a
    have h := (s.wakeBeam .a).wakeBeam_self .b
    rw [hkeep, State.wakeBeam_pwr] at h
    exact h

/-- A Beam group in Cool or Rest begins to wake. -/
theorem State.wakeBeams_waking {s : State} {d : Weft} {q : PState} (hrec : s.pwr.recovery = false) (hin : (s.weft d).inService = true)
    (hgrp : (s.weft d).beamGrp = .at q) (hq : q = .cool ∨ q = .rest) : (s.wakeBeams.weft d).beamGrp = .waking q := by
  have hwake : GState.deep (.at q) = true ∧ GState.wake (.at q) = .waking q := by
    rcases hq with rfl | rfl <;> exact ⟨rfl, rfl⟩
  rw [(s.wakeBeams_weft d).2.1 hrec hin (by rw [hgrp]; exact hwake.1), hgrp]
  exact hwake.2

end Machine

end Sys2Proof

namespace Sys2Proof

namespace Machine

set_option Elab.async false

/-! ### A stream slot is enabled (R216, R240) -/

theorem exec_crlSlotEnable {s : State} {k : Nat} {v : Word} {x : RecipeSlot} (hk : k < 32) (hm : s.missionOn = true) (hoff : s.slotOn k = false)
    (herr : s.slotErr k v = 0) (hx : s.recipe? (fld v 13 8) = some x) :
    exec (.crlSlotEnable k v) s = .next ((s.bindSlot k v x.recipe).creelClock s.anySlot) := by
  change execCrlSlotEnable k v s = _
  simp [execCrlSlotEnable, hm, hoff, herr, hx, Nat.not_le.mpr hk]

theorem exec_crlSlotEnable_refused {s : State} {k : Nat} {v : Word} (hk : k < 32) (hm : s.missionOn = true) (hoff : s.slotOn k = false)
    (herr : s.slotErr k v ≠ 0) :
    exec (.crlSlotEnable k v) s = .next (s.setReg (oSlotBind k) (setFld (s.reg (oSlotBind k)) 31 29 (s.slotErr k v))) := by
  change execCrlSlotEnable k v s = _
  simp [execCrlSlotEnable, hm, hoff, herr, Nat.not_le.mpr hk]

theorem State.bindSlot_reg (s : State) (k : Nat) (v : Word) (r : Recipe) : (s.bindSlot k v r).reg (oSlotBind k) = boundWord v :=
  State.reg_setReg_self _ _ _

theorem State.bindSlot_reg_ne (s : State) (k : Nat) (v : Word) (r : Recipe) {o : Nat} (h : o ≠ oSlotBind k) :
    (s.bindSlot k v r).reg o = s.reg o := (State.reg_setReg _ _ _ _).trans (if_neg h.symm)

/-- A bound slot starts afresh, with its hold halves. -/
theorem State.bindSlot_slot {s : State} {k : Nat} (hk : k < s.slots.length) (v : Word) (r : Recipe) :
    ∃ n, (s.bindSlot k v r).slot k = { Slot.reset with holdBase := n, holdBytes := r.holdNeed } :=
  ⟨_, State.slot_modSlot_self hk _⟩

theorem State.bindSlot_slot_ne (s : State) {k j : Nat} (v : Word) (r : Recipe) (h : j ≠ k) : (s.bindSlot k v r).slot j = s.slot j :=
  State.slot_modSlot_ne s _ h

/-- The first enabled slot starts Creel's clock. -/
theorem State.bindSlot_clock (s : State) {k : Nat} (hk : k < 32) (v : Word) (r : Recipe) : (s.bindSlot k v r).creelClock s.anySlot =
    { s.bindSlot k v r with clk := { s.clk with creel := if s.anySlot then s.clk.creel else true } } := by
  have hon : (s.bindSlot k v r).slotOn k = true := (congrArg (fun w => bitW w 28) (s.bindSlot_reg k v r)).trans (boundWord_on v)
  rw [State.creelClock_eq, State.anySlot_of_on hk hon]
  cases s.anySlot <;> rfl

/-! ### A choice without steps -/

/-- Without a step a choice forgets which step was to start next, and nothing else. -/
theorem State.choose_onlySched {s : State} (hs : s.steps = []) : ∃ x : Sched, x.running = s.sched.running ∧ s.choose = { s with sched := x } := by
  rcases State.choose_pickNone (State.pick_nil s hs) with h | h
  · exact ⟨s.sched, rfl, h⟩
  · exact ⟨{ s.sched with nextStart := none }, rfl, h⟩

theorem State.batchGone_onlySched {s : State} (hs : s.steps = []) (b : Nat) :
    ∃ x : Sched, x.running = s.sched.running ∧ s.batchGone b = { s with sched := x } := by
  have hgone : s.batchGone b = s.choose := by simp [State.batchGone, hs]
  rw [hgone]
  exact State.choose_onlySched hs

/-! ### A stream slot is disabled (R240, R243) -/

/-- What every substitution keeps, the end of a stream keeps. -/
theorem State.closeStream_keeps {P : State → Prop} (hP : ∀ (u : State) (b c q : Nat), P u → P (u.substitute b c q 3)) {s : State} (h : P s)
    (k : Nat) : P (s.closeStream k) := by
  refine List.foldlRecOn _ _ h fun t ht i _ => ?_
  split
  · exact ht
  · refine List.foldlRecOn _ _ ht fun u hu p _ => ?_
    split
    · exact hP _ _ _ _ hu
    · exact hu

theorem State.closeStream_onlyCreel (s : State) (k : Nat) : (s.closeStream k).sameButCreel s :=
  State.closeStream_keeps (P := fun u => u.sameButCreel s) (fun u b c q hu => (u.substitute_onlyCreel b c q 3).trans hu) (.refl s) k

theorem State.closeStream_phase (s : State) (k j : Nat) : ((s.closeStream k).slot j).phase = (s.slot j).phase :=
  State.closeStream_keeps (P := fun u => (u.slot j).phase = (s.slot j).phase)
    (fun u b c q hu => by obtain ⟨w, hw⟩ := u.substitute_slot b c q 3 j; rw [hw]; exact hu) rfl k

/-- The stream's sample is discarded, and its positions are closed. -/
def State.endStream (s : State) (k : Nat) : State := (s.modSlot k (fun x => { x with phase := .idle })).closeStream k

/-- A slot that keeps nothing of its stream. -/
def Slot.released (x : Slot) : Slot :=
  { x with input := [], holdBase := 0, holdBytes := 0, half := false, hold := none, copying := none }

/-- CRL_SLOT_BIND of a slot that a disable frees. -/
def State.freedWord (s : State) (k : Nat) : Word := setFld (s.reg (oSlotBind k)) 28 28 0

/-- A slot whose stream has ended is free. -/
def State.freeSlot (s : State) (k : Nat) : State := (s.setReg (oSlotBind k) (s.freedWord k)).modSlot k Slot.released

theorem State.endStream_onlyCreel (s : State) (k : Nat) : (s.endStream k).sameButCreel s :=
  (State.closeStream_onlyCreel _ k).trans (State.modSlot_onlyCreel s k _)

theorem State.endStream_idle (s : State) (k : Nat) : ((s.endStream k).slot k).phase = .idle := by
  refine (State.closeStream_phase _ k k).trans ?_
  by_cases hk : k < s.slots.length
  · rw [State.slot_modSlot_self hk]
  · rw [State.slot_of_le (by simpa using hk)]
    rfl

theorem State.creelClock_frame (s : State) (was : Bool) : s.creelClock was = { s with clk := (s.creelClock was).clk } := by
  rw [State.creelClock_eq]

/-- Without a step, a disabled slot ends its stream, is freed and may stop Creel's clock. -/
theorem State.unbindSlot_noSteps {s : State} (hs : s.steps = []) (k : Nat) : ∃ x : Sched, s.unbindSlot k =
    { (s.endStream k).freeSlot k with clk := (((s.endStream k).freeSlot k).creelClock s.anySlot).clk, sched := x } := by
  have hunf : s.unbindSlot k = (if ((((s.endStream k).freeSlot k).creelClock s.anySlot).members (s.slotBatch k)).isEmpty then
      (((s.endStream k).freeSlot k).creelClock s.anySlot).batchGone (s.slotBatch k) else ((s.endStream k).freeSlot k).creelClock s.anySlot) := rfl
  have hsteps : ((s.endStream k).freeSlot k).steps = [] := (congrArg (fun x : State => x.steps) (s.endStream_onlyCreel k).1 :).trans hs
  rw [hunf, State.creelClock_frame]
  split
  · obtain ⟨x, -, hx⟩ := State.batchGone_onlySched (s := { (s.endStream k).freeSlot k with
      clk := (((s.endStream k).freeSlot k).creelClock s.anySlot).clk }) hsteps (s.slotBatch k)
    exact ⟨x, hx⟩
  · exact ⟨_, rfl⟩

/-- A free slot holds nothing, an unbound one included. -/
theorem State.freeSlot_slot (s : State) (k : Nat) : (s.freeSlot k).slot k = (s.slot k).released := by
  by_cases hk : k < s.slots.length
  · exact State.slot_modSlot_self hk Slot.released
  · have hle : s.slots.length ≤ k := Nat.le_of_not_lt hk
    rw [State.slot_of_le hle, State.slot_of_le (by simpa [State.freeSlot] using hle)]
    rfl

theorem State.freeSlot_reg (s : State) (k : Nat) : (s.freeSlot k).reg (oSlotBind k) = s.freedWord k := State.reg_setReg_self _ _ _

theorem State.freeSlot_slotOn (s : State) (k j : Nat) : (s.freeSlot k).slotOn j = (s.slotOn j && decide (j ≠ k)) := by
  by_cases hj : j = k
  · subst hj
    rw [State.slotOn, State.freeSlot_reg, State.freedWord, bitW_clear]
    simp
  · have ho : oSlotBind k ≠ oSlotBind j := by simp only [oSlotBind]; omega
    have hreg : (s.freeSlot k).reg (oSlotBind j) = s.reg (oSlotBind j) := (State.reg_setReg _ _ _ _).trans (if_neg ho)
    rw [State.slotOn, hreg]
    simp [State.slotOn, hj]

/-- A freed slot keeps its port and its batch index in CRL_SLOT_BIND. -/
theorem State.freedWord_fields (s : State) (k : Nat) :
    fld (s.freedWord k) 5 0 = s.slotPort k ∧ fld (s.freedWord k) 20 16 = s.slotBatch k := by
  refine ⟨fld_congr fun i _ hi => ?_, fld_congr fun i _ hi => ?_⟩ <;>
    · rw [State.freedWord, bitW_clear]
      simp [show i ≠ 28 by omega]

/-- Creel's clock after a slot is freed runs while another one is enabled. -/
theorem State.freeSlot_clock {s t : State} {k : Nat} (hk : k < 32) (hon : s.slotOn k = true) (ht : ∀ j, j < 32 → t.slotOn j = s.slotOn j)
    (hclk : t.clk = s.clk) :
    ((∀ j, j < 32 → j ≠ k → s.slotOn j = false) → ((t.freeSlot k).creelClock s.anySlot).clk = { s.clk with creel := false }) ∧
      ∀ j, j < 32 → j ≠ k → s.slotOn j = true → ((t.freeSlot k).creelClock s.anySlot).clk = s.clk := by
  have hfree : (t.freeSlot k).clk = s.clk := hclk
  rw [State.creelClock_eq, State.anySlot_of_on hk hon, hfree]
  refine ⟨fun hoff => ?_, fun j hj hne hj1 => ?_⟩
  · have hnone : (t.freeSlot k).anySlot = false := by
      refine List.any_eq_false.mpr fun j hj => ?_
      have hj' := List.mem_range.mp hj
      rw [State.freeSlot_slotOn, ht j hj']
      by_cases hjk : j = k
      · simp [hjk]
      · simp [hoff j hj' hjk]
    simp [hnone]
  · have hany : (t.freeSlot k).anySlot = true := State.anySlot_of_on hj (by rw [State.freeSlot_slotOn, ht j hj]; simp [hj1, hne])
    simp [hany]

/-- A disabled slot is off, between samples and empty; it keeps its binding, and Creel's clock runs on while another slot is enabled. -/
theorem State.unbindSlot_frees {s : State} {k : Nat} (hk : k < 32) (hon : s.slotOn k = true) (hs : s.steps = []) :
    (s.unbindSlot k).slotOn k = false ∧ ((s.unbindSlot k).slot k).phase = .idle ∧ ((s.unbindSlot k).slot k).hold = none ∧
      ((s.unbindSlot k).slot k).holdBytes = 0 ∧ ((s.unbindSlot k).slot k).input = [] ∧ (s.unbindSlot k).slotPort k = s.slotPort k ∧
      (s.unbindSlot k).slotBatch k = s.slotBatch k ∧ (s.unbindSlot k).recipes = s.recipes ∧ (s.unbindSlot k).ctxs = s.ctxs ∧
      (s.unbindSlot k).hasp = s.hasp ∧
      ((∀ j, j < 32 → j ≠ k → s.slotOn j = false) → (s.unbindSlot k).clk = { s.clk with creel := false }) ∧
      ∀ j, j < 32 → j ≠ k → s.slotOn j = true → (s.unbindSlot k).clk = s.clk := by
  have hend := s.endStream_onlyCreel k
  have hbind : ∀ j, j < 32 → (s.endStream k).reg (oSlotBind j) = s.reg (oSlotBind j) := fun j hj => hend.2 _ (oSlotBind_plain hj)
  have hslot := (s.endStream k).freeSlot_slot k
  have hreg := (s.endStream k).freeSlot_reg k
  obtain ⟨hport, hbatch⟩ := (s.endStream k).freedWord_fields k
  obtain ⟨hlast, hother⟩ := State.freeSlot_clock (t := s.endStream k) hk hon (fun j hj => congrArg (fun w => bitW w 28) (hbind j hj))
    (congrArg (fun u : State => u.clk) hend.1 :)
  obtain ⟨y, hy⟩ := State.unbindSlot_noSteps hs k
  rw [hy]
  exact ⟨((s.endStream k).freeSlot_slotOn k k).trans (by simp), (congrArg Slot.phase hslot).trans (s.endStream_idle k),
    congrArg Slot.hold hslot, congrArg Slot.holdBytes hslot, congrArg Slot.input hslot,
    (congrArg (fun w => fld w 5 0) hreg).trans (hport.trans (congrArg (fun w => fld w 5 0) (hbind k hk))),
    (congrArg (fun w => fld w 20 16) hreg).trans (hbatch.trans (congrArg (fun w => fld w 20 16) (hbind k hk))),
    (congrArg (fun u : State => u.recipes) hend.1 :), (congrArg (fun u : State => u.ctxs) hend.1 :),
    (congrArg (fun u : State => u.hasp) hend.1 :), hlast, hother⟩

theorem exec_crlSlotDisable {s : State} {k : Nat} (v : Word) (hk : k < 32) (hm : s.missionOn = true) :
    exec (.crlSlotDisable k v) s = .next (if s.slotOn k then s.unbindSlot k
      else s.setReg (oSlotBind k) ((v &&& 0x03FF3F3F#32) ||| (s.reg (oSlotBind k) &&& 0xE0000000#32))) := by
  change execCrlSlotDisable k v s = _
  simp [execCrlSlotDisable, hm, Nat.not_le.mpr hk]

end Machine

end Sys2Proof

namespace Sys2Proof

namespace Machine

set_option Elab.async false

/-! ### A batch index is enabled (R236, R237) -/

theorem exec_crlBatchEnable {s : State} {b : Nat} {v : Word} (hb : b < 32) (hm : s.missionOn = true) (hoff : s.batchOn b = false)
    (herr : s.batchErr b v = 0) :
    exec (.crlBatchEnable b v) s = .next (s.setReg (oBatchCtl b) (startedWord v)).wakeBeams := by
  change execCrlBatchEnable b v s = _
  simp [execCrlBatchEnable, hm, hoff, herr, Nat.not_le.mpr hb, startedWord]

/-! ### A batch index is disabled (R241, R283) -/

theorem exec_crlBatchDisable_on {s : State} {b : Nat} (v : Word) (hb : b < 32) (hm : s.missionOn = true) (hon : s.batchOn b = true) :
    exec (.crlBatchDisable b v) s = .next (if s.members b = [] then s.dropBatch b else s.batchRefused b 3) := by
  change execCrlBatchDisable b v s = _
  by_cases h : s.members b = [] <;> simp [execCrlBatchDisable, hm, hon, Nat.not_le.mpr hb, h]

theorem modAt_congr {α : Type} {l : List α} {i : Nat} {f g : α → α} (h : ∀ a, l[i]? = some a → f a = g a) : modAt l i f = modAt l i g := by
  refine List.ext_getElem? fun j => ?_
  rw [getElem?_modAt, getElem?_modAt]
  cases ha : l[i]? with
  | none => rfl
  | some a => simp [h a ha]

/-- A batch index without instances. -/
def Batch.emptied (x : Batch) : Batch := { x with instances := [] }

/-- A batch index that is off, without instances. -/
def State.batchOff (s : State) (b : Nat) : State :=
  (s.setReg (oBatchCtl b) (setFld (s.reg (oBatchCtl b)) 16 16 0)).modBatch b Batch.emptied

/-- Where no step uses an instance of a batch index, a disable discards and releases them all. -/
theorem State.dropBatch_unused {s : State} {b : Nat} (hu : ∀ i ∈ (s.batch b).instances, ∀ t ∈ s.steps, t.uses b i.counter = false) :
    s.dropBatch b = (s.batchOff b).batchGone b := by
  suffices h : ((s.setReg (oBatchCtl b) (setFld (s.reg (oBatchCtl b)) 16 16 0)).modBatch b (fun x => { x with
      instances := x.instances.map (fun (i : Instance) => if s.steps.any (fun t => t.uses b i.counter) then i else { i with discarded := true }) })
      ).releaseInsts b = s.batchOff b from congrArg (fun u : State => u.batchGone b) h
  unfold State.releaseInsts State.batchOff State.modBatch
  simp only [modAt_modAt]
  refine congrArg (fun l => ({ s.setReg (oBatchCtl b) (setFld (s.reg (oBatchCtl b)) 16 16 0) with batches := l } : State)) ?_
  refine modAt_congr fun x hx => ?_
  have hxb : s.batch b = x := by simp [State.batch, show s.batches[b]? = some x from hx]
  have hunused : ∀ i ∈ x.instances, s.steps.any (fun t => t.uses b i.counter) = false := fun i hi =>
    List.any_eq_false.mpr fun t ht => by simp [hu i (hxb ▸ hi) t ht]
  have hbegun : ∀ i ∈ x.instances, s.steps.any (fun t => t.uses b i.counter && t.stage.begun) = false := fun i hi =>
    List.any_eq_false.mpr fun t ht => by simp [hu i (hxb ▸ hi) t ht]
  refine congrArg (fun l => ({ x with instances := l } : Batch)) (List.filter_eq_nil_iff.mpr fun j hj => ?_)
  obtain ⟨i', hi', rfl⟩ := List.mem_map.mp hj
  obtain ⟨i, hi, rfl⟩ := List.mem_map.mp hi'
  simp [hunused i hi, hbegun i hi]

theorem State.batchOff_reg (s : State) (b o : Nat) :
    (s.batchOff b).reg o = if oBatchCtl b = o then setFld (s.reg (oBatchCtl b)) 16 16 0 else s.reg o := State.reg_setReg _ _ _ _

theorem State.batchOff_off (s : State) (b : Nat) : (s.batchOff b).batchOn b = false := by
  rw [State.batchOn, State.batchOff_reg, if_pos rfl, bitW_clear]
  simp

/-- The batch index keeps its count of instances. -/
theorem State.batchOff_batch (s : State) (b : Nat) : (s.batchOff b).batch b = (s.batch b).emptied := by
  have hb : (s.batchOff b).batches[b]? = s.batches[b]?.map Batch.emptied := (getElem?_modAt _ _ _ _).trans (if_pos rfl)
  rw [State.batch, hb, State.batch]
  cases s.batches[b]? <;> rfl

theorem oBatchCtl_plain {b : Nat} (hb : b < 32) : isOverflowReg (oBatchCtl b) = false := by
  simp only [isOverflowReg, oBatchCtl, oCtrOvf, oCtrOvfAon]
  simp
  omega

/-! ### A step that waits for an instance completes (R283) -/

/-- What a completion record asks for, of a state from which only counters, dies and steps differ. -/
theorem State.recordDue.of_frame {t u s : State} {cx : Ctx} {c : Completion} (h : t.recordDue u cx c) (hr : u.rings = s.rings)
    (hp : ∀ p, u.hport p = s.hport p) (hm : ∀ p, u.hostMem p = s.hostMem p) : t.recordDue s cx c := by
  intro r cr h1 h2 h3
  rw [← State.ring?_congr hr] at h1 h2
  rw [← hp] at h3
  rw [← hm]
  exact h r cr h1 h2 h3

/-- The record of a step that was never admitted says nothing of the state. -/
theorem State.unrunRecord_waiting {x : Step} (h : x.stage = .waiting) (u s : State) (status detail : Nat) :
    u.unrunRecord x status detail = s.unrunRecord x status detail := by
  simp [State.unrunRecord, h]

/-- The one step of a state ends NOT_ADMITTED before it ran: it is forgotten, and its record is due. -/
theorem State.endUnrun_notAdmitted {s : State} {x : Step} {cx : Ctx} (hs : s.steps = [x]) (hcx : s.ctx? x.ctx = some cx) (detail : Nat) :
    (s.endUnrun x 0x10 detail).steps = [] ∧ (s.endUnrun x 0x10 detail).recordDue s cx (s.unrunRecord x 0x10 detail) ∧
      ∀ o, isOverflowReg o = false → (s.endUnrun x 0x10 detail).reg o = s.reg o := by
  obtain ⟨hnil, hdrop⟩ := State.dropStep_frame hs
  have hcount := countStep_onlyDraws (s.dropStep x.id) x.ctx x.lc 0x10
  have hunf : s.endUnrun x 0x10 detail =
      (completeDesc (countStep (s.dropStep x.id) x.ctx x.lc 0x10) x.ctx (s.unrunRecord x 0x10 detail)).releaseInsts x.batchIndex := by
    simp [State.endUnrun]
  have hdel : (countStep (s.dropStep x.id) x.ctx x.lc 0x10).sameButDelivered s :=
    hcount.dies.delivered.trans (.of_steps hdrop)
  have hrec := completeDesc_onlyRecords (countStep (s.dropStep x.id) x.ctx x.lc 0x10) x.ctx (s.unrunRecord x 0x10 detail)
  have hrings : (countStep (s.dropStep x.id) x.ctx x.lc 0x10).rings = s.rings :=
    (congrArg (fun u : State => u.rings) hcount.1 :).trans (congrArg (fun u : State => u.rings) hdrop.1 :)
  have hmemA : (countStep (s.dropStep x.id) x.ctx x.lc 0x10).hostMemA = s.hostMemA :=
    (congrArg (fun u : State => u.hostMemA) hcount.1 :).trans (congrArg (fun u : State => u.hostMemA) hdrop.1 :)
  have hmemB : (countStep (s.dropStep x.id) x.ctx x.lc 0x10).hostMemB = s.hostMemB :=
    (congrArg (fun u : State => u.hostMemB) hcount.1 :).trans (congrArg (fun u : State => u.hostMemB) hdrop.1 :)
  have hsteps : (countStep (s.dropStep x.id) x.ctx x.lc 0x10).steps = [] := (congrArg (fun u : State => u.steps) hcount.1 :).trans hnil
  rw [hunf]
  generalize countStep (s.dropStep x.id) x.ctx x.lc 0x10 = u at hdel hrec hrings hmemA hmemB hsteps
  have hcxu : u.ctx? x.ctx = some cx := (congrArg (fun v : State => v.ctx? x.ctx) hdel.1 :).trans hcx
  have hdue : (completeDesc u x.ctx (s.unrunRecord x 0x10 detail)).recordDue u cx (s.unrunRecord x 0x10 detail) :=
    completeDesc_recordDue hcxu (show (0x10 : Nat) ≠ 0x13 by decide) rfl
  refine ⟨(congrArg (fun v : State => v.steps) hrec.1 :).trans hsteps, ?_, fun o ho => (hrec.2 o ho).trans (hdel.2 o ho)⟩
  exact (hdue.of_frame hrings (fun p => (congrArg (fun v : State => v.hport p) hdel.1 :)) (State.hostMem_congr hmemA hmemB)).congr rfl rfl rfl

/-- A disabled batch index releases the one step that waits for an instance of it. -/
theorem State.dropBatch_waiting {s : State} {x : Step} {cx : Ctx} {b : Nat} (hb : b < 32) (hs : s.steps = [x]) (hcx : s.ctx? x.ctx = some cx)
    (hopen : cx.closing = false) (hxb : x.batchIndex = b) (hw : s.waitsOpen x = true) :
    (s.dropBatch b).steps = [] ∧ (s.dropBatch b).recordDue s cx (s.unrunRecord x 0x10 9) ∧ (s.dropBatch b).batchOn b = false := by
  have hw' := hw
  simp only [State.waitsOpen, Bool.and_eq_true, decide_eq_true_eq, Option.isNone_iff_eq_none] at hw'
  obtain ⟨⟨hwait, hbatch⟩, hnone⟩ := hw'
  rw [hxb] at hnone
  have hunused : ∀ i ∈ (s.batch b).instances, ∀ t ∈ s.steps, t.uses b i.counter = false := by
    intro i hi t ht
    have hne : i.counter ≠ x.inst := by simpa using List.find?_eq_none.mp hnone i hi
    obtain rfl : t = x := by simpa [hs] using ht
    simp [Step.uses, hne.symm]
  have hopenU : (s.batchOff b).ctxOpen x.ctx = true := State.ctxOpen_of hcx hopen
  have hwaitU : (s.batchOff b).waitsOpen x = true := by
    simp [State.waitsOpen, hwait, hbatch, hxb, State.inst?, State.batchOff_batch, Batch.emptied]
  have hgone : (s.batchOff b).batchGone b = ((s.batchOff b).endUnrun x 0x10 9).choose := by
    have hsU : (s.batchOff b).steps = [x] := hs
    simp [State.batchGone, hsU, hxb, hwaitU, hopenU]
  obtain ⟨hnil, hdue, hreg⟩ := State.endUnrun_notAdmitted (s := s.batchOff b) (x := x) (cx := cx) hs hcx 9
  obtain ⟨y, -, hy⟩ := State.choose_onlySched hnil
  rw [State.dropBatch_unused hunused, hgone, hy]
  refine ⟨hnil, ?_, ?_⟩
  · rw [State.unrunRecord_waiting hwait s (s.batchOff b)]
    exact (hdue.of_frame rfl (fun _ => rfl) (fun p => by cases p <;> rfl)).congr rfl rfl rfl
  · exact (congrArg (fun w => bitW w 16) (hreg _ (oBatchCtl_plain hb))).trans (s.batchOff_off b)

/-! ### O56: the clauses together -/

/-- Settles O56: an enable binds or starts, a refusal writes err, a disable ends the stream or empties the batch index. -/
theorem slotsAndBatchesAreConfigured : Obligations.SlotsAndBatchesAreConfigured := by
  unfold Obligations.SlotsAndBatchesAreConfigured
  refine ⟨?_, ?_, ?_, ?_, ?_, ?_, ?_, ?_, ?_, ?_, ?_, ?_⟩
  · intro k v x s hk hm hoff herr hx hlen
    have hreg := s.bindSlot_reg k v x.recipe
    obtain ⟨hport, hrec, hbatch, hpos⟩ := boundWord_fields v
    obtain ⟨n, hslot⟩ := State.bindSlot_slot hlen v x.recipe
    refine ⟨_, (exec_crlSlotEnable hk hm hoff herr hx).trans (congrArg Host.Outcome.next (s.bindSlot_clock hk v x.recipe)), ?_⟩
    refine ⟨(congrArg (fun w => bitW w 28) hreg).trans (boundWord_on v), (congrArg (fun w => fld w 5 0) hreg).trans hport,
      (congrArg (fun w => fld w 13 8) hreg).trans hrec, (congrArg (fun w => fld w 20 16) hreg).trans hbatch,
      (congrArg (fun w => fld w 25 21) hreg).trans hpos, congrArg Slot.phase hslot, congrArg Slot.good hslot, congrArg Slot.substituted hslot,
      congrArg Slot.corrupt hslot, congrArg Slot.late hslot, congrArg Slot.dropped hslot, congrArg Slot.holdBytes hslot,
      fun j hj => s.bindSlot_slot_ne v x.recipe hj, fun o ho => s.bindSlot_reg_ne k v x.recipe ho, rfl, rfl⟩
  · intro k v s hk hm hoff herr
    exact exec_crlSlotEnable_refused hk hm hoff herr
  · intro k v s hon
    change execCrlSlotEnable k v s = _
    simp [execCrlSlotEnable, hon]
  · intro k v s hk hm hon hs
    exact ⟨_, (exec_crlSlotDisable v hk hm).trans (congrArg Host.Outcome.next (if_pos hon)), State.unbindSlot_frees hk hon hs⟩
  · intro k v s hk hm hoff
    exact ⟨_, (exec_crlSlotDisable v hk hm).trans (congrArg Host.Outcome.next (if_neg (by simp [hoff]))), State.sets_setReg _ _ _⟩
  · intro b v s hb hm hoff herr
    have hreg := s.reg_setReg_self (oBatchCtl b) (startedWord v)
    have hframe := (s.setReg (oBatchCtl b) (startedWord v)).wakeBeams_frame
    have hweft := (s.setReg (oBatchCtl b) (startedWord v)).wakeBeams_weft
    have hkeep : (s.setReg (oBatchCtl b) (startedWord v)).wakeBeams.reg (oBatchCtl b) = startedWord v :=
      (congrArg (fun u : State => u.reg (oBatchCtl b)) hframe :).trans hreg
    refine ⟨_, _, exec_crlBatchEnable hb hm hoff herr, State.sets_setReg _ _ _, (congrArg (fun w => bitW w 16) hkeep).trans (startedWord_on v),
      (congrArg (fun w => fld w 5 0) hkeep).trans (startedWord_size v), hframe, fun d => (hweft d).1,
      fun d q hrec hin hgrp hq => State.wakeBeams_waking (s := s.setReg (oBatchCtl b) (startedWord v)) hrec hin hgrp hq, fun d => (hweft d).2.2⟩
  · intro b v s hb hm hoff herr
    change execCrlBatchEnable b v s = _
    simp [execCrlBatchEnable, hm, hoff, herr, Nat.not_le.mpr hb, State.batchRefused]
  · intro b v s hon
    change execCrlBatchEnable b v s = _
    simp [execCrlBatchEnable, hon]
  · intro b v s hb hm hon hmem
    exact (exec_crlBatchDisable_on v hb hm hon).trans (congrArg Host.Outcome.next (if_neg hmem))
  · intro b v s hb hm hon hmem hs
    obtain ⟨y, hrun, hy⟩ := State.batchGone_onlySched (s := s.batchOff b) hs b
    have hdrop := (State.dropBatch_unused (s := s) (b := b) fun i _ t ht => by simp [hs] at ht).trans hy
    have hbatch := s.batchOff_batch b
    refine ⟨_, (exec_crlBatchDisable_on v hb hm hon).trans (congrArg Host.Outcome.next ((if_pos hmem).trans hdrop)), s.batchOff_off b,
      (congrArg Batch.instances hbatch :), (congrArg Batch.counter hbatch :), fun o ho => ?_, hrun, rfl⟩
    exact (s.batchOff_reg b o).trans (if_neg ho.symm)
  · intro b v s hb hm hoff
    refine ⟨_, ?_, State.sets_setReg s (oBatchCtl b) _⟩
    change execCrlBatchDisable b v s = _
    simp [execCrlBatchDisable, hm, hoff, Nat.not_le.mpr hb]
  · intro b cx v x s hb hm hon hmem hs hcx hopen hxb hw
    exact ⟨_, (exec_crlBatchDisable_on v hb hm hon).trans (congrArg Host.Outcome.next (if_pos hmem)),
      State.dropBatch_waiting hb hs hcx hopen hxb hw⟩

end Machine

end Sys2Proof

namespace Sys2Proof

namespace Machine

set_option Elab.async false

/-! ### SYNC_IN captures device time (R370) -/

/-- What a captured edge leaves: the time in KPR_SYNC_IN_TIME, the captured bit, and the overrun bit where a capture was held. -/
def State.syncCapture (s : State) (t : Nat) : State :=
  ((s.setReg 0x230 (BitVec.ofNat 32 t)).setReg 0x234 (BitVec.ofNat 32 (t / 2 ^ 32))).setReg oSyncStatus
    (if bitW (s.reg oSyncStatus) 0 then s.reg oSyncStatus ||| 3#32 else s.reg oSyncStatus ||| 1#32)

/-- The selected edge is captured, unless a capture within 1 µs before it is held. -/
theorem exec_syncInEdge {s : State} {rising : Bool} {q : Nat} (hon : bitW (s.reg oSyncCtl) 1 = true)
    (hedge : (bitW (s.reg oSyncCtl) 2 != rising) = true)
    (hfar : (bitW (s.reg oSyncStatus) 0 = false ∧ s.syncInTime = 0) ∨ 1000 < s.time.now.toNat + 40 * q - s.syncInTime) :
    exec (.syncInEdge rising q) s = .next (s.syncCapture (s.time.now.toNat + 40 * q)) := by
  have htaken : (!((bitW (s.reg oSyncStatus) 0 || s.syncInTime != 0) && decide (s.time.now.toNat + 40 * q - s.syncInTime ≤ 1000))) = true := by
    rcases hfar with ⟨hfree, hzero⟩ | hlate
    · simp [hfree, hzero]
    · simp [Nat.not_le.mpr hlate]
  change execSyncInEdge rising q s = _
  simp only [execSyncInEdge, hon, hedge, htaken, Bool.and_self, if_true]
  rfl

/-- KPR_SYNC_IN_TIME holds a time of 64 bits. -/
theorem State.syncInTime_syncCapture (s : State) {t : Nat} (ht : t < 2 ^ 64) : (s.syncCapture t).syncInTime = t := by
  have hlo : (s.syncCapture t).reg 0x230 = BitVec.ofNat 32 t := by simp [State.syncCapture, State.reg_setReg]
  have hhi : (s.syncCapture t).reg 0x234 = BitVec.ofNat 32 (t / 2 ^ 32) := by simp [State.syncCapture, State.reg_setReg]
  rw [State.syncInTime, hlo, hhi, BitVec.toNat_ofNat, BitVec.toNat_ofNat]
  omega

theorem State.syncCapture_captured (s : State) (t : Nat) : bitW ((s.syncCapture t).reg oSyncStatus) 0 = true := by
  rw [State.syncCapture, State.reg_setReg_self]
  split <;> simp [bitW]

theorem State.syncCapture_overrun {s : State} (h : bitW (s.reg oSyncStatus) 0 = true) (t : Nat) :
    bitW ((s.syncCapture t).reg oSyncStatus) 1 = true := by
  rw [State.syncCapture, State.reg_setReg_self, if_pos h]
  simp [bitW]

theorem State.syncCapture_reg (s : State) (t : Nat) {o : Nat} (hlo : o ≠ 0x230) (hhi : o ≠ 0x234) (hst : o ≠ oSyncStatus) :
    (s.syncCapture t).reg o = s.reg o := by
  simp only [State.syncCapture, State.reg_setReg, if_neg hlo.symm, if_neg hhi.symm, if_neg hst.symm]

/-! ### A measured offset (R339 to R341) -/

/-- An offset of 1 ms at most is held as it is. -/
theorem satOffset_of_le {o : Int} (h : o.natAbs ≤ 1000000) : satOffset o = BitVec.ofInt 32 o := by
  have hmin : min (2 ^ 31 - 1) o = o := by omega
  have hmax : max (-(2 ^ 31)) o = o := by omega
  rw [satOffset, hmin, hmax]

/-- A dialogue has measured an offset of 1 ms at most: it is recorded, and the source has not failed. -/
def Time.measured (t : Time) (o : Int) : Time := { t with offset := BitVec.ofInt 32 o, failed := false }

/-- A locked clock slews an offset of 1 ms at most away. -/
theorem State.timeMeasure_locked {s : State} (hl : s.time.lock = 2) {o : Int} (ho : o.natAbs ≤ 1000000) :
    s.timeMeasure o = { s with time := (s.time.measured o).locked (-o) } := by
  simp only [State.timeMeasure, satOffset_of_le ho, hl, if_true, Time.correct, if_pos ho]
  rfl

/-- A clock that has lost its lock is locked again by the eighth offset of 1 µs at most in a row. -/
theorem State.timeMeasure_relocks {s : State} (hl : s.time.lock ≠ 2) (he : s.time.everLocked = true) (hg : s.time.good = 7) {o : Int}
    (ho : o.natAbs ≤ 1000) : s.timeMeasure o = { s with time := { (s.time.measured o).locked (-o) with good := 8 } } := by
  have hms : o.natAbs ≤ 1000000 := by omega
  simp only [State.timeMeasure, satOffset_of_le hms, if_neg hl, he, if_true, Time.regain, if_pos hms, if_pos ho, hg, Nat.reduceAdd, le_refl,
    Time.measured]

/-- Before the eighth the offset counts, and is slewed away. -/
theorem State.timeMeasure_recounts {s : State} (hl : s.time.lock ≠ 2) (he : s.time.everLocked = true) (hg : s.time.good < 7) {o : Int}
    (ho : o.natAbs ≤ 1000) :
    s.timeMeasure o = { s with time := { s.time.measured o with lock := 1, good := s.time.good + 1, slew := -o } } := by
  have hms : o.natAbs ≤ 1000000 := by omega
  have hfew : ¬ 8 ≤ s.time.good + 1 := by omega
  simp only [State.timeMeasure, satOffset_of_le hms, if_neg hl, he, if_true, Time.regain, if_pos hms, if_pos ho, if_neg hfew, Time.measured]

/-- A clock that has counted one offset more. -/
def Time.counted (t : Time) (o : Int) : Time := { t.measured o with good := t.good + 1 }

/-- Before the first lock, an offset of 1 µs at most that is not the first of its row counts; the eighth gives the lock, with a step forward to
a source that is ahead. -/
theorem State.timeMeasure_acquire {s : State} (hl : s.time.lock ≠ 2) (he : s.time.everLocked = false) (hg : 0 < s.time.good) {o : Int}
    (ho : o.natAbs ≤ 1000) :
    s.timeMeasure o = { s with time :=
      if s.time.good + 1 < 8 then s.time.counted o else if o < 0 then (s.time.counted o).stepped o else (s.time.counted o).locked (-o) } := by
  have hms : o.natAbs ≤ 1000000 := by omega
  have hle : o ≤ 1000 := by omega
  simp only [State.timeMeasure, satOffset_of_le hms, if_neg hl, he, Bool.false_eq_true, if_false, Time.acquire, decide_eq_true hg,
    decide_eq_true ho, Bool.true_or, Bool.and_self, if_true, if_pos hle, Time.counted, Time.measured]

/-- A dialogue with the selected PTM source that measured an offset. -/
theorem exec_ptmDialogue {s : State} {p : HostPort} (hs : s.timeSource = 2 + portPart p) (hup : (s.hport p).up = true) (o : Int) :
    exec (.ptmDialogue p (some o)) s = .next (s.timeMeasure o) := if_pos ⟨hs, hup⟩

/-- A frame of the selected 802.1AS source that measured an offset. -/
theorem exec_gptpFrame {s : State} {e : Nat} (hs : s.timeSource = 1) (he : fld (s.reg oTimeCtl) 3 2 = e)
    (hp : bitW (s.reg (oPortCtl (0x18 + e))) 0 = true) (o : Int) :
    exec (.gptpFrame e (some o)) s = .next (s.timeMeasure o) := if_pos ⟨hs, he, hp⟩

/-- Device time in holdover after its source failed. -/
def Time.heldOver (t : Time) : Time := { t with lock := 3, good := 0, slew := 0, failed := true }

/-- A source that fails puts time into holdover and raises its source, which only captures when it is silent. -/
theorem State.timeFail_silent {s : State} (hs : s.timeSource ≠ 0) (hf : s.time.failed = false) (hn : s.silent 0x006) :
    s.timeFail.time = s.time.heldOver ∧ s.timeFail.captured 0x006 (cap none noMaster 0 0 0) ∧
      State.sameButHealth { s.timeFail with time := s.time } s := by
  have hfail : s.timeFail = State.raise { s with time := s.time.heldOver } 0x006 (cap none noMaster 0 0 0) := by
    simp only [State.timeFail, decide_eq_false hs, hf, Bool.or_self, Bool.false_eq_true, if_false]
    rfl
  obtain ⟨hr, hcap, -⟩ := State.raise_silent { s with time := s.time.heldOver } 0x006 (cap none noMaster 0 0 0) hn
  rw [← hfail] at hr hcap
  exact ⟨(congrArg (fun x : State => x.time) hr.1 :), hcap, (congrArg (fun x : State => { x with time := s.time }) hr.1 :), hr.2⟩

/-- Settles O10: a captured edge is three register writes; a dialogue's offset goes by the lock that the clock has. -/
theorem timeFollowsItsSourceAndSyncPins : Obligations.TimeFollowsItsSourceAndSyncPins := by
  unfold Obligations.TimeFollowsItsSourceAndSyncPins
  refine ⟨?_, ?_, ?_, ?_, ?_, ?_, ?_, ?_, ?_, ?_⟩
  · intro rising q s hq hnow hon hedge hfar
    exact ⟨_, exec_syncInEdge hon hedge hfar, s.syncInTime_syncCapture (by omega), s.syncCapture_captured _,
      fun h => State.syncCapture_overrun h _, rfl, fun o hlo hhi hst => s.syncCapture_reg _ hlo hhi hst⟩
  · intro s hon hp hw hsince hph
    have hm : s.missionOn = true := decide_eq_true hph
    change execSyncOutRise s = _
    simp [execSyncOutRise, hon, hp, hw, hsince, hm]
  · intro s hout hw
    change execSyncOutFall s = _
    simp [execSyncOutFall, hout, hw]
  · intro p o s hs hup hl ho
    exact ⟨_, (exec_ptmDialogue hs hup o).trans (congrArg Host.Outcome.next (State.timeMeasure_locked hl ho)), rfl, rfl, rfl, rfl, rfl⟩
  · intro p o s hs hup hl he hg ho
    exact ⟨_, (exec_ptmDialogue hs hup o).trans (congrArg Host.Outcome.next (State.timeMeasure_relocks hl he hg ho)), rfl, rfl, rfl, rfl⟩
  · intro p o s hs hup hl he hg ho
    exact ⟨_, (exec_ptmDialogue hs hup o).trans (congrArg Host.Outcome.next (State.timeMeasure_recounts hl he hg ho)), rfl, rfl, rfl, rfl⟩
  · intro p o s hs hup hl he hg ho
    refine ⟨_, exec_ptmDialogue hs hup o, ?_⟩
    rw [State.timeMeasure_acquire hl he hg ho]
    by_cases hrow : s.time.good + 1 < 8
    · rw [if_pos hrow]
      exact ⟨rfl, rfl, fun _ => ⟨rfl, rfl⟩, fun h => absurd h (by omega)⟩
    · rw [if_neg hrow]
      by_cases hneg : o < 0
      · rw [if_pos hneg]
        exact ⟨rfl, rfl, fun h => absurd h (by omega), fun _ => ⟨rfl, rfl, fun _ => ⟨rfl, rfl⟩, fun h => absurd h (by omega)⟩⟩
      · rw [if_neg hneg]
        exact ⟨rfl, rfl, fun h => absurd h (by omega), fun _ => ⟨rfl, rfl, fun h => absurd h hneg, fun _ => ⟨rfl, rfl⟩⟩⟩
  · intro p s hs hup
    exact if_pos ⟨hs, hup⟩
  · intro e o s hs he hp hl ho
    exact ⟨_, (exec_gptpFrame hs he hp o).trans (congrArg Host.Outcome.next (State.timeMeasure_locked hl ho)), rfl, rfl, rfl, rfl, rfl⟩
  · intro s hs hf hn
    exact ⟨_, rfl, State.timeFail_silent hs hf hn⟩

end Machine

end Sys2Proof
